-- ==== Sys2Proof/Word.lean ====
section
/-!
DEFINITION. The words of the Celsyn 9 model: bytes, 32- and 64-bit words, register elements, predicates,
and the small plain types that the syntax of instructions and events is written with.
-/
namespace Sys2Proof

/-- A byte of memory (R8: multi-byte values are little-endian). -/
abbrev Byte := BitVec 8
/-- A 32-bit word. -/
abbrev W32 := BitVec 32
/-- A 64-bit word. -/
abbrev W64 := BitVec 64
/-- One lane's element of a vector register: row k of R58 is bits 32k+31..32k. -/
abbrev Elem := BitVec 128

/-- A predicate of one lane (R72): F, T or U. -/
inductive Tri where
  | f | t | u
  deriving DecidableEq, Repr

/-- A finite table: keys strictly rising, an absent key reads as the default its user names. -/
abbrev Tab (α : Type) := List (Nat × α)

/-- Where an uncorrectable or corrected error arises (R345, R368, R435, R517). -/
inductive ErrSite where
  /-- A line, by its physical line number: in memory, or in the L2. -/
  | line (pline : Nat) (memory : Bool)
  /-- Both copies of an L2 slice's tag. -/
  | l2Tags (die slice : Nat)
  /-- One copy of a tag. -/
  | l2OneTag (die slice : Nat)
  /-- A word of slice scratch or of a bank write buffer: its physical address. -/
  | sliceScratch (pa : Nat)
  /-- A register granule: core, workgroup slot, group, register and granule. -/
  | granule (core wg grp reg gran : Nat)
  /-- A FIFO entry: core, workgroup slot, FIFO and place. -/
  | fifoEntry (core wg fifo place : Nat)
  /-- A cell or side register of a tile row. -/
  | tileRow (core wg tile row : Nat)
  /-- Instruction bytes in an L1. -/
  | instrBytes (core : Nat)
  /-- A Churn slot. -/
  | churnSlot (die slot : Nat)
  /-- Control state of a core. -/
  | coreControl (core : Nat)
  /-- A TLB entry of a cluster: its place in the table. -/
  | tlbEntry (cluster place : Nat)
  /-- A reverse-map record: cluster and physical line; `recoverable` as R345. -/
  | reverseMap (cluster pline : Nat) (recoverable : Bool)
  /-- A line of an atomic unit. -/
  | atomLine (cluster pline : Nat)
  /-- Barrier-network or range-descriptor state. -/
  | clusterState (cluster : Nat)
  /-- A record of the flash journal or a lifetime counter. -/
  | flash (index : Nat)
  deriving DecidableEq, Repr

/-- What one boot step met (R514). `image` is the digest of the image the step verified (steps 2 and 7). -/
structure BootOutcome where
  /-- The primary action succeeds. -/
  primaryOk : Bool
  /-- The alternate succeeds, when it is the one run. -/
  alternateOk : Bool
  /-- The bytes of the image that the step reads, when the step reads one (R512). -/
  image : List Byte
  /-- The image's class i: which measurement register m_i it extends (R512). -/
  cls : Nat
  deriving DecidableEq, Repr

/-- What creating a partition fixes (R232, R238, R340, R355, R420): its clusters on each die, its scratchpad size
in KiB, its cap and its Churn limit. -/
structure PartSpec where
  /-- Bit 24d + c: cluster c of die d belongs to the partition. -/
  clusters : BitVec 96
  /-- Scratchpad size of each core, in KiB: 0 to 448 in steps of 64. -/
  scratchKiB : Nat
  /-- The Churn limit that firmware writes on each die (R421). -/
  churnLimit : Nat
  deriving DecidableEq, Repr

/-- The kinds of access that arrive over the fabric (R524, R525). -/
inductive RemoteKind where
  | read | write | atomic
  deriving DecidableEq, Repr

/-- An access of another package at this one (R519, R524, R525): its source, physical address, size in bytes, at most a flit's payload of
data, atomic operation, and whether the source wants the old value. -/
structure RemoteReq where
  src : Nat
  kind : RemoteKind
  pa : Nat
  size : Nat
  data : BitVec 1024
  cmp : W64
  aop : Nat
  ret : Bool
  deriving DecidableEq, Repr

/-- A message of a flit (R519): the number of the outstanding access that it answers, its status and its data. -/
structure FlitMsg where
  access : Nat
  ok : Bool
  data : List Byte
  deriving DecidableEq, Repr

/-- A flit as a receiver sees it (R519): sequence number, kind, whether the CRC is right, whether buffer space is there, the message, and a
second message of the same source and destination. -/
structure Flit where
  seq : Nat
  kind : Nat
  crcOk : Bool
  space : Bool
  msg : FlitMsg
  second : Option FlitMsg
  deriving DecidableEq, Repr

end Sys2Proof
end

