-- ==== Sys2Proof/Config.lean ====
section
/-!
DEFINITION. What an implementation fixes and the free values: constants with no body, of which no proof can see a value.
A free value stands where the spec calls a result undefined (R15) or leaves a value open; see the assumption log.
-/
namespace Sys2Proof.Config

/-- The free value number n (R15): the machine draws them in order of its counter `freeIdx`, a fresh one each time. (DEDUCED, log entry 7.) -/
opaque freeValue : Nat → BitVec 128

/-- The byte at offset `o` of the private window of the lane with residency number `r` before any store to it
(R56: the contents are undefined at group start). (DEDUCED, log entry 3.) -/
opaque privateByte : Nat → Nat → Byte

/-- The byte at a physical address of a peer package's window as that package returns it in a cycle (R523: the owner's memory is
outside this package). (DEDUCED, log entry 18.) -/
opaque peerByte : Nat → Nat → Byte

/-- What the host supplies of a 64-byte half that it owns, when it is asked for it in a cycle: its dirty data, or none where the half is
clean (R495, R496: the host's caches are outside this package). (DEDUCED, log entry 47.) -/
opaque hostDirty : Nat → Nat → Option (BitVec 512)

/-- The rounding of a transcendental result that the model's own bounded search has not decided (R118); the arguments
are the function's number and the operand's magnitude and exponent. (DEDUCED, log entry 8.) -/
opaque transcendental : Nat → Nat → Nat → Nat → BitVec 128

/-- The code of 0x21 to 0x3F that firmware assigns to a system cause, by the model's number of its kind: 1 a lost-line table overflowed, 2 an
L2 slice lost both tag copies, 3 a network link was taken out of service, 4 a core's control state was damaged, 5 a port was taken out
of service (R258: firmware assigns them). (DEDUCED, log entry 44.) -/
opaque systemCode : Nat → Nat

/-- What stands at the far end of port i: the peer package's number, 127 for a switch, and the low 8 bits of the port's number there (R521). -/
opaque farEnd : Nat → BitVec 7 × Byte

/-- The inbound table that firmware writes when it brings the fabric into service: base, limit, R and W of a source package (R524). -/
opaque inboundEntry : Nat → Nat × Nat × Bool × Bool

/-- The energy in µJ that one activity of a core's units charges: an issued chain, a tile operation, a row of a slice or of a copy (R508: the
weights are implementation-dependent, R16). -/
opaque activityEnergy : Nat → Nat
/-- The energy in µJ that partition p is charged in an interval for what no workgroup's activity accounts for (R508). -/
opaque idleEnergy : Nat → Nat → Nat
/-- The calibration error bound in tenths of a percent that capability register 0x0007_0C00 reports (R508, R16). -/
opaque energyCalibration : BitVec 64
/-- Whether the ECDSA P-256 signature chain of an image ends at the root key held in the boot ROM (R512). -/
opaque imageVerifies : List Byte → Bool
/-- The certificate chain of the device identity key (R513). -/
opaque certificate : List Byte
/-- The ECDSA P-256 signature of the device identity key over a message (R513). -/
opaque sign : List Byte → List Byte
/-- The firmware version word of FWCALL 0x00 by image slot: [63:32] image slot and major, [31:0] build (R511). -/
opaque firmwareVersion : Nat → BitVec 64
/-- The firmware threshold in m°C above which a forecast orders half-row mode (R510). -/
opaque thermalThreshold : Int
/-- Where firmware's allocator puts its reserve of save areas in die 0's second tier (R246), in units of 256 bytes. (DESIGN CHOICE, log entry 19.) -/
opaque saveReserve : Nat
/-- The bank of a memory device that holds a physical line (R474, R515: how lines are spread is not architectural), modulo 16. -/
opaque memoryBank : Nat → Nat
/-- A posted MMIO write to a physical address in a cycle fails at its completer (R498). -/
opaque postedFails : Nat → Nat → Bool
/-- Which eligible cluster the front end assigns a workgroup to (R399: not architectural), as an index. -/
opaque clusterChoice : Nat → Nat

end Sys2Proof.Config
end

