-- ==== Sys2Proof/Syntax.lean ====
section
/-!
DEFINITION. The instructions of the Vorom instruction set and the events of the GC9-2408 package: one constructor per
row of spec/opcode_table.json. A word holds its fields as the table names them (R34, R38), each as the number its
bits spell; an event holds the data that the event names.
-/
namespace Sys2Proof

/-- Format R (R34), two sources: chain bit, d, a, b, La, Lb, guard, stall. -/
structure R3 where
  c : Nat
  d : Nat
  a : Nat
  b : Nat
  l : Nat
  m : Nat
  g : Nat
  s : Nat
  deriving DecidableEq, Repr

/-- Format R with one source: chain bit, d, a, La, guard, stall. -/
structure R1 where
  c : Nat
  d : Nat
  a : Nat
  l : Nat
  g : Nat
  s : Nat
  deriving DecidableEq, Repr

/-- Format R compare: chain bit, destination predicate, a, b, La, Lb, guard, stall. -/
structure RCmp where
  c : Nat
  q : Nat
  a : Nat
  b : Nat
  l : Nat
  m : Nat
  g : Nat
  s : Nat
  deriving DecidableEq, Repr

/-- Format I: chain bit, d, a, imm9 (as its 9 bits), La, stall. -/
structure RImm where
  c : Nat
  d : Nat
  a : Nat
  i : Nat
  l : Nat
  s : Nat
  deriving DecidableEq, Repr

/-- Format W: chain bit, d, imm18, stall. -/
structure RWide where
  c : Nat
  d : Nat
  i : Nat
  s : Nat
  deriving DecidableEq, Repr

/-- Format R of FUNARY and CVT: chain bit, d, a, La, guard, stall, rounding code. -/
structure RRnd where
  c : Nat
  d : Nat
  a : Nat
  l : Nat
  g : Nat
  s : Nat
  r : Nat
  deriving DecidableEq, Repr

/-- Format R compare with one source: chain bit, destination predicate, a, La, guard, stall. -/
structure RCmp1 where
  c : Nat
  q : Nat
  a : Nat
  l : Nat
  g : Nat
  s : Nat
  deriving DecidableEq, Repr

/-- QLOGIC with two predicate sources x and y. -/
structure RQ2 where
  c : Nat
  q : Nat
  x : Nat
  y : Nat
  g : Nat
  s : Nat
  deriving DecidableEq, Repr

/-- QLOGIC with one predicate source x. -/
structure RQ1 where
  c : Nat
  q : Nat
  x : Nat
  g : Nat
  s : Nat
  deriving DecidableEq, Repr

/-- QSET: destination predicate and the constant k. -/
structure RQSet where
  c : Nat
  q : Nat
  k : Nat
  g : Nat
  s : Nat
  deriving DecidableEq, Repr

/-- Format M with a size: chain bit, d, a, off5 (as its 5 bits), SZ, SC, H. -/
structure MMem where
  c : Nat
  d : Nat
  a : Nat
  o : Nat
  z : Nat
  s : Nat
  h : Nat
  deriving DecidableEq, Repr

/-- Format M of LDG and STG. -/
structure MGran where
  c : Nat
  d : Nat
  a : Nat
  o : Nat
  s : Nat
  h : Nat
  deriving DecidableEq, Repr

/-- Format A: chain bit, d, a, b, SC, ORD, W64, RET. -/
structure AAtom where
  c : Nat
  d : Nat
  a : Nat
  b : Nat
  s : Nat
  o : Nat
  w : Nat
  r : Nat
  deriving DecidableEq, Repr

/-- MMA: tile, fa, fb, RM, RS, Z. -/
structure TMma where
  c : Nat
  a : Nat
  f : Nat
  g : Nat
  r : Nat
  s : Nat
  z : Nat
  deriving DecidableEq, Repr

/-- An instruction word or an event of the package (R38, R39; file 95 lists the events). -/
inductive Instr where
  /-- R236. Each allowed cycle each issue slot gives one pack an issue opportunity. -/
  | issueOpportunity (core : Nat)
  /-- R239. A new issue duty takes effect at the next cycle that is a multiple of 16. -/
  | dutyChange (core : Nat)
  /-- R33. An outstanding register write completes and clears its scoreboard entry. -/
  | resultWriteback (core wg grp id : Nat)
  /-- R247. A sleeping path becomes eligible when its count ends. -/
  | sleepExpiry (core wg grp id : Nat)
  /-- R233. A core admits a queued workgroup once all its resources are free. -/
  | workgroupAdmission (cluster : Nat)
  /-- R234. The workgroup slot returns once its last group retired and async work finished. -/
  | slotReturn (core wg : Nat)
  /-- R263. Firmware pre-empts a workgroup, stopping issue and draining outstanding work. -/
  | preempt (core wg : Nat)
  /-- R264. A pre-empted workgroup is restored onto a core of its die. -/
  | contextRestore (saved core : Nat)
  /-- R255. A pushed operand row's data arrive and enter its FIFO. -/
  | pushtRowPlaced (core wg : Nat)
  /-- R218. The matrix unit takes FIFO entries and accumulates into the tile. -/
  | mmaExecute (core wg id : Nat)
  /-- R222. The matrix unit clears the rows of an AZERO. -/
  | azeroExecute (core wg id : Nat)
  /-- R225. The matrix unit updates m and l and pushes P entries. -/
  | smxuExecute (core wg id : Nat)
  /-- R301. The copy engine writes one row into scratch and counts it on the sync word. -/
  | copyRow (core wg id : Nat)
  /-- R314. A sleeping BARWAIT tests once at its bound and writes F if unmoved. -/
  | barwaitBoundExpiry (core wg grp id : Nat)
  /-- R336. A sleeping NBARWAIT reaches its bound and writes F. -/
  | nbarwaitBoundExpiry (core wg grp id : Nat)
  /-- R352. A read miss reaches the home slice directory. -/
  | gets (cluster pa : Nat)
  /-- R352. A write miss, upgrade or M-holding atomic reaches the directory. -/
  | getm (cluster pa : Nat)
  /-- R352. An L1 or atomic-unit eviction reaches the directory. -/
  | put (cluster pa : Nat)
  /-- R297. An ACQP demand makes the owner drain before supplying the line. -/
  | promotionDemand (cluster pa : Nat)
  /-- R352. A forwarded request reaches the owning cluster, which supplies the line. -/
  | forward (cluster pa : Nat)
  /-- R350. A home slice evicts a line, writing it to memory if dirty. -/
  | l2Eviction (pa : Nat)
  /-- R329. A completed walk fills the TLB unless its generation is stale. -/
  | tlbWalkFill (cluster asid va gen : Nat)
  /-- R328. An invalidation reaches a cluster, which removes entries and acknowledges. -/
  | tlbInvalidation (cluster kind asid va : Nat)
  /-- R331. The cluster atomic unit applies a .cl atomic operation. -/
  | clusterAtomic (cluster : Nat)
  /-- R344. A cluster with free resources takes unstarted workgroups from a donor. -/
  | donationRequest (cluster : Nat)
  /-- R359. A split register write starts or refuses a divisible-array resize. -/
  | splitRegisterWrite (die ctx value : Nat)
  /-- R359. All slices finish a resize and busy clears. -/
  | resizeComplete (die ctx : Nat)
  /-- R366. A router idle for 2,048 cycles starts gating. -/
  | routerIdleGate (die router : Nat)
  /-- R366. A wake line raised by a neighbour starts waking a gated router. -/
  | routerWake (die router : Nat)
  /-- R366. After 40 cycles the router is awake and drops off. -/
  | routerWakeComplete (die router : Nat)
  /-- R367. Writing forbid bits keeps routers on and wakes gated ones. -/
  | routerGatingWrite (die value : Nat)
  /-- R368. A corrupted on-die flit is retried, and after 16 failures the link is removed. -/
  | linkFlitRetry (die link ok : Nat)
  /-- R517. An uncorrectable error in an array is contained. -/
  | uncorrectableError (site : ErrSite)
  /-- R395. A write to a queue's write index adds packets or is dropped. -/
  | doorbell (die queue value : Nat)
  /-- R409. Writing destroy disables the queue and aborts its packets. -/
  | queueDestroy (die queue : Nat)
  /-- R409. Destruction finishes when all packets and trees are done. -/
  | queueDestroyComplete (die queue : Nat)
  /-- R397. The dispatcher serves the highest-priority ready source and assigns one workgroup. -/
  | dispatchStep (die : Nat)
  /-- R401. The front end applies a spawn-tree counter change at its stop. -/
  | treeCounterUpdate (die : Nat)
  /-- R431. A car passes a stop and up to four waiting events apply to its slot. -/
  | churnPassage (die stop : Nat)
  /-- R418. The home read of a boarding word returns, or fails and frees the slot. -/
  | boardingReadReturn (die slot : Nat)
  /-- R428. The fired packet read completes and is written into its queue. -/
  | releasePacketEnqueue (die queue : Nat)
  /-- R421. Writes a partition's Churn slot limit, clamped to 336. -/
  | churnLimitWrite (die part value : Nat)
  /-- R445. A raster unit applies one triangle's fragments under the depth test. -/
  | rasterTriangle (die : Nat)
  /-- R459. The pass's entries become SEALED once prior triangles are applied. -/
  | passSeal (die pass : Nat)
  /-- R446. The Separator scans a sealed tile into bin records. -/
  | tileScan (die : Nat)
  /-- R451. 4,096 cycles after its last record a bin launches a partial group. -/
  | binTimeout (die bin : Nat)
  /-- R486. Writing go starts a page migration or ends it with a code. -/
  | migrationGo (value : Nat)
  /-- R487. The page copy finishes, the entry is rewritten and waiters retranslate. -/
  | migrationComplete 
  /-- R494. A bias flip register write starts or refuses a flip. -/
  | biasFlip (die value : Nat)
  /-- R494. A bias flip finishes and waiting requests proceed. -/
  | biasFlipComplete (die : Nat)
  /-- R496. A host shared read downgrades device copies of a half. -/
  | hostReadShared (addr : Nat)
  /-- R496. A host owned read invalidates device copies of the line. -/
  | hostReadOwned (addr : Nat)
  /-- R496. A host write-back of a half enters the L2 line. -/
  | hostWriteback (addr : Nat) (data : List Byte)
  /-- R493. A host snoop of a host-bias half acts on device copies. -/
  | hostSnoop (pa own : Nat)
  /-- R503. A peer's posted write is performed as a .sys release. -/
  | peerPostedWrite (addr : Nat) (data : List Byte)
  /-- R503. A peer reads device memory as a relaxed .sys read. -/
  | peerRead (addr len : Nat)
  /-- R498. An MMIO read completes, raising MEM_UE on an error status. -/
  | mmioReadCompletion (id status value : Nat)
  /-- R498. An MMIO read unanswered for 10 ms raises MEM_UE. -/
  | mmioReadTimeout (id : Nat)
  /-- R506. Every 19,000 cycles the partition controller adjusts the duty against the cap. -/
  | partitionPowerInterval (part : Nat)
  /-- R507. Writes a partition cap, clamped to 2,400 W. -/
  | powerCapWrite (part value : Nat)
  /-- R507. A rail droop sets the die's limiter duty to 8. -/
  | currentDroop (die : Nat)
  /-- R507. 64 cycles after a droop the limiter duty returns to 16. -/
  | limiterRestore (die : Nat)
  /-- R510. Every 100 µs firmware forecasts core temperatures. -/
  | thermalForecast (die : Nat) (peaks : List Int)
  /-- R510. Crossing 110 °C or back below 100 °C changes the thermal duty. -/
  | thermalSensor (die sensor : Nat) (temp : Int)
  /-- R510. At 125 °C the package removes core power. -/
  | thermalTrip (die : Nat)
  /-- R514. At power-on the package runs its journalled boot steps. -/
  | boot (script : List BootOutcome)
  /-- R513. SPDM version request. -/
  | getVersion 
  /-- R513. SPDM capabilities request. -/
  | getCapabilities 
  /-- R513. SPDM algorithm negotiation, ECDSA P-256 and SHA-256 only. -/
  | negotiateAlgorithms (asym hash : Nat)
  /-- R513. SPDM certificate digest request. -/
  | getDigests 
  /-- R513. SPDM certificate request for the identity slot. -/
  | getCertificate (slot offset len : Nat)
  /-- R513. SPDM challenge. -/
  | challenge (slot : Nat) (nonce : List Byte)
  /-- R513. Returns measurement registers as digests, signed on request. -/
  | getMeasurements (index signed : Nat) (nonce : List Byte)
  /-- R513. Other SPDM requests return ERROR UnsupportedRequest. -/
  | spdmUnsupported (code : Nat)
  /-- R515. Background scrub reads a line, correcting or entering it as lost. -/
  | scrubRead (pa outcome : Nat)
  /-- R515. Lifetime counters are written to flash at least every 10 minutes. -/
  | lifetimeCounterUpdate (index delta : Nat)
  /-- R520. A fabric flit arrives and is accepted in sequence or discarded. -/
  | flitReceive (port : Nat) (flit : Flit)
  /-- R520. A refused sequence number makes the sender go back and resend. -/
  | flitRefusal (port seq crc : Nat)
  /-- R520. After 32 CRC refusals of one flit the port retrains. -/
  | portRetrain (port ok : Nat)
  /-- R524. An owner performs or refuses an inbound remote access. -/
  | inboundAccess (req : RemoteReq)
  /-- R525. The receiving port applies a .sys atomic to a peer address. -/
  | remoteAtomic (req : RemoteReq)
  /-- R526. The issuing package receives the acknowledgement of a performed remote write. -/
  | remoteWriteAck (id : Nat)
  /-- R528. A peer that resets or leaves completes outstanding accesses in error. -/
  | peerReset (package : Nat)
  /-- R12. A write to a register with no behaviour of its own stores or clears fields by access kind. -/
  | registerWrite (pa value : Nat)
  /-- R340. Firmware creates a partition, zeroing its clusters' range descriptors, clearing its bin counter and boarding the front end's tree-counter slots. -/
  | partitionCreation (part : Nat) (spec : PartSpec)
  /-- R436. Firmware destroys a partition and alights every Churn slot it holds. -/
  | partitionDestruction (part : Nat)
  /-- R508. A write that takes a queue's enable bit from 0 to 1 puts the queue in service and clears its energy counter. -/
  | queueEnable (die queue : Nat)
  /-- R366. Eight cycles after it starts gating, a router is gated unless a wake abandoned the sequence. -/
  | routerGatingComplete (die router : Nat)
  /-- R353. A fill from memory returns to its home slice and completes the waiting directory transition. -/
  | memoryFillReturn (pa : Nat)
  /-- R353. An invalidation or back-invalidation acknowledgement reaches the home slice, letting a waiting transition finish. -/
  | invalidationAcknowledgement (cluster pa : Nat)
  /-- R493. A host CXL.mem write reaches device memory, flipping a device-bias page to host bias first. -/
  | hostMemoryWrite (addr : Nat) (data : List Byte)
  /-- R517. A soft error is corrected, counted in telemetry, and a TLB entry that suffered it is dropped. -/
  | correctedSoftError (site : ErrSite)
  /-- R103. Integer add of a and b modulo 2^W in each active lane. -/
  | iadd (f : R3)
  /-- R103. Integer subtract b from a modulo 2^W. -/
  | isub (f : R3)
  /-- R103. Low half of the integer product of a and b. -/
  | imul (f : R3)
  /-- R103. High half of the signed product of a and b. -/
  | imulh (f : R3)
  /-- R103. High half of the unsigned product of a and b. -/
  | imulhn (f : R3)
  /-- R103. Integer multiply-add a times b plus d modulo 2^W. -/
  | imad (f : R3)
  /-- R104. Signed integer quotient truncated toward zero, all ones on a zero divisor. -/
  | idiv (f : R3)
  /-- R104. Unsigned integer quotient, all ones on a zero divisor. -/
  | idivn (f : R3)
  /-- R105. Bitwise and of a and b. -/
  | and (f : R3)
  /-- R105. Bitwise or of a and b. -/
  | or (f : R3)
  /-- R105. Bitwise exclusive or of a and b. -/
  | xor (f : R3)
  /-- R105. Bitwise a and not b. -/
  | andn (f : R3)
  /-- R105. Shift a left by b mod W. -/
  | shl (f : R3)
  /-- R105. Logical shift a right by b mod W. -/
  | shr (f : R3)
  /-- R105. Arithmetic shift a right by b mod W. -/
  | sar (f : R3)
  /-- R105. Rotate a right by b mod W. -/
  | rotr (f : R3)
  /-- R106. Signed minimum of a and b. -/
  | imin (f : R3)
  /-- R106. Signed maximum of a and b. -/
  | imax (f : R3)
  /-- R106. Unsigned minimum of a and b. -/
  | nmin (f : R3)
  /-- R106. Unsigned maximum of a and b. -/
  | nmax (f : R3)
  /-- R106. Population count of a. -/
  | popc (f : R1)
  /-- R106. Count of leading zero bits of a, W for zero. -/
  | clz (f : R1)
  /-- R106. Bit reversal of a. -/
  | brev (f : R1)
  /-- R107. Bit-field extract from a under position, length and sign taken from b. -/
  | bfx (f : R3)
  /-- R108. Writes T to qd where a equals b, else F. -/
  | icmpEq (f : RCmp)
  /-- R108. Writes T to qd where a differs from b. -/
  | icmpNe (f : RCmp)
  /-- R108. Signed less-than compare into qd. -/
  | icmpLt (f : RCmp)
  /-- R108. Signed less-or-equal compare into qd. -/
  | icmpLe (f : RCmp)
  /-- R108. Unsigned less-than compare into qd. -/
  | icmpLtn (f : RCmp)
  /-- R108. Unsigned less-or-equal compare into qd. -/
  | icmpLen (f : RCmp)
  /-- R108. Writes T to qd where a and b share a set bit. -/
  | icmpTst (f : RCmp)
  /-- R109. Copies the bits of a where the G condition holds and of b elsewhere, in every non-exited lane. -/
  | sel (f : R3)
  /-- R110. Adds a sign-extended 9-bit immediate to a. -/
  | iaddi (f : RImm)
  /-- R110. Bitwise and of a with the immediate. -/
  | andi (f : RImm)
  /-- R110. Bitwise or of a with the immediate. -/
  | ori (f : RImm)
  /-- R110. Bitwise exclusive or of a with the immediate. -/
  | xori (f : RImm)
  /-- R110. Shifts a left by the immediate mod W. -/
  | shli (f : RImm)
  /-- R110. Logical right shift of a by the immediate mod W. -/
  | shri (f : RImm)
  /-- R110. Arithmetic right shift of a by the immediate mod W. -/
  | sari (f : RImm)
  /-- R110. Multiplies a by the immediate modulo 2^W. -/
  | imuli (f : RImm)
  /-- R111. Writes the sign-extended 18-bit immediate at shape P32. -/
  | movi (f : RWide)
  /-- R112. Replaces bits 31 to 14 of d with the 18-bit immediate. -/
  | movhi (f : RWide)
  /-- R113. Floating-point or interval add rounded in the dynamic mode. -/
  | fadd (f : R3)
  /-- R113. Floating-point or interval subtract. -/
  | fsub (f : R3)
  /-- R113. Floating-point or interval multiply. -/
  | fmul (f : R3)
  /-- R113. Fused multiply-add a times b plus d with one rounding. -/
  | fma (f : R3)
  /-- R113. Fused multiply-subtract a times b minus d. -/
  | fms (f : R3)
  /-- R113. Fused negated multiply-add d minus a times b. -/
  | fnma (f : R3)
  /-- R115. Floating-point or interval minimum. -/
  | fmin (f : R3)
  /-- R115. Floating-point or interval maximum. -/
  | fmax (f : R3)
  /-- R116. Three-valued less-than compare of points or intervals into qd. -/
  | fcmpLt (f : RCmp)
  /-- R116. Three-valued less-or-equal compare into qd. -/
  | fcmpLe (f : RCmp)
  /-- R116. Three-valued equality compare into qd. -/
  | fcmpEq (f : RCmp)
  /-- R116. Three-valued inequality compare into qd. -/
  | fcmpNe (f : RCmp)
  /-- R116. Three-valued greater-than compare into qd. -/
  | fcmpGt (f : RCmp)
  /-- R116. Three-valued greater-or-equal compare into qd. -/
  | fcmpGe (f : RCmp)
  /-- R116. Writes T where a point source is NaN, F otherwise. -/
  | fcmpUno (f : RCmp)
  /-- R118. Absolute value of a point or interval. -/
  | fabs (f : RRnd)
  /-- R118. Negation of a point or interval. -/
  | fneg (f : RRnd)
  /-- R118. Correctly rounded square root. -/
  | fsqrt (f : RRnd)
  /-- R118. Correctly rounded reciprocal. -/
  | frcp (f : RRnd)
  /-- R118. Correctly rounded reciprocal square root. -/
  | frsq (f : RRnd)
  /-- R118. Correctly rounded power of two. -/
  | fexp2 (f : RRnd)
  /-- R118. Correctly rounded base-two logarithm. -/
  | flog2 (f : RRnd)
  /-- R118. Correctly rounded sin of pi times x. -/
  | fsin (f : RRnd)
  /-- R118. Correctly rounded cos of pi times x. -/
  | fcos (f : RRnd)
  /-- R118. Greatest integer not above x. -/
  | ffloor (f : RRnd)
  /-- R118. Least integer not below x. -/
  | fceil (f : RRnd)
  /-- R118. Rounds x to an integer under the FN mode. -/
  | frint (f : RRnd)
  /-- R120. Writes a one-hot class mask of a point at P32. -/
  | fclass (f : RRnd)
  /-- R148. Writes the lower bound of an interval, or the point itself. -/
  | ivlo (f : RRnd)
  /-- R148. Writes the upper bound of an interval, or the point itself. -/
  | ivhi (f : RRnd)
  /-- R121. Copies the bits and side bytes of a at its own shape. -/
  | mov (f : R1)
  /-- R124. Converts FP32 to FP64 exactly. -/
  | cvtF64F32 (f : RRnd)
  /-- R124. Rounds FP64 to FP32. -/
  | cvtF32F64 (f : RRnd)
  /-- R124. Rounds a signed 32-bit integer to FP32. -/
  | cvtF32I32 (f : RRnd)
  /-- R124. Rounds an unsigned 32-bit integer to FP32. -/
  | cvtF32N32 (f : RRnd)
  /-- R125. Rounds FP32 to a saturated signed 32-bit integer. -/
  | cvtI32F32 (f : RRnd)
  /-- R125. Rounds FP32 to a saturated unsigned 32-bit integer. -/
  | cvtN32F32 (f : RRnd)
  /-- R124. Rounds a signed 64-bit integer to FP64. -/
  | cvtF64I64 (f : RRnd)
  /-- R125. Rounds FP64 to a saturated signed 64-bit integer. -/
  | cvtI64F64 (f : RRnd)
  /-- R124. Widens the low FP16 element to FP32. -/
  | cvtF32F16l (f : RRnd)
  /-- R124. Widens the high FP16 element to FP32. -/
  | cvtF32F16h (f : RRnd)
  /-- R124. Widens the low BF16 element to FP32. -/
  | cvtF32Bf16l (f : RRnd)
  /-- R124. Widens the high BF16 element to FP32. -/
  | cvtF32Bf16h (f : RRnd)
  /-- R127. Packs two FP32 registers into one register of FP16 pairs. -/
  | cvtPkF16 (f : RRnd)
  /-- R127. Packs two FP32 registers into one register of BF16 pairs. -/
  | cvtPkBf16 (f : RRnd)
  /-- R128. Packs four FP32 registers into an E4M3 block with a chosen E8M0 scale. -/
  | cvtPkE4m3 (f : RRnd)
  /-- R128. Packs four FP32 registers into an E5M2 block with a chosen E8M0 scale. -/
  | cvtPkE5m2 (f : RRnd)
  /-- R129. Unpacks an E4M3 block into four FP32 registers. -/
  | cvtUpE4m3 (f : RRnd)
  /-- R129. Unpacks an E5M2 block into four FP32 registers. -/
  | cvtUpE5m2 (f : RRnd)
  /-- R130. Packs eight FP32 registers into a Q4N block with a chosen code. -/
  | cvtPkQ4n (f : RRnd)
  /-- R131. Unpacks a Q4N block into eight FP32 registers. -/
  | cvtUpQ4n (f : RRnd)
  /-- R132. Packs four INT32 registers into saturated INT8 bytes. -/
  | cvtPkI8 (f : RRnd)
  /-- R132. Unpacks INT8 bytes into four INT32 registers. -/
  | cvtUpI8 (f : RRnd)
  /-- R124. Sign-extends a 32-bit integer to 64 bits. -/
  | cvtI64I32 (f : RRnd)
  /-- R124. Zero-extends a 32-bit integer to 64 bits. -/
  | cvtN64N32 (f : RRnd)
  /-- R124. Saturates a signed 64-bit integer to 32 bits. -/
  | cvtI32I64 (f : RRnd)
  /-- R135. Reads the row-0 side byte of the granule holding each lane. -/
  | sideGet (f : RRnd)
  /-- R135. Sets the row-0 side byte of each granule of d from a. -/
  | sideSet (f : RRnd)
  /-- R152. Builds the interval [a, b] from two points. -/
  | ivmk (f : R3)
  /-- R151. Hull of two intervals. -/
  | ivhull (f : R3)
  /-- R151. Intersection of two intervals, faulting when empty. -/
  | ivmeet (f : R3)
  /-- R151. Tight enclosure of the square of an interval. -/
  | ivsqr (f : R1)
  /-- R153. Midpoint of an interval as a point. -/
  | ivmid (f : R1)
  /-- R153. Radius about the midpoint, rounded up. -/
  | ivrad (f : R1)
  /-- R153. Splits an interval at its midpoint into d and d + 1. -/
  | ivsplit (f : R1)
  /-- R154. Tight enclosure of an interval raised to an integer power. -/
  | ivpown (f : R3)
  /-- R156. T where the first interval is certainly below the second. -/
  | clt (f : RCmp)
  /-- R156. T where the first interval is certainly not above the second. -/
  | cle (f : RCmp)
  /-- R156. T where both intervals are the same single point. -/
  | ceq (f : RCmp)
  /-- R156. T where A lies within B. -/
  | subset (f : RCmp)
  /-- R156. T where B lies in the interior of A. -/
  | contains (f : RCmp)
  /-- R156. T where the intervals do not overlap. -/
  | disjoint (f : RCmp)
  /-- R156. T where zero lies in the interval. -/
  | zin (f : RCmp1)
  /-- R159. Kleene and of two predicates. -/
  | qand (f : RQ2)
  /-- R159. Kleene or of two predicates. -/
  | qor (f : RQ2)
  /-- R159. Kleene negation of a predicate. -/
  | qnot (f : RQ1)
  /-- R159. Kleene exclusive or of two predicates. -/
  | qxor (f : RQ2)
  /-- R159. Copies a predicate. -/
  | qmov (f : RQ1)
  /-- R159. T where the predicate is decided, F where it is U. -/
  | qdef (f : RQ1)
  /-- R159. Consensus of two predicates, U where they differ. -/
  | qcons (f : RQ2)
  /-- R160. Writes the constant T, F or U coded in b into qd. -/
  | qset (f : RQSet)
  /-- R175. Sends lanes whose predicate matches K to the target packet after the chain. -/
  | br (c q k o : Nat)
  /-- R177. Writes the return address into d and transfers to a packet offset. -/
  | call (c d o : Nat)
  /-- R177. Transfers each lane to the address held in a. -/
  | ret (c a : Nat)
  /-- R177. Indirect jump to the address in a, optionally writing a link into d. -/
  | jmpr (c d a l : Nat)
  /-- R181. Writes the mask of the path's non-exited lanes into a join mask. -/
  | splitj (c j : Nat)
  /-- R182. Makes lanes in the join mask wait until all of them arrive. -/
  | join (c j : Nat)
  /-- R179. Ends each active lane, raising any recorded asynchronous fault first. -/
  | exit (c : Nat)
  /-- R180. Marks the issuing path ineligible until the pack's next opportunity. -/
  | yield (c : Nat)
  /-- R184. Copies a join mask into a P64 register. -/
  | jmaskGet (c j d : Nat)
  /-- R184. Loads a join mask from a register of the lowest active lane. -/
  | jmaskSet (c j a : Nat)
  /-- R184. Adds the active lanes to a join mask. -/
  | jmaskAdd (c j : Nat)
  /-- R184. Removes the active lanes from a join mask. -/
  | jmaskDel (c j : Nat)
  /-- R184. Clears a join mask. -/
  | jmaskClr (c j : Nat)
  /-- R186. Delivers the value of a from the lane indexed by b. -/
  | shfl (f : R3)
  /-- R186. Delivers the value of a from lane l minus b. -/
  | shflu (f : R3)
  /-- R186. Delivers the value of a from lane l plus b. -/
  | shfld (f : R3)
  /-- R186. Delivers the value of a from lane l xor b. -/
  | shflx (f : R3)
  /-- R187. Writes the mask of active lanes whose predicate matches K. -/
  | vote (c d q k g s : Nat)
  /-- R189. Tree reduction of a by integer add over the active lanes. -/
  | gredIadd (f : R1)
  /-- R188. Signed minimum reduction over the active lanes. -/
  | gredImin (f : R1)
  /-- R188. Signed maximum reduction over the active lanes. -/
  | gredImax (f : R1)
  /-- R188. Unsigned minimum reduction over the active lanes. -/
  | gredNmin (f : R1)
  /-- R188. Unsigned maximum reduction over the active lanes. -/
  | gredNmax (f : R1)
  /-- R188. Bitwise and reduction over the active lanes. -/
  | gredAnd (f : R1)
  /-- R188. Bitwise or reduction over the active lanes. -/
  | gredOr (f : R1)
  /-- R188. Bitwise exclusive or reduction over the active lanes. -/
  | gredXor (f : R1)
  /-- R189. Floating-point or interval add reduction in a fixed tree. -/
  | gredFadd (f : R1)
  /-- R188. Floating-point or interval minimum reduction. -/
  | gredFmin (f : R1)
  /-- R188. Floating-point or interval maximum reduction. -/
  | gredFmax (f : R1)
  /-- R187. Writes the mask of active lanes whose element of a equals this lane's. -/
  | matchLanes (f : R1)
  /-- R195. Orders later accesses of the active lanes after their earlier loads have bound. -/
  | gfence (c l g s : Nat)
  /-- R192. Exchanges a with the horizontal quad partner. -/
  | qxh (f : R1)
  /-- R192. Exchanges a with the vertical quad partner. -/
  | qxv (f : R1)
  /-- R192. Exchanges a with the diagonal quad partner. -/
  | qxd (f : R1)
  /-- R193. Coarse x derivative over the quad. -/
  | ddxc (f : R1)
  /-- R193. Coarse y derivative over the quad. -/
  | ddyc (f : R1)
  /-- R193. Fine x derivative over the quad. -/
  | ddxf (f : R1)
  /-- R193. Fine y derivative over the quad. -/
  | ddyf (f : R1)
  /-- R191. Reports which quad positions hold helper lanes. -/
  | helpq (c d g s : Nat)
  /-- R281. Relaxed load of each active lane's address at scope SC. -/
  | ld (f : MMem)
  /-- R282. Relaxed store of each active lane's data at scope SC. -/
  | st (f : MMem)
  /-- R281. Acquire load of each active lane's address. -/
  | lda (f : MMem)
  /-- R282. Release store of each active lane's data. -/
  | stl (f : MMem)
  /-- R283. Loads whole 33-byte granule records into a register. -/
  | ldg (f : MGran)
  /-- R283. Stores whole 33-byte granule records from a register. -/
  | stg (f : MGran)
  /-- R284. Brings the line of each lane's address toward the core or the home slice. -/
  | pref (c a o s h : Nat)
  /-- R285. Writes back the line of each lane's address if dirty. -/
  | lineWb (c a o s : Nat)
  /-- R285. Invalidates the line, discarding dirty bytes. -/
  | lineInv (c a o s : Nat)
  /-- R285. Writes back then invalidates the line. -/
  | lineWbinv (c a o s : Nat)
  /-- R285. Obtains the line in M without reading memory and zeroes it. -/
  | lineZero (c a o s : Nat)
  /-- R291. Atomic integer add with lanes of one address combined in lane order. -/
  | atomAdd (f : AAtom)
  /-- R290. Atomic signed minimum. -/
  | atomMin (f : AAtom)
  /-- R290. Atomic signed maximum. -/
  | atomMax (f : AAtom)
  /-- R290. Atomic unsigned minimum. -/
  | atomNmin (f : AAtom)
  /-- R290. Atomic unsigned maximum. -/
  | atomNmax (f : AAtom)
  /-- R290. Atomic bitwise and. -/
  | atomAnd (f : AAtom)
  /-- R290. Atomic bitwise or. -/
  | atomOr (f : AAtom)
  /-- R290. Atomic bitwise exclusive or. -/
  | atomXor (f : AAtom)
  /-- R290. Atomic exchange. -/
  | atomXchg (f : AAtom)
  /-- R290. Atomic compare-and-swap against d. -/
  | atomCas (f : AAtom)
  /-- R290. Atomic floating-point add rounded nearest-even. -/
  | atomFadd (f : AAtom)
  /-- R290. Atomic floating-point minimum. -/
  | atomFmin (f : AAtom)
  /-- R290. Atomic floating-point maximum. -/
  | atomFmax (f : AAtom)
  /-- R290. Atomic wrapping increment bounded by the operand. -/
  | atomIncw (f : AAtom)
  /-- R290. Atomic wrapping decrement bounded by the operand. -/
  | atomDecw (f : AAtom)
  /-- R242. Does nothing and uses no pipe. -/
  | nop (c : Nat)
  /-- R259. Raises TRAP_INSTR with the code in trapaddr. -/
  | trap (c k : Nat)
  /-- R262. Ends the trap handler and resumes at trappc, releasing held paths. -/
  | eret (c : Nat)
  /-- R244. Reads a control register into every active lane. -/
  | crr (c d r : Nat)
  /-- R244. Writes a control register from the lowest active lane. -/
  | crw (c a r : Nat)
  /-- R244. Sets control register bits from the lowest active lane. -/
  | crset (c a r : Nat)
  /-- R244. Clears control register bits from the lowest active lane. -/
  | crclr (c a r : Nat)
  /-- R294. Full fence at scope SC; the path waits until it is satisfied. -/
  | fence (c s : Nat)
  /-- R294. Acquire fence at scope SC. -/
  | fenceAcq (c s : Nat)
  /-- R294. Release fence at scope SC. -/
  | fenceRel (c s : Nat)
  /-- R294. Full die fence that also waits for slice-scratch stores to reach bank write buffers. -/
  | fenceLayer (c : Nat)
  /-- R241. Gives register quota to another group of the workgroup. -/
  | quota (c q a b : Nat)
  /-- R247. Makes the path ineligible for n cycles. -/
  | sleep (c n : Nat)
  /-- R248. Invalidates translations of one page in the workgroup's ASID and waits for acknowledgement. -/
  | tlbinvPage (c a : Nat)
  /-- R248. Invalidates every translation of the workgroup's ASID. -/
  | tlbinvAsid (c : Nat)
  /-- R248. Invalidates every translation. -/
  | tlbinvAll (c : Nat)
  /-- R511. Asks firmware for its version. -/
  | fwcallVersion (c d a : Nat)
  /-- R511. Asks firmware for a core's current temperature. -/
  | fwcallTemperature (c d a : Nat)
  /-- R511. Asks firmware for a core's forecast peak temperature. -/
  | fwcallForecast (c d a : Nat)
  /-- R511. Asks firmware for the partition's cap and duty. -/
  | fwcallCap (c d a : Nat)
  /-- R511. Asks firmware for a lifetime counter. -/
  | fwcallCounter (c d a : Nat)
  /-- R511. Asks firmware which cores are in half-row mode. -/
  | fwcallHalfRow (c d a : Nat)
  /-- R249. An unlisted firmware service replies all ones. -/
  | fwcallUnlisted (c d a s : Nat)
  /-- R295. Discards instructions fetched ahead for the workgroup. -/
  | cacheIfetch (c : Nat)
  /-- R295. Writes back every dirty L1 line of the workgroup's ASID. -/
  | cacheWb (c : Nat)
  /-- R295. Writes back and invalidates every L1 line of the workgroup's ASID. -/
  | cacheWbinv (c : Nat)
  /-- R45. Re-issues the next word n times with stepped register fields. -/
  | rep (n d a b : Nat)
  /-- R254. Starts the workgroup's access slice at an address with an argument. -/
  | aslice (c q a b : Nat)
  /-- R255. Slice word that pushes n operand rows of a tensor into a FIFO. -/
  | pusht (c f t x n : Nat)
  /-- R301. Starts an asynchronous tensor copy into scratch counted on a sync word. -/
  | copy (c a b m : Nat)
  /-- R230. Loads and checks a 64-byte tensor identifier entry into the view. -/
  | tidset (c a i : Nat)
  /-- R230. Stores a tensor identifier entry of the view to memory. -/
  | tidget (c a i : Nat)
  /-- R256. Waits until the slice is not running and reports how it ended. -/
  | await (c q : Nat)
  /-- R308. Pushes a value into a named queue, sleeping while full. -/
  | qpush (c a n : Nat)
  /-- R308. Pops a value from a named queue, sleeping while empty. -/
  | qpop (c d n : Nat)
  /-- R308. Pops a value if the named queue is non-empty, reporting success. -/
  | qtry (c d q n : Nat)
  /-- R304. Sets a sync word's target and clears its count. -/
  | swinit (c a b : Nat)
  /-- R299. Adds bytes to a sync word as a workgroup release. -/
  | swadd (c a b : Nat)
  /-- R304. Waits until the sync word's generation differs from b. -/
  | swwait (c a b : Nat)
  /-- R313. Initialises a barrier object for n arrivals. -/
  | barinit (c a b : Nat)
  /-- R313. Arrives k times at a barrier object, returning the phase token. -/
  | barrive (c d a b : Nat)
  /-- R313. Arrives and lowers the barrier's next-expected count. -/
  | bardrop (c d a b : Nat)
  /-- R314. Sleeps until the barrier phase moves past the token or the bound expires. -/
  | barwait (c q a b e : Nat)
  /-- R335. Arrives k times at a network barrier. -/
  | nbarrive (c d a k : Nat)
  /-- R335. Arrives at a network barrier and lowers its next-expected count. -/
  | nbarriveDrop (c d a k : Nat)
  /-- R336. Sleeps until the network barrier generation moves past the token or the bound expires. -/
  | nbarwait (c q a e k : Nat)
  /-- R335. Adds n expected arrivals to a network barrier from generation g. -/
  | nbarset (c q a b k : Nat)
  /-- R297. Promoting acquire load at device scope. -/
  | acqp (c d a z : Nat)
  /-- R218. Issues a matrix multiply-accumulate of FIFO operand rows into a tile. -/
  | mma (f : TMma)
  /-- R222. Issues a tile operation that clears the active rows and sets mode empty. -/
  | azero (c a : Nat)
  /-- R223. Reads a tile cell column as FP32. -/
  | areadF32 (c a d k : Nat)
  /-- R223. Reads a tile cell column as FP64. -/
  | areadF64 (c a d k : Nat)
  /-- R223. Reads a tile cell column as INT32. -/
  | areadI32 (c a d k : Nat)
  /-- R223. Reads the raw 56 cell bits. -/
  | areadRaw (c a d k : Nat)
  /-- R224. Writes an FP32 value into a tile cell column. -/
  | awriteF32 (c a v k : Nat)
  /-- R224. Writes an FP64 value into a tile cell pair. -/
  | awriteF64 (c a v k : Nat)
  /-- R224. Writes an INT32 value into a tile cell column. -/
  | awriteI32 (c a v k : Nat)
  /-- R224. Writes 56 raw bits into a tile cell. -/
  | awriteRaw (c a v k : Nat)
  /-- R225. Issues an online softmax update of a score tile pushing P rows to a FIFO. -/
  | smxu (c a f v p : Nat)
  /-- R228. Reads each row's running maximum m. -/
  | smxrM (c a d : Nat)
  /-- R228. Reads each row's running sum l as FP64. -/
  | smxrL (c a d : Nat)
  /-- R228. Reads the tile mode and the row's saturation bit. -/
  | smxrSt (c a d : Nat)
  /-- R214. Makes later tile operations see earlier register writes and AWRITEs of the group. -/
  | mfence (c : Nat)
  /-- R215. Waits for earlier tile operations on a tile and raises a recorded tile fault. -/
  | mwait (c a : Nat)
  /-- R422. Boards a global word into a Churn slot. -/
  | cboard (c q a : Nat)
  /-- R422. Boards a word into a Churn slot armed with a release packet and queue. -/
  | cboardr (c q a b e : Nat)
  /-- R424. Alights a boarded word, returning its value and freeing its slot. -/
  | calight (c d a : Nat)
  /-- R427. Captures the slot and adds each lane's operand in lane order. -/
  | ccapAdd (c d a b : Nat)
  /-- R426. Capture that subtracts each lane's operand. -/
  | ccapSub (c d a b : Nat)
  /-- R426. Capture that takes the signed minimum. -/
  | ccapMin (c d a b : Nat)
  /-- R426. Capture that takes the signed maximum. -/
  | ccapMax (c d a b : Nat)
  /-- R426. Capture that applies bitwise and. -/
  | ccapAnd (c d a b : Nat)
  /-- R426. Capture that applies bitwise or. -/
  | ccapOr (c d a b : Nat)
  /-- R426. Capture that exchanges the slot value. -/
  | ccapXchg (c d a b : Nat)
  /-- R426. Capture that compares with d and swaps. -/
  | ccapCas (c d a b : Nat)
  /-- R427. Capture that decrements, firing an armed release at zero. -/
  | ccapDec (c d a : Nat)
  /-- R429. Reads a boarded slot's value at its first passage. -/
  | cpeek (c d a : Nat)
  /-- R429. Waits until a boarded slot's value meets the condition. -/
  | cwait (c d a b k : Nat)
  /-- R458. Hands one triangle per lane to the raster units, opening the pass if needed. -/
  | rast (c a b e : Nat)
  /-- R459. Seals an open render pass once its earlier triangles are applied. -/
  | rseal (c a : Nat)
  /-- R460. Pushes user records into bins by key. -/
  | bpush (c k q a b : Nat)
  /-- R460. Pushes ray-hit records into bins by key. -/
  | bpushHit (c k q a b : Nat)
  /-- R461. Splits undecided lanes' intervals and pushes both halves as records. -/
  | bisect (c q a b e : Nat)
  /-- R464. Interpolates an attribute and its derivatives from a geometry block. -/
  | attr (c d a b j : Nat)
  /-- R466. Samples a texture with LOD from quad derivatives. -/
  | tex (c d a t : Nat)
  /-- R466. Samples a texture at an explicit LOD. -/
  | texl (c d a t : Nat)
  /-- R466. Samples a texture with LOD from explicit gradients. -/
  | texg (c d a t : Nat)
  /-- R462. Requests a partial launch from one bin. -/
  | bflush (c a : Nat)
  /-- R462. Requests a partial launch from every bin of the partition. -/
  | bflushAll (c : Nat)
  /-- R407. Enqueues a launch packet per lane into a device queue. -/
  | enq (c q a b : Nat)
  /-- R342. Grabs a chunk of indices from a cluster range descriptor. -/
  | rgrab (c d i : Nat)
  /-- R342. Sets a cluster range descriptor. -/
  | rgrabSet (c a b i : Nat)
  /-- R411. Reads a launch or placement value selected by code. -/
  | sread (c d k : Nat)
  /-- R412. Reads the package global timestamp. -/
  | time (c d : Nat)
  /-- R509. Reads the energy counter the group is charged to. -/
  | energy (c d : Nat)
  /-- R509. Reads a named queue's energy counter. -/
  | energyQ (c d a : Nat)
  deriving DecidableEq, Repr

end Sys2Proof
end

