-- ==== Sys2Proof/Machine/State.lean ====
section
/-!
DEFINITION. The state of one GC9-2408 package as plain data, and the state after reset. Each field's docstring ends with the
rule of spec/ that names it. A field named in a table (`Tab`) that has no entry holds its reset value. Core c of the package
is 96 × die + site; cluster k is 24 × die + site; a program counter is a word address, the byte address over 4, whose slot
is the address modulo 3 (R22).
-/
namespace Sys2Proof.Machine

/-! ## Registers of a group -/

/-- The shapes of a vector register (R57). -/
inductive Shape where
  | p32 | p64 | i32 | i64
  deriving DecidableEq, Repr

/-- An allocated vector register (R57 to R60). -/
structure VReg where
  /-- The shape it is allocated at (R57). -/
  shape : Shape
  /-- One element per lane of the group (R58). -/
  lanes : List Elem
  /-- Side bytes: that of granule g of row k at index k × W/8 + g (R58, R60). -/
  side : List Byte
  deriving DecidableEq, Repr

/-- A register a word reads or writes: v0 to v31, q0 to q7, j0 to j15. -/
inductive RegName where
  | v (n : Nat)
  | q (n : Nat)
  | j (n : Nat)
  deriving DecidableEq, Repr

/-- The user causes of a trap (R258). -/
inductive Cause where
  | illegalOp | illegalChain | stallShort | shape | quota | emptyInterval | invalidInterval | misaligned | access
  | translation | memUe | atomicScope | barOverrun | queueFault | matFifo | matFormat | churnUnderflow | churnStore
  | churnKey | rastState | tid | trapInstr | priv | enqFault
  deriving DecidableEq, Repr

/-- What a fault records (R260): cause, `trapmask` and `trapaddr`. -/
structure Trap where
  cause : Cause
  mask : BitVec 64
  addr : W64
  deriving DecidableEq, Repr

/-- Pipe classes (R26); a6 is class A with the latency of GROUP and QUAD (R29). -/
inductive Cls where
  | a | a6 | f | m | x | c | none
  deriving DecidableEq, Repr

/-- The control registers of a group, but for `quota`, which is `Group.quota` (R245, R87, R91, R92, R227). -/
structure CtrlRegs where
  /-- `round` 0x000 [2:0], dynamic rounding mode; 3 bits; R87; 1 at group start. -/
  round : BitVec 3
  /-- `stallchk` 0x001 [0]; 1 bit; R245; 0 at group start. -/
  stallchk : Bool
  /-- `trapbase` 0x002, 0x003; 55 bits; R245; the packet's trap handler. -/
  trapbase : BitVec 55
  /-- `seed` 0x004; 32 bits; R91; workgroup index × 16 + group index. -/
  seed : W32
  /-- `smxscale` 0x005; 32 bits; R227; 0x3F80_0000. -/
  smxscale : W32
  /-- `hint`.count 0x006 [3:0]; 4 bits; R245; 1. -/
  hint : BitVec 4
  /-- `q4scale` 0x008; 32 bits; R92; 0x3F80_0000. -/
  q4scale : W32
  /-- `trapcause`.H 0x009 [9]; 1 bit; R245; 0. -/
  trapH : Bool
  /-- `trapcause`.A 0x009 [8]; 1 bit; R245; 0. -/
  trapA : Bool
  /-- `trapcause`.cause 0x009 [7:0]; 8 bits; R245; 0. -/
  trapcause : Byte
  /-- `trappc` 0x00A, 0x00B; 55 bits; R245; 0. -/
  trappc : BitVec 55
  /-- `trapmask` 0x00C, 0x00D; 64 bits; R245; 0. -/
  trapmask : W64
  /-- `trapaddr` 0x00E, 0x00F; 64 bits; R245; 0. -/
  trapaddr : W64
  deriving DecidableEq, Repr

/-- The repeat state of a path (R45, R47): the step being issued, the last step, and the three increments as their 3-bit
two's complement codes. -/
structure Rep where
  idx : Nat
  last : Nat
  incd : Nat
  inca : Nat
  incb : Nat
  deriving DecidableEq, Repr

/-- The state of one lane (R55, R166). -/
structure Lane where
  /-- Program counter, as a word address; R22, R55; the entry packet at start. -/
  pc : Nat
  /-- Repeat state of the lane's path; R47; none at start. -/
  rep : Option Rep
  /-- The lane has exited; R179; false at start (true for a lane with no record, R451). -/
  exited : Bool
  /-- The lane is a helper; R165; fixed at launch. -/
  helper : Bool
  /-- Predicates q0 to q7 (entry 0 is never read); 2 bits each; R72, R56; F at start. -/
  q : List Tri
  /-- Stochastic-rounding generator; 64 bits; R90; seeded at start. -/
  gen : W64
  /-- Earliest issue cycle; R30; 0 at start. -/
  earliest : Nat
  /-- Age of the lane's path; R168; 0 at start. -/
  age : Nat
  /-- The lane's path is the forced first choice; R169 step 4; false at start. -/
  forced : Bool
  /-- The lane's path is yielding; R180; false at start. -/
  yielding : Bool
  /-- The join mask the lane waits at; R182; none at start. -/
  waiting : Option Nat
  /-- The lane's path is held while a handler runs; R260; false at start. -/
  held : Bool
  /-- The lane is of the handler path; R260; false at start. -/
  handler : Bool
  /-- Repeat state kept while the lane's handler runs; R260, R262; none. -/
  kept : Option Rep
  /-- Where the lane continues after its chain, when a word of the chain transferred control; R23; none. -/
  target : Option Nat
  /-- The bytes of the private window that have been stored to, by offset; R75; none stored at start. -/
  priv : List Host.Cell
  /-- Offsets of the private window stored to since their line was last written back (R285); none at start. -/
  privDirty : List Nat
  /-- The join mask at which the lane waits once its chain has ended, when a word of the chain was a JOIN; R182; none. -/
  joining : Option Nat
  /-- Transfer target kept while the lane's handler runs; R23, R42; none. -/
  keptTarget : Option Nat
  /-- The same of a JOIN; R182, R42; none. -/
  keptJoin : Option Nat
  /-- Launch record of a bin-launched group; 128 bits; R449, R411; none otherwise. -/
  record : Option (BitVec 128)
  deriving DecidableEq, Repr

/-- An outstanding register write (R29, R31): its number, register, lanes, and the cycle in which its result is ready or
written back; `due` is none while another event must complete it. `fixed` tells a fixed-latency write (class A); `old` is what its lanes held
before it, which they keep if they exit first (R179). -/
structure Pend where
  id : Nat
  reg : RegName
  mask : BitVec 64
  fixed : Bool
  due : Option Nat
  old : List (Nat × Elem)
  deriving DecidableEq, Repr

/-- A free held back until the outstanding writes `after` to its register have completed (R66). -/
structure PendFree where
  reg : Nat
  after : List Nat
  deriving DecidableEq, Repr

/-- The destination lanes of a failed load with their data addresses, ascending, which no read has yet met (R287); or, when `precise`, the
lanes of a damaged register granule, with the register's number as address (R517). Records of one word carry one `batch`. -/
structure FailedRead where
  reg : RegName
  lanes : List (Nat × W64)
  batch : Nat
  precise : Bool
  deriving DecidableEq, Repr

/-- A recorded tile fault of a group (R215): tile, cause, byte address and active lanes of the originating word. -/
structure TileFault where
  tile : Nat
  cause : Cause
  addr : W64
  mask : BitVec 64
  deriving DecidableEq, Repr

/-- A recorded copy fault of a group (R303): cause, sync word offset, source address, lanes of the COPY. (DEDUCED, log entry 30.) -/
structure CopyFault where
  cause : Cause
  sync : Nat
  addr : W64
  mask : BitVec 64
  deriving DecidableEq, Repr

/-- What a sleeping word waits for (R166, R204). -/
inductive WaitKind where
  /-- SLEEP until the cycle (R247). -/
  | sleep (till : Nat)
  /-- QPUSH of a value into queue n (R308). -/
  | push (n : Nat) (x : W64)
  /-- QPOP of queue n (R308). -/
  | pop (n : Nat)
  /-- SWWAIT on the sync word at a scratch offset, with the generation it waits to leave (R304). -/
  | sync (off gen : Nat)
  /-- BARWAIT on the object at a scratch offset, with its token and the cycle of its last test (R314). -/
  | bar (off token : Nat) (deadline : Option Nat)
  /-- NBARWAIT on a network barrier, with its token and the cycle of its last test (R336). -/
  | nbar (index token : Nat) (deadline : Option Nat)
  /-- MWAIT on a tile: every tile operation numbered below `upto` (R215). -/
  | tile (t upto : Nat)
  /-- AWAIT (R256). -/
  | slice
  /-- An operation of the cluster atomic unit, a Churn request, an outside access or a tile seal, by its number. -/
  | reply (id : Nat)
  /-- A CWAIT, by the number of its request (R429). -/
  | cwait (id : Nat)
  /-- A load of interval images, size code z, of which some come from a peer package (R142, R523): the images got so far, the lanes whose data
  could not be returned, and the lanes' addresses. -/
  | images (z : Nat) (got : List (Nat × Elem)) (bad : List Nat) (addrs : List (Nat × W64))
  /-- The rest of a chain whose lower word has completed and of which a word waits at issue (R28, R167). -/
  | rest
  /-- A word whose request was answered while its path was frozen (R260): its predicate result, or the cause and address of its fault. -/
  | answered (q : Option Tri) (fault : Option (Cause × W64))
  deriving DecidableEq, Repr

/-- What the rest of a chain reads when its word wakes: the registers, predicates and join masks of the issue cycle (R28); and the registers that
the chain has freed (R66). -/
structure Rest where
  regs : Tab VReg
  preds : List (List Tri)
  joins : Tab W64
  freed : List Nat
  deriving DecidableEq, Repr

/-- A word that sleeps (R166, R308, R314): its number, the lanes, its address, what it waits for, and its destinations; `rest` stands when its
chain goes on. -/
structure Wait where
  id : Nat
  mask : BitVec 64
  pc : Nat
  kind : WaitKind
  dv : Option Nat
  dshape : Shape
  dq : Option Nat
  rest : Option Rest
  deriving DecidableEq, Repr

/-- What an access to a party outside the package will do when its answer comes (R498, R523). -/
inductive OutsideWork where
  /-- A load: destination register, shape, sign-extension and size in bytes. -/
  | load (reg : Nat) (shape : Shape) (signed : Bool) (size : Nat)
  /-- A load of bytes of an interval image, from a byte of it on, for the sleeping word of a number (R142). -/
  | image (word off size : Nat)
  | store
  /-- An atomic: destination, width in bytes, and whether the old value is wanted. -/
  | atomic (reg : Nat) (w64 ret : Bool)
  /-- A load of an access slice into an x register. -/
  | sliceLoad (x : Nat) (signed : Bool) (size : Nat)
  deriving DecidableEq, Repr

/-- A word on the replay list of a pre-empted group (R263, R267): the word, its repeat step, its byte address, its lanes with their
addresses, whether it is an acquire, and what it does. -/
structure Replay where
  word : W32
  step : Nat
  isRep : Bool
  addr : W64
  mask : BitVec 64
  addrs : List W64
  acq : Bool
  work : OutsideWork
  deriving DecidableEq, Repr

/-- The state of one group (R55). -/
structure Group where
  /-- Lanes 0 to width − 1; R161. -/
  lanes : List Lane
  /-- Rename map: the allocated ones of v0 to v31; R55, R57; all unallocated at start. -/
  regs : Tab VReg
  /-- Join masks j0 to j15; 64 bits each; R55, R181; 0 at start. -/
  joins : Tab W64
  /-- Control registers; R245. -/
  ctrl : CtrlRegs
  /-- `quota` 0x007, granules the group may hold; 15 bits; R68, R240; the launch quota. -/
  quota : Nat
  /-- Outstanding register writes; R31, R32. -/
  pend : List Pend
  /-- Frees held back; R66. -/
  frees : List PendFree
  /-- Sleeping words; R166. -/
  waits : List Wait
  /-- Destinations of failed loads; R287. -/
  failed : List FailedRead
  /-- The earliest recorded tile fault; R215. -/
  tileFault : Option TileFault
  /-- The earliest recorded copy fault; R303. -/
  copyFault : Option CopyFault
  /-- Registers written since the group's last MFENCE; R214. -/
  unfencedRegs : List Nat
  /-- Tiles that an AWRITE of the group wrote since its last MFENCE; R214. -/
  unfencedTiles : List Nat
  /-- `trappc` as the trap entry wrote it; R262 step 4. -/
  entryPc : BitVec 55
  /-- Replay list after a restore; R263. -/
  replay : List Replay
  /-- The group has retired; R179. -/
  retired : Bool
  deriving DecidableEq, Repr

/-! ## State of a workgroup -/

/-- The modes of an accumulator tile (R199). -/
inductive TileMode where
  | empty | float | int | fp64
  deriving DecidableEq, Repr

/-- One row of a tile (R198, R200): 16 cells of 56 bits, m, l and sat. -/
structure TileRow where
  cells : List (BitVec 56)
  m : W32
  l : BitVec 56
  sat : Bool
  /-- A cell of the row is damaged (R517). -/
  badCells : Bool
  /-- A side register of the row is damaged (R517). -/
  badSide : Bool
  deriving DecidableEq, Repr

/-- An accumulator tile (R198, R199); `clean` since it was last restored (R264, R266). -/
structure Tile where
  mode : TileMode
  rows : List TileRow
  clean : Bool
  deriving DecidableEq, Repr

/-- The three tile operations with the fields of their words (R212, R218, R222, R225). -/
inductive TileWork where
  | mma (fa fb rm : Nat) (rs z : Bool)
  | azero
  | smxu (fifo limit p : Nat) (sigma : W32)
  deriving DecidableEq, Repr

/-- A tile operation from its issue until an MWAIT covers it (R212, R214, R215). -/
structure TileOp where
  id : Nat
  grp : Nat
  tile : Nat
  work : TileWork
  mask : BitVec 64
  addr : W64
  /-- It depends on a write with no MFENCE between: its rows become undefined (R214). -/
  unfenced : Bool
  /-- It has been applied, or has faulted; it is still pending until an MWAIT covers it (R212). -/
  done : Bool
  deriving DecidableEq, Repr

/-- A FIFO entry (R202): granules 0 to 7 as 256 data bytes and 8 side bytes, tag, format code and origin. -/
structure FifoEntry where
  data : BitVec 2048
  side : BitVec 64
  tag : W32
  fmt : Nat
  smxu : Bool
  /-- The entry is damaged (R517). -/
  bad : Bool
  deriving DecidableEq, Repr

/-- An operand FIFO (R201, R203). -/
structure Fifo where
  cap : Nat
  entries : List FifoEntry
  deriving DecidableEq, Repr

/-- How the last slice ended (R254, R256). -/
inductive SliceEnd where
  | never | exited
  | faulted (cause : Cause) (addr : W64) (delivered : Bool)
  deriving DecidableEq, Repr

/-- The push a PUSHT has begun (R255): FIFO, entry, coordinates, next row and row count. -/
structure Push where
  fifo : Nat
  entry : BitVec 512
  i0 : Nat
  i1 : Nat
  i2 : Nat
  i3 : Nat
  k : Nat
  n : Nat
  pc : Nat
  deriving DecidableEq, Repr

/-- An access slice (R250, R251). -/
structure Slice where
  /-- The slice has issued neither EXIT nor a fault since its ASLICE; R250; false at start. -/
  live : Bool
  /-- x0 to x15; 64 bits each; R251; 0. -/
  x : List W64
  /-- q0 to q7 of the slice; R251; F. -/
  q : List Tri
  /-- Program counter, as a word address; R251; 0. -/
  pc : Nat
  /-- Where the slice continues after the word, when it transferred control; R23; none. -/
  target : Option Nat
  /-- The push whose rows are not yet all placed; R255; none. -/
  push : Option Push
  /-- Rows placed or to be placed of earlier pushes are all placed when this is none; the sleeping queue word; R308. -/
  wait : Option Wait
  /-- How it last ended; R256; never started. -/
  ended : SliceEnd
  /-- Consecutive refusals of a shared pipe; R237; 0. -/
  refusals : Nat
  deriving DecidableEq, Repr

/-- An entry of the tensor identifier view (R205): its 64 bytes, and whether TIDSET rewrote it. -/
structure ViewEntry where
  bits : BitVec 512
  rewritten : Bool
  deriving DecidableEq, Repr

/-- A running copy (R300, R301): number, group, lanes, entry, coordinates, destination, sync word, rows, row length, next row. -/
structure Copy where
  id : Nat
  grp : Nat
  mask : BitVec 64
  entry : BitVec 512
  i0 : Nat
  i1 : Nat
  i2 : Nat
  i3 : Nat
  dest : Nat
  sync : Nat
  rows : Nat
  len : Nat
  k : Nat
  deriving DecidableEq, Repr

/-- A resident workgroup with its slot (R5, R232 to R235). -/
structure Workgroup where
  /-- Residency number, unique among all admissions; the MODEL's own (it names the private windows). -/
  uid : Nat
  /-- Number of the launch packet on its die; R397. -/
  packet : Nat
  /-- The packet's 64 bytes; R390. -/
  launch : BitVec 512
  /-- The queue the packet was served from, or 256 for a bin launch; R397. -/
  source : Nat
  /-- The spawn tree's counter slot, none for a bin launch; R400, R453. -/
  tree : Option Nat
  /-- Spawn depth; R402. -/
  depth : Nat
  /-- ASID; 16 bits; R246. -/
  asid : Nat
  /-- Privileged; R243. -/
  priv : Bool
  /-- Partition; 3 bits; R390. -/
  part : Nat
  /-- Context id `ctxid`; 16 bits; R246; given at admission. -/
  ctxid : Nat
  /-- Save area address `savebase`; 64 bits; R246; given at admission. -/
  savebase : Nat
  /-- Workgroup id x, y, z; R411. -/
  wx : Nat
  wy : Nat
  wz : Nat
  /-- Group width: 8, 16, 32 or 64; R161. -/
  width : Nat
  /-- The groups; R5. -/
  groups : List Group
  /-- Home issue slot of each pack; R235. -/
  home : List Nat
  /-- Scratch bytes, rounded up to 1 KiB; R232, R268. -/
  scratchBytes : Nat
  /-- Scratch, the bytes that are not zero by offset; R269; zero-filled. -/
  scratch : List Host.Cell
  /-- Bound tiles a0 upward; R197. -/
  tiles : List Tile
  /-- Tile operations not yet covered by an MWAIT, in issue order; R212. -/
  ops : List TileOp
  /-- Operand FIFOs f0 to f7; R201. -/
  fifos : List Fifo
  /-- The workgroup holds an access-engine context; R250. -/
  context : Bool
  /-- The access slice; R251. -/
  slice : Slice
  /-- Entries of the view that are rewritten or have been read; R205. -/
  view : Tab ViewEntry
  /-- Copies not yet finished; R301. -/
  copies : List Copy
  /-- Network barriers bound: how many, and the number of their grid on the die; R333. -/
  nbar : Nat
  /-- It has issued RGRAB since its admission; R343. -/
  grabbed : Bool
  /-- The first user cause that aborted it, if it has aborted; R261, R403. -/
  aborted : Option Byte
  /-- Firmware has ordered its pre-emption: nothing more of it issues; R263; false. -/
  preempting : Bool
  deriving DecidableEq, Repr

/-! ## State of a core and a cluster -/

/-- States of a coherent line in a cache or the directory (R351, R352). -/
inductive LineState where
  | i | s | e | m | o
  deriving DecidableEq, Repr

/-- A line of an L1 (R271, R274): tag, physical line, permissions and log2 of the page size recorded with the fill, dirty bytes (what a
discard of R285 exposes as undefined, R377), the read count, and the set and way that hold it (R326). -/
structure L1Line where
  asid : Nat
  vline : Nat
  pline : Nat
  attr : Nat
  lg : Nat
  dirty : BitVec 128
  count : Option Nat
  set : Nat
  way : Nat
  deriving DecidableEq, Repr

/-- What the probe of an issue opportunity finds of a path: workgroup slot, pack, program counter, repeat step, whether its next
chain would issue (R167), and the pipe classes of the chain's words (R170). The MODEL's own. -/
structure PathInfo where
  wg : Nat
  pack : Nat
  pc : Nat
  step : Option Nat
  ready : Bool
  cls : List Cls
  deriving DecidableEq, Repr

/-- The state of a core (R3, R232). -/
structure Core where
  /-- Resident workgroups by slot 0 to 15; R232. -/
  wgs : Tab Workgroup
  /-- The pack last served by each issue slot; R236; none served. -/
  served : List (Option Nat)
  /-- Grant order of the issue slots; R237; 0, 1, 2, 3. -/
  grant : List Nat
  /-- Issue duty; 5 bits; R238, R246; 16. -/
  duty : Nat
  /-- The matrix unit is in half-row mode; R221; false. -/
  halfRow : Bool
  /-- Lines present in the L1; R271; none. In each set the last of the list is next for eviction. -/
  l1 : List L1Line
  /-- The access context last granted a shared pipe; R237; none. -/
  lastContext : Option Nat
  /-- Cycles until which each issue slot's two A-pipes and its SFU pipe are busy; R28, R167; 0. -/
  pipes : List (Nat × Nat × Nat)
  /-- Paths as the probe of this cycle found them; the MODEL's own; none. -/
  probe : List PathInfo
  deriving DecidableEq, Repr

/-- A TLB entry (R325): ASID, base of the virtual page, log2 of its size, base of the physical page, attribute bits [10:0]. -/
structure TlbEntry where
  asid : Nat
  vbase : Nat
  lg : Nat
  pbase : Nat
  attr : Nat
  deriving DecidableEq, Repr

/-- A range descriptor (R340). -/
structure RangeDesc where
  fin : W32
  next : W32
  asid : Nat
  min : BitVec 16
  div : BitVec 16
  deriving DecidableEq, Repr

/-- A workgroup assigned to a cluster and not yet admitted (R344, R399). -/
structure Assigned where
  packet : Nat
  index : Nat
  prio : Nat
  noDonate : Bool
  deriving DecidableEq, Repr

/-- Who issued a word: core, workgroup slot and residency number, group (16 for the access slice). -/
structure Who where
  core : Nat
  wg : Nat
  uid : Nat
  grp : Nat
  deriving DecidableEq, Repr

/-- An operation waiting at the cluster atomic unit (R331): number, issuer and its ASID, operation, width, destination, and per lane the physical
address, operand and compare value, ascending; and the lanes' virtual addresses. -/
structure AtomReq where
  id : Nat
  who : Who
  asid : Nat
  aop : Nat
  w64 : Bool
  dv : Option Nat
  lanes : List (Nat × Nat × W64 × W64)
  addrs : List (Nat × W64)
  deriving DecidableEq, Repr

/-- The state of a cluster (R3). -/
structure Cluster where
  /-- Shared TLB; R325; empty. -/
  tlb : List TlbEntry
  /-- Walk generation; 16 bits; R329; 0 (DESIGN CHOICE, log entry 1). -/
  walkGen : BitVec 16
  /-- Range descriptors 0 to 15; R340; zero. -/
  ranges : Tab RangeDesc
  /-- Local queue of assigned workgroups; R344; empty. -/
  queue : List Assigned
  /-- Physical lines in the atomic unit's buffer with their modified bytes, newest first; R331; none. -/
  atomBuf : List (Nat × BitVec 128)
  /-- Operations waiting at the atomic unit; R332; none. -/
  atomReqs : List AtomReq
  deriving DecidableEq, Repr

/-! ## State of a die -/

/-- A queue's registers (R394) and what the front end keeps with its ring. -/
structure Queue where
  /-- 0.[63]; R394; 0. -/
  enable : Bool
  /-- 0.[62] PQ; R394; 0. -/
  pq : Bool
  /-- 0.[61] E; R394; 0. -/
  enq : Bool
  /-- 0.[59:56]; R394; 0. -/
  lgsize : BitVec 4
  /-- 0.[54:0]; R394; 0. -/
  base : BitVec 55
  /-- 1.[63:32]; R394; 0. -/
  read : W32
  /-- 1.[31:0]; R394; 0. -/
  write : W32
  /-- 2.[63:48]; R394; 0. -/
  asid : BitVec 16
  /-- 2.[47:40]; R394; 0. -/
  vector : Byte
  /-- 2.[34]; R394; 0. -/
  error : Bool
  /-- 2.[33]; R394; 0. -/
  destroying : Bool
  /-- 2.[32], as last written; R394; 0. -/
  destroy : Bool
  /-- 2.[2:0]; R394; 0. -/
  part : BitVec 3
  /-- Tags of ring entries that no doorbell added: write index, tree slot (none: a new tree) and depth, which is 0 for a packet that
  the Churn released; R402, R407. -/
  tags : List (Nat × Option Nat × Nat)
  /-- Packets released by the Churn into a full ring; 64 bytes each; R408. -/
  released : List (BitVec 512)
  /-- The packet at read has been checked and served; R397: its number on the die. -/
  serving : Option Nat
  /-- Dispatcher steps since the queue was last served while ready; R398; 0. -/
  unserved : Nat
  deriving DecidableEq, Repr

/-- A network barrier of a grid (R333): gen, expected, arrived, next and the join table of (generation, count). -/
structure NetBar where
  gen : BitVec 16
  expected : Nat
  arrived : Nat
  next : Nat
  joins : Tab Nat
  deriving DecidableEq, Repr

/-- A packet the dispatcher has served and that is not complete (R397, R404). -/
structure Packet where
  /-- Its bytes; R390. -/
  bits : BitVec 512
  /-- Queue number, or 256 for a bin launch; R397. -/
  source : Nat
  /-- ASID and privilege of its queue or bin; R390, R532. -/
  asid : Nat
  /-- Counter slot of its tree; R400. -/
  tree : Option Nat
  /-- It is its tree's command; R400. -/
  command : Bool
  /-- Spawn depth; R402. -/
  depth : Nat
  /-- Workgroups assigned so far; R397. -/
  assigned : Nat
  /-- Workgroups admitted so far; R403. -/
  dispatched : Nat
  /-- Groups retired so far, or cancelled; R404. -/
  ended : Nat
  /-- First cause that aborted one of its workgroups, 0 for an abort with no cause; R403. -/
  cause : Option Byte
  /-- Its queue was destroyed while it was incomplete; R409. -/
  cancelled : Bool
  /-- Its own grid is done and, unless it is a command, its signal is written; R404. -/
  gridDone : Bool
  /-- The launch records of a bin launch by lane, with helper flags; R451, R452. -/
  records : List (Option (BitVec 128) × Bool)
  /-- Network barriers of the grid; R333. -/
  nbars : List NetBar
  /-- Its groups are charged to the partition's bin counter: a bin launch or a Churn release; R508. -/
  binCharged : Bool
  deriving DecidableEq, Repr

/-- States of a Churn slot (R417, R418). -/
inductive SlotState where
  | free | boarding | aboard | alighting
  deriving DecidableEq, Repr

/-- What a Churn slot serves: a boarded word, a counter kept by the front end and not in use, a spawn tree's counter (R400), or a bin's
tail (R450). -/
inductive SlotUse where
  | word
  | counter
  | tree (packet : Nat)
  | tail (bin : Nat)
  deriving DecidableEq, Repr

/-- A Churn slot (R417). -/
structure Slot where
  /-- R417; FREE. -/
  state : SlotState
  /-- 64 bits; R417; 0 (DESIGN CHOICE, log entry 1). -/
  value : W64
  /-- 55 bits; R417. -/
  key : Nat
  /-- 16 bits; R417. -/
  asid : Nat
  /-- 3 bits; R417. -/
  part : Nat
  /-- 1 bit; R417. -/
  priv : Bool
  /-- 1 bit; R417. -/
  armed : Bool
  /-- 55 bits; R417. -/
  packet : Nat
  /-- 8 bits; R417. -/
  queue : Nat
  /-- 1 bit; R417. -/
  fire : Bool
  /-- 1 bit; R417. -/
  poison : Bool
  /-- Physical address of the home word; R418. -/
  home : Nat
  /-- What the slot serves; R400, R450. -/
  use : SlotUse
  /-- The boarding read has returned; R418. -/
  loaded : Bool
  /-- The alighting write has been made; R424. -/
  written : Bool
  /-- Its partition was destroyed while it was BOARDING: firmware alights it when it is ABOARD; R436; false. -/
  leaving : Bool
  deriving DecidableEq, Repr

/-- The Churn words and bin captures that wait at a stop (R422 to R429, R450). -/
inductive ChurnWork where
  /-- A promised CBOARD or CBOARDR: home word, attachment. -/
  | board (home : Nat) (attach : Option (Nat × Nat))
  | alight
  /-- CCAP: operation, and per lane the operand and the compare value. -/
  | cap (op : Nat) (lanes : List (Nat × W64 × W64)) (helpers : List Nat)
  | peek
  /-- CWAIT: condition and operand. -/
  | wait (cond : Nat) (b : W64)
  /-- A capture on bin's tail: its quads and singles as records, and whether a tail had to be asked for (R450). -/
  | bin (bin : Nat) (quads : List (List (BitVec 128))) (singles : List (BitVec 128))
  deriving DecidableEq, Repr

/-- How far a Churn request has come (R422, R424, R425): it waits (a board's promise is not claimed); its slot began to alight before
its passage; or it is under way in its slot (a board that has claimed it, a CALIGHT that has been applied). -/
inductive ReqStage where
  | waiting | lost | taken
  deriving DecidableEq, Repr

/-- A request waiting at a Churn stop (R431): number, issuer and its Wait, stop, cycle it reached the stop, key and ASID, the slot it
found, and how far it has come. -/
structure ChurnReq where
  id : Nat
  who : Option Who
  stop : Nat
  reached : Nat
  key : Nat
  asid : Nat
  part : Nat
  priv : Bool
  slot : Option Nat
  stage : ReqStage
  work : ChurnWork
  deriving DecidableEq, Repr

/-- A render pass (R442, R443, R456). -/
structure Pass where
  addr : Nat
  desc : BitVec 512
  asid : Nat
  priv : Bool
  part : Nat
  sealed : Bool
  sealing : Option (Who × Nat)
  records : Nat
  dropped : Bool
  cause : Option Cause
  deriving DecidableEq, Repr

/-- States of a tile table entry (R446, R447). -/
inductive TileState where
  | free | opened | sealed | scanning | binned
  deriving DecidableEq, Repr

/-- A tile table entry (R446, R447): state, pass slot, references, and whether a store has left its pixels undefined (R444). -/
structure TileEntry where
  state : TileState
  pass : Nat
  refs : Nat
  spoiled : Bool
  deriving DecidableEq, Repr

/-- A triangle at a raster unit (R445, R458): pass slot, nine FP32 coordinates, visibility word. -/
structure Triangle where
  pass : Nat
  xyz : List W32
  vis : W64
  deriving DecidableEq, Repr

/-- A bin's register (R448) and its lists (R450, R451). -/
structure Bin where
  /-- [63]; R448; 0. -/
  enable : Bool
  /-- [62:60]; R448; 0. -/
  part : BitVec 3
  /-- [59]; R448; 0. -/
  error : Bool
  /-- [58] PQ; R448; 0. -/
  pq : Bool
  /-- [54:0]; R448; 0. -/
  template : BitVec 55
  /-- The template copy that governs the pending records; R451; none. -/
  copy : Option (BitVec 512)
  /-- Slot of its tail; R450; none. -/
  tail : Option Nat
  /-- Quad list: four records each; R451; empty. -/
  quads : List (List (BitVec 128))
  /-- Single list; R451; empty. -/
  singles : List (BitVec 128)
  /-- Cycle of the last entry; R451; 0. -/
  last : Nat
  deriving DecidableEq, Repr

/-- A pending bin launch (R453): bin, template copy, records by lane. -/
structure BinLaunch where
  bin : Nat
  template : BitVec 512
  records : List (Option (BitVec 128) × Bool)
  deriving DecidableEq, Repr

/-- A lost-line table entry (R369): physical line and the bytes written since the loss. -/
structure LostLine where
  pline : Nat
  written : BitVec 128
  deriving DecidableEq, Repr

/-- A memory controller's lost-line state (R369). -/
structure LostTable where
  lines : List LostLine
  /-- Lines kept in firmware's overflow list; R369; none. -/
  spilled : List LostLine
  /-- [47:32]; R369; 0. -/
  entered : BitVec 16
  /-- [31]; R369; 0. -/
  overflow : Bool
  deriving DecidableEq, Repr

/-- A split register (R356). -/
structure Split where
  busy : Bool
  refused : Bool
  ways : BitVec 4
  request : BitVec 4
  deriving DecidableEq, Repr

/-- States of a router's clock (R366). -/
inductive RouterState where
  | on | gating | gated | waking
  deriving DecidableEq, Repr

/-- A router (R366): state, cycle of its last flit, cycle its sequence ends. -/
structure Router where
  state : RouterState
  last : Nat
  till : Nat
  deriving DecidableEq, Repr

/-- A port's registers (R521) and its link state (R520, R527). -/
structure Port where
  /-- 0.[63]; R521; 0. -/
  enable : Bool
  /-- 0.[62]; R521; 0. -/
  up : Bool
  /-- 0.[61]; R521; 0. -/
  failed : Bool
  /-- 0.[46:40]; R521; 127. -/
  peer : BitVec 7
  /-- 0.[39:32]; R521; 0. -/
  farport : Byte
  /-- 0.[15:0]; R521; 0. -/
  retrains : BitVec 16
  /-- 1.[63:32]; R521; 0. -/
  refused : W32
  /-- 1.[31:0]; R521; 0. -/
  resent : W32
  /-- Next sequence number expected; 12 bits; R520; 0 (DESIGN CHOICE, log entry 1). -/
  rxSeq : BitVec 12
  /-- Next sequence number to send; 12 bits; R520; 0 (DESIGN CHOICE, log entry 1). -/
  txSeq : BitVec 12
  /-- Flits sent and not acknowledged, oldest first: sequence number and the access that each carries; R520; none. -/
  unacked : List (BitVec 12 × Nat)
  /-- Consecutive CRC refusals of the oldest unacknowledged flit; R520; 0. -/
  crcRefusals : Nat
  /-- Consecutive failed retrains; R527; 0. -/
  failedRetrains : Nat
  deriving DecidableEq, Repr

/-- Bias flip register (R494). -/
structure BiasReg where
  busy : Bool
  refused : Bool
  target : Bool
  page : BitVec 21
  deriving DecidableEq, Repr

/-- An event at the front end's tree counters (R401): slot, and the change, or the value that the counter is set to. -/
structure TreeUpdate where
  slot : Nat
  set : Bool
  delta : Int
  deriving DecidableEq, Repr

/-- A saved context (R264): what the save area holds, with the die and partition it may resume on. -/
structure Saved where
  die : Nat
  cluster : Option Nat
  wg : Workgroup
  deriving DecidableEq, Repr

/-- The state of a die (R3). -/
structure Die where
  /-- `clusters` of the identity register; 24 bits; R396; DESIGN CHOICE 0x7F_FFFF, log entry 1. -/
  clusters : BitVec 24
  /-- `fwcore`; 8 bits; R396; DESIGN CHOICE 91, log entry 1. -/
  fwcore : Byte
  /-- Queues 0 to 255; R394. -/
  queues : Tab Queue
  /-- Packets served and not complete; R397. -/
  packets : Tab Packet
  /-- Number of the next packet served; the MODEL's own. -/
  nextPacket : Nat
  /-- The source served last at each priority; R397; none. -/
  lastServed : Tab Nat
  /-- Steps the bin-launch source has been ready and not served; R398; 0. -/
  binUnserved : Nat
  /-- Pending tree counter events in arrival order; R401; none. -/
  treeUpdates : List TreeUpdate
  /-- Churn slots 0 to 399; R417; FREE. -/
  slots : Tab Slot
  /-- Churn limit registers; 9 bits each; R421; 0. -/
  churnLimit : Tab (BitVec 9)
  /-- Requests waiting at the stops, in arrival order; R431; none. -/
  reqs : List ChurnReq
  /-- Pass slots 0 to 7; R443; all free. -/
  passes : Tab Pass
  /-- Tile table; R446; all FREE. -/
  tiles : Tab TileEntry
  /-- Triangles at the raster units, in arrival order; R458; none. -/
  triangles : List Triangle
  /-- Bins 0 to 4095; R448. -/
  bins : Tab Bin
  /-- Bin ASID registers; 16 bits each; R531; 0. -/
  binAsid : Tab (BitVec 16)
  /-- Pending bin launches in order; R453; none. -/
  launches : List BinLaunch
  /-- The tile being scanned and the captures its records still await; R446, R450; none. -/
  scan : Option (Nat × Nat)
  /-- Split registers of contexts 0 to 7; R356; 0. -/
  split : Tab Split
  /-- Contexts whose resize has begun or waits, in order: the first is under way; R359; none. -/
  resizes : List Nat
  /-- Routers 0 to 23; R366; on. -/
  routers : Tab Router
  /-- `forbid` of the router gating register; 24 bits; R367; 0. -/
  forbid : BitVec 24
  /-- Consecutive failed retries of each network link, and links out of service (value 17); R368; none. -/
  linkRetries : Tab Nat
  /-- Lost-line tables of controllers 0 to 19; R369; empty. -/
  lost : Tab LostTable
  /-- Queue energy counters in µJ; 64 bits each; R508; 0 (DESIGN CHOICE, log entry 1). -/
  queueEnergy : Tab W64
  /-- Bin energy counters in µJ; 64 bits each; R508; 0 (DESIGN CHOICE, log entry 1). -/
  binEnergy : Tab W64
  /-- Ports 0 to 35 of the die; R521. -/
  ports : Tab Port
  /-- Bias flip register; R494; 0. -/
  bias : BiasReg
  /-- First-tier pages in host bias; R493; none. -/
  hostBias : List Nat
  /-- Device directory: second-tier line to the states of its two halves; R495; empty. -/
  devDir : List (Nat × LineState × LineState)
  /-- Thermal duty; 5 bits; R510; 16. -/
  thermalDuty : Nat
  /-- The thermal duty from the next cycle that is a multiple of 16; 5 bits; R505, R510; 16. -/
  nextThermal : Nat
  /-- Limiter's duty; 5 bits; R507; 16. -/
  limiterDuty : Nat
  /-- Cycle in which the limiter restores its duty; R507; none. -/
  limiterTill : Option Nat
  /-- Sensor readings in m°C by core site; R510; 0 (DESIGN CHOICE, log entry 1). -/
  sensors : Tab Int
  /-- Forecast peaks in m°C by core site; R510; 0 (DESIGN CHOICE, log entry 1). -/
  forecast : Tab Int
  /-- The slice has stopped accepting requests; R368: slices; none. -/
  deadSlices : List Nat
  deriving DecidableEq, Repr

/-! ## State of the package -/

/-- A line of a home slice with its directory record (R348, R351): `dirty` tells which bytes of the L2 copy differ from memory (the rule's
bit is that some do), `way` the cache way that holds it, `age` the cycle in which it entered. The dirty bytes of L1 copies are in the
L1 lines. -/
structure DirEntry where
  state : LineState
  sharers : BitVec 96
  owner : Nat
  dirty : BitVec 128
  host : Bool
  boarded : Bool
  way : Nat
  age : Nat
  deriving DecidableEq, Repr

/-- An entry of the table of boarded words (R354): home word address over 8, die, the promise's request while no slot is
claimed, and the slot. -/
structure Boarded where
  word : Nat
  die : Nat
  req : Nat
  slot : Option Nat
  deriving DecidableEq, Repr

/-- An access outstanding at the host, a PCI Express peer or a peer package (R498, R526): number, the number of its word, issuer, its lanes
ascending with their operands and compare values (one lane but where a load or an atomic combines lanes of one address, R281, R291),
its physical and virtual address, the bytes it stores, its effect, whether it is an acquire (R526), the word that issued it with its repeat
step, and the cycle it was sent; `package` is 126 for the host link; the issuer's launch packet, whose signal waits for it (R388). -/
structure Outside where
  id : Nat
  batch : Nat
  who : Who
  lanes : List (Nat × W64 × W64)
  pc : Nat
  step : Option Nat
  sent : Nat
  package : Nat
  pa : Nat
  va : W64
  data : List Byte
  aop : Nat
  acq : Bool
  packet : Nat
  work : OutsideWork
  deriving DecidableEq, Repr

/-- A directory transition that waits at its home slice (R352, R353): the requesting cluster, the physical line, whether it is a GetM, whether
it waits for a fill from memory, for the owner that it was forwarded to, and for the acknowledgements of which clusters. -/
structure Transition where
  cluster : Nat
  line : Nat
  getm : Bool
  fill : Bool
  owner : Option Nat
  acks : BitVec 96
  deriving DecidableEq, Repr

/-- What the package answers to an SPDM message (R513): its version, what it can do, its algorithms, the digest and the certificate of its
one slot, a challenge's signature, a measurement with its signature if asked for, or UnsupportedRequest. -/
inductive SpdmAnswer where
  | version (major minor : Nat)
  | capabilities (certificates challenge measurements : Bool)
  | algorithms (asym hash : Nat)
  | digests (slot0 : List Byte)
  | certificate (part : List Byte)
  | challengeAuth (signature : List Byte)
  | measurement (index : Nat) (digest : List Byte) (signature : Option (List Byte))
  | unsupported
  deriving DecidableEq, Repr

/-- A running migration (R485 to R487). -/
structure Migration where
  pte : Nat
  src : Nat
  dest : Nat
  asid : Nat
  va : Nat
  deriving DecidableEq, Repr

/-- A partition (R238, R355, R506, R507). -/
structure Partition where
  /-- It has been created; R340. -/
  live : Bool
  /-- Its clusters, bit 24d + c; R1. -/
  clusters : BitVec 96
  /-- Scratchpad KiB per core; R232. -/
  scratchKiB : Nat
  /-- `cap` in W; 12 bits; R507; 0. -/
  cap : BitVec 12
  /-- `k`; 5 bits; R507; 16. -/
  k : Nat
  /-- The duty that k takes at the next cycle that is a multiple of 16; 5 bits; R505, R506; 16. -/
  nextK : Nat
  /-- Energy charged up to the last interval, in µJ, of which `energy` shows the mJ modulo 2^32; R507; 0. -/
  energy : Nat
  /-- `power` in mW; 32 bits; R507; 0. -/
  power : W32
  /-- Energy charged in the running interval, in µJ; R506; 0. -/
  charged : Nat
  deriving DecidableEq, Repr

/-- The package register block (R485). -/
structure PkgRegs where
  /-- asidbase, address; 52 bits; R485; 0. -/
  asidbase : Nat
  /-- ringbase, address; 52 bits; R485; 0. -/
  ringbase : Nat
  /-- lgrec; 4 bits; R485; 0. -/
  lgrec : Nat
  /-- dropped; 32 bits; R485; 0. -/
  dropped : W32
  /-- ring write; 32 bits; R485; 0. -/
  rwrite : W32
  /-- ring read; 32 bits; R485; 0. -/
  rread : W32
  /-- pte; 52 bits; R485; 0. -/
  pte : Nat
  /-- dest; 52 bits; R485; 0. -/
  dest : Nat
  /-- asid of the page; 16 bits; R485; 0. -/
  asid : Nat
  /-- vpn; 39 bits; R485; 0. -/
  vpn : Nat
  /-- busy; R485; 0. -/
  busy : Bool
  /-- error; R485; 0. -/
  error : Bool
  /-- code; 8 bits; R485; 0. -/
  code : Nat
  deriving DecidableEq, Repr

/-- A journal record (R514, R510): step, or 0 for a thermal trip, whether the alternate ran, and the outcome. -/
structure JournalRec where
  step : Nat
  alternate : Bool
  ok : Bool
  deriving DecidableEq, Repr

/-- How far boot has come (R514). -/
inductive BootPhase where
  | off | ready | recovery | tripped
  deriving DecidableEq, Repr

/-- A counted range of a running packet (R490): die, packet number, base line, lines, use, expected reads, counts, reported. -/
structure RangeCount where
  die : Nat
  packet : Nat
  asid : Nat
  base : Nat
  lines : Nat
  use : Nat
  expected : Nat
  accesses : Nat
  fills : Nat
  reported : Bool
  deriving DecidableEq, Repr

/-- A port after reset (R521). -/
def Port.reset : Port :=
  { enable := false, up := false, failed := false, peer := 127, farport := 0, retrains := 0, refused := 0, resent := 0, rxSeq := 0, txSeq := 0,
    unacked := [], crcRefusals := 0, failedRetrains := 0 }

/-- An event record (R516): its global timestamp, its source number die << 12 ∣ unit, and the kind of telemetry event that it reports (DESIGN
CHOICE, log entry 73). -/
structure EventRecord where
  time : W64
  source : Nat
  kind : Nat
  deriving DecidableEq, Repr

/-- The state of the package outside its dies (R3). -/
structure Package where
  /-- Partitions 0 to 7; R1. -/
  parts : Tab Partition
  /-- Package register block; R485. -/
  regs : PkgRegs
  /-- Running migration; R487; none. -/
  migration : Option Migration
  /-- Directory records by physical line; R351; all I. -/
  dir : Tab DirEntry
  /-- Directory transitions waiting, with the requests queued behind them, in arrival order; R352; none. -/
  trans : List Transition
  /-- Table of boarded words; R354; empty. -/
  boarded : List Boarded
  /-- Poisoned 8-byte words of slice scratch, by address over 8; R368; none. -/
  poisoned : List Nat
  /-- Accesses outstanding outside the package, in issue order; R498, R526; none. -/
  outside : List Outside
  /-- Posted MMIO writes and completion of remote writes as the host and the peers see them, newest last; R498. -/
  posted : List (Nat × List Byte)
  /-- Host interrupts raised, newest last: die, vector; R404. -/
  interrupts : List (Nat × Nat)
  /-- System causes raised, newest last; R258, R368. -/
  systemCauses : List Nat
  /-- Bytes answered to reads of PCI Express peers, newest last; R503. -/
  peerReads : List (List Byte)
  /-- SPDM answers, newest last; R513. -/
  spdm : List SpdmAnswer
  /-- Answers to accesses of other packages, newest last: the source, and the value (0 where none is wanted) or an error; R524. -/
  replies : List (Nat × Option Nat)
  /-- Measurement registers m0 to m15; 32 bytes each; R512; zero. -/
  measure : Tab (List Byte)
  /-- Boot journal on flash; R514; empty (DESIGN CHOICE, log entry 1). -/
  journal : List JournalRec
  /-- Boot phase; R514; off. -/
  boot : BootPhase
  /-- Image slot that the firmware runs from, 0 for A and 1 for B; R511, R514; 0 (DESIGN CHOICE, log entry 1). -/
  fwSlot : Nat
  /-- Cycle at which the global timestamp was 0, and its offset in ns from the domain's synchronisation; R516, R529; 0. -/
  epoch : Nat
  tsOffset : Int
  /-- Lifetime counters in flash, by index; 64 bits; R515; 0 (DESIGN CHOICE, log entry 1). -/
  lifetime : Tab W64
  /-- What has been counted and is not in flash yet, by index; 64 bits; R515; 0 (DESIGN CHOICE, log entry 1). -/
  counted : Tab W64
  /-- Telemetry counts that the rules name but give no index, by kind; R345, R446, R454; 0. -/
  telemetry : Tab Nat
  /-- Event records, by timestamp and then by source; R516; none. -/
  records : List EventRecord
  /-- Route table entries; valid and trunks; R522; 0. -/
  routes : Tab (Bool × BitVec 18)
  /-- Route table self; 7 bits; R522; 127. -/
  self : BitVec 7
  /-- Accesses whose flit waits for a port that holds fewer than 512 unacknowledged flits, oldest first; R520; none. -/
  unsent : List Nat
  /-- Inbound table: base, limit, R, W by source package; R524; none allowed (DESIGN CHOICE, log entry 1). -/
  inbound : Tab (Nat × Nat × Bool × Bool)
  /-- Physical lines in the buffer of the ports' atomic operations; R525; none. -/
  portBuf : List Nat
  /-- Counted ranges; R490; none. -/
  ranges : List RangeCount
  /-- Saved contexts; R264; none. -/
  saved : List Saved
  /-- Context ids in use, and the save areas given out; R246. -/
  ctxids : List Nat
  deriving DecidableEq, Repr

/-! ## The machine -/

/-- What the machine is issuing: a path's lanes in one group, or the access slice (grp = 16). (DESIGN CHOICE, log entry 9.) -/
structure Issue where
  who : Who
  /-- Lanes of the issuing path; R166. -/
  mask : W64
  /-- The word about to execute, as a word address; R22. -/
  pc : Nat
  /-- The group as it stood when the chain issued: what the words of the chain read; R28, R171. -/
  snap : Option Group
  /-- Largest stall count of the chain so far; R30. -/
  stall : Nat
  /-- No word of the chain has faulted, waited or cut the chain; R42. -/
  live : Bool
  /-- The last word waits at issue and has had no effect; R167. -/
  waited : Bool
  /-- Registers that last-read flags of the chain have freed, each once; R66. -/
  freed : List Nat
  /-- It is the rest of a chain of which a lower word slept; R28, R166. -/
  rest : Bool
  deriving DecidableEq, Repr

/-- What the machine does next within the present cycle: the model's schedule of one cycle. -/
inductive Item where
  /-- Begin the chain of a path: its legality check (R27), then its words. -/
  | chain (iss : Issue)
  /-- Fetch, decode and execute the word at the issue's program counter. -/
  | word
  /-- End the chain: transfers take effect (R23) and the stall binds the lanes (R30). -/
  | chainEnd
  /-- Test a sleeping word's condition: core, workgroup slot, group, Wait (R304, R215, R256). -/
  | wake (core wg grp id : Nat)
  /-- Look at the paths of a core before its issue opportunity: which chains would issue, and what pipes they need. -/
  | probe (core : Nat)
  /-- An event of the package. -/
  | event (i : Instr)
  deriving DecidableEq, Repr

/-- Why the machine stops. -/
inductive Fault where
  /-- A word is executed while no resident group or slice issues: the context names nothing. Raised by every word's meaning.
  It cannot arise at a fetched word. Safe. -/
  | noIssuer
  deriving DecidableEq, Repr

/-- Why the machine has no meaning for an instruction. -/
inductive Refusal where
  /-- The instruction has no meaning yet; raised by exec's arms only. Safe. -/
  | notModelled (mnemonic : String)
  deriving DecidableEq, Repr

/-- The machine. -/
structure State where
  /-- Core cycles since reset; R9, R416: cycle c of every die. -/
  cycle : Nat
  /-- What is issuing; the MODEL's own. -/
  cur : Issue
  /-- The rest of this cycle's work; the MODEL's own. -/
  agenda : List Item
  /-- Events from outside, in arrival order; the MODEL's own. -/
  inbox : List Instr
  /-- Number of the next free value; the MODEL's own. -/
  freeIdx : Nat
  /-- Number of the next request, write or operation; the MODEL's own. -/
  nextId : Nat
  /-- Physical memory, slice scratch and host memory: bytes by physical address that are not zero; R474. -/
  mem : List Host.Cell
  /-- Cores by 96 × die + site; R3. -/
  cores : Tab Core
  /-- Clusters by 24 × die + site; R3. -/
  clusters : Tab Cluster
  /-- Dies 0 to 3; R3. -/
  dies : Tab Die
  /-- The rest of the package. -/
  pkg : Package
  deriving DecidableEq, Repr

/-- A partition that has not been created (R507). -/
def Partition.reset : Partition :=
  { live := false, clusters := 0, scratchKiB := 0, cap := 0, k := 16, nextK := 16, energy := 0, power := 0, charged := 0 }

/-- A core after reset (R236 to R238, R246). (DESIGN CHOICE, log entry 1.) -/
def Core.reset : Core :=
  { wgs := [], served := [none, none, none, none], grant := [0, 1, 2, 3], duty := 16, halfRow := false, l1 := [],
    lastContext := none, pipes := [(0, 0, 0), (0, 0, 0), (0, 0, 0), (0, 0, 0)], probe := [] }

/-- A cluster after reset (R325, R329, R340). (DESIGN CHOICE, log entry 1.) -/
def Cluster.reset : Cluster :=
  { tlb := [], walkGen := 0, ranges := [], queue := [], atomBuf := [], atomReqs := [] }

/-- A die after reset (R394, R396, R417, R421, R448, R356, R367, R369, R494, R521). -/
def Die.reset : Die :=
  { clusters := 0x7FFFFF#24, fwcore := 91, queues := [], packets := [], nextPacket := 0, lastServed := [], binUnserved := 0,
    treeUpdates := [], slots := [], churnLimit := [], reqs := [], passes := [], tiles := [], triangles := [], bins := [],
    binAsid := [], launches := [], scan := none, split := [], resizes := [], routers := [], forbid := 0, linkRetries := [], lost := [],
    queueEnergy := [], binEnergy := [], ports := [], bias := ⟨false, false, false, 0⟩, hostBias := [], devDir := [],
    thermalDuty := 16, nextThermal := 16, limiterDuty := 16, limiterTill := none, sensors := [], forecast := [], deadSlices := [] }

/-- The package register block after reset (R485). -/
def PkgRegs.reset : PkgRegs :=
  { asidbase := 0, ringbase := 0, lgrec := 0, dropped := 0, rwrite := 0, rread := 0, pte := 0, dest := 0, asid := 0, vpn := 0,
    busy := false, error := false, code := 0 }

/-- The package after reset (R485, R507, R512, R522). -/
def Package.reset : Package :=
  { parts := [], regs := PkgRegs.reset, migration := none, dir := [], trans := [], boarded := [], poisoned := [], outside := [], posted := [],
    interrupts := [], systemCauses := [], peerReads := [], spdm := [], replies := [], measure := [], journal := [], boot := .off, fwSlot := 0, epoch := 0,
    tsOffset := 0, lifetime := [], counted := [], telemetry := [], records := [], routes := [], self := 127,
    unsent := [], inbound := [], portBuf := [], ranges := [],
    saved := [], ctxids := [] }

/-- No one issues. -/
def Issue.idle : Issue :=
  { who := ⟨0, 0, 0, 0⟩, mask := 0, pc := 0, snap := none, stall := 0, live := false, waited := false, freed := [], rest := false }

/-- The machine right after reset: nothing resident, every register at its reset value. -/
def State.reset : State :=
  { cycle := 0, cur := Issue.idle, agenda := [], inbox := [], freeIdx := 0, nextId := 0, mem := [], cores := [], clusters := [],
    dies := [], pkg := Package.reset }

end Sys2Proof.Machine
end

