-- ==== Sys2Proof/Machine/Tab.lean ====
section
/-!
DEFINITION. Finite tables in one canonical form, keys strictly rising, and the few list helpers that the machine uses.
-/
namespace Sys2Proof.Machine

/-- The entry of key k. -/
def tget {α : Type} : Tab α → Nat → Option α
  | [], _ => none
  | (j, v) :: t, k => if j = k then some v else tget t k

/-- The entry of key k, or the default. -/
def tgetD {α : Type} (t : Tab α) (k : Nat) (d : α) : α := (tget t k).getD d

/-- The table with v at key k. -/
def tset {α : Type} : Tab α → Nat → α → Tab α
  | [], k, v => [(k, v)]
  | (j, u) :: t, k, v => if j = k then (k, v) :: t else if k < j then (k, v) :: (j, u) :: t else (j, u) :: tset t k v

/-- The table without key k. -/
def tdel {α : Type} (t : Tab α) (k : Nat) : Tab α := t.filter (fun x => decide (x.1 ≠ k))

/-- The table with f applied to the entry of key k, or to the default where there is none. -/
def tmod {α : Type} (t : Tab α) (k : Nat) (d : α) (f : α → α) : Tab α := tset t k (f (tgetD t k d))

/-- Keys strictly rising, all above `lo`. -/
def tabAbove {α : Type} : Nat → Tab α → Bool
  | _, [] => true
  | lo, (j, _) :: t => decide (lo < j) && tabAbove j t

/-- A table is in canonical form: its keys rise strictly. -/
def tabOk {α : Type} : Tab α → Bool
  | [] => true
  | (j, _) :: t => tabAbove j t

/-- The list with f applied to place k. -/
def lmod {α : Type} : List α → Nat → (α → α) → List α
  | [], _, _ => []
  | a :: t, 0, f => f a :: t
  | a :: t, k + 1, f => a :: lmod t k f

/-- The list with v at place k. -/
def lset {α : Type} (l : List α) (k : Nat) (v : α) : List α := lmod l k (fun _ => v)

/-- The places 0 .. n−1 of a list with their entries, mapped. -/
def lmapIdx {α β : Type} (f : Nat → α → β) : Nat → List α → List β
  | _, [] => []
  | i, a :: t => f i a :: lmapIdx f (i + 1) t

/-- The numbers lo .. lo+n−1, ascending. -/
def upto (lo : Nat) : Nat → List Nat
  | 0 => []
  | n + 1 => lo :: upto (lo + 1) n

/-- The least of a list by a strict order, the first among equals. -/
def lmin {α : Type} (lt : α → α → Bool) : List α → Option α
  | [] => none
  | a :: t => match lmin lt t with
    | none => some a
    | some b => if lt b a then some b else some a

/-- Insert by a strict order, after its equals. -/
def linsert {α : Type} (lt : α → α → Bool) (a : α) : List α → List α
  | [] => [a]
  | b :: t => if lt a b then a :: b :: t else b :: linsert lt a t

/-- A list sorted by a strict order, stably. -/
def lsort {α : Type} (lt : α → α → Bool) : List α → List α
  | [] => []
  | a :: t => linsert (fun x y => !lt y x) a (lsort lt t)

/-- Bits of a mask as the ascending list of their places below 64 (R10). -/
def maskList (m : BitVec 64) : List Nat := (upto 0 64).filter (fun l => m.getLsbD l)

/-- The mask of a list of lanes (R161). -/
def listMask (l : List Nat) : BitVec 64 := l.foldl (fun m k => m ||| (1#64 <<< k)) 0

end Sys2Proof.Machine
end

