-- ==== Sys2Proof/Machine/Access.lean ====
section
/-!
DEFINITION. Reaching the parts of the state: cores, clusters, dies, workgroups, groups and lanes, free values and numbers.
-/
namespace Sys2Proof.Machine

/-- Core c of the package (R4: 96 × die + site). -/
def State.core (s : State) (c : Nat) : Core := tgetD s.cores c Core.reset
/-- The state with core c changed. -/
def State.modCore (s : State) (c : Nat) (f : Core → Core) : State := { s with cores := tmod s.cores c Core.reset f }
/-- Cluster k of the package (24 × die + site). -/
def State.cluster (s : State) (k : Nat) : Cluster := tgetD s.clusters k Cluster.reset
/-- The state with cluster k changed. -/
def State.modCluster (s : State) (k : Nat) (f : Cluster → Cluster) : State :=
  { s with clusters := tmod s.clusters k Cluster.reset f }
/-- Die d. -/
def State.die (s : State) (d : Nat) : Die := tgetD s.dies d Die.reset
/-- The state with die d changed. -/
def State.modDie (s : State) (d : Nat) (f : Die → Die) : State := { s with dies := tmod s.dies d Die.reset f }
/-- The state with the package changed. -/
def State.modPkg (s : State) (f : Package → Package) : State := { s with pkg := f s.pkg }

/-- The die of a core (R4). -/
def coreDie (c : Nat) : Nat := c / 96
/-- The site of a core on its die (R4). -/
def coreSite (c : Nat) : Nat := c % 96
/-- The cluster of a core: site n belongs to cluster ⌊n/4⌋ (R4). -/
def coreCluster (c : Nat) : Nat := 24 * (c / 96) + c % 96 / 4

/-- A core exists and is a program core: its cluster is enabled and it is not the firmware core (R1, R396). -/
def State.isProgramCore (s : State) (c : Nat) : Bool :=
  decide (c < 384) && (s.die (coreDie c)).clusters.getLsbD (coreSite c / 4) &&
    decide ((s.die (coreDie c)).fwcore.toNat ≠ coreSite c)

/-- The partition of a cluster: the live one that holds it (R1, R340). -/
def State.partOfCluster (s : State) (k : Nat) : Option (Nat × Partition) := s.pkg.parts.find? (fun p => p.2.live && p.2.clusters.getLsbD k)

/-- The workgroup in a slot of a core (R232). -/
def State.wg (s : State) (c w : Nat) : Option Workgroup := tget (s.core c).wgs w
/-- The state with the workgroup in a slot changed. -/
def State.modWg (s : State) (c w : Nat) (f : Workgroup → Workgroup) : State :=
  match s.wg c w with
  | none => s
  | some g => s.modCore c (fun k => { k with wgs := tset k.wgs w (f g) })
/-- Group g of a workgroup. -/
def Workgroup.group (w : Workgroup) (g : Nat) : Option Group := w.groups[g]?
/-- The workgroup with group g changed. -/
def Workgroup.modGroup (w : Workgroup) (g : Nat) (f : Group → Group) : Workgroup := { w with groups := lmod w.groups g f }
/-- A group of the machine. -/
def State.group (s : State) (c w g : Nat) : Option Group := (s.wg c w).bind (·.group g)
/-- The state with a group changed. -/
def State.modGroup (s : State) (c w g : Nat) (f : Group → Group) : State := s.modWg c w (·.modGroup g f)
/-- The state with the slice of a workgroup changed. -/
def State.modSlice (s : State) (c w : Nat) (f : Slice → Slice) : State :=
  s.modWg c w (fun k => { k with slice := f k.slice })

/-- A lane of a group that never was: exited, all zero. -/
def Lane.gone : Lane :=
  { pc := 0, rep := none, exited := true, helper := false, q := [], gen := 0, earliest := 0, age := 0, forced := false,
    yielding := false, waiting := none, held := false, handler := false, kept := none, target := none, joining := none, keptTarget := none, keptJoin := none, priv := [], privDirty := [],
    record := none }

/-- Lane l of a group. -/
def Group.lane (g : Group) (l : Nat) : Lane := g.lanes.getD l Lane.gone
/-- The group with lane l changed. -/
def Group.modLane (g : Group) (l : Nat) (f : Lane → Lane) : Group := { g with lanes := lmod g.lanes l f }
/-- The group with each lane of a list changed. -/
def Group.modLanes (g : Group) (ls : List Nat) (f : Lane → Lane) : Group := ls.foldl (fun g l => g.modLane l f) g
/-- The width of a group (R161). -/
def Group.width (g : Group) : Nat := g.lanes.length
/-- The non-exited lanes of a group, ascending (R14, R64). -/
def Group.liveLanes (g : Group) : List Nat := (upto 0 g.lanes.length).filter (fun l => !(g.lane l).exited)

/-- Predicate qn of a lane: q0 reads T (R73); a lane with no value reads F (R56). -/
def Lane.pred (l : Lane) (n : Nat) : Tri := if n = 0 then .t else l.q.getD n .f

/-- Write qn of a lane; a write to q0 is discarded (R73). -/
def Lane.setPred (l : Lane) (n : Nat) (v : Tri) : Lane := if n = 0 then l else { l with q := lset l.q n v }

/-- Draw the next free value (R15). (DEDUCED, log entry 7.) -/
def State.draw (s : State) : BitVec 128 × State := (Config.freeValue s.freeIdx, { s with freeIdx := s.freeIdx + 1 })

/-- Draw n free values, each for one member of a list. -/
def State.drawList {α : Type} (s : State) : List α → List (α × BitVec 128) × State
  | [] => ([], s)
  | a :: t =>
    let d := s.draw
    let r := d.2.drawList t
    ((a, d.1) :: r.1, r.2)

/-- Take a fresh number. -/
def State.fresh (s : State) : Nat × State := (s.nextId, { s with nextId := s.nextId + 1 })

/-- Put work at the head of the agenda. -/
def State.next (s : State) (l : List Item) : State := { s with agenda := l ++ s.agenda }

/-- The global timestamp in ns at the present cycle (R412, R516): 1.9 cycles are 1 ns. (DEDUCED, log entry 56.) -/
def State.timestamp (s : State) : W64 :=
  BitVec.ofInt 64 (((s.cycle - s.pkg.epoch) * 10 / 19 : Nat) + s.pkg.tsOffset)

/-- The source number of a unit of a die (R516). -/
def sourceOf (die unit : Nat) : Nat := die * 4096 + unit

/-- The source numbers of a core, a cluster, an L2 slice and a port of the package (R516). -/
def coreSource (core : Nat) : Nat := sourceOf (coreDie core) (core % 96)
def clusterSource (k : Nat) : Nat := sourceOf (k / 24) (0x100 + k % 24)
def sliceSource (d n : Nat) : Nat := sourceOf d (0x300 + n)
def portSource (port : Nat) : Nat := sourceOf (port / 36) (0x500 + port)

/-- An event record stands before another (R516). -/
def EventRecord.before (a b : EventRecord) : Bool := decide (a.time.toNat < b.time.toNat ∨ (a.time = b.time ∧ a.source < b.source))

/-- Records with a new one: by timestamp, then by source, then as emitted (R516). -/
def addRecord (r : EventRecord) : List EventRecord → List EventRecord
  | [] => [r]
  | x :: t => if r.before x then r :: x :: t else x :: addRecord r t

/-- Count an event in telemetry, by kind (R345, R446, R454), with its record (R516). (DESIGN CHOICE, log entry 73.) -/
def State.count (s : State) (kind source : Nat) : State :=
  s.modPkg (fun p => { p with telemetry := tmod p.telemetry kind 0 (· + 1), records := addRecord ⟨s.timestamp, source, kind⟩ p.records })

/-- An event that a lifetime counter counts (R515); flash takes it at the next LIFETIME_COUNTER_UPDATE. (DEDUCED, log entry 62.) -/
def State.tally (s : State) (ix : Nat) : State := s.modPkg (fun p => { p with counted := tmod p.counted ix 0 (· + 1) })

/-- What has been counted goes to flash, with n more at one index (R515). -/
def Package.lifetimeUpdate (p : Package) (ix n : Nat) : Package :=
  { p with lifetime := tmod (p.counted.foldl (fun t x => tmod t x.1 0 (· + x.2)) p.lifetime) ix 0 (· + BitVec.ofNat 64 n), counted := [] }

/-- Raise a system cause (R258): it is taken by the firmware core. -/
def State.systemCause (s : State) (code : Nat) : State :=
  s.modPkg (fun p => { p with systemCauses := p.systemCauses ++ [code] })

/-- Raise a system cause whose code firmware assigns (R258). (DEDUCED, log entry 44.) -/
def State.firmwareCause (s : State) (kind : Nat) : State := s.systemCause (0x21 + Config.systemCode kind % 31)

/-! ## Fields of the launch packet (R390) and of other 512-bit records -/

/-- Bits hi..lo of word w of a 64-byte record. -/
def fieldOf (b : BitVec 512) (w hi lo : Nat) : Nat := b.toNat / 2 ^ (64 * w + lo) % 2 ^ (hi + 1 - lo)

/-- The kind code of a packet (R391). -/
def lpKind (b : BitVec 512) : Nat := fieldOf b 0 3 0
/-- P, the privileged launch flag (R390). -/
def lpPriv (b : BitVec 512) : Bool := fieldOf b 0 4 4 = 1
/-- ND, no donation (R390). -/
def lpNoDonate (b : BitVec 512) : Bool := fieldOf b 0 5 5 = 1
/-- AS, an access slice (R390). -/
def lpSlice (b : BitVec 512) : Bool := fieldOf b 0 6 6 = 1
/-- B, wait for every earlier packet (R390). -/
def lpBarrier (b : BitVec 512) : Bool := fieldOf b 0 7 7 = 1
/-- I, interrupt on completion (R390). -/
def lpInterrupt (b : BitVec 512) : Bool := fieldOf b 0 8 8 = 1
/-- Priority (R390). -/
def lpPriority (b : BitVec 512) : Nat := fieldOf b 0 11 9
/-- Partition (R390). -/
def lpPartition (b : BitVec 512) : Nat := fieldOf b 0 14 12
/-- Network barriers (R390). -/
def lpNbar (b : BitVec 512) : Nat := fieldOf b 0 18 15
/-- Scratch KiB (R390). -/
def lpScratch (b : BitVec 512) : Nat := fieldOf b 0 28 19
/-- Register quota per group (R390). -/
def lpQuota (b : BitVec 512) : Nat := fieldOf b 0 38 29 + 1
/-- Groups per workgroup (R390). -/
def lpGroups (b : BitVec 512) : Nat := fieldOf b 0 42 39 + 1
/-- Group width (R390). -/
def lpWidth (b : BitVec 512) : Nat := 8 * 2 ^ fieldOf b 0 44 43
/-- Accumulator tiles (R390). -/
def lpTiles (b : BitVec 512) : Nat := fieldOf b 0 47 45
/-- Backed private KiB per lane (R390). -/
def lpPrivate (b : BitVec 512) : Nat := fieldOf b 0 54 48
/-- Code address in bytes (R390). -/
def lpCode (b : BitVec 512) : Nat := 128 * fieldOf b 1 47 0
/-- Trap handler as a packet offset (R390). -/
def lpTrap (b : BitVec 512) : Nat := fieldOf b 1 63 48
/-- Argument pointer (R390). -/
def lpArgs (b : BitVec 512) : Nat := fieldOf b 2 54 0
/-- Grid size x (R390). -/
def lpGridX (b : BitVec 512) : Nat := fieldOf b 3 20 0
/-- Grid size y (R390). -/
def lpGridY (b : BitVec 512) : Nat := fieldOf b 3 41 21
/-- Grid size z (R390). -/
def lpGridZ (b : BitVec 512) : Nat := fieldOf b 3 62 42
/-- Workgroups of the grid. -/
def lpGrid (b : BitVec 512) : Nat := lpGridX b * lpGridY b * lpGridZ b
/-- Capacity of FIFO n (R390). -/
def lpFifo (b : BitVec 512) (n : Nat) : Nat := fieldOf b 4 (8 * n + 7) (8 * n)
/-- Tensor identifier table (R390). -/
def lpTids (b : BitVec 512) : Nat := fieldOf b 5 54 0
/-- Completion signal address (R390). -/
def lpSignal (b : BitVec 512) : Nat := fieldOf b 6 54 0
/-- Range list (R390). -/
def lpRanges (b : BitVec 512) : Nat := fieldOf b 7 54 0

/-! ## Energy (R508) -/

/-- A workgroup is charged to its partition's bin counter (R508). -/
def State.binCharged (s : State) (core : Nat) (w : Workgroup) : Bool :=
  decide (w.source = 256) || (match tget (s.die (coreDie core)).packets w.packet with
    | none => false
    | some p => p.binCharged)

/-- Charge energy to a workgroup's counter and to its partition (R506, R508). (DEDUCED, log entry 61.) -/
def State.chargeWg (s : State) (core : Nat) (w : Workgroup) (n : Nat) : State :=
  let bin := s.binCharged core w
  let s := s.modDie (coreDie core) (fun d =>
    if bin then { d with binEnergy := tmod d.binEnergy w.part 0 (· + BitVec.ofNat 64 n) }
    else { d with queueEnergy := tmod d.queueEnergy w.source 0 (· + BitVec.ofNat 64 n) })
  match tget s.pkg.parts w.part with
  | none => s
  | some p => s.modPkg (fun k => { k with parts := tset k.parts w.part { p with charged := p.charged + n } })

/-- Charge a workgroup with the energy of one activity of a unit of its core: an issued chain, a tile operation, a row of its slice or of a
copy (R508). (DEDUCED, log entry 61.) -/
def State.chargeUnit (s : State) (core slot : Nat) : State :=
  match s.wg core slot with
  | none => s
  | some w =>
    let t := s.chargeWg core w (Config.activityEnergy s.freeIdx)
    { t with freeIdx := t.freeIdx + 1 }

end Sys2Proof.Machine
end

