-- ==== Sys2Proof/Machine/Phys.lean ====
section
/-!
DEFINITION. Physical memory, the physical address map, page tables and the TLB, lost lines and boarded words (files 08, 11, 12, 19). One
byte image holds what every coherent read returns (R384), but for what the host's caches and the Churn hold of it; the caches of the
package are records beside it (Directory.lean).
-/
namespace Sys2Proof.Machine

/-! ## Bytes -/

/-- What a byte of memory that nothing has written reads as: 0 (DESIGN CHOICE, log entry 2). -/
def memDefault : Byte := 0

/-- A byte of a memory. (DESIGN CHOICE, log entry 2.) -/
def memGet (m : List Host.Cell) (a : Nat) : Byte := tgetD m a memDefault

/-- Store a byte; storing what an unlisted address reads as removes the entry. -/
def memPut (m : List Host.Cell) (a : Nat) (b : Byte) : List Host.Cell := if b = memDefault then tdel m a else tset m a b

/-- The memory is in canonical form: addresses strictly rising, no entry equal to what an unlisted address reads as. -/
def Memory.wf (m : List Host.Cell) : Bool := tabOk m && m.all (fun c => decide (c.2 ≠ memDefault))

/-- Store bytes at consecutive addresses. -/
def memPutList (m : List Host.Cell) (a : Nat) : List Byte → List Host.Cell
  | [] => m
  | b :: t => memPutList (memPut m a b) (a + 1) t

/-- n bytes at consecutive addresses. -/
def memGetList (m : List Host.Cell) (a n : Nat) : List Byte := (upto a n).map (memGet m)

/-- Bytes as a little-endian number (R8). -/
def leNat : List Byte → Nat
  | [] => 0
  | b :: t => b.toNat + 256 * leNat t

/-- The n little-endian bytes of a number (R8). -/
def leBytes : Nat → Nat → List Byte
  | 0, _ => []
  | n + 1, v => BitVec.ofNat 8 v :: leBytes n (v / 256)

/-! ## The physical address map -/

/-- Populated bytes of a die's first tier (R474). -/
def tier1Size : Nat := 0x165A0B0000
/-- Populated bytes of a die's second tier (R474). -/
def tier2Size : Nat := 0x1DCD6500000

/-- What a physical address names (R474). -/
inductive Region where
  | tier1 (die : Nat)
  | tier2 (die : Nat)
  | slice (die ctx : Nat)
  | control (die : Nat)
  | host
  | peer (n : Nat)
  | hole
  deriving DecidableEq, Repr

/-- The split register of a context on a die (R356). -/
def State.splitOf (s : State) (d c : Nat) : Split := tgetD (s.die d).split c ⟨false, false, 0, 0⟩

/-- Scratch ways that the window of a context on a die has: those of its split register (R356), or the fewer that a resize under way leaves
(R359). -/
def State.ways (s : State) (d c : Nat) : Nat :=
  let x := s.splitOf d c
  if x.busy = true ∧ (s.die d).resizes.head? = some c then min x.ways.toNat x.request.toNat else x.ways.toNat

/-- A peer window is a hole when it names this package or no valid route (R523). -/
def State.peerRouted (s : State) (n : Nat) : Bool :=
  decide (n ≠ s.pkg.self.toNat) && (tgetD s.pkg.routes n (false, 0)).1

/-- The region of a physical address (R474, R357, R523). -/
def State.region (s : State) (pa : Nat) : Region :=
  if pa < 0x8000000000 then
    if pa % 0x2000000000 < tier1Size then .tier1 (pa / 0x2000000000) else .hole
  else if pa < 0x8400000000 then
    let x := pa - 0x8000000000
    let d := x / 0x100000000
    let c := x % 0x100000000 / 0x20000000
    if x % 0x20000000 < s.ways d c * 0x2000000 then .slice d c else .hole
  else if 0xC000000000 ≤ pa ∧ pa < 0xC004000000 then .control ((pa - 0xC000000000) / 0x1000000)
  else if 0x100000000000 ≤ pa ∧ pa < 0x200000000000 then
    let x := pa - 0x100000000000
    if x % 0x40000000000 < tier2Size then .tier2 (x / 0x40000000000) else .hole
  else if 0x200000000000 ≤ pa ∧ pa < 0x400000000000 then .host
  else if 0x400000000000 ≤ pa ∧ pa < 0x10000000000000 then
    let n := (pa - 0x400000000000) / 0x200000000000
    if n < 126 ∧ s.peerRouted n = true then .peer n else .hole
  else .hole

/-- A populated first-tier or second-tier address (R482, R486). -/
def State.isLocal (s : State) (pa : Nat) : Bool :=
  match s.region pa with
  | .tier1 _ => true
  | .tier2 _ => true
  | _ => false

/-- The home die of a physical address of this package (R474). -/
def State.homeDie (s : State) (pa : Nat) : Nat :=
  match s.region pa with
  | .tier1 d => d
  | .tier2 d => d
  | .slice d _ => d
  | .control d => d
  | _ => 0

/-- First byte of the slice-scratch window of a context on a die (R357, R474). -/
def sliceBase (d part : Nat) : Nat := 0x8000000000 + d * 0x100000000 + part * 0x20000000

/-- `slice(x)` of a slice-scratch window's byte offset (R357). -/
def windowSlice (x : Nat) : Nat := x / 4096 % 64

/-- `local(x)` of a slice-scratch window's byte offset (R357). -/
def windowLocal (x : Nat) : Nat := x / 262144 * 4096 + x % 4096

/-- The xor of the 6-bit groups of a number, n groups. -/
def xor6 : Nat → Nat → Nat
  | 0, _ => 0
  | n + 1, x => (x % 64) ^^^ xor6 n (x / 64)

/-- `home_slice(PA)` (R349). -/
def homeSlice (pa : Nat) : Nat := xor6 9 (pa / 128)

/-- The die and slice at which an access to a physical address is performed: its home slice (R349), or the slice of a window byte (R357). -/
def State.slicePlace (s : State) (pa : Nat) : Option (Nat × Nat) :=
  match s.region pa with
  | .tier1 d => some (d, homeSlice pa)
  | .tier2 d => some (d, homeSlice pa)
  | .host => some (0, homeSlice pa)
  | .slice d c => some (d, windowSlice (pa - sliceBase d c))
  | _ => none

/-- The slice that serves an address has stopped accepting requests (R368): the request waits. (DEDUCED, log entry 39.) -/
def State.stopped (s : State) (pa : Nat) : Bool :=
  match s.slicePlace pa with
  | none => false
  | some (d, k) => (s.die d).deadSlices.contains k

/-! ## Lost lines, poisoned words and boarded words -/

/-- The memory controller of a line: how lines are spread over a die's devices is not architectural (R474); log entry 11. -/
def State.controller (s : State) (pa : Nat) : Nat :=
  match s.region pa with
  | .tier2 _ => 12 + pa / 128 % 8
  | _ => pa / 128 % 12

/-- A controller's lost-line state (R369). -/
def State.lostTable (s : State) (d m : Nat) : LostTable := tgetD (s.die d).lost m ⟨[], [], 0, false⟩

/-- A line is in a lost-line table or its overflow list (R369). -/
def State.isLost (s : State) (pa : Nat) : Bool :=
  let t := s.lostTable (s.homeDie pa) (s.controller pa)
  t.lines.any (fun x => x.pline = pa / 128) || t.spilled.any (fun x => x.pline = pa / 128)

/-- Bytes lo .. lo+n−1 of a line as a mask. -/
def byteMask (lo n : Nat) : BitVec 128 := BitVec.ofNat 128 ((2 ^ n - 1) * 2 ^ lo)

/-- Merge a store into a list of lost lines: a line wholly written leaves it (R369). -/
def mergeLost (pline : Nat) (m : BitVec 128) (l : List LostLine) : List LostLine :=
  (l.map (fun x => if x.pline = pline then { x with written := x.written ||| m } else x)).filter
    (fun x => decide (x.written ≠ BitVec.allOnes 128))

/-- A store of n bytes at pa, within one line, meets the lost-line table (R369). -/
def State.storeLost (s : State) (pa n : Nat) : State :=
  if s.isLost pa then
    s.modDie (s.homeDie pa) (fun d =>
      { d with lost := tmod d.lost (s.controller pa) ⟨[], [], 0, false⟩ (fun t =>
          { t with lines := mergeLost (pa / 128) (byteMask (pa % 128) n) t.lines,
                   spilled := mergeLost (pa / 128) (byteMask (pa % 128) n) t.spilled }) })
  else s

/-- Enter a line in its controller's lost-line table (R369): a loss that finds the table full raises a system cause and is kept
in firmware's overflow list. -/
def State.loseLine (s : State) (pline : Nat) : State :=
  let pa := pline * 128
  let d := s.homeDie pa
  let m := s.controller pa
  let t := s.lostTable d m
  let entered := if t.entered = BitVec.allOnes 16 then t.entered else t.entered + 1
  let drop := fun (l : List LostLine) => l.filter (fun x => decide (x.pline ≠ pline))
  let t : LostTable := { t with entered := entered, lines := drop t.lines, spilled := drop t.spilled }
  if t.lines.length < 256 then
    s.modDie d (fun x => { x with lost := tset x.lost m { t with lines := t.lines ++ [⟨pline, 0⟩] } })
  else
    (s.modDie d (fun x => { x with lost := tset x.lost m { t with spilled := t.spilled ++ [⟨pline, 0⟩], overflow := true } })).firmwareCause 1

/-- The boarded entry that covers a byte (R354). -/
def State.boardedAt (s : State) (pa : Nat) : Option Boarded := s.pkg.boarded.find? (fun b => b.word = pa / 8)

/-- The Churn slot that shadows a byte: its die and number, when its word is aboard or alighting (R288, R354). -/
def State.shadow (s : State) (pa : Nat) : Option (Nat × Slot) :=
  match s.boardedAt pa with
  | none => none
  | some b => match b.slot with
    | none => none
    | some n => match tget (s.die b.die).slots n with
      | none => none
      | some sl => if sl.state = .aboard ∨ sl.state = .alighting then some (b.die, sl) else none

/-- A word is aboard a Churn, so that ordinary writes to it are refused (R288, R354). -/
def State.isBoarded (s : State) (pa : Nat) : Bool :=
  match s.boardedAt pa with
  | none => false
  | some b => match b.slot with
    | none => false
    | some n => match tget (s.die b.die).slots n with
      | none => false
      | some _ => true

/-- The states of the halves of a line that the host holds (R495). -/
def State.halves (s : State) (line : Nat) : LineState × LineState :=
  match (s.die (s.homeDie (128 * line))).devDir.find? (fun x => decide (x.1 = line)) with
  | none => (.i, .i)
  | some x => x.2

/-- Dirty data of a 64-byte half that the host owns (R495): what it will supply when the half is asked for. -/
def State.hostHeld (s : State) (half : Nat) : Option (BitVec 512) :=
  let h := s.halves (half / 2)
  if (if half % 2 = 0 then h.1 else h.2) = .o then Config.hostDirty half s.cycle else none

/-- A byte as every read finds it: a boarded word is served from its slot by a memory tap (R288), a half that the host owns by the host
(R496), and a peer's byte by the peer (DEDUCED, log entry 18). A reader that is no lane's load takes the slot's value at once (DEDUCED, log
entry 90). -/
def State.readByte (s : State) (pa : Nat) : Byte :=
  if 0x400000000000 ≤ pa then Config.peerByte pa s.cycle
  else match s.shadow pa with
    | some (_, sl) => BitVec.ofNat 8 (sl.value.toNat / 256 ^ (pa % 8))
    | none => match s.hostHeld (pa / 64) with
      | some v => BitVec.ofNat 8 (v.toNat / 256 ^ (pa % 64))
      | none => memGet s.mem pa

/-- n bytes at pa as a number. -/
def State.readPhys (s : State) (pa n : Nat) : Nat := leNat ((upto pa n).map s.readByte)

/-- A byte lies in a word that an error has poisoned (R368). -/
def State.isPoisoned (s : State) (pa : Nat) : Bool := s.pkg.poisoned.contains (pa / 8)

/-- Data of n bytes at pa cannot be returned: a poisoned word, or a poisoned Churn slot (R368, R435). -/
def State.badBytes (s : State) (pa n : Nat) : Bool :=
  (upto (pa / 8) ((pa + n - 1) / 8 + 1 - pa / 8)).any (fun w =>
    s.isPoisoned (8 * w) || (match s.shadow (8 * w) with
      | some (_, sl) => sl.poison
      | none => false))

/-- A read of n bytes at pa, all within one line, meets an uncorrectable error: a lost line, or data that cannot be returned. -/
def State.unreadable (s : State) (pa n : Nat) : Bool := s.isLost pa || s.badBytes pa n

/-- Store bytes at pa, all within one line: the image, the lost-line mask and the poison of whole words (R368, R369). -/
def State.rawWrite (s : State) (pa : Nat) (bs : List Byte) : State :=
  let s := { s with mem := memPutList s.mem pa bs }
  let s := s.storeLost pa bs.length
  if s.pkg.poisoned = [] then s
  else s.modPkg (fun p => { p with poisoned := p.poisoned.filter (fun w => ¬ (pa ≤ 8 * w ∧ 8 * w + 8 ≤ pa + bs.length)) })

/-! ## Render passes in slice scratch -/

/-- Tile side S of a pass (R442). -/
def passSide (desc : BitVec 512) : Nat := 8 * 2 ^ fieldOf desc 1 33 32
/-- Tiles across (R442). -/
def passTx (desc : BitVec 512) : Nat := (fieldOf desc 1 15 0 + passSide desc - 1) / passSide desc
/-- Tiles in all (R442). -/
def passTiles (desc : BitVec 512) : Nat := passTx desc * ((fieldOf desc 1 31 16 + passSide desc - 1) / passSide desc)
/-- Bytes of a tile, B (R442). -/
def passTileBytes (desc : BitVec 512) : Nat := 12 * passSide desc * passSide desc
/-- First entry e0 (R442). -/
def passE0 (desc : BitVec 512) : Nat := fieldOf desc 2 43 32


/-- First byte of a tile's pixels (R442). -/
def Pass.tileBase (p : Pass) (d entry : Nat) : Nat :=
  sliceBase d p.part + fieldOf p.desc 3 31 0 + (entry - passE0 p.desc) * passTileBytes p.desc

/-- A store to n bytes of slice scratch leaves the pixels of the tiles that it meets undefined (R444). -/
def State.spoil (s : State) (pa n : Nat) : State :=
  match s.region pa with
  | .slice d _ =>
    if (s.die d).tiles = [] then s
    else s.modDie d (fun k => { k with tiles := k.tiles.map (fun t => match tget k.passes t.2.pass with
      | none => t
      | some p =>
        let b := p.tileBase d t.1
        if b < pa + n ∧ pa < b + passTileBytes p.desc then (t.1, { t.2 with spoiled := true }) else t) })
  | _ => s

/-- An ordinary store of bytes at pa, all within one line. -/
def State.writePhys (s : State) (pa : Nat) (bs : List Byte) : State := (s.rawWrite pa bs).spoil pa bs.length

/-- Store bytes at pa across lines. -/
def State.writeSpan (s : State) (pa : Nat) (bs : List Byte) : State :=
  let n := min bs.length (128 - pa % 128)
  let s1 := s.writePhys pa (bs.take n)
  if bs.length ≤ n then s1 else s1.writePhys (pa + n) (bs.drop n)

/-! ## Page tables and the TLB -/

/-- The fields of a page table entry (R481). -/
def pteAddr (p : Nat) : Nat := p / 65536 % 2 ^ 36 * 65536
/-- Attribute bits [10:0] of an entry. -/
def pteAttr (p : Nat) : Nat := p % 2048
/-- V. -/
def pteV (p : Nat) : Bool := p % 2 = 1
/-- L. -/
def pteL (p : Nat) : Bool := p / 2 % 2 = 1
/-- R: read allowed. -/
def attrR (a : Nat) : Bool := a / 16 % 2 = 1
/-- W: write allowed. -/
def attrW (a : Nat) : Bool := a / 32 % 2 = 1
/-- X: fetch allowed. -/
def attrX (a : Nat) : Bool := a / 64 % 2 = 1
/-- C: contiguity hint. -/
def attrC (a : Nat) : Bool := a / 128 % 2 = 1
/-- P: privileged groups only. -/
def attrP (a : Nat) : Bool := a / 256 % 2 = 1
/-- Type: 1 is MMIO. -/
def attrType (a : Nat) : Nat := a / 512 % 4
/-- N: do not migrate. -/
def pteN (p : Nat) : Bool := p / 2 ^ 61 % 2 = 1

/-- log2 of the page size of a leaf at level k (R480). -/
def leafLg (k : Nat) : Nat := if k = 1 then 42 else if k = 2 then 29 else 16

/-- A valid entry at level k is malformed (R482). -/
def State.pteMalformed (s : State) (p k : Nat) : Bool :=
  decide (p / 2 ^ 63 % 2 ≠ 0 ∨ p / 2048 % 32 ≠ 0 ∨ p / 4 % 4 ≠ 0 ∨ 2 ≤ attrType p) ||
  (if pteL p then
    decide (pteAddr p % 2 ^ leafLg k ≠ 0) || (attrC p && decide (k ≠ 3)) || (decide (attrType p = 1) && attrX p)
  else
    decide (p / 16 % 128 ≠ 0) || decide (k = 3) || !s.isLocal (pteAddr p))

/-- The index of a virtual address at level k (R480). -/
def vaIndex (va k : Nat) : Nat := va / 2 ^ leafLg k % 8192

/-- Levels k.. of a walk from table t (R480); `n` levels are left. -/
def State.walkFrom (s : State) (asid va : Nat) : Nat → Nat → Nat → Except Cause TlbEntry
  | 0, _, _ => .error .translation
  | n + 1, k, t =>
    let a := t + 8 * vaIndex va k
    if s.unreadable a 8 then .error .memUe
    else
      let p := s.readPhys a 8
      if pteV p = false ∨ s.pteMalformed p k = true then .error .translation
      else if pteL p then
        .ok { asid := asid, vbase := va / 2 ^ leafLg k * 2 ^ leafLg k, lg := leafLg k, pbase := pteAddr p, attr := pteAttr p }
      else s.walkFrom asid va n (k + 1) (pteAddr p)

/-- A walk (R479, R480). (DESIGN CHOICE, log entry 15.) -/
def State.walk (s : State) (asid va : Nat) : Except Cause TlbEntry :=
  let a := s.pkg.regs.asidbase + 16 * asid
  if s.unreadable a 8 then .error .memUe
  else
    let e := s.readPhys a 8
    let root := e / 65536 % 2 ^ 36 * 65536
    if e / 2 ^ 63 % 2 = 0 then .error .translation
    else if s.isLocal root = false then .error .translation
    else s.walkFrom asid va 3 1 root

/-- The entry of a cluster's TLB that covers an address (R325). -/
def State.tlbHit (s : State) (k asid va : Nat) : Option TlbEntry :=
  (s.cluster k).tlb.find? (fun e => e.asid = asid ∧ e.vbase = va / 2 ^ e.lg * 2 ^ e.lg)

/-- The line of a core's L1 whose tag is an ASID and virtual line (R271). -/
def State.l1Hit (s : State) (c asid va : Nat) : Option L1Line :=
  (s.core c).l1.find? (fun x => x.asid = asid ∧ x.vline = va / 128)

/-- A translation fills a TLB of 4,096 entries (R325); the oldest goes where there is no room. -/
def Cluster.fillTlb (k : Cluster) (e : TlbEntry) : Cluster := { k with tlb := e :: k.tlb.take 4095 }

/-- Bytes of a global access that lie in one line: physical and virtual address, attribute bits and log2 of the page size of the
translation, how many. -/
structure Piece where
  pa : Nat
  va : Nat
  attr : Nat
  lg : Nat
  len : Nat
  deriving DecidableEq, Repr

/-- What a translation gives for n bytes at a virtual address. -/
def TlbEntry.piece (e : TlbEntry) (va n : Nat) : Piece := ⟨e.pbase + (va - e.vbase), va, e.attr, e.lg, n⟩

/-- The translation of n bytes of one line for a core: an L1 hit needs none (R271), then the cluster TLB, then a walk whose result
fills the TLB (R325, R480); an access that bypasses the L1 begins at the TLB (R325). (DESIGN CHOICE, log entry 15.) -/
def State.translate (s : State) (c asid : Nat) (bypass : Bool) (va n : Nat) : Except Cause Piece × State :=
  match (if bypass then none else s.l1Hit c asid va) with
  | some x => (.ok ⟨x.pline * 128 + va % 128, va, x.attr, x.lg, n⟩, s)
  | none => match s.tlbHit (coreCluster c) asid va with
    | some e => (.ok (e.piece va n), s)
    | none => match s.walk asid va with
      | .error x => (.error x, s)
      | .ok e => (.ok (e.piece va n), s.modCluster (coreCluster c) (fun k => k.fillTlb e))

/-- The translation of an address for a unit that is not a core (R532). -/
def State.translateUnit (s : State) (asid va : Nat) : Except Cause (Nat × Nat) :=
  match s.walk asid va with
  | .error x => .error x
  | .ok e => .ok (e.pbase + (va - e.vbase), e.attr)

/-- The kinds of access of R483. -/
inductive AccKind where
  | read | write | rmw | fetch
  deriving DecidableEq, Repr

/-- The permission checks of R483, but for the slice-scratch context. -/
def permOk (attr : Nat) (priv : Bool) (k : AccKind) : Bool :=
  (priv || !attrP attr) &&
  match k with
  | .read => attrR attr
  | .write => attrW attr
  | .rmw => attrR attr && attrW attr
  | .fetch => attrX attr

/-- A unit's access reaches beyond the address space or into a window (R268, R532). -/
def unitWindow (va n : Nat) : Bool := decide (2 ^ 55 ≤ va + n - 1 ∨ (0x7F000000000000 ≤ va + n - 1 ∧ va < 0x80000000000000))

/-- The checks of a unit's access of n bytes after its translation (R483, R532): a refusal, or an error in the data it reads (R368, R369, R435). -/
def State.unitCheck (s : State) (priv : Bool) (part pa attr n : Nat) (k : AccKind) : Except Cause Nat :=
  if permOk attr priv k = false ∨ attrType attr = 1 then .error .access
  else
    let data := if k ≠ .write ∧ s.unreadable pa n = true then Except.error Cause.memUe else .ok pa
    match s.region pa with
    | .hole => .error .access
    | .control _ => .error .access
    | .slice _ c => if c = part then data else .error .access
    | _ => data

/-- A unit's access of n bytes at a virtual address, checked under R483 and R532, all within one page: its physical address. -/
def State.unitAccess (s : State) (asid : Nat) (priv : Bool) (part va n : Nat) (k : AccKind) : Except Cause Nat :=
  if unitWindow va n then .error .access
  else match s.translateUnit asid va with
    | .error x => .error x
    | .ok (pa, attr) => s.unitCheck priv part pa attr n k

/-- A unit's read of n bytes, as a number (R532). -/
def State.unitRead (s : State) (asid : Nat) (priv : Bool) (part va n : Nat) : Except Cause Nat :=
  match s.unitAccess asid priv part va n .read with
  | .error x => .error x
  | .ok pa => .ok (s.readPhys pa n)

/-- A 64-byte record read by a unit (R390, R394). -/
def State.unitRead512 (s : State) (asid : Nat) (priv : Bool) (part va : Nat) : Except Cause (BitVec 512) :=
  match s.unitRead asid priv part va 64 with
  | .error x => .error x
  | .ok v => .ok (BitVec.ofNat 512 v)

end Sys2Proof.Machine
end

