-- ==== Sys2Proof/Machine/Directory.lean ====
section
/-!
DEFINITION. The caches beside the byte image: the lines of the home slices with their directory (R347 to R354), the L1s (R271 to R275), the
buffers of the cluster atomic units (R331), what the host's caches hold (R493 to R497), and the counted ranges (R490). A core's own
access applies its transitions at once; the transitions that come as separate events wait for what they need (R352).
-/
namespace Sys2Proof.Machine

/-! ## Records -/

/-- Some word of a line is aboard a Churn (R354). -/
def State.lineBoarded (s : State) (line : Nat) : Bool := s.pkg.boarded.any (fun b => b.slot.isSome && decide (b.word / 16 = line))

/-- The directory record of a line (R351); of a line that its home slice does not hold, what it would enter with. -/
def State.dirOf (s : State) (line : Nat) : DirEntry :=
  (tget s.pkg.dir line).getD
    { state := .i, sharers := 0, owner := 0, dirty := 0, host := decide (s.halves line ≠ (.i, .i)), boarded := s.lineBoarded line, way := 0, age := 0 }

/-- The state with the record of a line that its home slice holds changed. -/
def State.modDir (s : State) (line : Nat) (f : DirEntry → DirEntry) : State :=
  match tget s.pkg.dir line with
  | none => s
  | some e => s.modPkg (fun p => { p with dir := tset p.dir line (f e) })

/-- Bytes of the L2 copy of a line differ from memory (R351). -/
def State.markDirty (s : State) (line : Nat) (m : BitVec 128) : State :=
  if m = 0 then s else s.modDir line (fun e => { e with dirty := e.dirty ||| m })

/-- The cores of a cluster. -/
def clusterCores (k : Nat) : List Nat := upto (96 * (k / 24) + k % 24 * 4) 4

/-- The clusters of a sharer set (R351). -/
def sharerList (m : BitVec 96) : List Nat := (upto 0 96).filter (fun k => m.getLsbD k)

/-- One sharer. -/
def oneSharer (k : Nat) : BitVec 96 := 1#96 <<< k

/-- A physical address with a home slice that a cache may hold (R349, R477). -/
def State.directed (s : State) (pa : Nat) : Bool :=
  match s.region pa with
  | .tier1 _ => true
  | .tier2 _ => true
  | .host => true
  | _ => false

/-- A line is one that an L1 may hold: it is normal memory of this package or of the host, and no word of it is boarded
(R354, R358, R477). -/
def State.cacheable (s : State) (pa attr : Nat) : Bool :=
  decide (attrType attr = 0) && !(s.dirOf (pa / 128)).boarded && s.directed pa

/-! ## Copies in a cluster -/

/-- A record of a cluster's reverse map (R326): physical line, core, set, way, ASID and virtual line. -/
structure ReverseRec where
  pline : Nat
  core : Nat
  set : Nat
  way : Nat
  asid : Nat
  vline : Nat
  deriving DecidableEq, Repr

/-- The reverse map of a cluster: one record for each line present in its four L1s (R326). -/
def State.reverseMap (s : State) (k : Nat) : List ReverseRec :=
  (clusterCores k).flatMap (fun c => (s.core c).l1.map (fun x => ⟨x.pline, c, x.set, x.way, x.asid, x.vline⟩))

/-- The cores of a cluster that hold a physical line, through its reverse map (R326). -/
def State.holders (s : State) (k line : Nat) : List Nat := ((s.reverseMap k).filter (fun r => decide (r.pline = line))).map (·.core)

/-- A line is in the buffer of a cluster's atomic unit (R331). -/
def State.buffered (s : State) (k line : Nat) : Bool := (s.cluster k).atomBuf.any (fun x => decide (x.1 = line))

/-- A core's L1 gives up a physical line. -/
def State.dropL1 (s : State) (c line : Nat) : State := s.modCore c (fun x => { x with l1 := x.l1.filter (fun y => decide (y.pline ≠ line)) })

/-- A cluster's atomic unit gives up a line. -/
def State.dropBuf (s : State) (k line : Nat) : State :=
  if s.buffered k line then s.modCluster k (fun x => { x with atomBuf := x.atomBuf.filter (fun y => decide (y.1 ≠ line)) }) else s

/-- Remove a physical line from the L1s and the atomic buffer of a cluster (R326, R350); its data are in the byte image. -/
def State.dropLine (s : State) (k line : Nat) : State := ((s.holders k line).foldl (fun s c => s.dropL1 c line) s).dropBuf k line

/-- The dirty bytes of a line in a core's L1. -/
def State.l1Dirty (s : State) (c line : Nat) : BitVec 128 :=
  (s.core c).l1.foldl (fun m x => if x.pline = line then m ||| x.dirty else m) 0

/-- The modified bytes of a line in the buffer of a cluster's atomic unit. -/
def State.bufDirty (s : State) (k line : Nat) : BitVec 128 :=
  (s.cluster k).atomBuf.foldl (fun m x => if x.1 = line then m ||| x.2 else m) 0

/-- The bytes of a line that a cluster has modified (R351). -/
def State.dirtyIn (s : State) (k line : Nat) : BitVec 128 :=
  (s.holders k line).foldl (fun m c => m ||| s.l1Dirty c line) (s.bufDirty k line)

/-- The owner of a line had modified it (R352). -/
def State.ownerModified (s : State) (k line : Nat) : Bool := decide (s.dirtyIn k line ≠ 0)

/-- Clean the marks of a line in a cluster: its bytes have been written to the L2. -/
def State.cleanLine (s : State) (k line : Nat) : State :=
  let s := (s.holders k line).foldl (fun s c =>
    s.modCore c (fun x => { x with l1 := x.l1.map (fun y => if y.pline = line then { y with dirty := 0 } else y) })) s
  if s.buffered k line then s.modCluster k (fun x => { x with atomBuf := x.atomBuf.map (fun y => if y.1 = line then (line, 0) else y) }) else s

/-! ## Lines of a home slice -/

/-- Remove every copy of a line from L1s and atomic buffers, collecting dirty data into the L2 (R350, R354). -/
def State.backInvalidate (s : State) (line : Nat) : State :=
  let ks := sharerList (s.dirOf line).sharers
  let m := ks.foldl (fun m k => m ||| s.dirtyIn k line) 0
  (ks.foldl (fun s j => s.dropLine j line) s).modDir line (fun e => { e with state := .i, sharers := 0, dirty := e.dirty ||| m })

/-- A home slice evicts a line (R350): every copy goes first, and what it holds is in memory. -/
def State.evictLine (s : State) (line : Nat) : State := (s.backInvalidate line).modPkg (fun p => { p with dir := tdel p.dir line })

/-- The cache ways of each slice of a die: what the scratch ways leave of 16 (R348, R355). -/
def State.l2Ways (s : State) (d : Nat) : Nat := 16 - ((upto 0 8).map (fun c => (s.splitOf d c).ways.toNat)).sum

/-- The set of a line in its home slice, of 4,096: which lines share a set is not architectural (R348). (DESIGN CHOICE, log entry 43.) -/
def l2Set (line : Nat) : Nat := line / 64 % 4096

/-- The lines that share a line's set in its home slice. -/
def State.l2Mates (s : State) (line : Nat) : List (Nat × DirEntry) :=
  s.pkg.dir.filter (fun x => decide (l2Set x.1 = l2Set line ∧ homeSlice (128 * x.1) = homeSlice (128 * line)) &&
    decide (s.homeDie (128 * x.1) = s.homeDie (128 * line)))

/-- The transition under way on a line: the first of those in the list (R352). -/
def State.transOf (s : State) (line : Nat) : Option Transition := s.pkg.trans.find? (fun t => t.line = line)

/-- A line enters its home slice, where it is not there (R348, R350): a free cache way, else that of the line of its set that entered
earliest and has no transition under way. (DESIGN CHOICE, log entry 43.) -/
def State.l2Fill (s : State) (line : Nat) : State :=
  if (tget s.pkg.dir line).isSome then s
  else
    let mates := s.l2Mates line
    let put := fun (s : State) (w : Nat) => s.modPkg (fun p => { p with dir := tset p.dir line { s.dirOf line with way := w, age := s.cycle } })
    match (upto 0 (s.l2Ways (s.homeDie (128 * line)))).find? (fun w => mates.all (fun x => decide (x.2.way ≠ w))) with
    | some w => put s w
    | none =>
      let quiet := mates.filter (fun x => (s.transOf x.1).isNone)
      match lmin (fun (a b : Nat × DirEntry) => decide (a.2.age < b.2.age)) (if quiet = [] then mates else quiet) with
      | none => put s 0
      | some v => put (s.evictLine v.1) v.2.way

/-! ## What the host holds -/

/-- A line leaves the device directory: the host's halves are invalid (R495, R496). -/
def State.dropHalves (s : State) (line : Nat) : State :=
  (s.modDie (s.homeDie (128 * line)) (fun d => { d with devDir := d.devDir.filter (fun x => decide (x.1 ≠ line)) })).modDir line
    (fun e => { e with host := false })

/-- Bytes of one line from outside the cores enter the L2 line; boarded words take nothing (R288, R354), which is counted. -/
def State.homeBytes (s : State) (pa : Nat) (bs : List Byte) : State :=
  let s := s.l2Fill (pa / 128)
  let s := s.markDirty (pa / 128) (byteMask (pa % 128) bs.length)
  if (upto pa bs.length).any s.isBoarded then
    (lmapIdx (fun k b => (pa + k, b)) 0 bs).foldl (fun s c => if s.isBoarded c.1 then s else s.writePhys c.1 [c.2])
      (s.count 7 (sliceSource (s.homeDie pa) (homeSlice pa)))
  else s.writePhys pa bs

/-- The host supplies the dirty data of a half that it owns (R496). -/
def State.supplyHalf (s : State) (half : Nat) : State :=
  match s.hostHeld half with
  | none => s
  | some v => s.homeBytes (64 * half) (leBytes 64 v.toNat)

/-- The halves of a line that the host owns supply their dirty data and become shared (R496). -/
def State.hostShare (s : State) (line : Nat) : State :=
  let h := s.halves line
  if h.1 ≠ .o ∧ h.2 ≠ .o then s
  else
    let down := fun (h : LineState) => if h = .o then LineState.s else h
    ((s.supplyHalf (2 * line)).supplyHalf (2 * line + 1)).modDie (s.homeDie (128 * line)) (fun d =>
      { d with devDir := d.devDir.map (fun x => if x.1 = line then (line, down h.1, down h.2) else x) })

/-- The host gives up its halves of a line, with their dirty data (R496). -/
def State.hostTake (s : State) (line : Nat) : State :=
  if s.halves line = (.i, .i) then s else ((s.supplyHalf (2 * line)).supplyHalf (2 * line + 1)).dropHalves line

/-- Lines of the second tier that a directory holds. -/
def tier2Entries (l : List (Nat × LineState × LineState)) : List (Nat × LineState × LineState) := l.filter (fun x => decide (0x100000000000 ≤ 128 * x.1))

/-- Room for a new line in the device directory (R495): when 2,097,152 second-tier entries are held, the host gives up the one that entered
earliest. (DESIGN CHOICE, log entry 48.) -/
def State.devRoom (s : State) (line : Nat) : State :=
  let l := tier2Entries (s.die (s.homeDie (128 * line))).devDir
  if 0x100000000000 ≤ 128 * line ∧ 2097152 ≤ l.length then match l with
    | [] => s
    | x :: _ => s.hostTake x.1
  else s

/-- Set a half of a line in the device directory (R495); a line with both halves invalid leaves it. (DESIGN CHOICE, log entry 48.) -/
def State.setHalf (s : State) (line half : Nat) (x : LineState) : State :=
  let h := s.halves line
  let h := if half = 0 then (x, h.2) else (h.1, x)
  if h = (.i, .i) then s.dropHalves line
  else
    let d := s.homeDie (128 * line)
    let known := (s.die d).devDir.any (fun y => decide (y.1 = line))
    let s := if known then s else s.devRoom line
    (s.modDie d (fun k => { k with devDir := if known then k.devDir.map (fun y => if y.1 = line then (line, h) else y)
                                             else k.devDir ++ [(line, h)] })).modDir line (fun e => { e with host := true })

/-- Device copies of a line are downgraded to shared, dirty data collected into the L2 (R496). -/
def State.downgrade (s : State) (line : Nat) : State :=
  let e := s.dirOf line
  if e.state = .e ∨ e.state = .m ∨ e.state = .o then
    ((s.cleanLine e.owner line).markDirty line (s.dirtyIn e.owner line)).modDir line (fun e => { e with state := if e.sharers = 0 then .i else .s })
  else s

/-! ## Directory transitions -/

/-- GetS of a line by a cluster (R352, R496); no line with a boarded word is granted (R354). -/
def State.dirGetS (s : State) (k line : Nat) : State :=
  let s := (s.hostShare line).l2Fill line
  let e := s.dirOf line
  let me := oneSharer k
  if e.boarded then s
  else match e.state with
    | .i => s.modDir line (fun e => { e with state := if e.host then .s else .e, sharers := me, owner := k })
    | .s => s.modDir line (fun e => { e with sharers := e.sharers ||| me })
    | .o => s.modDir line (fun e => { e with sharers := e.sharers ||| me })
    | _ =>
      if e.owner = k then s
      else
        let modified := s.ownerModified e.owner line
        s.modDir line (fun e => { e with state := if modified then .o else .s, sharers := e.sharers ||| me })

/-- GetM of a line by a cluster (R352, R496): every other copy is invalidated, host halves become I. The bytes that other clusters had
modified go to the requester. -/
def State.dirGetM (s : State) (k line : Nat) : BitVec 128 × State :=
  let s := (s.hostTake line).l2Fill line
  if (s.dirOf line).boarded then (0, s)
  else
    let ks := (sharerList (s.dirOf line).sharers).filter (· ≠ k)
    let m := ks.foldl (fun m j => m ||| s.dirtyIn j line) 0
    (m, (ks.foldl (fun s j => s.dropLine j line) s).modDir line (fun e =>
      { e with state := .m, sharers := oneSharer k, owner := k, host := false }))

/-- Put of a line by a cluster that has no copy of it left, with the bytes it had modified (R352): a shared copy goes silently. -/
def State.dirPut (s : State) (k line : Nat) (m : BitVec 128) : State :=
  let e := s.dirOf line
  let others := e.sharers &&& ~~~(oneSharer k)
  if e.owner = k ∧ (e.state = .m ∨ e.state = .o ∨ e.state = .e) then
    s.modDir line (fun e => { e with state := if e.state = .o ∧ others ≠ 0 then .s else .i, sharers := others, dirty := e.dirty ||| m })
  else s.markDirty line m

/-- A copy that a cluster had is gone, with the bytes modified in it: the cluster leaves the directory when it holds no other (R352). -/
def State.gaveUp (s : State) (k line : Nat) (m : BitVec 128) : State :=
  if (s.holders k line).isEmpty && !s.buffered k line then s.dirPut k line m else s.markDirty line m

/-- A core's L1 gives up a line (R352). -/
def State.dropOwn (s : State) (core line : Nat) : State :=
  (s.dropL1 core line).gaveUp (coreCluster core) line (s.l1Dirty core line)

/-- Apply a transition as a whole (R352); what a GetM without an L1 fill collects stays in the L2 line. (DESIGN CHOICE, log entry 45.) -/
def State.applyTrans (s : State) (t : Transition) : State :=
  if t.getm then
    let r := s.dirGetM t.cluster t.line
    r.2.markDirty t.line r.1
  else s.dirGetS t.cluster t.line

/-- A list without its first transition of a line. -/
def popTrans (line : Nat) : List Transition → List Transition
  | [] => []
  | u :: r => if u.line = line then r else u :: popTrans line r

/-- The transitions that wait on a line are applied in their order, n at most: a request that finds them queues behind them (R352). -/
def State.drainTrans (s : State) (line : Nat) : Nat → State
  | 0 => s
  | n + 1 => match s.transOf line with
    | none => s
    | some t => ((s.modPkg (fun p => { p with trans := popTrans line p.trans })).applyTrans t).drainTrans line n

/-! ## Bias flips -/

/-- Physical address of a first-tier page of a die. -/
def biasBase (d page : Nat) : Nat := d * 0x2000000000 + page * 65536

/-- Lines of the directory in a page of 64 KiB. -/
def State.pageHeld (s : State) (pa : Nat) : List Nat :=
  (((s.pkg.dir.map (·.1)) ++ (s.die (s.homeDie pa)).devDir.map (·.1)).filter (fun l => decide (128 * l / 65536 = pa / 65536))).eraseDups

/-- Every copy of a page's lines goes: device copies, and the host's halves with their dirty data (R350, R487, R494). -/
def State.evictPage (s : State) (pa : Nat) : State := (s.pageHeld pa).foldl (fun s l => (s.hostTake l).evictLine l) s

/-- The bias of a first-tier page becomes host or device bias (R494): device copies, or the host's halves with their dirty data, go first.
(DESIGN CHOICE, log entry 46.) -/
def State.flipBias (s : State) (d page : Nat) (toHost : Bool) : State :=
  let base := biasBase d page
  if toHost then
    ((s.pageHeld base).foldl (fun s l => s.evictLine l) s).modDie d (fun k =>
      { k with hostBias := page :: k.hostBias.filter (fun p => decide (p ≠ page)) })
  else
    ((s.pageHeld base).foldl (fun s l => s.hostTake l) s).modDie d (fun k => { k with hostBias := k.hostBias.filter (fun p => decide (p ≠ page)) })

/-- The bias flip under way on a die ends (R494). -/
def State.endFlip (s : State) (d : Nat) : State :=
  let b := (s.die d).bias
  if b.busy then (s.flipBias d b.page.toNat b.target).modDie d (fun k => { k with bias := { k.bias with busy := false } }) else s

/-- A request reaches a line of a page whose bias is being flipped: it waits, and proceeds under the new bias (R494). In the model the flip
ends at once then. (DESIGN CHOICE, log entry 46.) -/
def State.settleFlip (s : State) (pa : Nat) : State :=
  match s.region pa with
  | .tier1 d => if (s.die d).bias.busy = true ∧ (s.die d).bias.page.toNat = pa % 0x2000000000 / 65536 then s.endFlip d else s
  | _ => s

/-- A request reaches the home slice of a line: what waits there before it is done (R352, R494), and a port's buffer gives the line up (R525). -/
def State.reach (s : State) (line : Nat) : State :=
  let s := s.settleFlip (128 * line)
  let s := s.drainTrans line s.pkg.trans.length
  if s.pkg.portBuf.contains line then s.modPkg (fun p => { p with portBuf := p.portBuf.filter (fun x => decide (x ≠ line)) }) else s

/-! ## The on-die network -/

/-- Router r of a die: on since reset where nothing is recorded (R366). -/
def Die.router (d : Die) (r : Nat) : Router := tgetD d.routers r ⟨.on, 0, 0⟩

/-- The state with a router changed. -/
def State.setRouter (s : State) (d r : Nat) (x : Router) : State := s.modDie d (fun k => { k with routers := tset k.routers r x })

/-- The router of quadrant q at its end of the global link to quadrant p (R361). -/
def gateway (q p : Nat) : Nat := 4 * q + ((p + 6 - q) % 6 + 3) % 4

/-- The routers that a message crosses from one cluster site to another by the minimal route (R361, R364); none where it goes straight down
(R347). (DESIGN CHOICE, log entry 69.) -/
def routeOf (a b : Nat) : List Nat :=
  if a = b then [] else if a / 4 = b / 4 then [a, b] else [a, gateway (a / 4) (b / 4), gateway (b / 4) (a / 4), b].eraseDups

/-- The site above a slice (R346). -/
def sliceSite (n : Nat) : Nat := 3 * n / 8

/-- A flit reaches a router, or its neighbour raises the router's wake line for it (R366): `late` cycles after this one, where routers before it on
the route wake first. A gated one wakes in 40 cycles; a gating one abandons its sequence and stays on. -/
def Router.flit (x : Router) (now late : Nat) : Router :=
  match x.state with
  | .on => { x with last := now }
  | .gating => { x with state := .on, last := now }
  | .gated => { x with state := .waking, till := now + late + 40 }
  | .waking => x

/-- A message crosses the routers of a route (R366): each gated one raises the wake line of the next in its first waking cycle. -/
def State.crossRouters (s : State) (d : Nat) : Nat → List Nat → State
  | _, [] => s
  | late, r :: t =>
    let x := (s.die d).router r
    (s.setRouter d r (x.flit s.cycle late)).crossRouters d (late + if x.state = .gated then 1 else 0) t

/-- A request of a cluster travels to the home slice of a physical address of its own die (R347), and its reply returns. -/
def State.travel (s : State) (k pa : Nat) : State :=
  match s.slicePlace pa with
  | none => s
  | some (d, n) => if k < 96 ∧ k / 24 = d then s.crossRouters d 0 (routeOf (k % 24) (sliceSite n)) else s

/-! ## Accesses performed at the home slice -/

/-- A coherent write of bytes of one line performed at its home slice (R388, R403, R493): every copy goes, the host's halves too, and the L2
takes the bytes. -/
def State.takeHome (s : State) (line : Nat) (m : BitVec 128) : State :=
  (((((s.reach line).hostTake line).backInvalidate line)).l2Fill line).markDirty line m

/-- A coherent write by a unit that is no core. -/
def State.unitStore (s : State) (pa : Nat) (bs : List Byte) : State :=
  (if s.directed pa then s.takeHome (pa / 128) (byteMask (pa % 128) bs.length) else s).writePhys pa bs

/-- Count an access to the ranges of running packets that hold a line (R490): `home` when it reaches the home slice. -/
def rangeTouch (asid va : Nat) (home fill : Bool) (r : RangeCount) : RangeCount :=
  if r.asid = asid ∧ r.base ≤ va / 128 ∧ va / 128 < r.base + r.lines then
    { r with accesses := r.accesses + (if home then 1 else 0), fills := r.fills + if fill then 1 else 0 }
  else r

/-- What a contradicted range reports (R490): kind 1 use, 2 reuse above, 3 reuse below; 0 none. -/
def rangeKind (r : RangeCount) (write : Bool) : Nat :=
  if r.reported then 0
  else if write = true ∧ r.use = 0 then 1
  else if r.accesses < 1024 then 0
  else if 4 * max r.expected 1 * r.fills ≤ r.accesses then 2
  else if 4 * r.accesses ≤ max r.expected 1 * r.fills then 3 else 0

/-- Write a report record to the ring, or count it as dropped (R485, R490). -/
def State.rangeReport (s : State) (r : RangeCount) (kind queue : Nat) : State :=
  let g := s.pkg.regs
  if g.lgrec < 7 then s
  else if (g.rwrite - g.rread).toNat = 2 ^ g.lgrec then
    s.modPkg (fun p => { p with regs := { g with dropped := if g.dropped = BitVec.allOnes 32 then g.dropped else g.dropped + 1 } })
  else
    let w0 := r.base * 128
    let w1 := r.asid * 2 ^ 48 + kind * 2 ^ 44 + r.expected * 2 ^ 40 + r.die * 2 ^ 32 + r.lines
    let w2 := min r.fills (2 ^ 32 - 1) * 2 ^ 32 + min r.accesses (2 ^ 32 - 1)
    let a := g.ringbase + 32 * (g.rwrite.toNat % 2 ^ g.lgrec)
    (s.unitStore a (leBytes 8 w0 ++ leBytes 8 w1 ++ leBytes 8 w2 ++ leBytes 8 queue)).modPkg
      (fun p => { p with regs := { g with rwrite := g.rwrite + 1 } })

/-- Count an access and report the ranges it contradicts (R490): a write contradicts a range of use read wherever it is performed; accesses and
fills count where they reach the home slice. -/
def State.countRange (s : State) (asid va : Nat) (write home fill : Bool) : State :=
  if s.pkg.ranges = [] then s
  else
    let rs := s.pkg.ranges.map (rangeTouch asid va home fill)
    let hit := fun (r : RangeCount) => decide (r.asid = asid ∧ r.base ≤ va / 128 ∧ va / 128 < r.base + r.lines)
    let s := (rs.filter hit).foldl (fun s r =>
      if rangeKind r write = 0 then s
      else s.rangeReport r (rangeKind r write) (r.die * 256 + ((tget (s.die r.die).packets r.packet).map (·.source)).getD 0)) s
    s.modPkg (fun p => { p with ranges := rs.map (fun r => if hit r = true ∧ rangeKind r write ≠ 0 then { r with reported := true } else r) })

/-- A line is absent from its home slice: an access fills it (R490). -/
def State.absent (s : State) (line : Nat) : Bool := (tget s.pkg.dir line).isNone

/-- A read performed at the home slice by a cluster, or by a unit (k = 96), with no copy granted (R273, R288, R354): an owner elsewhere
supplies the line (R352). -/
def State.sliceRead (s : State) (k asid va pa : Nat) : State :=
  if s.directed pa = false then s
  else
    let line := pa / 128
    let s := ((s.travel k pa).reach line).hostShare line
    let s := (s.l2Fill line).countRange asid va false true (s.absent line)
    let e := s.dirOf line
    if (e.state = .e ∨ e.state = .m) ∧ e.owner ≠ k then
      let modified := s.ownerModified e.owner line
      s.modDir line (fun e => { e with state := if modified then .o else .s })
    else s

/-- A unit's read of n bytes of one line, performed at the home slice (R374, R532). -/
def State.unitFetch (s : State) (asid : Nat) (priv : Bool) (part va n : Nat) : Except Cause Nat × State :=
  match s.unitAccess asid priv part va n .read with
  | .error x => (.error x, s)
  | .ok pa => (.ok (s.readPhys pa n), s.sliceRead 96 asid va pa)

/-- A write of bytes of one line performed at the home slice by a cluster, or by a unit (k = 96) (R273, R292, R354). -/
def State.sliceWrite (s : State) (k asid va pa n : Nat) : State :=
  if s.directed pa = false then s
  else ((s.travel k pa).takeHome (pa / 128) (byteMask (pa % 128) n)).countRange asid va true true (s.absent (pa / 128))

/-! ## The L1 -/

/-- Sets of a core's L1 of 16 ways: 512 KiB less the scratchpad of its partition (R271). -/
def State.l1Sets (s : State) (c : Nat) : Nat := (512 - ((s.partOfCluster (coreCluster c)).map (·.2.scratchKiB)).getD 0) / 2

/-- The set of a line in a core's L1: of the address bits that a page of the least size keeps. (DESIGN CHOICE, log entry 22.) -/
def State.l1SetOf (s : State) (c line : Nat) : Nat := line % 512 % s.l1Sets c

/-- A line enters a core's L1 (R271, R273): a free way of its set, else the way of the line chosen for eviction, which is given up; with
H = 11 it is itself next for eviction. A line that held its tag goes first. (DESIGN CHOICE, log entry 22.) -/
def State.l1Insert (s : State) (c : Nat) (x : L1Line) (strm : Bool) : State :=
  let s := ((s.core c).l1.filter (fun y => decide (y.asid = x.asid ∧ y.vline = x.vline))).foldl (fun s y => s.dropOwn c y.pline) s
  let mates := (s.core c).l1.filter (fun y => decide (y.set = x.set))
  let put := fun (s : State) (w : Nat) =>
    s.modCore c (fun k => { k with l1 := if strm then k.l1 ++ [{ x with way := w }] else { x with way := w } :: k.l1 })
  match (upto 0 16).find? (fun w => mates.all (fun y => decide (y.way ≠ w))) with
  | some w => put s w
  | none => match mates.getLast? with
    | none => put s 0
    | some v => put (s.dropOwn c v.pline) v.way

/-- A hit consumes one read of a counted line of a core (R273, R274): at the last it becomes invalid, and nothing is written back. -/
def State.consumeCount (s : State) (c : Nat) (x : L1Line) (n : Nat) : State :=
  if n ≤ 1 then s.dropOwn c x.pline
  else s.modCore c (fun k => { k with l1 := k.l1.map (fun y => if y = x then { y with count := some (n - 1) } else y) })

/-- The lines after a synonym's tag is replaced (R327). -/
def retagLine (asid : Nat) (p : Piece) (l : List L1Line) : List L1Line :=
  l.map (fun y => if y.pline = p.pa / 128 then { y with asid := asid, vline := p.va / 128, attr := p.attr, lg := p.lg } else y)

/-- The tag check of an access hits a line (R271). -/
def tagHits (asid : Nat) (p : Piece) (x : L1Line) : Bool := decide (x.asid = asid ∧ x.vline = p.va / 128 ∧ x.pline = p.pa / 128)

/-- A new line of a core's L1, at no way yet. -/
def State.newLine (s : State) (c asid : Nat) (p : Piece) (dirty : BitVec 128) (count : Option Nat) : L1Line :=
  { asid := asid, vline := p.va / 128, pline := p.pa / 128, attr := p.attr, lg := p.lg, dirty := dirty, count := count,
    set := s.l1SetOf c (p.pa / 128), way := 0 }

/-- A load by a core, or a prefetch, reaches its L1 (R271 to R275): a load's hit consumes a count (R274), a miss fills unless H asks
otherwise, and a fill that finds the line under another tag retags it (R327). (DESIGN CHOICE, log entry 22.) -/
def State.l1Read (s : State) (c asid : Nat) (p : Piece) (h hint : Nat) (pref : Bool) : State :=
  let k := coreCluster c
  let line := p.pa / 128
  if attrType p.attr ≠ 0 then s
  else if s.cacheable p.pa p.attr = false then s.sliceRead k asid p.va p.pa
  else match (s.core c).l1.find? (tagHits asid p) with
    | some x => match x.count with
      | none => s
      | some n => if pref then s else s.consumeCount c x n
    | none =>
      if h = 2 then s.sliceRead k asid p.va p.pa
      else if (s.core c).l1.any (fun x => x.pline = line) then s.modCore c (fun k => { k with l1 := retagLine asid p k.l1 })
      else
        let s := (((s.travel k p.pa).reach line).dirGetS k line).countRange asid p.va false true (s.absent line)
        let left := if pref then hint else hint - 1
        if h = 1 ∧ left = 0 then s.gaveUp k line 0
        else s.l1Insert c (s.newLine c asid p 0 (if h = 1 then some left else none)) (h = 3)

/-- A cluster obtains a line in M for one of its holders (R326, R352): the bytes that copies elsewhere had modified, those of its own cluster
too. -/
def State.obtainM (s : State) (k line : Nat) : BitVec 128 × State :=
  let r := (s.reach line).dirGetM k line
  (r.1 ||| r.2.dirtyIn k line, r.2)

/-- A store by a core reaches its L1, or with H = 10 and no line present the L2 (R273 to R275). (DESIGN CHOICE, log entry 22.) -/
def State.l1Write (s : State) (c asid : Nat) (p : Piece) (h : Nat) : State :=
  let k := coreCluster c
  let line := p.pa / 128
  if attrType p.attr ≠ 0 then s
  else if s.cacheable p.pa p.attr = false ∨ (h = 2 ∧ (s.core c).l1.any (tagHits asid p) = false) then
    s.sliceWrite k asid p.va p.pa p.len
  else
    let e := s.dirOf line
    let own := decide (e.owner = k ∧ (e.state = .e ∨ e.state = .m))
    let r := (if own then s else s.travel k p.pa).obtainM k line
    let held := (r.2.core c).l1.find? (fun x => decide (x.pline = line))
    let t := ((r.2.holders k line).filter (· ≠ c)).foldl (fun s j => s.dropL1 j line) (r.2.dropBuf k line)
    let t := t.countRange asid p.va true (!own) (s.absent line)
    let m := r.1 ||| byteMask (p.pa % 128) p.len
    match held with
    | some _ => t.modCore c (fun x => { x with l1 := (retagLine asid p x.l1).map (fun y =>
        if y.pline = line then { y with dirty := m, count := none } else y) })
    | none => t.l1Insert c (t.newLine c asid p m none) (h = 3)

/-! ## The cluster atomic unit -/

/-- The atomic unit of a cluster takes a line in M, n bytes of which it will modify (R331): from every L1 that holds it, its own cluster's
too; its buffer holds 64 lines, and the one that entered earliest goes. -/
def State.unitLine (s : State) (k asid va pa n : Nat) : State :=
  let line := pa / 128
  let e := s.dirOf line
  let own := decide (e.owner = k ∧ (e.state = .e ∨ e.state = .m))
  let r := (if own then s else s.travel k pa).obtainM k line
  let t := (r.2.dropLine k line).countRange asid va true (!own) (s.absent line)
  let t := match (t.cluster k).atomBuf.drop 63 with
    | [] => t
    | old :: _ => (t.dropBuf k old.1).gaveUp k old.1 old.2
  t.modCluster k (fun x => { x with atomBuf := (line, r.1 ||| byteMask (pa % 128) n) :: x.atomBuf })

end Sys2Proof.Machine
end

