-- ==== Sys2Proof/Machine/Links.lean ====
section
/-!
DEFINITION. The links to the parties outside the package (R498, R518 to R526): ports, flits that leave, and accesses that become outstanding.
-/
namespace Sys2Proof.Machine

/-- The number, as a party, of the memory taps of this package's Churns. -/
def tapParty : Nat := 127

/-- The party that an access to a physical address under page attributes is sent to: a peer package, 126 for the host link, or the memory taps
(R288, R498, R523). -/
def State.outsideParty (s : State) (pa attr : Nat) : Nat :=
  match s.region pa with
  | .peer n => n
  | _ => if attrType attr = 1 then 126 else tapParty

/-- Port i of the package, 0 to 143 (R518, R521). -/
def State.port (s : State) (i : Nat) : Port := tgetD (s.die (i / 36)).ports (i % 36) Port.reset

/-- The state with a port changed. -/
def State.modPort (s : State) (i : Nat) (f : Port → Port) : State :=
  s.modDie (i / 36) (fun d => { d with ports := tmod d.ports (i % 36) Port.reset f })

/-- A port that carries traffic (R521, R527). -/
def Port.inService (p : Port) : Bool := p.enable && p.up && !p.failed

/-- The in-service ports of the trunks that lead to package n (R518, R522). (DESIGN CHOICE, log entry 33.) -/
def State.portsTo (s : State) (n : Nat) : List Nat :=
  let t := (tgetD s.pkg.routes n (false, 0)).2
  (upto 0 144).filter (fun i => t.getLsbD (i / 8) && (s.port i).inService)

/-- A port sends a flit that carries an access (R520). -/
def Port.send (p : Port) (id : Nat) : Port := { p with txSeq := p.txSeq + 1, unacked := p.unacked ++ [(p.txSeq, id)] }

/-- The flit of an access to package n leaves by an in-service port that holds fewer than 512 unacknowledged flits (R520, R522), and waits while
there is none; which one is not architectural, here the lowest. (DESIGN CHOICE, log entry 33.) -/
def State.sendFlit (s : State) (n id : Nat) : State :=
  match (s.portsTo n).find? (fun i => decide ((s.port i).unacked.length < 512)) with
  | none => s.modPkg (fun p => { p with unsent := p.unsent ++ [id] })
  | some i => s.modPort i (fun p => p.send id)

/-- An access to a party outside is outstanding from now on (R498, R523); one to a peer package leaves in a flit. (DESIGN CHOICE, log entry 75.) -/
def State.post (s : State) (o : Outside) : State :=
  let s := s.modPkg (fun k => { k with outside := k.outside ++ [o] })
  if o.package < 126 then s.sendFlit o.package o.id else s

/-- The issuer of a unit's write: no core holds it. -/
def frontWho : Who := ⟨384, 0, 0, 17⟩

/-- A write of bytes of one line by a unit of the launch path or the host link, counted in the ranges (R490): at the home slice, or posted to
the peer whose window the address lies in (R403, R523). -/
def State.unitWrite (s : State) (asid va pa : Nat) (bs : List Byte) : State :=
  match s.region pa with
  | .peer n =>
    let f := s.fresh
    (f.2.modPkg (fun p => { p with posted := p.posted ++ [(pa, bs)] })).post
      { id := f.1, batch := f.1, who := frontWho, lanes := [(0, 0, 0)], pc := 0, step := none, sent := s.cycle, package := n, pa := pa,
        va := BitVec.ofNat 64 va, data := bs, aop := 0, acq := false, packet := 0, work := .store }
  | _ => (s.sliceWrite 96 asid va pa bs.length).writePhys pa bs

end Sys2Proof.Machine
end

