-- ==== Sys2Proof/Machine/Flags.lean ====
section
/-!
DEFINITION. Three-valued predicates, the flags of this hardware: guards (R35), branch conditions (R174), Kleene's logic (R159) and
the relations that compares decide (R108, R116, R155, R156).
-/
namespace Sys2Proof.Machine

/-- T where a condition holds, else F. -/
def Tri.ofBool (b : Bool) : Tri := if b then .t else .f

/-- The predicate a guard code tests and the value it asks for (R35); code 0 asks nothing. -/
def guardOf (g : Nat) : Nat × Tri :=
  if g = 1 then (1, .t) else if g = 2 then (2, .t) else if g = 3 then (3, .t)
  else if g = 4 then (1, .u) else if g = 5 then (1, .f) else if g = 6 then (2, .f) else if g = 7 then (3, .f) else (0, .t)

/-- A guard passes in a lane (R35). -/
def guardPasses (g : Nat) (l : Lane) : Bool := l.pred (guardOf g).1 = (guardOf g).2

/-- A predicate matches K (R174): 0 T, 1 F, 2 U, 3 not F. -/
def kMatch (k : Nat) (x : Tri) : Bool :=
  if k = 0 then x = .t else if k = 1 then x = .f else if k = 2 then x = .u else x ≠ .f

/-- QAND (R159). -/
def triAnd : Tri → Tri → Tri
  | .f, _ => .f
  | _, .f => .f
  | .t, .t => .t
  | _, _ => .u

/-- QOR (R159). -/
def triOr : Tri → Tri → Tri
  | .t, _ => .t
  | _, .t => .t
  | .f, .f => .f
  | _, _ => .u

/-- QNOT (R159). -/
def triNot : Tri → Tri
  | .t => .f
  | .f => .t
  | .u => .u

/-- QXOR (R159). -/
def triXor : Tri → Tri → Tri
  | .u, _ => .u
  | _, .u => .u
  | x, y => Tri.ofBool (x ≠ y)

/-- QDEF (R159). -/
def triDef : Tri → Tri
  | .u => .f
  | _ => .t

/-- QCONS (R159). -/
def triCons : Tri → Tri → Tri
  | .t, .t => .t
  | .f, .f => .f
  | _, _ => .u

/-- The constant of QSET (R160). -/
def triConst (k : Nat) : Tri := if k = 1 then .t else if k = 2 then .u else .f

/-- A predicate from its two bits; 11 reads as U (R72). -/
def Tri.ofBits (n : Nat) : Tri := if n % 4 = 0 then .f else if n % 4 = 1 then .t else .u

/-- The two bits of a predicate (R72). -/
def Tri.bits : Tri → Nat
  | .f => 0
  | .t => 1
  | .u => 2

end Sys2Proof.Machine
end

