-- ==== Sys2Proof/Machine/Num.lean ====
section
/-!
DEFINITION. The number formats and the rounding of file 02 (R76 to R94), exact as R17 asks: a value is a signed integer times
a power of two, and a result that is not such a number is carried with enough bits and a mark that it lies above them.
-/
namespace Sys2Proof.Machine

/-- A floating-point format (R76): total bits, significand bits with the hidden one, exponent bits, bias, and whether it has
no infinity (E4M3). -/
structure Fmt where
  bits : Nat
  p : Nat
  ebits : Nat
  bias : Nat
  noInf : Bool
  deriving DecidableEq, Repr

def fp64 : Fmt := ⟨64, 53, 11, 1023, false⟩
def fp32 : Fmt := ⟨32, 24, 8, 127, false⟩
def fp16 : Fmt := ⟨16, 11, 5, 15, false⟩
def bf16 : Fmt := ⟨16, 8, 8, 127, false⟩
def e5m2 : Fmt := ⟨8, 3, 5, 15, false⟩
def e4m3 : Fmt := ⟨8, 4, 4, 7, true⟩
def a56 : Fmt := ⟨56, 45, 11, 1023, false⟩

/-- What an encoding denotes (R76): NaN, an infinity, or (−1)^neg × m × 2^e. -/
inductive FV where
  | nan
  | inf (neg : Bool)
  | fin (neg : Bool) (m : Nat) (e : Int)
  deriving DecidableEq, Repr

/-- A real to be rounded: NaN, an infinity, or a magnitude in [m × 2^e, (m+1) × 2^e), equal to its lower end exactly when
`sticky` is false. Where sticky is true, m holds at least 34 bits more than the format. -/
inductive XV where
  | nan
  | inf (neg : Bool)
  | val (neg : Bool) (m : Nat) (e : Int) (sticky : Bool)
  deriving DecidableEq, Repr

/-- The exact value as something to round. -/
def FV.toX : FV → XV
  | .nan => .nan
  | .inf n => .inf n
  | .fin n m e => .val n m e false

/-- Number of significant bits. -/
def nbits (n : Nat) : Nat := if n = 0 then 0 else Nat.log2 n + 1

/-- `decode(bits, F)` (R76, R93). -/
def decodeF (F : Fmt) (w : Nat) : FV :=
  let frac := w % 2 ^ (F.p - 1)
  let ex := w / 2 ^ (F.p - 1) % 2 ^ F.ebits
  let neg := w / 2 ^ (F.bits - 1) % 2 = 1
  let top := 2 ^ F.ebits - 1
  if ex = top ∧ F.noInf = false then if frac = 0 then .inf neg else .nan
  else if ex = top ∧ frac = 2 ^ (F.p - 1) - 1 then .nan
  else if ex = 0 then .fin neg frac (1 - (F.bias : Int) - (F.p - 1 : Nat))
  else .fin neg (2 ^ (F.p - 1) + frac) ((ex : Int) - F.bias - (F.p - 1 : Nat))

/-- `qnan(F)`, the canonical NaN (R77). -/
def qnan (F : Fmt) : Nat :=
  if F.noInf then 2 ^ (F.bits - 1) - 1 else (2 ^ F.ebits - 1) * 2 ^ (F.p - 1) + 2 ^ (F.p - 2)

/-- Sign bit of a format. -/
def signBit (F : Fmt) (neg : Bool) : Nat := if neg then 2 ^ (F.bits - 1) else 0

/-- The infinity of a format's sign; ±448 in E4M3 (R94). -/
def infOf (F : Fmt) (neg : Bool) : Nat :=
  signBit F neg + if F.noInf then 2 ^ (F.bits - 1) - 2 else (2 ^ F.ebits - 1) * 2 ^ (F.p - 1)

/-- The largest finite encoding of a format's sign (R76). -/
def maxOf (F : Fmt) (neg : Bool) : Nat :=
  signBit F neg + if F.noInf then 2 ^ (F.bits - 1) - 2 else (2 ^ F.ebits - 1) * 2 ^ (F.p - 1) - 1

/-- m / 2^sh rounded to an integer under a mode of R86 (R89 for stochastic, with g the generator's 32 bits), for a value of
sign neg; the flag says that the value was not an integer. -/
def shiftRound (neg : Bool) (m sh : Nat) (sticky : Bool) (mode g : Nat) : Nat × Bool :=
  let far := nbits m + 64 < sh
  let a := if far then 0 else m / 2 ^ sh
  let rem := if far then 0 else m % 2 ^ sh
  let st := sticky || (far && m != 0)
  let half := if sh = 0 ∨ far = true then 0 else 2 ^ (sh - 1)
  let inexact := rem != 0 || st
  let up :=
    if !inexact then false
    else match mode with
      | 1 => if sh = 0 ∨ far = true then false else half < rem || (rem = half && (st || a % 2 = 1))
      | 2 => false
      | 3 => neg
      | 4 => !neg
      | 5 =>
        let first := if far then 0 else rem * 2 ^ 32 / 2 ^ sh
        let more := st || (!far && rem * 2 ^ 32 % 2 ^ sh != 0)
        g < first || (first = g && more)
      | _ => if sh = 0 ∨ far = true then false else half ≤ rem
  (if up then a + 1 else a, inexact)

/-- The encoding of m × 2^e of a sign, m below 2^p, e at the format's own spacing; overflow goes as R94 says. -/
def packF (F : Fmt) (neg : Bool) (m : Nat) (e : Int) (mode : Nat) : Nat :=
  let emin : Int := 1 - (F.bias : Int) - (F.p - 1 : Nat)
  let m' := if m = 2 ^ F.p then 2 ^ (F.p - 1) else m
  let e' := if m = 2 ^ F.p then e + 1 else e
  if m' = 0 then signBit F neg
  else if m' < 2 ^ (F.p - 1) then signBit F neg + m'
  else
    let ex := (e' - emin + 1).toNat
    let body := ex * 2 ^ (F.p - 1) + (m' - 2 ^ (F.p - 1))
    if body ≤ maxOf F false then signBit F neg + body
    else if F.noInf then maxOf F neg
    else if mode = 2 ∨ (mode = 3 ∧ neg = false) ∨ (mode = 4 ∧ neg = true) then maxOf F neg
    else infOf F neg

/-- `round(x, F, m)` for a floating-point format (R94), m one of 1 to 6; the flag says that a generator advanced (R89). -/
def roundF (F : Fmt) (mode g : Nat) : XV → Nat × Bool
  | .nan => (qnan F, false)
  | .inf n => (infOf F n, false)
  | .val neg m e sticky =>
    let emin : Int := 1 - (F.bias : Int) - (F.p - 1 : Nat)
    let q : Int := max (e + nbits m - F.p) emin
    if m = 0 ∧ sticky = false then (signBit F neg, false)
    else if q ≤ e then
      let d := (e - q).toNat
      if F.p < nbits m + d then (packF F neg (2 ^ F.p) (e + nbits m - F.p) mode, false)
      else (packF F neg (m * 2 ^ d) q mode, false)
    else
      let r := shiftRound neg m (q - e).toNat sticky mode g
      (packF F neg r.1 q mode, r.2 && mode = 5)

/-- A rounding that takes no generator: modes 1 to 4 and 6. -/
def roundN (F : Fmt) (mode : Nat) (x : XV) : Nat := (roundF F mode 0 x).1

/-- `rint`: a real rounded to an integer under a mode (R86), with the generator flag. -/
def rintX (mode g : Nat) (neg : Bool) (m : Nat) (e : Int) (sticky : Bool) : Int × Bool :=
  if 0 ≤ e then
    let v : Int := m * 2 ^ e.toNat
    (if neg then -v else v, false)
  else
    let r := shiftRound neg m (-e).toNat sticky mode g
    (if neg then -(r.1 : Int) else r.1, r.2 && mode = 5)

/-- `sat(x, F)` for a range of integers (R93). -/
def satInt (lo hi x : Int) : Int := if x < lo then lo else if hi < x then hi else x

/-- Conversion to an integer format (R94, R125): NaN gives 0, others round and then saturate. -/
def roundI (lo hi : Int) (mode g : Nat) : FV → Int × Bool
  | .nan => (0, false)
  | .inf n => (if n then lo else hi, false)
  | .fin n m e =>
    if 2048 < e then (if m = 0 then 0 else if n then lo else hi, false)
    else
      let r := rintX mode g n m e false
      (satInt lo hi r.1, r.2)

/-- An integer as an exact value. -/
def intX (x : Int) : XV := .val (decide (x < 0)) x.natAbs 0 false

/-- The bits of an integer in two's complement on n bits (`wrap`, R93). -/
def wrapInt (x : Int) (n : Nat) : Nat := (x % (2 ^ n : Int)).toNat

/-- `sext(x, n)` (R93). -/
def sextN (x n : Nat) : Int := let y := x % 2 ^ n; if y < 2 ^ (n - 1) then y else (y : Int) - 2 ^ n

/-- The exact sum of two values; an exact zero sum takes the sign R114 gives under the mode. -/
def addFV (mode : Nat) : FV → FV → XV
  | .nan, _ => .nan
  | _, .nan => .nan
  | .inf a, .inf b => if a = b then .inf a else .nan
  | .inf a, _ => .inf a
  | _, .inf b => .inf b
  | .fin a m e, .fin b n f =>
    if m = 0 ∧ n = 0 then .val (if a = b then a else decide (mode = 3)) 0 0 false
    else
      let k := min e f
      let x : Int := m * 2 ^ (e - k).toNat
      let y : Int := n * 2 ^ (f - k).toNat
      let s := (if a then -x else x) + (if b then -y else y)
      if s = 0 then .val (decide (mode = 3)) 0 0 false else .val (decide (s < 0)) s.natAbs k false

/-- The exact product (R114). -/
def mulFV : FV → FV → FV
  | .nan, _ => .nan
  | _, .nan => .nan
  | .inf a, .inf b => .inf (a != b)
  | .inf a, .fin b m _ => if m = 0 then .nan else .inf (a != b)
  | .fin b m _, .inf a => if m = 0 then .nan else .inf (a != b)
  | .fin a m e, .fin b n f => .fin (a != b) (m * n) (e + f)

/-- The negated value. -/
def negFV : FV → FV
  | .nan => .nan
  | .inf a => .inf (!a)
  | .fin a m e => .fin (!a) m e

/-- −1, 0 or 1 as the first value is below, equal to (−0 = +0) or above the second; no NaN. -/
def cmpFV : FV → FV → Int
  | .inf a, .inf b => if a = b then 0 else if a then -1 else 1
  | .inf a, _ => if a then -1 else 1
  | _, .inf b => if b then 1 else -1
  | .fin a m e, .fin b n f =>
    let k := min e f
    let x : Int := m * 2 ^ (e - k).toNat
    let y : Int := n * 2 ^ (f - k).toNat
    let x := if a then -x else x
    let y := if b then -y else y
    if x < y then -1 else if x = y then 0 else 1
  | _, _ => 0

/-- A value is NaN. -/
def FV.isNan : FV → Bool
  | .nan => true
  | _ => false

/-- A value is infinite. -/
def FV.isInf : FV → Bool
  | .inf _ => true
  | _ => false

/-- A value is a zero. -/
def FV.isZero : FV → Bool
  | .fin _ m _ => m = 0
  | _ => false

/-- A value's sign. -/
def FV.isNeg : FV → Bool
  | .nan => false
  | .inf a => a
  | .fin a _ _ => a

/-- The quotient n / d × 2^e as a value to round, with at least 320 bits (R17). -/
def quotX (neg : Bool) (n d : Nat) (e : Int) : XV :=
  let k := nbits d + 320 - nbits n
  let q := n * 2 ^ k / d
  .val neg q (e - k) (n * 2 ^ k % d != 0)

/-- The bits of the integer square root, from bit k − 1 down. -/
def isqrtFrom (n : Nat) : Nat → Nat → Nat
  | 0, acc => acc
  | k + 1, acc => let t := acc + 2 ^ k; if t * t ≤ n then isqrtFrom n k t else isqrtFrom n k acc

/-- ⌊√n⌋. -/
def isqrt (n : Nat) : Nat := isqrtFrom n (nbits n / 2 + 1) 0

/-- √(m × 2^e) as a value to round. -/
def sqrtX (m : Nat) (e : Int) : XV :=
  let odd := e % 2 = 1
  let m1 := if odd then 2 * m else m
  let e1 := if odd then e - 1 else e
  let n := m1 * 2 ^ 640
  let r := isqrt n
  .val false r ((e1 - 640) / 2) (r * r != n)

/-- 1/√(m × 2^e), m not 0, as a value to round. -/
def rsqrtX (m : Nat) (e : Int) : XV :=
  let odd := e % 2 = 1
  let m1 := if odd then 2 * m else m
  let e1 := if odd then e - 1 else e
  let k := nbits m1 + 640
  let k := if k % 2 = 1 then k + 1 else k
  let n := 2 ^ k / m1
  let r := isqrt n
  .val false r (-(((k : Int) + e1) / 2)) (r * r * m1 != 2 ^ k)

/-- An integer part and a value, as the floor of the rules: ⌊(−1)^neg m 2^e⌋. -/
def floorV (neg : Bool) (m : Nat) (e : Int) : Int := (rintX 3 0 neg m e false).1

/-! ## Fractions -/

/-- An exact fraction, the denominator above 0; not reduced. -/
structure Frac where
  num : Int
  den : Nat
  deriving DecidableEq, Repr

/-- An integer. -/
def Frac.int (n : Int) : Frac := ⟨n, 1⟩
/-- Sum. -/
def Frac.add (a b : Frac) : Frac := ⟨a.num * b.den + b.num * a.den, a.den * b.den⟩
/-- Negation. -/
def Frac.neg (a : Frac) : Frac := ⟨-a.num, a.den⟩
/-- Difference. -/
def Frac.sub (a b : Frac) : Frac := a.add b.neg
/-- Product. -/
def Frac.mul (a b : Frac) : Frac := ⟨a.num * b.num, a.den * b.den⟩
/-- Quotient by a fraction that is not 0. -/
def Frac.div (a b : Frac) : Frac :=
  ⟨if b.num < 0 then -(a.num * b.den) else a.num * b.den, a.den * b.num.natAbs⟩
/-- Below. -/
def Frac.lt (a b : Frac) : Bool := decide (a.num * b.den < b.num * a.den)
/-- It is 0. -/
def Frac.isZero (a : Frac) : Bool := decide (a.num = 0)
/-- ⌊a⌋. -/
def Frac.floor (a : Frac) : Int := a.num / a.den
/-- A fraction to round; a zero is +0. -/
def Frac.toX (a : Frac) : XV := if a.num = 0 then .val false 0 0 false else quotX (decide (a.num < 0)) a.num.natAbs a.den 0
/-- A finite value as a fraction. -/
def FV.toFrac : FV → Option Frac
  | .fin n m e =>
    let v : Int := if n then -(m : Int) else m
    some (if 0 ≤ e then ⟨v * 2 ^ e.toNat, 1⟩ else ⟨v, 2 ^ (-e).toNat⟩)
  | _ => none

/-! ## The Q4N codebook and block scales -/

/-- The codebook values times 256 (R81). -/
def codebook256 : List Int :=
  [-256, -180, -134, -100, -72, -47, -23, 0, 20, 41, 62, 85, 111, 142, 184, 256]

/-- `codebook(n)` (R81) as an exact value. -/
def codebook (n : Nat) : FV :=
  let k := codebook256.getD n 0
  .fin (decide (k < 0)) k.natAbs (-8)

/-- 2^(e − 127) for an E8M0 scale, or NaN for 0xFF (R79). -/
def decodeE8 (e : Nat) : FV := if e = 255 then .nan else .fin false 1 ((e : Int) - 127)

/-- Round x = num/den among the codebook (R94, R86), clamped to ±1: the code, and whether x lay between two values. The
comparison is exact: x × 256 = 256 num / den lies between neighbours k0 < k1. -/
def roundQ4 (mode g : Nat) (num : Int) (den : Nat) : Nat × Bool :=
  let x := num * 256
  let d : Int := den
  if x ≤ -256 * d then (0, false)
  else if 256 * d ≤ x then (15, false)
  else
    let below := ((upto 0 15).filter (fun i => codebook256.getD i 0 * d ≤ x)).length - 1
    let k0 := codebook256.getD below 0
    let k1 := codebook256.getD (below + 1) 0
    if x = k0 * d then (below, false)
    else
      let lo := x - k0 * d
      let hi := k1 * d - x
      let neg := decide (x < 0)
      let nearer1 := decide (hi < lo)
      let tie := decide (hi = lo)
      let first := ((lo * 2 ^ 32) / ((k1 - k0) * d)).toNat
      let more := decide ((lo * 2 ^ 32) % ((k1 - k0) * d) ≠ 0)
      let firstN := ((hi * 2 ^ 32) / ((k1 - k0) * d)).toNat
      let moreN := decide ((hi * 2 ^ 32) % ((k1 - k0) * d) ≠ 0)
      let up := match mode with
        | 1 => nearer1 || (tie && below % 2 = 1)
        | 2 => neg
        | 3 => false
        | 4 => true
        | 5 => if neg then !(g < firstN || (firstN = g && moreN)) else g < first || (first = g && more)
        | _ => nearer1 || (tie && !neg)
      (if up then below + 1 else below, mode = 5)

/-! ## The generator -/

/-- One step of a lane's xorshift generator (R90). -/
def genStep (s : W64) : W64 :=
  let s := s ^^^ (s <<< 13)
  let s := s ^^^ (s >>> 7)
  s ^^^ (s <<< 17)

/-- The generator of lane l seeded from a 32-bit seed (R90). -/
def genSeed (seed : W32) (l : Nat) : W64 :=
  (upto 0 16).foldl (fun s _ => genStep s) (seed ++ BitVec.ofNat 32 (l + 1))

end Sys2Proof.Machine
end

