-- ==== Sys2Proof/Machine/Operands.lean ====
section
/-!
DEFINITION. Operands: shapes and elements of vector registers (R57 to R64), what each word reads and writes and its pipe class
(R26, R38), immediates, and the fields that a repeat prefix steps (R44).
-/
namespace Sys2Proof.Machine

/-! ## Shapes and elements -/

/-- rows(s) (R57). -/
def Shape.rows : Shape → Nat
  | .p32 => 1
  | .p64 => 2
  | .i32 => 2
  | .i64 => 4

/-- The width of a shape (R57). -/
def Shape.width : Shape → Nat
  | .p32 => 32
  | .p64 => 64
  | .i32 => 32
  | .i64 => 64

/-- An interval shape (R57). -/
def Shape.isIv : Shape → Bool
  | .i32 => true
  | .i64 => true
  | _ => false

/-- The point shape of a width. -/
def pointShape (w : Nat) : Shape := if w = 32 then .p32 else .p64
/-- The interval shape of a width. -/
def ivShape (w : Nat) : Shape := if w = 32 then .i32 else .i64
/-- The floating-point format of a width (R113). -/
def fmtOf (w : Nat) : Fmt := if w = 32 then fp32 else fp64

/-- A register as every word reads it: an unallocated one is P32 zero in every lane (R62), with side bytes 0. (DEDUCED, log entry 85.) -/
def VReg.none (w : Nat) : VReg := { shape := .p32, lanes := List.replicate w 0, side := List.replicate (w / 8) 0 }

/-- A newly allocated register (R61). -/
def VReg.zero (s : Shape) (w : Nat) : VReg :=
  { shape := s, lanes := List.replicate w 0, side := List.replicate (s.rows * (w / 8)) 0 }

/-- Register n of a group as read (R62). -/
def Group.vreg (g : Group) (n : Nat) : VReg := (tget g.regs n).getD (VReg.none g.width)
/-- Its shape as read. -/
def Group.shape (g : Group) (n : Nat) : Shape := (g.vreg n).shape
/-- The bits that a shape keeps of an element: its rows (R58). -/
def Shape.keep (s : Shape) (e : Elem) : Elem := BitVec.ofNat 128 (e.toNat % 2 ^ (32 * s.rows))
/-- `read(v, l)` (R62, R93). -/
def Group.read (g : Group) (n l : Nat) : Elem := (g.shape n).keep ((g.vreg n).lanes.getD l 0)
/-- `read(v, l)` as a number of the point shapes. -/
def Group.readN (g : Group) (n l : Nat) : Nat := (g.read n l).toNat
/-- Join mask jn (R55). -/
def Group.join (g : Group) (n : Nat) : W64 := tgetD g.joins n 0

/-- Granules that a register of a shape occupies (R57). -/
def granules (s : Shape) (w : Nat) : Nat := s.rows * (w / 8)
/-- Granules that a register will hold more once a sleeping word of the group that writes it completes. -/
def Wait.needs (w : Nat) (regs : Tab VReg) (x : Wait) : Nat :=
  granules x.dshape w - (match x.dv.bind (tget regs) with
    | none => 0
    | some v => granules v.shape w)

/-- Granules of a rename map of a group of w lanes, with the destinations that sleeping words will allocate when they complete, each register
once (R68, R69). -/
def usedBy (w : Nat) (waits : List Wait) (regs : Tab VReg) : Nat :=
  (regs.map (fun r => granules r.2.shape w)).sum +
    ((waits.filterMap (·.dv)).eraseDups.map (fun d =>
      (waits.filter (fun x => decide (x.dv = some d))).foldl (fun n x => max n (x.needs w regs)) 0)).sum
/-- Granules in use by a group (R68). -/
def Group.used (g : Group) : Nat := usedBy g.width g.waits g.regs

/-- Row k of an element (R58). -/
def rowOf (e : Elem) (k : Nat) : W32 := (e >>> (32 * k)).setWidth 32
/-- The element with row k replaced. -/
def setRow (e : Elem) (k : Nat) (v : W32) : Elem :=
  (e &&& ~~~((0xFFFFFFFF#128) <<< (32 * k))) ||| (v.setWidth 128 <<< (32 * k))
/-- Bounds of an interval element of a width (R58). -/
def ivLoBits (w : Nat) (e : Elem) : Nat := e.toNat % 2 ^ w
/-- Upper bound. -/
def ivHiBits (w : Nat) (e : Elem) : Nat := e.toNat / 2 ^ w % 2 ^ w
/-- An interval element from its bounds. -/
def ivElem (w lo hi : Nat) : Elem := BitVec.ofNat 128 (lo + hi * 2 ^ w)
/-- A point promoted to [x, x] bit for bit (R63). -/
def promote (w : Nat) (s : Shape) (e : Elem) : Elem := if s.isIv then e else ivElem w (e.toNat % 2 ^ w) (e.toNat % 2 ^ w)
/-- A number as an element. -/
def elemN (n : Nat) : Elem := BitVec.ofNat 128 n

/-- The code of a user cause (R258). -/
def Cause.code : Cause → Nat
  | .illegalOp => 0x01
  | .illegalChain => 0x02
  | .stallShort => 0x03
  | .shape => 0x04
  | .quota => 0x05
  | .emptyInterval => 0x06
  | .invalidInterval => 0x07
  | .misaligned => 0x08
  | .access => 0x09
  | .translation => 0x0A
  | .memUe => 0x0B
  | .atomicScope => 0x0C
  | .barOverrun => 0x0D
  | .queueFault => 0x0E
  | .matFifo => 0x0F
  | .matFormat => 0x10
  | .churnUnderflow => 0x11
  | .churnStore => 0x12
  | .churnKey => 0x13
  | .rastState => 0x14
  | .tid => 0x15
  | .trapInstr => 0x16
  | .priv => 0x17
  | .enqFault => 0x18

/-! ## What a word names -/

/-- What a word names: class, chain bit, stall count, guard, registers read and written, tile written, registers last-read, whether
it is REP, and whether it needs privilege (R41). -/
structure Uses where
  cls : Cls
  chain : Nat
  stall : Nat
  guard : Nat
  reads : List RegName
  writes : List RegName
  tile : Option Nat
  frees : List Nat
  rep : Bool
  priv : Bool
  deriving DecidableEq, Repr

/-- The latency of a class (R29); none when interlocked (R26). -/
def Cls.latency : Cls → Option Nat
  | .a => some 5
  | .a6 => some 6
  | _ => Option.none

def uNone : Uses := ⟨.none, 0, 0, 0, [], [], Option.none, [], false, false⟩
def uX (k : Cls) (c : Nat) (rd wr : List RegName) : Uses := ⟨k, c, 0, 0, rd, wr, Option.none, [], false, false⟩
/-- Registers freed by a last-read flag. -/
def lastRead (flag : Nat) (r : List Nat) : List Nat := if flag = 1 then r else []
/-- The guard as a source (R99). -/
def guardReads (g : Nat) : List RegName := if g = 0 then [] else [.q (guardOf g).1]
def u3 (k : Cls) (f : R3) (rd : Bool) (wr : List Nat) : Uses :=
  { cls := k, chain := f.c, stall := f.s, guard := f.g, reads := [.v f.a, .v f.b] ++ (if rd then [.v f.d] else []),
    writes := wr.map .v, tile := Option.none, frees := lastRead f.l [f.a] ++ lastRead f.m [f.b], rep := false, priv := false }
def uSel (f : R3) : Uses :=
  { cls := .a, chain := f.c, stall := f.s, guard := 0, reads := [.v f.a, .v f.b] ++ guardReads f.g, writes := [.v f.d],
    tile := Option.none, frees := lastRead f.l [f.a] ++ lastRead f.m [f.b], rep := false, priv := false }
def u1 (k : Cls) (f : R1) (wr : List Nat) : Uses :=
  { cls := k, chain := f.c, stall := f.s, guard := f.g, reads := [.v f.a], writes := wr.map .v, tile := Option.none,
    frees := lastRead f.l [f.a], rep := false, priv := false }
def uc (f : RCmp) : Uses :=
  { cls := .a, chain := f.c, stall := f.s, guard := f.g, reads := [.v f.a, .v f.b], writes := [.q f.q], tile := Option.none,
    frees := lastRead f.l [f.a] ++ lastRead f.m [f.b], rep := false, priv := false }
def uc1 (f : RCmp1) : Uses :=
  { cls := .a, chain := f.c, stall := f.s, guard := f.g, reads := [.v f.a], writes := [.q f.q], tile := Option.none,
    frees := lastRead f.l [f.a], rep := false, priv := false }
def uImm (f : RImm) : Uses :=
  { cls := .a, chain := f.c, stall := f.s, guard := 0, reads := [.v f.a], writes := [.v f.d], tile := Option.none,
    frees := lastRead f.l [f.a], rep := false, priv := false }
def uWide (f : RWide) (rd : Bool) : Uses :=
  { cls := .a, chain := f.c, stall := f.s, guard := 0, reads := if rd then [.v f.d] else [], writes := [.v f.d],
    tile := Option.none, frees := [], rep := false, priv := false }
def uq2 (f : RQ2) : Uses :=
  { cls := .a, chain := f.c, stall := f.s, guard := f.g, reads := [.q f.x, .q f.y], writes := [.q f.q], tile := Option.none,
    frees := [], rep := false, priv := false }
def uq1 (f : RQ1) : Uses :=
  { cls := .a, chain := f.c, stall := f.s, guard := f.g, reads := [.q f.x], writes := [.q f.q], tile := Option.none,
    frees := [], rep := false, priv := false }
def uqs (f : RQSet) : Uses :=
  { cls := .a, chain := f.c, stall := f.s, guard := f.g, reads := [], writes := [.q f.q], tile := Option.none,
    frees := [], rep := false, priv := false }
/-- Registers r, r + 1, … modulo 32 (R97). -/
def regRun (r n : Nat) : List Nat := (upto 0 n).map (fun k => (r + k) % 32)
def uRnd (k : Cls) (f : RRnd) (na nd : Nat) : Uses :=
  { cls := k, chain := f.c, stall := f.s, guard := f.g, reads := (regRun f.a na).map .v, writes := (regRun f.d nd).map .v,
    tile := Option.none, frees := lastRead f.l (regRun f.a na), rep := false, priv := false }
def uAtom (f : AAtom) (cas : Bool) : Uses :=
  uX .m f.c ([.v f.a, .v f.b] ++ if cas then [.v f.d] else []) (if f.r = 1 then [.v f.d] else [])
def uTex (c d a na n : Nat) : Uses := uX .x c ((regRun a na).map .v) ((regRun d n).map .v)

/-- What each word names (R38 and the owning chapters); `ch` gives the channels of a texture's entry (R466). -/
def usesOf (ch : Nat → Nat) : Instr → Uses
  | .issueOpportunity _ => uNone
  | .dutyChange _ => uNone
  | .resultWriteback _ _ _ _ => uNone
  | .sleepExpiry _ _ _ _ => uNone
  | .workgroupAdmission _ => uNone
  | .slotReturn _ _ => uNone
  | .preempt _ _ => uNone
  | .contextRestore _ _ => uNone
  | .pushtRowPlaced _ _ => uNone
  | .mmaExecute _ _ _ => uNone
  | .azeroExecute _ _ _ => uNone
  | .smxuExecute _ _ _ => uNone
  | .copyRow _ _ _ => uNone
  | .barwaitBoundExpiry _ _ _ _ => uNone
  | .nbarwaitBoundExpiry _ _ _ _ => uNone
  | .gets _ _ => uNone
  | .getm _ _ => uNone
  | .put _ _ => uNone
  | .promotionDemand _ _ => uNone
  | .forward _ _ => uNone
  | .l2Eviction _ => uNone
  | .tlbWalkFill _ _ _ _ => uNone
  | .tlbInvalidation _ _ _ _ => uNone
  | .clusterAtomic _ => uNone
  | .donationRequest _ => uNone
  | .splitRegisterWrite _ _ _ => uNone
  | .resizeComplete _ _ => uNone
  | .routerIdleGate _ _ => uNone
  | .routerWake _ _ => uNone
  | .routerWakeComplete _ _ => uNone
  | .routerGatingWrite _ _ => uNone
  | .linkFlitRetry _ _ _ => uNone
  | .uncorrectableError _ => uNone
  | .doorbell _ _ _ => uNone
  | .queueDestroy _ _ => uNone
  | .queueDestroyComplete _ _ => uNone
  | .dispatchStep _ => uNone
  | .treeCounterUpdate _ => uNone
  | .churnPassage _ _ => uNone
  | .boardingReadReturn _ _ => uNone
  | .releasePacketEnqueue _ _ => uNone
  | .churnLimitWrite _ _ _ => uNone
  | .rasterTriangle _ => uNone
  | .passSeal _ _ => uNone
  | .tileScan _ => uNone
  | .binTimeout _ _ => uNone
  | .migrationGo _ => uNone
  | .migrationComplete => uNone
  | .biasFlip _ _ => uNone
  | .biasFlipComplete _ => uNone
  | .hostReadShared _ => uNone
  | .hostReadOwned _ => uNone
  | .hostWriteback _ _ => uNone
  | .hostSnoop _ _ => uNone
  | .peerPostedWrite _ _ => uNone
  | .peerRead _ _ => uNone
  | .mmioReadCompletion _ _ _ => uNone
  | .mmioReadTimeout _ => uNone
  | .partitionPowerInterval _ => uNone
  | .powerCapWrite _ _ => uNone
  | .currentDroop _ => uNone
  | .limiterRestore _ => uNone
  | .thermalForecast _ _ => uNone
  | .thermalSensor _ _ _ => uNone
  | .thermalTrip _ => uNone
  | .boot _ => uNone
  | .getVersion => uNone
  | .getCapabilities => uNone
  | .negotiateAlgorithms _ _ => uNone
  | .getDigests => uNone
  | .getCertificate _ _ _ => uNone
  | .challenge _ _ => uNone
  | .getMeasurements _ _ _ => uNone
  | .spdmUnsupported _ => uNone
  | .scrubRead _ _ => uNone
  | .lifetimeCounterUpdate _ _ => uNone
  | .flitReceive _ _ => uNone
  | .flitRefusal _ _ _ => uNone
  | .portRetrain _ _ => uNone
  | .inboundAccess _ => uNone
  | .remoteAtomic _ => uNone
  | .remoteWriteAck _ => uNone
  | .peerReset _ => uNone
  | .registerWrite _ _ => uNone
  | .partitionCreation _ _ => uNone
  | .partitionDestruction _ => uNone
  | .queueEnable _ _ => uNone
  | .routerGatingComplete _ _ => uNone
  | .memoryFillReturn _ => uNone
  | .invalidationAcknowledgement _ _ => uNone
  | .hostMemoryWrite _ _ => uNone
  | .correctedSoftError _ => uNone
  | .iadd f => u3 .a f false [f.d]
  | .isub f => u3 .a f false [f.d]
  | .imul f => u3 .a f false [f.d]
  | .imulh f => u3 .a f false [f.d]
  | .imulhn f => u3 .a f false [f.d]
  | .imad f => u3 .a f true [f.d]
  | .idiv f => u3 .f f false [f.d]
  | .idivn f => u3 .f f false [f.d]
  | .and f => u3 .a f false [f.d]
  | .or f => u3 .a f false [f.d]
  | .xor f => u3 .a f false [f.d]
  | .andn f => u3 .a f false [f.d]
  | .shl f => u3 .a f false [f.d]
  | .shr f => u3 .a f false [f.d]
  | .sar f => u3 .a f false [f.d]
  | .rotr f => u3 .a f false [f.d]
  | .imin f => u3 .a f false [f.d]
  | .imax f => u3 .a f false [f.d]
  | .nmin f => u3 .a f false [f.d]
  | .nmax f => u3 .a f false [f.d]
  | .popc f => u1 .a f [f.d]
  | .clz f => u1 .a f [f.d]
  | .brev f => u1 .a f [f.d]
  | .bfx f => u3 .a f false [f.d]
  | .icmpEq f => uc f
  | .icmpNe f => uc f
  | .icmpLt f => uc f
  | .icmpLe f => uc f
  | .icmpLtn f => uc f
  | .icmpLen f => uc f
  | .icmpTst f => uc f
  | .sel f => uSel f
  | .iaddi f => uImm f
  | .andi f => uImm f
  | .ori f => uImm f
  | .xori f => uImm f
  | .shli f => uImm f
  | .shri f => uImm f
  | .sari f => uImm f
  | .imuli f => uImm f
  | .movi f => uWide f false
  | .movhi f => uWide f true
  | .fadd f => u3 .a f false [f.d]
  | .fsub f => u3 .a f false [f.d]
  | .fmul f => u3 .a f false [f.d]
  | .fma f => u3 .a f true [f.d]
  | .fms f => u3 .a f true [f.d]
  | .fnma f => u3 .a f true [f.d]
  | .fmin f => u3 .a f false [f.d]
  | .fmax f => u3 .a f false [f.d]
  | .fcmpLt f => uc f
  | .fcmpLe f => uc f
  | .fcmpEq f => uc f
  | .fcmpNe f => uc f
  | .fcmpGt f => uc f
  | .fcmpGe f => uc f
  | .fcmpUno f => uc f
  | .fabs f => uRnd .a f 1 1
  | .fneg f => uRnd .a f 1 1
  | .fsqrt f => uRnd .f f 1 1
  | .frcp f => uRnd .f f 1 1
  | .frsq f => uRnd .f f 1 1
  | .fexp2 f => uRnd .f f 1 1
  | .flog2 f => uRnd .f f 1 1
  | .fsin f => uRnd .f f 1 1
  | .fcos f => uRnd .f f 1 1
  | .ffloor f => uRnd .a f 1 1
  | .fceil f => uRnd .a f 1 1
  | .frint f => uRnd .a f 1 1
  | .fclass f => uRnd .a f 1 1
  | .ivlo f => uRnd .a f 1 1
  | .ivhi f => uRnd .a f 1 1
  | .mov f => u1 .a f [f.d]
  | .cvtF64F32 f => uRnd .a f 1 1
  | .cvtF32F64 f => uRnd .a f 1 1
  | .cvtF32I32 f => uRnd .a f 1 1
  | .cvtF32N32 f => uRnd .a f 1 1
  | .cvtI32F32 f => uRnd .a f 1 1
  | .cvtN32F32 f => uRnd .a f 1 1
  | .cvtF64I64 f => uRnd .a f 1 1
  | .cvtI64F64 f => uRnd .a f 1 1
  | .cvtF32F16l f => uRnd .a f 1 1
  | .cvtF32F16h f => uRnd .a f 1 1
  | .cvtF32Bf16l f => uRnd .a f 1 1
  | .cvtF32Bf16h f => uRnd .a f 1 1
  | .cvtPkF16 f => uRnd .a f 2 1
  | .cvtPkBf16 f => uRnd .a f 2 1
  | .cvtPkE4m3 f => uRnd .f f 4 1
  | .cvtPkE5m2 f => uRnd .f f 4 1
  | .cvtUpE4m3 f => uRnd .f f 1 4
  | .cvtUpE5m2 f => uRnd .f f 1 4
  | .cvtPkQ4n f => uRnd .f f 8 1
  | .cvtUpQ4n f => uRnd .f f 1 8
  | .cvtPkI8 f => uRnd .a f 4 1
  | .cvtUpI8 f => uRnd .a f 1 4
  | .cvtI64I32 f => uRnd .a f 1 1
  | .cvtN64N32 f => uRnd .a f 1 1
  | .cvtI32I64 f => uRnd .a f 1 1
  | .sideGet f => uRnd .a f 1 1
  | .sideSet f => { uRnd .a f 1 1 with reads := [.v f.a, .v f.d] }
  | .ivmk f => u3 .a f false [f.d]
  | .ivhull f => u3 .a f false [f.d]
  | .ivmeet f => u3 .a f false [f.d]
  | .ivsqr f => u1 .f f [f.d]
  | .ivmid f => u1 .a f [f.d]
  | .ivrad f => u1 .a f [f.d]
  | .ivsplit f => u1 .a f [f.d, (f.d + 1) % 32]
  | .ivpown f => u3 .f f false [f.d]
  | .clt f => uc f
  | .cle f => uc f
  | .ceq f => uc f
  | .subset f => uc f
  | .contains f => uc f
  | .disjoint f => uc f
  | .zin f => uc1 f
  | .qand f => uq2 f
  | .qor f => uq2 f
  | .qnot f => uq1 f
  | .qxor f => uq2 f
  | .qmov f => uq1 f
  | .qdef f => uq1 f
  | .qcons f => uq2 f
  | .qset f => uqs f
  | .br c q _ _ => uX .c c [.q q] []
  | .call c d _ => uX .c c [] [.v d]
  | .ret c a => uX .c c [.v a] []
  | .jmpr c d a l => uX .c c [.v a] (if l = 1 then [.v d] else [])
  | .splitj c j => uX .c c [] [.j j]
  | .join c j => uX .c c [.j j] []
  | .exit c => uX .c c [] []
  | .yield c => uX .c c [] []
  | .jmaskGet c j d => uX .c c [.j j] [.v d]
  | .jmaskSet c j a => uX .c c [.v a] [.j j]
  | .jmaskAdd c j => uX .c c [.j j] [.j j]
  | .jmaskDel c j => uX .c c [.j j] [.j j]
  | .jmaskClr c j => uX .c c [] [.j j]
  | .shfl f => u3 .a6 f false [f.d]
  | .shflu f => u3 .a6 f false [f.d]
  | .shfld f => u3 .a6 f false [f.d]
  | .shflx f => u3 .a6 f false [f.d]
  | .vote c d q _ g s => { uX .a6 c [.q q] [.v d] with stall := s, guard := g }
  | .gredIadd f => u1 .a6 f [f.d]
  | .gredImin f => u1 .a6 f [f.d]
  | .gredImax f => u1 .a6 f [f.d]
  | .gredNmin f => u1 .a6 f [f.d]
  | .gredNmax f => u1 .a6 f [f.d]
  | .gredAnd f => u1 .a6 f [f.d]
  | .gredOr f => u1 .a6 f [f.d]
  | .gredXor f => u1 .a6 f [f.d]
  | .gredFadd f => u1 .a6 f [f.d]
  | .gredFmin f => u1 .a6 f [f.d]
  | .gredFmax f => u1 .a6 f [f.d]
  | .matchLanes f => u1 .a6 f [f.d]
  | .gfence c _ g s => { uX .m c [] [] with stall := s, guard := g }
  | .qxh f => u1 .a6 f [f.d]
  | .qxv f => u1 .a6 f [f.d]
  | .qxd f => u1 .a6 f [f.d]
  | .ddxc f => u1 .a6 f [f.d]
  | .ddyc f => u1 .a6 f [f.d]
  | .ddxf f => u1 .a6 f [f.d]
  | .ddyf f => u1 .a6 f [f.d]
  | .helpq c d g s => { uX .a6 c [] [.v d] with stall := s, guard := g }
  | .ld f => uX .m f.c [.v f.a] [.v f.d]
  | .st f => uX .m f.c [.v f.a, .v f.d] []
  | .lda f => uX .m f.c [.v f.a] [.v f.d]
  | .stl f => uX .m f.c [.v f.a, .v f.d] []
  | .ldg f => uX .m f.c [.v f.a] [.v f.d]
  | .stg f => uX .m f.c [.v f.a, .v f.d] []
  | .pref c a _ _ _ => uX .m c [.v a] []
  | .lineWb c a _ _ => uX .m c [.v a] []
  | .lineInv c a _ _ => uX .m c [.v a] []
  | .lineWbinv c a _ _ => uX .m c [.v a] []
  | .lineZero c a _ _ => uX .m c [.v a] []
  | .atomAdd f => uAtom f false
  | .atomMin f => uAtom f false
  | .atomMax f => uAtom f false
  | .atomNmin f => uAtom f false
  | .atomNmax f => uAtom f false
  | .atomAnd f => uAtom f false
  | .atomOr f => uAtom f false
  | .atomXor f => uAtom f false
  | .atomXchg f => uAtom f false
  | .atomCas f => uAtom f true
  | .atomFadd f => uAtom f false
  | .atomFmin f => uAtom f false
  | .atomFmax f => uAtom f false
  | .atomIncw f => uAtom f false
  | .atomDecw f => uAtom f false
  | .nop c => uX .none c [] []
  | .trap c _ => uX .c c [] []
  | .eret c => uX .c c [] []
  | .crr c d r => { uX .c c [] [.v d] with priv := decide (0x100 ≤ r) }
  | .crw c a r => { uX .c c [.v a] [] with priv := decide (0x100 ≤ r) }
  | .crset c a r => { uX .c c [.v a] [] with priv := decide (0x100 ≤ r) }
  | .crclr c a r => { uX .c c [.v a] [] with priv := decide (0x100 ≤ r) }
  | .fence c _ => uX .m c [] []
  | .fenceAcq c _ => uX .m c [] []
  | .fenceRel c _ => uX .m c [] []
  | .fenceLayer c => uX .m c [] []
  | .quota c q a b => uX .c c [.v a, .v b] [.q q]
  | .sleep c _ => uX .c c [] []
  | .tlbinvPage c a => { uX .c c [.v a] [] with priv := true }
  | .tlbinvAsid c => { uX .c c [] [] with priv := true }
  | .tlbinvAll c => { uX .c c [] [] with priv := true }
  | .fwcallVersion c d a => { uX .c c [.v a] [.v d] with priv := true }
  | .fwcallTemperature c d a => { uX .c c [.v a] [.v d] with priv := true }
  | .fwcallForecast c d a => { uX .c c [.v a] [.v d] with priv := true }
  | .fwcallCap c d a => { uX .c c [.v a] [.v d] with priv := true }
  | .fwcallCounter c d a => { uX .c c [.v a] [.v d] with priv := true }
  | .fwcallHalfRow c d a => { uX .c c [.v a] [.v d] with priv := true }
  | .fwcallUnlisted c d a _ => { uX .c c [.v a] [.v d] with priv := true }
  | .cacheIfetch c => uX .m c [] []
  | .cacheWb c => uX .m c [] []
  | .cacheWbinv c => uX .m c [] []
  | .rep _ _ _ _ => { uX .c 0 [] [] with rep := true }
  | .aslice c q a b => uX .x c [.v a, .v b] [.q q]
  | .pusht c _ _ _ _ => uX .x c [] []
  | .copy c a b _ => uX .x c [.v a, .v ((a + 1) % 32), .v b] []
  | .tidset c a _ => uX .x c [.v a] []
  | .tidget c a _ => uX .x c [.v a] []
  | .await c q => uX .x c [] [.q q]
  | .qpush c a _ => uX .m c [.v a] []
  | .qpop c d _ => uX .m c [] [.v d]
  | .qtry c d q _ => uX .m c [] [.v d, .q q]
  | .swinit c a b => uX .m c [.v a, .v b] []
  | .swadd c a b => uX .m c [.v a, .v b] []
  | .swwait c a b => uX .m c [.v a, .v b] []
  | .barinit c a b => uX .m c [.v a, .v b] []
  | .barrive c d a b => uX .m c [.v a, .v b] [.v d]
  | .bardrop c d a b => uX .m c [.v a, .v b] [.v d]
  | .barwait c q a b e => uX .m c [.v a, .v b, .v e] [.q q]
  | .nbarrive c d a _ => uX .m c [.v a] [.v d]
  | .nbarriveDrop c d a _ => uX .m c [.v a] [.v d]
  | .nbarwait c q a e _ => uX .m c [.v a, .v e] [.q q]
  | .nbarset c q a b _ => uX .m c [.v a, .v b] [.q q]
  | .acqp c d a _ => uX .m c [.v a] [.v d]
  | .mma f => { uX .x f.c [] [] with tile := some f.a }
  | .azero c a => { uX .x c [] [] with tile := some a }
  | .areadF32 c _ d _ => uX .x c [] [.v d]
  | .areadF64 c _ d _ => uX .x c [] [.v d]
  | .areadI32 c _ d _ => uX .x c [] [.v d]
  | .areadRaw c _ d _ => uX .x c [] [.v d]
  | .awriteF32 c a v _ => { uX .x c [.v v] [] with tile := some a }
  | .awriteF64 c a v _ => { uX .x c [.v v] [] with tile := some a }
  | .awriteI32 c a v _ => { uX .x c [.v v] [] with tile := some a }
  | .awriteRaw c a v _ => { uX .x c [.v v] [] with tile := some a }
  | .smxu c a _ _ _ => { uX .x c [] [] with tile := some a }
  | .smxrM c _ d => uX .x c [] [.v d]
  | .smxrL c _ d => uX .x c [] [.v d]
  | .smxrSt c _ d => uX .x c [] [.v d]
  | .mfence c => uX .x c [] []
  | .mwait c _ => uX .x c [] []
  | .cboard c q a => uX .m c [.v a] [.q q]
  | .cboardr c q a b e => uX .m c [.v a, .v b, .v e] [.q q]
  | .calight c d a => uX .m c [.v a] [.v d]
  | .ccapAdd c d a b => uX .m c [.v a, .v b] [.v d]
  | .ccapSub c d a b => uX .m c [.v a, .v b] [.v d]
  | .ccapMin c d a b => uX .m c [.v a, .v b] [.v d]
  | .ccapMax c d a b => uX .m c [.v a, .v b] [.v d]
  | .ccapAnd c d a b => uX .m c [.v a, .v b] [.v d]
  | .ccapOr c d a b => uX .m c [.v a, .v b] [.v d]
  | .ccapXchg c d a b => uX .m c [.v a, .v b] [.v d]
  | .ccapCas c d a b => uX .m c [.v a, .v b, .v d] [.v d]
  | .ccapDec c d a => uX .m c [.v a] [.v d]
  | .cpeek c d a => uX .m c [.v a] [.v d]
  | .cwait c d a b _ => uX .m c [.v a, .v b] [.v d]
  | .rast c a b e => uX .x c (.v a :: .v e :: (upto 0 9).map (fun k => .v ((b + k) % 32))) []
  | .rseal c a => uX .x c [.v a] []
  | .bpush c _ q a b => uX .x c [.q q, .v a, .v b, .v ((b + 1) % 32), .v ((b + 2) % 32)] []
  | .bpushHit c _ q a b => uX .x c [.q q, .v a, .v b, .v ((b + 1) % 32), .v ((b + 2) % 32)] []
  | .bisect c q a b e => uX .x c [.q q, .v a, .v b, .v e] []
  | .attr c d a b _ => uX .x c [.v a, .v b, .v ((b + 1) % 32), .v ((b + 2) % 32)] [.v d, .v ((d + 1) % 32), .v ((d + 2) % 32)]
  | .tex c d a t => uTex c d a 2 (ch t)
  | .texl c d a t => uTex c d a 3 (ch t)
  | .texg c d a t => uTex c d a 6 (ch t)
  | .bflush c a => uX .x c [.v a] []
  | .bflushAll c => uX .x c [] []
  | .enq c q a b => uX .c c [.v a, .v b] [.q q]
  | .rgrab c d _ => uX .c c [] [.v d]
  | .rgrabSet c a b _ => uX .c c [.v a, .v b] []
  | .sread c d _ => uX .c c [] [.v d]
  | .time c d => uX .c c [] [.v d]
  | .energy c d => uX .c c [] [.v d]
  | .energyQ c d a => uX .c c [.v a] [.v d]

/-! ## The repeat prefix -/

/-- Bits hi..lo of a word. -/
def fieldN (w hi lo : Nat) : Nat := w / 2 ^ lo % 2 ^ (hi + 1 - lo)
/-- The major opcode of a word (R24). -/
def majorOf (w : Nat) : Nat := fieldN w 30 26
/-- The chain bit of a word (R24). -/
def chainBit (w : Nat) : Bool := fieldN w 31 31 = 1
/-- A 3-bit increment as an integer (R43). -/
def incInt (n : Nat) : Int := sextN n 3

/-- The field at [hi..lo] of a word stepped by i × inc, modulo its width (R45). -/
def stepField (w hi lo i inc : Nat) : Nat :=
  let n := hi + 1 - lo
  let f := fieldN w hi lo
  let g := ((f : Int) + i * incInt inc) % (2 ^ n : Int)
  w - f * 2 ^ lo + g.toNat * 2 ^ lo

/-- The fields that a repeat steps in a word of each format, as (hi, lo) of the d, a and b fields, none where the word has no such
field to step (R44). In format X a place is a field only where the sub-op names a register there, and each steps by the increment of its place.
(DEDUCED, log entry 82.) -/
def repFields (w : Nat) : Option (Nat × Nat) × Option (Nat × Nat) × Option (Nat × Nat) :=
  let m := majorOf w
  let sub := fieldN w 25 20
  let fn := fieldN w 2 0
  let dv := some (25, 21)
  let dq := some (23, 21)
  let av := some (20, 16)
  let bv := some (15, 11)
  let xd := some (19, 15)
  let xa := some (14, 10)
  let xb := some (9, 5)
  if m = 0x02 ∨ m = 0x03 ∨ m = 0x09 then (dv, av, bv)
  else if m = 0x0D then (dv, av, bv)
  else if m = 0x04 then (dv, av, if 4 ≤ fn ∧ fn ≤ 6 then none else bv)
  else if m = 0x05 then (if fn = 7 then dv else dq, av, bv)
  else if m = 0x0A ∨ m = 0x0E then (dq, av, bv)
  else if m = 0x0B ∨ m = 0x0C then (dv, av, none)
  else if m = 0x0F then (dq, some (18, 16), some (13, 11))
  else if m = 0x12 ∨ m = 0x13 then (dv, av, bv)
  else if m = 0x06 ∨ m = 0x14 then (dv, av, none)
  else if m = 0x07 ∨ m = 0x08 then (dv, none, none)
  else if m = 0x15 then (dv, av, bv)
  else if m = 0x16 then
    if sub = 0 then (none, xa, xb)
    else if sub = 2 then (xd, xa, none)
    else if sub = 3 ∨ sub = 4 then (none, xa, none) else (none, none, none)
  else if m = 0x17 then
    if sub = 0 then (none, xa, none)
    else if sub = 1 ∨ sub = 2 then (xd, none, none)
    else if 3 ≤ sub ∧ sub ≤ 6 then (none, xa, xb)
    else if sub = 7 ∨ sub = 8 then (xd, xa, xb)
    else if sub = 9 then (none, xa, xb)
    else if sub = 0x0A then (xd, xa, none)
    else if sub = 0x0B then (none, xa, xb)
    else if sub = 0x0C then (none, xa, xb)
    else if sub = 0x0D then (xd, xa, none) else (none, none, none)
  else if m = 0x19 then
    if sub = 0 then (none, xa, none)
    else if sub = 1 then (none, xa, xb)
    else if sub = 2 ∨ sub = 4 then (xd, xa, none)
    else if sub = 3 then (xd, xa, if fieldN w 4 0 = 8 then none else xb)
    else if sub = 5 then (xd, xa, xb) else (none, none, none)
  else if m = 0x1A then
    if sub = 0 then (none, xa, xb)
    else if sub = 1 then (none, xa, none)
    else if sub = 8 then (none, if fieldN w 0 0 = 1 then none else xa, none)
    else if sub = 2 ∨ sub = 3 then (none, xa, xb)
    else if sub = 4 then (xd, xa, xb)
    else if 5 ≤ sub ∧ sub ≤ 7 then (xd, xa, none) else (none, none, none)
  else (none, none, none)

/-- A word that a repeat may not precede: REP, class C, formats B and P (R46). -/
def repForbids (w : Nat) : Bool :=
  let m := majorOf w
  let sub := fieldN w 25 20
  m = 0x01 || m = 0x10 || m = 0x11 || m = 0x1B || (m = 0 && sub != 0 && sub != 7 && sub != 0x0C)

/-- A nonzero increment where there is no field to step (R46). -/
def repBadInc (w incd inca incb : Nat) : Bool :=
  let f := repFields w
  (f.1.isNone && incd != 0) || (f.2.1.isNone && inca != 0) || (f.2.2.isNone && incb != 0)

/-- Step one optional field. -/
def stepOpt (w : Nat) (f : Option (Nat × Nat)) (i inc : Nat) : Nat :=
  match f with
  | none => w
  | some (hi, lo) => stepField w hi lo i inc

/-- w_i (R45). -/
def stepWord (w : Nat) (r : Rep) : Nat :=
  let f := repFields w
  stepOpt (stepOpt (stepOpt w f.1 r.idx r.incd) f.2.1 r.idx r.inca) f.2.2 r.idx r.incb

end Sys2Proof.Machine
end

