-- ==== Sys2Proof/Machine/Front.lean ====
section
/-!
DEFINITION. What the front end keeps of packets and passes while groups run and retire: completion signals, spawn-tree events,
tile references, and the retirement and abort of groups (R234, R261, R401, R404, R455, R456).
-/
namespace Sys2Proof.Machine

/-- A completion signal is written as one 8-byte word (R403), at a peer when the address is in its window (R523); one that its ASID may not write
is counted in telemetry. -/
def State.writeSignal (s : State) (d asid : Nat) (priv : Bool) (part addr value : Nat) : State :=
  if addr = 0 then s
  else match s.unitAccess asid priv part addr 8 .write with
    | .error _ => s.count 1 (sourceOf d 0x200)
    | .ok pa => if s.isBoarded pa then s.count 1 (sourceOf d 0x200) else s.unitWrite asid addr pa (leBytes 8 value)

/-- The signal word: count saturating, cause, status (R403). -/
def signalWord (count cause status : Nat) : Nat := min count (2 ^ 48 - 1) * 65536 + cause % 256 * 256 + status

/-- The status of a packet that is complete: 3 ABORTED, 2 ERROR, 1 DONE (R404). -/
def Packet.status (p : Packet) : Nat := if p.cancelled then 3 else if p.cause.isSome then 2 else 1

/-- Groups of a packet's grid (R401): one for SIGNAL. -/
def Packet.groups (p : Packet) : Nat := if lpKind p.bits = 2 then 1 else lpGrid p.bits * lpGroups p.bits

/-- Queue q of die d (R394). -/
def Queue.reset : Queue :=
  { enable := false, pq := false, enq := false, lgsize := 0, base := 0, read := 0, write := 0, asid := 0, vector := 0,
    error := false, destroying := false, destroy := false, part := 0, tags := [], released := [], serving := none, unserved := 0 }

/-- The queue's record. -/
def Die.queue (d : Die) (q : Nat) : Queue := tgetD d.queues q Queue.reset

/-- The die with a queue changed. -/
def Die.modQueue (d : Die) (q : Nat) (f : Queue → Queue) : Die := { d with queues := tmod d.queues q Queue.reset f }

/-- Write a packet's signal, then raise its interrupt (R404). -/
def State.signalPacket (s : State) (d : Nat) (p : Packet) : State :=
  let s := s.writeSignal d p.asid (lpPriv p.bits) (lpPartition p.bits) (lpSignal p.bits)
    (signalWord p.dispatched ((p.cause.getD 0).toNat) p.status)
  if lpInterrupt p.bits ∧ lpSignal p.bits ≠ 0 then
    s.modPkg (fun k => { k with interrupts := k.interrupts ++ [(d, ((s.die d).queue p.source).vector.toNat)] })
  else s

/-- An event at a tree counter joins the front end's list (R401). -/
def State.treeEvent (s : State) (d : Nat) (slot : Option Nat) (delta : Int) : State :=
  match slot with
  | none => s
  | some k => s.modDie d (fun x => { x with treeUpdates := x.treeUpdates ++ [⟨k, false, delta⟩] })

/-- Remove a packet that has completed, with its counted ranges (R404, R490). -/
def State.dropPacket (s : State) (d n : Nat) : State :=
  (s.modDie d (fun x => { x with packets := tdel x.packets n })).modPkg
    (fun p => { p with ranges := p.ranges.filter (fun r => decide (¬ (r.die = d ∧ r.packet = n))) })

/-- A write outside the package, or an atomic, is outstanding (R526). -/
def OutsideWork.writes : OutsideWork → Bool
  | .store => true
  | .atomic _ _ _ => true
  | _ => false

/-- Writes of a packet's groups at parties outside are still outstanding: its signal, a release at .sys, waits for them (R388). -/
def State.writesLeft (s : State) (d n : Nat) : Bool :=
  s.pkg.outside.any (fun o => o.work.writes && decide (coreDie o.who.core = d ∧ o.packet = n))

/-- A packet whose own grid has ended: every packet but a command writes its signal (R404), after its writes outside (R388); a bin launch has
none (R453). -/
def State.packetDone (s : State) (d n : Nat) : State :=
  match tget (s.die d).packets n with
  | none => s
  | some p =>
    if p.gridDone ∨ p.ended < p.groups then s
    else if p.command then s.modDie d (fun x => { x with packets := tset x.packets n { p with gridDone := true } })
    else if s.writesLeft d n then s
    else if p.source = 256 then s.dropPacket d n
    else (s.signalPacket d p).dropPacket d n

/-- Some packet of a tree still has writes outstanding outside (R388). -/
def State.treeWritesLeft (s : State) (d slot : Nat) : Bool :=
  (s.die d).packets.any (fun p => decide (p.2.tree = some slot) && s.writesLeft d p.1)

/-- A tree's counter has reached zero (R404): its command's signal is written, after the tree's writes outside (R388), and the counter slot
freed. -/
def State.treeDone (s : State) (d slot n : Nat) : State :=
  if s.treeWritesLeft d slot then s
  else
    let s := s.modDie d (fun x => { x with slots := match tget x.slots slot with
      | none => x.slots
      | some y => tset x.slots slot { y with use := .counter, value := 0 } })
    match tget (s.die d).packets n with
    | none => s
    | some p => (s.signalPacket d p).dropPacket d n

/-- A write of a packet outside has been answered: the packet, and its tree whose counter is at zero with no change pending, complete if they
waited for it (R388). -/
def State.writeAnswered (s : State) (d n : Nat) : State :=
  let tree := (tget (s.die d).packets n).bind (·.tree)
  let s := s.packetDone d n
  match tree with
  | none => s
  | some k =>
    if (s.die d).treeUpdates.any (fun u => decide (u.slot = k)) then s
    else match tget (s.die d).slots k with
      | none => s
      | some x => match x.use with
        | .tree c =>
          if x.value = 0 ∧ ((tget (s.die d).packets c).map (·.gridDone)).getD false = true then s.treeDone d k c else s
        | _ => s

/-- Groups of a packet have ended: the packet counts them (R404) and its tree loses them (R401). -/
def State.groupsEnded (s : State) (d n count : Nat) : State :=
  match tget (s.die d).packets n with
  | none => s
  | some p =>
    let s := s.modDie d (fun x => { x with packets := tset x.packets n { p with ended := p.ended + count } })
    (s.treeEvent d p.tree (-(count : Int))).packetDone d n

/-- The first cause that aborts one of a packet's workgroups is kept (R403). -/
def State.packetCause (s : State) (d n : Nat) (cause : Byte) : State :=
  match tget (s.die d).packets n with
  | none => s
  | some p =>
    if p.cause.isSome then s
    else s.modDie d (fun x => { x with packets := tset x.packets n { p with cause := some cause } })

/-! ## Passes and tiles -/

/-- A pass completes when it is sealed and every tile of it is FREE (R456): its signal is written and its slot freed. -/
def State.passComplete (s : State) (d slot : Nat) : State :=
  match tget (s.die d).passes slot with
  | none => s
  | some p =>
    if p.sealed = false ∨ (s.die d).tiles.any (fun t => t.2.pass = slot) = true then s
    else
      let s := s.writeSignal d p.asid p.priv p.part (fieldOf p.desc 0 54 0)
        (signalWord p.records ((p.cause.map Cause.code).getD 0) (if p.dropped then 2 else 1))
      s.modDie d (fun x => { x with passes := tdel x.passes slot })

/-- Release one reference on a tile (R446, R455). -/
def State.releaseTile (s : State) (d entry : Nat) : State :=
  match tget (s.die d).tiles entry with
  | none => s
  | some t =>
    if t.state ≠ .binned ∧ t.state ≠ .scanning then s
    else if 1 < t.refs ∨ t.state = .scanning then s.modDie d (fun x => { x with tiles := tset x.tiles entry { t with refs := t.refs - 1 } })
    else (s.modDie d (fun x => { x with tiles := tdel x.tiles entry })).passComplete d t.pass

/-- The fields of a record (R449). -/
def recKind (r : BitVec 128) : Nat := r.toNat / 2 ^ 16 % 16
/-- The helper bit. -/
def recHelper (r : BitVec 128) : Bool := r.toNat / 2 ^ 20 % 2 = 1
/-- The tile table entry of a raster record. -/
def recTile (r : BitVec 128) : Nat := r.toNat / 2 ^ 32 % 4096

/-- Release the references that a list of records holds (R454, R455). -/
def State.releaseRecords (s : State) (d : Nat) (rs : List (BitVec 128)) : State :=
  rs.foldl (fun s r => if recKind r = 0 ∧ recHelper r = false then s.releaseTile d (recTile r) else s) s

/-! ## Retirement and abort -/

/-- A slice's fault that has not been delivered (R256). -/
def Slice.undelivered (x : Slice) : Option Cause :=
  match x.ended with
  | .faulted c _ false => some c
  | _ => none

/-- Every lane of a group has exited, and it has not retired (R179). -/
def Group.finished (g : Group) : Bool := g.lanes.all (·.exited) && !g.retired

/-- A retired group: its registers are free, its words are gone (R179, R234). -/
def Group.retire (g : Group) : Group :=
  { g with regs := [], pend := [], frees := [], waits := [], failed := [], replay := [], tileFault := none, copyFault := none,
           unfencedRegs := [], unfencedTiles := [], retired := true }

/-- Retire a group: its tile references are released, its packet and tree count it (R179, R234, R401, R455), and an undelivered
slice fault of the workgroup's last group gives the packet its error (R256). -/
def State.retireGroup (s : State) (c w g : Nat) : State :=
  match s.wg c w with
  | none => s
  | some wg => match wg.group g with
    | none => s
    | some gr =>
      if gr.retired then s
      else
        let d := coreDie c
        let s := s.modGroup c w g Group.retire
        let s := s.releaseRecords d (gr.lanes.filterMap (·.record))
        let last := wg.groups.all (fun x => x.retired || x.finished)
        let s := match wg.slice.undelivered with
          | some cause => if last then s.packetCause d wg.packet (BitVec.ofNat 8 cause.code) else s
          | none => s
        s.groupsEnded d wg.packet 1

/-- Retire every group of a workgroup whose lanes have all exited. -/
def State.retireFinished (s : State) (c w : Nat) : State :=
  match s.wg c w with
  | none => s
  | some wg => (upto 0 wg.groups.length).foldl (fun s g =>
      match s.group c w g with
      | some gr => if gr.finished then s.retireGroup c w g else s
      | none => s) s

/-- All lanes of a group gone. -/
def Group.allExited (g : Group) : Group := { g with lanes := g.lanes.map (fun l => { l with exited := true }), joins := [] }

/-- Withdraw the Churn requests of some issuers (R261, R436): promises not claimed give up their hold on the word's entry; a claimed slot
goes on by itself. (DEDUCED, log entry 17.) -/
def State.withdrawChurn (s : State) (d : Nat) (p : Who → Bool) : State :=
  let out := (s.die d).reqs.filter (fun r => match r.who with
    | none => false
    | some x => p x)
  if out = [] then s
  else
    let ids := out.map (·.id)
    (s.modDie d (fun x => { x with reqs := x.reqs.filter (fun r => !ids.contains r.id) })).modPkg
      (fun k => { k with boarded := k.boarded.filter (fun b => b.slot.isSome || !ids.contains b.req) })

/-- A bin that holds no pending record and has no capture at a stop gives up its tail and its template copy (R450, R451). -/
def State.dropIdleTails (s : State) (d : Nat) : State :=
  (s.die d).bins.foldl (fun s b => match b.2.tail with
    | none => s
    | some n =>
      let asked := (s.die d).reqs.any (fun r => match r.work with
        | .bin k _ _ => decide (k = b.1)
        | _ => false)
      if b.2.quads ≠ [] ∨ b.2.singles ≠ [] ∨ asked = true then s
      else s.modDie d (fun x => { x with slots := tdel x.slots n, bins := tset x.bins b.1 { b.2 with tail := none, copy := none } })) s

/-- Seals that words of a workgroup wait for are withdrawn (R261, R263, R459). -/
def State.withdrawSeals (s : State) (core wg : Nat) : State :=
  s.modDie (coreDie core) (fun d => { d with passes := d.passes.map (fun p => match p.2.sealing with
    | none => p
    | some x => if x.1.core = core ∧ x.1.wg = wg then (p.1, { p.2 with sealing := none }) else p) })

/-- Abort a workgroup with a cause (R261): every group ends at its current word and retires, running slice and copies stop. (DEDUCED, log entry 17.) -/
def State.abortWg (s : State) (c w : Nat) (cause : Byte) : State :=
  match s.wg c w with
  | none => s
  | some wg =>
    let s := s.packetCause (coreDie c) wg.packet cause
    let s := s.modWg c w (fun x => { x with
      aborted := some (x.aborted.getD cause), groups := x.groups.map (fun g => if g.retired then g else g.allExited),
      slice := { x.slice with live := false, push := none, wait := none }, copies := [], ops := [] })
    let s := if s.cur.who.core = c ∧ s.cur.who.wg = w then { s with cur := { s.cur with live := false } } else s
    let s := ((s.withdrawChurn (coreDie c) (fun x => decide (x.core = c ∧ x.wg = w))).dropIdleTails (coreDie c)).withdrawSeals c w
    let s := if (s.cluster (coreCluster c)).atomReqs = [] then s
      else s.modCluster (coreCluster c) (fun k => { k with
        atomReqs := k.atomReqs.filter (fun r => decide (¬ (r.who.core = c ∧ r.who.wg = w))) })
    s.retireFinished c w

end Sys2Proof.Machine
end

