-- ==== Sys2Proof/Machine/Tensor.lean ====
section
/-!
DEFINITION. Tensor identifier entries: the view (R205), their fields and formats (R206, R207), where an element lies (R208), when an
entry is well formed (R209), and the texture fields (R465).
-/
namespace Sys2Proof.Machine

/-- The format code of an entry (R206). -/
def tidFormat (e : BitVec 512) : Nat := fieldOf e 0 63 60
/-- Base address. -/
def tidBase (e : BitVec 512) : Nat := fieldOf e 0 54 0
/-- Extent of dimension d. -/
def tidExtent (e : BitVec 512) (d : Nat) : Nat := fieldOf e (1 + d / 2) (32 * (d % 2) + 31) (32 * (d % 2))
/-- Rank: dimensions − 1. -/
def tidRank (e : BitVec 512) : Nat := fieldOf e 3 53 52
/-- T. -/
def tidT (e : BitVec 512) : Bool := fieldOf e 3 48 48 = 1
/-- Stride of dimension d, 1 to 3. -/
def tidStride (e : BitVec 512) (d : Nat) : Nat := fieldOf e (2 + d) 47 0
/-- Scale or code array. -/
def tidScale (e : BitVec 512) : Nat := fieldOf e 6 54 0
/-- Superscale array. -/
def tidSuper (e : BitVec 512) : Nat := fieldOf e 7 54 0

/-- Half-bytes of an element of a format (R207). -/
def fmtHalves (f : Nat) : Nat :=
  if f = 0 ∨ f = 10 then 16 else if f = 1 ∨ f = 7 then 8 else if f = 2 ∨ f = 3 then 4 else if f = 8 then 1 else 2

/-- A matrix operand format (R207). -/
def fmtMatrix (f : Nat) : Bool := f ≤ 6 || f = 8
/-- A block format: E4M3, E5M2, Q4N (R209). -/
def fmtBlock (f : Nat) : Bool := f = 4 || f = 5 || f = 8
/-- Elements of a block (R255). -/
def fmtBlockSize (f : Nat) : Nat := if f = 8 then 64 else 32

/-- An entry is well formed (R209). -/
def tidOk (e : BitVec 512) : Bool :=
  let f := tidFormat e
  let strides := [tidStride e 1, tidStride e 2, tidStride e 3]
  decide (f ≤ 10) &&
  decide (fieldOf e 0 59 55 = 0 ∧ fieldOf e 3 63 54 = 0 ∧ fieldOf e 3 51 49 = 0 ∧ fieldOf e 4 63 48 = 0 ∧ fieldOf e 5 63 48 = 0) &&
  (tidT e || decide (fieldOf e 6 63 55 = 0 ∧ fieldOf e 7 63 55 = 0)) &&
  (upto 1 3).all (fun d => decide (d ≤ tidRank e) || decide (tidExtent e d = 0 ∧ tidStride e d = 0)) &&
  (if fmtBlock f then decide (tidBase e % 32 = 0) && strides.all (fun x => decide (x % 32 = 0)) && decide (tidExtent e 0 % fmtBlockSize f = 0)
   else decide (tidBase e * 2 % fmtHalves f = 0)) &&
  (decide (f ≠ 8) || tidT e || decide (tidSuper e % 4 = 0)) &&
  (!tidT e || decide (f = 1 ∨ f = 2 ∨ f = 9))

/-- Offset of an element from base, in half-bytes (R208). -/
def tidOffset2 (e : BitVec 512) (i0 i1 i2 i3 : Nat) : Nat :=
  i0 * fmtHalves (tidFormat e) + 2 * (i1 * tidStride e 1 + i2 * tidStride e 2 + i3 * tidStride e 3)

/-- Indices i1 to i3 are present: within extent for every dimension up to rank (R255). -/
def tidRowPresent (e : BitVec 512) (i1 i2 i3 : Nat) : Bool :=
  (decide (tidRank e < 1) || decide (i1 < tidExtent e 1)) && (decide (tidRank e < 2) || decide (i2 < tidExtent e 2)) &&
  (decide (tidRank e < 3) || decide (i3 < tidExtent e 3))

/-! ## Texture fields (R465) -/

/-- Filter. -/
def texFilter (e : BitVec 512) : Nat := fieldOf e 6 60 59
/-- Mip levels L. -/
def texLevels (e : BitVec 512) : Nat := fieldOf e 6 58 55 + 1
/-- Address of level 1. -/
def texMip (e : BitVec 512) : Nat := fieldOf e 6 54 0
/-- LOD bias bits. -/
def texBias (e : BitVec 512) : Nat := fieldOf e 7 63 32
/-- Channels c. -/
def texChannels (e : BitVec 512) : Nat := 2 ^ fieldOf e 7 5 4
/-- Axis modes v and u. -/
def texModeV (e : BitVec 512) : Nat := fieldOf e 7 3 2
/-- Axis mode of u. -/
def texModeU (e : BitVec 512) : Nat := fieldOf e 7 1 0

/-- Well formed for sampling (R465). -/
def texOk (e : BitVec 512) : Bool :=
  tidOk e && tidT e && decide (tidRank e = 1) && decide (fieldOf e 6 63 61 = 0 ∧ fieldOf e 7 31 6 = 0) &&
  decide (texFilter e < 3 ∧ fieldOf e 7 5 4 < 3 ∧ texModeV e < 3 ∧ texModeU e < 3) &&
  (decide (texLevels e = 1) || decide (texMip e % 64 = 0))

/-! ## The view -/

/-- Read entry N of the launch table (R205, R532). -/
def State.readTid (s : State) (w : Workgroup) (n : Nat) : Except (Cause × W64) (BitVec 512) :=
  let t := lpTids w.launch
  if t = 0 then .error (.tid, BitVec.ofNat 64 n)
  else match s.unitRead512 w.asid w.priv w.part (t + 64 * n) with
    | .error x => .error (x, BitVec.ofNat 64 (t + 64 * n))
    | .ok e => .ok e

/-- Entry N of a workgroup's view, read from the launch table at its first use (R205): the memory as it then is, also after a store to the table.
(DESIGN CHOICE, log entry 88.) -/
def State.viewEntry (s : State) (w : Workgroup) (n : Nat) : Except (Cause × W64) (BitVec 512) :=
  match tget w.view n with
  | some x => .ok x.bits
  | none => s.readTid w n

/-- The view once entry N has been read. -/
def Workgroup.noteEntry (w : Workgroup) (n : Nat) (e : BitVec 512) : Workgroup :=
  match tget w.view n with
  | some _ => w
  | none => { w with view := tset w.view n ⟨e, false⟩ }

/-- The channels that a TEX word of a workgroup writes (R466); none where the entry cannot be sampled. -/
def State.channels (s : State) (w : Workgroup) (n : Nat) : Nat :=
  match s.viewEntry w n with
  | .error _ => 0
  | .ok e => if texOk e then texChannels e else 0

end Sys2Proof.Machine
end

