-- ==== Sys2Proof/WellFormed.lean ====
section
/-!
DEFINITION. Which instruction terms are encodings (R34, R38, R40): every field fits its bits, and no field holds a value
that R38 or the owning chapter reserves. An event is well formed always: what its data must meet is part of its meaning.
-/
namespace Sys2Proof

/-- The control registers that R245, R246, R87, R91, R92 and R227 map (R244: any other number raises ILLEGAL_OP). -/
abbrev crNamed (r : Nat) : Prop := r < 0x10 ∨ (0x100 ≤ r ∧ r < 0x106)

/-- Every field of `R3` fits its bits (R34). -/
abbrev R3.fits (f : R3) : Prop := f.c < 2 ∧ f.d < 32 ∧ f.a < 32 ∧ f.b < 32 ∧ f.l < 2 ∧ f.m < 2 ∧ f.g < 8 ∧ f.s < 8

/-- Every field of `R1` fits its bits (R34). -/
abbrev R1.fits (f : R1) : Prop := f.c < 2 ∧ f.d < 32 ∧ f.a < 32 ∧ f.l < 2 ∧ f.g < 8 ∧ f.s < 8

/-- Every field of `RCmp` fits its bits (R34). -/
abbrev RCmp.fits (f : RCmp) : Prop := f.c < 2 ∧ f.q < 8 ∧ f.a < 32 ∧ f.b < 32 ∧ f.l < 2 ∧ f.m < 2 ∧ f.g < 8 ∧ f.s < 8

/-- Every field of `RImm` fits its bits (R34). -/
abbrev RImm.fits (f : RImm) : Prop := f.c < 2 ∧ f.d < 32 ∧ f.a < 32 ∧ f.i < 512 ∧ f.l < 2 ∧ f.s < 8

/-- Every field of `RWide` fits its bits (R34). -/
abbrev RWide.fits (f : RWide) : Prop := f.c < 2 ∧ f.d < 32 ∧ f.i < 262144 ∧ f.s < 8

/-- Every field of `RRnd` fits its bits (R34). -/
abbrev RRnd.fits (f : RRnd) : Prop := f.c < 2 ∧ f.d < 32 ∧ f.a < 32 ∧ f.l < 2 ∧ f.g < 8 ∧ f.s < 8 ∧ f.r < 8

/-- Every field of `RCmp1` fits its bits (R34). -/
abbrev RCmp1.fits (f : RCmp1) : Prop := f.c < 2 ∧ f.q < 8 ∧ f.a < 32 ∧ f.l < 2 ∧ f.g < 8 ∧ f.s < 8

/-- Every field of `RQ2` fits its bits (R34). -/
abbrev RQ2.fits (f : RQ2) : Prop := f.c < 2 ∧ f.q < 8 ∧ f.x < 8 ∧ f.y < 8 ∧ f.g < 8 ∧ f.s < 8

/-- Every field of `RQ1` fits its bits (R34). -/
abbrev RQ1.fits (f : RQ1) : Prop := f.c < 2 ∧ f.q < 8 ∧ f.x < 8 ∧ f.g < 8 ∧ f.s < 8

/-- Every field of `RQSet` fits its bits (R34). -/
abbrev RQSet.fits (f : RQSet) : Prop := f.c < 2 ∧ f.q < 8 ∧ f.k < 4 ∧ f.g < 8 ∧ f.s < 8

/-- Every field of `MMem` fits its bits (R34). -/
abbrev MMem.fits (f : MMem) : Prop := f.c < 2 ∧ f.d < 32 ∧ f.a < 32 ∧ f.o < 32 ∧ f.z < 8 ∧ f.s < 8 ∧ f.h < 4

/-- Every field of `MGran` fits its bits (R34). -/
abbrev MGran.fits (f : MGran) : Prop := f.c < 2 ∧ f.d < 32 ∧ f.a < 32 ∧ f.o < 32 ∧ f.s < 8 ∧ f.h < 4

/-- Every field of `AAtom` fits its bits (R34). -/
abbrev AAtom.fits (f : AAtom) : Prop := f.c < 2 ∧ f.d < 32 ∧ f.a < 32 ∧ f.b < 32 ∧ f.s < 8 ∧ f.o < 4 ∧ f.w < 2 ∧ f.r < 2

/-- Every field of `TMma` fits its bits (R34). -/
abbrev TMma.fits (f : TMma) : Prop := f.c < 2 ∧ f.a < 4 ∧ f.f < 8 ∧ f.g < 8 ∧ f.r < 4 ∧ f.s < 2 ∧ f.z < 2

/-- The encoding conditions of each instruction (R40). -/
abbrev Instr.WF : Instr → Prop
  | .iadd f => f.fits
  | .isub f => f.fits
  | .imul f => f.fits
  | .imulh f => f.fits
  | .imulhn f => f.fits
  | .imad f => f.fits
  | .idiv f => f.fits
  | .idivn f => f.fits
  | .and f => f.fits
  | .or f => f.fits
  | .xor f => f.fits
  | .andn f => f.fits
  | .shl f => f.fits
  | .shr f => f.fits
  | .sar f => f.fits
  | .rotr f => f.fits
  | .imin f => f.fits
  | .imax f => f.fits
  | .nmin f => f.fits
  | .nmax f => f.fits
  | .popc f => f.fits
  | .clz f => f.fits
  | .brev f => f.fits
  | .bfx f => f.fits
  | .icmpEq f => f.fits
  | .icmpNe f => f.fits
  | .icmpLt f => f.fits
  | .icmpLe f => f.fits
  | .icmpLtn f => f.fits
  | .icmpLen f => f.fits
  | .icmpTst f => f.fits
  | .sel f => f.fits
  | .iaddi f => f.fits
  | .andi f => f.fits
  | .ori f => f.fits
  | .xori f => f.fits
  | .shli f => f.fits
  | .shri f => f.fits
  | .sari f => f.fits
  | .imuli f => f.fits
  | .movi f => f.fits
  | .movhi f => f.fits
  | .fadd f => f.fits
  | .fsub f => f.fits
  | .fmul f => f.fits
  | .fma f => f.fits
  | .fms f => f.fits
  | .fnma f => f.fits
  | .fmin f => f.fits
  | .fmax f => f.fits
  | .fcmpLt f => f.fits
  | .fcmpLe f => f.fits
  | .fcmpEq f => f.fits
  | .fcmpNe f => f.fits
  | .fcmpGt f => f.fits
  | .fcmpGe f => f.fits
  | .fcmpUno f => f.fits
  | .fabs f => f.fits ∧ f.r < 7
  | .fneg f => f.fits ∧ f.r < 7
  | .fsqrt f => f.fits ∧ f.r < 7
  | .frcp f => f.fits ∧ f.r < 7
  | .frsq f => f.fits ∧ f.r < 7
  | .fexp2 f => f.fits ∧ f.r < 7
  | .flog2 f => f.fits ∧ f.r < 7
  | .fsin f => f.fits ∧ f.r < 7
  | .fcos f => f.fits ∧ f.r < 7
  | .ffloor f => f.fits ∧ f.r < 7
  | .fceil f => f.fits ∧ f.r < 7
  | .frint f => f.fits ∧ f.r < 7
  | .fclass f => f.fits ∧ f.r < 7
  | .ivlo f => f.fits ∧ f.r < 7
  | .ivhi f => f.fits ∧ f.r < 7
  | .mov f => f.fits
  | .cvtF64F32 f => f.fits ∧ f.r < 7
  | .cvtF32F64 f => f.fits ∧ f.r < 7
  | .cvtF32I32 f => f.fits ∧ f.r < 7
  | .cvtF32N32 f => f.fits ∧ f.r < 7
  | .cvtI32F32 f => f.fits ∧ f.r < 7
  | .cvtN32F32 f => f.fits ∧ f.r < 7
  | .cvtF64I64 f => f.fits ∧ f.r < 7
  | .cvtI64F64 f => f.fits ∧ f.r < 7
  | .cvtF32F16l f => f.fits ∧ f.r < 7
  | .cvtF32F16h f => f.fits ∧ f.r < 7
  | .cvtF32Bf16l f => f.fits ∧ f.r < 7
  | .cvtF32Bf16h f => f.fits ∧ f.r < 7
  | .cvtPkF16 f => f.fits ∧ f.r < 7
  | .cvtPkBf16 f => f.fits ∧ f.r < 7
  | .cvtPkE4m3 f => f.fits ∧ f.r < 7
  | .cvtPkE5m2 f => f.fits ∧ f.r < 7
  | .cvtUpE4m3 f => f.fits ∧ f.r < 7
  | .cvtUpE5m2 f => f.fits ∧ f.r < 7
  | .cvtPkQ4n f => f.fits ∧ f.r < 7
  | .cvtUpQ4n f => f.fits ∧ f.r < 7
  | .cvtPkI8 f => f.fits ∧ f.r < 7
  | .cvtUpI8 f => f.fits ∧ f.r < 7
  | .cvtI64I32 f => f.fits ∧ f.r < 7
  | .cvtN64N32 f => f.fits ∧ f.r < 7
  | .cvtI32I64 f => f.fits ∧ f.r < 7
  | .sideGet f => f.fits ∧ f.r < 7
  | .sideSet f => f.fits ∧ f.r < 7
  | .ivmk f => f.fits
  | .ivhull f => f.fits
  | .ivmeet f => f.fits
  | .ivsqr f => f.fits
  | .ivmid f => f.fits
  | .ivrad f => f.fits
  | .ivsplit f => f.fits
  | .ivpown f => f.fits
  | .clt f => f.fits
  | .cle f => f.fits
  | .ceq f => f.fits
  | .subset f => f.fits
  | .contains f => f.fits
  | .disjoint f => f.fits
  | .zin f => f.fits
  | .qand f => f.fits
  | .qor f => f.fits
  | .qnot f => f.fits
  | .qxor f => f.fits
  | .qmov f => f.fits
  | .qdef f => f.fits
  | .qcons f => f.fits
  | .qset f => f.fits ∧ f.k < 3
  | .br c q k o => c < 2 ∧ q < 8 ∧ k < 4 ∧ o < 2097152
  | .call c d o => c < 2 ∧ d < 32 ∧ o < 32768
  | .ret c a => c < 2 ∧ a < 32
  | .jmpr c d a l => c < 2 ∧ d < 32 ∧ a < 32 ∧ l < 2 ∧ (l = 1 ∨ d = 0)
  | .splitj c j => c < 2 ∧ j < 16
  | .join c j => c < 2 ∧ j < 16
  | .exit c => c < 2
  | .yield c => c < 2
  | .jmaskGet c j d => c < 2 ∧ j < 16 ∧ d < 32
  | .jmaskSet c j a => c < 2 ∧ j < 16 ∧ a < 32
  | .jmaskAdd c j => c < 2 ∧ j < 16
  | .jmaskDel c j => c < 2 ∧ j < 16
  | .jmaskClr c j => c < 2 ∧ j < 16
  | .shfl f => f.fits
  | .shflu f => f.fits
  | .shfld f => f.fits
  | .shflx f => f.fits
  | .vote c d q k g s => c < 2 ∧ d < 32 ∧ q < 8 ∧ k < 4 ∧ g < 8 ∧ s < 8
  | .gredIadd f => f.fits
  | .gredImin f => f.fits
  | .gredImax f => f.fits
  | .gredNmin f => f.fits
  | .gredNmax f => f.fits
  | .gredAnd f => f.fits
  | .gredOr f => f.fits
  | .gredXor f => f.fits
  | .gredFadd f => f.fits
  | .gredFmin f => f.fits
  | .gredFmax f => f.fits
  | .matchLanes f => f.fits
  | .gfence c l g s => c < 2 ∧ l < 2 ∧ g < 8 ∧ s < 8
  | .qxh f => f.fits
  | .qxv f => f.fits
  | .qxd f => f.fits
  | .ddxc f => f.fits
  | .ddyc f => f.fits
  | .ddxf f => f.fits
  | .ddyf f => f.fits
  | .helpq c d g s => c < 2 ∧ d < 32 ∧ g < 8 ∧ s < 8
  | .ld f => f.fits ∧ f.s < 6
  | .st f => f.fits ∧ f.s < 6 ∧ f.z ≠ 1 ∧ f.z ≠ 3
  | .lda f => f.fits ∧ f.s < 6
  | .stl f => f.fits ∧ f.s < 6 ∧ f.z ≠ 1 ∧ f.z ≠ 3
  | .ldg f => f.fits ∧ f.s < 6
  | .stg f => f.fits ∧ f.s < 6
  | .pref c a o s h => c < 2 ∧ a < 32 ∧ o < 32 ∧ s < 8 ∧ h < 4 ∧ s < 6
  | .lineWb c a o s => c < 2 ∧ a < 32 ∧ o < 32 ∧ s < 8 ∧ s < 6
  | .lineInv c a o s => c < 2 ∧ a < 32 ∧ o < 32 ∧ s < 8 ∧ s < 6
  | .lineWbinv c a o s => c < 2 ∧ a < 32 ∧ o < 32 ∧ s < 8 ∧ s < 6
  | .lineZero c a o s => c < 2 ∧ a < 32 ∧ o < 32 ∧ s < 8 ∧ s < 6
  | .atomAdd f => f.fits ∧ f.s < 6 ∧ (f.r = 1 ∨ f.d = 0)
  | .atomMin f => f.fits ∧ f.s < 6 ∧ (f.r = 1 ∨ f.d = 0)
  | .atomMax f => f.fits ∧ f.s < 6 ∧ (f.r = 1 ∨ f.d = 0)
  | .atomNmin f => f.fits ∧ f.s < 6 ∧ (f.r = 1 ∨ f.d = 0)
  | .atomNmax f => f.fits ∧ f.s < 6 ∧ (f.r = 1 ∨ f.d = 0)
  | .atomAnd f => f.fits ∧ f.s < 6 ∧ (f.r = 1 ∨ f.d = 0)
  | .atomOr f => f.fits ∧ f.s < 6 ∧ (f.r = 1 ∨ f.d = 0)
  | .atomXor f => f.fits ∧ f.s < 6 ∧ (f.r = 1 ∨ f.d = 0)
  | .atomXchg f => f.fits ∧ f.s < 6 ∧ (f.r = 1 ∨ f.d = 0)
  | .atomCas f => f.fits ∧ f.s < 6
  | .atomFadd f => f.fits ∧ f.s < 6 ∧ (f.r = 1 ∨ f.d = 0)
  | .atomFmin f => f.fits ∧ f.s < 6 ∧ (f.r = 1 ∨ f.d = 0)
  | .atomFmax f => f.fits ∧ f.s < 6 ∧ (f.r = 1 ∨ f.d = 0)
  | .atomIncw f => f.fits ∧ f.s < 6 ∧ (f.r = 1 ∨ f.d = 0)
  | .atomDecw f => f.fits ∧ f.s < 6 ∧ (f.r = 1 ∨ f.d = 0)
  | .nop c => c < 2
  | .trap c k => c < 2 ∧ k < 1024
  | .eret c => c < 2
  | .crr c d r => c < 2 ∧ d < 32 ∧ r < 4096 ∧ crNamed r
  | .crw c a r => c < 2 ∧ a < 32 ∧ r < 4096 ∧ crNamed r
  | .crset c a r => c < 2 ∧ a < 32 ∧ r < 4096 ∧ crNamed r
  | .crclr c a r => c < 2 ∧ a < 32 ∧ r < 4096 ∧ crNamed r
  | .fence c s => c < 2 ∧ s < 8 ∧ s < 6
  | .fenceAcq c s => c < 2 ∧ s < 8 ∧ s < 6
  | .fenceRel c s => c < 2 ∧ s < 8 ∧ s < 6
  | .fenceLayer c => c < 2
  | .quota c q a b => c < 2 ∧ q < 8 ∧ a < 32 ∧ b < 32
  | .sleep c n => c < 2 ∧ n < 65536
  | .tlbinvPage c a => c < 2 ∧ a < 32
  | .tlbinvAsid c => c < 2
  | .tlbinvAll c => c < 2
  | .fwcallVersion c d a => c < 2 ∧ d < 32 ∧ a < 32
  | .fwcallTemperature c d a => c < 2 ∧ d < 32 ∧ a < 32
  | .fwcallForecast c d a => c < 2 ∧ d < 32 ∧ a < 32
  | .fwcallCap c d a => c < 2 ∧ d < 32 ∧ a < 32
  | .fwcallCounter c d a => c < 2 ∧ d < 32 ∧ a < 32
  | .fwcallHalfRow c d a => c < 2 ∧ d < 32 ∧ a < 32
  | .fwcallUnlisted c d a s => c < 2 ∧ d < 32 ∧ a < 32 ∧ s < 256 ∧ 6 ≤ s
  | .cacheIfetch c => c < 2
  | .cacheWb c => c < 2
  | .cacheWbinv c => c < 2
  | .rep n d a b => n < 64 ∧ d < 8 ∧ a < 8 ∧ b < 8
  | .aslice c q a b => c < 2 ∧ q < 8 ∧ a < 32 ∧ b < 32
  | .pusht c f t x n => c < 2 ∧ f < 8 ∧ t < 256 ∧ x < 16 ∧ n < 32 ∧ x < 13
  | .copy c a b m => c < 2 ∧ a < 32 ∧ b < 32 ∧ m < 256
  | .tidset c a i => c < 2 ∧ a < 32 ∧ i < 256
  | .tidget c a i => c < 2 ∧ a < 32 ∧ i < 256
  | .await c q => c < 2 ∧ q < 8
  | .qpush c a n => c < 2 ∧ a < 32 ∧ n < 16
  | .qpop c d n => c < 2 ∧ d < 32 ∧ n < 16
  | .qtry c d q n => c < 2 ∧ d < 32 ∧ q < 8 ∧ n < 16
  | .swinit c a b => c < 2 ∧ a < 32 ∧ b < 32
  | .swadd c a b => c < 2 ∧ a < 32 ∧ b < 32
  | .swwait c a b => c < 2 ∧ a < 32 ∧ b < 32
  | .barinit c a b => c < 2 ∧ a < 32 ∧ b < 32
  | .barrive c d a b => c < 2 ∧ d < 32 ∧ a < 32 ∧ b < 32
  | .bardrop c d a b => c < 2 ∧ d < 32 ∧ a < 32 ∧ b < 32
  | .barwait c q a b e => c < 2 ∧ q < 8 ∧ a < 32 ∧ b < 32 ∧ e < 32
  | .nbarrive c d a k => c < 2 ∧ d < 32 ∧ a < 32 ∧ k < 8
  | .nbarriveDrop c d a k => c < 2 ∧ d < 32 ∧ a < 32 ∧ k < 8
  | .nbarwait c q a e k => c < 2 ∧ q < 8 ∧ a < 32 ∧ e < 32 ∧ k < 8
  | .nbarset c q a b k => c < 2 ∧ q < 8 ∧ a < 32 ∧ b < 32 ∧ k < 8
  | .acqp c d a z => c < 2 ∧ d < 32 ∧ a < 32 ∧ z < 2
  | .mma f => f.fits
  | .azero c a => c < 2 ∧ a < 4
  | .areadF32 c a d k => c < 2 ∧ a < 4 ∧ d < 32 ∧ k < 16
  | .areadF64 c a d k => c < 2 ∧ a < 4 ∧ d < 32 ∧ k < 16
  | .areadI32 c a d k => c < 2 ∧ a < 4 ∧ d < 32 ∧ k < 16
  | .areadRaw c a d k => c < 2 ∧ a < 4 ∧ d < 32 ∧ k < 16
  | .awriteF32 c a v k => c < 2 ∧ a < 4 ∧ v < 32 ∧ k < 16
  | .awriteF64 c a v k => c < 2 ∧ a < 4 ∧ v < 32 ∧ k < 16 ∧ k < 8
  | .awriteI32 c a v k => c < 2 ∧ a < 4 ∧ v < 32 ∧ k < 16
  | .awriteRaw c a v k => c < 2 ∧ a < 4 ∧ v < 32 ∧ k < 16
  | .smxu c a f v p => c < 2 ∧ a < 4 ∧ f < 8 ∧ v < 32 ∧ p < 4
  | .smxrM c a d => c < 2 ∧ a < 4 ∧ d < 32
  | .smxrL c a d => c < 2 ∧ a < 4 ∧ d < 32
  | .smxrSt c a d => c < 2 ∧ a < 4 ∧ d < 32
  | .mfence c => c < 2
  | .mwait c a => c < 2 ∧ a < 4
  | .cboard c q a => c < 2 ∧ q < 8 ∧ a < 32
  | .cboardr c q a b e => c < 2 ∧ q < 8 ∧ a < 32 ∧ b < 32 ∧ e < 32
  | .calight c d a => c < 2 ∧ d < 32 ∧ a < 32
  | .ccapAdd c d a b => c < 2 ∧ d < 32 ∧ a < 32 ∧ b < 32
  | .ccapSub c d a b => c < 2 ∧ d < 32 ∧ a < 32 ∧ b < 32
  | .ccapMin c d a b => c < 2 ∧ d < 32 ∧ a < 32 ∧ b < 32
  | .ccapMax c d a b => c < 2 ∧ d < 32 ∧ a < 32 ∧ b < 32
  | .ccapAnd c d a b => c < 2 ∧ d < 32 ∧ a < 32 ∧ b < 32
  | .ccapOr c d a b => c < 2 ∧ d < 32 ∧ a < 32 ∧ b < 32
  | .ccapXchg c d a b => c < 2 ∧ d < 32 ∧ a < 32 ∧ b < 32
  | .ccapCas c d a b => c < 2 ∧ d < 32 ∧ a < 32 ∧ b < 32
  | .ccapDec c d a => c < 2 ∧ d < 32 ∧ a < 32
  | .cpeek c d a => c < 2 ∧ d < 32 ∧ a < 32
  | .cwait c d a b k => c < 2 ∧ d < 32 ∧ a < 32 ∧ b < 32 ∧ k < 4
  | .rast c a b e => c < 2 ∧ a < 32 ∧ b < 32 ∧ e < 32
  | .rseal c a => c < 2 ∧ a < 32
  | .bpush c k q a b => c < 2 ∧ k < 4 ∧ q < 8 ∧ a < 32 ∧ b < 32
  | .bpushHit c k q a b => c < 2 ∧ k < 4 ∧ q < 8 ∧ a < 32 ∧ b < 32
  | .bisect c q a b e => c < 2 ∧ q < 8 ∧ a < 32 ∧ b < 32 ∧ e < 32
  | .attr c d a b j => c < 2 ∧ d < 32 ∧ a < 32 ∧ b < 32 ∧ j < 16
  | .tex c d a t => c < 2 ∧ d < 32 ∧ a < 32 ∧ t < 256
  | .texl c d a t => c < 2 ∧ d < 32 ∧ a < 32 ∧ t < 256
  | .texg c d a t => c < 2 ∧ d < 32 ∧ a < 32 ∧ t < 256
  | .bflush c a => c < 2 ∧ a < 32
  | .bflushAll c => c < 2
  | .enq c q a b => c < 2 ∧ q < 8 ∧ a < 32 ∧ b < 32
  | .rgrab c d i => c < 2 ∧ d < 32 ∧ i < 16
  | .rgrabSet c a b i => c < 2 ∧ a < 32 ∧ b < 32 ∧ i < 16
  | .sread c d k => c < 2 ∧ d < 32 ∧ k < 32 ∧ k < 23
  | .time c d => c < 2 ∧ d < 32
  | .energy c d => c < 2 ∧ d < 32
  | .energyQ c d a => c < 2 ∧ d < 32 ∧ a < 32
  | .issueOpportunity _ => True
  | .dutyChange _ => True
  | .resultWriteback _ _ _ _ => True
  | .sleepExpiry _ _ _ _ => True
  | .workgroupAdmission _ => True
  | .slotReturn _ _ => True
  | .preempt _ _ => True
  | .contextRestore _ _ => True
  | .pushtRowPlaced _ _ => True
  | .mmaExecute _ _ _ => True
  | .azeroExecute _ _ _ => True
  | .smxuExecute _ _ _ => True
  | .copyRow _ _ _ => True
  | .barwaitBoundExpiry _ _ _ _ => True
  | .nbarwaitBoundExpiry _ _ _ _ => True
  | .gets _ _ => True
  | .getm _ _ => True
  | .put _ _ => True
  | .promotionDemand _ _ => True
  | .forward _ _ => True
  | .l2Eviction _ => True
  | .tlbWalkFill _ _ _ _ => True
  | .tlbInvalidation _ _ _ _ => True
  | .clusterAtomic _ => True
  | .donationRequest _ => True
  | .splitRegisterWrite _ _ _ => True
  | .resizeComplete _ _ => True
  | .routerIdleGate _ _ => True
  | .routerWake _ _ => True
  | .routerWakeComplete _ _ => True
  | .routerGatingWrite _ _ => True
  | .linkFlitRetry _ _ _ => True
  | .uncorrectableError _ => True
  | .doorbell _ _ _ => True
  | .queueDestroy _ _ => True
  | .queueDestroyComplete _ _ => True
  | .dispatchStep _ => True
  | .treeCounterUpdate _ => True
  | .churnPassage _ _ => True
  | .boardingReadReturn _ _ => True
  | .releasePacketEnqueue _ _ => True
  | .churnLimitWrite _ _ _ => True
  | .rasterTriangle _ => True
  | .passSeal _ _ => True
  | .tileScan _ => True
  | .binTimeout _ _ => True
  | .migrationGo _ => True
  | .migrationComplete => True
  | .biasFlip _ _ => True
  | .biasFlipComplete _ => True
  | .hostReadShared _ => True
  | .hostReadOwned _ => True
  | .hostWriteback _ _ => True
  | .hostSnoop _ _ => True
  | .peerPostedWrite _ _ => True
  | .peerRead _ _ => True
  | .mmioReadCompletion _ _ _ => True
  | .mmioReadTimeout _ => True
  | .partitionPowerInterval _ => True
  | .powerCapWrite _ _ => True
  | .currentDroop _ => True
  | .limiterRestore _ => True
  | .thermalForecast _ _ => True
  | .thermalSensor _ _ _ => True
  | .thermalTrip _ => True
  | .boot _ => True
  | .getVersion => True
  | .getCapabilities => True
  | .negotiateAlgorithms _ _ => True
  | .getDigests => True
  | .getCertificate _ _ _ => True
  | .challenge _ _ => True
  | .getMeasurements _ _ _ => True
  | .spdmUnsupported _ => True
  | .scrubRead _ _ => True
  | .lifetimeCounterUpdate _ _ => True
  | .flitReceive _ _ => True
  | .flitRefusal _ _ _ => True
  | .portRetrain _ _ => True
  | .inboundAccess _ => True
  | .remoteAtomic _ => True
  | .remoteWriteAck _ => True
  | .peerReset _ => True
  | .registerWrite _ _ => True
  | .partitionCreation _ _ => True
  | .partitionDestruction _ => True
  | .queueEnable _ _ => True
  | .routerGatingComplete _ _ => True
  | .memoryFillReturn _ => True
  | .invalidationAcknowledgement _ _ => True
  | .hostMemoryWrite _ _ => True
  | .correctedSoftError _ => True

/-- Whether a term is an encoding, as a Bool. -/
def Instr.wf (i : Instr) : Bool :=
  match i with
  | .iadd f => decide (Instr.WF (.iadd f))
  | .isub f => decide (Instr.WF (.isub f))
  | .imul f => decide (Instr.WF (.imul f))
  | .imulh f => decide (Instr.WF (.imulh f))
  | .imulhn f => decide (Instr.WF (.imulhn f))
  | .imad f => decide (Instr.WF (.imad f))
  | .idiv f => decide (Instr.WF (.idiv f))
  | .idivn f => decide (Instr.WF (.idivn f))
  | .and f => decide (Instr.WF (.and f))
  | .or f => decide (Instr.WF (.or f))
  | .xor f => decide (Instr.WF (.xor f))
  | .andn f => decide (Instr.WF (.andn f))
  | .shl f => decide (Instr.WF (.shl f))
  | .shr f => decide (Instr.WF (.shr f))
  | .sar f => decide (Instr.WF (.sar f))
  | .rotr f => decide (Instr.WF (.rotr f))
  | .imin f => decide (Instr.WF (.imin f))
  | .imax f => decide (Instr.WF (.imax f))
  | .nmin f => decide (Instr.WF (.nmin f))
  | .nmax f => decide (Instr.WF (.nmax f))
  | .popc f => decide (Instr.WF (.popc f))
  | .clz f => decide (Instr.WF (.clz f))
  | .brev f => decide (Instr.WF (.brev f))
  | .bfx f => decide (Instr.WF (.bfx f))
  | .icmpEq f => decide (Instr.WF (.icmpEq f))
  | .icmpNe f => decide (Instr.WF (.icmpNe f))
  | .icmpLt f => decide (Instr.WF (.icmpLt f))
  | .icmpLe f => decide (Instr.WF (.icmpLe f))
  | .icmpLtn f => decide (Instr.WF (.icmpLtn f))
  | .icmpLen f => decide (Instr.WF (.icmpLen f))
  | .icmpTst f => decide (Instr.WF (.icmpTst f))
  | .sel f => decide (Instr.WF (.sel f))
  | .iaddi f => decide (Instr.WF (.iaddi f))
  | .andi f => decide (Instr.WF (.andi f))
  | .ori f => decide (Instr.WF (.ori f))
  | .xori f => decide (Instr.WF (.xori f))
  | .shli f => decide (Instr.WF (.shli f))
  | .shri f => decide (Instr.WF (.shri f))
  | .sari f => decide (Instr.WF (.sari f))
  | .imuli f => decide (Instr.WF (.imuli f))
  | .movi f => decide (Instr.WF (.movi f))
  | .movhi f => decide (Instr.WF (.movhi f))
  | .fadd f => decide (Instr.WF (.fadd f))
  | .fsub f => decide (Instr.WF (.fsub f))
  | .fmul f => decide (Instr.WF (.fmul f))
  | .fma f => decide (Instr.WF (.fma f))
  | .fms f => decide (Instr.WF (.fms f))
  | .fnma f => decide (Instr.WF (.fnma f))
  | .fmin f => decide (Instr.WF (.fmin f))
  | .fmax f => decide (Instr.WF (.fmax f))
  | .fcmpLt f => decide (Instr.WF (.fcmpLt f))
  | .fcmpLe f => decide (Instr.WF (.fcmpLe f))
  | .fcmpEq f => decide (Instr.WF (.fcmpEq f))
  | .fcmpNe f => decide (Instr.WF (.fcmpNe f))
  | .fcmpGt f => decide (Instr.WF (.fcmpGt f))
  | .fcmpGe f => decide (Instr.WF (.fcmpGe f))
  | .fcmpUno f => decide (Instr.WF (.fcmpUno f))
  | .fabs f => decide (Instr.WF (.fabs f))
  | .fneg f => decide (Instr.WF (.fneg f))
  | .fsqrt f => decide (Instr.WF (.fsqrt f))
  | .frcp f => decide (Instr.WF (.frcp f))
  | .frsq f => decide (Instr.WF (.frsq f))
  | .fexp2 f => decide (Instr.WF (.fexp2 f))
  | .flog2 f => decide (Instr.WF (.flog2 f))
  | .fsin f => decide (Instr.WF (.fsin f))
  | .fcos f => decide (Instr.WF (.fcos f))
  | .ffloor f => decide (Instr.WF (.ffloor f))
  | .fceil f => decide (Instr.WF (.fceil f))
  | .frint f => decide (Instr.WF (.frint f))
  | .fclass f => decide (Instr.WF (.fclass f))
  | .ivlo f => decide (Instr.WF (.ivlo f))
  | .ivhi f => decide (Instr.WF (.ivhi f))
  | .mov f => decide (Instr.WF (.mov f))
  | .cvtF64F32 f => decide (Instr.WF (.cvtF64F32 f))
  | .cvtF32F64 f => decide (Instr.WF (.cvtF32F64 f))
  | .cvtF32I32 f => decide (Instr.WF (.cvtF32I32 f))
  | .cvtF32N32 f => decide (Instr.WF (.cvtF32N32 f))
  | .cvtI32F32 f => decide (Instr.WF (.cvtI32F32 f))
  | .cvtN32F32 f => decide (Instr.WF (.cvtN32F32 f))
  | .cvtF64I64 f => decide (Instr.WF (.cvtF64I64 f))
  | .cvtI64F64 f => decide (Instr.WF (.cvtI64F64 f))
  | .cvtF32F16l f => decide (Instr.WF (.cvtF32F16l f))
  | .cvtF32F16h f => decide (Instr.WF (.cvtF32F16h f))
  | .cvtF32Bf16l f => decide (Instr.WF (.cvtF32Bf16l f))
  | .cvtF32Bf16h f => decide (Instr.WF (.cvtF32Bf16h f))
  | .cvtPkF16 f => decide (Instr.WF (.cvtPkF16 f))
  | .cvtPkBf16 f => decide (Instr.WF (.cvtPkBf16 f))
  | .cvtPkE4m3 f => decide (Instr.WF (.cvtPkE4m3 f))
  | .cvtPkE5m2 f => decide (Instr.WF (.cvtPkE5m2 f))
  | .cvtUpE4m3 f => decide (Instr.WF (.cvtUpE4m3 f))
  | .cvtUpE5m2 f => decide (Instr.WF (.cvtUpE5m2 f))
  | .cvtPkQ4n f => decide (Instr.WF (.cvtPkQ4n f))
  | .cvtUpQ4n f => decide (Instr.WF (.cvtUpQ4n f))
  | .cvtPkI8 f => decide (Instr.WF (.cvtPkI8 f))
  | .cvtUpI8 f => decide (Instr.WF (.cvtUpI8 f))
  | .cvtI64I32 f => decide (Instr.WF (.cvtI64I32 f))
  | .cvtN64N32 f => decide (Instr.WF (.cvtN64N32 f))
  | .cvtI32I64 f => decide (Instr.WF (.cvtI32I64 f))
  | .sideGet f => decide (Instr.WF (.sideGet f))
  | .sideSet f => decide (Instr.WF (.sideSet f))
  | .ivmk f => decide (Instr.WF (.ivmk f))
  | .ivhull f => decide (Instr.WF (.ivhull f))
  | .ivmeet f => decide (Instr.WF (.ivmeet f))
  | .ivsqr f => decide (Instr.WF (.ivsqr f))
  | .ivmid f => decide (Instr.WF (.ivmid f))
  | .ivrad f => decide (Instr.WF (.ivrad f))
  | .ivsplit f => decide (Instr.WF (.ivsplit f))
  | .ivpown f => decide (Instr.WF (.ivpown f))
  | .clt f => decide (Instr.WF (.clt f))
  | .cle f => decide (Instr.WF (.cle f))
  | .ceq f => decide (Instr.WF (.ceq f))
  | .subset f => decide (Instr.WF (.subset f))
  | .contains f => decide (Instr.WF (.contains f))
  | .disjoint f => decide (Instr.WF (.disjoint f))
  | .zin f => decide (Instr.WF (.zin f))
  | .qand f => decide (Instr.WF (.qand f))
  | .qor f => decide (Instr.WF (.qor f))
  | .qnot f => decide (Instr.WF (.qnot f))
  | .qxor f => decide (Instr.WF (.qxor f))
  | .qmov f => decide (Instr.WF (.qmov f))
  | .qdef f => decide (Instr.WF (.qdef f))
  | .qcons f => decide (Instr.WF (.qcons f))
  | .qset f => decide (Instr.WF (.qset f))
  | .br c q k o => decide (Instr.WF (.br c q k o))
  | .call c d o => decide (Instr.WF (.call c d o))
  | .ret c a => decide (Instr.WF (.ret c a))
  | .jmpr c d a l => decide (Instr.WF (.jmpr c d a l))
  | .splitj c j => decide (Instr.WF (.splitj c j))
  | .join c j => decide (Instr.WF (.join c j))
  | .exit c => decide (Instr.WF (.exit c))
  | .yield c => decide (Instr.WF (.yield c))
  | .jmaskGet c j d => decide (Instr.WF (.jmaskGet c j d))
  | .jmaskSet c j a => decide (Instr.WF (.jmaskSet c j a))
  | .jmaskAdd c j => decide (Instr.WF (.jmaskAdd c j))
  | .jmaskDel c j => decide (Instr.WF (.jmaskDel c j))
  | .jmaskClr c j => decide (Instr.WF (.jmaskClr c j))
  | .shfl f => decide (Instr.WF (.shfl f))
  | .shflu f => decide (Instr.WF (.shflu f))
  | .shfld f => decide (Instr.WF (.shfld f))
  | .shflx f => decide (Instr.WF (.shflx f))
  | .vote c d q k g s => decide (Instr.WF (.vote c d q k g s))
  | .gredIadd f => decide (Instr.WF (.gredIadd f))
  | .gredImin f => decide (Instr.WF (.gredImin f))
  | .gredImax f => decide (Instr.WF (.gredImax f))
  | .gredNmin f => decide (Instr.WF (.gredNmin f))
  | .gredNmax f => decide (Instr.WF (.gredNmax f))
  | .gredAnd f => decide (Instr.WF (.gredAnd f))
  | .gredOr f => decide (Instr.WF (.gredOr f))
  | .gredXor f => decide (Instr.WF (.gredXor f))
  | .gredFadd f => decide (Instr.WF (.gredFadd f))
  | .gredFmin f => decide (Instr.WF (.gredFmin f))
  | .gredFmax f => decide (Instr.WF (.gredFmax f))
  | .matchLanes f => decide (Instr.WF (.matchLanes f))
  | .gfence c l g s => decide (Instr.WF (.gfence c l g s))
  | .qxh f => decide (Instr.WF (.qxh f))
  | .qxv f => decide (Instr.WF (.qxv f))
  | .qxd f => decide (Instr.WF (.qxd f))
  | .ddxc f => decide (Instr.WF (.ddxc f))
  | .ddyc f => decide (Instr.WF (.ddyc f))
  | .ddxf f => decide (Instr.WF (.ddxf f))
  | .ddyf f => decide (Instr.WF (.ddyf f))
  | .helpq c d g s => decide (Instr.WF (.helpq c d g s))
  | .ld f => decide (Instr.WF (.ld f))
  | .st f => decide (Instr.WF (.st f))
  | .lda f => decide (Instr.WF (.lda f))
  | .stl f => decide (Instr.WF (.stl f))
  | .ldg f => decide (Instr.WF (.ldg f))
  | .stg f => decide (Instr.WF (.stg f))
  | .pref c a o s h => decide (Instr.WF (.pref c a o s h))
  | .lineWb c a o s => decide (Instr.WF (.lineWb c a o s))
  | .lineInv c a o s => decide (Instr.WF (.lineInv c a o s))
  | .lineWbinv c a o s => decide (Instr.WF (.lineWbinv c a o s))
  | .lineZero c a o s => decide (Instr.WF (.lineZero c a o s))
  | .atomAdd f => decide (Instr.WF (.atomAdd f))
  | .atomMin f => decide (Instr.WF (.atomMin f))
  | .atomMax f => decide (Instr.WF (.atomMax f))
  | .atomNmin f => decide (Instr.WF (.atomNmin f))
  | .atomNmax f => decide (Instr.WF (.atomNmax f))
  | .atomAnd f => decide (Instr.WF (.atomAnd f))
  | .atomOr f => decide (Instr.WF (.atomOr f))
  | .atomXor f => decide (Instr.WF (.atomXor f))
  | .atomXchg f => decide (Instr.WF (.atomXchg f))
  | .atomCas f => decide (Instr.WF (.atomCas f))
  | .atomFadd f => decide (Instr.WF (.atomFadd f))
  | .atomFmin f => decide (Instr.WF (.atomFmin f))
  | .atomFmax f => decide (Instr.WF (.atomFmax f))
  | .atomIncw f => decide (Instr.WF (.atomIncw f))
  | .atomDecw f => decide (Instr.WF (.atomDecw f))
  | .nop c => decide (Instr.WF (.nop c))
  | .trap c k => decide (Instr.WF (.trap c k))
  | .eret c => decide (Instr.WF (.eret c))
  | .crr c d r => decide (Instr.WF (.crr c d r))
  | .crw c a r => decide (Instr.WF (.crw c a r))
  | .crset c a r => decide (Instr.WF (.crset c a r))
  | .crclr c a r => decide (Instr.WF (.crclr c a r))
  | .fence c s => decide (Instr.WF (.fence c s))
  | .fenceAcq c s => decide (Instr.WF (.fenceAcq c s))
  | .fenceRel c s => decide (Instr.WF (.fenceRel c s))
  | .fenceLayer c => decide (Instr.WF (.fenceLayer c))
  | .quota c q a b => decide (Instr.WF (.quota c q a b))
  | .sleep c n => decide (Instr.WF (.sleep c n))
  | .tlbinvPage c a => decide (Instr.WF (.tlbinvPage c a))
  | .tlbinvAsid c => decide (Instr.WF (.tlbinvAsid c))
  | .tlbinvAll c => decide (Instr.WF (.tlbinvAll c))
  | .fwcallVersion c d a => decide (Instr.WF (.fwcallVersion c d a))
  | .fwcallTemperature c d a => decide (Instr.WF (.fwcallTemperature c d a))
  | .fwcallForecast c d a => decide (Instr.WF (.fwcallForecast c d a))
  | .fwcallCap c d a => decide (Instr.WF (.fwcallCap c d a))
  | .fwcallCounter c d a => decide (Instr.WF (.fwcallCounter c d a))
  | .fwcallHalfRow c d a => decide (Instr.WF (.fwcallHalfRow c d a))
  | .fwcallUnlisted c d a s => decide (Instr.WF (.fwcallUnlisted c d a s))
  | .cacheIfetch c => decide (Instr.WF (.cacheIfetch c))
  | .cacheWb c => decide (Instr.WF (.cacheWb c))
  | .cacheWbinv c => decide (Instr.WF (.cacheWbinv c))
  | .rep n d a b => decide (Instr.WF (.rep n d a b))
  | .aslice c q a b => decide (Instr.WF (.aslice c q a b))
  | .pusht c f t x n => decide (Instr.WF (.pusht c f t x n))
  | .copy c a b m => decide (Instr.WF (.copy c a b m))
  | .tidset c a i => decide (Instr.WF (.tidset c a i))
  | .tidget c a i => decide (Instr.WF (.tidget c a i))
  | .await c q => decide (Instr.WF (.await c q))
  | .qpush c a n => decide (Instr.WF (.qpush c a n))
  | .qpop c d n => decide (Instr.WF (.qpop c d n))
  | .qtry c d q n => decide (Instr.WF (.qtry c d q n))
  | .swinit c a b => decide (Instr.WF (.swinit c a b))
  | .swadd c a b => decide (Instr.WF (.swadd c a b))
  | .swwait c a b => decide (Instr.WF (.swwait c a b))
  | .barinit c a b => decide (Instr.WF (.barinit c a b))
  | .barrive c d a b => decide (Instr.WF (.barrive c d a b))
  | .bardrop c d a b => decide (Instr.WF (.bardrop c d a b))
  | .barwait c q a b e => decide (Instr.WF (.barwait c q a b e))
  | .nbarrive c d a k => decide (Instr.WF (.nbarrive c d a k))
  | .nbarriveDrop c d a k => decide (Instr.WF (.nbarriveDrop c d a k))
  | .nbarwait c q a e k => decide (Instr.WF (.nbarwait c q a e k))
  | .nbarset c q a b k => decide (Instr.WF (.nbarset c q a b k))
  | .acqp c d a z => decide (Instr.WF (.acqp c d a z))
  | .mma f => decide (Instr.WF (.mma f))
  | .azero c a => decide (Instr.WF (.azero c a))
  | .areadF32 c a d k => decide (Instr.WF (.areadF32 c a d k))
  | .areadF64 c a d k => decide (Instr.WF (.areadF64 c a d k))
  | .areadI32 c a d k => decide (Instr.WF (.areadI32 c a d k))
  | .areadRaw c a d k => decide (Instr.WF (.areadRaw c a d k))
  | .awriteF32 c a v k => decide (Instr.WF (.awriteF32 c a v k))
  | .awriteF64 c a v k => decide (Instr.WF (.awriteF64 c a v k))
  | .awriteI32 c a v k => decide (Instr.WF (.awriteI32 c a v k))
  | .awriteRaw c a v k => decide (Instr.WF (.awriteRaw c a v k))
  | .smxu c a f v p => decide (Instr.WF (.smxu c a f v p))
  | .smxrM c a d => decide (Instr.WF (.smxrM c a d))
  | .smxrL c a d => decide (Instr.WF (.smxrL c a d))
  | .smxrSt c a d => decide (Instr.WF (.smxrSt c a d))
  | .mfence c => decide (Instr.WF (.mfence c))
  | .mwait c a => decide (Instr.WF (.mwait c a))
  | .cboard c q a => decide (Instr.WF (.cboard c q a))
  | .cboardr c q a b e => decide (Instr.WF (.cboardr c q a b e))
  | .calight c d a => decide (Instr.WF (.calight c d a))
  | .ccapAdd c d a b => decide (Instr.WF (.ccapAdd c d a b))
  | .ccapSub c d a b => decide (Instr.WF (.ccapSub c d a b))
  | .ccapMin c d a b => decide (Instr.WF (.ccapMin c d a b))
  | .ccapMax c d a b => decide (Instr.WF (.ccapMax c d a b))
  | .ccapAnd c d a b => decide (Instr.WF (.ccapAnd c d a b))
  | .ccapOr c d a b => decide (Instr.WF (.ccapOr c d a b))
  | .ccapXchg c d a b => decide (Instr.WF (.ccapXchg c d a b))
  | .ccapCas c d a b => decide (Instr.WF (.ccapCas c d a b))
  | .ccapDec c d a => decide (Instr.WF (.ccapDec c d a))
  | .cpeek c d a => decide (Instr.WF (.cpeek c d a))
  | .cwait c d a b k => decide (Instr.WF (.cwait c d a b k))
  | .rast c a b e => decide (Instr.WF (.rast c a b e))
  | .rseal c a => decide (Instr.WF (.rseal c a))
  | .bpush c k q a b => decide (Instr.WF (.bpush c k q a b))
  | .bpushHit c k q a b => decide (Instr.WF (.bpushHit c k q a b))
  | .bisect c q a b e => decide (Instr.WF (.bisect c q a b e))
  | .attr c d a b j => decide (Instr.WF (.attr c d a b j))
  | .tex c d a t => decide (Instr.WF (.tex c d a t))
  | .texl c d a t => decide (Instr.WF (.texl c d a t))
  | .texg c d a t => decide (Instr.WF (.texg c d a t))
  | .bflush c a => decide (Instr.WF (.bflush c a))
  | .bflushAll c => decide (Instr.WF (.bflushAll c))
  | .enq c q a b => decide (Instr.WF (.enq c q a b))
  | .rgrab c d i => decide (Instr.WF (.rgrab c d i))
  | .rgrabSet c a b i => decide (Instr.WF (.rgrabSet c a b i))
  | .sread c d k => decide (Instr.WF (.sread c d k))
  | .time c d => decide (Instr.WF (.time c d))
  | .energy c d => decide (Instr.WF (.energy c d))
  | .energyQ c d a => decide (Instr.WF (.energyQ c d a))
  | .issueOpportunity _ => true
  | .dutyChange _ => true
  | .resultWriteback _ _ _ _ => true
  | .sleepExpiry _ _ _ _ => true
  | .workgroupAdmission _ => true
  | .slotReturn _ _ => true
  | .preempt _ _ => true
  | .contextRestore _ _ => true
  | .pushtRowPlaced _ _ => true
  | .mmaExecute _ _ _ => true
  | .azeroExecute _ _ _ => true
  | .smxuExecute _ _ _ => true
  | .copyRow _ _ _ => true
  | .barwaitBoundExpiry _ _ _ _ => true
  | .nbarwaitBoundExpiry _ _ _ _ => true
  | .gets _ _ => true
  | .getm _ _ => true
  | .put _ _ => true
  | .promotionDemand _ _ => true
  | .forward _ _ => true
  | .l2Eviction _ => true
  | .tlbWalkFill _ _ _ _ => true
  | .tlbInvalidation _ _ _ _ => true
  | .clusterAtomic _ => true
  | .donationRequest _ => true
  | .splitRegisterWrite _ _ _ => true
  | .resizeComplete _ _ => true
  | .routerIdleGate _ _ => true
  | .routerWake _ _ => true
  | .routerWakeComplete _ _ => true
  | .routerGatingWrite _ _ => true
  | .linkFlitRetry _ _ _ => true
  | .uncorrectableError _ => true
  | .doorbell _ _ _ => true
  | .queueDestroy _ _ => true
  | .queueDestroyComplete _ _ => true
  | .dispatchStep _ => true
  | .treeCounterUpdate _ => true
  | .churnPassage _ _ => true
  | .boardingReadReturn _ _ => true
  | .releasePacketEnqueue _ _ => true
  | .churnLimitWrite _ _ _ => true
  | .rasterTriangle _ => true
  | .passSeal _ _ => true
  | .tileScan _ => true
  | .binTimeout _ _ => true
  | .migrationGo _ => true
  | .migrationComplete => true
  | .biasFlip _ _ => true
  | .biasFlipComplete _ => true
  | .hostReadShared _ => true
  | .hostReadOwned _ => true
  | .hostWriteback _ _ => true
  | .hostSnoop _ _ => true
  | .peerPostedWrite _ _ => true
  | .peerRead _ _ => true
  | .mmioReadCompletion _ _ _ => true
  | .mmioReadTimeout _ => true
  | .partitionPowerInterval _ => true
  | .powerCapWrite _ _ => true
  | .currentDroop _ => true
  | .limiterRestore _ => true
  | .thermalForecast _ _ => true
  | .thermalSensor _ _ _ => true
  | .thermalTrip _ => true
  | .boot _ => true
  | .getVersion => true
  | .getCapabilities => true
  | .negotiateAlgorithms _ _ => true
  | .getDigests => true
  | .getCertificate _ _ _ => true
  | .challenge _ _ => true
  | .getMeasurements _ _ _ => true
  | .spdmUnsupported _ => true
  | .scrubRead _ _ => true
  | .lifetimeCounterUpdate _ _ => true
  | .flitReceive _ _ => true
  | .flitRefusal _ _ _ => true
  | .portRetrain _ _ => true
  | .inboundAccess _ => true
  | .remoteAtomic _ => true
  | .remoteWriteAck _ => true
  | .peerReset _ => true
  | .registerWrite _ _ => true
  | .partitionCreation _ _ => true
  | .partitionDestruction _ => true
  | .queueEnable _ _ => true
  | .routerGatingComplete _ _ => true
  | .memoryFillReturn _ => true
  | .invalidationAcknowledgement _ _ => true
  | .hostMemoryWrite _ _ => true
  | .correctedSoftError _ => true

end Sys2Proof
end

