-- ==== Sys2Proof/Machine/Ops.lean ====
section
/-!
DEFINITION. How a word executes: who issues it, the checks at issue (R42), reading, committing results under the rename map and the
quota (R61 to R71), taking an exception (R260) and returning from one (R262), and the slice's counterpart (R251, R257).
-/
namespace Sys2Proof.Machine

/-! ## Who issues -/

/-- The issuing context of a word of a group: the issuer, its workgroup, the group as it stands and as the word reads it (R28), the
lanes of the path and the active lanes (R14), the word's address, and the registers that its chain has freed. -/
structure Ctx where
  who : Who
  wg : Workgroup
  grp : Group
  src : Group
  path : List Nat
  act : List Nat
  pc : Nat
  freed : List Nat
  deriving DecidableEq, Repr

/-- The issuing workgroup, when it is still the one resident. -/
def State.curWg (s : State) : Option Workgroup :=
  match s.wg s.cur.who.core s.cur.who.wg with
  | none => none
  | some w => if w.uid = s.cur.who.uid then some w else none

/-- The issuer is an access slice. -/
def State.isSlice (s : State) : Bool := s.cur.who.grp = 16

/-- The lanes of a mask that a group holds. -/
def Group.lanesIn (g : Group) (m : W64) : List Nat := (upto 0 g.lanes.length).filter (fun l => m.getLsbD l)

/-- The issuing context under a guard code, if the issuer is a resident group. -/
def State.ctx (s : State) (guard : Nat) : Option Ctx :=
  match s.curWg with
  | none => none
  | some w => match w.group s.cur.who.grp with
    | none => none
    | some g =>
      let src := s.cur.snap.getD g
      let path := g.lanesIn s.cur.mask
      some { who := s.cur.who, wg := w, grp := g, src := src, path := path,
             act := path.filter (fun l => guardPasses guard (src.lane l)), pc := s.cur.pc, freed := s.cur.freed }

/-- The word executes with the full group (R64): its active lanes are exactly the non-exited lanes. -/
def Ctx.full (c : Ctx) : Bool := c.grp.liveLanes.all (fun l => c.act.contains l)

/-- Mask of the active lanes. -/
def Ctx.mask (c : Ctx) : W64 := listMask c.act

/-- The lowest active lane. -/
def Ctx.low (c : Ctx) : Nat := c.act.headD 0

/-- The die, cluster and core of the issuer. -/
def Ctx.core (c : Ctx) : Nat := c.who.core

/-- The state with the issuing group changed. -/
def State.modCur (s : State) (f : Group → Group) : State := s.modGroup s.cur.who.core s.cur.who.wg s.cur.who.grp f
/-- The state with the issuing workgroup changed. -/
def State.modCurWg (s : State) (f : Workgroup → Workgroup) : State := s.modWg s.cur.who.core s.cur.who.wg f

/-! ## What a word does -/

/-- What a word did: it took effect; it took effect and the next word is to be repeated (R45); it faulted (cause, `trapmask`, `trapaddr`, whether
it was delivered at a waiting word); it waits at issue with no effect (R167); it sleeps (R166); or it aborted its workgroup. -/
inductive Did where
  | done (s : State)
  | again (r : Rep) (s : State)
  | trap (t : Trap) (late : Bool) (s : State)
  | hold (s : State)
  | sleep (s : State) (w : Wait)
  | abort (cause : Byte) (s : State)

/-- A fault with the path's mask and address 0 (R42). -/
def Ctx.issueTrap (c : Ctx) (cause : Cause) (s : State) : Did := .trap ⟨cause, listMask c.path, 0⟩ false s
/-- A fault of the active lanes with address 0 (R71). -/
def Ctx.fault (c : Ctx) (cause : Cause) (s : State) : Did := .trap ⟨cause, c.mask, 0⟩ false s
/-- A fault of the active lanes whose cause's description states no `trapaddr`: that is a free value (R260, R15). (DEDUCED, log entry 26.) -/
def Ctx.openFault (c : Ctx) (cause : Cause) (s : State) : Did :=
  let d := s.draw
  .trap ⟨cause, c.mask, d.1.setWidth 64⟩ false d.2
/-- A fault of some lanes with an address (R317). -/
def faultAt (cause : Cause) (lanes : List Nat) (addr : W64) (s : State) : Did := .trap ⟨cause, listMask lanes, addr⟩ false s

/-! ## Taking an exception and returning from one -/

/-- The lanes of the path become the handler path at the handler's address; every other path of the group is held; `trapcause`,
`trappc`, `trapmask` and `trapaddr` are written (R260). -/
def Group.enterTrap (g : Group) (path : List Nat) (pc : Nat) (t : Trap) (late : Bool) : Group :=
  let pcB := BitVec.ofNat 55 (4 * pc)
  let lanes := lmapIdx (fun l x =>
    if x.exited then x
    else if path.contains l then
      { x with pc := g.ctrl.trapbase.toNat / 4, kept := x.rep, rep := none, keptTarget := x.target, target := none,
               keptJoin := x.joining, joining := none, handler := true }
    else { x with held := true }) 0 g.lanes
  { g with lanes := lanes, entryPc := pcB,
           ctrl := { g.ctrl with trapH := true, trapA := late, trapcause := BitVec.ofNat 8 t.cause.code, trappc := pcB,
                                 trapmask := t.mask, trapaddr := t.addr } }

/-- A user cause cannot be taken (R260): a handler runs, or there is no handler. -/
def Group.trapAborts (g : Group) : Bool := g.ctrl.trapH || g.ctrl.trapbase = 0 || g.ctrl.trapbase.toNat % 12 != 0

/-- TAKING AN EXCEPTION: a user cause raised by a word at pc, of a path of group g of workgroup w of core c (R260, R261); a lifetime counter
counts it (R515). -/
def State.takeTrap (s : State) (c w g : Nat) (path : List Nat) (pc : Nat) (t : Trap) (late : Bool) : State :=
  match s.group c w g with
  | none => s
  | some gr =>
    if gr.trapAborts then s.abortWg c w (BitVec.ofNat 8 t.cause.code)
    else (s.modGroup c w g (fun x => x.enterTrap path pc t late)).tally (0x5CF + t.cause.code)

/-- A lane once the handler has ended (R262): the handler path's lanes go to `trappc`, the others are no longer held. -/
def Lane.leaveTrap (same : Bool) (pc : Nat) (l : Lane) : Lane :=
  if l.handler then
    { l with pc := pc, rep := if same then l.kept else none, kept := none, target := if same then l.keptTarget else none,
             keptTarget := none, joining := if same then l.keptJoin else none, keptJoin := none, handler := false }
  else { l with held := false }

/-- RETURNING FROM AN EXCEPTION (R262 steps 2 to 5). -/
def Group.leaveTrap (g : Group) : Group :=
  let same := decide (g.ctrl.trappc = g.entryPc)
  { g with ctrl := { g.ctrl with trapH := false }, lanes := g.lanes.map (Lane.leaveTrap same (g.ctrl.trappc.toNat / 4)) }

/-- The handler path has no lane left (R262): the handler ends for the held paths. -/
def Group.handlerGone (g : Group) : Bool := g.ctrl.trapH && g.lanes.all (fun l => !l.handler || l.exited)

/-! ## Waiting, early reads and deferred faults -/

/-- The lanes in which a register is read or written: the guard's predicate is read by the whole path. -/
def Ctx.busy (c : Ctx) (u : Uses) : Bool :=
  c.src.pend.any (fun p => !p.fixed &&
    ((decide (p.mask &&& c.mask ≠ 0) && (u.reads.contains p.reg || u.writes.contains p.reg)) ||
     (decide (p.mask &&& listMask c.path ≠ 0) && (guardReads u.guard).contains p.reg)))

/-- A register that the word writes has a free held back (R66): the word waits. (DEDUCED, log entry 23.) -/
def Ctx.freeHeld (c : Ctx) (u : Uses) : Bool := c.grp.frees.any (fun f => u.writes.contains (.v f.reg))

/-- An active lane has an acquire outstanding at a party outside the package: its later accesses wait (R526). -/
def State.acqHeld (s : State) (c : Ctx) : Bool :=
  s.pkg.outside.any (fun o => o.acq && decide (o.who = c.who) && o.lanes.any (fun x => c.act.contains x.1))

/-- Fixed-latency writes to registers of a list that some lanes read early, with the lanes (R32). -/
def Group.early (g : Group) (rs : List RegName) (lanes : W64) (now : Nat) : List (RegName × W64) :=
  g.pend.filterMap (fun p =>
    match p.fixed, p.due with
    | true, some d => if now < d ∧ rs.contains p.reg = true ∧ p.mask &&& lanes ≠ 0 then some (p.reg, p.mask &&& lanes) else none
    | _, _ => none)

/-- Early reads of the guard's predicate: the whole path reads it. -/
def Ctx.earlyGuard (c : Ctx) (u : Uses) (now : Nat) : List (RegName × W64) := c.src.early (guardReads u.guard) (listMask c.path) now

/-- Early reads of the word's sources in its active lanes. -/
def Ctx.earlyReads (c : Ctx) (u : Uses) (now : Nat) : List (RegName × W64) :=
  c.src.early (u.reads.filter (fun r => !(guardReads u.guard).contains r)) c.mask now

/-- Undefined values in the lanes of a register (R32, R15), each a fresh free value. -/
def poisonReg (g : Group) (r : RegName) (vs : List (Nat × BitVec 128)) : Group :=
  match r with
  | .v n => { g with regs := match tget g.regs n with
      | none => g.regs
      | some v => tset g.regs n { v with lanes := vs.foldl (fun ls x => lset ls x.1 (v.shape.keep x.2)) v.lanes } }
  | .q n => vs.foldl (fun g x => g.modLane x.1 (fun l => l.setPred n (Tri.ofBits x.2.toNat))) g
  | .j n => match vs with
    | [] => g
    | x :: _ => { g with joins := tset g.joins n (x.2.setWidth 64) }

/-- Undefined values at every early read (R32). -/
def poison (s : State) (g : Group) : List (RegName × W64) → Group × State
  | [] => (g, s)
  | (r, m) :: t =>
    let d := s.drawList (maskList m)
    poison d.2 (poisonReg g r d.1) t

/-- The lanes of a failed load's destination (R287). -/
def FailedRead.mask (f : FailedRead) : W64 := listMask (f.lanes.map (·.1))

/-- The data address of the lowest of them (R287). -/
def FailedRead.addr (f : FailedRead) : W64 := (f.lanes.map (·.2)).headD 0

/-- Destinations of failed loads that the word reads (R287), and damaged granules (R517). -/
def Ctx.failedRead (c : Ctx) (u : Uses) : Option FailedRead :=
  c.src.failed.find? (fun f => (u.reads.contains f.reg && decide (f.mask &&& c.mask ≠ 0)) ||
    ((guardReads u.guard).contains f.reg && decide (f.mask &&& listMask c.path ≠ 0)))

/-- The context with what the word reads early undefined, and its active lanes as an undefined guard leaves them (R32). -/
def Ctx.poisoned (c : Ctx) (u : Uses) (e : List (RegName × W64)) (s : State) : Ctx × State :=
  let p := poison s c.src e
  ({ c with src := p.1, act := c.path.filter (fun l => guardPasses u.guard (p.1.lane l)) }, p.2)

/-- The checks that every word of a group meets (R41, R42, R31, R32, R287), then its body; a word with no active lane has no
effect (R64). That it is a word at all is decode's check (R40). -/
def Ctx.checked (c : Ctx) (u : Uses) (s : State) (body : Ctx → State → Did) : Did :=
  if u.priv = true ∧ c.wg.priv = false then c.issueTrap .priv s
  else
    let g := c.earlyGuard u s.cycle
    let p := c.poisoned u g s
    if p.1.busy u = true ∨ c.freeHeld u = true ∨ ((u.cls = .m ∨ u.cls = .x) ∧ s.acqHeld p.1 = true) then .hold s
    else
      let e := p.1.earlyReads u s.cycle
      if (g ≠ [] ∨ e ≠ []) ∧ c.src.ctrl.stallchk = true then c.issueTrap .stallShort s
      else
        let p := p.1.poisoned u e p.2
        match p.1.failedRead u with
        | some f =>
          if f.precise then .trap ⟨.memUe, p.1.mask, f.addr⟩ false p.2
          else .trap ⟨.memUe, f.mask, f.addr⟩ true
            (p.2.modCur (fun g => { g with failed := g.failed.filter (fun x => x.precise || decide (x.batch ≠ f.batch)) }))
        | none => if p.1.act = [] then .done p.2 else body p.1 p.2

/-! ## After a word -/

/-- A lane goes on after the word: to the next repetition, or to the next word (R23, R45). -/
def Lane.advance (l : Lane) : Lane :=
  match l.rep with
  | some r => if r.idx < r.last then { l with rep := some { r with idx := r.idx + 1 } } else { l with rep := none, pc := l.pc + 1 }
  | none => { l with pc := l.pc + 1 }

/-- The path's lanes go on after a word. -/
def State.advance (s : State) (path : List Nat) : State :=
  let s := s.modCur (fun g => g.modLanes path Lane.advance)
  { s with cur := { s.cur with pc := s.cur.pc + 1 } }

/-- What the rest of a chain will read when its word wakes (R28), with the registers that the chain has freed. -/
def Group.restOf (g : Group) (freed : List Nat) : Rest := { regs := g.regs, preds := g.lanes.map (·.q), joins := g.joins, freed := freed }

/-- The state after a group's word begun in s0: done, trapped, holding or asleep (R42, R166, R260). The fault of a second chain in the
cycle of the first one's is not taken, and its word has no effect (R260). -/
def Ctx.finish (c : Ctx) (u : Uses) (s0 : State) (d : Did) : State :=
  let w := c.who
  match d with
  | .done s =>
    let s := s.advance c.path
    { s with cur := { s.cur with stall := max s.cur.stall u.stall, waited := false } }
  | .again r s =>
    let s := (s.advance c.path).modCur (fun g => g.modLanes c.path (fun l => { l with rep := some r }))
    { s with cur := { s.cur with waited := false } }
  | .trap t late s =>
    let other := match s0.cur.snap with
      | some g0 => c.grp.ctrl.trapH && !g0.ctrl.trapH
      | none => false
    if other then { s0 with cur := { s0.cur with live := false, waited := false } }
    else ({ s with cur := { s.cur with live := false, waited := false } }).takeTrap w.core w.wg w.grp c.path s.cur.pc t late
  | .hold s => { s with cur := { s.cur with live := false, waited := true } }
  | .sleep s x =>
    let x := { x with rest := if u.chain = 1 then some (c.src.restOf c.freed) else none }
    let s := s.modCur (fun g => { g with waits := g.waits ++ [x] })
    { s with cur := { s.cur with live := false, waited := false } }
  | .abort cause s => ({ s with cur := { s.cur with live := false, waited := false } }).abortWg w.core w.wg cause

/-! ## The access slice -/

/-- The state with the issuing slice changed. -/
def State.modCurSlice (s : State) (f : Slice → Slice) : State := s.modSlice s.cur.who.core s.cur.who.wg f

/-- A fault stops the slice at its word and is recorded (R257): the data address for data causes, else the word's (R256). -/
def State.sliceFault (s : State) (cause : Cause) (addr : W64) : State :=
  let s := s.modCurSlice (fun x => { x with live := false, push := none, ended := .faulted cause addr false })
  { s with cur := { s.cur with live := false, waited := false } }

/-- What a slice's word did; `fault` with none for the address means the word's own. -/
inductive SliceDid where
  | done (s : State)
  | fault (cause : Cause) (addr : Option W64)
  | hold (s : State)
  | sleep (s : State) (w : Wait)

/-- The slice after its word: on to the next word or to its target (R23, R251). -/
def Slice.advance (x : Slice) : Slice :=
  match x.target with
  | some t => { x with pc := t, target := none }
  | none => { x with pc := x.pc + 1 }

/-- The state after a slice's word. -/
def State.finishSlice (s0 : State) (d : SliceDid) : State :=
  match d with
  | .done s =>
    let s := s.modCurSlice Slice.advance
    { s with cur := { s.cur with pc := s.cur.pc + 1, waited := false } }
  | .fault cause addr => s0.sliceFault cause (addr.getD (BitVec.ofNat 64 (4 * s0.cur.pc)))
  | .hold s => { s with cur := { s.cur with live := false, waited := true } }
  | .sleep s w =>
    let s := s.modCurSlice (fun x => { x with wait := some w })
    { s with cur := { s.cur with live := false, waited := false } }

/-- x_n of a slice: x0 reads zero (R251). -/
def Slice.reg (x : Slice) (n : Nat) : W64 := if n = 0 then 0 else x.x.getD n 0
/-- Write x_n: a write to x0 is discarded (R251). -/
def Slice.setReg (x : Slice) (n : Nat) (v : W64) : Slice := if n = 0 then x else { x with x := lset x.x n v }
/-- q_n of a slice: q0 reads T (R251). -/
def Slice.pred (x : Slice) (n : Nat) : Tri := if n = 0 then .t else x.q.getD n .f
/-- Write q_n of a slice. -/
def Slice.setPred (x : Slice) (n : Nat) (v : Tri) : Slice := if n = 0 then x else { x with q := lset x.q n v }
/-- A guard in a slice word (R252): G = 100 never passes. -/
def Slice.guard (x : Slice) (g : Nat) : Bool := if g = 4 then false else x.pred (guardOf g).1 = (guardOf g).2

/-- A word that a slice may execute: C = 0, register fields 0 to 15 (R252); then its body, if the guard passes. -/
def State.sliceWord (s : State) (u : Uses) (body : Slice → State → SliceDid) : SliceDid :=
  match s.curWg with
  | none => .fault .illegalOp none
  | some w =>
    if u.chain = 1 ∨ (u.reads ++ u.writes).any (fun r => match r with
        | .v n => decide (16 ≤ n)
        | _ => false) = true then .fault .illegalOp none
    else if w.slice.guard u.guard then body w.slice s else .done s

/-! ## A word of either -/

/-- The channels of a texture in the issuing workgroup's view (R466). -/
def State.chan (s : State) (n : Nat) : Nat :=
  match s.curWg with
  | none => 0
  | some w => s.channels w n

/-- What a word names, in the issuing workgroup's view. -/
def State.uses (s : State) (i : Instr) : Uses := usesOf s.chan i

/-- A word that only a group may execute (R252: a slice raises ILLEGAL_OP); u is what it names, as in `usesOf`. -/
def groupWord (u : Uses) (s : State) (body : Ctx → Uses → State → Did) : Host.Outcome State Fault Refusal :=
  if s.isSlice then
    match s.curWg with
    | none => .fault .noIssuer
    | some _ => .next (s.finishSlice (.fault .illegalOp none))
  else match s.ctx u.guard with
    | none => .fault .noIssuer
    | some c => .next (c.finish u s (c.checked u s (fun c s => body c u s)))

/-- A word that a group or a slice may execute. -/
def bothWord (u : Uses) (s : State) (body : Ctx → Uses → State → Did) (sl : Slice → State → SliceDid) :
    Host.Outcome State Fault Refusal :=
  if s.isSlice then
    match s.curWg with
    | none => .fault .noIssuer
    | some _ => .next (s.finishSlice (s.sliceWord u sl))
  else groupWord u s body

/-- A word that only a slice may execute (R255: a group raises ILLEGAL_OP). -/
def sliceOnly (u : Uses) (s : State) (sl : Slice → State → SliceDid) : Host.Outcome State Fault Refusal :=
  bothWord u s (fun c _ s => c.issueTrap .illegalOp s) sl

/-! ## Committing results -/

/-- One register write of a word: register, shape, and the value of each lane written. -/
structure VWrite where
  reg : Nat
  shape : Shape
  vals : List (Nat × Elem)
  deriving DecidableEq, Repr

/-- The results of a word: register writes, predicate writes by lane, generators, side bytes, and a fault that arises after the
checks of shape and quota (R141). (DEDUCED, log entry 66.) -/
structure Out where
  vs : List VWrite
  qs : List (Nat × List (Nat × Tri))
  gens : List (Nat × W64)
  sides : List (Nat × List (Nat × Byte))
  err : Option Trap
  deriving DecidableEq, Repr

/-- No results. -/
def Out.none : Out := ⟨[], [], [], [], Option.none⟩
/-- One register write. -/
def Out.v (reg : Nat) (shape : Shape) (vals : List (Nat × Elem)) : Out := { Out.none with vs := [⟨reg, shape, vals⟩] }
/-- One predicate write. -/
def Out.q (reg : Nat) (vals : List (Nat × Tri)) : Out := { Out.none with qs := [(reg, vals)] }

/-- The same register after a write (R58): the lanes written take their values. -/
def VReg.put (v : VReg) (vals : List (Nat × Elem)) : VReg := { v with lanes := vals.foldl (fun ls x => lset ls x.1 x.2) v.lanes }

/-- Registers that the word's last-read flags free: with the full group (R65), those that no lower word of the chain has freed (R66). -/
def Ctx.frees (c : Ctx) (u : Uses) : List Nat := if c.full then u.frees.filter (fun r => !c.freed.contains r) else []

/-- Those whose frees apply with this word: no write is outstanding (R66). -/
def Ctx.freesNow (c : Ctx) (u : Uses) : List Nat := (c.frees u).filter (fun r => c.grp.pend.all (fun p => decide (p.reg ≠ .v r)))

/-- Those whose frees are held back (R66). (DEDUCED, log entry 23.) -/
def Ctx.freesLater (c : Ctx) (u : Uses) : List PendFree :=
  ((c.frees u).filter (fun r => c.grp.pend.any (fun p => decide (p.reg = .v r)))).map (fun r =>
    { reg := r, after := (c.grp.pend.filter (fun p => decide (p.reg = .v r))).map (·.id) })

/-- The rename map after the word's own frees (R66). -/
def freeRegs (regs : Tab VReg) (rs : List Nat) : Tab VReg := rs.foldl (fun t r => tdel t r) regs

/-- A register write allocates its register, or reshapes it (R64). -/
def VWrite.allocates (regs : Tab VReg) (x : VWrite) : Bool :=
  match tget regs x.reg with
  | some v => decide (v.shape ≠ x.shape)
  | none => true

/-- Allocate or reshape the destinations (R61, R64): registers that keep their shape stay. -/
def allocRegs (w : Nat) (regs : Tab VReg) (vs : List VWrite) : Tab VReg :=
  vs.foldl (fun t x => if x.allocates t then tset t x.reg (VReg.zero x.shape w) else t) regs

/-- A destination would be reshaped by a partial group (R63). -/
def Ctx.badReshape (c : Ctx) (vs : List VWrite) : Bool :=
  !c.full && vs.any (fun x => match tget c.grp.regs x.reg with
    | some v => decide (v.shape ≠ x.shape)
    | none => false)

/-- What lanes of a register hold. -/
def Group.held (g : Group) (r : RegName) (ls : List Nat) : List (Nat × Elem) :=
  match r with
  | .v n => ls.map (fun l => (l, g.read n l))
  | .q n => ls.map (fun l => (l, BitVec.ofNat 128 (Tri.bits ((g.lane l).pred n))))
  | .j _ => []

/-- An outstanding write of a word of class k to lanes of a register of a group (R29, R31). (DESIGN CHOICE, log entry 5.) -/
def pendOf (k : Cls) (now id : Nat) (g : Group) (r : RegName) (ls : List Nat) : Pend :=
  { id := id, reg := r, mask := listMask ls, fixed := k.latency.isSome, due := some (now + k.latency.getD 1), old := g.held r ls }

/-- The lanes of registers that a word writes: a q0 is no destination (R73), and side bytes are of no lane (R60). -/
def Out.dests (o : Out) : List (RegName × List Nat) :=
  (o.vs.filter (fun x => decide (x.vals ≠ []))).map (fun x => (RegName.v x.reg, x.vals.map (·.1))) ++
  (o.qs.filter (fun x => decide (x.1 ≠ 0))).map (fun x => (RegName.q x.1, x.2.map (·.1)))

/-- The outstanding writes of a word to a group with its destinations allocated, numbered from id (R31, per lane). -/
def Out.pends (k : Cls) (now id : Nat) (g : Group) (o : Out) : List Pend :=
  lmapIdx (fun n (x : RegName × List Nat) => pendOf k now (id + n) g x.1 x.2) 0 o.dests

/-- The results without those of some lanes. -/
def Out.without (o : Out) (p : Nat → Bool) : Out :=
  { o with vs := o.vs.map (fun x => { x with vals := x.vals.filter (fun y => !p y.1) }),
           qs := o.qs.map (fun x => (x.1, x.2.filter (fun y => !p y.1))), gens := o.gens.filter (fun x => !p x.1) }

/-- Write side bytes of a register by granule (R60). -/
def putSides (regs : Tab VReg) (x : Nat × List (Nat × Byte)) : Tab VReg :=
  match tget regs x.1 with
  | none => regs
  | some v => tset regs x.1 { v with side := x.2.foldl (fun ls y => lset ls y.1 y.2) v.side }

/-- The group after a word's results (R61 to R66, R74). -/
def Group.put (g : Group) (regs : Tab VReg) (o : Out) : Group :=
  let regs := o.vs.foldl (fun t x => match tget t x.reg with
    | some v => tset t x.reg (v.put x.vals)
    | none => t) regs
  let regs := o.sides.foldl putSides regs
  let g := { g with regs := regs }
  let g := o.qs.foldl (fun g x => x.2.foldl (fun g y => g.modLane y.1 (fun l => l.setPred x.1 y.2)) g) g
  o.gens.foldl (fun g x => g.modLane x.1 (fun l => { l with gen := x.2 })) g

/-- Frees that were held back for writes that have completed take effect (R66). -/
def Group.settle (g : Group) : Group :=
  let free := fun (f : PendFree) => f.after.all (fun n => g.pend.all (fun p => decide (p.id ≠ n)))
  { g with regs := (g.frees.filter free).foldl (fun t f => tdel t f.reg) g.regs, frees := g.frees.filter (fun f => !free f) }

/-- The word's results write a lane of a register. -/
def Out.writes (o : Out) (r : RegName) (l : Nat) : Bool :=
  match r with
  | .v n => o.vs.any (fun x => decide (x.reg = n) && x.vals.any (fun y => decide (y.1 = l)))
  | .q n => o.qs.any (fun x => decide (x.1 = n) && x.2.any (fun y => decide (y.1 = l)))
  | .j _ => false

/-- A write to lanes of a register ends the deferred fault of those lanes (R287). -/
def clearFailed (fs : List FailedRead) (o : Out) : List FailedRead :=
  if fs = [] then []
  else (fs.map (fun f => { f with lanes := f.lanes.filter (fun y => !o.writes f.reg y.1) })).filter (fun f => decide (f.lanes ≠ []))

/-- The rename map with the word's frees and allocations (R66). -/
def Ctx.newMap (c : Ctx) (u : Uses) (o : Out) : Tab VReg :=
  allocRegs c.grp.width (freeRegs c.grp.regs (c.freesNow u)) o.vs

/-- Registers that the word allocates or reshapes after its frees. -/
def Ctx.newRegs (c : Ctx) (u : Uses) (o : Out) : List Nat :=
  (o.vs.filter (VWrite.allocates (freeRegs c.grp.regs (c.freesNow u)))).map (·.reg)

/-- The state once the word's results are in: map, values, outstanding writes, held frees. Lanes that a lower word of the chain has ended take none
(R179), and earlier writes to a register allocated anew leave nothing behind. -/
def Ctx.apply (c : Ctx) (u : Uses) (k : Cls) (o : Out) (s : State) : State :=
  let map := c.newMap u o
  let o := o.without (fun l => (c.grp.lane l).exited && !(c.src.lane l).exited)
  let ps := o.pends k s.cycle s.nextId { c.grp with regs := map }
  let s := { s with nextId := s.nextId + ps.length, cur := { s.cur with freed := s.cur.freed ++ c.frees u } }
  let later := c.freesLater u
  let un := o.vs.map (·.reg)
  let fresh := c.newRegs u o
  s.modCur (fun g =>
    let g := g.put map o
    let pend := g.pend.map (fun p => if fresh.any (fun r => decide (p.reg = .v r)) then { p with old := [] } else p)
    { g with pend := pend ++ ps, frees := g.frees ++ later, failed := clearFailed g.failed o,
             unfencedRegs := un ++ g.unfencedRegs.filter (fun r => !un.contains r) })

/-- The group would hold more granules than its quota after a word's allocations (R69). -/
def Ctx.overQuota (c : Ctx) (u : Uses) (o : Out) : Bool :=
  let n := usedBy c.grp.width c.grp.waits (c.newMap u o)
  decide (c.grp.used < n ∧ c.grp.quota < n)

/-- The checks of a word's destinations: SHAPE, then QUOTA with the wait of R69, then the word's own fault (R141); then `next`. A word that
allocates waits for a free of its own that is held back (R66). (DEDUCED, log entry 71.) -/
def Ctx.takeIn (c : Ctx) (u : Uses) (o : Out) (s : State) (next : State → Did) : Did :=
  if c.badReshape o.vs then c.fault .shape s
  else if c.overQuota u o then
    if c.grp.frees ≠ [] ∨ c.freesLater u ≠ [] then .hold s else c.fault .quota s
  else if c.freesLater u ≠ [] ∧ c.newRegs u o ≠ [] then .hold s
  else match o.err with
    | some t => .trap t false s
    | none => next s

/-- Commit a word's results: the checks of its destinations, then the effect. (DEDUCED, log entry 71.) -/
def Ctx.commit (c : Ctx) (u : Uses) (o : Out) (s : State) (next : State → Did) : Did :=
  c.takeIn u o s (fun s => next (c.apply u u.cls o s))

/-- A word that computes its results from what it reads, or faults before any check of its destinations. -/
def Ctx.compute (c : Ctx) (u : Uses) (r : Except Trap Out) (s : State) : Did :=
  match r with
  | .error t => .trap t false s
  | .ok o => c.commit u o s .done

/-- SHAPE of the active lanes (R63, R71). -/
def Ctx.shapeTrap (c : Ctx) : Trap := ⟨.shape, c.mask, 0⟩

/-! ## Operands that a word takes once -/

/-- Once-operands from the lowest active lane: P64 (R270 and the owning chapters). -/
def Ctx.lowP64 (c : Ctx) (r : Nat) : Option W64 :=
  if c.src.shape r = .p64 then some ((c.src.read r c.low).setWidth 64) else none
/-- P32 or unallocated. -/
def Ctx.lowP32 (c : Ctx) (r : Nat) : Option W32 :=
  if c.src.shape r = .p32 then some ((c.src.read r c.low).setWidth 32) else none

/-- One value for every active lane. -/
def Ctx.all (c : Ctx) (e : Elem) : List (Nat × Elem) := c.act.map (fun l => (l, e))
/-- One predicate for every active lane. -/
def Ctx.allQ (c : Ctx) (x : Tri) : List (Nat × Tri) := c.act.map (fun l => (l, x))

/-- The effect of a word that writes no register: its last-read frees, then done. -/
def Ctx.plain (c : Ctx) (u : Uses) (s : State) (next : State → Did) : Did := c.commit u Out.none s next

end Sys2Proof.Machine
end

