-- ==== Sys2Proof/Machine/Admit.lean ====
section
/-!
DEFINITION. What a workgroup starts with (R56, R161, R197, R199 to R201, R233, R245, R246, R251, R269), and the placing of a single
word where the next step fetches it.
-/
namespace Sys2Proof.Machine

/-- A lane at group start (R55, R56, R166): at the entry packet, its generator seeded, or exited when it has no record (R451). -/
def Lane.start (pc : Nat) (seed : W32) (l : Nat) (rec : Option (BitVec 128)) (helper exited : Bool) : Lane :=
  { pc := pc, rep := none, exited := exited, helper := helper, q := List.replicate 8 .f, gen := genSeed seed l, earliest := 0,
    age := 0, forced := false, yielding := false, waiting := none, held := false, handler := false, kept := none, target := none,
    joining := none, keptTarget := none, keptJoin := none, priv := [], privDirty := [], record := rec }

/-- Control registers at group start (R87, R91, R92, R227, R245). -/
def CtrlRegs.start (p : BitVec 512) (seed : W32) : CtrlRegs :=
  { round := 1, stallchk := false, trapbase := if lpTrap p = 0 then 0 else BitVec.ofNat 55 (lpCode p + 12 * lpTrap p), seed := seed,
    smxscale := 0x3F800000, hint := 1, q4scale := 0x3F800000, trapH := false, trapA := false, trapcause := 0, trappc := 0,
    trapmask := 0, trapaddr := 0 }

/-- Group g of workgroup number `ix` of a packet (R56, R91); `recs` are the lanes' records of a bin launch (R451, R452). -/
def Group.start (p : BitVec 512) (ix g : Nat) (recs : List (Option (BitVec 128) × Bool)) : Group :=
  let seed := BitVec.ofNat 32 (ix * 16 + g)
  let bin := !recs.isEmpty
  let lanes := (upto 0 (lpWidth p)).map (fun l =>
    let r := recs.getD l (none, false)
    Lane.start (lpCode p / 4) seed l r.1 r.2 (bin && r.1.isNone))
  { lanes := lanes, regs := [], joins := [], ctrl := CtrlRegs.start p seed, quota := lpQuota p, pend := [], frees := [], waits := [],
    failed := [], tileFault := none, copyFault := none, unfencedRegs := [], unfencedTiles := [], entryPc := 0, replay := [],
    retired := false }

/-- A row of a tile after AZERO (R200). -/
def TileRow.zero : TileRow := { cells := List.replicate 16 0, m := 0xFF800000, l := 0, sat := false, badCells := false, badSide := false }
/-- A tile at binding (R197, R199). -/
def Tile.zero : Tile := { mode := .empty, rows := List.replicate 64 TileRow.zero, clean := false }

/-- The access slice before any ASLICE (R251, R256). -/
def Slice.start : Slice :=
  { live := false, x := List.replicate 16 0, q := List.replicate 8 .f, pc := 0, target := none, push := none, wait := none,
    ended := .never, refusals := 0 }

/-- Packs of a workgroup (R162). -/
def packCount (groups width : Nat) : Nat := (groups * width + 63) / 64

/-- A workgroup at admission (R233): workgroup `ix` of a packet of a die. -/
def Workgroup.start (uid packet : Nat) (p : BitVec 512) (source : Nat) (tree : Option Nat) (depth asid ctxid savebase ix : Nat)
    (nbarBound : Nat) (home : List Nat) (recs : List (Option (BitVec 128) × Bool)) : Workgroup :=
  { uid := uid, packet := packet, launch := p, source := source, tree := tree, depth := depth, asid := asid, priv := lpPriv p,
    part := lpPartition p, ctxid := ctxid, savebase := savebase, wx := ix % lpGridX p, wy := ix / lpGridX p % lpGridY p,
    wz := ix / (lpGridX p * lpGridY p), width := lpWidth p,
    groups := (upto 0 (lpGroups p)).map (fun g => Group.start p ix g recs), home := home, scratchBytes := 1024 * lpScratch p,
    scratch := [], tiles := List.replicate (lpTiles p) Tile.zero, ops := [],
    fifos := (upto 0 8).map (fun n => { cap := lpFifo p n, entries := [] }), context := lpSlice p, slice := Slice.start, view := [],
    copies := [], nbar := nbarBound, grabbed := false, aborted := none, preempting := false }

/-- The least context id that no resident or pre-empted workgroup holds (R246). -/
def State.freeCtx (s : State) : Nat := ((upto 0 (s.pkg.ctxids.length + 1)).find? (fun n => !s.pkg.ctxids.contains n)).getD 0

/-- Bytes of the save area of one context id: more than the layout of R265 takes of a workgroup that fits a core. -/
def saveAreaSize : Nat := 2 ^ 22

/-- The save area of a context id (R246, R265): 256-byte aligned, in die 0's second tier, apart from that of every other id. (DESIGN CHOICE, log
entry 19.) -/
def saveArea (ctx : Nat) : Nat :=
  0x100000000000 + Config.saveReserve % ((tier2Size - 2 ^ 16 * saveAreaSize) / 256) * 256 + ctx % 2 ^ 16 * saveAreaSize

/-! ## A word placed for the next step -/

/-- The launch packet of the placed word's workgroup: privileged, one group of 8 lanes, 64 granules, code at 0x30_0000 (log entry 10). -/
def placePacket : BitVec 512 :=
  BitVec.ofNat 512 (17 + 63 * 2 ^ 29 + 0x300000 / 128 * 2 ^ 64 + (1 + 2 ^ 21 + 2 ^ 42) * 2 ^ 192)

/-- The tables that translate ASID 1 to equal physical addresses, with every permission but P, and the code, written over a memory (R479 to R481). -/
def placeMemory (w : Nat) (m : List Host.Cell) : List Host.Cell :=
  let m := memPutList m 0x100010 (leBytes 8 (2 ^ 63 + 0x200000))
  let m := memPutList m 0x200000 (leBytes 8 (1 + 2 + 16 + 32 + 64))
  memPutList m 0x300000 (leBytes 4 w)

/-- The state in which the next step runs w as the first word of a resident workgroup (log entry 10). -/
def State.placeWord (s : State) (w : Nat) : State :=
  let wg := Workgroup.start s.nextId 0 placePacket 0 none 0 1 0 0 0 0 [0] []
  let s := { s with nextId := s.nextId + 1, mem := placeMemory w s.mem, agenda := Item.word :: Item.chainEnd :: s.agenda,
                    cur := { who := ⟨0, 0, s.nextId, 0⟩, mask := 0xFF, pc := 0x300000 / 4, snap := none, stall := 0, live := true,
                             waited := false, freed := [], rest := false } }
  let s := s.modPkg (fun p => { p with regs := { p.regs with asidbase := 0x100000 } })
  s.modCore 0 (fun k => { k with wgs := tset k.wgs 0 wg })

end Sys2Proof.Machine
end

