-- ==== Sys2Proof/Decode.lean ====
section
/-!
DEFINITION. The decoder of 32-bit words, total on any bits (R24, R34, R38, R40), and the encoder written from the same
tables. A word that no row of R38 assigns, or whose fields hold reserved values, is rejected by name; the machine then
raises ILLEGAL_OP (R40).
-/
namespace Sys2Proof

/-- Why a word is no instruction (R40). -/
inductive DecodeError where
  /-- Majors 0x1C to 0x1F. -/
  | unassignedMajor
  /-- No row of R38 fits: an unassigned FN, SUB or code, or a must-be-zero field that is nonzero. -/
  | unassigned
  /-- A row fits, but a field holds a value that the owning chapter reserves. -/
  | reserved
  deriving DecidableEq, Repr

/-- Bits lo+n-1..lo of a word. -/
def bits (w lo n : Nat) : Nat := w / 2 ^ lo % 2 ^ n

/-- The fields of `R3` in a word. -/
def readR3 (w : Nat) : R3 :=
  { c := bits w 31 1, d := bits w 21 5, a := bits w 16 5, b := bits w 11 5, l := bits w 10 1, m := bits w 9 1, g := bits w 6 3, s := bits w 3 3 }

/-- The fields of `R1` in a word. -/
def readR1 (w : Nat) : R1 :=
  { c := bits w 31 1, d := bits w 21 5, a := bits w 16 5, l := bits w 10 1, g := bits w 6 3, s := bits w 3 3 }

/-- The fields of `RCmp` in a word. -/
def readRCmp (w : Nat) : RCmp :=
  { c := bits w 31 1, q := bits w 21 3, a := bits w 16 5, b := bits w 11 5, l := bits w 10 1, m := bits w 9 1, g := bits w 6 3, s := bits w 3 3 }

/-- The fields of `RImm` in a word. -/
def readRImm (w : Nat) : RImm :=
  { c := bits w 31 1, d := bits w 21 5, a := bits w 16 5, i := bits w 7 9, l := bits w 6 1, s := bits w 3 3 }

/-- The fields of `RWide` in a word. -/
def readRWide (w : Nat) : RWide :=
  { c := bits w 31 1, d := bits w 21 5, i := bits w 3 18, s := bits w 0 3 }

/-- The fields of `RRnd` in a word. -/
def readRRnd (w : Nat) : RRnd :=
  { c := bits w 31 1, d := bits w 21 5, a := bits w 16 5, l := bits w 10 1, g := bits w 6 3, s := bits w 3 3, r := bits w 0 3 }

/-- The fields of `RCmp1` in a word. -/
def readRCmp1 (w : Nat) : RCmp1 :=
  { c := bits w 31 1, q := bits w 21 3, a := bits w 16 5, l := bits w 10 1, g := bits w 6 3, s := bits w 3 3 }

/-- The fields of `RQ2` in a word. -/
def readRQ2 (w : Nat) : RQ2 :=
  { c := bits w 31 1, q := bits w 21 3, x := bits w 16 3, y := bits w 11 3, g := bits w 6 3, s := bits w 3 3 }

/-- The fields of `RQ1` in a word. -/
def readRQ1 (w : Nat) : RQ1 :=
  { c := bits w 31 1, q := bits w 21 3, x := bits w 16 3, g := bits w 6 3, s := bits w 3 3 }

/-- The fields of `RQSet` in a word. -/
def readRQSet (w : Nat) : RQSet :=
  { c := bits w 31 1, q := bits w 21 3, k := bits w 11 2, g := bits w 6 3, s := bits w 3 3 }

/-- The fields of `MMem` in a word. -/
def readMMem (w : Nat) : MMem :=
  { c := bits w 31 1, d := bits w 21 5, a := bits w 16 5, o := bits w 11 5, z := bits w 8 3, s := bits w 5 3, h := bits w 3 2 }

/-- The fields of `MGran` in a word. -/
def readMGran (w : Nat) : MGran :=
  { c := bits w 31 1, d := bits w 21 5, a := bits w 16 5, o := bits w 11 5, s := bits w 5 3, h := bits w 3 2 }

/-- The fields of `AAtom` in a word. -/
def readAAtom (w : Nat) : AAtom :=
  { c := bits w 31 1, d := bits w 21 5, a := bits w 16 5, b := bits w 11 5, s := bits w 8 3, o := bits w 2 2, w := bits w 1 1, r := bits w 0 1 }

/-- The fields of `TMma` in a word. -/
def readTMma (w : Nat) : TMma :=
  { c := bits w 31 1, a := bits w 24 2, f := bits w 21 3, g := bits w 18 3, r := bits w 16 2, s := bits w 15 1, z := bits w 14 1 }

/-- Major 0x00 (R38). -/
noncomputable def decodeSys (w : Nat) : Option Instr :=
  if bits w 0 26 = 0 then
    some (.nop (bits w 31 1)) else
  if bits w 10 16 = 1024 then
    some (.trap (bits w 31 1) (bits w 0 10)) else
  if bits w 0 26 = 2097152 then
    some (.eret (bits w 31 1)) else
  if bits w 12 3 = 0 ∧ bits w 20 6 = 3 then
    some (.crr (bits w 31 1) (bits w 15 5) (bits w 0 12)) else
  if bits w 12 3 = 0 ∧ bits w 20 6 = 4 then
    some (.crw (bits w 31 1) (bits w 15 5) (bits w 0 12)) else
  if bits w 12 3 = 0 ∧ bits w 20 6 = 5 then
    some (.crset (bits w 31 1) (bits w 15 5) (bits w 0 12)) else
  if bits w 12 3 = 0 ∧ bits w 20 6 = 6 then
    some (.crclr (bits w 31 1) (bits w 15 5) (bits w 0 12)) else
  if bits w 3 23 = 917504 then
    some (.fence (bits w 31 1) (bits w 0 3)) else
  if bits w 3 23 = 917506 then
    some (.fenceAcq (bits w 31 1) (bits w 0 3)) else
  if bits w 3 23 = 917508 then
    some (.fenceRel (bits w 31 1) (bits w 0 3)) else
  if bits w 0 26 = 7340043 then
    some (.fenceLayer (bits w 31 1)) else
  if bits w 0 5 = 0 ∧ bits w 18 8 = 32 then
    some (.quota (bits w 31 1) (bits w 15 3) (bits w 10 5) (bits w 5 5)) else
  if bits w 16 10 = 144 then
    some (.sleep (bits w 31 1) (bits w 0 16)) else
  if bits w 0 10 = 0 ∧ bits w 15 11 = 320 then
    some (.tlbinvPage (bits w 31 1) (bits w 10 5)) else
  if bits w 0 26 = 10485761 then
    some (.tlbinvAsid (bits w 31 1)) else
  if bits w 0 26 = 10485762 then
    some (.tlbinvAll (bits w 31 1)) else
  if bits w 0 10 = 0 ∧ bits w 20 6 = 11 then
    some (.fwcallVersion (bits w 31 1) (bits w 15 5) (bits w 10 5)) else
  if bits w 0 10 = 1 ∧ bits w 20 6 = 11 then
    some (.fwcallTemperature (bits w 31 1) (bits w 15 5) (bits w 10 5)) else
  if bits w 0 10 = 2 ∧ bits w 20 6 = 11 then
    some (.fwcallForecast (bits w 31 1) (bits w 15 5) (bits w 10 5)) else
  if bits w 0 10 = 3 ∧ bits w 20 6 = 11 then
    some (.fwcallCap (bits w 31 1) (bits w 15 5) (bits w 10 5)) else
  if bits w 0 10 = 4 ∧ bits w 20 6 = 11 then
    some (.fwcallCounter (bits w 31 1) (bits w 15 5) (bits w 10 5)) else
  if bits w 0 10 = 5 ∧ bits w 20 6 = 11 then
    some (.fwcallHalfRow (bits w 31 1) (bits w 15 5) (bits w 10 5)) else
  if bits w 0 26 = 12582912 then
    some (.cacheIfetch (bits w 31 1)) else
  if bits w 0 26 = 12582913 then
    some (.cacheWb (bits w 31 1)) else
  if bits w 0 26 = 12582914 then
    some (.cacheWbinv (bits w 31 1)) else
  if bits w 8 2 = 0 ∧ bits w 20 6 = 11 then
    some (.fwcallUnlisted (bits w 31 1) (bits w 15 5) (bits w 10 5) (bits w 0 8)) else
  none

/-- Major 0x01 (R38). -/
noncomputable def decodeRep (w : Nat) : Option Instr :=
  if bits w 0 11 = 0 ∧ bits w 31 1 = 0 then
    some (.rep (bits w 20 6) (bits w 17 3) (bits w 14 3) (bits w 11 3)) else
  none

/-- Major 0x02 (R38). -/
def decodeIarith (w : Nat) : Option Instr :=
  if bits w 0 3 = 0 then
    some (.iadd (readR3 w)) else
  if bits w 0 3 = 1 then
    some (.isub (readR3 w)) else
  if bits w 0 3 = 2 then
    some (.imul (readR3 w)) else
  if bits w 0 3 = 3 then
    some (.imulh (readR3 w)) else
  if bits w 0 3 = 4 then
    some (.imulhn (readR3 w)) else
  if bits w 0 3 = 5 then
    some (.imad (readR3 w)) else
  if bits w 0 3 = 6 then
    some (.idiv (readR3 w)) else
  if bits w 0 3 = 7 then
    some (.idivn (readR3 w)) else
  none

/-- Major 0x03 (R38). -/
def decodeIlogic (w : Nat) : Option Instr :=
  if bits w 0 3 = 0 then
    some (.and (readR3 w)) else
  if bits w 0 3 = 1 then
    some (.or (readR3 w)) else
  if bits w 0 3 = 2 then
    some (.xor (readR3 w)) else
  if bits w 0 3 = 3 then
    some (.andn (readR3 w)) else
  if bits w 0 3 = 4 then
    some (.shl (readR3 w)) else
  if bits w 0 3 = 5 then
    some (.shr (readR3 w)) else
  if bits w 0 3 = 6 then
    some (.sar (readR3 w)) else
  if bits w 0 3 = 7 then
    some (.rotr (readR3 w)) else
  none

/-- Major 0x04 (R38). -/
def decodeIbits (w : Nat) : Option Instr :=
  if bits w 0 3 = 0 then
    some (.imin (readR3 w)) else
  if bits w 0 3 = 1 then
    some (.imax (readR3 w)) else
  if bits w 0 3 = 2 then
    some (.nmin (readR3 w)) else
  if bits w 0 3 = 3 then
    some (.nmax (readR3 w)) else
  if bits w 0 3 = 4 ∧ bits w 9 1 = 0 ∧ bits w 11 5 = 0 then
    some (.popc (readR1 w)) else
  if bits w 0 3 = 5 ∧ bits w 9 1 = 0 ∧ bits w 11 5 = 0 then
    some (.clz (readR1 w)) else
  if bits w 0 3 = 6 ∧ bits w 9 1 = 0 ∧ bits w 11 5 = 0 then
    some (.brev (readR1 w)) else
  if bits w 0 3 = 7 then
    some (.bfx (readR3 w)) else
  none

/-- Major 0x05 (R38). -/
def decodeIcmp (w : Nat) : Option Instr :=
  if bits w 0 3 = 0 ∧ bits w 24 2 = 0 then
    some (.icmpEq (readRCmp w)) else
  if bits w 0 3 = 1 ∧ bits w 24 2 = 0 then
    some (.icmpNe (readRCmp w)) else
  if bits w 0 3 = 2 ∧ bits w 24 2 = 0 then
    some (.icmpLt (readRCmp w)) else
  if bits w 0 3 = 3 ∧ bits w 24 2 = 0 then
    some (.icmpLe (readRCmp w)) else
  if bits w 0 3 = 4 ∧ bits w 24 2 = 0 then
    some (.icmpLtn (readRCmp w)) else
  if bits w 0 3 = 5 ∧ bits w 24 2 = 0 then
    some (.icmpLen (readRCmp w)) else
  if bits w 0 3 = 6 ∧ bits w 24 2 = 0 then
    some (.icmpTst (readRCmp w)) else
  if bits w 0 3 = 7 then
    some (.sel (readR3 w)) else
  none

/-- Major 0x06 (R38). -/
def decodeIimm (w : Nat) : Option Instr :=
  if bits w 0 3 = 0 then
    some (.iaddi (readRImm w)) else
  if bits w 0 3 = 1 then
    some (.andi (readRImm w)) else
  if bits w 0 3 = 2 then
    some (.ori (readRImm w)) else
  if bits w 0 3 = 3 then
    some (.xori (readRImm w)) else
  if bits w 0 3 = 4 then
    some (.shli (readRImm w)) else
  if bits w 0 3 = 5 then
    some (.shri (readRImm w)) else
  if bits w 0 3 = 6 then
    some (.sari (readRImm w)) else
  if bits w 0 3 = 7 then
    some (.imuli (readRImm w)) else
  none

/-- Major 0x07 (R38). -/
def decodeMovi (w : Nat) : Option Instr :=
  some (.movi (readRWide w))

/-- Major 0x08 (R38). -/
def decodeMovhi (w : Nat) : Option Instr :=
  some (.movhi (readRWide w))

/-- Major 0x09 (R38). -/
def decodeFarith (w : Nat) : Option Instr :=
  if bits w 0 3 = 0 then
    some (.fadd (readR3 w)) else
  if bits w 0 3 = 1 then
    some (.fsub (readR3 w)) else
  if bits w 0 3 = 2 then
    some (.fmul (readR3 w)) else
  if bits w 0 3 = 3 then
    some (.fma (readR3 w)) else
  if bits w 0 3 = 4 then
    some (.fms (readR3 w)) else
  if bits w 0 3 = 5 then
    some (.fnma (readR3 w)) else
  if bits w 0 3 = 6 then
    some (.fmin (readR3 w)) else
  if bits w 0 3 = 7 then
    some (.fmax (readR3 w)) else
  none

/-- Major 0x0A (R38). -/
def decodeFcmp (w : Nat) : Option Instr :=
  if bits w 0 3 = 0 ∧ bits w 24 2 = 0 then
    some (.fcmpLt (readRCmp w)) else
  if bits w 0 3 = 1 ∧ bits w 24 2 = 0 then
    some (.fcmpLe (readRCmp w)) else
  if bits w 0 3 = 2 ∧ bits w 24 2 = 0 then
    some (.fcmpEq (readRCmp w)) else
  if bits w 0 3 = 3 ∧ bits w 24 2 = 0 then
    some (.fcmpNe (readRCmp w)) else
  if bits w 0 3 = 4 ∧ bits w 24 2 = 0 then
    some (.fcmpGt (readRCmp w)) else
  if bits w 0 3 = 5 ∧ bits w 24 2 = 0 then
    some (.fcmpGe (readRCmp w)) else
  if bits w 0 3 = 6 ∧ bits w 24 2 = 0 then
    some (.fcmpUno (readRCmp w)) else
  none

/-- Major 0x0B (R38). -/
def decodeFunary (w : Nat) : Option Instr :=
  if bits w 9 1 = 0 ∧ bits w 11 5 = 0 then
    some (.fabs (readRRnd w)) else
  if bits w 9 1 = 0 ∧ bits w 11 5 = 1 then
    some (.fneg (readRRnd w)) else
  if bits w 9 1 = 0 ∧ bits w 11 5 = 2 then
    some (.fsqrt (readRRnd w)) else
  if bits w 9 1 = 0 ∧ bits w 11 5 = 3 then
    some (.frcp (readRRnd w)) else
  if bits w 9 1 = 0 ∧ bits w 11 5 = 4 then
    some (.frsq (readRRnd w)) else
  if bits w 9 1 = 0 ∧ bits w 11 5 = 5 then
    some (.fexp2 (readRRnd w)) else
  if bits w 9 1 = 0 ∧ bits w 11 5 = 6 then
    some (.flog2 (readRRnd w)) else
  if bits w 9 1 = 0 ∧ bits w 11 5 = 7 then
    some (.fsin (readRRnd w)) else
  if bits w 9 1 = 0 ∧ bits w 11 5 = 8 then
    some (.fcos (readRRnd w)) else
  if bits w 9 1 = 0 ∧ bits w 11 5 = 9 then
    some (.ffloor (readRRnd w)) else
  if bits w 9 1 = 0 ∧ bits w 11 5 = 10 then
    some (.fceil (readRRnd w)) else
  if bits w 9 1 = 0 ∧ bits w 11 5 = 11 then
    some (.frint (readRRnd w)) else
  if bits w 9 1 = 0 ∧ bits w 11 5 = 12 then
    some (.fclass (readRRnd w)) else
  if bits w 9 1 = 0 ∧ bits w 11 5 = 13 then
    some (.ivlo (readRRnd w)) else
  if bits w 9 1 = 0 ∧ bits w 11 5 = 14 then
    some (.ivhi (readRRnd w)) else
  if bits w 0 3 = 0 ∧ bits w 9 1 = 0 ∧ bits w 11 5 = 15 then
    some (.mov (readR1 w)) else
  none

/-- Major 0x0C (R38). -/
def decodeCvt (w : Nat) : Option Instr :=
  if bits w 9 1 = 0 ∧ bits w 11 5 = 0 then
    some (.cvtF64F32 (readRRnd w)) else
  if bits w 9 1 = 0 ∧ bits w 11 5 = 1 then
    some (.cvtF32F64 (readRRnd w)) else
  if bits w 9 1 = 0 ∧ bits w 11 5 = 2 then
    some (.cvtF32I32 (readRRnd w)) else
  if bits w 9 1 = 0 ∧ bits w 11 5 = 3 then
    some (.cvtF32N32 (readRRnd w)) else
  if bits w 9 1 = 0 ∧ bits w 11 5 = 4 then
    some (.cvtI32F32 (readRRnd w)) else
  if bits w 9 1 = 0 ∧ bits w 11 5 = 5 then
    some (.cvtN32F32 (readRRnd w)) else
  if bits w 9 1 = 0 ∧ bits w 11 5 = 6 then
    some (.cvtF64I64 (readRRnd w)) else
  if bits w 9 1 = 0 ∧ bits w 11 5 = 7 then
    some (.cvtI64F64 (readRRnd w)) else
  if bits w 9 1 = 0 ∧ bits w 11 5 = 8 then
    some (.cvtF32F16l (readRRnd w)) else
  if bits w 9 1 = 0 ∧ bits w 11 5 = 9 then
    some (.cvtF32F16h (readRRnd w)) else
  if bits w 9 1 = 0 ∧ bits w 11 5 = 10 then
    some (.cvtF32Bf16l (readRRnd w)) else
  if bits w 9 1 = 0 ∧ bits w 11 5 = 11 then
    some (.cvtF32Bf16h (readRRnd w)) else
  if bits w 9 1 = 0 ∧ bits w 11 5 = 12 then
    some (.cvtPkF16 (readRRnd w)) else
  if bits w 9 1 = 0 ∧ bits w 11 5 = 13 then
    some (.cvtPkBf16 (readRRnd w)) else
  if bits w 9 1 = 0 ∧ bits w 11 5 = 14 then
    some (.cvtPkE4m3 (readRRnd w)) else
  if bits w 9 1 = 0 ∧ bits w 11 5 = 15 then
    some (.cvtPkE5m2 (readRRnd w)) else
  if bits w 9 1 = 0 ∧ bits w 11 5 = 16 then
    some (.cvtUpE4m3 (readRRnd w)) else
  if bits w 9 1 = 0 ∧ bits w 11 5 = 17 then
    some (.cvtUpE5m2 (readRRnd w)) else
  if bits w 9 1 = 0 ∧ bits w 11 5 = 18 then
    some (.cvtPkQ4n (readRRnd w)) else
  if bits w 9 1 = 0 ∧ bits w 11 5 = 19 then
    some (.cvtUpQ4n (readRRnd w)) else
  if bits w 9 1 = 0 ∧ bits w 11 5 = 20 then
    some (.cvtPkI8 (readRRnd w)) else
  if bits w 9 1 = 0 ∧ bits w 11 5 = 21 then
    some (.cvtUpI8 (readRRnd w)) else
  if bits w 9 1 = 0 ∧ bits w 11 5 = 22 then
    some (.cvtI64I32 (readRRnd w)) else
  if bits w 9 1 = 0 ∧ bits w 11 5 = 23 then
    some (.cvtN64N32 (readRRnd w)) else
  if bits w 9 1 = 0 ∧ bits w 11 5 = 24 then
    some (.cvtI32I64 (readRRnd w)) else
  if bits w 9 1 = 0 ∧ bits w 11 5 = 25 then
    some (.sideGet (readRRnd w)) else
  if bits w 9 1 = 0 ∧ bits w 11 5 = 26 then
    some (.sideSet (readRRnd w)) else
  none

/-- Major 0x0D (R38). -/
def decodeIval (w : Nat) : Option Instr :=
  if bits w 0 3 = 0 then
    some (.ivmk (readR3 w)) else
  if bits w 0 3 = 1 then
    some (.ivhull (readR3 w)) else
  if bits w 0 3 = 2 then
    some (.ivmeet (readR3 w)) else
  if bits w 0 3 = 3 ∧ bits w 9 1 = 0 ∧ bits w 11 5 = 0 then
    some (.ivsqr (readR1 w)) else
  if bits w 0 3 = 4 ∧ bits w 9 1 = 0 ∧ bits w 11 5 = 0 then
    some (.ivmid (readR1 w)) else
  if bits w 0 3 = 5 ∧ bits w 9 1 = 0 ∧ bits w 11 5 = 0 then
    some (.ivrad (readR1 w)) else
  if bits w 0 3 = 6 ∧ bits w 9 1 = 0 ∧ bits w 11 5 = 0 then
    some (.ivsplit (readR1 w)) else
  if bits w 0 3 = 7 then
    some (.ivpown (readR3 w)) else
  none

/-- Major 0x0E (R38). -/
def decodeIvcmp (w : Nat) : Option Instr :=
  if bits w 0 3 = 0 ∧ bits w 24 2 = 0 then
    some (.clt (readRCmp w)) else
  if bits w 0 3 = 1 ∧ bits w 24 2 = 0 then
    some (.cle (readRCmp w)) else
  if bits w 0 3 = 2 ∧ bits w 24 2 = 0 then
    some (.ceq (readRCmp w)) else
  if bits w 0 3 = 3 ∧ bits w 24 2 = 0 then
    some (.subset (readRCmp w)) else
  if bits w 0 3 = 4 ∧ bits w 24 2 = 0 then
    some (.contains (readRCmp w)) else
  if bits w 0 3 = 5 ∧ bits w 24 2 = 0 then
    some (.disjoint (readRCmp w)) else
  if bits w 0 3 = 6 ∧ bits w 9 1 = 0 ∧ bits w 11 5 = 0 ∧ bits w 24 2 = 0 then
    some (.zin (readRCmp1 w)) else
  none

/-- Major 0x0F (R38). -/
def decodeQlogic (w : Nat) : Option Instr :=
  if bits w 0 3 = 0 ∧ bits w 9 2 = 0 ∧ bits w 14 2 = 0 ∧ bits w 19 2 = 0 ∧ bits w 24 2 = 0 then
    some (.qand (readRQ2 w)) else
  if bits w 0 3 = 1 ∧ bits w 9 2 = 0 ∧ bits w 14 2 = 0 ∧ bits w 19 2 = 0 ∧ bits w 24 2 = 0 then
    some (.qor (readRQ2 w)) else
  if bits w 0 3 = 2 ∧ bits w 9 7 = 0 ∧ bits w 19 2 = 0 ∧ bits w 24 2 = 0 then
    some (.qnot (readRQ1 w)) else
  if bits w 0 3 = 3 ∧ bits w 9 2 = 0 ∧ bits w 14 2 = 0 ∧ bits w 19 2 = 0 ∧ bits w 24 2 = 0 then
    some (.qxor (readRQ2 w)) else
  if bits w 0 3 = 4 ∧ bits w 9 7 = 0 ∧ bits w 19 2 = 0 ∧ bits w 24 2 = 0 then
    some (.qmov (readRQ1 w)) else
  if bits w 0 3 = 5 ∧ bits w 9 7 = 0 ∧ bits w 19 2 = 0 ∧ bits w 24 2 = 0 then
    some (.qdef (readRQ1 w)) else
  if bits w 0 3 = 6 ∧ bits w 9 2 = 0 ∧ bits w 14 2 = 0 ∧ bits w 19 2 = 0 ∧ bits w 24 2 = 0 then
    some (.qcons (readRQ2 w)) else
  if bits w 0 3 = 7 ∧ bits w 9 2 = 0 ∧ bits w 13 8 = 0 ∧ bits w 24 2 = 0 then
    some (.qset (readRQSet w)) else
  none

/-- Major 0x10 (R38). -/
def decodeBr (w : Nat) : Option Instr :=
  some (.br (bits w 31 1) (bits w 23 3) (bits w 21 2) (bits w 0 21))

/-- Major 0x11 (R38). -/
def decodeCtl (w : Nat) : Option Instr :=
  if bits w 20 6 = 0 then
    some (.call (bits w 31 1) (bits w 15 5) (bits w 0 15)) else
  if bits w 0 10 = 0 ∧ bits w 15 11 = 32 then
    some (.ret (bits w 31 1) (bits w 10 5)) else
  if bits w 0 4 = 0 ∧ bits w 5 5 = 0 ∧ bits w 20 6 = 2 then
    some (.jmpr (bits w 31 1) (bits w 15 5) (bits w 10 5) (bits w 4 1)) else
  if bits w 0 15 = 0 ∧ bits w 19 7 = 6 then
    some (.splitj (bits w 31 1) (bits w 15 4)) else
  if bits w 0 15 = 0 ∧ bits w 19 7 = 8 then
    some (.join (bits w 31 1) (bits w 15 4)) else
  if bits w 0 26 = 5242880 then
    some (.exit (bits w 31 1)) else
  if bits w 0 26 = 6291456 then
    some (.yield (bits w 31 1)) else
  if bits w 0 10 = 0 ∧ bits w 19 7 = 14 then
    some (.jmaskGet (bits w 31 1) (bits w 15 4) (bits w 10 5)) else
  if bits w 0 10 = 1 ∧ bits w 19 7 = 14 then
    some (.jmaskSet (bits w 31 1) (bits w 15 4) (bits w 10 5)) else
  if bits w 0 15 = 2 ∧ bits w 19 7 = 14 then
    some (.jmaskAdd (bits w 31 1) (bits w 15 4)) else
  if bits w 0 15 = 3 ∧ bits w 19 7 = 14 then
    some (.jmaskDel (bits w 31 1) (bits w 15 4)) else
  if bits w 0 15 = 4 ∧ bits w 19 7 = 14 then
    some (.jmaskClr (bits w 31 1) (bits w 15 4)) else
  none

/-- Major 0x12 (R38). -/
noncomputable def decodeGroup (w : Nat) : Option Instr :=
  if bits w 0 3 = 0 then
    some (.shfl (readR3 w)) else
  if bits w 0 3 = 1 then
    some (.shflu (readR3 w)) else
  if bits w 0 3 = 2 then
    some (.shfld (readR3 w)) else
  if bits w 0 3 = 3 then
    some (.shflx (readR3 w)) else
  if bits w 0 3 = 4 ∧ bits w 9 2 = 0 ∧ bits w 13 3 = 0 ∧ bits w 19 2 = 0 then
    some (.vote (bits w 31 1) (bits w 21 5) (bits w 16 3) (bits w 11 2) (bits w 6 3) (bits w 3 3)) else
  if bits w 0 3 = 5 ∧ bits w 9 1 = 0 ∧ bits w 11 5 = 0 then
    some (.gredIadd (readR1 w)) else
  if bits w 0 3 = 5 ∧ bits w 9 1 = 0 ∧ bits w 11 5 = 1 then
    some (.gredImin (readR1 w)) else
  if bits w 0 3 = 5 ∧ bits w 9 1 = 0 ∧ bits w 11 5 = 2 then
    some (.gredImax (readR1 w)) else
  if bits w 0 3 = 5 ∧ bits w 9 1 = 0 ∧ bits w 11 5 = 3 then
    some (.gredNmin (readR1 w)) else
  if bits w 0 3 = 5 ∧ bits w 9 1 = 0 ∧ bits w 11 5 = 4 then
    some (.gredNmax (readR1 w)) else
  if bits w 0 3 = 5 ∧ bits w 9 1 = 0 ∧ bits w 11 5 = 5 then
    some (.gredAnd (readR1 w)) else
  if bits w 0 3 = 5 ∧ bits w 9 1 = 0 ∧ bits w 11 5 = 6 then
    some (.gredOr (readR1 w)) else
  if bits w 0 3 = 5 ∧ bits w 9 1 = 0 ∧ bits w 11 5 = 7 then
    some (.gredXor (readR1 w)) else
  if bits w 0 3 = 5 ∧ bits w 9 1 = 0 ∧ bits w 11 5 = 8 then
    some (.gredFadd (readR1 w)) else
  if bits w 0 3 = 5 ∧ bits w 9 1 = 0 ∧ bits w 11 5 = 9 then
    some (.gredFmin (readR1 w)) else
  if bits w 0 3 = 5 ∧ bits w 9 1 = 0 ∧ bits w 11 5 = 10 then
    some (.gredFmax (readR1 w)) else
  if bits w 0 3 = 6 ∧ bits w 9 1 = 0 ∧ bits w 11 5 = 0 then
    some (.matchLanes (readR1 w)) else
  if bits w 0 3 = 7 ∧ bits w 9 1 = 0 ∧ bits w 11 15 = 0 then
    some (.gfence (bits w 31 1) (bits w 10 1) (bits w 6 3) (bits w 3 3)) else
  none

/-- Major 0x13 (R38). -/
noncomputable def decodeQuad (w : Nat) : Option Instr :=
  if bits w 0 3 = 0 ∧ bits w 9 1 = 0 ∧ bits w 11 5 = 0 then
    some (.qxh (readR1 w)) else
  if bits w 0 3 = 1 ∧ bits w 9 1 = 0 ∧ bits w 11 5 = 0 then
    some (.qxv (readR1 w)) else
  if bits w 0 3 = 2 ∧ bits w 9 1 = 0 ∧ bits w 11 5 = 0 then
    some (.qxd (readR1 w)) else
  if bits w 0 3 = 3 ∧ bits w 9 1 = 0 ∧ bits w 11 5 = 0 then
    some (.ddxc (readR1 w)) else
  if bits w 0 3 = 4 ∧ bits w 9 1 = 0 ∧ bits w 11 5 = 0 then
    some (.ddyc (readR1 w)) else
  if bits w 0 3 = 5 ∧ bits w 9 1 = 0 ∧ bits w 11 5 = 0 then
    some (.ddxf (readR1 w)) else
  if bits w 0 3 = 6 ∧ bits w 9 1 = 0 ∧ bits w 11 5 = 0 then
    some (.ddyf (readR1 w)) else
  if bits w 0 3 = 7 ∧ bits w 9 12 = 0 then
    some (.helpq (bits w 31 1) (bits w 21 5) (bits w 6 3) (bits w 3 3)) else
  none

/-- Major 0x14 (R38). -/
noncomputable def decodeMem (w : Nat) : Option Instr :=
  if bits w 0 3 = 0 then
    some (.ld (readMMem w)) else
  if bits w 0 3 = 1 then
    some (.st (readMMem w)) else
  if bits w 0 3 = 2 then
    some (.lda (readMMem w)) else
  if bits w 0 3 = 3 then
    some (.stl (readMMem w)) else
  if bits w 0 3 = 4 ∧ bits w 8 3 = 4 then
    some (.ldg (readMGran w)) else
  if bits w 0 3 = 5 ∧ bits w 8 3 = 4 then
    some (.stg (readMGran w)) else
  if bits w 0 3 = 6 ∧ bits w 8 3 = 0 ∧ bits w 21 5 = 0 then
    some (.pref (bits w 31 1) (bits w 16 5) (bits w 11 5) (bits w 5 3) (bits w 3 2)) else
  if bits w 0 5 = 7 ∧ bits w 8 3 = 0 ∧ bits w 21 5 = 0 then
    some (.lineWb (bits w 31 1) (bits w 16 5) (bits w 11 5) (bits w 5 3)) else
  if bits w 0 5 = 7 ∧ bits w 8 3 = 1 ∧ bits w 21 5 = 0 then
    some (.lineInv (bits w 31 1) (bits w 16 5) (bits w 11 5) (bits w 5 3)) else
  if bits w 0 5 = 7 ∧ bits w 8 3 = 2 ∧ bits w 21 5 = 0 then
    some (.lineWbinv (bits w 31 1) (bits w 16 5) (bits w 11 5) (bits w 5 3)) else
  if bits w 0 5 = 7 ∧ bits w 8 3 = 3 ∧ bits w 21 5 = 0 then
    some (.lineZero (bits w 31 1) (bits w 16 5) (bits w 11 5) (bits w 5 3)) else
  none

/-- Major 0x15 (R38). -/
noncomputable def decodeAtom (w : Nat) : Option Instr :=
  if bits w 4 4 = 0 then
    some (.atomAdd (readAAtom w)) else
  if bits w 4 4 = 1 then
    some (.atomMin (readAAtom w)) else
  if bits w 4 4 = 2 then
    some (.atomMax (readAAtom w)) else
  if bits w 4 4 = 3 then
    some (.atomNmin (readAAtom w)) else
  if bits w 4 4 = 4 then
    some (.atomNmax (readAAtom w)) else
  if bits w 4 4 = 5 then
    some (.atomAnd (readAAtom w)) else
  if bits w 4 4 = 6 then
    some (.atomOr (readAAtom w)) else
  if bits w 4 4 = 7 then
    some (.atomXor (readAAtom w)) else
  if bits w 4 4 = 8 then
    some (.atomXchg (readAAtom w)) else
  if bits w 4 4 = 9 then
    some (.atomCas (readAAtom w)) else
  if bits w 4 4 = 10 then
    some (.atomFadd (readAAtom w)) else
  if bits w 4 4 = 11 then
    some (.atomFmin (readAAtom w)) else
  if bits w 4 4 = 12 then
    some (.atomFmax (readAAtom w)) else
  if bits w 4 4 = 13 then
    some (.atomIncw (readAAtom w)) else
  if bits w 4 4 = 14 then
    some (.atomDecw (readAAtom w)) else
  none

/-- Major 0x16 (R38). -/
noncomputable def decodeAsync (w : Nat) : Option Instr :=
  if bits w 0 5 = 0 ∧ bits w 18 8 = 0 then
    some (.aslice (bits w 31 1) (bits w 15 3) (bits w 10 5) (bits w 5 5)) else
  if bits w 20 6 = 1 then
    some (.pusht (bits w 31 1) (bits w 17 3) (bits w 9 8) (bits w 5 4) (bits w 0 5)) else
  if bits w 0 2 = 0 ∧ bits w 20 6 = 2 then
    some (.copy (bits w 31 1) (bits w 15 5) (bits w 10 5) (bits w 2 8)) else
  if bits w 0 2 = 0 ∧ bits w 15 11 = 96 then
    some (.tidset (bits w 31 1) (bits w 10 5) (bits w 2 8)) else
  if bits w 0 2 = 0 ∧ bits w 15 11 = 128 then
    some (.tidget (bits w 31 1) (bits w 10 5) (bits w 2 8)) else
  if bits w 0 15 = 0 ∧ bits w 18 8 = 20 then
    some (.await (bits w 31 1) (bits w 15 3)) else
  none

/-- Major 0x17 (R38). -/
noncomputable def decodeSync (w : Nat) : Option Instr :=
  if bits w 4 6 = 0 ∧ bits w 15 11 = 0 then
    some (.qpush (bits w 31 1) (bits w 10 5) (bits w 0 4)) else
  if bits w 4 11 = 0 ∧ bits w 20 6 = 1 then
    some (.qpop (bits w 31 1) (bits w 15 5) (bits w 0 4)) else
  if bits w 4 1 = 0 ∧ bits w 8 7 = 0 ∧ bits w 20 6 = 2 then
    some (.qtry (bits w 31 1) (bits w 15 5) (bits w 5 3) (bits w 0 4)) else
  if bits w 0 5 = 0 ∧ bits w 15 11 = 96 then
    some (.swinit (bits w 31 1) (bits w 10 5) (bits w 5 5)) else
  if bits w 0 5 = 0 ∧ bits w 15 11 = 128 then
    some (.swadd (bits w 31 1) (bits w 10 5) (bits w 5 5)) else
  if bits w 0 5 = 0 ∧ bits w 15 11 = 160 then
    some (.swwait (bits w 31 1) (bits w 10 5) (bits w 5 5)) else
  if bits w 0 5 = 0 ∧ bits w 15 11 = 192 then
    some (.barinit (bits w 31 1) (bits w 10 5) (bits w 5 5)) else
  if bits w 0 5 = 0 ∧ bits w 20 6 = 7 then
    some (.barrive (bits w 31 1) (bits w 15 5) (bits w 10 5) (bits w 5 5)) else
  if bits w 0 5 = 0 ∧ bits w 20 6 = 8 then
    some (.bardrop (bits w 31 1) (bits w 15 5) (bits w 10 5) (bits w 5 5)) else
  if bits w 18 8 = 36 then
    some (.barwait (bits w 31 1) (bits w 15 3) (bits w 10 5) (bits w 5 5) (bits w 0 5)) else
  if bits w 3 7 = 0 ∧ bits w 20 6 = 10 then
    some (.nbarrive (bits w 31 1) (bits w 15 5) (bits w 10 5) (bits w 0 3)) else
  if bits w 3 7 = 64 ∧ bits w 20 6 = 10 then
    some (.nbarriveDrop (bits w 31 1) (bits w 15 5) (bits w 10 5) (bits w 0 3)) else
  if bits w 3 2 = 0 ∧ bits w 18 8 = 44 then
    some (.nbarwait (bits w 31 1) (bits w 15 3) (bits w 10 5) (bits w 5 5) (bits w 0 3)) else
  if bits w 3 2 = 0 ∧ bits w 18 8 = 48 then
    some (.nbarset (bits w 31 1) (bits w 15 3) (bits w 10 5) (bits w 5 5) (bits w 0 3)) else
  if bits w 1 9 = 0 ∧ bits w 20 6 = 13 then
    some (.acqp (bits w 31 1) (bits w 15 5) (bits w 10 5) (bits w 0 1)) else
  none

/-- Major 0x18 (R38). -/
noncomputable def decodeMat (w : Nat) : Option Instr :=
  if bits w 0 14 = 0 then
    some (.mma (readTMma w)) else
  if bits w 0 24 = 1 then
    some (.azero (bits w 31 1) (bits w 24 2)) else
  if bits w 0 15 = 2 then
    some (.areadF32 (bits w 31 1) (bits w 24 2) (bits w 19 5) (bits w 15 4)) else
  if bits w 0 15 = 8194 then
    some (.areadF64 (bits w 31 1) (bits w 24 2) (bits w 19 5) (bits w 15 4)) else
  if bits w 0 15 = 16386 then
    some (.areadI32 (bits w 31 1) (bits w 24 2) (bits w 19 5) (bits w 15 4)) else
  if bits w 0 15 = 24578 then
    some (.areadRaw (bits w 31 1) (bits w 24 2) (bits w 19 5) (bits w 15 4)) else
  if bits w 0 15 = 3 then
    some (.awriteF32 (bits w 31 1) (bits w 24 2) (bits w 19 5) (bits w 15 4)) else
  if bits w 0 15 = 8195 then
    some (.awriteF64 (bits w 31 1) (bits w 24 2) (bits w 19 5) (bits w 15 4)) else
  if bits w 0 15 = 16387 then
    some (.awriteI32 (bits w 31 1) (bits w 24 2) (bits w 19 5) (bits w 15 4)) else
  if bits w 0 15 = 24579 then
    some (.awriteRaw (bits w 31 1) (bits w 24 2) (bits w 19 5) (bits w 15 4)) else
  if bits w 0 14 = 4 then
    some (.smxu (bits w 31 1) (bits w 24 2) (bits w 21 3) (bits w 16 5) (bits w 14 2)) else
  if bits w 0 19 = 5 then
    some (.smxrM (bits w 31 1) (bits w 24 2) (bits w 19 5)) else
  if bits w 0 19 = 262149 then
    some (.smxrL (bits w 31 1) (bits w 24 2) (bits w 19 5)) else
  if bits w 0 19 = 131077 then
    some (.smxrSt (bits w 31 1) (bits w 24 2) (bits w 19 5)) else
  if bits w 0 26 = 6 then
    some (.mfence (bits w 31 1)) else
  if bits w 0 24 = 7 then
    some (.mwait (bits w 31 1) (bits w 24 2)) else
  none

/-- Major 0x19 (R38). -/
noncomputable def decodeChurn (w : Nat) : Option Instr :=
  if bits w 0 10 = 0 ∧ bits w 18 8 = 0 then
    some (.cboard (bits w 31 1) (bits w 15 3) (bits w 10 5)) else
  if bits w 18 8 = 4 then
    some (.cboardr (bits w 31 1) (bits w 15 3) (bits w 10 5) (bits w 5 5) (bits w 0 5)) else
  if bits w 0 10 = 0 ∧ bits w 20 6 = 2 then
    some (.calight (bits w 31 1) (bits w 15 5) (bits w 10 5)) else
  if bits w 0 5 = 0 ∧ bits w 20 6 = 3 then
    some (.ccapAdd (bits w 31 1) (bits w 15 5) (bits w 10 5) (bits w 5 5)) else
  if bits w 0 5 = 1 ∧ bits w 20 6 = 3 then
    some (.ccapSub (bits w 31 1) (bits w 15 5) (bits w 10 5) (bits w 5 5)) else
  if bits w 0 5 = 2 ∧ bits w 20 6 = 3 then
    some (.ccapMin (bits w 31 1) (bits w 15 5) (bits w 10 5) (bits w 5 5)) else
  if bits w 0 5 = 3 ∧ bits w 20 6 = 3 then
    some (.ccapMax (bits w 31 1) (bits w 15 5) (bits w 10 5) (bits w 5 5)) else
  if bits w 0 5 = 4 ∧ bits w 20 6 = 3 then
    some (.ccapAnd (bits w 31 1) (bits w 15 5) (bits w 10 5) (bits w 5 5)) else
  if bits w 0 5 = 5 ∧ bits w 20 6 = 3 then
    some (.ccapOr (bits w 31 1) (bits w 15 5) (bits w 10 5) (bits w 5 5)) else
  if bits w 0 5 = 6 ∧ bits w 20 6 = 3 then
    some (.ccapXchg (bits w 31 1) (bits w 15 5) (bits w 10 5) (bits w 5 5)) else
  if bits w 0 5 = 7 ∧ bits w 20 6 = 3 then
    some (.ccapCas (bits w 31 1) (bits w 15 5) (bits w 10 5) (bits w 5 5)) else
  if bits w 0 10 = 8 ∧ bits w 20 6 = 3 then
    some (.ccapDec (bits w 31 1) (bits w 15 5) (bits w 10 5)) else
  if bits w 0 10 = 0 ∧ bits w 20 6 = 4 then
    some (.cpeek (bits w 31 1) (bits w 15 5) (bits w 10 5)) else
  if bits w 2 3 = 0 ∧ bits w 20 6 = 5 then
    some (.cwait (bits w 31 1) (bits w 15 5) (bits w 10 5) (bits w 5 5) (bits w 0 2)) else
  none

/-- Major 0x1A (R38). -/
noncomputable def decodeGfx (w : Nat) : Option Instr :=
  if bits w 15 11 = 0 then
    some (.rast (bits w 31 1) (bits w 10 5) (bits w 5 5) (bits w 0 5)) else
  if bits w 0 10 = 0 ∧ bits w 15 11 = 32 then
    some (.rseal (bits w 31 1) (bits w 10 5)) else
  if bits w 0 5 = 0 ∧ bits w 20 6 = 2 then
    some (.bpush (bits w 31 1) (bits w 18 2) (bits w 15 3) (bits w 10 5) (bits w 5 5)) else
  if bits w 0 5 = 1 ∧ bits w 20 6 = 2 then
    some (.bpushHit (bits w 31 1) (bits w 18 2) (bits w 15 3) (bits w 10 5) (bits w 5 5)) else
  if bits w 18 8 = 12 then
    some (.bisect (bits w 31 1) (bits w 15 3) (bits w 10 5) (bits w 5 5) (bits w 0 5)) else
  if bits w 4 1 = 0 ∧ bits w 20 6 = 4 then
    some (.attr (bits w 31 1) (bits w 15 5) (bits w 10 5) (bits w 5 5) (bits w 0 4)) else
  if bits w 0 2 = 0 ∧ bits w 20 6 = 5 then
    some (.tex (bits w 31 1) (bits w 15 5) (bits w 10 5) (bits w 2 8)) else
  if bits w 0 2 = 0 ∧ bits w 20 6 = 6 then
    some (.texl (bits w 31 1) (bits w 15 5) (bits w 10 5) (bits w 2 8)) else
  if bits w 0 2 = 0 ∧ bits w 20 6 = 7 then
    some (.texg (bits w 31 1) (bits w 15 5) (bits w 10 5) (bits w 2 8)) else
  if bits w 0 10 = 0 ∧ bits w 15 11 = 256 then
    some (.bflush (bits w 31 1) (bits w 10 5)) else
  if bits w 0 26 = 8388609 then
    some (.bflushAll (bits w 31 1)) else
  none

/-- Major 0x1B (R38). -/
noncomputable def decodeLaunch (w : Nat) : Option Instr :=
  if bits w 0 5 = 0 ∧ bits w 18 8 = 0 then
    some (.enq (bits w 31 1) (bits w 15 3) (bits w 10 5) (bits w 5 5)) else
  if bits w 4 11 = 0 ∧ bits w 20 6 = 1 then
    some (.rgrab (bits w 31 1) (bits w 15 5) (bits w 0 4)) else
  if bits w 4 1 = 1 ∧ bits w 15 11 = 32 then
    some (.rgrabSet (bits w 31 1) (bits w 10 5) (bits w 5 5) (bits w 0 4)) else
  if bits w 5 10 = 0 ∧ bits w 20 6 = 2 then
    some (.sread (bits w 31 1) (bits w 15 5) (bits w 0 5)) else
  if bits w 0 15 = 0 ∧ bits w 20 6 = 3 then
    some (.time (bits w 31 1) (bits w 15 5)) else
  if bits w 0 15 = 0 ∧ bits w 20 6 = 4 then
    some (.energy (bits w 31 1) (bits w 15 5)) else
  if bits w 0 10 = 16 ∧ bits w 20 6 = 4 then
    some (.energyQ (bits w 31 1) (bits w 15 5) (bits w 10 5)) else
  none

/-- The row of R38 that fits a word, before the reserved values of its fields are looked at. -/
noncomputable def decodeRow (w : Nat) : Option Instr :=
  if bits w 26 5 = 0 then decodeSys w else
  if bits w 26 5 = 1 then decodeRep w else
  if bits w 26 5 = 2 then decodeIarith w else
  if bits w 26 5 = 3 then decodeIlogic w else
  if bits w 26 5 = 4 then decodeIbits w else
  if bits w 26 5 = 5 then decodeIcmp w else
  if bits w 26 5 = 6 then decodeIimm w else
  if bits w 26 5 = 7 then decodeMovi w else
  if bits w 26 5 = 8 then decodeMovhi w else
  if bits w 26 5 = 9 then decodeFarith w else
  if bits w 26 5 = 10 then decodeFcmp w else
  if bits w 26 5 = 11 then decodeFunary w else
  if bits w 26 5 = 12 then decodeCvt w else
  if bits w 26 5 = 13 then decodeIval w else
  if bits w 26 5 = 14 then decodeIvcmp w else
  if bits w 26 5 = 15 then decodeQlogic w else
  if bits w 26 5 = 16 then decodeBr w else
  if bits w 26 5 = 17 then decodeCtl w else
  if bits w 26 5 = 18 then decodeGroup w else
  if bits w 26 5 = 19 then decodeQuad w else
  if bits w 26 5 = 20 then decodeMem w else
  if bits w 26 5 = 21 then decodeAtom w else
  if bits w 26 5 = 22 then decodeAsync w else
  if bits w 26 5 = 23 then decodeSync w else
  if bits w 26 5 = 24 then decodeMat w else
  if bits w 26 5 = 25 then decodeChurn w else
  if bits w 26 5 = 26 then decodeGfx w else
  if bits w 26 5 = 27 then decodeLaunch w else
  none

/-- The decoder (R38, R40): the instruction of a 32-bit word, or why there is none. (DESIGN CHOICE, log entry 12.) -/
noncomputable def decode (w : Nat) : Except DecodeError Instr :=
  match decodeRow w with
  | none => if 0x1C ≤ bits w 26 5 then .error .unassignedMajor else .error .unassigned
  | some i => if i.wf then .ok i else .error .reserved

/-- The word of four bytes at consecutive addresses, the lowest first (R21). -/
def wordOfBytes (b0 b1 b2 b3 : Byte) : Nat :=
  b0.toNat + 256 * b1.toNat + 65536 * b2.toNat + 16777216 * b3.toNat

/-- Byte k of a word laid out little-endian (R21). -/
def byteOfWord (w k : Nat) : Byte := BitVec.ofNat 8 (w / 256 ^ k)

/-- What the decoder reads from the bytes of a word numbered as the opcode table numbers it. -/
noncomputable def decodeTableWord (_nbits w : Nat) : Option Instr :=
  match decode (wordOfBytes (byteOfWord w 0) (byteOfWord w 1) (byteOfWord w 2) (byteOfWord w 3)) with
  | .ok i => some i
  | .error _ => none

/-- The bits of `R3` in their places (R34). -/
def R3.place (f : R3) : Nat :=
  f.c * 2147483648 + f.d * 2097152 + f.a * 65536 + f.b * 2048 + f.l * 1024 + f.m * 512 + f.g * 64 + f.s * 8

/-- The bits of `R1` in their places (R34). -/
def R1.place (f : R1) : Nat :=
  f.c * 2147483648 + f.d * 2097152 + f.a * 65536 + f.l * 1024 + f.g * 64 + f.s * 8

/-- The bits of `RCmp` in their places (R34). -/
def RCmp.place (f : RCmp) : Nat :=
  f.c * 2147483648 + f.q * 2097152 + f.a * 65536 + f.b * 2048 + f.l * 1024 + f.m * 512 + f.g * 64 + f.s * 8

/-- The bits of `RImm` in their places (R34). -/
def RImm.place (f : RImm) : Nat :=
  f.c * 2147483648 + f.d * 2097152 + f.a * 65536 + f.i * 128 + f.l * 64 + f.s * 8

/-- The bits of `RWide` in their places (R34). -/
def RWide.place (f : RWide) : Nat :=
  f.c * 2147483648 + f.d * 2097152 + f.i * 8 + f.s

/-- The bits of `RRnd` in their places (R34). -/
def RRnd.place (f : RRnd) : Nat :=
  f.c * 2147483648 + f.d * 2097152 + f.a * 65536 + f.l * 1024 + f.g * 64 + f.s * 8 + f.r

/-- The bits of `RCmp1` in their places (R34). -/
def RCmp1.place (f : RCmp1) : Nat :=
  f.c * 2147483648 + f.q * 2097152 + f.a * 65536 + f.l * 1024 + f.g * 64 + f.s * 8

/-- The bits of `RQ2` in their places (R34). -/
def RQ2.place (f : RQ2) : Nat :=
  f.c * 2147483648 + f.q * 2097152 + f.x * 65536 + f.y * 2048 + f.g * 64 + f.s * 8

/-- The bits of `RQ1` in their places (R34). -/
def RQ1.place (f : RQ1) : Nat :=
  f.c * 2147483648 + f.q * 2097152 + f.x * 65536 + f.g * 64 + f.s * 8

/-- The bits of `RQSet` in their places (R34). -/
def RQSet.place (f : RQSet) : Nat :=
  f.c * 2147483648 + f.q * 2097152 + f.k * 2048 + f.g * 64 + f.s * 8

/-- The bits of `MMem` in their places (R34). -/
def MMem.place (f : MMem) : Nat :=
  f.c * 2147483648 + f.d * 2097152 + f.a * 65536 + f.o * 2048 + f.z * 256 + f.s * 32 + f.h * 8

/-- The bits of `MGran` in their places (R34). -/
def MGran.place (f : MGran) : Nat :=
  f.c * 2147483648 + f.d * 2097152 + f.a * 65536 + f.o * 2048 + f.s * 32 + f.h * 8

/-- The bits of `AAtom` in their places (R34). -/
def AAtom.place (f : AAtom) : Nat :=
  f.c * 2147483648 + f.d * 2097152 + f.a * 65536 + f.b * 2048 + f.s * 256 + f.o * 4 + f.w * 2 + f.r

/-- The bits of `TMma` in their places (R34). -/
def TMma.place (f : TMma) : Nat :=
  f.c * 2147483648 + f.a * 16777216 + f.f * 2097152 + f.g * 262144 + f.r * 65536 + f.s * 32768 + f.z * 16384

/-- The word of an instruction, from the tables of R34 and R38; an event has no word. -/
def encode : Instr → Nat
  | .iadd f => 0x8000000 + f.place
  | .isub f => 0x8000001 + f.place
  | .imul f => 0x8000002 + f.place
  | .imulh f => 0x8000003 + f.place
  | .imulhn f => 0x8000004 + f.place
  | .imad f => 0x8000005 + f.place
  | .idiv f => 0x8000006 + f.place
  | .idivn f => 0x8000007 + f.place
  | .and f => 0xC000000 + f.place
  | .or f => 0xC000001 + f.place
  | .xor f => 0xC000002 + f.place
  | .andn f => 0xC000003 + f.place
  | .shl f => 0xC000004 + f.place
  | .shr f => 0xC000005 + f.place
  | .sar f => 0xC000006 + f.place
  | .rotr f => 0xC000007 + f.place
  | .imin f => 0x10000000 + f.place
  | .imax f => 0x10000001 + f.place
  | .nmin f => 0x10000002 + f.place
  | .nmax f => 0x10000003 + f.place
  | .popc f => 0x10000004 + f.place
  | .clz f => 0x10000005 + f.place
  | .brev f => 0x10000006 + f.place
  | .bfx f => 0x10000007 + f.place
  | .icmpEq f => 0x14000000 + f.place
  | .icmpNe f => 0x14000001 + f.place
  | .icmpLt f => 0x14000002 + f.place
  | .icmpLe f => 0x14000003 + f.place
  | .icmpLtn f => 0x14000004 + f.place
  | .icmpLen f => 0x14000005 + f.place
  | .icmpTst f => 0x14000006 + f.place
  | .sel f => 0x14000007 + f.place
  | .iaddi f => 0x18000000 + f.place
  | .andi f => 0x18000001 + f.place
  | .ori f => 0x18000002 + f.place
  | .xori f => 0x18000003 + f.place
  | .shli f => 0x18000004 + f.place
  | .shri f => 0x18000005 + f.place
  | .sari f => 0x18000006 + f.place
  | .imuli f => 0x18000007 + f.place
  | .movi f => 0x1C000000 + f.place
  | .movhi f => 0x20000000 + f.place
  | .fadd f => 0x24000000 + f.place
  | .fsub f => 0x24000001 + f.place
  | .fmul f => 0x24000002 + f.place
  | .fma f => 0x24000003 + f.place
  | .fms f => 0x24000004 + f.place
  | .fnma f => 0x24000005 + f.place
  | .fmin f => 0x24000006 + f.place
  | .fmax f => 0x24000007 + f.place
  | .fcmpLt f => 0x28000000 + f.place
  | .fcmpLe f => 0x28000001 + f.place
  | .fcmpEq f => 0x28000002 + f.place
  | .fcmpNe f => 0x28000003 + f.place
  | .fcmpGt f => 0x28000004 + f.place
  | .fcmpGe f => 0x28000005 + f.place
  | .fcmpUno f => 0x28000006 + f.place
  | .fabs f => 0x2C000000 + f.place
  | .fneg f => 0x2C000800 + f.place
  | .fsqrt f => 0x2C001000 + f.place
  | .frcp f => 0x2C001800 + f.place
  | .frsq f => 0x2C002000 + f.place
  | .fexp2 f => 0x2C002800 + f.place
  | .flog2 f => 0x2C003000 + f.place
  | .fsin f => 0x2C003800 + f.place
  | .fcos f => 0x2C004000 + f.place
  | .ffloor f => 0x2C004800 + f.place
  | .fceil f => 0x2C005000 + f.place
  | .frint f => 0x2C005800 + f.place
  | .fclass f => 0x2C006000 + f.place
  | .ivlo f => 0x2C006800 + f.place
  | .ivhi f => 0x2C007000 + f.place
  | .mov f => 0x2C007800 + f.place
  | .cvtF64F32 f => 0x30000000 + f.place
  | .cvtF32F64 f => 0x30000800 + f.place
  | .cvtF32I32 f => 0x30001000 + f.place
  | .cvtF32N32 f => 0x30001800 + f.place
  | .cvtI32F32 f => 0x30002000 + f.place
  | .cvtN32F32 f => 0x30002800 + f.place
  | .cvtF64I64 f => 0x30003000 + f.place
  | .cvtI64F64 f => 0x30003800 + f.place
  | .cvtF32F16l f => 0x30004000 + f.place
  | .cvtF32F16h f => 0x30004800 + f.place
  | .cvtF32Bf16l f => 0x30005000 + f.place
  | .cvtF32Bf16h f => 0x30005800 + f.place
  | .cvtPkF16 f => 0x30006000 + f.place
  | .cvtPkBf16 f => 0x30006800 + f.place
  | .cvtPkE4m3 f => 0x30007000 + f.place
  | .cvtPkE5m2 f => 0x30007800 + f.place
  | .cvtUpE4m3 f => 0x30008000 + f.place
  | .cvtUpE5m2 f => 0x30008800 + f.place
  | .cvtPkQ4n f => 0x30009000 + f.place
  | .cvtUpQ4n f => 0x30009800 + f.place
  | .cvtPkI8 f => 0x3000A000 + f.place
  | .cvtUpI8 f => 0x3000A800 + f.place
  | .cvtI64I32 f => 0x3000B000 + f.place
  | .cvtN64N32 f => 0x3000B800 + f.place
  | .cvtI32I64 f => 0x3000C000 + f.place
  | .sideGet f => 0x3000C800 + f.place
  | .sideSet f => 0x3000D000 + f.place
  | .ivmk f => 0x34000000 + f.place
  | .ivhull f => 0x34000001 + f.place
  | .ivmeet f => 0x34000002 + f.place
  | .ivsqr f => 0x34000003 + f.place
  | .ivmid f => 0x34000004 + f.place
  | .ivrad f => 0x34000005 + f.place
  | .ivsplit f => 0x34000006 + f.place
  | .ivpown f => 0x34000007 + f.place
  | .clt f => 0x38000000 + f.place
  | .cle f => 0x38000001 + f.place
  | .ceq f => 0x38000002 + f.place
  | .subset f => 0x38000003 + f.place
  | .contains f => 0x38000004 + f.place
  | .disjoint f => 0x38000005 + f.place
  | .zin f => 0x38000006 + f.place
  | .qand f => 0x3C000000 + f.place
  | .qor f => 0x3C000001 + f.place
  | .qnot f => 0x3C000002 + f.place
  | .qxor f => 0x3C000003 + f.place
  | .qmov f => 0x3C000004 + f.place
  | .qdef f => 0x3C000005 + f.place
  | .qcons f => 0x3C000006 + f.place
  | .qset f => 0x3C000007 + f.place
  | .br c q k o => 0x40000000 + c * 2147483648 + q * 8388608 + k * 2097152 + o
  | .call c d o => 0x44000000 + c * 2147483648 + d * 32768 + o
  | .ret c a => 0x44100000 + c * 2147483648 + a * 1024
  | .jmpr c d a l => 0x44200000 + c * 2147483648 + d * 32768 + a * 1024 + l * 16
  | .splitj c j => 0x44300000 + c * 2147483648 + j * 32768
  | .join c j => 0x44400000 + c * 2147483648 + j * 32768
  | .exit c => 0x44500000 + c * 2147483648
  | .yield c => 0x44600000 + c * 2147483648
  | .jmaskGet c j d => 0x44700000 + c * 2147483648 + j * 32768 + d * 1024
  | .jmaskSet c j a => 0x44700001 + c * 2147483648 + j * 32768 + a * 1024
  | .jmaskAdd c j => 0x44700002 + c * 2147483648 + j * 32768
  | .jmaskDel c j => 0x44700003 + c * 2147483648 + j * 32768
  | .jmaskClr c j => 0x44700004 + c * 2147483648 + j * 32768
  | .shfl f => 0x48000000 + f.place
  | .shflu f => 0x48000001 + f.place
  | .shfld f => 0x48000002 + f.place
  | .shflx f => 0x48000003 + f.place
  | .vote c d q k g s => 0x48000004 + c * 2147483648 + d * 2097152 + q * 65536 + k * 2048 + g * 64 + s * 8
  | .gredIadd f => 0x48000005 + f.place
  | .gredImin f => 0x48000805 + f.place
  | .gredImax f => 0x48001005 + f.place
  | .gredNmin f => 0x48001805 + f.place
  | .gredNmax f => 0x48002005 + f.place
  | .gredAnd f => 0x48002805 + f.place
  | .gredOr f => 0x48003005 + f.place
  | .gredXor f => 0x48003805 + f.place
  | .gredFadd f => 0x48004005 + f.place
  | .gredFmin f => 0x48004805 + f.place
  | .gredFmax f => 0x48005005 + f.place
  | .matchLanes f => 0x48000006 + f.place
  | .gfence c l g s => 0x48000007 + c * 2147483648 + l * 1024 + g * 64 + s * 8
  | .qxh f => 0x4C000000 + f.place
  | .qxv f => 0x4C000001 + f.place
  | .qxd f => 0x4C000002 + f.place
  | .ddxc f => 0x4C000003 + f.place
  | .ddyc f => 0x4C000004 + f.place
  | .ddxf f => 0x4C000005 + f.place
  | .ddyf f => 0x4C000006 + f.place
  | .helpq c d g s => 0x4C000007 + c * 2147483648 + d * 2097152 + g * 64 + s * 8
  | .ld f => 0x50000000 + f.place
  | .st f => 0x50000001 + f.place
  | .lda f => 0x50000002 + f.place
  | .stl f => 0x50000003 + f.place
  | .ldg f => 0x50000404 + f.place
  | .stg f => 0x50000405 + f.place
  | .pref c a o s h => 0x50000006 + c * 2147483648 + a * 65536 + o * 2048 + s * 32 + h * 8
  | .lineWb c a o s => 0x50000007 + c * 2147483648 + a * 65536 + o * 2048 + s * 32
  | .lineInv c a o s => 0x50000107 + c * 2147483648 + a * 65536 + o * 2048 + s * 32
  | .lineWbinv c a o s => 0x50000207 + c * 2147483648 + a * 65536 + o * 2048 + s * 32
  | .lineZero c a o s => 0x50000307 + c * 2147483648 + a * 65536 + o * 2048 + s * 32
  | .atomAdd f => 0x54000000 + f.place
  | .atomMin f => 0x54000010 + f.place
  | .atomMax f => 0x54000020 + f.place
  | .atomNmin f => 0x54000030 + f.place
  | .atomNmax f => 0x54000040 + f.place
  | .atomAnd f => 0x54000050 + f.place
  | .atomOr f => 0x54000060 + f.place
  | .atomXor f => 0x54000070 + f.place
  | .atomXchg f => 0x54000080 + f.place
  | .atomCas f => 0x54000090 + f.place
  | .atomFadd f => 0x540000A0 + f.place
  | .atomFmin f => 0x540000B0 + f.place
  | .atomFmax f => 0x540000C0 + f.place
  | .atomIncw f => 0x540000D0 + f.place
  | .atomDecw f => 0x540000E0 + f.place
  | .nop c => c * 2147483648
  | .trap c k => 0x100000 + c * 2147483648 + k
  | .eret c => 0x200000 + c * 2147483648
  | .crr c d r => 0x300000 + c * 2147483648 + d * 32768 + r
  | .crw c a r => 0x400000 + c * 2147483648 + a * 32768 + r
  | .crset c a r => 0x500000 + c * 2147483648 + a * 32768 + r
  | .crclr c a r => 0x600000 + c * 2147483648 + a * 32768 + r
  | .fence c s => 0x700000 + c * 2147483648 + s
  | .fenceAcq c s => 0x700010 + c * 2147483648 + s
  | .fenceRel c s => 0x700020 + c * 2147483648 + s
  | .fenceLayer c => 0x70000B + c * 2147483648
  | .quota c q a b => 0x800000 + c * 2147483648 + q * 32768 + a * 1024 + b * 32
  | .sleep c n => 0x900000 + c * 2147483648 + n
  | .tlbinvPage c a => 0xA00000 + c * 2147483648 + a * 1024
  | .tlbinvAsid c => 0xA00001 + c * 2147483648
  | .tlbinvAll c => 0xA00002 + c * 2147483648
  | .fwcallVersion c d a => 0xB00000 + c * 2147483648 + d * 32768 + a * 1024
  | .fwcallTemperature c d a => 0xB00001 + c * 2147483648 + d * 32768 + a * 1024
  | .fwcallForecast c d a => 0xB00002 + c * 2147483648 + d * 32768 + a * 1024
  | .fwcallCap c d a => 0xB00003 + c * 2147483648 + d * 32768 + a * 1024
  | .fwcallCounter c d a => 0xB00004 + c * 2147483648 + d * 32768 + a * 1024
  | .fwcallHalfRow c d a => 0xB00005 + c * 2147483648 + d * 32768 + a * 1024
  | .fwcallUnlisted c d a s => 0xB00000 + c * 2147483648 + d * 32768 + a * 1024 + s
  | .cacheIfetch c => 0xC00000 + c * 2147483648
  | .cacheWb c => 0xC00001 + c * 2147483648
  | .cacheWbinv c => 0xC00002 + c * 2147483648
  | .rep n d a b => 0x4000000 + n * 1048576 + d * 131072 + a * 16384 + b * 2048
  | .aslice c q a b => 0x58000000 + c * 2147483648 + q * 32768 + a * 1024 + b * 32
  | .pusht c f t x n => 0x58100000 + c * 2147483648 + f * 131072 + t * 512 + x * 32 + n
  | .copy c a b m => 0x58200000 + c * 2147483648 + a * 32768 + b * 1024 + m * 4
  | .tidset c a i => 0x58300000 + c * 2147483648 + a * 1024 + i * 4
  | .tidget c a i => 0x58400000 + c * 2147483648 + a * 1024 + i * 4
  | .await c q => 0x58500000 + c * 2147483648 + q * 32768
  | .qpush c a n => 0x5C000000 + c * 2147483648 + a * 1024 + n
  | .qpop c d n => 0x5C100000 + c * 2147483648 + d * 32768 + n
  | .qtry c d q n => 0x5C200000 + c * 2147483648 + d * 32768 + q * 32 + n
  | .swinit c a b => 0x5C300000 + c * 2147483648 + a * 1024 + b * 32
  | .swadd c a b => 0x5C400000 + c * 2147483648 + a * 1024 + b * 32
  | .swwait c a b => 0x5C500000 + c * 2147483648 + a * 1024 + b * 32
  | .barinit c a b => 0x5C600000 + c * 2147483648 + a * 1024 + b * 32
  | .barrive c d a b => 0x5C700000 + c * 2147483648 + d * 32768 + a * 1024 + b * 32
  | .bardrop c d a b => 0x5C800000 + c * 2147483648 + d * 32768 + a * 1024 + b * 32
  | .barwait c q a b e => 0x5C900000 + c * 2147483648 + q * 32768 + a * 1024 + b * 32 + e
  | .nbarrive c d a k => 0x5CA00000 + c * 2147483648 + d * 32768 + a * 1024 + k
  | .nbarriveDrop c d a k => 0x5CA00200 + c * 2147483648 + d * 32768 + a * 1024 + k
  | .nbarwait c q a e k => 0x5CB00000 + c * 2147483648 + q * 32768 + a * 1024 + e * 32 + k
  | .nbarset c q a b k => 0x5CC00000 + c * 2147483648 + q * 32768 + a * 1024 + b * 32 + k
  | .acqp c d a z => 0x5CD00000 + c * 2147483648 + d * 32768 + a * 1024 + z
  | .mma f => 0x60000000 + f.place
  | .azero c a => 0x60000001 + c * 2147483648 + a * 16777216
  | .areadF32 c a d k => 0x60000002 + c * 2147483648 + a * 16777216 + d * 524288 + k * 32768
  | .areadF64 c a d k => 0x60002002 + c * 2147483648 + a * 16777216 + d * 524288 + k * 32768
  | .areadI32 c a d k => 0x60004002 + c * 2147483648 + a * 16777216 + d * 524288 + k * 32768
  | .areadRaw c a d k => 0x60006002 + c * 2147483648 + a * 16777216 + d * 524288 + k * 32768
  | .awriteF32 c a v k => 0x60000003 + c * 2147483648 + a * 16777216 + v * 524288 + k * 32768
  | .awriteF64 c a v k => 0x60002003 + c * 2147483648 + a * 16777216 + v * 524288 + k * 32768
  | .awriteI32 c a v k => 0x60004003 + c * 2147483648 + a * 16777216 + v * 524288 + k * 32768
  | .awriteRaw c a v k => 0x60006003 + c * 2147483648 + a * 16777216 + v * 524288 + k * 32768
  | .smxu c a f v p => 0x60000004 + c * 2147483648 + a * 16777216 + f * 2097152 + v * 65536 + p * 16384
  | .smxrM c a d => 0x60000005 + c * 2147483648 + a * 16777216 + d * 524288
  | .smxrL c a d => 0x60040005 + c * 2147483648 + a * 16777216 + d * 524288
  | .smxrSt c a d => 0x60020005 + c * 2147483648 + a * 16777216 + d * 524288
  | .mfence c => 0x60000006 + c * 2147483648
  | .mwait c a => 0x60000007 + c * 2147483648 + a * 16777216
  | .cboard c q a => 0x64000000 + c * 2147483648 + q * 32768 + a * 1024
  | .cboardr c q a b e => 0x64100000 + c * 2147483648 + q * 32768 + a * 1024 + b * 32 + e
  | .calight c d a => 0x64200000 + c * 2147483648 + d * 32768 + a * 1024
  | .ccapAdd c d a b => 0x64300000 + c * 2147483648 + d * 32768 + a * 1024 + b * 32
  | .ccapSub c d a b => 0x64300001 + c * 2147483648 + d * 32768 + a * 1024 + b * 32
  | .ccapMin c d a b => 0x64300002 + c * 2147483648 + d * 32768 + a * 1024 + b * 32
  | .ccapMax c d a b => 0x64300003 + c * 2147483648 + d * 32768 + a * 1024 + b * 32
  | .ccapAnd c d a b => 0x64300004 + c * 2147483648 + d * 32768 + a * 1024 + b * 32
  | .ccapOr c d a b => 0x64300005 + c * 2147483648 + d * 32768 + a * 1024 + b * 32
  | .ccapXchg c d a b => 0x64300006 + c * 2147483648 + d * 32768 + a * 1024 + b * 32
  | .ccapCas c d a b => 0x64300007 + c * 2147483648 + d * 32768 + a * 1024 + b * 32
  | .ccapDec c d a => 0x64300008 + c * 2147483648 + d * 32768 + a * 1024
  | .cpeek c d a => 0x64400000 + c * 2147483648 + d * 32768 + a * 1024
  | .cwait c d a b k => 0x64500000 + c * 2147483648 + d * 32768 + a * 1024 + b * 32 + k
  | .rast c a b e => 0x68000000 + c * 2147483648 + a * 1024 + b * 32 + e
  | .rseal c a => 0x68100000 + c * 2147483648 + a * 1024
  | .bpush c k q a b => 0x68200000 + c * 2147483648 + k * 262144 + q * 32768 + a * 1024 + b * 32
  | .bpushHit c k q a b => 0x68200001 + c * 2147483648 + k * 262144 + q * 32768 + a * 1024 + b * 32
  | .bisect c q a b e => 0x68300000 + c * 2147483648 + q * 32768 + a * 1024 + b * 32 + e
  | .attr c d a b j => 0x68400000 + c * 2147483648 + d * 32768 + a * 1024 + b * 32 + j
  | .tex c d a t => 0x68500000 + c * 2147483648 + d * 32768 + a * 1024 + t * 4
  | .texl c d a t => 0x68600000 + c * 2147483648 + d * 32768 + a * 1024 + t * 4
  | .texg c d a t => 0x68700000 + c * 2147483648 + d * 32768 + a * 1024 + t * 4
  | .bflush c a => 0x68800000 + c * 2147483648 + a * 1024
  | .bflushAll c => 0x68800001 + c * 2147483648
  | .enq c q a b => 0x6C000000 + c * 2147483648 + q * 32768 + a * 1024 + b * 32
  | .rgrab c d i => 0x6C100000 + c * 2147483648 + d * 32768 + i
  | .rgrabSet c a b i => 0x6C100010 + c * 2147483648 + a * 1024 + b * 32 + i
  | .sread c d k => 0x6C200000 + c * 2147483648 + d * 32768 + k
  | .time c d => 0x6C300000 + c * 2147483648 + d * 32768
  | .energy c d => 0x6C400000 + c * 2147483648 + d * 32768
  | .energyQ c d a => 0x6C400010 + c * 2147483648 + d * 32768 + a * 1024
  | .issueOpportunity _ => 0
  | .dutyChange _ => 0
  | .resultWriteback _ _ _ _ => 0
  | .sleepExpiry _ _ _ _ => 0
  | .workgroupAdmission _ => 0
  | .slotReturn _ _ => 0
  | .preempt _ _ => 0
  | .contextRestore _ _ => 0
  | .pushtRowPlaced _ _ => 0
  | .mmaExecute _ _ _ => 0
  | .azeroExecute _ _ _ => 0
  | .smxuExecute _ _ _ => 0
  | .copyRow _ _ _ => 0
  | .barwaitBoundExpiry _ _ _ _ => 0
  | .nbarwaitBoundExpiry _ _ _ _ => 0
  | .gets _ _ => 0
  | .getm _ _ => 0
  | .put _ _ => 0
  | .promotionDemand _ _ => 0
  | .forward _ _ => 0
  | .l2Eviction _ => 0
  | .tlbWalkFill _ _ _ _ => 0
  | .tlbInvalidation _ _ _ _ => 0
  | .clusterAtomic _ => 0
  | .donationRequest _ => 0
  | .splitRegisterWrite _ _ _ => 0
  | .resizeComplete _ _ => 0
  | .routerIdleGate _ _ => 0
  | .routerWake _ _ => 0
  | .routerWakeComplete _ _ => 0
  | .routerGatingWrite _ _ => 0
  | .linkFlitRetry _ _ _ => 0
  | .uncorrectableError _ => 0
  | .doorbell _ _ _ => 0
  | .queueDestroy _ _ => 0
  | .queueDestroyComplete _ _ => 0
  | .dispatchStep _ => 0
  | .treeCounterUpdate _ => 0
  | .churnPassage _ _ => 0
  | .boardingReadReturn _ _ => 0
  | .releasePacketEnqueue _ _ => 0
  | .churnLimitWrite _ _ _ => 0
  | .rasterTriangle _ => 0
  | .passSeal _ _ => 0
  | .tileScan _ => 0
  | .binTimeout _ _ => 0
  | .migrationGo _ => 0
  | .migrationComplete => 0
  | .biasFlip _ _ => 0
  | .biasFlipComplete _ => 0
  | .hostReadShared _ => 0
  | .hostReadOwned _ => 0
  | .hostWriteback _ _ => 0
  | .hostSnoop _ _ => 0
  | .peerPostedWrite _ _ => 0
  | .peerRead _ _ => 0
  | .mmioReadCompletion _ _ _ => 0
  | .mmioReadTimeout _ => 0
  | .partitionPowerInterval _ => 0
  | .powerCapWrite _ _ => 0
  | .currentDroop _ => 0
  | .limiterRestore _ => 0
  | .thermalForecast _ _ => 0
  | .thermalSensor _ _ _ => 0
  | .thermalTrip _ => 0
  | .boot _ => 0
  | .getVersion => 0
  | .getCapabilities => 0
  | .negotiateAlgorithms _ _ => 0
  | .getDigests => 0
  | .getCertificate _ _ _ => 0
  | .challenge _ _ => 0
  | .getMeasurements _ _ _ => 0
  | .spdmUnsupported _ => 0
  | .scrubRead _ _ => 0
  | .lifetimeCounterUpdate _ _ => 0
  | .flitReceive _ _ => 0
  | .flitRefusal _ _ _ => 0
  | .portRetrain _ _ => 0
  | .inboundAccess _ => 0
  | .remoteAtomic _ => 0
  | .remoteWriteAck _ => 0
  | .peerReset _ => 0
  | .registerWrite _ _ => 0
  | .partitionCreation _ _ => 0
  | .partitionDestruction _ => 0
  | .queueEnable _ _ => 0
  | .routerGatingComplete _ _ => 0
  | .memoryFillReturn _ => 0
  | .invalidationAcknowledgement _ _ => 0
  | .hostMemoryWrite _ _ => 0
  | .correctedSoftError _ => 0

/-- Whether an instruction is a word of a program rather than an event of the package. -/
def Instr.isWord : Instr → Bool
  | .iadd _ => true
  | .isub _ => true
  | .imul _ => true
  | .imulh _ => true
  | .imulhn _ => true
  | .imad _ => true
  | .idiv _ => true
  | .idivn _ => true
  | .and _ => true
  | .or _ => true
  | .xor _ => true
  | .andn _ => true
  | .shl _ => true
  | .shr _ => true
  | .sar _ => true
  | .rotr _ => true
  | .imin _ => true
  | .imax _ => true
  | .nmin _ => true
  | .nmax _ => true
  | .popc _ => true
  | .clz _ => true
  | .brev _ => true
  | .bfx _ => true
  | .icmpEq _ => true
  | .icmpNe _ => true
  | .icmpLt _ => true
  | .icmpLe _ => true
  | .icmpLtn _ => true
  | .icmpLen _ => true
  | .icmpTst _ => true
  | .sel _ => true
  | .iaddi _ => true
  | .andi _ => true
  | .ori _ => true
  | .xori _ => true
  | .shli _ => true
  | .shri _ => true
  | .sari _ => true
  | .imuli _ => true
  | .movi _ => true
  | .movhi _ => true
  | .fadd _ => true
  | .fsub _ => true
  | .fmul _ => true
  | .fma _ => true
  | .fms _ => true
  | .fnma _ => true
  | .fmin _ => true
  | .fmax _ => true
  | .fcmpLt _ => true
  | .fcmpLe _ => true
  | .fcmpEq _ => true
  | .fcmpNe _ => true
  | .fcmpGt _ => true
  | .fcmpGe _ => true
  | .fcmpUno _ => true
  | .fabs _ => true
  | .fneg _ => true
  | .fsqrt _ => true
  | .frcp _ => true
  | .frsq _ => true
  | .fexp2 _ => true
  | .flog2 _ => true
  | .fsin _ => true
  | .fcos _ => true
  | .ffloor _ => true
  | .fceil _ => true
  | .frint _ => true
  | .fclass _ => true
  | .ivlo _ => true
  | .ivhi _ => true
  | .mov _ => true
  | .cvtF64F32 _ => true
  | .cvtF32F64 _ => true
  | .cvtF32I32 _ => true
  | .cvtF32N32 _ => true
  | .cvtI32F32 _ => true
  | .cvtN32F32 _ => true
  | .cvtF64I64 _ => true
  | .cvtI64F64 _ => true
  | .cvtF32F16l _ => true
  | .cvtF32F16h _ => true
  | .cvtF32Bf16l _ => true
  | .cvtF32Bf16h _ => true
  | .cvtPkF16 _ => true
  | .cvtPkBf16 _ => true
  | .cvtPkE4m3 _ => true
  | .cvtPkE5m2 _ => true
  | .cvtUpE4m3 _ => true
  | .cvtUpE5m2 _ => true
  | .cvtPkQ4n _ => true
  | .cvtUpQ4n _ => true
  | .cvtPkI8 _ => true
  | .cvtUpI8 _ => true
  | .cvtI64I32 _ => true
  | .cvtN64N32 _ => true
  | .cvtI32I64 _ => true
  | .sideGet _ => true
  | .sideSet _ => true
  | .ivmk _ => true
  | .ivhull _ => true
  | .ivmeet _ => true
  | .ivsqr _ => true
  | .ivmid _ => true
  | .ivrad _ => true
  | .ivsplit _ => true
  | .ivpown _ => true
  | .clt _ => true
  | .cle _ => true
  | .ceq _ => true
  | .subset _ => true
  | .contains _ => true
  | .disjoint _ => true
  | .zin _ => true
  | .qand _ => true
  | .qor _ => true
  | .qnot _ => true
  | .qxor _ => true
  | .qmov _ => true
  | .qdef _ => true
  | .qcons _ => true
  | .qset _ => true
  | .br _ _ _ _ => true
  | .call _ _ _ => true
  | .ret _ _ => true
  | .jmpr _ _ _ _ => true
  | .splitj _ _ => true
  | .join _ _ => true
  | .exit _ => true
  | .yield _ => true
  | .jmaskGet _ _ _ => true
  | .jmaskSet _ _ _ => true
  | .jmaskAdd _ _ => true
  | .jmaskDel _ _ => true
  | .jmaskClr _ _ => true
  | .shfl _ => true
  | .shflu _ => true
  | .shfld _ => true
  | .shflx _ => true
  | .vote _ _ _ _ _ _ => true
  | .gredIadd _ => true
  | .gredImin _ => true
  | .gredImax _ => true
  | .gredNmin _ => true
  | .gredNmax _ => true
  | .gredAnd _ => true
  | .gredOr _ => true
  | .gredXor _ => true
  | .gredFadd _ => true
  | .gredFmin _ => true
  | .gredFmax _ => true
  | .matchLanes _ => true
  | .gfence _ _ _ _ => true
  | .qxh _ => true
  | .qxv _ => true
  | .qxd _ => true
  | .ddxc _ => true
  | .ddyc _ => true
  | .ddxf _ => true
  | .ddyf _ => true
  | .helpq _ _ _ _ => true
  | .ld _ => true
  | .st _ => true
  | .lda _ => true
  | .stl _ => true
  | .ldg _ => true
  | .stg _ => true
  | .pref _ _ _ _ _ => true
  | .lineWb _ _ _ _ => true
  | .lineInv _ _ _ _ => true
  | .lineWbinv _ _ _ _ => true
  | .lineZero _ _ _ _ => true
  | .atomAdd _ => true
  | .atomMin _ => true
  | .atomMax _ => true
  | .atomNmin _ => true
  | .atomNmax _ => true
  | .atomAnd _ => true
  | .atomOr _ => true
  | .atomXor _ => true
  | .atomXchg _ => true
  | .atomCas _ => true
  | .atomFadd _ => true
  | .atomFmin _ => true
  | .atomFmax _ => true
  | .atomIncw _ => true
  | .atomDecw _ => true
  | .nop _ => true
  | .trap _ _ => true
  | .eret _ => true
  | .crr _ _ _ => true
  | .crw _ _ _ => true
  | .crset _ _ _ => true
  | .crclr _ _ _ => true
  | .fence _ _ => true
  | .fenceAcq _ _ => true
  | .fenceRel _ _ => true
  | .fenceLayer _ => true
  | .quota _ _ _ _ => true
  | .sleep _ _ => true
  | .tlbinvPage _ _ => true
  | .tlbinvAsid _ => true
  | .tlbinvAll _ => true
  | .fwcallVersion _ _ _ => true
  | .fwcallTemperature _ _ _ => true
  | .fwcallForecast _ _ _ => true
  | .fwcallCap _ _ _ => true
  | .fwcallCounter _ _ _ => true
  | .fwcallHalfRow _ _ _ => true
  | .fwcallUnlisted _ _ _ _ => true
  | .cacheIfetch _ => true
  | .cacheWb _ => true
  | .cacheWbinv _ => true
  | .rep _ _ _ _ => true
  | .aslice _ _ _ _ => true
  | .pusht _ _ _ _ _ => true
  | .copy _ _ _ _ => true
  | .tidset _ _ _ => true
  | .tidget _ _ _ => true
  | .await _ _ => true
  | .qpush _ _ _ => true
  | .qpop _ _ _ => true
  | .qtry _ _ _ _ => true
  | .swinit _ _ _ => true
  | .swadd _ _ _ => true
  | .swwait _ _ _ => true
  | .barinit _ _ _ => true
  | .barrive _ _ _ _ => true
  | .bardrop _ _ _ _ => true
  | .barwait _ _ _ _ _ => true
  | .nbarrive _ _ _ _ => true
  | .nbarriveDrop _ _ _ _ => true
  | .nbarwait _ _ _ _ _ => true
  | .nbarset _ _ _ _ _ => true
  | .acqp _ _ _ _ => true
  | .mma _ => true
  | .azero _ _ => true
  | .areadF32 _ _ _ _ => true
  | .areadF64 _ _ _ _ => true
  | .areadI32 _ _ _ _ => true
  | .areadRaw _ _ _ _ => true
  | .awriteF32 _ _ _ _ => true
  | .awriteF64 _ _ _ _ => true
  | .awriteI32 _ _ _ _ => true
  | .awriteRaw _ _ _ _ => true
  | .smxu _ _ _ _ _ => true
  | .smxrM _ _ _ => true
  | .smxrL _ _ _ => true
  | .smxrSt _ _ _ => true
  | .mfence _ => true
  | .mwait _ _ => true
  | .cboard _ _ _ => true
  | .cboardr _ _ _ _ _ => true
  | .calight _ _ _ => true
  | .ccapAdd _ _ _ _ => true
  | .ccapSub _ _ _ _ => true
  | .ccapMin _ _ _ _ => true
  | .ccapMax _ _ _ _ => true
  | .ccapAnd _ _ _ _ => true
  | .ccapOr _ _ _ _ => true
  | .ccapXchg _ _ _ _ => true
  | .ccapCas _ _ _ _ => true
  | .ccapDec _ _ _ => true
  | .cpeek _ _ _ => true
  | .cwait _ _ _ _ _ => true
  | .rast _ _ _ _ => true
  | .rseal _ _ => true
  | .bpush _ _ _ _ _ => true
  | .bpushHit _ _ _ _ _ => true
  | .bisect _ _ _ _ _ => true
  | .attr _ _ _ _ _ => true
  | .tex _ _ _ _ => true
  | .texl _ _ _ _ => true
  | .texg _ _ _ _ => true
  | .bflush _ _ => true
  | .bflushAll _ => true
  | .enq _ _ _ _ => true
  | .rgrab _ _ _ => true
  | .rgrabSet _ _ _ _ => true
  | .sread _ _ _ => true
  | .time _ _ => true
  | .energy _ _ => true
  | .energyQ _ _ _ => true
  | .issueOpportunity _ => false
  | .dutyChange _ => false
  | .resultWriteback _ _ _ _ => false
  | .sleepExpiry _ _ _ _ => false
  | .workgroupAdmission _ => false
  | .slotReturn _ _ => false
  | .preempt _ _ => false
  | .contextRestore _ _ => false
  | .pushtRowPlaced _ _ => false
  | .mmaExecute _ _ _ => false
  | .azeroExecute _ _ _ => false
  | .smxuExecute _ _ _ => false
  | .copyRow _ _ _ => false
  | .barwaitBoundExpiry _ _ _ _ => false
  | .nbarwaitBoundExpiry _ _ _ _ => false
  | .gets _ _ => false
  | .getm _ _ => false
  | .put _ _ => false
  | .promotionDemand _ _ => false
  | .forward _ _ => false
  | .l2Eviction _ => false
  | .tlbWalkFill _ _ _ _ => false
  | .tlbInvalidation _ _ _ _ => false
  | .clusterAtomic _ => false
  | .donationRequest _ => false
  | .splitRegisterWrite _ _ _ => false
  | .resizeComplete _ _ => false
  | .routerIdleGate _ _ => false
  | .routerWake _ _ => false
  | .routerWakeComplete _ _ => false
  | .routerGatingWrite _ _ => false
  | .linkFlitRetry _ _ _ => false
  | .uncorrectableError _ => false
  | .doorbell _ _ _ => false
  | .queueDestroy _ _ => false
  | .queueDestroyComplete _ _ => false
  | .dispatchStep _ => false
  | .treeCounterUpdate _ => false
  | .churnPassage _ _ => false
  | .boardingReadReturn _ _ => false
  | .releasePacketEnqueue _ _ => false
  | .churnLimitWrite _ _ _ => false
  | .rasterTriangle _ => false
  | .passSeal _ _ => false
  | .tileScan _ => false
  | .binTimeout _ _ => false
  | .migrationGo _ => false
  | .migrationComplete => false
  | .biasFlip _ _ => false
  | .biasFlipComplete _ => false
  | .hostReadShared _ => false
  | .hostReadOwned _ => false
  | .hostWriteback _ _ => false
  | .hostSnoop _ _ => false
  | .peerPostedWrite _ _ => false
  | .peerRead _ _ => false
  | .mmioReadCompletion _ _ _ => false
  | .mmioReadTimeout _ => false
  | .partitionPowerInterval _ => false
  | .powerCapWrite _ _ => false
  | .currentDroop _ => false
  | .limiterRestore _ => false
  | .thermalForecast _ _ => false
  | .thermalSensor _ _ _ => false
  | .thermalTrip _ => false
  | .boot _ => false
  | .getVersion => false
  | .getCapabilities => false
  | .negotiateAlgorithms _ _ => false
  | .getDigests => false
  | .getCertificate _ _ _ => false
  | .challenge _ _ => false
  | .getMeasurements _ _ _ => false
  | .spdmUnsupported _ => false
  | .scrubRead _ _ => false
  | .lifetimeCounterUpdate _ _ => false
  | .flitReceive _ _ => false
  | .flitRefusal _ _ _ => false
  | .portRetrain _ _ => false
  | .inboundAccess _ => false
  | .remoteAtomic _ => false
  | .remoteWriteAck _ => false
  | .peerReset _ => false
  | .registerWrite _ _ => false
  | .partitionCreation _ _ => false
  | .partitionDestruction _ => false
  | .queueEnable _ _ => false
  | .routerGatingComplete _ _ => false
  | .memoryFillReturn _ => false
  | .invalidationAcknowledgement _ _ => false
  | .hostMemoryWrite _ _ => false
  | .correctedSoftError _ => false

end Sys2Proof
end

