-- ==== Sys2Proof/Machine/Control.lean ====
section
/-!
DEFINITION. Branches, calls, jumps, exit, yielding and join masks: majors BR and CTL (R174 to R184), in a group and in a slice (R252).
-/
namespace Sys2Proof.Machine

/-! ## Shared operations -/

/-- The word address of the packet at a signed offset, n bits wide, from the packet of a word (R37, R175, R177). -/
def targetAt (pc off n : Nat) : Nat := (3 * (((pc / 3 : Nat) : Int) + sextN off n) % (2 ^ 62 : Int)).toNat

/-- The byte address of the next packet (R177). -/
def linkAt (pc : Nat) : W64 := BitVec.ofNat 64 (12 * (pc / 3 + 1))

/-- Lanes continue at word addresses of their own after the chain (R23). -/
def Group.setTargets (g : Group) (ts : List (Nat × Nat)) : Group := ts.foldl (fun g x => g.modLane x.1 (fun l => { l with target := some x.2 })) g

/-- The issuing group's lanes continue elsewhere after the chain. -/
def State.goTo (s : State) (ts : List (Nat × Nat)) : State := s.modCur (fun g => g.setTargets ts)

/-- The slice continues elsewhere. -/
def State.sliceGoTo (s : State) (t : Nat) : State := s.modCurSlice (fun x => { x with target := some t })

/-- An indirect transfer to the address in a, with a link in d when `link` (R177). -/
def jumpGroup (a : Nat) (link : Option Nat) (c : Ctx) (u : Uses) (s : State) : Did :=
  if c.src.shape a ≠ .p64 then .trap c.shapeTrap false s
  else
    let o := match link with
      | none => Out.none
      | some d => Out.v d .p64 (c.all ((linkAt c.pc).setWidth 128))
    let bad := c.act.filter (fun l => decide (c.src.readN a l % 12 ≠ 0))
    let err := match bad with
      | [] => none
      | l :: _ => some ⟨Cause.misaligned, listMask bad, (c.src.read a l).setWidth 64⟩
    c.commit u { o with err := err } s (fun s => .done (s.goTo (c.act.map (fun l => (l, c.src.readN a l / 4)))))

/-- An indirect transfer of a slice (R252). -/
def jumpSlice (a : Nat) (link : Option Nat) (x : Slice) (s : State) : SliceDid :=
  let t := x.reg a
  if t.toNat % 12 ≠ 0 then .fault .misaligned (some t)
  else
    let s := match link with
      | none => s
      | some d => s.modCurSlice (fun y => y.setReg d (linkAt x.pc))
    .done (s.sliceGoTo (t.toNat / 4))

/-- A lane of a register takes back what it held. -/
def Group.restore (g : Group) (r : RegName) (l : Nat) (e : Elem) : Group :=
  match r with
  | .v n => { g with regs := match tget g.regs n with
      | none => g.regs
      | some v => tset g.regs n (v.put [(l, e)]) }
  | .q n => g.modLane l (fun x => x.setPred n (Tri.ofBits e.toNat))
  | .j _ => g

/-- The outstanding writes to exiting lanes are discarded, the newest first (R179). -/
def Group.discardWrites (g : Group) (ls : List Nat) : Group :=
  g.pend.reverse.foldl (fun g p => (p.old.filter (fun x => p.mask.getLsbD x.1 && ls.contains x.1)).foldl (fun g x => g.restore p.reg x.1 x.2) g) g

/-- Lanes that exit (R179): they leave every join mask, and their outstanding register writes are discarded. -/
def Group.exitLanes (g : Group) (ls : List Nat) : Group :=
  let m := listMask ls
  let g := (g.discardWrites ls).modLanes ls (fun l => { l with exited := true, waiting := none, rep := none, target := none, joining := none })
  let joins := g.joins.map (fun (j : Nat × W64) => (j.1, j.2 &&& ~~~m))
  let pend := (g.pend.map (fun (p : Pend) => { p with mask := p.mask &&& ~~~m })).filter (fun p => decide (p.mask ≠ 0))
  { g with joins := joins, pend := pend }.settle

/-- Write a join mask (R181, R184). -/
def State.setJoin (s : State) (j : Nat) (m : W64) : State := s.modCur (fun g => { g with joins := tset g.joins j m })

/-- Bits below a group's width (R161). -/
def widthMask (w : Nat) : W64 := BitVec.ofNat 64 (2 ^ w - 1)

/-! ## The words -/

/-- BR: lanes whose predicate matches K continue at the target after the chain (R175). -/
def execBr (c q k o : Nat) (s : State) : Host.Outcome State Fault Refusal :=
  bothWord (uX .c c [.q q] []) s
    (fun x _ s => .done (s.goTo ((x.act.filter (fun l => kMatch k ((x.src.lane l).pred q))).map (fun l => (l, targetAt x.pc o 21)))))
    (fun sl s => if kMatch k (sl.pred q) then .done (s.sliceGoTo (targetAt sl.pc o 21)) else .done s)

/-- CALL: the link into d, and on to the target (R177). -/
def execCall (c d o : Nat) (s : State) : Host.Outcome State Fault Refusal :=
  bothWord (uX .c c [] [.v d]) s
    (fun x u s => x.commit u (Out.v d .p64 (x.all ((linkAt x.pc).setWidth 128))) s
      (fun s => .done (s.goTo (x.act.map (fun l => (l, targetAt x.pc o 15))))))
    (fun sl s => .done ((s.modCurSlice (fun y => y.setReg d (linkAt sl.pc))).sliceGoTo (targetAt sl.pc o 15)))

/-- RET: each lane continues at the address in a (R177). -/
def execRet (c a : Nat) (s : State) : Host.Outcome State Fault Refusal :=
  bothWord (uX .c c [.v a] []) s (jumpGroup a none) (jumpSlice a none)

/-- JMPR: likewise, with a link in d when L = 1 (R177). -/
def execJmpr (c d a l : Nat) (s : State) : Host.Outcome State Fault Refusal :=
  let link := if l = 1 then some d else none
  bothWord (uX .c c [.v a] (if l = 1 then [.v d] else [])) s (jumpGroup a link) (jumpSlice a link)

/-- SPLITJ: the mask of the path's non-exited lanes (R181). -/
def execSplitj (c j : Nat) (s : State) : Host.Outcome State Fault Refusal :=
  groupWord (uX .c c [] [.j j]) s (fun x _ s => .done (s.setJoin j x.mask))

/-- JOIN: lanes in the mask wait for one another after the chain (R182). -/
def execJoin (c j : Nat) (s : State) : Host.Outcome State Fault Refusal :=
  groupWord (uX .c c [.j j] []) s (fun x _ s =>
    let m := x.src.join j
    .done (s.modCur (fun g => g.modLanes (x.act.filter (fun l => m.getLsbD l)) (fun l => { l with joining := some j }))))

/-- EXIT: a recorded tile fault is raised first, then a recorded copy fault (R215, R303); else the lanes end (R179). -/
def execExit (c : Nat) (s : State) : Host.Outcome State Fault Refusal :=
  bothWord (uX .c c [] []) s
    (fun x _ s =>
      match x.grp.tileFault, x.grp.copyFault with
      | some t, _ => .trap ⟨t.cause, t.mask, t.addr⟩ true (s.modCur (fun g => { g with tileFault := none }))
      | none, some t => .trap ⟨t.cause, t.mask, t.addr⟩ true (s.modCur (fun g => { g with copyFault := none }))
      | none, none => .done (s.modCur (fun g => g.exitLanes x.act)))
    (fun _ s => .done (s.modCurSlice (fun x => { x with live := false, ended := .exited })))

/-- YIELD: the path is ineligible until its pack's next opportunity (R180). -/
def execYield (c : Nat) (s : State) : Host.Outcome State Fault Refusal :=
  groupWord (uX .c c [] []) s (fun x _ s => .done (s.modCur (fun g => g.modLanes x.act (fun l => { l with yielding := true }))))

/-- JMASK.GET: a join mask into d (R184). -/
def execJmaskGet (c j d : Nat) (s : State) : Host.Outcome State Fault Refusal :=
  groupWord (uX .c c [.j j] [.v d]) s (fun x u s => x.commit u (Out.v d .p64 (x.all ((x.src.join j).setWidth 128))) s .done)

/-- JMASK.SET: a join mask from the lowest active lane (R184). -/
def execJmaskSet (c j a : Nat) (s : State) : Host.Outcome State Fault Refusal :=
  groupWord (uX .c c [.v a] [.j j]) s (fun x _ s => match x.lowP64 a with
    | none => .trap x.shapeTrap false s
    | some m => .done (s.setJoin j (m &&& widthMask x.grp.width)))

/-- JMASK.ADD: the active lanes join (R184). -/
def execJmaskAdd (c j : Nat) (s : State) : Host.Outcome State Fault Refusal :=
  groupWord (uX .c c [.j j] [.j j]) s (fun x _ s => .done (s.setJoin j (x.src.join j ||| x.mask)))

/-- JMASK.DEL: the active lanes leave (R184). -/
def execJmaskDel (c j : Nat) (s : State) : Host.Outcome State Fault Refusal :=
  groupWord (uX .c c [.j j] [.j j]) s (fun x _ s => .done (s.setJoin j (x.src.join j &&& ~~~x.mask)))

/-- JMASK.CLR: none (R184). -/
def execJmaskClr (c j : Nat) (s : State) : Host.Outcome State Fault Refusal :=
  groupWord (uX .c c [] [.j j]) s (fun _ _ s => .done (s.setJoin j 0))

end Sys2Proof.Machine
end

