-- ==== Sys2Proof/Machine/Fetch.lean ====
section
/-!
DEFINITION. Fetching an instruction word (R21, R22, R178, R268): where it lies, when it cannot be fetched, and the word a repeat steps.
-/
namespace Sys2Proof.Machine

/-- Why no code is fetched from a physical address, if none is (R178, R368, R369, R435, R483): holes and registers, another partition's slice
scratch, data that cannot be returned. -/
def State.fetchRegion (s : State) (part pa : Nat) : Option Cause :=
  let data := if s.unreadable pa 4 then some Cause.memUe else none
  match s.region pa with
  | .hole => some .access
  | .control _ => some .access
  | .slice _ c => if c = part then data else some .access
  | _ => data

/-- Fetch the word at word address pc for a core, in an ASID and privilege: the word or the cause, and the state with the TLB
filled (R178, R325). (DESIGN CHOICE, log entry 25.) -/
def State.fetchWord (s : State) (core asid : Nat) (priv : Bool) (part pc : Nat) : Except Cause W32 × State :=
  let va := 4 * pc
  if 0x7F000000000000 ≤ va then (.error .access, s)
  else match s.translate core asid true va 4 with
    | (.error x, s) => (.error x, s)
    | (.ok p, s) =>
      if permOk p.attr priv .fetch = false then (.error .access, s)
      else match s.fetchRegion part p.pa with
        | some x => (.error x, s)
        | none => (.ok (BitVec.ofNat 32 (s.readPhys p.pa 4)), s)

/-- The word at a word address as the issuing workgroup fetches it. -/
def State.fetchCur (s : State) (pc : Nat) : Except Cause W32 × State :=
  match s.curWg with
  | none => (.error .access, s)
  | some w => s.fetchWord s.cur.who.core w.asid w.priv w.part pc

/-- The slice that holds the issuer's word at a word address has stopped (R368): the fetch waits. (DEDUCED, log entry 39.) -/
def State.fetchStopped (s : State) (pc : Nat) : Bool :=
  match s.curWg with
  | none => false
  | some w => match (s.translate s.cur.who.core w.asid true (4 * pc) 4).1 with
    | .error _ => false
    | .ok p => s.stopped p.pa

/-- The repeat state of the issuing path (R47): that of its lowest lane. -/
def State.curRep (s : State) : Option Rep :=
  match s.curWg with
  | none => none
  | some w => match w.group s.cur.who.grp with
    | none => none
    | some g => match g.lanesIn s.cur.mask with
      | [] => none
      | l :: _ => (g.lane l).rep

/-- The word to decode: the fetched one, stepped when a repeat re-issues it (R45). -/
def State.issueWord (s : State) (w : W32) : Nat :=
  match s.curRep with
  | none => w.toNat
  | some r => stepWord w.toNat r

/-- A fault at the fetch or the decode of the word at the issue's program counter: the path traps, or the slice faults (R42, R178,
R257). -/
def State.stepFault (s : State) (cause : Cause) (addr : W64) : State :=
  if s.isSlice then s.sliceFault cause addr
  else match s.ctx 0 with
    | none => { s with cur := { s.cur with live := false } }
    | some c => c.finish uNone s (.trap ⟨cause, listMask c.path, addr⟩ false s)

end Sys2Proof.Machine
end

