-- ==== Sys2Proof/Machine/Place.lean ====
section
/-!
DEFINITION. Where an address goes (R268), the checks at acceptance (R270, R280, R292, R317, R483, R498, R523), and reading and writing the
bytes of scratch, of a private window, and of global memory (R75, R269, R282, R530).
-/
namespace Sys2Proof.Machine

/-! ## Kinds of access -/

/-- What the checks at acceptance need of an access: permission kind, alignment, size in bytes, whether an MMIO page allows it (R498),
the scope of an atomic (R292), whether its operation is one a host address allows, whether it is ACQP (R297), whether it leaves boarded
words alone instead of being refused by them (R288), and whether its translation bypasses the L1 (R325). -/
structure Acc where
  kind : AccKind
  align : Nat
  size : Nat
  mmio : Bool
  atomic : Option Nat
  hostOp : Bool
  acqp : Bool
  boardOk : Bool
  bypass : Bool
  deriving DecidableEq, Repr

/-- A plain read or write of n bytes with an H field, whose value 2 bypasses the L1 (R325). -/
def Acc.plain (k : AccKind) (align n : Nat) (mmio : Bool) (h : Nat) : Acc := ⟨k, align, n, mmio, none, true, false, false, decide (h = 2)⟩

/-- Where an access goes (R268). -/
inductive Place where
  | scratch (off : Nat)
  | priv (off : Nat)
  | global (ps : List Piece)
  deriving DecidableEq, Repr

/-- First byte of the scratch window (R268). -/
def scratchBase : Nat := 0x7F000000000000
/-- First byte of the private window (R75, R268). -/
def privBase : Nat := 0x7F000100000000

/-- The order in which causes at acceptance count (R317). -/
def accRank : Cause → Nat
  | .misaligned => 0
  | .access => 1
  | .translation => 2
  | .atomicScope => 3
  | .churnStore => 4
  | .memUe => 5
  | _ => 6

/-- Of two causes, the one that counts. -/
def firstCause : Option Cause → Option Cause → Option Cause
  | none, b => b
  | a, none => a
  | some a, some b => if accRank b < accRank a then some b else some a

/-! ## Checks -/

/-- A word of n bytes at pa holds a boarded word (R288). -/
def State.anyBoarded (s : State) (pa n : Nat) : Bool :=
  (upto (pa / 8) ((pa + n - 1) / 8 + 1 - pa / 8)).any (fun w => s.isBoarded (8 * w))

/-- The checks of one piece after its translation: permission, region, atomicity, boarded words and lost lines. -/
def State.pieceCheck (s : State) (w : Workgroup) (k : Acc) (p : Piece) : Option Cause :=
  let usual :=
    if k.kind ≠ .read ∧ k.boardOk = false ∧ s.anyBoarded p.pa p.len = true then some Cause.churnStore
    else if k.kind ≠ .write ∧ s.isLost p.pa = true then some .memUe else none
  if permOk p.attr w.priv k.kind = false then some .access
  else if attrType p.attr = 1 then
    match s.region p.pa with
    | .host =>
      if k.atomic.isSome then some .atomicScope else if k.mmio = true ∧ p.len = k.size then none else some .access
    | _ => some .access
  else match s.region p.pa with
    | .hole => some .access
    | .control _ => some .access
    | .slice _ c => if c = w.part then usual else some .access
    | .peer _ => if k.acqp = true ∨ (k.atomic.isSome = true ∧ k.atomic ≠ some 5) then some .atomicScope else none
    | .host => if k.atomic = some 5 ∧ k.hostOp = false then firstCause (some .atomicScope) usual else usual
    | _ => usual

/-- The pieces of n bytes at a global address, at most two lines, each translated for a core; the TLB fills (R325). -/
def State.pieces (s : State) (core asid : Nat) (bypass : Bool) (va n : Nat) : List (Except Cause Piece) × State :=
  let m := min n (128 - va % 128)
  let a := s.translate core asid bypass va m
  if n ≤ m then ([a.1], a.2)
  else
    let b := a.2.translate core asid bypass (va + m) (n - m)
    ([a.1, b.1], b.2)

/-- The first cause that a list of translated pieces raises (R317): each page of an access is checked. -/
def State.piecesCheck (s : State) (w : Workgroup) (k : Acc) (ps : List (Except Cause Piece)) : Option Cause :=
  ps.foldl (fun c p => firstCause c (match p with
    | .error x => some x
    | .ok p => s.pieceCheck w k p)) none

/-- The pieces of a list that were translated. -/
def okPieces (ps : List (Except Cause Piece)) : List Piece :=
  ps.filterMap (fun p => match p with
    | .error _ => none
    | .ok p => some p)

/-- An access of a workgroup at a virtual address: where it goes, or the cause it raises (R268, R270, R280, R292); `laneless` for a party
that has no private window (R530). -/
def State.place (s : State) (core : Nat) (w : Workgroup) (laneless : Bool) (k : Acc) (a : W64) : Except Cause Place × State :=
  let va := a.toNat
  let last := va + k.size - 1
  let window := fun (p : Place) =>
    if k.acqp = true ∨ (match k.atomic with
      | some sc => decide (2 ≤ sc)
      | none => false) = true then (Except.error Cause.atomicScope, s) else (.ok p, s)
  if va % k.align ≠ 0 then (.error .misaligned, s)
  else if scratchBase ≤ va then
    if va < scratchBase + w.scratchBytes ∧ last < scratchBase + w.scratchBytes then window (.scratch (va - scratchBase))
    else if laneless = false ∧ privBase ≤ va ∧ last < privBase + 1024 * lpPrivate w.launch then window (.priv (va - privBase))
    else (.error .access, s)
  else if scratchBase ≤ last then (.error .access, s)
  else
    let r := s.pieces core w.asid k.bypass va k.size
    match r.2.piecesCheck w k r.1 with
    | some x => (.error x, r.2)
    | none => (.ok (.global (okPieces r.1)), r.2)

/-- The checks of several lanes, each with its address. -/
def State.places (s : State) (core : Nat) (w : Workgroup) (k : Acc) : List (Nat × W64) → List (Nat × Except Cause Place) × State
  | [] => ([], s)
  | (l, a) :: t =>
    let r := s.place core w false k a
    let q := r.2.places core w k t
    ((l, r.1) :: q.1, q.2)

/-- The trap of lanes that fail at acceptance: the first cause, its lanes, the address of the lowest (R317). -/
def accTrap (rs : List (Nat × Except Cause Place)) (addr : Nat → W64) : Option Trap :=
  let cause := rs.foldl (fun c r => match r.2 with
    | .ok _ => c
    | .error x => firstCause c (some x)) none
  match cause with
  | none => none
  | some x =>
    let ls := (rs.filter (fun r => match r.2 with
      | .error y => decide (y = x)
      | .ok _ => false)).map (·.1)
    some ⟨x, listMask ls, addr (ls.headD 0)⟩

/-- A helper lane's load that receives zero in place of a fault (R286). -/
def Ctx.helperZero (c : Ctx) (r : Nat × Except Cause Place) : Bool :=
  (c.grp.lane r.1).helper && (match r.2 with
    | .error .misaligned => true
    | .error .access => true
    | .error .translation => true
    | _ => false)

/-- Lanes that are no helpers (R286). -/
def Ctx.doers (c : Ctx) : List Nat := c.act.filter (fun l => !(c.grp.lane l).helper)

/-! ## Bytes -/

/-- A byte of a lane's private window: undefined until it is stored to (R56, R75). (DEDUCED, log entry 3.) -/
def privByte (w : Workgroup) (g l : Nat) (cells : List Host.Cell) (o : Nat) : Byte :=
  match tget cells o with
  | some b => b
  | none => Config.privateByte (w.uid * 1024 + g * 64 + l) o

/-- n bytes at a place, of lane l of group g. (DESIGN CHOICE, log entry 6.) -/
def State.readPlace (s : State) (w : Workgroup) (g l n : Nat) : Place → List Byte
  | .scratch o => memGetList w.scratch o n
  | .priv o =>
    let cells := match w.group g with
      | none => []
      | some x => (x.lane l).priv
    (upto o n).map (privByte w g l cells)
  | .global ps => ps.flatMap (fun p => (upto p.pa p.len).map s.readByte)

/-- The data of a place cannot be returned (R368, R435). -/
def State.badPlace (s : State) : Place → Bool
  | .global ps => ps.any (fun p => s.badBytes p.pa p.len)
  | _ => false

/-- A piece that a party outside the package serves: an MMIO page or a peer window (R498, R523). -/
def State.outsidePiece (s : State) (p : Piece) : Bool :=
  decide (attrType p.attr = 1) || (match s.region p.pa with
    | .peer _ => true
    | _ => false)

/-- A place of which a party outside the package serves a piece. -/
def State.outsidePlace (s : State) : Place → Bool
  | .global ps => ps.any s.outsidePiece
  | _ => false

/-- A load at a place of which a word is aboard a Churn: a memory tap serves it as the slot passes (R288). -/
def State.tapPlace (s : State) : Place → Bool
  | .global ps => ps.any (fun p => (upto (p.pa / 8) ((p.pa + p.len - 1) / 8 + 1 - p.pa / 8)).any (fun w => (s.shadow (8 * w)).isSome))
  | _ => false

/-- An accepted access of a word waits: the slice of a line of it has stopped (R368). -/
def State.stalls (s : State) (rs : List (Nat × Except Cause Place)) : Bool :=
  rs.any (fun r => match r.2 with
    | .ok (.global ps) => ps.any (fun p => s.stopped p.pa)
    | _ => false)

/-- Offsets of a private window that hold modified bytes (R285), after a store of n bytes at o. -/
def dirtyOffsets (o n : Nat) (l : List Nat) : List Nat := upto o n ++ l.filter (fun x => decide (x < o ∨ o + n ≤ x))

/-- Write bytes at a place, of lane l of a workgroup's group; global bytes reach the byte image only. -/
def State.writePlace (s : State) (core slot g l : Nat) (bs : List Byte) : Place → State
  | .scratch o => s.modWg core slot (fun w => { w with scratch := memPutList w.scratch o bs })
  | .priv o => s.modGroup core slot g (fun x => x.modLane l (fun y =>
      { y with priv := (lmapIdx (fun k b => (o + k, b)) 0 bs).foldl (fun t c => tset t c.1 c.2) y.priv,
               privDirty := dirtyOffsets o bs.length y.privDirty }))
  | .global ps => (ps.foldl (fun (r : State × List Byte) p => (r.1.writePhys p.pa (r.2.take p.len), r.2.drop p.len)) (s, bs)).1

/-- Distinct lines of a list of pieces, in order. -/
def linePieces (ps : List Piece) : List Piece :=
  ps.foldl (fun r p => if r.any (fun q => q.pa / 128 = p.pa / 128) then r else r ++ [p]) []

/-- The global pieces of places. -/
def placePieces (ps : List Place) : List Piece :=
  ps.flatMap (fun p => match p with
    | .global x => x
    | _ => [])

/-- Loads of a word reach the L1: each line once (R271 to R275). -/
def State.l1Reads (s : State) (core asid h hint : Nat) (ps : List Piece) : State :=
  (linePieces ps).foldl (fun s p => s.l1Read core asid p h hint false) s

/-- Stores of a word reach the L1. -/
def State.l1Writes (s : State) (core asid h : Nat) (ps : List Piece) : State := ps.foldl (fun s p => s.l1Write core asid p h) s

/-- The pieces of places that no party outside serves. -/
def State.herePieces (s : State) (ps : List Place) : List Piece := placePieces (ps.filter (fun p => !s.outsidePlace p))

/-- The repeat step that a lane of an issuer is at (R47). -/
def State.repStep (s : State) (who : Who) (lane : Nat) : Option Nat :=
  match s.group who.core who.wg who.grp with
  | none => none
  | some g => (g.lane lane).rep.map (·.idx)

/-! ## Accesses to parties outside -/

/-- The launch packet of an issuer (R388). -/
def State.packetOf (s : State) (who : Who) : Nat := ((s.wg who.core who.wg).map (·.packet)).getD 0

/-- An access of an issuer at a party outside: number f, of the word numbered b, at a physical and a virtual address. -/
def State.outsideAt (s : State) (f b : Nat) (who : Who) (lanes : List (Nat × W64 × W64)) (pa attr : Nat) (va : W64) (work : OutsideWork) : Outside :=
  { id := f, batch := b, who := who, lanes := lanes, pc := s.cur.pc, step := s.repStep who ((lanes.map (·.1)).headD 0), sent := s.cycle,
    package := s.outsideParty pa attr, pa := pa, va := va, data := [], aop := 0, acq := false, packet := s.packetOf who, work := work }

/-- Post a write toward a party outside, as one access (R376): MMIO writes are posted (R498); a write to a peer is outstanding until it is
acknowledged (R526). An MMIO write that fails is reported to the host and counted (R498): the party outside fixes which fail, log entry 75. -/
def State.storeOutside (s : State) (who : Who) (lane pa : Nat) (va : W64) (mmio : Bool) (bs : List Byte) : State :=
  let s := s.modPkg (fun p => { p with posted := p.posted ++ [(pa, bs)] })
  if mmio then if Config.postedFails pa s.cycle then s.count 8 (coreSource who.core) else s
  else
    let f := s.fresh
    f.2.post { f.2.outsideAt f.1 f.1 who [(lane, 0, 0)] pa 0 va .store with data := bs }

/-- Store bytes of lane l at a place: the caches and the image, or the party outside. (DESIGN CHOICE, log entry 6.) -/
def State.storePlace (s : State) (who : Who) (asid l h : Nat) (va : W64) (bs : List Byte) (p : Place) : State :=
  match p with
  | .global ps =>
    if s.outsidePlace p then
      (ps.foldl (fun (r : State × List Byte) q =>
        (if r.1.outsidePiece q then r.1.storeOutside who l q.pa va (decide (attrType q.attr = 1)) (r.2.take q.len)
         else (r.1.l1Write who.core asid q h).writePhys q.pa (r.2.take q.len), r.2.drop q.len)) (s, bs)).1
    else (s.l1Writes who.core asid h ps).writePlace who.core who.wg who.grp l bs p
  | _ => s.writePlace who.core who.wg who.grp l bs p

end Sys2Proof.Machine
end

