-- ==== Sys2Proof/Machine/Transc.lean ====
section
/-!
DEFINITION. The transcendental functions of FUNARY, IVPOWN, SMXU and the texture unit (R118, R146, R154, R225, R466), to the
bit: each is enclosed between two integers over a power of two, at growing precision, until their leading bits agree. Where
the search ends undecided, after 2^63 bits, the result is a free value (log entry 8).
-/
namespace Sys2Proof.Machine

/-- The value between lo and hi, each over 2^p, if the enclosure fixes its leading bits and its being no multiple of 2^(60−p). -/
def enclose (lo hi : Nat) (p : Nat) : Option (Nat × Int) :=
  if lo / 2 ^ 60 = hi / 2 ^ 60 ∧ lo % 2 ^ 60 ≠ 0 then some (lo / 2 ^ 60, 60 - (p : Int)) else none

/-- Try precisions in turn. (DEDUCED, log entry 8.) -/
def zivSearch (f : Nat → Option (Nat × Int)) : List Nat → Option (Nat × Int)
  | [] => none
  | p :: ps => match f p with
    | some r => some r
    | none => zivSearch f ps

/-- The free value of function number fn at an operand: magnitude and exponent are both free (log entry 8). -/
def freeX (fn : Nat) (neg : Bool) (a b c : Nat) : XV :=
  let f := (Config.transcendental fn a b c).toNat
  .val neg (f % 2 ^ 64) ((f / 2 ^ 64 % 8192 : Nat) - 4096 : Int) true

/-- The precisions that a search tries: each only where the one before does not decide. -/
def zivSteps : List Nat := (upto 9 55).map (fun k => 2 ^ k)

/-- The result of a search, or the free value of function number fn at the operand. -/
def zivX (fn : Nat) (neg : Bool) (m : Nat) (e : Int) (f : Nat → Option (Nat × Int)) : XV :=
  match zivSearch f zivSteps with
  | some (r, q) => .val neg r q true
  | none => freeX fn neg m e.toNat (-e).toNat

/-- Σ over k of z^(2k+1)/(2k+1), signs alternating when alt, for z over 2^p: n terms left, the present odd power, and k. -/
def atanSeries (z2 p : Nat) (alt : Bool) : Nat → Nat → Nat → Int → Int
  | 0, _, _, acc => acc
  | n + 1, pow, k, acc =>
    let t : Int := pow / (2 * k + 1)
    let acc := if alt && k % 2 = 1 then acc - t else acc + t
    atanSeries z2 p alt n (pow * z2 / 2 ^ p) (k + 1) acc

/-- arctan(1/n) over 2^p. -/
def atanInv (n p : Nat) : Int := atanSeries (2 ^ p / (n * n)) p true (p / 4 + 2) (2 ^ p / n) 0 0

/-- π over 2^p (Machin's formula), to within 2^10 units. -/
def piFix (p : Nat) : Nat := (4 * (4 * atanInv 5 p - atanInv 239 p)).toNat

/-- atanh of z over 2^p. -/
def atanhFix (z p : Nat) : Nat := (atanSeries (z * z / 2 ^ p) p false (p / 3 + 2) z 0 0).toNat

/-- ln 2 over 2^p: 2 atanh(1/3). -/
def ln2Fix (p : Nat) : Nat := 2 * atanhFix (2 ^ p / 3) p

/-- Σ t^k/k! over 2^p for t over 2^p: n terms left. -/
def expSeries (t : Int) (p : Nat) : Nat → Int → Nat → Int → Int
  | 0, _, _, acc => acc
  | n + 1, term, k, acc => expSeries t p n (term * t / (2 ^ p * (k + 1) : Int)) (k + 1) (acc + term)

/-- sin of t over 2^p, for t below 1: the odd terms. -/
def sinSeries (t2 p : Nat) : Nat → Nat → Nat → Int → Int
  | 0, _, _, acc => acc
  | n + 1, term, k, acc =>
    let acc := if k % 2 = 1 then acc - term else acc + term
    sinSeries t2 p n (term * t2 / (2 ^ p * ((2 * k + 2) * (2 * k + 3)))) (k + 1) acc

/-- cos of t over 2^p, for t below 1: the even terms. -/
def cosSeries (t2 p : Nat) : Nat → Nat → Nat → Int → Int
  | 0, _, _, acc => acc
  | n + 1, term, k, acc =>
    let acc := if k % 2 = 1 then acc - term else acc + term
    cosSeries t2 p n (term * t2 / (2 ^ p * ((2 * k + 1) * (2 * k + 2)))) (k + 1) acc

/-- The dyadic m × 2^e over 2^p, floor. -/
def fixOf (m : Nat) (e : Int) (p : Nat) : Nat :=
  let s := e + p
  if 0 ≤ s then m * 2 ^ s.toNat else m / 2 ^ (-s).toNat

/-- A value within 2^40 units of v, as an enclosure. -/
def around (v : Int) (p : Nat) : Option (Nat × Int) :=
  if v < 2 ^ 40 then none else enclose (v - 2 ^ 40).toNat (v + 2 ^ 40).toNat p

/-- A value just above (below) one. -/
def nearOne (above : Bool) (e : Int) : XV :=
  if above then .val false (2 ^ 400) (e - 400) true else .val false (2 ^ 400 - 1) (e - 400) true

/-- 2^x for a real x = (−1)^neg m 2^e (R93, R118); exact for integral x. -/
def exp2X (neg : Bool) (m : Nat) (e : Int) : XV :=
  if m = 0 then .val false 1 0 false
  else if 20 < e + nbits m then
    -- |x| is at least 2^20: beyond every format's range, and exact above for integral x (R89)
    if neg then .val false 1 (-(2 ^ 20)) true
    else if 0 ≤ e ∨ m % 2 ^ (-e).toNat = 0 then .val false 1 (2 ^ 20) false
    else nearOne true (2 ^ 20)
  else if e + nbits m < -300 then nearOne (!neg) 0
  else
    let n := (rintX 1 0 neg m e false).1
    if 0 ≤ e then .val false 1 n false
    else
      let k := (-e).toNat
      let xs : Int := if neg then -(m : Int) else m
      let f := xs - n * 2 ^ k
      if f = 0 then .val false 1 n false
      else if nbits f.natAbs + 300 < k then nearOne (decide (0 < f)) n
      else zivX 5 false m e (fun p =>
        let t := if p < k then f / (2 ^ (k - p) : Int) else f * 2 ^ (p - k)
        let v := expSeries (t * ln2Fix p / 2 ^ p) p (p / 2) (2 ^ p) 0 0
        (around v p).map (fun r => (r.1, r.2 + n)))

/-- log₂ of m × 2^e, m not 0 (R118); exact for powers of two. -/
def log2X (m : Nat) (e : Int) : XV :=
  let b := nbits m - 1
  let n : Int := e + b
  if m = 2 ^ b then intX n
  else
    zivX 6 (decide (n < 0)) m e (fun p =>
      let y := fixOf m (-(b : Int)) p
      let one := 2 ^ p
      let w := 2 * atanhFix ((y - one) * one / (y + one)) p
      let v : Int := n * one + w * one / ln2Fix p
      around (if n < 0 then -v else v) p)

/-- The sign of the result of `log2X` is that of n only; log₂ of a value in (2^−1, 1) has n = −1 and is negative. -/
def log2V (m : Nat) (e : Int) : XV := log2X m e

/-- sin(π r) for r = m × 2^e in (0, 1/4], or cos(π r) likewise. -/
def sinCosX (cos : Bool) (m : Nat) (e : Int) : XV :=
  let sz := e + nbits m
  if cos && decide (sz < -200) then nearOne false 0
  else
    zivX (if cos then 8 else 7) false m e (fun p0 =>
      let p := if cos then p0 else p0 + (-sz).toNat
      let t := fixOf m e (p + 8) * piFix (p + 8) / 2 ^ (p + 16)
      let t2 := t * t / 2 ^ p
      let v := if cos then cosSeries t2 p (p0 / 3) (2 ^ p) 0 0 else sinSeries t2 p (p0 / 3) t 0 0
      around v p)

/-- A value with its sign flipped when neg. -/
def XV.signed (neg : Bool) : XV → XV
  | .val n m e s => .val (n != neg) m e s
  | .inf n => .inf (n != neg)
  | .nan => .nan

/-- sin(π x) for x = m × 2^e, 0 ≤ x, written as the eighth the argument falls in (R119). -/
def sinPos (m : Nat) (e : Int) : XV :=
  if m = 0 ∨ 1 ≤ e then .val false 0 0 false
  else
    let k := (-e).toNat
    let e := if 0 ≤ e then 0 else e
    let one := 2 ^ k
    let r := m % (2 * one)
    let neg := one ≤ r
    let r := r % one
    -- sin(π r) with r in [0, 1): reflect to [0, 1/2]
    let r := if one < 2 * r then one - r else r
    if r = 0 then .val neg 0 0 false
    else if 2 * r = one then .val neg 1 0 false
    else if 4 * r ≤ one then (sinCosX false r e).signed neg
    else -- sin(π r) = cos(π (1/2 − r)); over 2^(k+1)
      (sinCosX true (one - 2 * r) (e - 1)).signed neg

/-- cos(π x) for x = m × 2^e, 0 ≤ x: sin(π (x + 1/2)). -/
def cosPos (m : Nat) (e : Int) : XV :=
  if m = 0 then .val false 1 0 false
  else if 0 ≤ e then .val (decide (e = 0 ∧ m % 2 = 1)) 1 0 false
  else if e + nbits m < -200 then nearOne false 0
  else
    let k := (-e).toNat
    match sinPos (2 * m + 2 ^ k) (e - 1) with
    | .val _ 0 _ _ => .val false 0 0 false
    | v => v

/-- Multiply two lower and upper significands over a common exponent, keeping 1,200 bits. -/
def powMul (a b : Nat × Nat × Int) : Nat × Nat × Int :=
  let lo := a.1 * b.1
  let hi := a.2.1 * b.2.1
  let e := a.2.2 + b.2.2
  let s := nbits hi - 1200
  if nbits hi ≤ 1200 then (lo, hi, e) else (lo / 2 ^ s, hi / 2 ^ s + 1, e + s)

/-- (m × 2^e)^n for n ≥ 1 by its bits, the lower and upper significands kept. -/
def powFrom (base : Nat × Nat × Int) : Nat → Nat → Nat × Nat × Int → Nat × Nat × Int
  | 0, _, acc => acc
  | k + 1, n, acc =>
    let acc := powMul acc acc
    powFrom base k n (if n / 2 ^ k % 2 = 1 then powMul acc base else acc)

/-- |x|^n for x = m × 2^e, m not 0, n a natural number (R154), as a value to round. -/
def powX (m : Nat) (e : Int) (n : Nat) : XV :=
  if m = 1 then .val false 1 (e * n) false
  else
    let r := powFrom (m, m, e) 64 n (1, 1, 0)
    if r.1 = r.2.1 then .val false r.1 r.2.2 false
    else
      let s := nbits r.2.1 - 500
      if r.1 / 2 ^ s = r.2.1 / 2 ^ s then .val false (r.1 / 2 ^ s) (r.2.2 + s) true
      else .val false (m ^ n) (e * n) false

/-- 1/|x|^n (R154), as a value to round. -/
def powInvX (m : Nat) (e : Int) (n : Nat) : XV :=
  if m = 1 then .val false 1 (-(e * n)) false
  else
    let r := powFrom (m, m, e) 64 n (1, 1, 0)
    if r.1 = r.2.1 then quotX false 1 r.1 (-r.2.2)
    else
      let k := nbits r.2.1 + 500
      let lo := 2 ^ k / r.2.1
      let hi := 2 ^ k / r.1 + 1
      if lo / 2 ^ 64 = hi / 2 ^ 64 then .val false (lo / 2 ^ 64) (64 - (k : Int) - r.2.2) true
      else quotX false 1 (m ^ n) (-(e * n))

end Sys2Proof.Machine
end

