-- ==== Sys2Proof/Machine/Real.lean ====
section
/-!
DEFINITION. Floating-point functions on points (R113 to R120) and on intervals (R136 to R148), as values to round, and the lane-wise
results of words that compute them.
-/
namespace Sys2Proof.Machine

/-! ## Points -/

/-- The generator after one stochastic rounding, and its 32 bits (R89, R90). -/
def genBits (g : W64) : Nat := (genStep g >>> 32).toNat

/-- Round for a lane: the bits, and the lane's generator afterwards (R89, R94). -/
def rndGen (F : Fmt) (mode : Nat) (g : W64) (x : XV) : Nat × W64 :=
  let r := roundF F mode (genBits g) x
  (r.1, if r.2 then genStep g else g)

/-- The exact value of an FARITH function (R113), the sign of an exact zero as R114 gives it under the mode. -/
def farithX (fn mode : Nat) (x y z : FV) : XV :=
  if fn = 0 then addFV mode x y
  else if fn = 1 then addFV mode x (negFV y)
  else if fn = 2 then (mulFV x y).toX
  else if fn = 3 then addFV mode (mulFV x y) z
  else if fn = 4 then addFV mode (mulFV x y) (negFV z)
  else addFV mode (negFV (mulFV x y)) z

/-- FMIN and FMAX on encodings (R115): −0 is below +0; one NaN gives the other operand. -/
def fminBits (F : Fmt) (isMax : Bool) (a b : Nat) : Nat :=
  let x := decodeF F a
  let y := decodeF F b
  if x.isNan then (if y.isNan then qnan F else b)
  else if y.isNan then a
  else
    let c := cmpFV x y
    let less := decide (c < 0) || (decide (c = 0) && x.isNeg && !y.isNeg)
    if less != isMax then a else if c = 0 ∧ x.isNeg = y.isNeg then a else b

/-- A point FCMP relation (R116); fn as in FCMP. -/
def fcmpPoint (fn : Nat) (x y : FV) : Tri :=
  if x.isNan || y.isNan then (if fn = 6 then .t else .u)
  else
    let c := cmpFV x y
    Tri.ofBool (
      if fn = 0 then c < 0 else if fn = 1 then c ≤ 0 else if fn = 2 then c = 0 else if fn = 3 then c ≠ 0
      else if fn = 4 then 0 < c else if fn = 5 then 0 ≤ c else false)

/-- An integral rounding of a value, keeping the sign of a zero result (R119). -/
def rintFV (mode g : Nat) : FV → XV × Bool
  | .nan => (.nan, false)
  | .inf n => (.inf n, false)
  | .fin n m e =>
    if 0 ≤ e then (.val n m e false, false)
    else
      let r := shiftRound n m (-e).toNat false mode g
      (.val n r.1 0 false, r.2 && mode = 5)

/-- A rounded FUNARY function of a point (R118, R119): codes 2 to 8. -/
def funaryX (code : Nat) (x : FV) : XV :=
  match x with
  | .nan => .nan
  | .inf n =>
    if code = 2 then (if n then .nan else .inf false)
    else if code = 3 then .val n 0 0 false
    else if code = 4 then (if n then .nan else .val false 0 0 false)
    else if code = 5 then (if n then .val false 0 0 false else .inf false)
    else if code = 6 then (if n then .nan else .inf false)
    else .nan
  | .fin n m e =>
    if code = 2 then (if m = 0 then .val n 0 0 false else if n then .nan else sqrtX m e)
    else if code = 3 then (if m = 0 then .inf n else quotX n 1 m (-e))
    else if code = 4 then (if m = 0 then .inf n else if n then .nan else rsqrtX m e)
    else if code = 5 then exp2X n m e
    else if code = 6 then (if m = 0 then .inf true else if n then .nan else log2X m e)
    else if code = 7 then (match sinPos m e with
      | .val _ 0 _ _ => .val n 0 0 false
      | v => v.signed n)
    else cosPos m e

/-- The class of a point (R120). -/
def fclassBit (F : Fmt) (w : Nat) : Nat :=
  match decodeF F w with
  | .nan => 8
  | .inf n => if n then 0 else 7
  | .fin n m _ =>
    if m = 0 then (if n then 3 else 4)
    else if m < 2 ^ (F.p - 1) then (if n then 2 else 5)
    else if n then 1 else 6

/-! ## Intervals -/

/-- An interval of exact bounds (R136). -/
structure Iv where
  lo : FV
  hi : FV

/-- The bounds of an interval element (R58). -/
def ivOf (F : Fmt) (e : Elem) : Iv := ⟨decodeF F (ivLoBits F.bits e), decodeF F (ivHiBits F.bits e)⟩

/-- The check of an interpreted interval (R136, R139). -/
def Iv.check (x : Iv) : Except Cause Iv :=
  if x.lo.isNan || x.hi.isNan then .error .invalidInterval
  else if 0 < cmpFV x.lo x.hi ∨ cmpFV x.lo (.inf false) = 0 ∨ cmpFV x.hi (.inf true) = 0 then .error .emptyInterval
  else .ok x

/-- A source as a checked interval: a point is promoted (R138, R139). -/
def ivSource (w : Nat) (s : Shape) (e : Elem) : Except Cause Iv := (ivOf (fmtOf w) (promote w s e)).check

/-- A zero bound is encoded +0.0 (R137). -/
def plusZero (F : Fmt) (b : Nat) : Nat := if b = signBit F true then 0 else b

/-- `outward` of two exact bounds (R93, R143), as an element. -/
def outwardX (F : Fmt) (lo hi : XV) : Elem :=
  ivElem F.bits (plusZero F (roundN F 3 lo)) (plusZero F (roundN F 4 hi))

/-- The lesser and the greater of two values that are no NaN. -/
def minFV (x y : FV) : FV := if cmpFV x y ≤ 0 then x else y
/-- The greater. -/
def maxFV (x y : FV) : FV := if cmpFV x y < 0 then y else x

/-- A product of bounds: 0 times an infinity is 0 (R144). -/
def ivMul (x y : FV) : FV := if x.isZero || y.isZero then .fin false 0 0 else mulFV x y

/-- The least and greatest of the four products (R144). -/
def ivProducts (a b : Iv) : Iv :=
  let p := ivMul a.lo b.lo
  let q := ivMul a.lo b.hi
  let r := ivMul a.hi b.lo
  let t := ivMul a.hi b.hi
  ⟨minFV (minFV p q) (minFV r t), maxFV (maxFV p q) (maxFV r t)⟩

/-- FARITH on intervals (R144): the exact bounds. -/
def farithIv (fn : Nat) (a b z : Iv) : XV × XV :=
  let p := ivProducts a b
  if fn = 0 then (addFV 1 a.lo b.lo, addFV 1 a.hi b.hi)
  else if fn = 1 then (addFV 1 a.lo (negFV b.hi), addFV 1 a.hi (negFV b.lo))
  else if fn = 2 then (p.lo.toX, p.hi.toX)
  else if fn = 3 then (addFV 1 p.lo z.lo, addFV 1 p.hi z.hi)
  else if fn = 4 then (addFV 1 p.lo (negFV z.hi), addFV 1 p.hi (negFV z.lo))
  else if fn = 5 then (addFV 1 z.lo (negFV p.hi), addFV 1 z.hi (negFV p.lo))
  else if fn = 6 then ((minFV a.lo b.lo).toX, (minFV a.hi b.hi).toX)
  else ((maxFV a.lo b.lo).toX, (maxFV a.hi b.hi).toX)

/-- −1, 0 or 1 as a value is negative, zero or positive. -/
def sgnFV (x : FV) : Int := cmpFV x (.fin false 0 0)

/-- 1/x of a bound: an infinite bound gives 0. -/
def rcpX : FV → XV
  | .fin n m e => if m = 0 then .inf n else quotX n 1 m (-e)
  | _ => .val false 0 0 false

/-- x of a bound rounded to an integer by mode; infinities unchanged (R145, R147). -/
def rintBound (mode : Nat) (x : FV) : XV := (rintFV mode 0 x).1

/-- Twice a finite value, floored to an integer. -/
def floorTwice : FV → Int
  | .fin n m e => floorV n m (e + 1)
  | _ => 0

/-- A critical point of FSIN (k + ½, of value +1 for even k) or FCOS (k, of value +1 for even k) of the wanted value lies in a finite
interval (R146): in units of ½, FSIN's maxima are at 1 mod 4 and its minima at 3 mod 4; FCOS's at 0 and 2 mod 4. -/
def hasCritical (a : Iv) (res : Int) : Bool :=
  let lo := -(floorTwice (negFV a.lo))
  let hi := floorTwice a.hi
  let first := lo + (res - lo) % 4
  decide (first ≤ hi)

/-- The function of R146 at a bound. -/
def trigX (cos : Bool) (x : FV) : XV := funaryX (if cos then 8 else 7) x

/-- The lesser of two reals' roundings. -/
def minBits (F : Fmt) (mode : Nat) (x y : XV) : Nat :=
  let a := roundN F mode x
  let b := roundN F mode y
  if cmpFV (decodeF F a) (decodeF F b) ≤ 0 then a else b

/-- The greater of two roundings. -/
def maxBits (F : Fmt) (mode : Nat) (x y : XV) : Nat :=
  let a := roundN F mode x
  let b := roundN F mode y
  if cmpFV (decodeF F a) (decodeF F b) < 0 then b else a

/-- FSIN and FCOS on an interval (R146), as an element. Rounding is monotone, so the least of the rounded values is the rounded least. -/
def trigIv (F : Fmt) (cos : Bool) (a : Iv) : Elem :=
  let one : XV := .val false 1 0 false
  let minusOne : XV := .val true 1 0 false
  let wide := match addFV 1 a.hi (negFV a.lo) with
    | .val n m e _ => decide (0 ≤ cmpFV (.fin n m e) (.fin false 2 0))
    | _ => true
  if a.lo.isInf || a.hi.isInf || wide then outwardX F minusOne one
  else
    let f := trigX cos a.lo
    let g := trigX cos a.hi
    let lo := if hasCritical a (if cos then 2 else 3) then roundN F 3 minusOne else minBits F 3 f g
    let hi := if hasCritical a (if cos then 0 else 1) then roundN F 4 one else maxBits F 4 f g
    ivElem F.bits (plusZero F lo) (plusZero F hi)

/-- FUNARY on an interval (R145 to R147): codes 0 to 11; `mode` is mode(FN) for FRINT. -/
def funaryIv (F : Fmt) (code mode : Nat) (a : Iv) : Except Cause Elem :=
  let zero : FV := .fin false 0 0
  let out := fun (lo hi : XV) => Except.ok (outwardX F lo hi)
  if code = 0 then
    if 0 ≤ sgnFV a.lo then out a.lo.toX a.hi.toX
    else if sgnFV a.hi ≤ 0 then out (negFV a.hi).toX (negFV a.lo).toX
    else out zero.toX (maxFV (negFV a.lo) a.hi).toX
  else if code = 1 then out (negFV a.hi).toX (negFV a.lo).toX
  else if code = 2 then
    if sgnFV a.hi < 0 then .error .emptyInterval
    else out (funaryX 2 (maxFV a.lo zero)) (funaryX 2 a.hi)
  else if code = 3 then
    if sgnFV a.lo = 0 ∧ sgnFV a.hi = 0 then .error .emptyInterval
    else if sgnFV a.lo = 0 then out (rcpX a.hi) (.inf false)
    else if sgnFV a.hi = 0 then out (.inf true) (rcpX a.lo)
    else if sgnFV a.lo < 0 ∧ 0 < sgnFV a.hi then out (.inf true) (.inf false)
    else out (rcpX a.hi) (rcpX a.lo)
  else if code = 4 then
    if sgnFV a.hi ≤ 0 then .error .emptyInterval
    else out (funaryX 4 a.hi) (if 0 < sgnFV a.lo then funaryX 4 a.lo else .inf false)
  else if code = 5 then out (funaryX 5 a.lo) (funaryX 5 a.hi)
  else if code = 6 then
    if sgnFV a.hi ≤ 0 then .error .emptyInterval
    else out (if sgnFV a.lo ≤ 0 then .inf true else funaryX 6 a.lo) (funaryX 6 a.hi)
  else if code = 7 then .ok (trigIv F false a)
  else if code = 8 then .ok (trigIv F true a)
  else if code = 9 then out (rintBound 3 a.lo) (rintBound 3 a.hi)
  else if code = 10 then out (rintBound 4 a.lo) (rintBound 4 a.hi)
  else if mode = 5 then out (rintBound 3 a.lo) (rintBound 4 a.hi)
  else out (rintBound mode a.lo) (rintBound mode a.hi)

/-- FCMP on intervals (R155). -/
def fcmpIv (fn : Nat) (a b : Iv) : Tri :=
  let lt := fun (x y : FV) => decide (cmpFV x y < 0)
  let le := fun (x y : FV) => decide (cmpFV x y ≤ 0)
  let same := le a.hi a.lo && le b.hi b.lo && decide (cmpFV a.lo b.lo = 0)
  let apart := lt (minFV a.hi b.hi) (maxFV a.lo b.lo)
  let pick := fun (t f : Bool) => if t then Tri.t else if f then Tri.f else Tri.u
  if fn = 0 then pick (lt a.hi b.lo) (le b.hi a.lo)
  else if fn = 1 then pick (le a.hi b.lo) (lt b.hi a.lo)
  else if fn = 2 then pick same apart
  else if fn = 3 then pick apart same
  else if fn = 4 then pick (lt b.hi a.lo) (le a.hi b.lo)
  else if fn = 5 then pick (le b.hi a.lo) (lt a.hi b.lo)
  else .f

/-! ## Lane-wise results -/

/-- A lane's result: its bits and its generator afterwards, or the cause that the lane raises. -/
structure LaneOut where
  lane : Nat
  res : Except Cause (Elem × W64)

/-- Lanes that raise a cause. -/
def lanesOf (rs : List LaneOut) (cause : Cause) : List Nat :=
  (rs.filter (fun r => match r.res with
    | .error x => decide (x = cause)
    | .ok _ => false)).map (·.lane)

/-- The fault of a word whose lanes raise interval causes: INVALID_INTERVAL before EMPTY_INTERVAL (R141). -/
def laneTrap (rs : List LaneOut) : Option Trap :=
  if lanesOf rs .invalidInterval ≠ [] then some ⟨.invalidInterval, listMask (lanesOf rs .invalidInterval), 0⟩
  else if lanesOf rs .emptyInterval ≠ [] then some ⟨.emptyInterval, listMask (lanesOf rs .emptyInterval), 0⟩
  else none

/-- The values of lanes that have one. -/
def laneVals (rs : List LaneOut) : List (Nat × Elem) :=
  rs.filterMap (fun r => match r.res with
    | .ok v => some (r.lane, v.1)
    | .error _ => none)

/-- The generators of lanes that have a value. -/
def laneGens (rs : List LaneOut) : List (Nat × W64) :=
  rs.filterMap (fun r => match r.res with
    | .ok v => some (r.lane, v.2)
    | .error _ => none)

/-- One register write of lane-wise results. -/
def laneOut (d : Nat) (k : Shape) (rs : List LaneOut) : Out :=
  { Out.v d k (laneVals rs) with gens := laneGens rs, err := laneTrap rs }

/-- The lane's generator as it stands, after what an earlier word of the chain made of it (R89, R90). (DESIGN CHOICE, log entry 9.) -/
def Ctx.gen (c : Ctx) (l : Nat) : W64 := (c.grp.lane l).gen

/-- Of several sources, the cause that counts first (R141): INVALID_INTERVAL, then EMPTY_INTERVAL. -/
def worseCause (rs : List (Except Cause Iv)) : Cause :=
  if rs.any (fun r => match r with
    | .error .invalidInterval => true
    | _ => false) then .invalidInterval else .emptyInterval

/-- Predicate results of lanes, or the causes they raise (R155, R156). -/
def triOut (q : Nat) (rs : List (Nat × Except Cause Tri)) : Out :=
  { Out.q q (rs.filterMap (fun r => match r.2 with
      | .ok x => some (r.1, x)
      | .error _ => none)) with
    err := laneTrap (rs.map (fun r => ⟨r.1, r.2.map (fun _ => (0, 0))⟩)) }

/-- `mode(m)`: the dynamic mode for code 0 (R93). -/
def Ctx.mode (c : Ctx) (m : Nat) : Nat := if m = 0 then c.src.ctrl.round.toNat else m

/-- Every source of a list has one width: that width, and whether one is an interval (R63, R95). -/
def Ctx.fltWidth (c : Ctx) (regs : List Nat) : Option (Nat × Bool) :=
  match regs with
  | [] => none
  | r :: _ =>
    let w := (c.src.shape r).width
    if regs.all (fun q => decide ((c.src.shape q).width = w)) then some (w, regs.any (fun q => (c.src.shape q).isIv)) else none

/-- A source of lane l as a checked interval of width w. -/
def Ctx.iv (c : Ctx) (w r l : Nat) : Except Cause Iv := ivSource w (c.src.shape r) (c.src.read r l)

/-- The intervals of a list of sources, if every one is valid. -/
def goodIvs : List (Except Cause Iv) → Option (List Iv)
  | [] => some []
  | .ok x :: t => (goodIvs t).map (x :: ·)
  | .error _ :: _ => none

/-- What `op` makes of the interval sources of lane l, each promoted and checked (R138, R139); else the cause that goes first (R141). -/
def Ctx.onIv (c : Ctx) (w : Nat) (regs : List Nat) (l : Nat) (op : List Iv → Except Cause Elem) : Except Cause Elem :=
  let srcs := regs.map (fun r => c.iv w r l)
  match goodIvs srcs with
  | some xs => op xs
  | none => .error (worseCause srcs)

/-- A lane's interval result with its generator, which no interval word advances (R140). -/
def Ctx.keepGen (c : Ctx) (l : Nat) (r : Except Cause Elem) : Except Cause (Elem × W64) := r.map (fun e => (e, c.gen l))

/-- A relation of two interval sources of lane l. -/
def Ctx.triIv (c : Ctx) (w a b l : Nat) (rel : Iv → Iv → Tri) : Except Cause Tri :=
  match c.iv w a l, c.iv w b l with
  | .ok x, .ok y => .ok (rel x y)
  | x, y => .error (worseCause [x, y])

/-- A source of lane l as a point of width w. -/
def Ctx.pt (c : Ctx) (w r l : Nat) : FV := decodeF (fmtOf w) (c.src.readN r l)

end Sys2Proof.Machine
end

