-- ==== Sys2Proof/Machine/Memory.lean ====
section
/-!
DEFINITION. The memory words of major MEM (R276 to R288), and ACQP, FENCE and CACHE (R293 to R297), in a group; LD in a slice (R252).
-/
namespace Sys2Proof.Machine

/-! ## Sizes -/

/-- Bytes of a size code (R277). -/
def szBytes (z : Nat) : Nat := if z = 0 ∨ z = 1 then 1 else if z = 2 ∨ z = 3 then 2 else if z = 4 then 4 else if z = 7 then 16 else 8
/-- Alignment of a size code (R270). -/
def szAlign (z : Nat) : Nat := if z = 6 then 4 else if z = 7 then 8 else szBytes z
/-- The shape of a size code (R277). -/
def szShape (z : Nat) : Shape := if z = 5 then .p64 else if z = 6 then .i32 else if z = 7 then .i64 else .p32
/-- Sign extension of a size code. -/
def szSigned (z : Nat) : Bool := z = 1 || z = 3

/-- The address of lane l: a + sext(off5) × scale, modulo 2^64 (R280). -/
def Ctx.addr (c : Ctx) (a o scale l : Nat) : W64 := (c.src.read a l).setWidth 64 + BitVec.ofInt 64 (sextN o 5 * scale)

/-- The loaded bytes as an element (R277, R142). -/
def loadElem (z : Nat) (bs : List Byte) : Elem :=
  let n := leNat bs
  elemN (if szSigned z then wrapInt (sextN n (8 * bs.length)) 32 else n)

/-! ## Loads -/

/-- What a load finds in a lane: its value; data that cannot be returned; or a party outside must answer. -/
inductive Loaded where
  | value (e : Elem)
  | bad
  | outside (p : Piece)

/-- A lane's load at a place. -/
def State.loadAt (s : State) (c : Ctx) (z l n : Nat) (p : Place) : Loaded :=
  if s.outsidePlace p || s.tapPlace p then
    match p with
    | .global (q :: _) => .outside q
    | _ => .bad
  else if s.badPlace p then .bad
  else .value (loadElem z (s.readPlace c.wg c.who.grp l n p))

/-- The interval causes of a lane's image (R142). -/
def ivImage (z : Nat) (e : Elem) : Option Cause :=
  if z = 6 ∨ z = 7 then
    match (ivOf (fmtOf (szShape z).width) e).check with
    | .error x => some x
    | .ok _ => none
  else none

/-- The trap of lanes whose loaded images are no intervals (R141, R142). (DEDUCED, log entry 51.) -/
def imageTrap (z : Nat) (vals : List (Nat × Elem)) (addr : Nat → W64) : Option Trap :=
  let of_ := fun (x : Cause) => (vals.filter (fun v => decide (ivImage z v.2 = some x))).map (·.1)
  match of_ .invalidInterval, of_ .emptyInterval with
  | l :: t, _ => some ⟨.invalidInterval, listMask (l :: t), addr l⟩
  | [], l :: t => some ⟨.emptyInterval, listMask (l :: t), addr l⟩
  | [], [] => none

/-- Lanes at parties outside, combined where they name one address of a peer (R281, R291); accesses to MMIO pages never are (R389). -/
def combineLanes (xs : List (Nat × Piece)) : List (List Nat × Piece) :=
  xs.foldl (fun r x =>
    if attrType x.2.attr ≠ 1 ∧ r.any (fun y => decide (y.2.va = x.2.va)) = true then
      r.map (fun y => if y.2.va = x.2.va then (y.1 ++ [x.1], y.2) else y)
    else r ++ [([x.1], x.2)]) []

/-- The lanes of a combined access, with no operands. -/
def loadLanes (ls : List Nat) : List (Nat × W64 × W64) := ls.map (fun l => (l, 0, 0))

/-- Loads of lanes at a party outside are sent, of the word numbered b: their register write is outstanding until the answer comes (R498, R523).
(DEDUCED, log entry 76.) -/
def State.sendLoad (s : State) (who : Who) (b d : Nat) (work : OutsideWork) (acq : Bool) (va : W64) (ls : List Nat) (p : Piece) : State :=
  let f := s.fresh
  (f.2.post { f.2.outsideAt f.1 b who (loadLanes ls) p.pa p.attr va work with acq := acq }).modGroup who.core who.wg who.grp (fun g =>
    { g with pend := g.pend ++ [{ id := f.1, reg := .v d, mask := listMask ls, fixed := false, due := none, old := [] }] })

/-- What a load of size z does when its answer comes. -/
def loadWork (d z : Nat) : OutsideWork := .load d (szShape z) (szSigned z) (szBytes z)

/-- The interval image of a lane at a peer is asked for, piece by piece, for the sleeping word numbered w (R142, R523): the bounds of an image that
two lines hold lie one in each. -/
def State.sendImage (s : State) (c : Ctx) (w : Nat) (acq : Bool) (va : W64) (ls : List Nat) (ps : List Piece) : State :=
  ps.foldl (fun s q =>
    let f := s.fresh
    f.2.post { f.2.outsideAt f.1 w c.who (loadLanes ls) q.pa q.attr (BitVec.ofNat 64 q.va) (.image w (q.va - va.toNat) q.len) with acq := acq }) s

/-- The pieces of a lane's access. -/
def lanePieces (rs : List (Nat × Except Cause Place)) (l : Nat) : List Piece :=
  placePieces ((rs.filter (fun r => decide (r.1 = l))).filterMap (fun r => r.2.toOption))

/-- A lane put into a list of lanes in ascending order. -/
def insertLane (x : Nat × W64) : List (Nat × W64) → List (Nat × W64)
  | [] => [x]
  | y :: t => if x.1 < y.1 then x :: y :: t else if x.1 = y.1 then x :: t else y :: insertLane x t

/-- The group notes destination lanes whose data could not be returned, with their data addresses (R287): in one record for each word. -/
def Group.fail (g : Group) (reg : RegName) (batch : Nat) (lanes : List (Nat × W64)) : Group :=
  let mine := fun (f : FailedRead) => decide (f.reg = reg ∧ f.batch = batch ∧ f.precise = false)
  if lanes = [] then g
  else if g.failed.any mine then
    { g with failed := g.failed.map (fun f => if mine f then { f with lanes := lanes.foldl (fun l x => insertLane x l) f.lanes } else f) }
  else { g with failed := g.failed ++ [⟨reg, lanes, batch, false⟩] }

/-- A register write that an answer completes (R31, R287): the values of some lanes, and lanes whose data could not be returned. -/
def Group.land (g : Group) (reg batch : Nat) (sh : Shape) (ok : List (Nat × Elem)) (bad : List (Nat × W64)) : Group :=
  let g := { g with failed := clearFailed g.failed (Out.v reg sh (ok ++ bad.map (fun (x : Nat × W64) => (x.1, 0)))) }
  ((g.put g.regs (Out.v reg sh ok)).fail (.v reg) batch bad).settle

/-- A group's load of size z with the checks of k (R280, R281, R286, R287): the destination's checks, then the data, interval images checked before
any lane is written (R142). (DEDUCED, log entry 76.) -/
def loadGroup (k : Acc) (d a o z h : Nat) (acq : Bool) (c : Ctx) (u : Uses) (s : State) : Did :=
  if c.src.shape a ≠ .p64 then .trap c.shapeTrap false s
  else
    let n := szBytes z
    let addr := c.addr a o n
    let r := s.places c.core c.wg k (c.act.map (fun l => (l, addr l)))
    let err := accTrap (r.1.filter (fun x => !c.helperZero x)) addr
    if err.isNone && r.2.stalls r.1 then .hold s
    else c.takeIn u { Out.v d (szShape z) [] with err := err } r.2 (fun s =>
      let s := s.l1Reads c.core c.wg.asid h c.src.ctrl.hint.toNat (s.herePieces (r.1.filterMap (fun x => x.2.toOption)))
      let got := r.1.map (fun x => (x.1, match x.2 with
        | .error _ => Loaded.value 0
        | .ok p => s.loadAt c z x.1 n p))
      let vals := got.filterMap (fun x => match x.2 with
        | .value e => some (x.1, e)
        | _ => none)
      let bad := (got.filterMap (fun x => match x.2 with
        | .bad => some x.1
        | _ => none)).map (fun l => (l, addr l))
      let out := got.filterMap (fun x => match x.2 with
        | .outside p => some (x.1, p)
        | _ => none)
      let f := s.fresh
      if 6 ≤ z ∧ out ≠ [] then
        .sleep ((combineLanes out).foldl (fun s x => s.sendImage c f.1 acq (addr (x.1.headD 0)) x.1 (lanePieces r.1 (x.1.headD 0))) f.2)
          { id := f.1, mask := c.mask, pc := c.pc, kind := .images z vals (bad.map (·.1)) (c.act.map (fun l => (l, addr l))), dv := some d,
            dshape := szShape z, dq := none, rest := none }
      else match imageTrap z vals addr with
        | some t => .trap t false s
        | none =>
          let s := c.apply u u.cls (Out.v d (szShape z) vals) (if bad = [] ∧ out = [] then s else f.2)
          let s := (combineLanes out).foldl (fun s x => s.sendLoad c.who f.1 d (loadWork d z) acq (addr (x.1.headD 0)) x.1 x.2) s
          .done (if bad = [] then s else s.modCur (fun g => g.fail (.v d) f.1 bad)))

/-- The access kind of LD and LDA. -/
def ldAcc (z h : Nat) : Acc := Acc.plain .read (szAlign z) (szBytes z) (decide (z < 6)) h

/-- A slice's LD (R252, R257): no private window; the value fills all 64 bits. -/
def loadSlice (f : MMem) (x : Slice) (s : State) : SliceDid :=
  if 6 ≤ f.z then .fault .illegalOp none
  else match s.curWg with
    | none => .fault .illegalOp none
    | some w =>
      let a := x.reg f.a + BitVec.ofInt 64 (sextN f.o 5 * szBytes f.z)
      match s.place s.cur.who.core w true (ldAcc f.z f.h) a with
      | (.error e, _) => .fault e (some a)
      | (.ok p, t) =>
        if t.stalls [(0, .ok p)] then .hold s
        else if t.outsidePlace p || t.tapPlace p then
          match p with
          | .global (q :: _) =>
            let n := t.fresh
            .sleep (n.2.post (n.2.outsideAt n.1 n.1 s.cur.who [(0, 0, 0)] q.pa q.attr a (.sliceLoad f.d (szSigned f.z) q.len)))
              { id := n.1, mask := 0, pc := x.pc, kind := .reply n.1, dv := none, dshape := .p64, dq := none, rest := none }
          | _ => .fault .access (some a)
        else if t.badPlace p then .fault .memUe (some a)
        else
          let t := t.l1Reads s.cur.who.core w.asid f.h 1 (placePieces [p])
          let bs := t.readPlace w 16 0 (szBytes f.z) p
          let v := if szSigned f.z then BitVec.ofInt 64 (sextN (leNat bs) (8 * bs.length)) else BitVec.ofNat 64 (leNat bs)
          .done (t.modCurSlice (fun y => y.setReg f.d v))

/-- LD: a relaxed load (R281). -/
def execLd (f : MMem) (s : State) : Host.Outcome State Fault Refusal :=
  bothWord (uX .m f.c [.v f.a] [.v f.d]) s (loadGroup (ldAcc f.z f.h) f.d f.a f.o f.z f.h false) (loadSlice f)

/-- LDA: an acquire load (R281). -/
def execLda (f : MMem) (s : State) : Host.Outcome State Fault Refusal :=
  groupWord (uX .m f.c [.v f.a] [.v f.d]) s (loadGroup (ldAcc f.z f.h) f.d f.a f.o f.z f.h true)

/-- ACQP: an acquire load at .dev that promotes (R297). -/
def execAcqp (c d a z : Nat) (s : State) : Host.Outcome State Fault Refusal :=
  let size := if z = 1 then 5 else 4
  groupWord (uX .m c [.v a] [.v d]) s
    (loadGroup ⟨.read, szBytes size, szBytes size, false, none, true, true, false, false⟩ d a 0 size 0 true)

/-! ## Stores -/

/-- Writes of the active lanes to parties outside are outstanding: a .sys release waits (R389, R526). -/
def State.writesOut (s : State) (c : Ctx) : Bool :=
  s.pkg.outside.any (fun o => decide (o.who = c.who) && o.lanes.any (fun x => c.act.contains x.1) && (match o.work with
    | .store => true
    | .atomic _ _ _ => true
    | _ => false))

/-- Reads of the active lanes at parties outside are outstanding. -/
def State.readsOut (s : State) (c : Ctx) : Bool :=
  s.pkg.outside.any (fun o => decide (o.who = c.who) && o.lanes.any (fun x => c.act.contains x.1) && decide (o.work ≠ .store))

/-- A .sys release of the active lanes waits (R383, R389, R526): what they have outstanding outside the package comes before it. -/
def State.sysHeld (s : State) (c : Ctx) : Bool := s.writesOut c || s.readsOut c

/-- A group's store (R280, R282, R286): lanes in ascending order. -/
def storeGroup (f : MMem) (rel : Bool) (c : Ctx) (u : Uses) (s : State) : Did :=
  if c.doers = [] then c.plain u s .done
  else if c.src.shape f.a ≠ .p64 ∨ c.src.shape f.d ≠ szShape f.z then .trap c.shapeTrap false s
  else if rel = true ∧ f.s = 5 ∧ s.sysHeld c = true then .hold s
  else
    let n := szBytes f.z
    let addr := c.addr f.a f.o n
    let k := Acc.plain .write (szAlign f.z) n (decide (f.z < 6)) f.h
    let r := s.places c.core c.wg k (c.doers.map (fun l => (l, addr l)))
    match accTrap r.1 addr with
    | some t => .trap t false r.2
    | none =>
      if r.2.stalls r.1 then .hold s
      else c.plain u r.2 (fun s => .done (r.1.foldl (fun s x => match x.2 with
        | .error _ => s
        | .ok p => s.storePlace c.who c.wg.asid x.1 f.h (addr x.1) (leBytes n (c.src.readN f.d x.1)) p) s))

/-- ST: a relaxed store (R282). -/
def execSt (f : MMem) (s : State) : Host.Outcome State Fault Refusal := groupWord (uX .m f.c [.v f.a, .v f.d] []) s (storeGroup f false)

/-- STL: a release store (R282). -/
def execStl (f : MMem) (s : State) : Host.Outcome State Fault Refusal := groupWord (uX .m f.c [.v f.a, .v f.d] []) s (storeGroup f true)

/-! ## Granules -/

/-- A granule that a word moves: its number, the lane that gives the address (R283), and whether all its active lanes are helpers. -/
def Ctx.granLanes (c : Ctx) : List (Nat × Nat × Bool) :=
  (upto 0 (c.grp.width / 8)).filterMap (fun g =>
    let ls := c.act.filter (fun l => decide (l / 8 = g))
    match ls with
    | [] => none
    | l :: _ => some (g, (ls.find? (fun k => !(c.grp.lane k).helper)).getD l, ls.all (fun k => (c.grp.lane k).helper)))

/-- The 33-byte record of row k of granule g of a register (R58). -/
def VReg.record (v : VReg) (w k g : Nat) : List Byte :=
  (upto 0 8).flatMap (fun i => leBytes 4 (rowOf (v.lanes.getD (8 * g + i) 0) k).toNat) ++ [v.side.getD (k * (w / 8) + g) 0]

/-- The checks of the records of a granule: rows of 33 bytes each at A + 33 k (R283). (DEDUCED, log entry 50.) -/
def State.granPlaces (s : State) (c : Ctx) (k : Acc) (a : W64) (l rows : Nat) : List (Nat × Except Cause Place) × State :=
  s.places c.core c.wg k ((upto 0 rows).map (fun r => (l, a + BitVec.ofNat 64 (33 * r))))

/-- All granules in turn. -/
def State.allGranPlaces (s : State) (c : Ctx) (k : Acc) (addr : Nat → W64) (rows : Nat) :
    List (Nat × Nat × Bool) → List ((Nat × Nat × Bool) × List (Nat × Except Cause Place)) × State
  | [] => ([], s)
  | g :: t =>
    let r := s.granPlaces c k (addr g.2.1) g.2.1 rows
    let q := r.2.allGranPlaces c k addr rows t
    ((g, r.1) :: q.1, q.2)

/-- The fault of granules that failed: it arose in every active lane of them (R317). (DEDUCED, log entry 50.) -/
def Ctx.granTrap (c : Ctx) (xs : List (Nat × Except Cause Place)) (addr : Nat → W64) : Option Trap :=
  (accTrap xs addr).map (fun t =>
    { t with mask := listMask (c.act.filter (fun l => (upto 0 8).any (fun k => t.mask.getLsbD (l / 8 * 8 + k)))) })

/-- The element that rows of records give lane i of a granule. -/
def recElem (recs : List (List Byte)) (i : Nat) : Elem :=
  elemN (leNat (recs.flatMap (fun b => (b.drop (4 * i)).take 4)))

/-- A granule that LDG moves: the granule, its address lane, whether all its active lanes are helpers, and the checks of its rows. -/
abbrev Gran := (Nat × Nat × Bool) × List (Nat × Except Cause Place)

/-- A granule of helpers whose access would fault receives zeros (R283, R286). -/
def granZero (addr : Nat → W64) (g : Gran) : Bool := g.1.2.2 && (accTrap g.2 addr).isSome

/-- The records of a granule as memory holds them. -/
def State.granRecords (s : State) (c : Ctx) (addr : Nat → W64) (g : Gran) : List (List Byte) :=
  g.2.map (fun x => match x.2 with
    | .error _ => List.replicate 33 (0 : Byte)
    | .ok p => if granZero addr g then List.replicate 33 0 else s.readPlace c.wg c.who.grp g.1.2.1 33 p)

/-- The first row of a granule whose data cannot be returned (R287). -/
def State.granBad (s : State) (addr : Nat → W64) (g : Gran) : Option Nat :=
  if granZero addr g then none
  else (upto 0 g.2.length).find? (fun k => match g.2[k]? with
    | some (_, .ok p) => s.badPlace p
    | _ => false)

/-- LDG: whole granules from 33-byte records (R283); data that cannot be returned leave all 8 lanes of their granule unwritten, at the address of
the record (R287). -/
def execLdg (f : MGran) (s : State) : Host.Outcome State Fault Refusal :=
  groupWord (uX .m f.c [.v f.a] [.v f.d]) s (fun c u s =>
    if c.src.shape f.a ≠ .p64 then .trap c.shapeTrap false s
    else
      let sh := c.src.shape f.d
      let addr := c.addr f.a f.o 33
      let r := s.allGranPlaces c (Acc.plain .read 1 33 false f.h) addr sh.rows c.granLanes
      let rows := r.1.flatMap (·.2)
      let err := c.granTrap ((r.1.filter (fun g => !granZero addr g)).flatMap (·.2)) addr
      if err.isNone && r.2.stalls rows then .hold s
      else c.takeIn u { Out.v f.d sh [] with err := err } r.2 (fun s =>
        let s := s.l1Reads c.core c.wg.asid f.h c.src.ctrl.hint.toNat (s.herePieces (rows.filterMap (fun x => x.2.toOption)))
        let good := r.1.filter (fun g => (s.granBad addr g).isNone)
        let recs := good.map (fun g => (g.1.1, s.granRecords c addr g))
        let n := c.grp.width / 8
        let vals := recs.flatMap (fun x => (upto 0 8).map (fun i => (8 * x.1 + i, recElem x.2 i)))
        let sides := recs.flatMap (fun x => lmapIdx (fun k (b : List Byte) => (k * n + x.1, b.getD 32 0)) 0 x.2)
        let bad := r.1.flatMap (fun g => match s.granBad addr g with
          | none => []
          | some k => (upto 0 8).map (fun i => (8 * g.1.1 + i, addr g.1.2.1 + BitVec.ofNat 64 (33 * k))))
        let b := s.fresh
        let s := c.apply u u.cls { Out.v f.d sh vals with sides := [(f.d, sides)] } (if bad = [] then s else b.2)
        .done (if bad = [] then s else s.modCur (fun g => g.fail (.v f.d) b.1 bad))))

/-- STG: whole granules to 33-byte records (R283, R286). -/
def execStg (f : MGran) (s : State) : Host.Outcome State Fault Refusal :=
  groupWord (uX .m f.c [.v f.a, .v f.d] []) s (fun c u s =>
    let gs := c.granLanes.filter (fun g => !g.2.2)
    if gs = [] then c.plain u s .done
    else if c.src.shape f.a ≠ .p64 then .trap c.shapeTrap false s
    else
      let v := c.src.vreg f.d
      let addr := c.addr f.a f.o 33
      let r := s.allGranPlaces c (Acc.plain .write 1 33 false f.h) addr v.shape.rows gs
      match c.granTrap (r.1.flatMap (·.2)) addr with
      | some t => .trap t false r.2
      | none =>
        if r.2.stalls (r.1.flatMap (·.2)) then .hold s
        else c.plain u r.2 (fun s => .done (r.1.foldl (fun s g =>
          (lmapIdx (fun k x => (k, x)) 0 g.2).foldl (fun s x => match x.2.2 with
            | .error _ => s
            | .ok p => s.storePlace c.who c.wg.asid g.1.2.1 f.h (addr g.1.2.1) (v.record c.grp.width x.1 g.1.1) p) s) s)))

/-! ## Lines -/

/-- A prefetch of lines toward a core (R284): each into its L1, or, at .die and wider, into its home slice only. -/
def State.prefetch (s : State) (core asid sc h hint : Nat) (ps : List Piece) : State :=
  (linePieces ps).foldl (fun s p =>
    if sc ≤ 2 then s.l1Read core asid p h hint true
    else if s.directed p.pa then (((s.reach (p.pa / 128)).l2Fill (p.pa / 128))).countRange asid p.va false true (s.absent (p.pa / 128)) else s) s

/-- PREF: the line of each lane's address comes toward the core, or into the home slice; a word that would fail a check of R280, its
address's shape among them, does nothing (R284). -/
def execPref (c a o sc h : Nat) (s : State) : Host.Outcome State Fault Refusal :=
  groupWord (uX .m c [.v a] []) s (fun x u s =>
    if x.src.shape a ≠ .p64 then x.plain u s (fun s => .done s)
    else
      let r := s.places x.core x.wg (Acc.plain .read 1 1 false 2) (x.act.map (fun l => (l, x.addr a o 128 l)))
      let ok := r.1.all (fun y => y.2.isOk) && !r.2.stalls r.1
      let ps := r.2.herePieces (r.1.filterMap (fun y => y.2.toOption))
      x.plain u r.2 (fun s => .done (if ok then s.prefetch x.core x.wg.asid sc h x.src.ctrl.hint.toNat ps else s)))

/-- The line of a core's L1 is written back and stays clean; at .dev and wider, memory takes it too (R285). -/
def State.writeBackLine (s : State) (core line : Nat) (toMemory : Bool) : State :=
  let m := s.l1Dirty core line
  let s := if m = 0 then s
    else (s.modCore core (fun k => { k with l1 := k.l1.map (fun y => if y.pline = line then { y with dirty := 0 } else y) })).markDirty line m
  if toMemory then s.modDir line (fun e => { e with dirty := 0 }) else s

/-- Bytes of a line become undefined, but for those of boarded words and of lines outside the mask (R288, R377). -/
def State.exposeLine (s : State) (line : Nat) (m : BitVec 128) : State :=
  let bs := (upto 0 128).filter (fun k => m.getLsbD k && !s.isBoarded (line * 128 + k))
  let d := s.drawList bs
  { d.2 with mem := d.1.foldl (fun t x => memPut t (line * 128 + x.1) (x.2.setWidth 8)) d.2.mem }

/-- LINE.INV of a line: the dirty bytes of the core's L1 are discarded, and at .dev and wider those of the home L2 copy that no other L1 has
written since (R285, R377). -/
def State.invalidateLine (s : State) (core line : Nat) (toMemory : Bool) : State :=
  let own := s.l1Dirty core line
  let e := s.dirOf line
  let others := (sharerList e.sharers).foldl (fun m k => m ||| s.dirtyIn k line) 0 &&& ~~~own
  let m := own ||| (if toMemory then e.dirty &&& ~~~others else 0)
  let s := if m = 0 then s else s.exposeLine line m
  let s := if toMemory then s.modDir line (fun e => { e with dirty := 0 }) else s
  if (s.core core).l1.any (fun y => y.pline = line) then (s.dropL1 core line).gaveUp (coreCluster core) line 0 else s

/-- The private bytes of a lane's line that are not written back. -/
def Lane.dirtyLine (x : Lane) (o : Nat) : List Nat := x.privDirty.filter (fun k => decide (k / 128 = o / 128))

/-- A lane's private line is written back (R285). -/
def State.cleanPriv (s : State) (l o : Nat) : State :=
  s.modCur (fun g => g.modLane l (fun y => { y with privDirty := y.privDirty.filter (fun k => decide (k / 128 ≠ o / 128)) }))

/-- Undefined values in the dirty bytes of a lane's private line (R285, R377). -/
def State.exposePriv (s : State) (c : Ctx) (l o : Nat) : State :=
  let d := s.drawList ((c.grp.lane l).dirtyLine o)
  (d.2.modCur (fun g => g.modLane l (fun y => { y with priv := d.1.foldl (fun t x => tset t x.1 (x.2.setWidth 8)) y.priv }))).cleanPriv l o

/-- A LINE word (R285): the lines of the lanes that are no helpers, after the checks of a store; `zero` for LINE.ZERO, whose access is
the whole line. -/
def lineGroup (zero : Bool) (a o : Nat) (onGlobal : State → Piece → State) (onPriv : Ctx → State → Nat → Nat → State)
    (onScratch : State → Nat → State) (c : Ctx) (u : Uses) (s : State) : Did :=
  if c.doers = [] then c.plain u s .done
  else if c.src.shape a ≠ .p64 then .trap c.shapeTrap false s
  else
    let addr := c.addr a o 128
    let k := { Acc.plain .write 1 (if zero then 128 else 1) false 2 with boardOk := !zero }
    let lineOf := fun (l : Nat) => if zero then BitVec.ofNat 64 ((addr l).toNat / 128 * 128) else addr l
    let r := s.places c.core c.wg k (c.doers.map (fun l => (l, lineOf l)))
    match accTrap r.1 addr with
    | some t => .trap t false r.2
    | none =>
      if r.2.stalls r.1 then .hold s
      else c.plain u r.2 (fun s => .done (r.1.foldl (fun s x => match x.2 with
        | .error _ => s
        | .ok (.scratch p) => onScratch s p
        | .ok (.priv p) => onPriv c s x.1 p
        | .ok (.global ps) => ps.foldl (fun s p => if s.outsidePlace (.global [p]) then s else onGlobal s p) s) s))

/-- LINE.WB: write back if dirty (R285). -/
def execLineWb (c a o sc : Nat) (s : State) : Host.Outcome State Fault Refusal :=
  groupWord (uX .m c [.v a] []) s (fun x u s =>
    lineGroup false a o (fun s p => s.writeBackLine x.core (p.pa / 128) (4 ≤ sc)) (fun _ s l p => s.cleanPriv l p) (fun s _ => s) x u s)

/-- LINE.INV: invalidate, discarding dirty bytes (R285, R377). -/
def execLineInv (c a o sc : Nat) (s : State) : Host.Outcome State Fault Refusal :=
  groupWord (uX .m c [.v a] []) s (fun x u s =>
    lineGroup false a o (fun s p => s.invalidateLine x.core (p.pa / 128) (4 ≤ sc)) (fun c s l p => s.exposePriv c l p) (fun s _ => s) x u s)

/-- LINE.WBINV: write back if dirty, then invalidate (R285). -/
def execLineWbinv (c a o sc : Nat) (s : State) : Host.Outcome State Fault Refusal :=
  groupWord (uX .m c [.v a] []) s (fun x u s =>
    lineGroup false a o (fun s p => (s.writeBackLine x.core (p.pa / 128) (4 ≤ sc)).invalidateLine x.core (p.pa / 128) (4 ≤ sc))
      (fun _ s l p => s.cleanPriv l p) (fun s _ => s) x u s)

/-- LINE.ZERO: the line in M, all zero (R285). -/
def execLineZero (c a o _sc : Nat) (s : State) : Host.Outcome State Fault Refusal :=
  let zeros := List.replicate 128 (0 : Byte)
  groupWord (uX .m c [.v a] []) s (fun x u s =>
    lineGroup true a o
      (fun s p => (s.l1Write x.core x.wg.asid p 0).writePhys p.pa zeros)
      (fun c s l p => s.writePlace c.who.core c.who.wg c.who.grp l zeros (.priv p))
      (fun s p => s.writePlace x.who.core x.who.wg x.who.grp 0 zeros (.scratch p)) x u s)

/-! ## Fences and CACHE -/

/-- A fence of scope sc (R294): memory is one total order in the model, so it waits only for accesses that leave the package: reads when
it acquires, reads and writes when it releases at .sys (R383, R389, R526). -/
def fenceGroup (acq rel : Bool) (sc : Nat) (c : Ctx) (u : Uses) (s : State) : Did :=
  if (rel = true ∧ sc = 5 ∧ s.sysHeld c = true) ∨ (acq = true ∧ s.readsOut c = true) then .hold s else c.plain u s .done

/-- FENCE: release and acquire (R294). -/
def execFence (c sc : Nat) (s : State) : Host.Outcome State Fault Refusal := groupWord (uX .m c [] []) s (fenceGroup true true sc)

/-- FENCE.ACQ (R294). -/
def execFenceAcq (c sc : Nat) (s : State) : Host.Outcome State Fault Refusal := groupWord (uX .m c [] []) s (fenceGroup true false sc)

/-- FENCE.REL (R294). -/
def execFenceRel (c sc : Nat) (s : State) : Host.Outcome State Fault Refusal := groupWord (uX .m c [] []) s (fenceGroup false true sc)

/-- FENCE.LAYER: a full .die fence that covers slice-scratch stores (R294). -/
def execFenceLayer (c : Nat) (s : State) : Host.Outcome State Fault Refusal := groupWord (uX .m c [] []) s (fenceGroup true true 3)

/-- CACHE.IFETCH: instructions fetched ahead are discarded; the model fetches each word when it issues (R295, R296). (DESIGN CHOICE, log entry 25.) -/
def execCacheIfetch (c : Nat) (s : State) : Host.Outcome State Fault Refusal := groupWord (uX .m c [] []) s (fun x u s => x.plain u s .done)

/-- The lines of a core's L1 that carry an ASID. -/
def State.asidLines (s : State) (core asid : Nat) : List Nat :=
  ((s.core core).l1.filter (fun y => decide (y.asid = asid))).map (·.pline)

/-- CACHE.WB: every dirty line of the workgroup's ASID is written back (R295). -/
def execCacheWb (c : Nat) (s : State) : Host.Outcome State Fault Refusal :=
  groupWord (uX .m c [] []) s (fun x u s => x.plain u s (fun s =>
    .done ((s.asidLines x.core x.wg.asid).foldl (fun s l => s.writeBackLine x.core l false) s)))

/-- CACHE.WBINV: then invalidated (R295). -/
def execCacheWbinv (c : Nat) (s : State) : Host.Outcome State Fault Refusal :=
  groupWord (uX .m c [] []) s (fun x u s => x.plain u s (fun s =>
    .done ((s.asidLines x.core x.wg.asid).foldl (fun s l => (s.writeBackLine x.core l false).dropOwn x.core l) s)))

end Sys2Proof.Machine
end

