-- ==== Sys2Proof/Machine/System.lean ====
section
/-!
DEFINITION. The SYS words of files 01 and 07: NOP, TRAP, ERET, control registers, QUOTA, SLEEP, TLBINV, FWCALL (R240 to R249, R259,
R262) and the repeat prefix (R43 to R48).
-/
namespace Sys2Proof.Machine

/-! ## NOP, TRAP, ERET -/

/-- NOP (R242); it also stands in slice code (R252). -/
def execNop (c : Nat) (s : State) : Host.Outcome State Fault Refusal :=
  bothWord (uX .none c [] []) s (fun _ _ s => .done s) (fun _ s => .done s)

/-- TRAP raises TRAP_INSTR in its active lanes with the code (R259). -/
def execTrap (c k : Nat) (s : State) : Host.Outcome State Fault Refusal :=
  groupWord (uX .c c [] []) s (fun x _ s => faultAt .trapInstr x.act (BitVec.ofNat 64 k) s)

/-- ERET ends the handler (R262): H is cleared, and at the end of the chain the handler's lanes go to `trappc` and the held paths go
on. -/
def execEret (c : Nat) (s : State) : Host.Outcome State Fault Refusal :=
  groupWord (uX .c c [] []) s (fun x _ s =>
    let k := x.grp.ctrl
    if k.trapH = false then x.issueTrap .illegalOp s
    else if k.trappc.toNat % 4 ≠ 0 then .abort k.trapcause s
    else .done ((s.modCur (fun g => { g with ctrl := { g.ctrl with trapH := false } })).goTo
      (x.act.map (fun l => (l, k.trappc.toNat / 4)))))

/-! ## Control registers -/

/-- One 32-bit half of a number (R244): low word first. -/
def half (v h : Nat) : W32 := BitVec.ofNat 32 (v / 2 ^ (32 * h))

/-- Control register r of a group, if the map names it (R87, R91, R92, R227, R245, R246). -/
def State.controlReg (s : State) (c : Ctx) (r : Nat) : Option W32 :=
  let k := c.src.ctrl
  match r with
  | 0x000 => some (k.round.setWidth 32)
  | 0x001 => some (if k.stallchk then 1 else 0)
  | 0x002 => some (half k.trapbase.toNat 0)
  | 0x003 => some (half k.trapbase.toNat 1)
  | 0x004 => some k.seed
  | 0x005 => some k.smxscale
  | 0x006 => some (k.hint.setWidth 32)
  | 0x007 => some (BitVec.ofNat 32 (c.src.quota % 2 ^ 15))
  | 0x008 => some k.q4scale
  | 0x009 => some (BitVec.ofNat 32 ((if k.trapH then 512 else 0) + (if k.trapA then 256 else 0) + k.trapcause.toNat))
  | 0x00A => some (half k.trappc.toNat 0)
  | 0x00B => some (half k.trappc.toNat 1)
  | 0x00C => some (half k.trapmask.toNat 0)
  | 0x00D => some (half k.trapmask.toNat 1)
  | 0x00E => some (half k.trapaddr.toNat 0)
  | 0x00F => some (half k.trapaddr.toNat 1)
  | 0x100 => some (BitVec.ofNat 32 (4 * 2 ^ 15 + 16 * 2 ^ 10 + 32 * 2 ^ 4 + 4))
  | 0x101 => some (BitVec.ofNat 32 (c.wg.asid % 2 ^ 16))
  | 0x102 => some (BitVec.ofNat 32 ((s.core c.core).duty % 32))
  | 0x103 => some (BitVec.ofNat 32 (c.wg.ctxid % 2 ^ 16))
  | 0x104 => some (half c.wg.savebase 0)
  | 0x105 => some (half (c.wg.savebase % 2 ^ 55) 1)
  | _ => none

/-- A number with one 32-bit half replaced. -/
def putHalf (v h : Nat) (x : W32) : Nat := v - v / 2 ^ (32 * h) % 2 ^ 32 * 2 ^ (32 * h) + x.toNat * 2 ^ (32 * h)

/-- A 55-bit address register with one half written: bits above 54 are reserved. -/
def putHalf55 (v : BitVec 55) (h : Nat) (x : W32) : BitVec 55 := BitVec.ofNat 55 (putHalf v.toNat h x)
/-- A 64-bit register with one half written. -/
def putHalf64 (v : W64) (h : Nat) (x : W32) : W64 := BitVec.ofNat 64 (putHalf v.toNat h x)

/-- The control registers after the value x is written to register r, each field by its access (R12, R87, R245). -/
def CtrlRegs.write (k : CtrlRegs) (r : Nat) (x : W32) : CtrlRegs :=
  match r with
  | 0x000 => if x.toNat % 8 = 0 ∨ x.toNat % 8 = 7 then k else { k with round := x.setWidth 3 }
  | 0x001 => { k with stallchk := x.getLsbD 0 }
  | 0x002 => { k with trapbase := putHalf55 k.trapbase 0 x }
  | 0x003 => { k with trapbase := putHalf55 k.trapbase 1 x }
  | 0x004 => { k with seed := x }
  | 0x005 => { k with smxscale := x }
  | 0x006 => if x.toNat % 16 = 0 then k else { k with hint := x.setWidth 4 }
  | 0x008 => { k with q4scale := x }
  | 0x009 => { k with trapA := x.getLsbD 8, trapcause := x.setWidth 8 }
  | 0x00A => { k with trappc := putHalf55 k.trappc 0 x }
  | 0x00B => { k with trappc := putHalf55 k.trappc 1 x }
  | 0x00C => { k with trapmask := putHalf64 k.trapmask 0 x }
  | 0x00D => { k with trapmask := putHalf64 k.trapmask 1 x }
  | 0x00E => { k with trapaddr := putHalf64 k.trapaddr 0 x }
  | 0x00F => { k with trapaddr := putHalf64 k.trapaddr 1 x }
  | _ => k

/-- A group after a control register write; a write of `seed` reseeds the generators of the lanes that have not exited (R90). -/
def Group.writeControl (g : Group) (r : Nat) (x : W32) : Group :=
  let g1 := { g with ctrl := g.ctrl.write r x }
  if r = 4 then
    { g1 with lanes := lmapIdx (fun l (y : Lane) => if y.exited then y else { y with gen := genSeed x l }) 0 g1.lanes }
  else g1

/-- CRW, CRSET and CRCLR: the register's value combined with the operand of the lowest active lane (R244). -/
def writeControl (a r : Nat) (f : W32 → W32 → W32) (c : Ctx) (_ : Uses) (s : State) : Did :=
  match s.controlReg c r with
  | none => c.issueTrap .illegalOp s
  | some old => match c.lowP32 a with
    | none => .trap c.shapeTrap false s
    | some x => .done (s.modCur (fun g => g.writeControl r (f old x)))

/-- CRR (R244). -/
def execCrr (c d r : Nat) (s : State) : Host.Outcome State Fault Refusal :=
  groupWord { uX .c c [] [.v d] with priv := decide (0x100 ≤ r) } s (fun x u s => match s.controlReg x r with
    | none => x.issueTrap .illegalOp s
    | some v => x.commit u (Out.v d .p32 (x.all (v.setWidth 128))) s .done)

/-- CRW (R244). -/
def execCrw (c a r : Nat) (s : State) : Host.Outcome State Fault Refusal :=
  groupWord { uX .c c [.v a] [] with priv := decide (0x100 ≤ r) } s (writeControl a r (fun _ x => x))

/-- CRSET (R244). -/
def execCrset (c a r : Nat) (s : State) : Host.Outcome State Fault Refusal :=
  groupWord { uX .c c [.v a] [] with priv := decide (0x100 ≤ r) } s (writeControl a r (fun old x => old ||| x))

/-- CRCLR (R244). -/
def execCrclr (c a r : Nat) (s : State) : Host.Outcome State Fault Refusal :=
  groupWord { uX .c c [.v a] [] with priv := decide (0x100 ≤ r) } s (writeControl a r (fun old x => old &&& ~~~x))

/-! ## QUOTA and SLEEP -/

/-- QUOTA: give granules to another group of the workgroup (R241). -/
def execQuota (c q a b : Nat) (s : State) : Host.Outcome State Fault Refusal :=
  groupWord (uX .c c [.v a, .v b] [.q q]) s (fun x u s => match x.lowP32 a, x.lowP32 b with
    | some g, some n =>
      let retired := match x.wg.group g.toNat with
        | none => true
        | some y => y.retired
      if g.toNat = x.who.grp ∨ retired = true then x.commit u (Out.q q (x.allQ .f)) s .done
      else if x.grp.quota - x.grp.used < n.toNat then
        if x.grp.frees ≠ [] then .hold s else x.fault .quota s
      else x.commit u (Out.q q (x.allQ .t)) s (fun s => .done
        ((s.modCur (fun y => { y with quota := y.quota - n.toNat })).modGroup x.core x.who.wg g.toNat
          (fun y => { y with quota := y.quota + n.toNat })))
    | _, _ => .trap x.shapeTrap false s)

/-- A sleeping word of a group (R166). -/
def Ctx.waitFor (c : Ctx) (id : Nat) (kind : WaitKind) (dv : Option Nat) (dshape : Shape) (dq : Option Nat) : Wait :=
  { id := id, mask := c.mask, pc := c.pc, kind := kind, dv := dv, dshape := dshape, dq := dq, rest := none }

/-- SLEEP: the path's lanes sleep until cycle t + 1 + n (R247). -/
def execSleep (c n : Nat) (s : State) : Host.Outcome State Fault Refusal :=
  groupWord (uX .c c [] []) s (fun x _ s =>
    if n = 0 then .done s
    else
      let f := s.fresh
      .sleep f.2 (x.waitFor f.1 (.sleep (s.cycle + 1 + n)) none .p32 none))

/-! ## TLBINV -/

/-- What an invalidation matches: a page of an ASID (kind 0), an ASID (1), everything (2) (R248, R328). -/
def invMatch (kind asid va : Nat) (e : TlbEntry) : Bool :=
  decide (kind = 2) || (decide (e.asid = asid) && (decide (kind = 1) || decide (e.vbase = va / 2 ^ e.lg * 2 ^ e.lg)))

/-- A line of an L1 that an invalidation removes: its tag matches, within the page recorded with its fill (R271, R328). -/
def invLine (kind asid va : Nat) (x : L1Line) : Bool :=
  decide (kind = 2) || (decide (x.asid = asid) && (decide (kind = 1) || decide (128 * x.vline / 2 ^ x.lg = va / 2 ^ x.lg)))

/-- An invalidation at a cluster (R328, R329): its generation moves on, the entries go, and so do the lines of its L1s, written back.
(DESIGN CHOICE, log entry 16.) -/
def State.invalidate (s : State) (k kind asid va : Nat) : State :=
  let s := s.modCluster k (fun x => { x with walkGen := x.walkGen + 1, tlb := x.tlb.filter (fun e => !invMatch kind asid va e) })
  (clusterCores k).foldl (fun s c =>
    (((s.core c).l1.filter (invLine kind asid va)).map (·.pline)).foldl
      (fun s l => (s.writeBackLine c l false).dropOwn c l) s) s

/-- The clusters that an invalidation by a workgroup reaches (R328): those of its partition, and its own. -/
def State.partClusters (s : State) (part own : Nat) : List Nat :=
  let m := ((tget s.pkg.parts part).map (·.clusters)).getD 0
  (upto 0 96).filter (fun k => m.getLsbD k || decide (k = own))

/-- An access that a cluster has sent outside, or to its atomic unit, has not performed, and an invalidation matches it (R328).
(DESIGN CHOICE, log entry 16.) -/
def State.invPending (s : State) (ks : List Nat) (kind asid va : Nat) : Bool :=
  let near := fun (x : W64) => decide (kind = 1) || decide (x.toNat / 2 ^ 42 = va / 2 ^ 42)
  s.pkg.outside.any (fun o => ks.contains (coreCluster o.who.core) &&
    (decide (kind = 2) || (match s.wg o.who.core o.who.wg with
      | none => true
      | some w => decide (w.uid ≠ o.who.uid) || (decide (w.asid = asid) && near o.va)))) ||
  ks.any (fun k => (s.cluster k).atomReqs.any (fun r => decide (kind = 2) || (decide (r.asid = asid) && r.addrs.any (fun x => near x.2))))

/-- A TLBINV of a kind (R248): it waits for accesses in flight, then every cluster reached is invalidated and acknowledges. -/
def invalidateGroup (kind va : Nat) (c : Ctx) (u : Uses) (s : State) : Did :=
  let ks := s.partClusters c.wg.part (coreCluster c.core)
  if s.invPending ks kind c.wg.asid va then .hold s
  else c.plain u s (fun s => .done (ks.foldl (fun s k => s.invalidate k kind c.wg.asid va) s))

/-- TLBINV.PAGE (R248). -/
def execTlbinvPage (c a : Nat) (s : State) : Host.Outcome State Fault Refusal :=
  groupWord { uX .c c [.v a] [] with priv := true } s (fun x u s => match x.lowP64 a with
    | none => .trap x.shapeTrap false s
    | some va => invalidateGroup 0 va.toNat x u s)

/-- TLBINV.ASID (R248). -/
def execTlbinvAsid (c : Nat) (s : State) : Host.Outcome State Fault Refusal :=
  groupWord { uX .c c [] [] with priv := true } s (invalidateGroup 1 0)

/-- TLBINV.ALL (R248). -/
def execTlbinvAll (c : Nat) (s : State) : Host.Outcome State Fault Refusal :=
  groupWord { uX .c c [] [] with priv := true } s (invalidateGroup 2 0)

/-! ## FWCALL -/

/-- The reply to an unlisted service or an argument out of range (R249, R511). -/
def fwNone : W64 := BitVec.allOnes 64

/-- A firmware call (R249): a FENCE.dev, the reply of the service to the argument, into every active lane. -/
def firmwareGroup (d a : Nat) (reply : Ctx → State → W64 → W64) (c : Ctx) (u : Uses) (s : State) : Did :=
  match c.lowP64 a with
  | none => .trap c.shapeTrap false s
  | some x =>
    if s.readsOut c then .hold s
    else c.commit u (Out.v d .p64 (c.all ((reply c s x).setWidth 128))) s .done

/-- FWCALL 0x00: the firmware's version (R511). -/
def execFwcallVersion (c d a : Nat) (s : State) : Host.Outcome State Fault Refusal :=
  groupWord { uX .c c [.v a] [.v d] with priv := true } s (firmwareGroup d a (fun _ s x => if x = 0 then Config.firmwareVersion s.pkg.fwSlot else fwNone))

/-- FWCALL 0x01: the temperature of a core of the issuing die (R511). -/
def execFwcallTemperature (c d a : Nat) (s : State) : Host.Outcome State Fault Refusal :=
  groupWord { uX .c c [.v a] [.v d] with priv := true } s (firmwareGroup d a (fun k s x =>
    if x.toNat < 96 then BitVec.ofInt 64 (tgetD (s.die (coreDie k.core)).sensors x.toNat 0) else fwNone))

/-- FWCALL 0x02: the forecast peak of a core of the issuing die (R511). -/
def execFwcallForecast (c d a : Nat) (s : State) : Host.Outcome State Fault Refusal :=
  groupWord { uX .c c [.v a] [.v d] with priv := true } s (firmwareGroup d a (fun k s x =>
    if x.toNat < 96 then BitVec.ofInt 64 (tgetD (s.die (coreDie k.core)).forecast x.toNat 0) else fwNone))

/-- FWCALL 0x03: cap and k of the caller's partition (R511). -/
def execFwcallCap (c d a : Nat) (s : State) : Host.Outcome State Fault Refusal :=
  groupWord { uX .c c [.v a] [.v d] with priv := true } s (firmwareGroup d a (fun k s x =>
    if x.toNat = k.wg.part then match tget s.pkg.parts k.wg.part with
      | none => BitVec.ofNat 64 (16 * 2 ^ 32)
      | some p => BitVec.ofNat 64 (p.cap.toNat + p.k % 32 * 2 ^ 32)
    else fwNone))

/-- FWCALL 0x04: a lifetime counter (R511, R515). -/
def execFwcallCounter (c d a : Nat) (s : State) : Host.Outcome State Fault Refusal :=
  groupWord { uX .c c [.v a] [.v d] with priv := true } s (firmwareGroup d a (fun _ s x =>
    if x.toNat ≤ 0x5EC then tgetD s.pkg.lifetime x.toNat 0 else fwNone))

/-- FWCALL 0x05: the cores of the issuing die in half-row mode, as far as 64 bits show them (R511). -/
def execFwcallHalfRow (c d a : Nat) (s : State) : Host.Outcome State Fault Refusal :=
  groupWord { uX .c c [.v a] [.v d] with priv := true } s (firmwareGroup d a (fun k s x =>
    if x = 0 then listMask ((upto 0 64).filter (fun n => (s.core (96 * coreDie k.core + n)).halfRow)) else fwNone))

/-- FWCALL of an unlisted service (R249). -/
def execFwcallUnlisted (c d a _v : Nat) (s : State) : Host.Outcome State Fault Refusal :=
  groupWord { uX .c c [.v a] [.v d] with priv := true } s (firmwareGroup d a (fun _ _ _ => fwNone))

/-! ## The repeat prefix -/

/-- REP: the word after it is issued n + 1 times (R43 to R47). It looks at the raw word: one it may not precede, or an increment with
no field to step, is ILLEGAL_OP; where that word carries C = 1 it is ILLEGAL_CHAIN, and `trappc` names that word (R46). -/
def execRep (n d a b : Nat) (s : State) : Host.Outcome State Fault Refusal :=
  groupWord { uX .c 0 [] [] with rep := true } s (fun x _ s =>
    let r : Rep := { idx := 0, last := n, incd := d, inca := a, incb := b }
    match s.fetchCur (x.pc + 1) with
    | (.error _, s) => .again r s
    | (.ok w, s) =>
      if chainBit w.toNat then x.issueTrap .illegalChain { s with cur := { s.cur with pc := x.pc + 1 } }
      else if repForbids w.toNat = true ∨ repBadInc w.toNat d a b = true then x.issueTrap .illegalOp s else .again r s)

end Sys2Proof.Machine
end

