-- ==== Sys2Proof/Machine/Sync.lean ====
section
/-!
DEFINITION. Synchronisation objects in scratch: sync words (R298, R299, R304), named queues (R305 to R310) and barrier objects (R311 to
R315), and their words.
-/
namespace Sys2Proof.Machine

/-! ## Words of scratch -/

/-- The 64-bit word at a scratch offset. -/
def Workgroup.word (w : Workgroup) (off : Nat) : Nat := leNat (memGetList w.scratch off 8)

/-- The workgroup with a 64-bit word of scratch written. -/
def Workgroup.setWord (w : Workgroup) (off v : Nat) : Workgroup := { w with scratch := memPutList w.scratch off (leBytes 8 v) }

/-- The scratch offset that an object of `size` bytes at an address has (R304, R312), or the cause. -/
def Workgroup.objectAt (w : Workgroup) (a size : Nat) : Except Cause Nat :=
  if a % size ≠ 0 then .error .misaligned
  else if scratchBase ≤ a ∧ a + size ≤ scratchBase + w.scratchBytes then .ok (a - scratchBase)
  else .error .access

/-- The trap of an object that cannot be reached: the active lanes, at the address. -/
def Ctx.objectTrap (c : Ctx) (x : Cause) (a : W64) : Trap := ⟨x, c.mask, a⟩

/-- A word whose destination is checked now, and allocated and written when it wakes: SHAPE and QUOTA come at issue. -/
def Ctx.sleepOn (c : Ctx) (u : Uses) (d : Option Nat) (sh : Shape) (s : State) (next : State → Did) : Did :=
  c.takeIn u (match d with
    | none => Out.none
    | some n => Out.v n sh []) s next

/-! ## Sync words -/

/-- Fields of a sync word (R298): target, count, generation. -/
def syncTarget (v : Nat) : Nat := v / 2 ^ 40 % 2 ^ 24
/-- count. -/
def syncCount (v : Nat) : Nat := v / 2 ^ 16 % 2 ^ 24
/-- generation. -/
def syncGen (v : Nat) : Nat := v % 2 ^ 16
/-- A sync word from its fields. -/
def syncWord (target count gen : Nat) : Nat := target % 2 ^ 24 * 2 ^ 40 + count % 2 ^ 24 * 2 ^ 16 + gen % 2 ^ 16

/-- `add(w, n)` (R299). -/
def syncAdd (v n : Nat) : Nat :=
  let t := syncTarget v
  let c := syncCount v + n
  if t = 0 then syncWord t c (syncGen v) else syncWord t (c % t) (syncGen v + c / t)

/-- A sync word operation, once for the group (R304). -/
def syncGroup (a b : Nat) (body : Ctx → Uses → Nat → Nat → W64 → State → Did) (c : Ctx) (u : Uses) (s : State) : Did :=
  match c.lowP64 a, c.lowP32 b with
  | some p, some v => match c.wg.objectAt p.toNat 8 with
    | .error x => .trap (c.objectTrap x p) false s
    | .ok off => body c u off v.toNat p s
  | _, _ => .trap c.shapeTrap false s

/-- SWINIT (R304). -/
def execSwinit (c a b : Nat) (s : State) : Host.Outcome State Fault Refusal :=
  groupWord (uX .m c [.v a, .v b] []) s (syncGroup a b (fun x u off v _ s => x.plain u s (fun s => .done
    (s.modCurWg (fun w => w.setWord off (syncWord v 0 (syncGen (w.word off))))))))

/-- SWADD (R304). -/
def execSwadd (c a b : Nat) (s : State) : Host.Outcome State Fault Refusal :=
  groupWord (uX .m c [.v a, .v b] []) s (syncGroup a b (fun x u off v _ s => x.plain u s (fun s => .done
    (s.modCurWg (fun w => w.setWord off (syncAdd (w.word off) (v % 2 ^ 24)))))))

/-- A recorded copy fault of the group that names a sync word (R303). -/
def Group.copyFaultAt (g : Group) (off : Nat) : Option Trap :=
  match g.copyFault with
  | none => none
  | some f => if f.sync = off then some ⟨f.cause, f.mask, f.addr⟩ else none

/-- SWWAIT waits until the generation differs; a recorded copy fault of the sync word is raised first (R303, R304). -/
def execSwwait (c a b : Nat) (s : State) : Host.Outcome State Fault Refusal :=
  groupWord (uX .m c [.v a, .v b] []) s (syncGroup a b (fun x u off v _ s => match x.grp.copyFaultAt off with
    | some t => .trap t true (s.modCur (fun g => { g with copyFault := none }))
    | none =>
      if syncGen (x.wg.word off) ≠ v % 2 ^ 16 then x.plain u s .done
      else
        let f := s.fresh
        .sleep f.2 (x.waitFor f.1 (.sync off (v % 2 ^ 16)) none .p32 none)))

/-! ## Named queues -/

/-- Scratch offset of a queue's descriptor (R305). -/
def queueAt (n : Nat) : Nat := 32 * n
/-- lgcap. -/
def queueLgcap (w : Workgroup) (n : Nat) : Nat := w.word (queueAt n) / 2 ^ 19 % 16
/-- base. -/
def queueBase (w : Workgroup) (n : Nat) : Nat := w.word (queueAt n) % 2 ^ 19
/-- head. -/
def queueHead (w : Workgroup) (n : Nat) : Nat := w.word (queueAt n + 8) % 2 ^ 32
/-- tail. -/
def queueTail (w : Workgroup) (n : Nat) : Nat := w.word (queueAt n + 8) / 2 ^ 32
/-- Entries in the queue: tail − head modulo 2^32. -/
def queueLen (w : Workgroup) (n : Nat) : Nat := (queueTail w n + 2 ^ 32 - queueHead w n) % 2 ^ 32
/-- Capacity. -/
def queueCap (w : Workgroup) (n : Nat) : Nat := 2 ^ queueLgcap w n

/-- The descriptor is well formed (R306). -/
def queueOk (w : Workgroup) (n : Nat) : Bool :=
  decide (32 * n + 32 ≤ w.scratchBytes) && decide (queueLgcap w n ≤ 8) && decide (queueBase w n % 8 = 0) &&
  decide (512 ≤ queueBase w n) && decide (queueBase w n + 8 * queueCap w n ≤ w.scratchBytes) && decide (queueLen w n ≤ queueCap w n) &&
  decide (w.word (queueAt n) / 2 ^ 23 = 0) && decide (w.word (queueAt n + 16) / 2 ^ 34 = 0) && decide (w.word (queueAt n + 24) = 0)

/-- Offset of entry i of the ring. -/
def queueEntry (w : Workgroup) (n i : Nat) : Nat := queueBase w n + 8 * (i % queueCap w n)

/-- The descriptor's word 1 with head and tail replaced. -/
def queueSetEnds (w : Workgroup) (n head tail : Nat) : Workgroup :=
  w.setWord (queueAt n + 8) (head % 2 ^ 32 + tail % 2 ^ 32 * 2 ^ 32)

/-- Push a value (R308). -/
def queuePush (w : Workgroup) (n : Nat) (x : W64) : Workgroup :=
  queueSetEnds (w.setWord (queueEntry w n (queueTail w n)) x.toNat) n (queueHead w n) (queueTail w n + 1)

/-- The value at the head (R308). -/
def queueFront (w : Workgroup) (n : Nat) : W64 := BitVec.ofNat 64 (w.word (queueEntry w n (queueHead w n)))

/-- Pop the value at the head (R308). -/
def queuePop (w : Workgroup) (n : Nat) : Workgroup := queueSetEnds w n (queueHead w n + 1) (queueTail w n)

/-- The bit of a party in word 2: pushers at 16, poppers at 0; the slice's at 33 and 32 (R305). -/
def waiterBit (grp : Nat) (push : Bool) : Nat := if grp = 16 then (if push then 33 else 32) else if push then 16 + grp else grp

/-- Set or clear a party's waiter bit. -/
def queueMark (w : Workgroup) (n grp : Nat) (push on : Bool) : Workgroup :=
  let v := w.word (queueAt n + 16)
  let b := waiterBit grp push
  let v0 := v - v / 2 ^ b % 2 * 2 ^ b
  w.setWord (queueAt n + 16) (if on then v0 + 2 ^ b else v0)

/-- A party waits to push into queue n, or to pop from it. -/
def WaitKind.queues (n : Nat) (push : Bool) : WaitKind → Bool
  | .push m _ => push && decide (m = n)
  | .pop m => !push && decide (m = n)
  | _ => false

/-- The words of a workgroup that wait for queue n, each with its group (16 for the slice), in the order in which they began to wait (R309). -/
def Workgroup.waiters (w : Workgroup) (n : Nat) (push : Bool) : List (Nat × Wait) :=
  lsort (fun (a b : Nat × Wait) => decide (a.2.id < b.2.id))
    ((lmapIdx (fun g (x : Group) => (x.waits.filter (fun y => y.kind.queues n push)).map (fun y => (g, y))) 0 w.groups).flatten ++
      ((w.slice.wait.filter (fun y => y.kind.queues n push)).toList.map (fun y => (16, y))))

/-- The waiters that a bank operation on queue n wakes (R309): the first to pop where it leaves the queue non-empty, the first to push where it
leaves it non-full. -/
def Workgroup.queueWakes (w : Workgroup) (core slot n : Nat) : List Item :=
  let first := fun (push : Bool) => ((w.waiters n push).take 1).map (fun x => Item.wake core slot x.1 x.2.id)
  (if queueLen w n ≠ 0 then first false else []) ++ (if queueLen w n ≠ queueCap w n then first true else [])

/-- A workgroup after a bank operation on queue n: the waiters that it wakes retry at once (R309). -/
def State.bankOp (s : State) (core slot n : Nat) (f : Workgroup → Workgroup) : State :=
  let s := s.modWg core slot f
  match s.wg core slot with
  | none => s
  | some w => s.next (w.queueWakes core slot n)

/-- A bank operation of the issuing word. -/
def State.curBank (s : State) (n : Nat) (f : Workgroup → Workgroup) : State := s.bankOp s.cur.who.core s.cur.who.wg n f

/-- QUEUE_FAULT at the descriptor's address (R306). -/
def Ctx.queueTrap (c : Ctx) (n : Nat) : Trap := ⟨.queueFault, c.mask, BitVec.ofNat 64 (scratchBase + queueAt n)⟩

/-- A slice's word that sleeps. -/
def Slice.waitFor (x : Slice) (id : Nat) (kind : WaitKind) (d : Option Nat) : Wait :=
  { id := id, mask := 0, pc := x.pc, kind := kind, dv := d, dshape := .p64, dq := none, rest := none }

/-- QPUSH by a group: sleeps while the queue is full (R308). -/
def qpushGroup (a n : Nat) (c : Ctx) (u : Uses) (s : State) : Did :=
  if (c.src.shape a).isIv then .trap c.shapeTrap false s
  else if queueOk c.wg n = false then .trap (c.queueTrap n) false s
  else
    let x := (c.src.read a c.low).setWidth 64
    if queueLen c.wg n = queueCap c.wg n then
      let f := s.fresh
      .sleep (f.2.modCurWg (fun w => queueMark w n c.who.grp true true)) (c.waitFor f.1 (.push n x) none .p32 none)
    else c.plain u s (fun s => .done (s.curBank n (fun w => queuePush w n x)))

/-- QPUSH by a slice (R252). -/
def qpushSlice (a n : Nat) (x : Slice) (s : State) : SliceDid :=
  match s.curWg with
  | none => .fault .illegalOp none
  | some w =>
    if queueOk w n = false then .fault .queueFault none
    else if queueLen w n = queueCap w n then
      let f := s.fresh
      .sleep (f.2.modCurWg (fun w => queueMark w n 16 true true)) (x.waitFor f.1 (.push n (x.reg a)) none)
    else .done (s.curBank n (fun w => queuePush w n (x.reg a)))

/-- QPUSH (R308). -/
def execQpush (c a n : Nat) (s : State) : Host.Outcome State Fault Refusal :=
  bothWord (uX .m c [.v a] []) s (qpushGroup a n) (qpushSlice a n)

/-- QPOP by a group: sleeps while the queue is empty (R308). -/
def qpopGroup (d n : Nat) (c : Ctx) (u : Uses) (s : State) : Did :=
  let bad := queueOk c.wg n = false
  if bad then c.commit u { Out.v d .p64 [] with err := some (c.queueTrap n) } s .done
  else if queueLen c.wg n = 0 then
    c.sleepOn u (some d) .p64 s (fun s =>
      let f := s.fresh
      .sleep (f.2.modCurWg (fun w => queueMark w n c.who.grp false true)) (c.waitFor f.1 (.pop n) (some d) .p64 none))
  else c.commit u (Out.v d .p64 (c.all ((queueFront c.wg n).setWidth 128))) s (fun s => .done (s.curBank n (fun w => queuePop w n)))

/-- QPOP by a slice (R252). -/
def qpopSlice (d n : Nat) (x : Slice) (s : State) : SliceDid :=
  match s.curWg with
  | none => .fault .illegalOp none
  | some w =>
    if queueOk w n = false then .fault .queueFault none
    else if queueLen w n = 0 then
      let f := s.fresh
      .sleep (f.2.modCurWg (fun w => queueMark w n 16 false true)) (x.waitFor f.1 (.pop n) (some d))
    else .done ((s.curBank n (fun w => queuePop w n)).modCurSlice (fun y => y.setReg d (queueFront w n)))

/-- QPOP (R308). -/
def execQpop (c d n : Nat) (s : State) : Host.Outcome State Fault Refusal :=
  bothWord (uX .m c [] [.v d]) s (qpopGroup d n) (qpopSlice d n)

/-- QTRY by a group: an empty queue gives F and leaves d unchanged (R308). -/
def qtryGroup (d q n : Nat) (c : Ctx) (u : Uses) (s : State) : Did :=
  if queueOk c.wg n = false then c.commit u { Out.v d .p64 [] with err := some (c.queueTrap n) } s .done
  else if queueLen c.wg n = 0 then c.commit u (Out.q q (c.allQ .f)) s .done
  else
    let o := { Out.v d .p64 (c.all ((queueFront c.wg n).setWidth 128)) with qs := [(q, c.allQ .t)] }
    c.commit u o s (fun s => .done (s.curBank n (fun w => queuePop w n)))

/-- QTRY by a slice (R252). -/
def qtrySlice (d q n : Nat) (_ : Slice) (s : State) : SliceDid :=
  match s.curWg with
  | none => .fault .illegalOp none
  | some w =>
    if queueOk w n = false then .fault .queueFault none
    else if queueLen w n = 0 then .done (s.modCurSlice (fun y => y.setPred q .f))
    else .done ((s.curBank n (fun w => queuePop w n)).modCurSlice (fun y => (y.setReg d (queueFront w n)).setPred q .t))

/-- QTRY (R308). -/
def execQtry (c d q n : Nat) (s : State) : Host.Outcome State Fault Refusal :=
  bothWord (uX .m c [] [.v d, .q q]) s (qtryGroup d q n) (qtrySlice d q n)

/-! ## Barrier objects -/

/-- The fields of a barrier object (R311). -/
structure BarObj where
  overrun : Bool
  phase : Nat
  remaining : Nat
  expected : Nat
  waiters : Nat
  nextCount : Nat
  deriving DecidableEq, Repr

/-- The object at a scratch offset. -/
def Workgroup.bar (w : Workgroup) (off : Nat) : BarObj :=
  let a := w.word off
  let b := w.word (off + 8)
  { overrun := a / 2 ^ 36 % 2 = 1, phase := a / 2 ^ 32 % 16, remaining := a / 2 ^ 16 % 2 ^ 16, expected := a % 2 ^ 16,
    waiters := b / 2 ^ 16 % 2 ^ 16, nextCount := b % 2 ^ 16 }

/-- The workgroup with the object at an offset written; zero fields are written as zero (R311). -/
def Workgroup.setBar (w : Workgroup) (off : Nat) (b : BarObj) : Workgroup :=
  (w.setWord off ((if b.overrun then 2 ^ 36 else 0) + b.phase % 16 * 2 ^ 32 + b.remaining % 2 ^ 16 * 2 ^ 16 + b.expected % 2 ^ 16)).setWord
    (off + 8) (b.waiters % 2 ^ 16 * 2 ^ 16 + b.nextCount % 2 ^ 16)

/-- `advance` (R313). -/
def BarObj.advance (b : BarObj) : BarObj :=
  { b with phase := (b.phase + 1) % 16, expected := b.nextCount, remaining := b.nextCount }

/-- An arrival of k, which lowers next when it drops: the object, and whether it advanced; none when it overruns (R313). -/
def BarObj.arrive (b : BarObj) (k : Nat) (drop : Bool) : Option (BarObj × Bool) :=
  if b.remaining < k ∨ (drop = true ∧ b.nextCount < k) then none
  else
    let b1 := { b with remaining := b.remaining - k, nextCount := if drop then b.nextCount - k else b.nextCount }
    if b1.remaining = 0 ∧ 0 < k then some (b1.advance, true) else some (b1, false)

/-- Test items for every BARWAIT of a workgroup that sleeps on an object (R313, R314). -/
def Workgroup.barWakes (w : Workgroup) (core slot off : Nat) : List Item :=
  (lmapIdx (fun g (x : Group) => x.waits.filterMap (fun y => match y.kind with
    | .bar o _ _ => if o = off then some (Item.wake core slot g y.id) else none
    | _ => none)) 0 w.groups).flatten

/-- A barrier operation, once for the group (R312). -/
def barGroup (a b : Nat) (d : Option Nat) (body : Ctx → Uses → Nat → Nat → W64 → State → Did) (c : Ctx) (u : Uses) (s : State) : Did :=
  match c.lowP64 a, c.lowP32 b with
  | some p, some v => match c.wg.objectAt p.toNat 16 with
    | .error x =>
      let o := match d with
        | none => Out.none
        | some n => Out.v n .p32 []
      c.commit u { o with err := some (c.objectTrap x p) } s .done
    | .ok off => body c u off v.toNat p s
  | _, _ => .trap c.shapeTrap false s

/-- BARINIT (R313): it wakes no one. -/
def execBarinit (c a b : Nat) (s : State) : Host.Outcome State Fault Refusal :=
  groupWord (uX .m c [.v a, .v b] []) s (barGroup a b none (fun x u off v _ s => x.plain u s (fun s => .done
    (s.modCurWg (fun w => w.setBar off { overrun := false, phase := 0, remaining := v % 2 ^ 16, expected := v % 2 ^ 16,
                                         waiters := (w.bar off).waiters, nextCount := v % 2 ^ 16 })))))

/-- An arrival or drop (R313). -/
def arriveGroup (d : Nat) (drop : Bool) (c : Ctx) (u : Uses) (off v : Nat) (p : W64) (s : State) : Did :=
  let b := c.wg.bar off
  let o := Out.v d .p32 (c.all (elemN b.phase))
  match b.arrive (v % 2 ^ 16) drop with
  | none =>
    match c.commit u { o with err := some (c.objectTrap .barOverrun p) } s .done with
    | .trap t late s =>
      if t.cause = .barOverrun then .trap t late (s.modCurWg (fun w => w.setBar off { w.bar off with overrun := true }))
      else .trap t late s
    | x => x
  | some (b1, adv) => c.commit u o s (fun s =>
      let s := s.modCurWg (fun w => w.setBar off b1)
      .done (if adv then s.next (c.wg.barWakes c.core c.who.wg off) else s))

/-- BARRIVE (R313). -/
def execBarrive (c d a b : Nat) (s : State) : Host.Outcome State Fault Refusal :=
  groupWord (uX .m c [.v a, .v b] [.v d]) s (barGroup a b (some d) (arriveGroup d false))

/-- BARDROP (R313). -/
def execBardrop (c d a b : Nat) (s : State) : Host.Outcome State Fault Refusal :=
  groupWord (uX .m c [.v a, .v b] [.v d]) s (barGroup a b (some d) (arriveGroup d true))

/-- The last test of a bounded wait that issues now (R314, R336): none without a bound. -/
def boundAt (now bound : Nat) : Option Nat := if bound = 0xFFFFFFFF then none else some (now + bound)

/-- BARWAIT (R314): a bound of 0 is tested at the end of this cycle. -/
def execBarwait (c q a b e : Nat) (s : State) : Host.Outcome State Fault Refusal :=
  groupWord (uX .m c [.v a, .v b, .v e] [.q q]) s (fun x u s => match x.lowP32 e with
    | none => .trap x.shapeTrap false s
    | some bound => barGroup a b none (fun x u off v _ s =>
        if (x.wg.bar off).phase ≠ v % 16 then x.commit u (Out.q q (x.allQ .t)) s .done
        else
          let f := s.fresh
          let till := boundAt s.cycle bound.toNat
          let s := f.2.modCurWg (fun w => w.setBar off { w.bar off with waiters := (w.bar off).waiters + 1 })
          let s := if till = some s.cycle then
              { s with agenda := s.agenda ++ [.event (.barwaitBoundExpiry x.core x.who.wg x.who.grp f.1)] } else s
          .sleep s (x.waitFor f.1 (.bar off (v % 16) till) none .p32 (some q))) x u s)

end Sys2Proof.Machine
end

