-- ==== Sys2Proof/Machine/Async.lean ====
section
/-!
DEFINITION. The asynchronous words: the access slice's start and end (R250 to R257), PUSHT and the rows it places (R255), COPY and its
rows (R300 to R303), TIDSET and TIDGET (R229, R230).
-/
namespace Sys2Proof.Machine

/-! ## ASLICE and AWAIT -/

/-- The slice runs (R250): it has not ended, or rows of its pushes are not all placed. -/
def Slice.running (x : Slice) : Bool := x.live || x.push.isSome

/-- Its last end is a fault that has not been delivered (R254, R256). -/
def Slice.owes (x : Slice) : Bool :=
  match x.ended with
  | .faulted _ _ d => !d
  | _ => false

/-- A slice that starts at a word address with an argument in x1 (R251, R254). -/
def Slice.begin (pc : Nat) (arg : W64) : Slice :=
  { live := true, x := lset (List.replicate 16 0) 1 arg, q := List.replicate 8 .f, pc := pc, target := none, push := none,
    wait := none, ended := .never, refusals := 0 }

/-- ASLICE (R254). -/
def execAslice (c q a b : Nat) (s : State) : Host.Outcome State Fault Refusal :=
  groupWord (uX .x c [.v a, .v b] [.q q]) s (fun x u s => match x.lowP64 a, x.lowP64 b with
    | some p, some v =>
      if p.toNat % 12 ≠ 0 then faultAt .misaligned x.act p s
      else if x.wg.context = false ∨ x.wg.slice.running = true ∨ x.wg.slice.owes = true then
        x.commit u (Out.q q (x.allQ .f)) s .done
      else x.commit u (Out.q q (x.allQ .t)) s (fun s => .done
        (s.modCurWg (fun w => { w with slice := Slice.begin (p.toNat / 4) v })))
    | _, _ => .trap x.shapeTrap false s)

/-- What AWAIT finds once the slice does not run (R256): a value for qd, or the fault to raise. -/
def Slice.result (x : Slice) : Except (Cause × W64) Tri :=
  match x.ended with
  | .faulted cause addr false => .error (cause, addr)
  | .faulted _ _ true => .ok .f
  | _ => .ok .t

/-- The slice once its fault has been delivered. -/
def Slice.deliver (x : Slice) : Slice :=
  match x.ended with
  | .faulted cause addr _ => { x with ended := .faulted cause addr true }
  | _ => x

/-- AWAIT (R256). -/
def execAwait (c q : Nat) (s : State) : Host.Outcome State Fault Refusal :=
  groupWord (uX .x c [] [.q q]) s (fun x u s =>
    if x.wg.slice.running then
      let f := s.fresh
      .sleep f.2 (x.waitFor f.1 .slice none .p32 (some q))
    else match x.wg.slice.result with
      | .error t => .trap ⟨t.1, x.mask, t.2⟩ true (s.modCurWg (fun w => { w with slice := w.slice.deliver }))
      | .ok v => x.commit u (Out.q q (x.allQ v)) s .done)

/-! ## Reads by the engines -/

/-- Bytes of one line at a global address, read by an engine of a core: a PUSHT row's through the L1 (R255), a copy's at the home slice, with
the cluster TLB (R301, R325). -/
def State.engineLine (s : State) (core : Nat) (w : Workgroup) (copy : Bool) (va n : Nat) : Except Cause (List Byte) × State :=
  match s.translate core w.asid copy va n with
  | (.error x, s) => (.error x, s)
  | (.ok p, s) => match s.unitCheck w.priv w.part p.pa p.attr n .read with
    | .error x => (.error x, s)
    | .ok pa =>
      let s := if copy then s.sliceRead (coreCluster core) w.asid va pa else s.l1Read core w.asid p 0 1 false
      (.ok ((upto pa n).map s.readByte), s)

/-- n bytes at a virtual address, in at most `fuel` lines, read by an engine of a workgroup: the bytes, or the cause and the address of the
access that fails (R268, R303, R530, R532); the workgroup's scratch is within its reach (R269). -/
def State.engineLines (s : State) (core : Nat) (w : Workgroup) (copy : Bool) : Nat → Nat → Nat → Except (Cause × W64) (List Byte) × State
  | 0, _, _ => (.ok [], s)
  | fuel + 1, va, n =>
    if n = 0 then (.ok [], s)
    else
      let m := min n (128 - va % 128)
      let r := if scratchBase ≤ va ∧ va + m ≤ scratchBase + w.scratchBytes then (Except.ok (memGetList w.scratch (va - scratchBase) m), s)
        else if scratchBase ≤ va then (.error .access, s)
        else s.engineLine core w copy va m
      match r with
      | (.error x, s) => (.error (x, BitVec.ofNat 64 va), s)
      | (.ok bs, s) => match s.engineLines core w copy fuel (va + m) (n - m) with
        | (.error x, s) => (.error x, s)
        | (.ok t, s) => (.ok (bs ++ t), s)

/-- n bytes wherever they lie. -/
def State.engineBytes (s : State) (core : Nat) (w : Workgroup) (copy : Bool) (va n : Nat) : Except (Cause × W64) (List Byte) × State :=
  s.engineLines core w copy (n / 128 + 2) va n

/-- A slice that has stopped accepting requests serves a line of n bytes at a virtual address (R368): the engine waits. -/
def State.engineWaits (s : State) (w : Workgroup) (va n : Nat) : Bool :=
  (upto 0 (n / 128 + 2)).any (fun k =>
    let a := if k = 0 then va else va / 128 * 128 + 128 * k
    decide (a < va + n ∧ a < scratchBase) && (match s.translateUnit w.asid a with
      | .error _ => false
      | .ok x => s.stopped x.1))

/-- Present bytes of a row of `total` bytes that begins at an element (R255, R301): every element of a byte is present. -/
def rowBytes (e : BitVec 512) (i0 i1 i2 i3 total : Nat) : Nat :=
  if tidRowPresent e i1 i2 i3 then min total ((tidExtent e 0 - i0) * fmtHalves (tidFormat e) / 2) else 0

/-- The first bytes of a list, then zeros, n in all. -/
def padTo (n : Nat) (bs : List Byte) : List Byte := bs ++ List.replicate (n - bs.length) 0

/-! ## PUSHT -/

/-- Scale or code of the block that holds data byte 32k of a row whose byte offset is o: 0x7F or 0x00 where nothing of it is present,
zero in the formats that have none (R202, R255). -/
def State.sideByte (s : State) (core : Nat) (w : Workgroup) (e : BitVec 512) (o p k : Nat) : Except (Cause × W64) Byte × State :=
  if fmtBlock (tidFormat e) = false then (.ok 0, s)
  else if p ≤ 32 * k then (.ok (if tidFormat e = 8 then 0 else 0x7F), s)
  else match s.engineBytes core w false (tidScale e + (o + 32 * k) / 32) 1 with
    | (.error x, s) => (.error x, s)
    | (.ok bs, s) => (.ok (bs.headD 0), s)

/-- The side bytes of a row, n from k. -/
def State.sideBytes (s : State) (core : Nat) (w : Workgroup) (e : BitVec 512) (o p : Nat) : Nat → Nat → Except (Cause × W64) (List Byte) × State
  | _, 0 => (.ok [], s)
  | k, n + 1 => match s.sideByte core w e o p k with
    | (.error x, s) => (.error x, s)
    | (.ok b, s) => match s.sideBytes core w e o p (k + 1) n with
      | (.error x, s) => (.error x, s)
      | (.ok bs, s) => (.ok (b :: bs), s)

/-- The tag of a row (R255): for Q4N the superscale of its first present block, which all its present blocks must share. -/
def State.rowTag (s : State) (core : Nat) (w : Workgroup) (e : BitVec 512) (o p : Nat) : Except (Cause × W64) W32 × State :=
  if tidFormat e ≠ 8 ∨ p = 0 then (.ok 0, s)
  else match s.engineBytes core w false (tidSuper e + 4 * (o / 32 / 256)) 4 with
    | (.error x, s) => (.error x, s)
    | (.ok bs, s) =>
      if o / 32 / 256 ≠ (o + p - 1) / 32 / 256 then (.error (.tid, 0), s) else (.ok (BitVec.ofNat 32 (leNat bs)), s)

/-- The byte offset of row k of a push, and how many of its bytes are present (R255). -/
def Push.span (p : Push) : Nat × Nat :=
  (tidOffset2 p.entry p.i0 (p.i1 + p.k) p.i2 p.i3 / 2, rowBytes p.entry p.i0 (p.i1 + p.k) p.i2 p.i3 256)

/-- The FIFO entry of row k of a push (R255): its data, its side bytes, then its tag. -/
def State.pushRow (s : State) (core : Nat) (w : Workgroup) (p : Push) : Except (Cause × W64) FifoEntry × State :=
  let e := p.entry
  let o := p.span.1
  let n := p.span.2
  match s.engineBytes core w false (tidBase e + o) n with
  | (.error x, s) => (.error x, s)
  | (.ok bs, s) => match s.sideBytes core w e o n 0 8 with
    | (.error x, s) => (.error x, s)
    | (.ok side, s) => match s.rowTag core w e o n with
      | (.error x, s) => (.error x, s)
      | (.ok tag, s) => (.ok { data := BitVec.ofNat 2048 (leNat bs), side := BitVec.ofNat 64 (leNat side), tag := tag, fmt := tidFormat e,
                               smxu := false, bad := false }, s)

/-- A row of a push waits for a slice that has stopped (R368). -/
def State.pushWaits (s : State) (w : Workgroup) (p : Push) : Bool :=
  let o := p.span.1
  let n := p.span.2
  s.engineWaits w (tidBase p.entry + o) n ||
  (fmtBlock (tidFormat p.entry) && s.engineWaits w (tidScale p.entry + o / 32) ((n + 31) / 32)) ||
  (decide (tidFormat p.entry = 8) && s.engineWaits w (tidSuper p.entry + 4 * (o / 32 / 256)) 4)

/-- The record of a slice fault (R256): the data address of a data cause, else the word's. -/
def sliceFaultAddr (pc : Nat) (x : Cause × W64) : W64 :=
  match x.1 with
  | .translation => x.2
  | .access => x.2
  | .misaligned => x.2
  | .memUe => x.2
  | _ => BitVec.ofNat 64 (4 * pc)

/-- FIFO n of a workgroup. -/
def Workgroup.fifo (w : Workgroup) (n : Nat) : Fifo := w.fifos.getD n ⟨0, []⟩

/-- PUSHT (R255): only a slice executes it. Its rows are placed one by one, and the slice goes on when all are. -/
def execPusht (c f t x n : Nat) (s : State) : Host.Outcome State Fault Refusal :=
  sliceOnly (uX .x c [] []) s (fun sl s =>
    match s.curWg with
    | none => .fault .illegalOp none
    | some w =>
      if 12 < x then .fault .illegalOp none
      else match s.viewEntry w t with
        | .error e => .fault e.1 (some (sliceFaultAddr sl.pc e))
        | .ok e =>
          if tidOk e = false ∨ fmtMatrix (tidFormat e) = false then .fault .tid none
          else
            let i := fun (k : Nat) => (sl.reg (x + k)).toNat % 2 ^ 32
            if fmtBlock (tidFormat e) = true ∧ i 0 % fmtBlockSize (tidFormat e) ≠ 0 then .fault .tid none
            else if (w.fifo f).cap = 0 then .fault .matFifo none
            else .done (s.modCurWg (fun w =>
              let w := w.noteEntry t e
              { w with slice := { w.slice with push := some { fifo := f, entry := e, i0 := i 0, i1 := i 1, i2 := i 2, i3 := i 3, k := 0,
                                                              n := n + 1, pc := sl.pc } } })))

/-- The slice of a workgroup has a row to place, and a place for it (R255). -/
def Workgroup.canPlace (w : Workgroup) : Bool :=
  match w.slice.push with
  | none => false
  | some p => decide ((w.fifo p.fifo).entries.length < (w.fifo p.fifo).cap)

/-- The workgroup once a row has entered its FIFO. (DESIGN CHOICE, log entry 21.) -/
def Workgroup.placeRow (w : Workgroup) (p : Push) (e : FifoEntry) : Workgroup :=
  { w with fifos := lmod w.fifos p.fifo (fun f => { f with entries := f.entries ++ [e] }),
           slice := { w.slice with push := if p.k + 1 < p.n then some { p with k := p.k + 1 } else none } }

/-- PUSHT_ROW_PLACED: the slice's next row takes its place in the FIFO; a fault at it stops the slice (R255, R257). (DESIGN CHOICE, log entry 21.) -/
def execPushtRowPlaced (core wg : Nat) (s : State) : Host.Outcome State Fault Refusal :=
  match s.wg core wg with
  | none => .next s
  | some w => match w.slice.push with
    | none => .next s
    | some p =>
      if w.canPlace = false ∨ s.pushWaits w p = true then .next s
      else match s.pushRow core w p with
        | (.error x, s) => .next (s.modSlice core wg (fun sl =>
            { sl with live := false, push := none, ended := .faulted x.1 (sliceFaultAddr p.pc x) false }))
        | (.ok e, s) => .next ((s.modWg core wg (fun w => w.placeRow p e)).chargeUnit core wg)

/-! ## Tensor identifiers -/

/-- TID at a group's word: no rule states its `trapaddr`, which is a free value. (DEDUCED, log entry 26.) -/
def tidTrap (c : Ctx) (s : State) : Did := c.openFault .tid s

/-- TIDSET: 64 bytes checked and put into the view (R230). -/
def execTidset (c a i : Nat) (s : State) : Host.Outcome State Fault Refusal :=
  groupWord (uX .x c [.v a] []) s (fun x u s => match x.lowP64 a with
    | none => .trap x.shapeTrap false s
    | some p => match s.place x.core x.wg false (Acc.plain .read 64 64 false 0) p with
      | (.error e, s) => faultAt e x.act p s
      | (.ok pl, s) =>
        if s.stalls [(x.low, .ok pl)] then .hold s
        else if s.badPlace pl then faultAt .memUe x.act p s
        else
          let s := s.l1Reads x.core x.wg.asid 0 x.src.ctrl.hint.toNat (s.herePieces [pl])
          let e := BitVec.ofNat 512 (leNat (s.readPlace x.wg x.who.grp x.low 64 pl))
          let others := x.wg.view.filter (fun y => decide (y.1 ≠ i) && y.2.rewritten)
          if tidOk e = false ∨ 32 ≤ others.length then tidTrap x s
          else x.plain u s (fun s => .done (s.modCurWg (fun w => { w with view := tset w.view i ⟨e, true⟩ }))))

/-- TIDGET: an entry of the view to 64 bytes (R230). -/
def execTidget (c a i : Nat) (s : State) : Host.Outcome State Fault Refusal :=
  groupWord (uX .x c [.v a] []) s (fun x u s => match x.lowP64 a with
    | none => .trap x.shapeTrap false s
    | some p => match s.place x.core x.wg false (Acc.plain .write 64 64 false 0) p with
      | (.error e, s) => faultAt e x.act p s
      | (.ok pl, s) => if s.stalls [(x.low, .ok pl)] then .hold s else match s.viewEntry x.wg i with
        | .error (.tid, _) => tidTrap x s
        | .error e => .trap ⟨e.1, x.mask, e.2⟩ false s
        | .ok e => x.plain u s (fun s => .done
            ((s.modCurWg (fun w => w.noteEntry i e)).storePlace x.who x.wg.asid x.low 0 p (leBytes 64 e.toNat) pl)))

/-! ## COPY -/

/-- COPY (R300, R301): checked, then it runs on the copy engine. -/
def execCopy (c a b m : Nat) (s : State) : Host.Outcome State Fault Refusal :=
  groupWord (uX .x c [.v a, .v ((a + 1) % 32), .v b] []) s (fun x u s => match x.lowP64 a, x.lowP64 ((a + 1) % 32), x.lowP64 b with
    | some p, some p1, some v =>
      let dest := v.toNat % 2 ^ 19
      let sync := v.toNat / 2 ^ 19 % 2 ^ 19
      let rows := v.toNat / 2 ^ 38 % 2 ^ 10 + 1
      let len := 4 * (v.toNat / 2 ^ 48 % 2 ^ 16 + 1)
      let at_ := fun (o : Nat) => BitVec.ofNat 64 (scratchBase + o)
      if dest % 4 ≠ 0 then faultAt .misaligned x.act (at_ dest) s
      else if sync % 8 ≠ 0 then faultAt .misaligned x.act (at_ sync) s
      else if x.wg.scratchBytes < dest + rows * len then faultAt .access x.act (at_ dest) s
      else if x.wg.scratchBytes < sync + 8 then faultAt .access x.act (at_ sync) s
      else match s.viewEntry x.wg m with
        | .error (.tid, _) => tidTrap x s
        | .error e => .trap ⟨e.1, x.mask, e.2⟩ false s
        | .ok e =>
          let i := fun (y : W64) (h : Nat) => y.toNat / 2 ^ (32 * h) % 2 ^ 32
          if tidOk e = false ∨ i p 0 * fmtHalves (tidFormat e) % 2 ≠ 0 then tidTrap x s
          else x.plain u s (fun s =>
            let f := s.fresh
            .done (f.2.modCurWg (fun w =>
              let w := w.noteEntry m e
              { w with copies := w.copies ++ [{ id := f.1, grp := x.who.grp, mask := x.mask, entry := e, i0 := i p 0, i1 := i p 1,
                                                i2 := i p1 0, i3 := i p1 1, dest := dest, sync := sync, rows := rows, len := len, k := 0 }] })))
    | _, _, _ => .trap x.shapeTrap false s)

/-- The source of the next row of a copy, and how many of its bytes are present (R301). -/
def Copy.span (p : Copy) : Nat × Nat :=
  (tidBase p.entry + tidOffset2 p.entry p.i0 (p.i1 + p.k) p.i2 p.i3 / 2, rowBytes p.entry p.i0 (p.i1 + p.k) p.i2 p.i3 p.len)

/-- The bytes of the next row of a copy (R301). -/
def State.copyBytes (s : State) (core : Nat) (w : Workgroup) (p : Copy) : Except (Cause × W64) (List Byte) × State :=
  match s.engineBytes core w true p.span.1 p.span.2 with
  | (.error x, s) => (.error x, s)
  | (.ok bs, s) => (.ok (padTo p.len bs), s)

/-- The workgroup once a row of a copy is in scratch and counted (R299, R301, R302). -/
def Workgroup.copyRow (w : Workgroup) (p : Copy) (bs : List Byte) : Workgroup :=
  let w := { w with scratch := memPutList w.scratch (p.dest + p.k * p.len) bs }
  let w := w.setWord p.sync (syncAdd (w.word p.sync) p.len)
  { w with copies := if p.k + 1 < p.rows then w.copies.map (fun y => if y.id = p.id then { y with k := y.k + 1 } else y)
                     else w.copies.filter (fun y => decide (y.id ≠ p.id)) }

/-- The workgroup once a copy has stopped at a row: only the group's earliest copy fault is kept (R303). (DEDUCED, log entry 30.) -/
def Workgroup.copyStop (w : Workgroup) (p : Copy) (x : Cause × W64) : Workgroup :=
  let note := fun (g : Group) => match g.copyFault with
    | some _ => g
    | none => { g with copyFault := some { cause := x.1, sync := p.sync, addr := x.2, mask := p.mask } }
  ({ w with copies := w.copies.filter (fun y => decide (y.id ≠ p.id)) }).modGroup p.grp note

/-- COPY_ROW: one row of a running copy (R301 to R303). -/
def execCopyRow (core wg id : Nat) (s : State) : Host.Outcome State Fault Refusal :=
  match s.wg core wg with
  | none => .next s
  | some w => match w.copies.find? (fun y => y.id = id) with
    | none => .next s
    | some p =>
      if s.engineWaits w p.span.1 p.span.2 then .next s
      else match s.copyBytes core w p with
        | (.error x, s) => .next (s.modWg core wg (fun w => w.copyStop p x))
        | (.ok bs, s) => .next ((s.modWg core wg (fun w => w.copyRow p bs)).chargeUnit core wg)

end Sys2Proof.Machine
end

