-- ==== Sys2Proof/Machine/Atomic.lean ====
section
/-!
DEFINITION. Atomics: major ATOM (R289 to R292).
-/
namespace Sys2Proof.Machine

/-- The new value of an atomic operation on W bits: old value o, operand x, compare value y (R290). -/
def atomNew (aop w o x y : Nat) : Nat :=
  let F := fmtOf w
  if aop = 0 then (o + x) % 2 ^ w
  else if aop = 1 then (if sextN x w < sextN o w then x else o)
  else if aop = 2 then (if sextN o w < sextN x w then x else o)
  else if aop = 3 then min o x
  else if aop = 4 then max o x
  else if aop = 5 then o &&& x
  else if aop = 6 then o ||| x
  else if aop = 7 then o ^^^ x
  else if aop = 8 then x
  else if aop = 9 then (if o = y then x else o)
  else if aop = 10 then roundN F 1 (addFV 1 (decodeF F o) (decodeF F x))
  else if aop = 11 then fminBits F false o x
  else if aop = 12 then fminBits F true o x
  else if aop = 13 then (if x ≤ o then 0 else o + 1)
  else (if o = 0 ∨ x < o then x else o - 1)

/-- A lane's atomic operation at a place of this package (R291): the old value, and the state with the new one. (DEDUCED, log entry 24.) -/
def State.atomAt (s : State) (c : Ctx) (aop w l x y : Nat) (p : Place) : Nat × State :=
  let n := w / 8
  let w0 := (s.curWg).getD c.wg
  let o := leNat (s.readPlace w0 c.who.grp l n p)
  (o, s.writePlace c.who.core c.who.wg c.who.grp l (leBytes n (atomNew aop w o x y)) p)

/-- The caches before an atomic of scope sc on a global line (R292): the L1 holds it in M, or the home slice performs it. -/
def State.atomCaches (s : State) (c : Ctx) (sc : Nat) (ps : List Piece) : State :=
  if sc ≤ 1 then s.l1Writes c.core c.wg.asid 0 ps else ps.foldl (fun s p => s.sliceWrite (coreCluster c.core) c.wg.asid p.va p.pa p.len) s

/-- Where a lane's atomic is performed (R292, R358): in this package at once, at the cluster atomic unit, or at a peer's port. -/
inductive AtomTo where
  | here | unit | outside

/-- The place of an atomic. -/
def State.atomTo (s : State) (sc : Nat) (p : Place) : AtomTo :=
  if s.outsidePlace p then .outside
  else match p with
    | .global (q :: _) => if sc = 2 ∧ s.cacheable q.pa q.attr = true then .unit else .here
    | _ => .here

/-- What the lanes of an atomic come to: old values, lanes whose data cannot be returned, lanes for the cluster atomic unit, lanes for a party
outside, and the state. -/
structure AtomOut where
  vals : List (Nat × Nat)
  bad : List Nat
  unit : List (Nat × Nat × W64 × W64)
  out : List (Nat × Piece)
  st : State

/-- The first piece of a place. -/
def Place.head : Place → Piece
  | .global (q :: _) => q
  | _ => ⟨0, 0, 0, 0, 0⟩

/-- The lanes of an atomic, ascending (R291). (DEDUCED, log entry 24.) -/
def State.atomLanes (s : State) (c : Ctx) (f : AAtom) (aop w : Nat) : List (Nat × Place) → AtomOut
  | [] => ⟨[], [], [], [], s⟩
  | (l, p) :: t =>
    let x := c.src.readN f.b l
    let y := c.src.readN f.d l
    match s.atomTo f.s p with
    | .outside =>
      let r := s.atomLanes c f aop w t
      { r with out := (l, p.head) :: r.out }
    | .unit =>
      let r := s.atomLanes c f aop w t
      { r with unit := (l, p.head.pa, BitVec.ofNat 64 x, BitVec.ofNat 64 y) :: r.unit }
    | .here =>
      if s.badPlace p then
        let r := s.atomLanes c f aop w t
        { r with bad := l :: r.bad }
      else
        let v := (s.atomCaches c f.s (placePieces [p])).atomAt c aop w l x y p
        let r := v.2.atomLanes c f aop w t
        { r with vals := (l, v.1) :: r.vals }

/-- The destination of lanes of an atomic is outstanding until an answer numbered n comes (R31). -/
def State.awaitOld (s : State) (f : AAtom) (n : Nat) (ls : List Nat) : State :=
  if f.r = 1 then s.modCur (fun g => { g with pend := g.pend ++ [{ id := n, reg := .v f.d, mask := listMask ls, fixed := false, due := none, old := [] }] }) else s

/-- Hand lanes of the word numbered b to the cluster atomic unit (R331), which applies them before anything else happens (log entry 6); their destination is outstanding
until it answers. -/
def State.toUnit (s : State) (c : Ctx) (f : AAtom) (aop w b : Nat) (addr : Nat → W64) (ls : List (Nat × Nat × W64 × W64)) : State :=
  if ls = [] then s
  else
    let k := coreCluster c.core
    let r : AtomReq := ⟨b, c.who, c.wg.asid, aop, w = 64, if f.r = 1 then some f.d else none, ls, ls.map (fun x => (x.1, addr x.1))⟩
    ((s.modCluster k (fun x => { x with atomReqs := x.atomReqs ++ [r] })).awaitOld f b (ls.map (·.1))).next [.event (.clusterAtomic k)]

/-- The operand and the compare value of a lane of an atomic. -/
def Ctx.atomLane (c : Ctx) (f : AAtom) (l : Nat) : Nat × W64 × W64 :=
  (l, BitVec.ofNat 64 (c.src.readN f.b l), BitVec.ofNat 64 (c.src.readN f.d l))

/-- Post the combined operations of lanes at a peer's port, of the word numbered b (R291, R525). -/
def State.postAtoms (s : State) (c : Ctx) (f : AAtom) (aop w b : Nat) (xs : List (List Nat × Piece)) : State :=
  xs.foldl (fun s x =>
    let n := s.fresh
    let o := n.2.outsideAt n.1 b c.who (x.1.map (c.atomLane f)) x.2.pa x.2.attr (BitVec.ofNat 64 x.2.va) (.atomic f.d (w = 64) (f.r = 1))
    (n.2.post { o with aop := aop, acq := decide (f.o % 2 = 1) }).awaitOld f n.1 x.1) s

/-- The checks of an atomic (R270, R292, R483): above .wg it bypasses the L1 (R325). -/
def atomAcc (aop w sc : Nat) : Acc :=
  ⟨.rmw, w / 8, w / 8, false, some sc, decide (aop = 0 ∨ aop = 8 ∨ aop = 9), false, false, decide (2 ≤ sc)⟩

/-- Zeros for the helper lanes of an atomic (R286). -/
def Ctx.helperZeros (c : Ctx) : List (Nat × Elem) := (c.act.filter (fun l => !c.doers.contains l)).map (fun l => (l, (0 : Elem)))

/-- An ATOM word (R286, R289 to R292): the results are written once every lane has been applied. -/
def atomGroup (aop : Nat) (f : AAtom) (c : Ctx) (u : Uses) (s : State) : Did :=
  let w := if f.w = 1 then 64 else 32
  let sh := pointShape w
  let out := fun (vs : List (Nat × Elem)) => if f.r = 1 then Out.v f.d sh vs else Out.none
  if c.doers = [] then c.commit u (out c.helperZeros) s .done
  else if c.src.shape f.a ≠ .p64 ∨ c.src.shape f.b ≠ sh ∨ (aop = 9 ∧ c.src.shape f.d ≠ sh) then .trap c.shapeTrap false s
  else if 2 ≤ f.o ∧ f.s = 5 ∧ s.sysHeld c = true then .hold s
  else
    let addr := fun (l : Nat) => ((c.src.read f.a l).setWidth 64 : W64)
    let r := s.places c.core c.wg (atomAcc aop w f.s) (c.doers.map (fun l => (l, addr l)))
    let err := accTrap r.1 addr
    if err.isNone && r.2.stalls r.1 then .hold s
    else c.takeIn u { out [] with err := err } r.2 (fun s =>
      let q := s.atomLanes c f aop w (r.1.filterMap (fun x => x.2.toOption.map (fun p => (x.1, p))))
      let b := q.st.fresh
      let s := c.apply u u.cls (out (c.helperZeros ++ q.vals.map (fun x => (x.1, elemN x.2)))) b.2
      let s := (s.toUnit c f aop w b.1 addr q.unit).postAtoms c f aop w b.1 (combineLanes q.out)
      .done (if f.r = 1 ∧ q.bad ≠ [] then s.modCur (fun g => g.fail (.v f.d) b.1 (q.bad.map (fun l => (l, addr l)))) else s))

/-- ATOM.ADD (R290, R291). -/
def execAtomAdd (f : AAtom) (s : State) : Host.Outcome State Fault Refusal := groupWord (uAtom f false) s (atomGroup 0 f)

/-- ATOM.MIN (R290, R291). -/
def execAtomMin (f : AAtom) (s : State) : Host.Outcome State Fault Refusal := groupWord (uAtom f false) s (atomGroup 1 f)

/-- ATOM.MAX (R290, R291). -/
def execAtomMax (f : AAtom) (s : State) : Host.Outcome State Fault Refusal := groupWord (uAtom f false) s (atomGroup 2 f)

/-- ATOM.NMIN (R290, R291). -/
def execAtomNmin (f : AAtom) (s : State) : Host.Outcome State Fault Refusal := groupWord (uAtom f false) s (atomGroup 3 f)

/-- ATOM.NMAX (R290, R291). -/
def execAtomNmax (f : AAtom) (s : State) : Host.Outcome State Fault Refusal := groupWord (uAtom f false) s (atomGroup 4 f)

/-- ATOM.AND (R290, R291). -/
def execAtomAnd (f : AAtom) (s : State) : Host.Outcome State Fault Refusal := groupWord (uAtom f false) s (atomGroup 5 f)

/-- ATOM.OR (R290, R291). -/
def execAtomOr (f : AAtom) (s : State) : Host.Outcome State Fault Refusal := groupWord (uAtom f false) s (atomGroup 6 f)

/-- ATOM.XOR (R290, R291). -/
def execAtomXor (f : AAtom) (s : State) : Host.Outcome State Fault Refusal := groupWord (uAtom f false) s (atomGroup 7 f)

/-- ATOM.XCHG (R290, R291). -/
def execAtomXchg (f : AAtom) (s : State) : Host.Outcome State Fault Refusal := groupWord (uAtom f false) s (atomGroup 8 f)

/-- ATOM.CAS (R290, R291). -/
def execAtomCas (f : AAtom) (s : State) : Host.Outcome State Fault Refusal := groupWord (uAtom f true) s (atomGroup 9 f)

/-- ATOM.FADD (R290, R291). -/
def execAtomFadd (f : AAtom) (s : State) : Host.Outcome State Fault Refusal := groupWord (uAtom f false) s (atomGroup 10 f)

/-- ATOM.FMIN (R290, R291). -/
def execAtomFmin (f : AAtom) (s : State) : Host.Outcome State Fault Refusal := groupWord (uAtom f false) s (atomGroup 11 f)

/-- ATOM.FMAX (R290, R291). -/
def execAtomFmax (f : AAtom) (s : State) : Host.Outcome State Fault Refusal := groupWord (uAtom f false) s (atomGroup 12 f)

/-- ATOM.INCW (R290, R291). -/
def execAtomIncw (f : AAtom) (s : State) : Host.Outcome State Fault Refusal := groupWord (uAtom f false) s (atomGroup 13 f)

/-- ATOM.DECW (R290, R291). -/
def execAtomDecw (f : AAtom) (s : State) : Host.Outcome State Fault Refusal := groupWord (uAtom f false) s (atomGroup 14 f)

end Sys2Proof.Machine
end

