-- ==== Sys2Proof/Machine/Launch.lean ====
section
/-!
DEFINITION. The LAUNCH words but RGRAB: ENQ (R405 to R407), SREAD (R411), TIME (R412), ENERGY (R508, R509).
-/
namespace Sys2Proof.Machine

/-! ## SREAD and TIME -/

/-- SREAD's value in a lane (R411). -/
def State.sreadValue (s : State) (c : Ctx) (code l : Nat) : Nat :=
  let w := c.wg
  let p := w.launch
  let rec_ := ((c.grp.lane l).record.map BitVec.toNat).getD 0
  match code with
  | 0 => l
  | 1 => c.who.grp
  | 2 => w.width
  | 3 => w.wx
  | 4 => w.wy
  | 5 => w.wz
  | 6 => lpGridX p
  | 7 => lpGridY p
  | 8 => lpGridZ p
  | 9 => coreSite c.core
  | 10 => coreSite c.core / 4
  | 11 => coreDie c.core
  | 12 => if s.pkg.self = 127 then 0 else s.pkg.self.toNat
  | 13 => w.part
  | 14 => if w.source = 256 then 0xFFFFFFFF else coreDie c.core * 256 + w.source
  | 15 => lpArgs p % 2 ^ 32
  | 16 => lpArgs p / 2 ^ 32
  | 17 => w.depth
  | 18 => if (c.grp.lane l).helper then 1 else 0
  | 19 => rec_ % 2 ^ 32
  | 20 => rec_ / 2 ^ 32 % 2 ^ 32
  | 21 => rec_ / 2 ^ 64 % 2 ^ 32
  | _ => rec_ / 2 ^ 96 % 2 ^ 32

/-- SREAD (R411): codes 23 to 31 raise ILLEGAL_OP. -/
def execSread (c d k : Nat) (s : State) : Host.Outcome State Fault Refusal :=
  groupWord (uX .c c [] [.v d]) s (fun x u s =>
    if 23 ≤ k then x.issueTrap .illegalOp s
    else x.commit u (Out.v d .p32 (x.act.map (fun l => (l, elemN (s.sreadValue x k l % 2 ^ 32))))) s .done)

/-- TIME (R412). -/
def execTime (c d : Nat) (s : State) : Host.Outcome State Fault Refusal :=
  groupWord (uX .c c [] [.v d]) s (fun x u s => x.commit u (Out.v d .p64 (x.all (s.timestamp.setWidth 128))) s .done)

/-! ## ENERGY -/

/-- The energy counter that a workgroup is charged to (R508). -/
def State.energyOf (s : State) (core : Nat) (w : Workgroup) : W64 :=
  let d := s.die (coreDie core)
  if s.binCharged core w then tgetD d.binEnergy w.part 0 else tgetD d.queueEnergy w.source 0

/-- ENERGY: the counter of the issuing group (R509). -/
def execEnergy (c d : Nat) (s : State) : Host.Outcome State Fault Refusal :=
  groupWord (uX .c c [] [.v d]) s (fun x u s => x.commit u (Out.v d .p64 (x.all ((s.energyOf x.core x.wg).setWidth 128))) s .done)

/-- ENERGY.Q: the counter of a queue of the partition (R509). -/
def execEnergyQ (c d a : Nat) (s : State) : Host.Outcome State Fault Refusal :=
  groupWord (uX .c c [.v a] [.v d]) s (fun x u s => match x.lowP32 a with
    | none => .trap x.shapeTrap false s
    | some v =>
      let n := v.toNat
      let q := (s.die (n / 256)).queue (n % 256)
      if 0x3FF < n ∨ q.part.toNat ≠ x.wg.part then
        x.commit u { Out.v d .p64 [] with err := some ⟨.access, x.mask, BitVec.ofNat 64 n⟩ } s .done
      else x.commit u (Out.v d .p64 (x.all ((tgetD (s.die (n / 256)).queueEnergy (n % 256) 0).setWidth 128))) s .done)

/-! ## ENQ -/

/-- Reserved fields of a packet are zero (R390). -/
def lpReservedOk (b : BitVec 512) : Bool :=
  decide (fieldOf b 0 63 55 = 0 ∧ fieldOf b 2 63 55 = 0 ∧ fieldOf b 3 63 63 = 0 ∧ fieldOf b 5 63 55 = 0 ∧ fieldOf b 6 63 55 = 0 ∧
    fieldOf b 7 63 55 = 0)

/-- A packet's kind is KERNEL or SIGNAL (R391). -/
def lpKindOk (b : BitVec 512) : Bool := lpKind b = 1 || lpKind b = 2

/-- Packets in a queue's ring (R394). -/
def Queue.held (q : Queue) : Nat := (q.write - q.read).toNat
/-- Capacity of a ring. -/
def Queue.cap (q : Queue) : Nat := 2 ^ q.lgsize.toNat
/-- Virtual address of ring entry i (R394). -/
def Queue.entryAt (q : Queue) (i : Nat) : Nat := q.base.toNat + 64 * (i % q.cap)

/-- What ENQ reads of its lanes: queue number, packet. -/
abbrev EnqLane := Nat × Nat × BitVec 512

/-- Where the ring entry of a lane would be written: the queue, its write index and the physical address, or none when the ring is full
or the entry cannot be written; `before` lanes of the word have taken entries of the queue (R406, R407). -/
def State.enqSlot (s : State) (d q before : Nat) : Option (Nat × Except Cause Nat) :=
  let k := (s.die d).queue q
  if k.cap ≤ k.held + before then none
  else
    let i := (k.write.toNat + before) % 2 ^ 32
    some (i, match s.unitAccess k.asid.toNat k.pq k.part.toNat (k.entryAt i) 64 .write with
      | .error x => .error x
      | .ok pa => if s.anyBoarded pa 64 then .error .churnStore else .ok pa)

/-- A packet is completed as REFUSED (R392, R408), with the interrupt it asked for (R404), and its queue's error bit is set. -/
def State.refusePacket (s : State) (d q : Nat) (b : BitVec 512) : State :=
  let k := (s.die d).queue q
  let s := (s.modDie d (fun x => x.modQueue q (fun k => { k with error := true }))).writeSignal d k.asid.toNat (lpPriv b && k.pq) k.part.toNat
    (lpSignal b) (signalWord 0 0 4)
  if lpInterrupt b ∧ lpSignal b ≠ 0 then s.modPkg (fun p => { p with interrupts := p.interrupts ++ [(d, k.vector.toNat)] }) else s

/-- Write a packet at a queue's next free place with a tag (R407); a place that cannot be written refuses the packet. -/
def State.ringWrite (s : State) (d q : Nat) (b : BitVec 512) (tree : Option Nat) (depth : Nat) : State :=
  let k := (s.die d).queue q
  match s.enqSlot d q 0 with
  | some (i, .ok pa) =>
    (s.unitWrite k.asid.toNat (k.entryAt i) pa (leBytes 64 b.toNat)).modDie d (fun k => k.modQueue q (fun q =>
      { q with write := q.write + 1, tags := q.tags ++ [(i, tree, depth)] }))
  | _ => s.refusePacket d q b

/-- The packets held for a full queue take its free places, n at most, in their order (R408). -/
def State.placeReleased (s : State) (d q : Nat) : Nat → State
  | 0 => s
  | n + 1 =>
    let k := (s.die d).queue q
    match k.released with
    | [] => s
    | b :: t =>
      if k.cap ≤ k.held then s
      else ((s.modDie d (fun x => x.modQueue q (fun k => { k with released := t }))).ringWrite d q b none 0).placeReleased d q n

/-- A lane that raises ENQ_FAULT (R406); `before` earlier lanes that are no helpers name the queue, and packets that the Churn released come
before them all (R408). -/
def State.enqBad (s : State) (c : Ctx) (x : EnqLane) (before : Nat) : Bool :=
  let q := (s.die (coreDie c.core)).queue x.2.1
  let b := x.2.2
  decide (255 < x.2.1) || !q.enable || q.destroying || !q.enq || decide (q.part.toNat ≠ c.wg.part) || !lpKindOk b || !lpReservedOk b ||
  (lpPriv b && !c.wg.priv) || decide (c.wg.depth = 63) ||
  (!(c.grp.lane x.1).helper && (match s.enqSlot (coreDie c.core) x.2.1 (q.released.length + before) with
    | some (_, .error _) => true
    | _ => false))

/-- Lanes of a list before a lane, no helpers, that name a queue. -/
def enqBefore (c : Ctx) (xs : List EnqLane) (l q : Nat) : Nat :=
  (xs.filter (fun x => decide (x.1 < l ∧ x.2.1 = q) && !(c.grp.lane x.1).helper)).length

/-- One lane enqueues (R407), behind the packets that the Churn released (R408): its result and the state. -/
def State.enqOne (s : State) (c : Ctx) (x : EnqLane) : Bool × State :=
  let d := coreDie c.core
  if (c.grp.lane x.1).helper then (false, s)
  else
    let s := s.placeReleased d x.2.1 ((s.die d).queue x.2.1).released.length
    let q := (s.die d).queue x.2.1
    if q.released ≠ [] ∨ q.cap ≤ q.held then (false, s)
    else (true, (s.ringWrite d x.2.1 x.2.2 c.wg.tree (c.wg.depth + 1)).treeEvent d c.wg.tree 1)

/-- All lanes enqueue, ascending (R407): once for each. (DEDUCED, log entry 94.) -/
def State.enqAll (s : State) (c : Ctx) : List EnqLane → List (Nat × Tri) × State
  | [] => ([], s)
  | x :: t =>
    let r := s.enqOne c x
    let q := r.2.enqAll c t
    ((x.1, Tri.ofBool r.1) :: q.1, q.2)

/-- Predicate results of each lane written over those that a word has just committed. -/
def State.putPreds (s : State) (q : Nat) (vs : List (Nat × Tri)) : State :=
  s.modCur (fun g => vs.foldl (fun g x => g.modLane x.1 (fun l => l.setPred q x.2)) g)

/-- ENQ (R405 to R407): a lane whose packet data cannot be returned enqueues nothing, and the first later word that reads qd there faults (R287,
R414). (DEDUCED, log entry 81.) -/
def execEnq (c q a b : Nat) (s : State) : Host.Outcome State Fault Refusal :=
  groupWord (uX .c c [.v a, .v b] [.q q]) s (fun x u s =>
    if x.src.shape a ≠ .p64 ∨ x.src.shape b ≠ .p32 then .trap x.shapeTrap false s
    else
      let addr := fun (l : Nat) => (x.src.read a l).setWidth 64
      let r := s.places x.core x.wg (Acc.plain .read 64 64 false 0) (x.act.map (fun l => (l, addr l)))
      match accTrap (r.1.filter (fun y => !x.helperZero y)) addr with
      | some t => .trap t false r.2
      | none =>
        if r.2.stalls r.1 then .hold s
        else
          let s := r.2.l1Reads x.core x.wg.asid 0 x.src.ctrl.hint.toNat (r.2.herePieces (r.1.filterMap (fun y => y.2.toOption)))
          let lost := fun (y : Nat × Except Cause Place) => match y.2 with
            | .ok p => s.badPlace p
            | .error _ => false
          let xs : List EnqLane := (r.1.filter (fun y => !lost y)).map (fun y => (y.1, x.src.readN b y.1, match y.2 with
            | .ok p => BitVec.ofNat 512 (leNat (s.readPlace x.wg x.who.grp y.1 64 p))
            | .error _ => 0))
          let wrong := (xs.filter (fun y => s.enqBad x y (enqBefore x xs y.1 y.2.1))).map (·.1)
          if wrong ≠ [] then faultAt .enqFault wrong (addr (wrong.headD 0)) s
          else x.commit u (Out.q q (x.allQ .f)) s (fun s =>
            let e := s.enqAll x xs
            let n := e.2.fresh
            let bad := (r.1.filter lost).map (fun y => (y.1, addr y.1))
            .done (if bad = [] then e.2.putPreds q e.1 else (n.2.putPreds q e.1).modCur (fun g => g.fail (.q q) n.1 bad))))

end Sys2Proof.Machine
end

