-- ==== Sys2Proof/Machine/Bins.lean ====
section
/-!
DEFINITION. The dispatch checks of a packet (R392), the Separator's bins and their launches (R448 to R454), and the packets that a Churn
release puts into a queue (R408, R428).
-/
namespace Sys2Proof.Machine

/-! ## Checks of a packet -/

/-- The capacities of a packet's FIFOs, in all (R390). -/
def lpFifoSum (b : BitVec 512) : Nat := ((upto 0 8).map (lpFifo b)).sum

/-- The limits of R390. -/
def lpLimitsOk (b : BitVec 512) : Bool :=
  decide (lpPrivate b ≤ 64 ∧ lpTiles b ≤ 4 ∧ lpScratch b ≤ 448 ∧ lpNbar b ≤ 8 ∧ 1 ≤ lpGridX b ∧ 1 ≤ lpGridY b ∧ 1 ≤ lpGridZ b ∧
    lpFifoSum b ≤ 496)

/-- Scratchpad KiB per core of a partition (R232). -/
def State.partScratch (s : State) (p : Nat) : Nat := ((tget s.pkg.parts p).map (·.scratchKiB)).getD 0

/-- A packet is refused at dispatch (R392), in a queue or bin of a partition that permits privileged launches or not. (DEDUCED, log entry 35.) -/
def State.packetRefused (s : State) (b : BitVec 512) (part : Nat) (pq : Bool) : Bool :=
  !lpKindOk b || !lpReservedOk b || decide (lpCode b % 384 ≠ 0) || decide (lpTrap b ≠ 0 ∧ lpCode b = 0) || !lpLimitsOk b ||
  decide (lpTids b % 64 ≠ 0) || decide (lpSignal b % 8 ≠ 0) || decide (lpRanges b % 16 ≠ 0) || decide (lpPartition b ≠ part) ||
  (lpPriv b && !pq) || decide (16384 < lpGroups b * lpQuota b) || decide (s.partScratch part < lpScratch b) ||
  decide (0 < lpNbar b ∧ 65535 < lpGrid b * lpGroups b)

/-! ## Bins -/

/-- Bin k of a die after reset (R448). -/
def Bin.reset : Bin :=
  { enable := false, part := 0, error := false, pq := false, template := 0, copy := none, tail := none, quads := [], singles := [], last := 0 }

/-- Bin k of a die. -/
def State.bin (s : State) (d k : Nat) : Bin := tgetD (s.die d).bins k Bin.reset

/-- The state with a bin changed. -/
def State.modBin (s : State) (d k : Nat) (f : Bin → Bin) : State := s.modDie d (fun x => { x with bins := tmod x.bins k Bin.reset f })

/-- A bin holds no pending record. -/
def Bin.empty (b : Bin) : Bool := b.quads.isEmpty && b.singles.isEmpty

/-- Real records among a bin's pending ones. -/
def Bin.pending (b : Bin) : Nat := (b.quads.map (fun q => (q.filter (fun r => !recHelper r)).length)).sum + b.singles.length

/-- Pending records of a die (R450). -/
def State.pendingRecords (s : State) (d : Nat) : Nat := ((s.die d).bins.map (fun b => b.2.pending)).sum

/-- The passes of a list of records have had a pixel dropped (R454, R456). -/
def State.dropPixels (s : State) (d : Nat) (rs : List (BitVec 128)) : State :=
  rs.foldl (fun s r =>
    if recKind r = 0 ∧ recHelper r = false then
      match tget (s.die d).tiles (recTile r) with
      | none => s
      | some t => s.modDie d (fun x => { x with passes := match tget x.passes t.pass with
          | none => x.passes
          | some p => tset x.passes t.pass { p with dropped := true } })
    else s) s

/-- Records are dropped by a refused launch (R454): the bin's error, the passes' status, the references. -/
def State.dropRecords (s : State) (d k : Nat) (rs : List (BitVec 128)) : State :=
  let s := s.modBin d k (fun b => { b with error := true })
  ((s.dropPixels d rs).releaseRecords d rs).count 2 (sourceOf d 0x201)

/-- The bin ASID of a partition on a die (R531). -/
def State.binAsid (s : State) (d p : Nat) : Nat := (tgetD (s.die d).binAsid p 0).toNat

/-- A bin's template, if it can be read and is not refused (R451, R454). -/
def State.binTemplate (s : State) (d k : Nat) : Option (BitVec 512) :=
  let b := s.bin d k
  match s.unitRead512 (s.binAsid d b.part.toNat) b.pq b.part.toNat b.template.toNat with
  | .error _ => none
  | .ok t =>
    if s.packetRefused t b.part.toNat b.pq || decide (lpKind t ≠ 1) || decide (lpGroups t ≠ 1) ||
        decide (lpGridX t ≠ 1 ∨ lpGridY t ≠ 1 ∨ lpGridZ t ≠ 1) then none else some t

/-- The lanes of a group launched with quads (R451, R452). -/
def quadLanes (qs : List (List (BitVec 128))) : List (Option (BitVec 128) × Bool) :=
  qs.flatMap (fun q => q.map (fun r => (some r, recHelper r)))
/-- The lanes of a group launched with singles. -/
def singleLanes (rs : List (BitVec 128)) : List (Option (BitVec 128) × Bool) := rs.map (fun r => (some r, false))
/-- Lanes with no record up to the width. -/
def padLanes (w : Nat) (l : List (Option (BitVec 128) × Bool)) : List (Option (BitVec 128) × Bool) :=
  l ++ List.replicate (w - l.length) (none, false)

/-- One launch of a bin: quads if `quad`, of at most the width's worth of its oldest records. -/
def State.launchBin (s : State) (d k : Nat) (quad : Bool) : State :=
  let b := s.bin d k
  match b.copy with
  | none => s
  | some t =>
    let w := lpWidth t
    let lanes := if quad then quadLanes (b.quads.take (w / 4)) else singleLanes (b.singles.take w)
    let s := s.modBin d k (fun b => if quad then { b with quads := b.quads.drop (w / 4) } else { b with singles := b.singles.drop w })
    s.modDie d (fun x => { x with launches := x.launches ++ [{ bin := k, template := t, records := padLanes w lanes }] })

/-- Full launches of a bin (R451), at most n; with `all`, partial ones too. -/
def State.launchBins (s : State) (d k : Nat) (all : Bool) : Nat → State
  | 0 => s
  | n + 1 =>
    let b := s.bin d k
    let w := (b.copy.map lpWidth).getD 8
    if w / 4 ≤ b.quads.length ∨ (all = true ∧ b.quads ≠ []) then (s.launchBin d k true).launchBins d k all n
    else if w ≤ b.singles.length ∨ (all = true ∧ b.singles ≠ []) then (s.launchBin d k false).launchBins d k all n
    else s

/-- A bin with no pending record gives up its tail and its template copy (R450, R451). -/
def State.settleBin (s : State) (d k : Nat) : State :=
  let b := s.bin d k
  if b.empty = false then s
  else
    let s := match b.tail with
      | none => s
      | some n => s.modDie d (fun x => { x with slots := tdel x.slots n })
    s.modBin d k (fun b => { b with tail := none, copy := none })

/-- Launch a bin's pending records: the full groups, or all (R451, R462). -/
def State.flushBin (s : State) (d k : Nat) (all : Bool) : State :=
  let b := s.bin d k
  (s.launchBins d k all (b.quads.length + b.singles.length)).settleBin d k

/-- Records enter a bin (R450, R451, R454). -/
def State.enterBin (s : State) (d k : Nat) (quads : List (List (BitVec 128))) (singles : List (BitVec 128)) : State :=
  let b := s.bin d k
  let copy := if b.empty then s.binTemplate d k else b.copy
  match copy with
  | none => (s.dropRecords d k (quads.flatten ++ singles)).settleBin d k
  | some t =>
    (s.modBin d k (fun b => { b with copy := some t, quads := b.quads ++ quads, singles := b.singles ++ singles,
                                     last := s.cycle })).flushBin d k false

/-- BIN_TIMEOUT: a bin whose last record entered it 4,096 cycles ago launches what it holds (R451). -/
def execBinTimeout (die bin : Nat) (s : State) : Host.Outcome State Fault Refusal :=
  if 4096 ≤ bin then .next s
  else if (s.bin die bin).empty = true ∨ s.cycle < (s.bin die bin).last + 4096 then .next s
  else .next (s.flushBin die bin true)

/-! ## Packets that enter a queue -/

/-- A packet that the Churn released reaches its queue (R408, R428). -/
def State.releaseInto (s : State) (d q : Nat) (b : BitVec 512) : State :=
  let k := (s.die d).queue q
  if k.enable = false ∨ k.destroying = true then s.refusePacket d q b
  else if k.released ≠ [] ∨ k.cap ≤ k.held then s.modDie d (fun x => x.modQueue q (fun k => { k with released := k.released ++ [b] }))
  else s.ringWrite d q b none 0

/-- RELEASE_PACKET_ENQUEUE: the first packet held for a full queue takes its next free place (R408). -/
def execReleasePacketEnqueue (die queue : Nat) (s : State) : Host.Outcome State Fault Refusal :=
  if 4 ≤ die ∨ 256 ≤ queue then .next s
  else
    let k := (s.die die).queue queue
    if k.released = [] ∨ k.cap ≤ k.held then .next s else .next (s.placeReleased die queue 1)

end Sys2Proof.Machine
end

