-- ==== Sys2Proof/Machine/Waits.lean ====
section
/-!
DEFINITION. How a word that sleeps completes or faults: its lanes go on, and the rest of its chain issues (R166, R260, R308, R314).
-/
namespace Sys2Proof.Machine

/-- The Wait of a group with a number. -/
def Group.waitOf (g : Group) (id : Nat) : Option Wait := g.waits.find? (fun w => w.id = id)

/-- A group without a Wait. -/
def Group.dropWait (g : Group) (id : Nat) : Group := { g with waits := g.waits.filter (fun w => decide (w.id ≠ id)) }

/-- The path of a Wait is frozen while a handler of its group runs (R260). -/
def Group.frozen (g : Group) (w : Wait) : Bool := (g.lanesIn w.mask).any (fun l => (g.lane l).held)

/-- What a lane does at the end of its chain: its transfer takes effect (R23), or it waits at its JOIN (R182). -/
def Lane.land (l : Lane) : Lane :=
  let l := match l.joining with
    | none => l
    | some n => { l with waiting := some n, joining := none }
  match l.target with
  | none => l
  | some t => { l with pc := t, rep := none, target := none }

/-- A lane goes on after a word that slept: past the word, and where its chain leads when it ends there. -/
def Lane.wakeUp (last : Bool) (l : Lane) : Lane := if last then l.advance.land else l.advance

/-! ## JOIN -/

/-- Lanes that wait at join mask n have all arrived (R182). -/
def Group.joinReady (g : Group) (n : Nat) : Bool :=
  let ls := g.liveLanes.filter (fun l => (g.join n).getLsbD l)
  ls != [] && ls.all (fun l => decide ((g.lane l).waiting = some n))

/-- Release the lanes of a list, but for held ones (R260). -/
def Group.release (g : Group) (p : Nat → Lane → Bool) : Group :=
  let f := fun (l : Nat) (x : Lane) => if p l x && !x.held then { x with waiting := none } else x
  { g with lanes := lmapIdx f 0 g.lanes }

/-- The release tests of R182 and R183. -/
def Group.joinTest (g : Group) : Group :=
  let ready := (upto 0 16).filter g.joinReady
  if ready ≠ [] then
    g.release (fun l x => match x.waiting with
      | none => false
      | some n => ready.contains n && (g.join n).getLsbD l)
  else if g.liveLanes ≠ [] ∧ g.liveLanes.all (fun l => (g.lane l).waiting.isSome) = true then g.release (fun _ _ => true)
  else g

/-! ## Going on -/

/-- The destination of a sleeping word, which is allocated as the word completes, would be reshaped by a partial group (R63): another path has
allocated it since the word issued. -/
def Group.wakeTrap (g : Group) (w : Wait) : Option Trap :=
  match w.dv.bind (tget g.regs) with
  | none => none
  | some v => if v.shape ≠ w.dshape ∧ g.liveLanes.any (fun l => !w.mask.getLsbD l) = true then some ⟨.shape, w.mask, 0⟩ else none

/-- The destination of a sleeping word is allocated, and written in the lanes that have not exited. -/
def Group.writeWait (g : Group) (w : Wait) (vs : List (Nat × Elem)) : Group :=
  match w.dv with
  | none => g
  | some d =>
    let vs := vs.filter (fun x => (g.lanesIn w.mask).contains x.1 && !(g.lane x.1).exited)
    { g.put (allocRegs g.width g.regs [⟨d, w.dshape, vs⟩]) (Out.v d w.dshape vs) with
      failed := clearFailed g.failed (Out.v d w.dshape vs),
      unfencedRegs := d :: g.unfencedRegs.filter (fun r => decide (r ≠ d)) }

/-- A group whose sleeping word completes: its destination is written, and its lanes go on. -/
def Group.wakeUp (g : Group) (w : Wait) (vs : List (Nat × Elem)) (q : Option Tri) : Group :=
  let lanes := (g.lanesIn w.mask).filter (fun l => !(g.lane l).exited)
  let g := g.writeWait w vs
  let g := match w.dq, q with
    | some n, some y => g.modLanes lanes (fun l => l.setPred n y)
    | _, _ => g
  ((g.modLanes lanes (Lane.wakeUp w.rest.isNone)).dropWait w.id).joinTest

/-- A group as the rest of a chain reads it (R28). -/
def Group.asRead (g : Group) (r : Rest) : Group :=
  { g with regs := r.regs, joins := r.joins, lanes := lmapIdx (fun n (l : Lane) => { l with q := r.preds.getD n l.q }) 0 g.lanes }

/-- Put work after the chain that is under way, or at the head when none is. -/
def insertWork (cur : Issue) (it : Item) (l : List Item) : List Item :=
  if cur.mask = 0 then it :: l
  else (l.takeWhile (fun x => decide (x ≠ .chainEnd))) ++ (match l.dropWhile (fun x => decide (x ≠ .chainEnd)) with
    | e :: t => e :: it :: t
    | [] => [it])

/-- The rest of a sleeping word's chain issues, from a word address on (R28). -/
def State.issueRest (s : State) (c w g : Nat) (x : Wait) (pc : Nat) : State :=
  match x.rest, s.group c w g with
  | some r, some y =>
    let uid := ((s.wg c w).map (·.uid)).getD 0
    let iss : Issue := { who := ⟨c, w, uid, g⟩, mask := x.mask, pc := pc, snap := some (y.asRead r), stall := 0, live := true,
                         waited := false, freed := r.freed, rest := true }
    { s with agenda := insertWork s.cur (.chain iss) s.agenda }
  | _, _ => s

/-- A sleeping word of a group completes. -/
def State.completeWait (s : State) (c w g : Nat) (x : Wait) (vs : List (Nat × Elem)) (q : Option Tri) : State :=
  (s.modGroup c w g (fun y => y.wakeUp x vs q)).issueRest c w g x (x.pc + 1)

/-- The rest of a chain of which a word waits at issue sleeps until none does, and keeps what it reads (R28, R167). (DESIGN CHOICE, log entry 9.) -/
def State.parkRest (s : State) (iss : Issue) : State :=
  match iss.snap with
  | none => s
  | some g =>
    let f := s.fresh
    f.2.modGroup iss.who.core iss.who.wg iss.who.grp (fun y =>
      { y with waits := y.waits ++ [{ id := f.1, mask := iss.mask, pc := iss.pc, kind := .rest, dv := none, dshape := .p32, dq := none,
                                      rest := some (g.restOf iss.freed) }] })

/-- The rest of a chain tries to issue again. -/
def State.wakeRest (s : State) (c w g : Nat) (x : Wait) : State := (s.modGroup c w g (fun y => y.dropWait x.id)).issueRest c w g x x.pc

/-- One value for every lane of a Wait. -/
def Wait.all (x : Wait) (v : W64) : List (Nat × Elem) := (maskList x.mask).map (fun l => (l, v.setWidth 128))

/-- A sleeping word faults (R260): its path traps at the word. -/
def State.faultWait (s : State) (c w g : Nat) (x : Wait) (t : Trap) (late : Bool) : State :=
  match s.group c w g with
  | none => s
  | some y => (s.modGroup c w g (fun y => y.dropWait x.id)).takeTrap c w g (y.lanesIn x.mask) x.pc t late

/-- The Wait of a group by number, when its path may test: not frozen. -/
def State.waitReady (s : State) (c w g id : Nat) : Option Wait :=
  match s.group c w g with
  | none => none
  | some y => match y.waitOf id with
    | none => none
    | some x => if y.frozen x then none else some x

/-- The destination check of a group's sleeping word that is about to take effect (R63). -/
def State.wakeTrap (s : State) (c w g : Nat) (x : Wait) : Option Trap := (s.group c w g).bind (fun y => y.wakeTrap x)

/-- The request of a sleeping word has been answered with nothing more to write than a predicate: the word completes, at once or when its path is
no longer frozen (R260). -/
def State.finishReply (s : State) (who : Who) (id : Nat) (q : Option Tri) : State :=
  match s.waitReady who.core who.wg who.grp id with
  | some x => s.completeWait who.core who.wg who.grp x [] q
  | none => s.modGroup who.core who.wg who.grp (fun g =>
      { g with waits := g.waits.map (fun x => if x.id = id then { x with dv := none, kind := .answered q none } else x) })

/-- The request of a sleeping word has failed: the word faults, at once or when its path is no longer frozen (R260). -/
def State.failReply (s : State) (who : Who) (id : Nat) (cause : Cause) (a : W64) : State :=
  match s.waitReady who.core who.wg who.grp id with
  | some x => s.faultWait who.core who.wg who.grp x ⟨cause, x.mask, a⟩ false
  | none => s.modGroup who.core who.wg who.grp (fun g =>
      { g with waits := g.waits.map (fun x => if x.id = id then { x with dv := none, kind := .answered none (some (cause, a)) } else x) })

/-- A slice's sleeping word completes: a value for x_d, and on to the next word. -/
def State.completeSlice (s : State) (c w : Nat) (x : Wait) (v : W64) : State :=
  s.modSlice c w (fun y => Slice.advance { (match x.dv with
    | none => y
    | some d => y.setReg d v) with wait := none })

/-- A slice's sleeping word faults (R257). -/
def State.faultSlice (s : State) (c w : Nat) (cause : Cause) (addr : W64) : State :=
  s.modSlice c w (fun y => { y with live := false, push := none, wait := none, ended := .faulted cause addr false })

end Sys2Proof.Machine
end

