-- ==== Sys2Proof/Machine/Answers.lean ====
section
/-!
DEFINITION. Answers to accesses that are outstanding outside the package (R287, R498, R523 to R526), and to loads that wait for a memory tap of a
Churn (R288).
-/
namespace Sys2Proof.Machine

/-- The value of a load as an element (R277). -/
def answerElem (signed : Bool) (size v : Nat) : Elem := elemN (if signed then wrapInt (sextN v (8 * size)) 32 else v % 256 ^ size)

/-- The old values of the lanes of a combined atomic whose word held o (R291), of w bits. -/
def oldValues (aop w : Nat) : Nat → List (Nat × W64 × W64) → List (Nat × Elem)
  | _, [] => []
  | o, (l, x, y) :: t => (l, elemN o) :: oldValues aop w (atomNew aop w o (x.toNat % 2 ^ w) (y.toNat % 2 ^ w)) t

/-- The lanes of an access that have not exited, each with its address (R179). -/
def Group.answered (g : Group) (o : Outside) : List (Nat × W64) :=
  ((o.lanes.map (·.1)).filter (fun l => !(g.lane l).exited)).map (fun l => (l, o.va))

/-- A group when an outside access to a register is answered: the lanes that have not exited take their values, or are a failed read (R287). -/
def Group.answer (g : Group) (o : Outside) (reg : Nat) (sh : Shape) (v : Option (List (Nat × Elem))) : Group :=
  let g := { g with pend := g.pend.filter (fun p => decide (p.id ≠ o.id)) }
  match v with
  | some vs => g.land reg o.batch sh (vs.filter (fun x => !(g.lane x.1).exited)) []
  | none => g.land reg o.batch sh [] (g.answered o)

/-- The issuer of an outside access is still there. -/
def State.outsideIssuer (s : State) (o : Outside) : Bool :=
  match s.wg o.who.core o.who.wg with
  | none => false
  | some w => decide (w.uid = o.who.uid)

/-- An outside access is over. -/
def State.dropOutside (s : State) (id : Nat) : State := s.modPkg (fun p => { p with outside := p.outside.filter (fun x => decide (x.id ≠ id)) })

/-- A slice's load is answered (R257, R287). -/
def State.answerSlice (s : State) (o : Outside) (x : Nat) (signed : Bool) (size : Nat) (v : Option Nat) : State :=
  match (s.wg o.who.core o.who.wg).bind (·.slice.wait) with
  | none => s
  | some w =>
    if w.kind ≠ .reply o.id then s
    else match v with
      | none => s.faultSlice o.who.core o.who.wg .memUe o.va
      | some n => s.completeSlice o.who.core o.who.wg { w with dv := some x }
          (if signed then BitVec.ofInt 64 (sextN n (8 * size)) else BitVec.ofNat 64 (n % 256 ^ size))

/-- Lanes of a sleeping load take bytes of their images, from byte `off` on (R142). -/
def addImage (off v : Nat) (ls : List Nat) (got : List (Nat × Elem)) : List (Nat × Elem) :=
  ls.foldl (fun g l =>
    if g.any (fun x => decide (x.1 = l)) then g.map (fun x => if x.1 = l then (l, x.2 ||| elemN (v * 256 ^ off)) else x)
    else g ++ [(l, elemN (v * 256 ^ off))]) got

/-- A sleeping load when bytes of an image come, or cannot be returned (R142, R287). -/
def Wait.image (x : Wait) (off size : Nat) (ls : List Nat) (v : Option Nat) : Wait :=
  match x.kind with
  | .images z got bad addrs => match v with
    | some n => { x with kind := .images z (addImage off (n % 256 ^ size) ls got) bad addrs }
    | none => { x with kind := .images z got (bad ++ ls.filter (fun l => !bad.contains l)) addrs }
  | _ => x

/-- A load of interval images that has all of them (R139, R142): one that is no interval faults before any lane is written; lanes whose data
could not be returned are a failed read (R287). -/
def State.wakeImages (s : State) (c w g : Nat) (x : Wait) : State :=
  match x.kind with
  | .images z got bad addrs =>
    let more := s.pkg.outside.any (fun o => match o.work with
      | .image n _ _ => decide (n = x.id)
      | _ => false)
    if more then s
    else
      let addr := fun (l : Nat) => ((addrs.find? (fun y => decide (y.1 = l))).map (·.2)).getD 0
      let ok := got.filter (fun y => !bad.contains y.1)
      match imageTrap z ok addr with
      | some t => s.faultWait c w g x t false
      | none =>
        let lost := match x.dv, s.group c w g with
          | some d, some y => (bad.filter (fun l => !(y.lane l).exited)).map (fun l => (d, l))
          | _, _ => []
        (s.completeWait c w g x ok none).modGroup c w g (fun y => match lost with
          | [] => y
          | (d, _) :: _ => y.fail (.v d) x.id (lost.map (fun z => (z.2, addr z.2))))
  | _ => s

/-- Bytes of images come for the sleeping load numbered w. -/
def State.answerImage (s : State) (o : Outside) (w off size : Nat) (v : Option Nat) : State :=
  let s := s.modGroup o.who.core o.who.wg o.who.grp (fun g =>
    { g with waits := g.waits.map (fun x => if x.id = w then x.image off size (o.lanes.map (·.1)) v else x) })
  match s.waitReady o.who.core o.who.wg o.who.grp w with
  | none => s
  | some x => s.wakeImages o.who.core o.who.wg o.who.grp x

/-- An outside access is answered with a value, or in error (R287, R498, R524): an error of a write, or of an atomic that wants no value, is
counted and reported. (DESIGN CHOICE, log entry 75.) -/
def State.answer (s : State) (o : Outside) (v : Option Nat) : State :=
  let s := s.dropOutside o.id
  let s := match v, o.work with
    | none, .store => s.count 8 (coreSource o.who.core)
    | none, .atomic _ _ false => s.count 8 (coreSource o.who.core)
    | _, _ => s
  let s := if o.work.writes then s.writeAnswered (coreDie o.who.core) o.packet else s
  if s.outsideIssuer o = false then s
  else
    let put := fun (reg : Nat) (sh : Shape) (x : Option (List (Nat × Elem))) =>
      s.modGroup o.who.core o.who.wg o.who.grp (fun g => g.answer o reg sh x)
    match o.work with
    | .load reg sh signed size => put reg sh (v.map (fun n => o.lanes.map (fun x => (x.1, answerElem signed size n))))
    | .atomic reg w64 true =>
      let w := if w64 then 64 else 32
      put reg (pointShape w) (v.map (fun n => oldValues o.aop w (n % 2 ^ w) o.lanes))
    | .sliceLoad x signed size => s.answerSlice o x signed size v
    | .image w off size => s.answerImage o w off size v
    | _ => s

/-- The outside access with a number. -/
def State.outsideOf (s : State) (id : Nat) : Option Outside := s.pkg.outside.find? (fun o => o.id = id)

/-! ## Loads at a memory tap -/

/-- Bytes of an outstanding load. -/
def OutsideWork.size : OutsideWork → Nat
  | .load _ _ _ n => n
  | .image _ _ n => n
  | .sliceLoad _ _ n => n
  | _ => 0

/-- A memory tap answers a load of a boarded word (R288): the slot's value as it passes; a poisoned slot gives MEM_UE at the key's address
(R435). -/
def State.answerTap (s : State) (o : Outside) : State :=
  match s.shadow o.pa with
  | some (_, x) => if x.poison then s.answer { o with va := BitVec.ofNat 64 x.key } none else s.answer o (some (s.readPhys o.pa o.work.size))
  | none => s.answer o (if s.unreadable o.pa o.work.size then none else some (s.readPhys o.pa o.work.size))

/-- The loads that wait for a memory tap of slot n of a die, and those whose word has no slot any more, are answered (R288). -/
def State.answerTaps (s : State) (d n : Nat) : State :=
  (s.pkg.outside.filter (fun o => decide (o.package = tapParty) && (match s.boardedAt o.pa with
    | none => true
    | some b => decide (b.die = d ∧ b.slot = some n) || (s.shadow o.pa).isNone))).foldl (fun s o => s.answerTap o) s

end Sys2Proof.Machine
end

