-- ==== Sys2Proof/Machine/Matrix.lean ====
section
/-!
DEFINITION. The MAT words (R197 to R228): direct accesses, tile operations as they issue, and the events in which they execute.
-/
namespace Sys2Proof.Machine

/-! ## Tiles -/

/-- The tile a word names; none when it is not bound (R197). -/
def Workgroup.tile (w : Workgroup) (n : Nat) : Option Tile := w.tiles[n]?

/-- The workgroup with a tile changed. -/
def Workgroup.modTile (w : Workgroup) (n : Nat) (f : Tile → Tile) : Workgroup :=
  { w with tiles := lmod w.tiles n (fun t => { f t with clean := false }) }

/-- A tile with rows changed by lane. -/
def Tile.modRow (t : Tile) (l : Nat) (f : TileRow → TileRow) : Tile := { t with rows := lmod t.rows l f }

/-- Row l of a tile. -/
def Tile.row (t : Tile) (l : Nat) : TileRow := t.rows.getD l TileRow.zero

/-- Cell j of a row. -/
def TileRow.cell (r : TileRow) (j : Nat) : Nat := (r.cells.getD j 0).toNat

/-- A row with cell j replaced. -/
def TileRow.setCell (r : TileRow) (j v : Nat) : TileRow := { r with cells := lset r.cells j (BitVec.ofNat 56 v) }

/-- FP64 result column j of a row: the cell pair 2j, 2j + 1 (R199). -/
def TileRow.pair (r : TileRow) (j : Nat) : Nat := r.cell (2 * j) + r.cell (2 * j + 1) % 256 * 2 ^ 56

/-- A row with an FP64 result column replaced. -/
def TileRow.setPair (r : TileRow) (j v : Nat) : TileRow := (r.setCell (2 * j) (v % 2 ^ 56)).setCell (2 * j + 1) (v / 2 ^ 56)

/-- The code of a mode (R199). -/
def TileMode.code : TileMode → Nat
  | .empty => 0
  | .float => 1
  | .int => 2
  | .fp64 => 3

/-- A mode from its code. -/
def TileMode.ofCode (n : Nat) : TileMode := if n % 4 = 0 then .empty else if n % 4 = 1 then .float else if n % 4 = 2 then .int else .fp64

/-- A tile has a pending operation (R212): one issued and not covered by an MWAIT. -/
def Workgroup.pendingOn (w : Workgroup) (n : Nat) : Bool := w.ops.any (fun o => o.tile = n)

/-- A row with every cell and side register free (R15). -/
def freeRow (s : State) : TileRow × State :=
  let d := s.drawList (upto 0 18)
  let bit := fun (k : Nat) => ((d.1.getD k (0, 0)).2)
  ({ cells := (upto 0 16).map (fun k => (bit k).setWidth 56), m := (bit 16).setWidth 32, l := (bit 17).setWidth 56,
     sat := (bit 17).getLsbD 64, badCells := false, badSide := false }, d.2)

/-- Free rows for a list of lanes. -/
def freeRows (s : State) : List Nat → List (Nat × TileRow) × State
  | [] => ([], s)
  | l :: t =>
    let r := freeRow s
    let q := freeRows r.2 t
    ((l, r.1) :: q.1, q.2)

/-- Rows of a tile put in place. -/
def Tile.putRows (t : Tile) (rs : List (Nat × TileRow)) : Tile := rs.foldl (fun t r => t.modRow r.1 (fun _ => r.2)) t

/-! ## AREAD and SMXR -/

/-- The exact value of a number to be rounded, where it is one. -/
def XV.toF : XV → FV
  | .nan => .nan
  | .inf n => .inf n
  | .val n m e _ => .fin n m e

/-- An FP64, FP32 or integer image of a cell (R223): conv 0 F32, 1 F64, 2 I32, 3 RAW; none is MAT_FORMAT. -/
def areadValue (conv col : Nat) (m : TileMode) (r : TileRow) : Option Nat :=
  let x := decodeF a56 (r.cell col)
  let i := sextN (r.cell col) 56
  if conv = 3 then some (r.cell col)
  else match m with
    | .int =>
      if conv = 0 then some (roundN fp32 1 (intX i))
      else if conv = 1 then some (roundN fp64 1 (intX i))
      else some (wrapInt (satInt (-2 ^ 31) (2 ^ 31 - 1) i) 32)
    | .fp64 => if conv = 1 ∧ col < 8 then some (r.pair col) else none
    | _ =>
      if conv = 0 then some (roundN fp32 1 x.toX)
      else if conv = 1 then some (roundN fp64 1 x.toX)
      else some (wrapInt (roundI (-2 ^ 31) (2 ^ 31 - 1) 1 0 x).1 32)

/-- The shape that a conversion writes (R223). -/
def areadShape (conv : Nat) : Shape := if conv = 0 ∨ conv = 2 then .p32 else .p64

/-- The workgroup with a tile's mode undefined (R213). -/
def freeMode (a : Nat) (s : State) : State :=
  let d := s.draw
  d.2.modCurWg (fun w => w.modTile a (fun t => { t with mode := TileMode.ofCode d.1.toNat }))

/-- A direct read of a tile with a pending operation: undefined values and mode (R213). -/
def pendingRead (a d : Nat) (sh : Shape) (c : Ctx) (u : Uses) (s : State) : Did :=
  let r := s.drawList c.act
  c.commit u (Out.v d sh (r.1.map (fun x => (x.1, sh.keep x.2)))) r.2 (fun s => .done (freeMode a s))

/-- AREAD (R213, R223): MAT_FORMAT of the tile comes before the checks of the destination. (DESIGN CHOICE, log entry 93.) -/
def areadGroup (conv a d k : Nat) (c : Ctx) (u : Uses) (s : State) : Did :=
  match c.wg.tile a with
  | none => c.openFault .matFormat s
  | some t =>
    if c.wg.pendingOn a then pendingRead a d (areadShape conv) c u s
    else match areadValue conv k t.mode TileRow.zero with
      | none => c.openFault .matFormat s
      | some _ => c.commit u (Out.v d (areadShape conv) (c.act.map (fun l =>
          (l, elemN ((areadValue conv k t.mode (t.row l)).getD 0))))) s .done

/-- AREAD.F32 (R223). -/
def execAreadF32 (c a d k : Nat) (s : State) : Host.Outcome State Fault Refusal := groupWord (uX .x c [] [.v d]) s (areadGroup 0 a d k)
/-- AREAD.F64 (R223). -/
def execAreadF64 (c a d k : Nat) (s : State) : Host.Outcome State Fault Refusal := groupWord (uX .x c [] [.v d]) s (areadGroup 1 a d k)
/-- AREAD.I32 (R223). -/
def execAreadI32 (c a d k : Nat) (s : State) : Host.Outcome State Fault Refusal := groupWord (uX .x c [] [.v d]) s (areadGroup 2 a d k)
/-- AREAD.RAW (R223). -/
def execAreadRaw (c a d k : Nat) (s : State) : Host.Outcome State Fault Refusal := groupWord (uX .x c [] [.v d]) s (areadGroup 3 a d k)

/-- SMXR (R228): a side register of each row. -/
def smxrGroup (a d : Nat) (sh : Shape) (val : Tile → TileRow → Nat) (c : Ctx) (u : Uses) (s : State) : Did :=
  match c.wg.tile a with
  | none => c.openFault .matFormat s
  | some t =>
    if c.wg.pendingOn a then pendingRead a d sh c u s
    else c.commit u (Out.v d sh (c.act.map (fun l => (l, elemN (val t (t.row l)))))) s .done

/-- SMXR.M (R228). -/
def execSmxrM (c a d : Nat) (s : State) : Host.Outcome State Fault Refusal :=
  groupWord (uX .x c [] [.v d]) s (smxrGroup a d .p32 (fun _ r => r.m.toNat))
/-- SMXR.L (R228). -/
def execSmxrL (c a d : Nat) (s : State) : Host.Outcome State Fault Refusal :=
  groupWord (uX .x c [] [.v d]) s (smxrGroup a d .p64 (fun _ r => roundN fp64 1 (decodeF a56 r.l.toNat).toX))
/-- SMXR.ST (R228). -/
def execSmxrSt (c a d : Nat) (s : State) : Host.Outcome State Fault Refusal :=
  groupWord (uX .x c [] [.v d]) s (smxrGroup a d .p32 (fun t r => t.mode.code + if r.sat then 4 else 0))

/-! ## AWRITE -/

/-- The mode an AWRITE requires and leaves (R224); RAW leaves any. -/
def awriteMode (conv : Nat) (m : TileMode) : Option TileMode :=
  if conv = 3 then some m
  else
    let want := if conv = 0 then TileMode.float else if conv = 1 then .fp64 else .int
    if m = .empty ∨ m = want then some want else none

/-- A row once a value has been written (R224). -/
def awriteRow (conv col v : Nat) (r : TileRow) : TileRow :=
  if conv = 0 then r.setCell col (roundN a56 1 (decodeF fp32 v).toX)
  else if conv = 1 then r.setPair col v
  else if conv = 2 then r.setCell col (wrapInt (sextN v 32) 56)
  else r.setCell col (v % 2 ^ 56)

/-- A tile that this group wrote with no MFENCE since (R214). -/
def Group.noteTile (g : Group) (a : Nat) : Group :=
  { g with unfencedTiles := if g.unfencedTiles.contains a then g.unfencedTiles else a :: g.unfencedTiles }

/-- Undefined values in every cell and side register of a tile, and an undefined mode (R213). -/
def freeTile (a : Nat) (s : State) : State :=
  let r := freeRows s (upto 0 64)
  freeMode a (r.2.modCurWg (fun w => w.modTile a (fun t => t.putRows r.1)))

/-- AWRITE (R213, R214, R224). -/
def awriteGroup (conv a v k : Nat) (c : Ctx) (u : Uses) (s : State) : Did :=
  match c.wg.tile a with
  | none => c.openFault .matFormat s
  | some t =>
    let want := if conv = 0 ∨ conv = 2 then Shape.p32 else .p64
    if c.src.shape v ≠ want then .trap c.shapeTrap false s
    else if c.wg.pendingOn a then c.plain u s (fun s => .done ((freeTile a s).modCur (fun g => g.noteTile a)))
    else match awriteMode conv t.mode with
      | none => c.openFault .matFormat s
      | some m => c.plain u s (fun s => .done ((s.modCurWg (fun w => w.modTile a (fun t =>
          { (c.act.foldl (fun t l => t.modRow l (awriteRow conv k (c.src.readN v l))) t) with mode := m }))).modCur (fun g => g.noteTile a)))

/-- AWRITE.F32 (R224). -/
def execAwriteF32 (c a v k : Nat) (s : State) : Host.Outcome State Fault Refusal := groupWord { uX .x c [.v v] [] with tile := some a } s (awriteGroup 0 a v k)
/-- AWRITE.F64 (R224). -/
def execAwriteF64 (c a v k : Nat) (s : State) : Host.Outcome State Fault Refusal := groupWord { uX .x c [.v v] [] with tile := some a } s (awriteGroup 1 a v k)
/-- AWRITE.I32 (R224). -/
def execAwriteI32 (c a v k : Nat) (s : State) : Host.Outcome State Fault Refusal := groupWord { uX .x c [.v v] [] with tile := some a } s (awriteGroup 2 a v k)
/-- AWRITE.RAW (R224). -/
def execAwriteRaw (c a v k : Nat) (s : State) : Host.Outcome State Fault Refusal := groupWord { uX .x c [.v v] [] with tile := some a } s (awriteGroup 3 a v k)

/-! ## Issue of tile operations, MFENCE, MWAIT -/

/-- A tile operation joins its workgroup's list (R212); it depends on an unfenced write when `dirty` (R214). -/
def issueOp (a : Nat) (work : TileWork) (dirty : Bool) (c : Ctx) (u : Uses) (s : State) : Did :=
  c.plain u s (fun s =>
    let f := s.fresh
    let o : TileOp := { id := f.1, grp := c.who.grp, tile := a, work := work, mask := c.mask, addr := BitVec.ofNat 64 (4 * c.pc),
                        unfenced := dirty, done := false }
    .done (f.2.modCurWg (fun w => { (w.modTile a (fun t => t)) with ops := w.ops ++ [o] })))

/-- The rounding mode of an MMA's RM field (R210). -/
def mmaMode (r : Nat) : Nat := if r = 0 then 1 else if r = 1 then 3 else if r = 2 then 4 else 2

/-- MMA as it issues (R201, R212): with Z it depends on no cell (R214, R218). -/
def execMma (f : TMma) (s : State) : Host.Outcome State Fault Refusal :=
  groupWord { uX .x f.c [] [] with tile := some f.a } s (fun x u s =>
    let n := x.act.length
    let capA := (x.wg.fifo f.f).cap
    let capB := (x.wg.fifo f.g).cap
    if (x.wg.tile f.a).isNone then x.openFault .matFormat s
    else if capA < n ∨ capB < (8 + if f.f = f.g then n else 0) then x.openFault .matFifo s
    else issueOp f.a (.mma f.f f.g (mmaMode f.r) (decide (f.s = 1)) (decide (f.z = 1)))
      (decide (f.z ≠ 1) && x.grp.unfencedTiles.contains f.a) x u s)

/-- AZERO as it issues (R222). -/
def execAzero (c a : Nat) (s : State) : Host.Outcome State Fault Refusal :=
  groupWord { uX .x c [] [] with tile := some a } s (fun x u s =>
    if (x.wg.tile a).isNone then x.openFault .matFormat s else issueOp a .azero false x u s)

/-- SMXU as it issues: it reads σ now and the limit when it executes (R214, R225), so the limit is no read of the word. An unbound tile, a FIFO too
small and the limit's shape are tested in this order, where R231 gives none. (DESIGN CHOICE, log entry 93.) -/
def execSmxu (c a f v p : Nat) (s : State) : Host.Outcome State Fault Refusal :=
  groupWord { uX .x c [] [] with tile := some a } s (fun x u s =>
    if (x.wg.tile a).isNone then x.openFault .matFormat s
    else if (x.wg.fifo f).cap = 0 ∨ (x.wg.fifo f).cap < x.act.length then x.openFault .matFifo s
    else if x.src.shape v ≠ .p32 then .trap x.shapeTrap false s
    else issueOp a (.smxu f v p x.src.ctrl.smxscale) (x.grp.unfencedTiles.contains a || x.grp.unfencedRegs.contains v) x u s)

/-- A pending operation depends on a register write with no MFENCE between (R214). -/
def Workgroup.opDirty (w : Workgroup) (o : TileOp) : Bool :=
  o.unfenced || (match o.work with
    | .smxu _ v _ _ => match w.group o.grp with
      | none => false
      | some g => g.unfencedRegs.contains v
    | _ => false)

/-- MFENCE (R214). -/
def execMfence (c : Nat) (s : State) : Host.Outcome State Fault Refusal :=
  groupWord (uX .x c [] []) s (fun x u s => x.plain u s (fun s => .done
    ((s.modCurWg (fun w => { w with ops := w.ops.map (fun o => if o.grp = x.who.grp then { o with unfenced := w.opDirty o } else o) })).modCur
      (fun g => { g with unfencedRegs := [], unfencedTiles := [] }))))

/-- Undefined values in the rows of operations (R214). -/
def freeOpRows (s : State) (c w : Nat) : List TileOp → State
  | [] => s
  | o :: t =>
    let r := freeRows s (maskList o.mask)
    freeOpRows (r.2.modWg c w (fun k => k.modTile o.tile (fun t => t.putRows r.1))) c w t

/-- An MWAIT completes: it covers the operations on its tile numbered below `upto` (R212); rows of those whose operands were written
meanwhile are undefined (R214). -/
def State.coverOps (s : State) (c w a lim : Nat) : State :=
  match s.wg c w with
  | none => s
  | some k =>
    let mine := k.ops.filter (fun o => decide (o.tile = a ∧ o.id < lim))
    (freeOpRows s c w (mine.filter k.opDirty)).modWg c w (fun k => { k with ops := k.ops.filter (fun o => decide (¬ (o.tile = a ∧ o.id < lim))) })

/-- The recorded fault of a group's tile operation on a tile (R215). -/
def Group.tileFaultOn (g : Group) (a : Nat) : Option Trap :=
  match g.tileFault with
  | none => none
  | some t => if t.tile = a then some ⟨t.cause, t.mask, t.addr⟩ else none

/-- Every operation on a tile numbered below `upto` has completed (R215). -/
def Workgroup.tileQuiet (w : Workgroup) (a lim : Nat) : Bool := w.ops.all (fun o => o.done || !decide (o.tile = a ∧ o.id < lim))

/-- MWAIT (R215): a recorded fault is raised at once, without waiting for the other operations. (DESIGN CHOICE, log entry 89.) -/
def execMwait (c a : Nat) (s : State) : Host.Outcome State Fault Refusal :=
  groupWord (uX .x c [] []) s (fun x u s =>
    if (x.wg.tile a).isNone then x.openFault .matFormat s
    else match x.grp.tileFaultOn a with
      | some t => .trap t true (s.modCur (fun g => { g with tileFault := none }))
      | none =>
        if x.wg.tileQuiet a s.nextId then x.plain u s (fun s => .done (s.coverOps x.core x.who.wg a s.nextId))
        else
          let f := s.fresh
          .sleep f.2 (x.waitFor f.1 (.tile a f.1) none .p32 none))

/-! ## When a tile operation may execute -/

/-- FIFOs that an operation pops and pushes. -/
def TileWork.pops : TileWork → List Nat
  | .mma fa fb _ _ _ => [fa, fb]
  | _ => []
/-- FIFO that an operation pushes. -/
def TileWork.pushes : TileWork → List Nat
  | .smxu f _ _ _ => [f]
  | _ => []

/-- An operation not yet done comes before another one: on the same tile, popping the same FIFO, or pushing the same FIFO (R203,
R212). -/
def TileOp.before (p o : TileOp) : Bool :=
  !p.done && decide (p.id < o.id) &&
    (decide (p.tile = o.tile) || p.work.pops.any (fun f => o.work.pops.contains f) || p.work.pushes.any (fun f => o.work.pushes.contains f))

/-- A group is blocked in QPUSH or QPOP (R167). -/
def Group.queueBlocked (g : Group) : Bool := g.waits.any (fun w => match w.kind with
  | .push _ _ => true
  | .pop _ => true
  | _ => false)

/-- A sleeping word is one that its own description names as waiting or blocking (R204): SLEEP, QPUSH, QPOP, SWWAIT, BARWAIT, NBARWAIT,
MWAIT, AWAIT and CWAIT. -/
def WaitKind.waiting : WaitKind → Bool
  | .reply _ => false
  | .images _ _ _ _ => false
  | .answered _ _ => false
  | .rest => false
  | _ => true

/-- A group is blocked (R204): it sleeps in QPUSH or QPOP (R308), or each lane that has not exited waits at a JOIN or sleeps in a waiting word. -/
def Group.blocked (g : Group) : Bool :=
  g.queueBlocked ||
    g.liveLanes.all (fun l => (g.lane l).waiting.isSome || g.waits.any (fun w => w.kind.waiting && w.mask.getLsbD l))

/-- Every group of the workgroup that has not exited is blocked (R204). -/
def Workgroup.allBlocked (w : Workgroup) : Bool := w.groups.all (fun g => g.retired || g.blocked)

/-- No party will bring entries to a FIFO (R204). -/
def Workgroup.noProducer (w : Workgroup) (f : Nat) : Bool :=
  !w.slice.running && w.allBlocked && w.ops.all (fun o => o.done || !o.work.pushes.contains f)

/-- No party will take entries from a FIFO (R204). -/
def Workgroup.noConsumer (w : Workgroup) (f : Nat) : Bool :=
  w.allBlocked && w.ops.all (fun o => o.done || !o.work.pops.contains f)

/-- What an operation can do now: wait, execute, or fault with MAT_FIFO having taken nothing. -/
inductive OpReady where
  | wait | go | stuck
  deriving DecidableEq, Repr

/-- Entries an MMA needs of fb: 8 when the head entry of fa is FP64, else 16 (R218). -/
def mmaCols (e : FifoEntry) : Nat := if e.fmt = 0 then 8 else 16

/-- Whether an operation can execute (R201, R203, R204, R218). -/
def Workgroup.opReady (w : Workgroup) (o : TileOp) : OpReady :=
  if o.done || w.ops.any (fun p => p.before o) then .wait
  else match o.work with
    | .azero => .go
    | .mma fa fb _ _ _ =>
      let n := (maskList o.mask).length
      match (w.fifo fa).entries with
      | [] =>
        if n = 0 then .go
        else if w.noProducer fa || (decide ((w.fifo fb).entries.length < 8) && w.noProducer fb) then .stuck else .wait
      | e :: _ =>
        let needB := mmaCols e + if fa = fb then n else 0
        if (w.fifo fb).cap < needB then .stuck
        else if ((w.fifo fa).entries.length < n ∧ w.noProducer fa = true) ∨
            ((w.fifo fb).entries.length < needB ∧ w.noProducer fb = true) then .stuck
        else if (w.fifo fa).entries.length < n ∨ (w.fifo fb).entries.length < needB then .wait
        else .go
    | .smxu f _ _ _ =>
      let n := (maskList o.mask).length
      if (w.fifo f).entries.length + n ≤ (w.fifo f).cap then .go else if w.noConsumer f then .stuck else .wait

/-- An operation faults: its group keeps the earliest fault (R215). -/
def Workgroup.opFault (w : Workgroup) (o : TileOp) (cause : Cause) : Workgroup :=
  ({ w with ops := w.ops.map (fun (p : TileOp) => if p.id = o.id then { p with done := true, mask := 0 } else p) }).modGroup o.grp (fun g =>
    match g.tileFault with
    | some _ => g
    | none => { g with tileFault := some { tile := o.tile, cause := cause, addr := o.addr, mask := o.mask } })

/-- An operation has been applied; where it depended on an unfenced write, its rows are undefined already. -/
def Workgroup.opDone (w : Workgroup) (o : TileOp) : Workgroup :=
  { w with ops := w.ops.map (fun (p : TileOp) => if p.id = o.id then { p with done := true, unfenced := false } else p) }

/-! ## MMA -/

/-- The exact sum of exact values: an exact zero is +0 (R219). -/
def sumFV (l : List FV) : FV :=
  if l.any FV.isNan then .nan
  else
    let up := l.any (fun x => decide (x = .inf false))
    let dn := l.any (fun x => decide (x = .inf true))
    if up && dn then .nan
    else if up then .inf false
    else if dn then .inf true
    else
      let k := l.foldl (fun k x => match x with
        | .fin _ _ e => min k e
        | _ => k) (0 : Int)
      let t := l.foldl (fun (t : Int) x => match x with
        | .fin n m e => let v : Int := m * 2 ^ (e - k).toNat; if n then t - v else t + v
        | _ => t) 0
      .fin (decide (t < 0)) t.natAbs k

/-- Data byte i of an entry. -/
def FifoEntry.byte (e : FifoEntry) (i : Nat) : Nat := e.data.toNat / 256 ^ i % 256
/-- Side byte k of an entry. -/
def FifoEntry.sideAt (e : FifoEntry) (k : Nat) : Nat := e.side.toNat / 256 ^ k % 256

/-- Little-endian bytes i .. i+n−1 of an entry. -/
def FifoEntry.field (e : FifoEntry) (i n : Nat) : Nat := e.data.toNat / 256 ^ i % 256 ^ n

/-- A Q4N element (R82): its code n, its block's code c, its superscale; a block with c = 0 holds only zeros. -/
def q4Value (n c : Nat) (sup : W32) : FV :=
  if c = 0 then .fin false 0 0 else mulFV (mulFV (codebook n) (.fin false c (-8))) (decodeF fp32 sup.toNat)

/-- v of an element of an entry (R80, R82, R218), the integer formats as their values. -/
def FifoEntry.value (e : FifoEntry) (i : Nat) : FV :=
  if e.fmt = 0 then decodeF fp64 (e.field (8 * i) 8)
  else if e.fmt = 1 then decodeF fp32 (e.field (4 * i) 4)
  else if e.fmt = 2 then decodeF fp16 (e.field (2 * i) 2)
  else if e.fmt = 3 then decodeF bf16 (e.field (2 * i) 2)
  else if e.fmt = 4 then mulFV (decodeF e4m3 (e.byte i)) (decodeE8 (e.sideAt (i / 32)))
  else if e.fmt = 5 then mulFV (decodeF e5m2 (e.byte i)) (decodeE8 (e.sideAt (i / 32)))
  else if e.fmt = 6 then (intX (sextN (e.byte i) 8)).toF
  else q4Value (e.byte (i / 2) / 16 ^ (i % 2) % 16) (e.sideAt (i / 64)) e.tag

/-- Elements in a chunk of A (R217). -/
def chunkSize (f : Nat) : Nat := if f = 0 then 4 else if f = 1 then 8 else if f = 2 ∨ f = 3 then 16 else if f = 8 then 64 else 32

/-- The tile mode of a pair of formats, if it is native (R217). -/
def pairMode (a b : Nat) : Option TileMode :=
  if a = 0 ∧ b = 0 then some .fp64
  else if a = 6 ∧ b = 6 then some .int
  else if (a = 1 ∧ b = 1) ∨ (a = 2 ∧ b = 2) ∨ (a = 3 ∧ b = 3) then some .float
  else if (a = 4 ∨ a = 5) ∧ (b = 4 ∨ b = 5) then some .float
  else if a = 8 ∧ b = 8 then some .float
  else if (a = 4 ∨ a = 5 ∨ a = 6) ∧ b = 8 then some .float
  else none

/-- The format of entries that all share one. -/
def sharedFmt (l : List FifoEntry) : Option Nat :=
  match l with
  | [] => none
  | e :: t => if t.all (fun x => x.fmt = e.fmt) then some e.fmt else none

/-- The exact sum of chunk k (R218). -/
def chunkSum (a b : FifoEntry) (k : Nat) : FV :=
  sumFV ((upto (k * chunkSize a.fmt) (chunkSize a.fmt)).map (fun i => mulFV (a.value i) (b.value i)))

/-- `satadd` (R218): the cell and whether it saturated. -/
def satAdd (c s : Int) : Int × Bool :=
  if 2 ^ 55 - 1 < c + s then (2 ^ 55 - 1, true) else if c + s < -2 ^ 55 then (-2 ^ 55, true) else (c + s, false)

/-- An exact value as the integer it is. -/
def FV.toInt : FV → Int
  | .fin n m e => let v : Int := m * 2 ^ e.toNat; if n then -v else v
  | _ => 0

/-- The 8 chunks of a float or FP64 cell, in ascending K order, each added with one rounding (R218, R220). -/
def mmaFloatCell (F : Fmt) (rm : Nat) (a b : FifoEntry) (cell : Nat) : Nat :=
  (upto 0 8).foldl (fun c k => roundN F rm (addFV rm (decodeF F c) (chunkSum a b k))) cell

/-- The 8 chunks of an integer cell, with saturation noted. -/
def mmaIntCell (a b : FifoEntry) (cell : Int × Bool) : Int × Bool :=
  (upto 0 8).foldl (fun c k =>
    let r := satAdd c.1 (chunkSum a b k).toInt
    (r.1, c.2 || r.2)) cell

/-- A row of an MMA (R218). -/
def mmaRow (m : TileMode) (rm : Nat) (rs z : Bool) (a : FifoEntry) (bs : List FifoEntry) (r : TileRow) : TileRow :=
  let r := if z then { r with cells := List.replicate 16 0, sat := false, badCells := false } else r
  match m with
  | .fp64 => (lmapIdx (fun j b => (j, b)) 0 bs).foldl (fun r x => r.setPair x.1 (mmaFloatCell fp64 rm a x.2 (r.pair x.1))) r
  | .int => (lmapIdx (fun j b => (j, b)) 0 bs).foldl (fun r x =>
      let c := mmaIntCell a x.2 (sextN (r.cell x.1) 56, r.sat)
      { r.setCell x.1 (wrapInt c.1 56) with sat := c.2 }) r
  | _ => (lmapIdx (fun j b => (j, b)) 0 bs).foldl (fun r x =>
      let c := if rs && !z then roundN a56 rm (mulFV (decodeF a56 (r.cell x.1)) (decodeF fp32 a.tag.toNat)).toX else r.cell x.1
      r.setCell x.1 (mmaFloatCell a56 rm a x.2 c)) r

/-- Why the entries an MMA has taken make it fault, or the mode of its pair (R217, R218). -/
def mmaPair (rs z : Bool) (as bs : List FifoEntry) (mode : TileMode) : Option TileMode :=
  match sharedFmt as, sharedFmt bs with
  | some fa, some fb => match pairMode fa fb with
    | none => none
    | some m =>
      if as.any (·.smxu) = true ∧ fmtHalves fa ≠ fmtHalves fb then none
      else if rs = true ∧ as.any (fun e => !e.smxu) = true then none
      else if z = false ∧ mode ≠ .empty ∧ mode ≠ m then none
      else some m
  | _, _ => none

/-- The workgroup once n entries have left a FIFO. -/
def Workgroup.popFifo (w : Workgroup) (f n : Nat) : Workgroup :=
  { w with fifos := lmod w.fifos f (fun x => { x with entries := x.entries.drop n }) }

/-- The rows of an MMA that depends on an unfenced write are undefined (R214). -/
def State.mmaApply (s : State) (core wg : Nat) (o : TileOp) (rm : Nat) (rs z : Bool) (as bs : List FifoEntry) (m : TileMode) : State :=
  let rows := maskList o.mask
  if o.unfenced then
    let r := freeRows s rows
    r.2.modWg core wg (fun w => (w.modTile o.tile (fun t =>
      { t.putRows (r.1.map (fun x => (x.1, { x.2 with m := (t.row x.1).m, l := (t.row x.1).l }))) with mode := m })).opDone o)
  else
    s.modWg core wg (fun w => (w.modTile o.tile (fun t =>
      { (lmapIdx (fun k l => (k, l)) 0 rows).foldl (fun t x => match as[x.1]? with
          | none => t
          | some a => t.modRow x.2 (mmaRow m rm rs z a bs)) t with mode := m })).opDone o)

/-- A row that an operation consumes is damaged (R517): its cells, or with `side` also its side registers. (DEDUCED, log entry 49.) -/
def Workgroup.rowsBad (w : Workgroup) (o : TileOp) (side : Bool) : Bool :=
  match w.tile o.tile with
  | none => false
  | some t => (maskList o.mask).any (fun l => (t.row l).badCells || (side && (t.row l).badSide))

/-- An MMA takes its entries and is applied, or faults with them consumed (R218). -/
def State.mmaRun (s : State) (core wg : Nat) (w : Workgroup) (o : TileOp) (fa fb rm : Nat) (rs z : Bool) : State :=
  let n := (maskList o.mask).length
  let as := (w.fifo fa).entries.take n
  let nB := match as with
    | [] => 0
    | e :: _ => mmaCols e
  let w1 := w.popFifo fa n
  let bs := (w1.fifo fb).entries.take nB
  let mode := match w.tile o.tile with
    | none => .empty
    | some t => t.mode
  let s := s.modWg core wg (fun w => (w.popFifo fa n).popFifo fb nB)
  if as.any (·.bad) || bs.any (·.bad) || (!z && w.rowsBad o false) then s.modWg core wg (fun w => w.opFault o .memUe)
  else match mmaPair rs z as bs mode with
  | none => s.modWg core wg (fun w => w.opFault o .matFormat)
  | some m => s.mmaApply core wg o rm rs z as bs m

/-! ## AZERO and SMXU -/

/-- AZERO executes (R222). -/
def Workgroup.azero (w : Workgroup) (o : TileOp) : Workgroup :=
  (w.modTile o.tile (fun t => { t.putRows ((maskList o.mask).map (fun l => (l, TileRow.zero))) with mode := .empty })).opDone o

/-- The greater of two FP32 encodings; NaN if either is (R225). (DEDUCED, log entry 27.) -/
def smxMax (a b : Nat) : Nat :=
  if (decodeF fp32 a).isNan || (decodeF fp32 b).isNan then qnan fp32 else fminBits fp32 true a b

/-- exp2 of a difference a − b of FP32 values, rounded (R118, R225). (DEDUCED, log entry 27.) -/
def smxExp (a b : FV) : Nat :=
  roundN fp32 1 (match addFV 1 a (negFV b) with
    | .nan => .nan
    | .inf true => .val false 0 0 false
    | .inf false => .inf false
    | .val n m e _ => exp2X n m e)

/-- What SMXU makes of a row: its new side registers, its rescale factor r and e[0..15] (R225). -/
def smxRow (n : Nat) (sigma : W32) (r : TileRow) : TileRow × W32 × List Nat :=
  let sg := decodeF fp32 sigma.toNat
  let t := (upto 0 n).map (fun c => roundN fp32 1 (mulFV (decodeF a56 (r.cell c)) sg).toX)
  let mn := t.foldl smxMax (if (decodeF fp32 r.m.toNat).isNan then qnan fp32 else r.m.toNat)
  let e := if mn = infOf fp32 true then List.replicate 16 0
    else if mn = qnan fp32 then List.replicate 16 (qnan fp32)
    else (upto 0 16).map (fun c => if c < n then smxExp (decodeF fp32 (t.getD c 0)) (decodeF fp32 mn) else 0)
  let k := if mn = infOf fp32 true then 0x3F800000 else smxExp (decodeF fp32 r.m.toNat) (decodeF fp32 mn)
  let l := roundN a56 1 (sumFV (mulFV (decodeF a56 r.l.toNat) (decodeF fp32 k) :: e.map (decodeF fp32))).toX
  ({ r with m := BitVec.ofNat 32 mn, l := BitVec.ofNat 56 l }, BitVec.ofNat 32 k, e)

/-- The format code and the floating-point format of P (R210, R207). -/
def smxFmt (p : Nat) : Nat × Fmt := if p = 0 then (3, bf16) else if p = 1 then (2, fp16) else if p = 2 then (4, e4m3) else (5, e5m2)

/-- The entry an SMXU pushes for a row (R225). -/
def smxEntry (p : Nat) (k : W32) (e : List Nat) : FifoEntry :=
  let F := smxFmt p
  let data := (lmapIdx (fun c x => roundN F.2 1 (decodeF fp32 x).toX * 2 ^ (F.2.bits * c)) 0 e).sum
  { data := BitVec.ofNat 2048 data, side := if F.2.bits = 8 then BitVec.ofNat 64 0x7F7F7F7F7F7F7F7F else 0, tag := k, fmt := F.1, smxu := true,
    bad := false }

/-- Free values for a row of an SMXU that depends on an unfenced write: m, l, the factor and the probabilities (R214). -/
def smxFree (s : State) (p : Nat) (r : TileRow) : (TileRow × FifoEntry) × State :=
  let d := s.drawList (upto 0 19)
  let bit := fun (k : Nat) => (d.1.getD k (0, 0)).2
  let e := smxEntry p ((bit 16).setWidth 32) []
  let data := ((upto 0 16).map (fun c => (bit c).toNat % 2 ^ (smxFmt p).2.bits * 2 ^ ((smxFmt p).2.bits * c))).sum
  (({ r with m := (bit 17).setWidth 32, l := (bit 18).setWidth 56 }, { e with data := BitVec.ofNat 2048 data }), d.2)

/-- One row of an SMXU in the machine. -/
def State.smxStep (s : State) (core wg : Nat) (o : TileOp) (f v p : Nat) (sigma : W32) (dirty : Bool) (l : Nat) : State :=
  match s.wg core wg with
  | none => s
  | some w => match w.tile o.tile with
    | none => s
    | some t =>
      let put := fun (s : State) (r : TileRow) (e : FifoEntry) => s.modWg core wg (fun w =>
        { w.modTile o.tile (fun t => t.modRow l (fun _ => r)) with fifos := lmod w.fifos f (fun x => { x with entries := x.entries ++ [e] }) })
      if dirty then
        let x := smxFree s p (t.row l)
        put x.2 x.1.1 x.1.2
      else
        let lim := match w.group o.grp with
          | none => 0
          | some g => g.readN v l % 2 ^ 32
        let x := smxRow (min lim 16) sigma (t.row l)
        put s x.1 (smxEntry p x.2.1 x.2.2)

/-- SMXU executes (R225). -/
def State.smxRun (s : State) (core wg : Nat) (w : Workgroup) (o : TileOp) (f v p : Nat) (sigma : W32) : State :=
  let bad := match w.tile o.tile with
    | none => true
    | some t => decide (t.mode ≠ TileMode.empty ∧ t.mode ≠ TileMode.float)
  if bad then s.modWg core wg (fun w => w.opFault o .matFormat)
  else if w.rowsBad o true then s.modWg core wg (fun w => w.opFault o .memUe)
  else
    let s := (maskList o.mask).foldl (fun (s : State) l => s.smxStep core wg o f v p sigma (w.opDirty o) l) s
    s.modWg core wg (fun w => w.opDone o)

/-! ## The events -/

/-- A tile operation of a workgroup executes when it can (R212, R203, R204). -/
def tileEvent (core wg id : Nat) (s : State) (run : Workgroup → TileOp → Option State) : Host.Outcome State Fault Refusal :=
  match s.wg core wg with
  | none => .next s
  | some w => match w.ops.find? (fun o => o.id = id) with
    | none => .next s
    | some o => match w.opReady o with
      | .wait => .next s
      | .stuck => .next (s.modWg core wg (fun w => w.opFault o .matFifo))
      | .go => match run w { o with unfenced := w.opDirty o } with
        | none => .next s
        | some t => .next (t.chargeUnit core wg)

/-- MMA_EXECUTE (R218). -/
def execMmaExecute (core wg id : Nat) (s : State) : Host.Outcome State Fault Refusal :=
  tileEvent core wg id s (fun w o => match o.work with
    | .mma fa fb rm rs z => some (s.mmaRun core wg w o fa fb rm rs z)
    | _ => none)

/-- AZERO_EXECUTE (R222). -/
def execAzeroExecute (core wg id : Nat) (s : State) : Host.Outcome State Fault Refusal :=
  tileEvent core wg id s (fun _ o => match o.work with
    | .azero => some (s.modWg core wg (fun w => w.azero o))
    | _ => none)

/-- SMXU_EXECUTE (R225). -/
def execSmxuExecute (core wg id : Nat) (s : State) : Host.Outcome State Fault Refusal :=
  tileEvent core wg id s (fun w o => match o.work with
    | .smxu f v p sigma => some (s.smxRun core wg w o f v p sigma)
    | _ => none)

end Sys2Proof.Machine
end

