-- ==== Sys2Proof/Machine/Coherence.lean ====
section
/-!
DEFINITION. Events of the directory, the cluster TLBs and the cluster atomic units (R297, R325 to R332, R350 to R353). A core's own accesses
apply their transitions at once (`dirGetS`, `dirGetM`); these events are the same transitions as separate messages, with what each waits for.
-/
namespace Sys2Proof.Machine

/-! ## Directory transitions -/

/-- The line of a physical address. -/
def lineOf (pa : Nat) : Nat := pa / 128

/-- What a request waits for as it starts (R350, R352): the fill of a line that is absent from its slice, the owner it is forwarded to, the
sharers it invalidates. -/
def State.startTrans (s : State) (k line : Nat) (getm : Bool) : Transition :=
  let e := s.dirOf line
  let owned := decide (e.state = .e ∨ e.state = .m ∨ e.state = .o)
  { cluster := k, line := line, getm := getm, fill := (tget s.pkg.dir line).isNone,
    owner := if owned && decide (e.owner ≠ k) then some e.owner else none,
    acks := if getm then e.sharers &&& ~~~(oneSharer k) &&& ~~~(if owned then oneSharer e.owner else 0) else 0 }

/-- A transition waits for nothing more. -/
def Transition.done (t : Transition) : Bool := !t.fill && t.owner.isNone && decide (t.acks = 0)

/-- A list with its first transition of a line replaced. -/
def putTrans (t : Transition) : List Transition → List Transition
  | [] => []
  | u :: r => if u.line = t.line then t :: r else u :: putTrans t r

/-- The transition at the head of a line's list, where it waits for nothing, is applied, and the next one starts; n are left (R352). -/
def State.runTrans (s : State) (line : Nat) : Nat → State
  | 0 => s
  | n + 1 => match s.transOf line with
    | none => s
    | some t =>
      if t.done then
        let s := (s.modPkg (fun p => { p with trans := popTrans line p.trans })).applyTrans t
        let s := match s.transOf line with
          | none => s
          | some u => s.modPkg (fun p => { p with trans := putTrans (s.startTrans u.cluster line u.getm) p.trans })
        s.runTrans line n
      else s

/-- A request reaches the directory: it queues behind a transition of its line, or starts (R352). -/
def State.request (s : State) (k line : Nat) (getm : Bool) : State :=
  let t := s.startTrans k line getm
  (s.modPkg (fun p => { p with trans := p.trans ++ [t] })).runTrans line (s.pkg.trans.length + 1)

/-- Something that the transition under way on a line waits for has come. -/
def State.advanceTrans (s : State) (line : Nat) (f : Transition → Transition) : State :=
  match s.transOf line with
  | none => s
  | some t => (s.modPkg (fun p => { p with trans := putTrans (f t) p.trans })).runTrans line s.pkg.trans.length

/-- A request of a cluster for a line of this package's directory. -/
def dirEvent (cluster pa : Nat) (s : State) (f : State → State) : Host.Outcome State Fault Refusal :=
  if 96 ≤ cluster ∨ s.directed pa = false then .next s else .next (f s)

/-- GETS (R352). (DESIGN CHOICE, log entry 45.) -/
def execGets (cluster pa : Nat) (s : State) : Host.Outcome State Fault Refusal :=
  dirEvent cluster pa s (fun s => s.request cluster (lineOf pa) false)

/-- GETM (R352). (DESIGN CHOICE, log entry 45.) -/
def execGetm (cluster pa : Nat) (s : State) : Host.Outcome State Fault Refusal :=
  dirEvent cluster pa s (fun s => s.request cluster (lineOf pa) true)

/-- PUT (R352): the cluster's copies go, with the bytes modified in them; one that crosses a forward sent to the same holder is discarded. -/
def execPut (cluster pa : Nat) (s : State) : Host.Outcome State Fault Refusal :=
  dirEvent cluster pa s (fun s =>
    let crosses := match s.transOf (lineOf pa) with
      | none => false
      | some t => decide (t.owner = some cluster)
    if crosses then s else (s.dropLine cluster (lineOf pa)).dirPut cluster (lineOf pa) (s.dirtyIn cluster (lineOf pa)))

/-- PROMOTION_DEMAND (R297, R352): as GetS; the stores that the owner is to drain have been performed at their acceptance (log entry 6). -/
def execPromotionDemand (cluster pa : Nat) (s : State) : Host.Outcome State Fault Refusal :=
  dirEvent cluster pa s (fun s => s.request cluster (lineOf pa) false)

/-- FORWARD: the owner supplies the line, or acknowledges a line it no longer holds (R352). -/
def execForward (cluster pa : Nat) (s : State) : Host.Outcome State Fault Refusal :=
  dirEvent cluster pa s (fun s => s.advanceTrans (lineOf pa) (fun t => if t.owner = some cluster then { t with owner := none } else t))

/-- MEMORY_FILL_RETURN: the line is present in its home slice (R353). -/
def execMemoryFillReturn (pa : Nat) (s : State) : Host.Outcome State Fault Refusal :=
  if s.directed pa = false then .next s
  else .next ((s.l2Fill (lineOf pa)).advanceTrans (lineOf pa) (fun t => { t with fill := false }))

/-- INVALIDATION_ACKNOWLEDGEMENT: a cluster has given up its copies (R352, R353). -/
def execInvalidationAcknowledgement (cluster pa : Nat) (s : State) : Host.Outcome State Fault Refusal :=
  dirEvent cluster pa s (fun s =>
    let asked := match s.transOf (lineOf pa) with
      | none => false
      | some t => decide (t.acks &&& oneSharer cluster ≠ 0)
    if asked then
      (((s.markDirty (lineOf pa) (s.dirtyIn cluster (lineOf pa))).dropLine cluster (lineOf pa)).modDir (lineOf pa) (fun e =>
        { e with sharers := e.sharers &&& ~~~(oneSharer cluster) })).advanceTrans (lineOf pa) (fun t =>
          { t with acks := t.acks &&& ~~~(oneSharer cluster) })
    else s)

/-- L2_EVICTION (R350): not of a line whose transition is under way. -/
def execL2Eviction (pa : Nat) (s : State) : Host.Outcome State Fault Refusal :=
  if s.directed pa = false then .next s
  else if (s.transOf (lineOf pa)).isSome then .next s else .next (s.evictLine (lineOf pa))

/-! ## TLB -/

/-- TLB_WALK_FILL (R325, R329): a fill whose generation is not the cluster's is dropped, and its access walks again: that walk's fill comes with
the next cycle. -/
def execTlbWalkFill (cluster asid va gen : Nat) (s : State) : Host.Outcome State Fault Refusal :=
  if 96 ≤ cluster then .next s
  else if BitVec.ofNat 16 gen ≠ (s.cluster cluster).walkGen then
    .next { s with inbox := s.inbox ++ [.tlbWalkFill cluster asid va (s.cluster cluster).walkGen.toNat] }
  else match s.walk asid va with
    | .error _ => .next s
    | .ok e => if (s.tlbHit cluster asid va).isSome then .next s else .next (s.modCluster cluster (fun k => k.fillTlb e))

/-- TLB_INVALIDATION: an invalidation by TLBINV, firmware or the host reaches a cluster (R328, R329), which acknowledges it when no access that it
matches is in flight: until then the invalidation waits, one cycle at a time. (DESIGN CHOICE, log entry 16.) -/
def execTlbInvalidation (cluster kind asid va : Nat) (s : State) : Host.Outcome State Fault Refusal :=
  if 96 ≤ cluster ∨ 3 ≤ kind then .next s
  else if s.invPending [cluster] kind asid va then .next { s with inbox := s.inbox ++ [.tlbInvalidation cluster kind asid va] }
  else .next (s.invalidate cluster kind asid va)

/-! ## The cluster atomic unit -/

/-- The virtual address of a lane of an operation. -/
def AtomReq.va (r : AtomReq) (l : Nat) : Nat := ((r.addrs.find? (fun (x : Nat × W64) => decide (x.1 = l))).map (fun (x : Nat × W64) => x.2)).getD 0 |>.toNat

/-- A lane's operation at the unit: its old value, or none where its data cannot be returned (R287, R290). -/
def State.unitLane (s : State) (k : Nat) (r : AtomReq) (x : Nat × Nat × W64 × W64) : Option Nat × State :=
  let n := if r.w64 then 8 else 4
  let pa := x.2.1
  if s.unreadable pa n then (none, s)
  else
    let s := s.unitLine k r.asid (r.va x.1) pa n
    let o := s.readPhys pa n
    (some o, s.writePhys pa (leBytes n (atomNew r.aop (8 * n) o (x.2.2.1.toNat % 256 ^ n) (x.2.2.2.toNat % 256 ^ n))))

/-- The lanes of an operation, ascending, as one atomic operation (R291, R331). -/
def State.unitLanes (s : State) (k : Nat) (r : AtomReq) : List (Nat × Nat × W64 × W64) → List (Nat × Option Nat) × State
  | [] => ([], s)
  | x :: t =>
    let a := s.unitLane k r x
    let q := a.2.unitLanes k r t
    ((x.1, a.1) :: q.1, q.2)

/-- A group when the unit answers: the old values of the lanes, and the write is no longer outstanding (R31, R287). -/
def Group.unitAnswer (g : Group) (r : AtomReq) (vs : List (Nat × Option Nat)) : Group :=
  let g := { g with pend := g.pend.filter (fun p => decide (p.id ≠ r.id)) }
  match r.dv with
  | none => g.settle
  | some d =>
    let ok : List (Nat × Elem) := vs.filterMap (fun v => v.2.map (fun o => (v.1, elemN o)))
    let bad := (vs.filter (fun v => v.2.isNone)).map (·.1)
    g.land d r.id (pointShape (if r.w64 then 64 else 32)) ok (bad.map (fun l => (l, BitVec.ofNat 64 (r.va l))))

/-- CLUSTER_ATOMIC: the unit applies the operation that reached it first (R331, R332). -/
def execClusterAtomic (cluster : Nat) (s : State) : Host.Outcome State Fault Refusal :=
  if 96 ≤ cluster then .next s
  else match (s.cluster cluster).atomReqs with
    | [] => .next s
    | r :: t =>
      let s := s.modCluster cluster (fun k => { k with atomReqs := t })
      let q := s.unitLanes cluster r r.lanes
      match s.wg r.who.core r.who.wg with
      | none => .next q.2
      | some w => if w.uid = r.who.uid then .next (q.2.modGroup r.who.core r.who.wg r.who.grp (fun g => g.unitAnswer r q.1)) else .next q.2

end Sys2Proof.Machine
end

