-- ==== Sys2Proof/Machine/Network.lean ====
section
/-!
DEFINITION. The divisible array (R355 to R359), the gating of routers and the failures of links (R361, R362, R366 to R368).
-/
namespace Sys2Proof.Machine

/-! ## The divisible array -/

/-- Ways that a context holds or has asked for, while a resize of it waits or runs. -/
def Split.claimed (x : Split) : Nat := if x.busy then max x.ways.toNat x.request.toNat else x.ways.toNat

/-- First byte of the window that a shrink to n ways would remove (R357). -/
def windowEnd (d c n : Nat) : Nat := sliceBase d c + n * 0x2000000

/-- A visibility tile in any state but FREE lies in the bytes of a context's window from `lo` on (R359, R446). -/
def State.tileBeyond (s : State) (d c lo : Nat) : Bool :=
  (s.die d).tiles.any (fun t => decide (t.2.state ≠ .free) && (match tget (s.die d).passes t.2.pass with
    | none => false
    | some p => decide (p.part = c) && decide (lo < p.tileBase d t.1 + passTileBytes p.desc)))

/-- A resize is refused (R359). -/
def State.resizeRefused (s : State) (d c n : Nat) : Bool :=
  let others := ((upto 0 8).filter (fun k => decide (k ≠ c))).map (fun k => (s.splitOf d k).claimed)
  (s.splitOf d c).busy || decide (12 < n) || decide (12 < others.sum + n) ||
  (decide (n < (s.splitOf d c).ways.toNat) && s.tileBeyond d c (windowEnd d c n))

/-- A write of a split register (R356, R359). -/
def State.writeSplit (s : State) (d c value : Nat) : State :=
  let x := s.splitOf d c
  let n := value % 16
  let clear := value / 2 ^ 30 % 2 = 1
  let refused := x.refused && !decide clear
  let put := fun (y : Split) (rs : List Nat) => s.modDie d (fun k => { k with split := tset k.split c y, resizes := k.resizes ++ rs })
  if n = x.ways.toNat then (if x.busy then put { x with refused := refused } [] else put { x with request := BitVec.ofNat 4 n, refused := refused } [])
  else if s.resizeRefused d c n then put { x with refused := true } []
  else put { x with request := BitVec.ofNat 4 n, refused := refused, busy := true } [c]

/-- SPLIT_REGISTER_WRITE (R359). -/
def execSplitRegisterWrite (die ctx value : Nat) (s : State) : Host.Outcome State Fault Refusal :=
  if 4 ≤ die ∨ 8 ≤ ctx then .next s else .next (s.writeSplit die ctx value)

/-- Bytes [lo, hi) of slice scratch are zero, and none of its words is poisoned (R359). -/
def State.zeroFill (s : State) (lo hi : Nat) : State :=
  let s := { s with mem := s.mem.filter (fun c => decide (c.1 < lo ∨ hi ≤ c.1)) }
  s.modPkg (fun p => { p with poisoned := p.poisoned.filter (fun w => decide (8 * w < lo ∨ hi ≤ 8 * w)) })

/-- Empty the ways that pass to scratch (R359), those from `left` on: every line in them goes, one whose transition is under way after it.
(DESIGN CHOICE, log entry 43.) -/
def State.emptyWays (s : State) (d left : Nat) : State :=
  ((s.pkg.dir.filter (fun x => decide (left ≤ x.2.way))).map (·.1)).foldl (fun s line =>
    if s.homeDie (128 * line) = d then (s.drainTrans line s.pkg.trans.length).evictLine line else s) s

/-- The resize of a context ends (R359). (DESIGN CHOICE, log entry 43.) -/
def State.finishResize (s : State) (d c : Nat) : State :=
  let x := s.splitOf d c
  let s := if x.ways.toNat < x.request.toNat then
      (s.emptyWays d (s.l2Ways d - (x.request.toNat - x.ways.toNat))).zeroFill (windowEnd d c x.ways.toNat) (windowEnd d c x.request.toNat)
    else s
  s.modDie d (fun k => { k with split := tset k.split c { x with ways := x.request, busy := false },
                                resizes := k.resizes.filter (fun y => decide (y ≠ c)) })

/-- RESIZE_COMPLETE: the resize under way on a die, that of the context, ends (R359). -/
def execResizeComplete (die ctx : Nat) (s : State) : Host.Outcome State Fault Refusal :=
  if 4 ≤ die ∨ 8 ≤ ctx then .next s
  else if (s.die die).resizes.head? = some ctx then .next (s.finishResize die ctx) else .next s

/-! ## Routers -/

/-- A unit other than a cluster is attached to a router (R362): raster units, front end, Separator, attribute engine, Churn taps. -/
def routerAttached (r : Nat) : Bool := decide (r % 4 = 3 ∨ r = 1 ∨ r = 9 ∨ r = 13 ∨ r = 6 ∨ r = 18)

/-- An event at a router of a die; of another it changes nothing. (DEDUCED, log entry 91.) -/
def routerEvent (die router : Nat) (s : State) (f : Router → Router) : Host.Outcome State Fault Refusal :=
  if 4 ≤ die ∨ 24 ≤ router then .next s else .next (s.setRouter die router (f ((s.die die).router router)))

/-- ROUTER_IDLE_GATE: a router that may gate and that no flit has reached for 2,048 cycles, so that its buffers are empty, begins its 8 cycles of
gating (R366, R367). (DESIGN CHOICE, log entry 69.) -/
def execRouterIdleGate (die router : Nat) (s : State) : Host.Outcome State Fault Refusal :=
  routerEvent die router s (fun x =>
    if routerAttached router = false ∧ x.state = .on ∧ x.last + 2048 ≤ s.cycle ∧ (s.die die).forbid.getLsbD router = false then
      { x with state := .gating, till := s.cycle + 8 }
    else x)

/-- ROUTER_GATING_COMPLETE (R366). -/
def execRouterGatingComplete (die router : Nat) (s : State) : Host.Outcome State Fault Refusal :=
  routerEvent die router s (fun x => if x.state = .gating ∧ x.till ≤ s.cycle then { x with state := .gated } else x)

/-- A wake line is raised (R366): a gated router wakes in 40 cycles; a gating one abandons its sequence and stays on. -/
def Router.wake (x : Router) (now : Nat) : Router :=
  match x.state with
  | .gated => { x with state := .waking, till := now + 40 }
  | .gating => { x with state := .on, last := now }
  | _ => x

/-- ROUTER_WAKE (R366). (DESIGN CHOICE, log entry 69.) -/
def execRouterWake (die router : Nat) (s : State) : Host.Outcome State Fault Refusal :=
  routerEvent die router s (fun x => x.wake s.cycle)

/-- ROUTER_WAKE_COMPLETE: off drops (R366). -/
def execRouterWakeComplete (die router : Nat) (s : State) : Host.Outcome State Fault Refusal :=
  routerEvent die router s (fun x => if x.state = .waking ∧ x.till ≤ s.cycle then { x with state := .on, last := s.cycle } else x)

/-- A write of the router gating register (R367): forbidden routers that are gated or gating wake. -/
def State.writeGating (s : State) (d value : Nat) : State :=
  let f := BitVec.ofNat 24 value
  let s := s.modDie d (fun k => { k with forbid := f })
  (upto 0 24).foldl (fun s r =>
    let x := (s.die d).router r
    if f.getLsbD r = true ∧ x.state ≠ .on ∧ x.state ≠ .waking then s.setRouter d r (x.wake s.cycle) else s) s

/-- ROUTER_GATING_WRITE (R367). -/
def execRouterGatingWrite (die value : Nat) (s : State) : Host.Outcome State Fault Refusal :=
  if 4 ≤ die then .next s else .next (s.writeGating die value)

/-- Links of a die's network (R361): six within each quadrant, fifteen between quadrants. -/
def linkCount : Nat := 51

/-- Value of a link that is out of service. -/
def linkOut : Nat := 17

/-- A corrupted flit's retry on a link succeeds or fails (R368): the sixteenth failure in a row takes the link out of service. -/
def State.linkRetry (s : State) (d link : Nat) (ok : Bool) : State :=
  let n := tgetD (s.die d).linkRetries link 0
  let put := fun (s : State) (v : Nat) => s.modDie d (fun k => { k with linkRetries := tset k.linkRetries link v })
  if n = linkOut then s
  else if ok then put (s.count 6 (sourceOf d 0xFFF)) 0
  else if 15 ≤ n then (put s linkOut).firmwareCause 3
  else put s (n + 1)

/-- LINK_FLIT_RETRY (R368). -/
def execLinkFlitRetry (die link ok : Nat) (s : State) : Host.Outcome State Fault Refusal :=
  if 4 ≤ die ∨ linkCount ≤ link then .next s else .next (s.linkRetry die link (decide (ok = 1)))

end Sys2Proof.Machine
end

