-- ==== Sys2Proof/Machine/Errors.lean ====
section
/-!
DEFINITION. Soft errors, corrected and uncorrectable (R287, R345, R368, R369, R435, R515, R517), and scrubbing (R515).
-/
namespace Sys2Proof.Machine

/-! ## Where errors strike -/

/-- Lanes of a granule of a register in a group of width w: granule `gran` counts row 0 first (R58). -/
def granuleLanes (w gran : Nat) : List Nat := if w < 8 then [] else upto (gran % (w / 8) * 8) 8

/-- A damaged register granule (R517): a later read in its lanes raises MEM_UE with the register's number. -/
def Group.damage (g : Group) (reg gran : Nat) : Group :=
  if (tget g.regs reg).isNone then g
  else { g with failed := g.failed ++
    [⟨.v reg, (granuleLanes g.width gran).map (fun l => (l, BitVec.ofNat 64 reg)), 0, true⟩] }

/-- A damaged FIFO entry (R517). -/
def Fifo.damage (f : Fifo) (k : Nat) : Fifo := { f with entries := lmod f.entries k (fun e => { e with bad := true }) }

/-- A damaged tile row (R517): its contents are undefined, and a tile operation that consumes them faults. (DEDUCED, log entry 49.) -/
def State.damageRow (s : State) (core wg tile row : Nat) : State :=
  let r := freeRow s
  r.2.modWg core wg (fun w => w.modTile tile (fun t => t.modRow row (fun _ => { r.1 with badCells := true, badSide := true })))

/-- A line of the L2 cannot be corrected (R368, R369): a clean one is dropped and fetched again; one that is dirty is lost, unless a cluster
holds it dirty. (DEDUCED, log entry 77.) -/
def State.damageLine (s : State) (line : Nat) : State :=
  let e := s.dirOf line
  if (sharerList e.sharers).any (fun k => s.ownerModified k line) then s
  else if e.dirty = 0 then s.evictLine line
  else (s.evictLine line).loseLine line

/-- A line held in a cluster is lost with its copy (R345, R369). (DEDUCED, log entry 77.) -/
def State.loseIn (s : State) (k line : Nat) : State :=
  let dirty := s.ownerModified k line
  let s := (s.dropLine k line).gaveUp k line 0
  if dirty then s.loseLine line else s

/-- The control state of a core is damaged (R517): firmware aborts its workgroups with cause 0x0B. -/
def State.coreDamaged (s : State) (core : Nat) : State :=
  let s := s.firmwareCause 4
  ((s.core core).wgs.map (·.1)).foldl (fun s w => s.abortWg core w 0x0B) s

/-- An uncorrectable error at a site; none where there is no such site (R345, R368, R435, R517). -/
def State.uncorrectable (s : State) : ErrSite → Option State
  | .line line memory =>
    if s.directed (128 * line) = false then none else some (if memory then s.loseLine line else s.damageLine line)
  | .l2Tags d k => if 4 ≤ d ∨ 64 ≤ k then none else some ((s.modDie d (fun x => { x with deadSlices := k :: x.deadSlices })).firmwareCause 2)
  | .l2OneTag d k => if 4 ≤ d ∨ 64 ≤ k then none else some (s.count 6 (sliceSource d k))
  | .sliceScratch pa =>
    if (s.slicePlace pa).isSome then some (s.modPkg (fun p => { p with poisoned := (pa / 8) :: p.poisoned.filter (fun w => decide (w ≠ pa / 8)) }))
    else none
  | .granule core wg grp reg gran => if (s.group core wg grp).isNone then none else some (s.modGroup core wg grp (fun g => g.damage reg gran))
  | .fifoEntry core wg fifo place =>
    if (s.wg core wg).isNone then none else some (s.modWg core wg (fun w => { w with fifos := lmod w.fifos fifo (fun f => f.damage place) }))
  | .tileRow core wg tile row => if (s.wg core wg).isNone then none else some (s.damageRow core wg tile row)
  | .instrBytes core => if 384 ≤ core then none else some (s.count 6 (coreSource core))
  | .churnSlot d n => match tget (s.die d).slots n with
    | none => none
    | some x => some (s.modDie d (fun k => { k with slots := tset k.slots n { x with poison := true } }))
  | .coreControl core => if 384 ≤ core then none else some (s.coreDamaged core)
  | .tlbEntry k n => if 96 ≤ k then none else some ((s.modCluster k (fun c => { c with tlb := c.tlb.eraseIdx n })).count 6 (clusterSource k))
  | .reverseMap k line good => if 96 ≤ k then none else if good then some (s.count 6 (clusterSource k)) else some (s.loseIn k line)
  | .atomLine k line => if 96 ≤ k ∨ s.buffered k line = false then none else some (s.loseIn k line)
  | .clusterState k => if 96 ≤ k then none else some (s.count 6 (clusterSource k))
  | .flash n => some (s.modPkg (fun p => { p with journal := p.journal.eraseIdx n }))

/-- UNCORRECTABLE_ERROR (R517). -/
def execUncorrectableError (site : ErrSite) (s : State) : Host.Outcome State Fault Refusal :=
  .next ((s.uncorrectable site).getD s)

/-- Lifetime counter of corrected errors of the memory bank that holds an address (R515): die, controller and bank. -/
def State.bankCounter (s : State) (pa : Nat) : Nat := s.homeDie pa * 0x140 + s.controller pa * 16 + Config.memoryBank (pa / 128) % 16

/-- An error of a memory device has been corrected: counted in telemetry and for its bank (R515, R517). -/
def State.corrected (s : State) (pa : Nat) : State :=
  (s.count 6 (sourceOf (s.homeDie pa) (0x400 + s.controller pa))).tally (s.bankCounter pa)

/-- The source number of the unit in which a soft error was corrected (R516). -/
def State.errSource (s : State) : ErrSite → Nat
  | .line line _ => sliceSource (s.homeDie (128 * line)) (homeSlice (128 * line))
  | .l2Tags d k | .l2OneTag d k => sliceSource d k
  | .sliceScratch pa => sliceSource ((s.slicePlace pa).getD (0, 0)).1 ((s.slicePlace pa).getD (0, 0)).2
  | .granule core _ _ _ _ | .fifoEntry core _ _ _ | .tileRow core _ _ _ | .instrBytes core | .coreControl core => coreSource core
  | .churnSlot d _ => sourceOf d 0x200
  | .tlbEntry k _ | .reverseMap k _ _ | .atomLine k _ | .clusterState k => clusterSource k
  | .flash _ => sourceOf 0 0xFFF

/-- CORRECTED_SOFT_ERROR: a telemetry count, of a memory device also its bank's; a TLB entry that suffered it is dropped (R345, R515, R517). -/
def execCorrectedSoftError (site : ErrSite) (s : State) : Host.Outcome State Fault Refusal :=
  let t := s.count 6 (s.errSource site)
  match site with
  | .tlbEntry k n => if 96 ≤ k then .next t else .next (t.modCluster k (fun c => { c with tlb := c.tlb.eraseIdx n }))
  | .line line true => .next (if s.isLocal (128 * line) then s.corrected (128 * line) else t)
  | _ => .next t

/-- SCRUB_READ of a line of a tier: clean (0), corrected and written back (1), or uncorrectable (2) (R515). -/
def execScrubRead (pa outcome : Nat) (s : State) : Host.Outcome State Fault Refusal :=
  if s.isLocal pa = false then .next s
  else if outcome = 0 then .next s
  else if outcome = 1 then .next (s.corrected pa)
  else if outcome = 2 then .next (s.loseLine (pa / 128))
  else .next s

end Sys2Proof.Machine
end

