-- ==== Sys2Proof/Machine/HostLink.lean ====
section
/-!
DEFINITION. Migration (R485 to R488), bias (R493, R494), host and PCI Express accesses (R492, R495 to R497, R499, R503), and answers to accesses
outside the package (R287, R498, R524).
-/
namespace Sys2Proof.Machine

/-! ## Migration -/

/-- Level and address of the leaf entry that a walk of a virtual address ends at (R480); n levels are left from level k, table t. -/
def State.leafFrom (s : State) (va : Nat) : Nat → Nat → Nat → Option (Nat × Nat)
  | 0, _, _ => none
  | n + 1, k, t =>
    let a := t + 8 * vaIndex va k
    let p := s.readPhys a 8
    if s.unreadable a 8 = true ∨ pteV p = false ∨ s.pteMalformed p k = true then none
    else if pteL p then some (k, a)
    else s.leafFrom va n (k + 1) (pteAddr p)

/-- Level and address of the leaf entry of an ASID's virtual address. -/
def State.leafAt (s : State) (asid va : Nat) : Option (Nat × Nat) :=
  let a := s.pkg.regs.asidbase + 16 * asid
  let e := s.readPhys a 8
  let root := e / 65536 % 2 ^ 36 * 65536
  if s.unreadable a 8 = true ∨ e / 2 ^ 63 % 2 = 0 ∨ s.isLocal root = false then none else s.leafFrom va 3 1 root

/-- A page of 64 KiB lies in the populated first or second tier. -/
def State.localPage (s : State) (pa : Nat) : Bool := decide (pa % 65536 = 0) && s.isLocal pa && s.isLocal (pa + 65535)

/-- A word of a page is boarded (R354). -/
def State.pageBoarded (s : State) (pa : Nat) : Bool := s.pkg.boarded.any (fun b => decide (8 * b.word / 65536 = pa / 65536))

/-- The code that ends a request before any effect (R486), none when it starts. -/
def State.migrationCode (s : State) : Option Nat :=
  let g := s.pkg.regs
  let va := g.vpn * 65536
  let p := s.readPhys g.pte 8
  if g.busy then some 5
  else if s.leafAt g.asid va ≠ some (3, g.pte) ∨ pteN p = true then some 1
  else
    let src := pteAddr p
    let host := match s.region src with
      | .host => true
      | _ => false
    if attrType (pteAttr p) ≠ 0 ∨ (s.localPage src = false ∧ host = false) ∨ s.localPage g.dest = false then some 2
    else if s.pageBoarded src then some 3 else none

/-- Bit 62 of an entry, M (R481). -/
def pteSetM (p : Nat) (m : Bool) : Nat := p / 2 ^ 63 * 2 ^ 63 + (if m then 2 ^ 62 else 0) + p % 2 ^ 62

/-- A write of the migration command register (R485, R486). -/
def State.migrationCommand (s : State) (value : Nat) : State :=
  let s := if value / 2 ^ 62 % 2 = 1 then s.modPkg (fun p => { p with regs := { p.regs with error := false } }) else s
  if value % 2 = 0 then s
  else match s.migrationCode with
    | some c => s.modPkg (fun p => { p with regs := { p.regs with code := c, error := true } })
    | none =>
      let g := s.pkg.regs
      let e := s.readPhys g.pte 8
      let s := s.unitStore g.pte (leBytes 8 (pteSetM e true))
      s.modPkg (fun p => { p with
        regs := { p.regs with busy := true }
        migration := some { pte := g.pte, src := pteAddr e, dest := g.dest, asid := g.asid, va := g.vpn * 65536 } })

/-- MIGRATION_GO (R486). -/
def execMigrationGo (value : Nat) (s : State) : Host.Outcome State Fault Refusal := .next (s.migrationCommand value)

/-- Lines of a page. -/
def pageLines (pa : Nat) : List Nat := upto (pa / 128) 512

/-- A memory after the copy of a page (R487 step 3). -/
def copyPage (m : List Host.Cell) (src dest : Nat) : List Host.Cell :=
  let page := m.filter (fun c => decide (c.1 / 65536 = src / 65536))
  page.foldl (fun m c => memPut m (dest + c.1 % 65536) c.2) (m.filter (fun c => decide (c.1 / 65536 ≠ dest / 65536)))

/-- A line leaves its lost-line table. -/
def State.regainLine (s : State) (line : Nat) : State := s.storeLost (128 * line) 128

/-- Lost lines of the source are entered at the destination, and the destination's other lines have been written (R369, R486): the code. -/
def State.migrateLost (s : State) (src dest : Nat) : Nat × State :=
  let lost := (pageLines src).filter (fun l => s.isLost (128 * l))
  let s := (pageLines dest).foldl (fun s l => s.regainLine l) s
  (if lost = [] then 0 else 4, lost.foldl (fun s l => s.loseLine (l - src / 128 + dest / 128)) s)

/-- MIGRATION_COMPLETE: the lines freeze, are copied, the entry names the destination, and every cluster is invalidated (R487). It waits for
words of the page that are boarding. (DESIGN CHOICE, log entry 46.) -/
def execMigrationComplete (s : State) : Host.Outcome State Fault Refusal :=
  match s.pkg.migration with
  | none => .next s
  | some m =>
    if s.pageBoarded m.src then .next s
    else
      let s := (s.evictPage m.src).evictPage m.dest
      let s := { s with mem := copyPage s.mem m.src m.dest }
      let r := s.migrateLost m.src m.dest
      let e := r.2.readPhys m.pte 8
      let e := pteSetM (e - pteAddr e + m.dest) false
      let s := r.2.unitStore m.pte (leBytes 8 e)
      let s := (upto 0 96).foldl (fun s k => s.invalidate k 0 m.asid m.va) s
      .next (s.modPkg (fun p => { p with
        migration := none
        regs := { p.regs with busy := false, code := r.1, error := p.regs.error || decide (r.1 ≠ 0) } }))

/-! ## Bias -/

/-- A page of a die's first tier is populated (R474). -/
def biasPage (page : Nat) : Bool := decide (page * 65536 < tier1Size)

/-- A write of a bias flip register (R494). A refused write sets refused and stores nothing else, as a refused resize does (R359). (DESIGN
CHOICE, log entry 46.) -/
def State.writeBias (s : State) (d value : Nat) : State :=
  let b := (s.die d).bias
  let page := value % 2 ^ 21
  let target := decide (value / 2 ^ 61 % 2 = 1)
  let refused := b.refused && decide (value / 2 ^ 62 % 2 = 0)
  let put := fun (x : BiasReg) => s.modDie d (fun k => { k with bias := x })
  if b.busy = true ∨ biasPage page = false then put { b with refused := true }
  else
    let same := decide ((s.die d).hostBias.contains page = target)
    put { busy := !same, refused := refused, target := target, page := BitVec.ofNat 21 page }

/-- BIAS_FLIP (R494). -/
def execBiasFlip (die value : Nat) (s : State) : Host.Outcome State Fault Refusal :=
  if 4 ≤ die then .next s else .next (s.writeBias die value)

/-- BIAS_FLIP_COMPLETE (R494). (DESIGN CHOICE, log entry 46.) -/
def execBiasFlipComplete (die : Nat) (s : State) : Host.Outcome State Fault Refusal :=
  if 4 ≤ die then .next s else .next (s.endFlip die)

/-! ## Host accesses -/

/-- The physical address of a device address in the HDM ranges (R492). (DEDUCED, log entry 47.) -/
def hdm (x : Nat) : Option Nat :=
  if x < 4 * tier1Size then some (x / tier1Size * 0x2000000000 + x % tier1Size)
  else
    let y := x - 4 * tier1Size
    if y < 4 * tier2Size then some (0x100000000000 + y / tier2Size * 0x40000000000 + y % tier2Size) else none

/-- The physical address that a host request names: a device address of the HDM ranges, or an address of the host window, whose memory is the
host's own (R496). (DEDUCED, log entry 47.) -/
def hostAddr (x : Nat) : Option Nat := if 0x200000000000 ≤ x ∧ x < 0x400000000000 then some x else hdm x

/-- The ASID of an access that is no program's: no counted range has it (R490). -/
def noAsid : Nat := 65536

/-- A host access reaches a page: a first-tier page in device bias is flipped first (R493). -/
def State.hostTouch (s : State) (pa : Nat) : State :=
  let s := s.settleFlip pa
  match s.region pa with
  | .tier1 d =>
    let page := pa % 0x2000000000 / 65536
    if (s.die d).hostBias.contains page then s else s.flipBias d page true
  | _ => s

/-- The half of a line that a physical address lies in. -/
def halfOf (pa : Nat) : Nat := pa / 64 % 2

/-- The host takes a half shared or owned (R496): device copies are downgraded, or invalidated; a half shared that the host owns stays its own.
(DEDUCED, log entry 47.) -/
def State.hostHalf (s : State) (pa : Nat) (own : Bool) : State :=
  let line := pa / 128
  let s := s.reach line
  let s := if own then s.backInvalidate line else s.downgrade line
  let h := s.halves line
  if own then s.setHalf line (halfOf pa) .o
  else if (if halfOf pa = 0 then h.1 else h.2) = .o then s else s.setHalf line (halfOf pa) .s

/-- A host request waits for a slice that has stopped accepting requests (R368). -/
def hostWait (i : Instr) (pa : Nat) (s : State) (f : State → State) : State :=
  if s.stopped pa then { s with inbox := s.inbox ++ [i] } else f s

/-- A host request at an address. (DEDUCED, log entry 47.) -/
def hostEvent (i : Instr) (addr : Nat) (s : State) (f : Nat → State → State) : Host.Outcome State Fault Refusal :=
  match hostAddr addr with
  | none => .next s
  | some pa => .next (hostWait i pa s (f pa))

/-- HOST_READ_SHARED of a half (R492, R496). -/
def execHostReadShared (addr : Nat) (s : State) : Host.Outcome State Fault Refusal :=
  hostEvent (.hostReadShared addr) addr s (fun pa s => (s.hostTouch pa).hostHalf pa false)

/-- HOST_READ_OWNED of a half (R492, R496). -/
def execHostReadOwned (addr : Nat) (s : State) : Host.Outcome State Fault Refusal :=
  hostEvent (.hostReadOwned addr) addr s (fun pa s => (s.hostTouch pa).hostHalf pa true)

/-- Bytes of one line from outside the cores: every cached copy goes, and boarded words take nothing (R288, R354). -/
def State.linkWrite (s : State) (pa : Nat) (bs : List Byte) : State :=
  if s.directed pa then (s.takeHome (pa / 128) 0).homeBytes pa bs else s.writePhys pa bs

/-- Bytes from outside across lines, n lines at most. -/
def State.linkWrites (s : State) : Nat → Nat → List Byte → State
  | 0, _, _ => s
  | n + 1, pa, bs =>
    if bs = [] then s
    else
      let m := 128 - pa % 128
      (s.linkWrite pa (bs.take m)).linkWrites n (pa + m) (bs.drop m)

/-- HOST_WRITEBACK of a half that the host owns: its data enter the L2 line, dirty, and the half is given up (R496); of another half it has no
effect. -/
def execHostWriteback (addr : Nat) (data : List Byte) (s : State) : Host.Outcome State Fault Refusal :=
  hostEvent (.hostWriteback addr data) addr s (fun pa s =>
    let h := s.halves (pa / 128)
    let own := if halfOf pa = 0 then h.1 else h.2
    if own = .o ∧ data.length = 64 then ((s.reach (pa / 128)).setHalf (pa / 128) (halfOf pa) .i).homeBytes (pa / 64 * 64) data else s)

/-- HOST_SNOOP of a host-bias or host-window half (R493, R496): device copies are downgraded, or invalidated when the host takes it owned; the
host holds no half of other lines by CXL.cache, and a snoop of one has no effect. -/
def execHostSnoop (pa own : Nat) (s : State) : Host.Outcome State Fault Refusal :=
  let take := .next (hostWait (.hostSnoop pa own) pa s (fun s => s.hostHalf pa (decide (own = 1))))
  match s.region pa with
  | .tier1 d => if (s.die d).hostBias.contains (pa % 0x2000000000 / 65536) then take else .next s
  | .host => take
  | _ => .next s

/-- A write that arrives over the host link (R493, R499, R503). -/
def State.hostWrite (s : State) (pa : Nat) (data : List Byte) : State :=
  let last := pa + data.length - 1
  let s := s.hostTouch pa
  let s := if last / 65536 ≠ pa / 65536 then s.hostTouch last else s
  s.linkWrites (data.length / 128 + 2) pa data

/-- HOST_MEMORY_WRITE at an HDM address (R492, R493). -/
def execHostMemoryWrite (addr : Nat) (data : List Byte) (s : State) : Host.Outcome State Fault Refusal :=
  hostEvent (.hostMemoryWrite addr data) addr s (fun pa s => s.hostWrite pa data)

/-- PEER_POSTED_WRITE: a PCI Express peer's write at an HDM address, in posted order (R492, R499, R503). -/
def execPeerPostedWrite (addr : Nat) (data : List Byte) (s : State) : Host.Outcome State Fault Refusal :=
  hostEvent (.peerPostedWrite addr data) addr s (fun pa s => s.hostWrite pa data)

/-- PEER_READ: a peer's relaxed read at an HDM address; it is answered with no bytes where the data cannot be returned (R368, R369, R435, R503). -/
def execPeerRead (addr len : Nat) (s : State) : Host.Outcome State Fault Refusal :=
  hostEvent (.peerRead addr len) addr s (fun pa s =>
    let s := s.hostTouch pa
    let s := (upto (pa / 128) ((pa + len + 127) / 128 - pa / 128)).foldl (fun s l => s.sliceRead 96 noAsid 0 (128 * l)) s
    let bs := if (upto pa len).any s.isLost || s.badBytes pa len then [] else (upto pa len).map s.readByte
    s.modPkg (fun p => { p with peerReads := p.peerReads ++ [bs] }))

/-! ## Answers from outside -/

/-- MMIO_READ_COMPLETION with a status, 0 when successful (R498). -/
def execMmioReadCompletion (id status value : Nat) (s : State) : Host.Outcome State Fault Refusal :=
  match s.outsideOf id with
  | none => .next s
  | some o => .next (if o.package = 126 then s.answer o (if status = 0 then some value else none) else s)

/-- Cycles of the 10 ms completion timeout (R498). -/
def mmioTimeout : Nat := 19000000

/-- MMIO_READ_TIMEOUT (R498). -/
def execMmioReadTimeout (id : Nat) (s : State) : Host.Outcome State Fault Refusal :=
  match s.outsideOf id with
  | none => .next s
  | some o => .next (if o.package = 126 ∧ o.sent + mmioTimeout ≤ s.cycle then s.answer o none else s)

end Sys2Proof.Machine
end

