-- ==== Sys2Proof/Machine/Churn.lean ====
section
/-!
DEFINITION. The Churn: its ring (R415, R416), boarding (R419 to R423), alighting (R424), captures, peeks and waits (R425 to R429), the order
of its events (R431, R432), its faults (R434, R435), and the tails of bins (R450).
-/
namespace Sys2Proof.Machine

/-! ## The ring -/

/-- The slots of the car that stands at a stop (R416). -/
def State.carAt (s : State) (stop : Nat) : List Nat := upto (4 * ((stop + 100 - s.cycle % 100) % 100)) 4

/-- Slots of a die's ring that are not FREE. -/
def Die.slotsHeld (d : Die) : Nat := (d.slots.filter (fun x => decide (x.2.state ≠ .free))).length

/-- A request is a promise not yet claimed (R422). -/
def ChurnReq.isPromise (r : ChurnReq) : Bool :=
  decide (r.stage = .waiting) && (match r.work with
    | .board _ _ => true
    | _ => false)

/-- Promises of a die's ring that are not yet claimed. -/
def Die.promised (d : Die) : Nat := (d.reqs.filter ChurnReq.isPromise).length

/-- Slots that count against a partition: not FREE, no tree counter, and the promises (R420). -/
def Die.inuse (d : Die) (part : Nat) : Nat :=
  (d.slots.filter (fun x => decide (x.2.state ≠ .free ∧ x.2.part = part) && (match x.2.use with
    | .tree _ => false
    | .counter => false
    | _ => true))).length + (d.reqs.filter (fun r => r.isPromise && decide (r.part = part))).length

/-- The limit of a partition (R421). -/
def Die.limitOf (d : Die) (part : Nat) : Nat := (tgetD d.churnLimit part 0).toNat

/-- A further slot may be held for a partition (R420, R422): below its limit, and a FREE slot is not yet promised. -/
def Die.slotLeft (d : Die) (part : Nat) : Bool :=
  decide (d.inuse part < d.limitOf part) && decide (d.slotsHeld + d.promised < 400)

/-- The slot that the key table gives for a key and ASID (R425). -/
def Die.keySlot (d : Die) (key asid : Nat) : Option Nat :=
  (d.slots.find? (fun x => decide (x.2.use = .word ∧ x.2.key = key ∧ x.2.asid = asid ∧
    (x.2.state = .boarding ∨ x.2.state = .aboard)))).map (·.1)

/-- The state with a slot replaced. -/
def State.setSlot (s : State) (d n : Nat) (x : Slot) : State := s.modDie d (fun k => { k with slots := tset k.slots n x })

/-- The state without a request. -/
def State.dropReq (s : State) (d id : Nat) : State := s.modDie d (fun k => { k with reqs := k.reqs.filter (fun r => decide (r.id ≠ id)) })

/-- The issuer of a request and its sleeping word, when its path is not frozen (R260). -/
def State.reqWait (s : State) (r : ChurnReq) : Option (Who × Wait) :=
  match r.who with
  | none => none
  | some w => (s.waitReady w.core w.wg w.grp r.id).map (fun x => (w, x))

/-- A request's word completes. -/
def State.reqDone (s : State) (w : Who) (x : Wait) (vs : List (Nat × Elem)) (q : Option Tri) : State :=
  s.completeWait w.core w.wg w.grp x vs q

/-- A request's word faults, at an address. -/
def State.reqFault (s : State) (w : Who) (x : Wait) (cause : Cause) (mask : BitVec 64) (a : Nat) : State :=
  s.faultWait w.core w.wg w.grp x ⟨cause, mask, BitVec.ofNat 64 a⟩ false

/-! ## CBOARD -/

/-- The checks of a board's address (R419, R483): its physical home. -/
def State.boardPlace (s : State) (c : Ctx) (va : Nat) : Except Cause Nat × State :=
  if va % 8 ≠ 0 then (.error .misaligned, s)
  else if scratchBase ≤ va then (.error .access, s)
  else match s.translate c.core c.wg.asid true va 8 with
    | (.error x, s) => (.error x, s)
    | (.ok p, s) =>
      if permOk p.attr c.wg.priv .rmw = false ∨ attrType p.attr ≠ 0 ∨ s.isLocal p.pa = false then (.error .access, s) else (.ok p.pa, s)

/-- A CHURN word's address (R419): from the lowest active lane that is no helper; with none the word has no effect. -/
def churnWord (a : Nat) (body : W64 → Nat → Ctx → Uses → State → Did) (c : Ctx) (u : Uses) (s : State) : Did :=
  match c.doers with
  | [] => .done s
  | l :: _ => if c.src.shape a ≠ .p64 then .trap c.shapeTrap false s else body ((c.src.read a l).setWidth 64) l c u s

/-- A request of a word that has reached its core's stop in this cycle (R431). -/
def Ctx.churnReq (c : Ctx) (s : State) (id key : Nat) (slot : Option Nat) (work : ChurnWork) : ChurnReq :=
  { id := id, who := some c.who, stop := coreSite c.core, reached := s.cycle, key := key, asid := c.wg.asid, part := c.wg.part,
    priv := c.wg.priv, slot := slot, stage := .waiting, work := work }

/-- What a word waits for once its request has a number: CWAIT is a waiting word (R429). -/
def ChurnWork.waitKind (work : ChurnWork) (id : Nat) : WaitKind :=
  match work with
  | .wait _ _ => .cwait id
  | _ => .reply id

/-- The word sleeps until its request is answered. -/
def Ctx.churnSleep (c : Ctx) (s : State) (key : Nat) (slot : Option Nat) (dv dq : Option Nat) (work : ChurnWork) : Did :=
  let f := s.fresh
  .sleep (f.2.modDie (coreDie c.core) (fun d => { d with reqs := d.reqs ++ [c.churnReq s f.1 key slot work] }))
    (c.waitFor f.1 (work.waitKind f.1) dv .p64 dq)

/-- CBOARD and CBOARDR after the checks at issue (R422). -/
def boardAt (q : Nat) (attach : Except Trap (Option (Nat × Nat))) (va : W64) (_ : Nat) (c : Ctx) (u : Uses) (s : State) : Did :=
  match s.boardPlace c va.toNat with
  | (.error x, s) => .trap ⟨x, c.mask, va⟩ false s
  | (.ok pa, s) =>
    let d := s.die (coreDie c.core)
    if (s.boardedAt pa).isSome then c.commit u (Out.q q (c.allQ .u)) s .done
    else if d.slotLeft c.wg.part = false then c.commit u (Out.q q (c.allQ .f)) s .done
    else match attach with
      | .error t => .trap t false s
      | .ok at_ =>
        match c.churnSleep s va.toNat none none (some q) (.board pa at_) with
        | .sleep s x => .sleep (s.modPkg (fun p =>
            { p with boarded := p.boarded ++ [{ word := pa / 8, die := coreDie c.core, req := x.id, slot := none }] })) x
        | r => r

/-- The attachment of a CBOARDR (R422). -/
def Ctx.attachment (c : Ctx) (b e l : Nat) : Except Trap (Option (Nat × Nat)) :=
  let p := (c.src.read b l).setWidth 64
  let n := c.src.readN e l
  if p.toNat % 64 ≠ 0 then .error ⟨.misaligned, c.mask, p⟩
  else if 255 < n then .error ⟨.enqFault, c.mask, p⟩
  else .ok (some (p.toNat % 2 ^ 55, n))

/-- CBOARD (R422). -/
def execCboard (c q a : Nat) (s : State) : Host.Outcome State Fault Refusal :=
  groupWord (uX .m c [.v a] [.q q]) s (churnWord a (boardAt q (.ok none)))

/-- CBOARDR (R422). -/
def execCboardr (c q a b e : Nat) (s : State) : Host.Outcome State Fault Refusal :=
  groupWord (uX .m c [.v a, .v b, .v e] [.q q]) s (churnWord a (fun va l x u s =>
    if x.src.shape b ≠ .p64 ∨ x.src.shape e ≠ .p32 then .trap x.shapeTrap false s
    else boardAt q (x.attachment b e l) va l x u s))

/-! ## CALIGHT, CCAP, CPEEK, CWAIT -/

/-- A word on a key (R425): CHURN_KEY when no slot carries it, else the word waits for its passage; d is allocated when it completes. -/
def keyWord (d : Nat) (work : Ctx → Nat → ChurnWork) (va : W64) (l : Nat) (c : Ctx) (u : Uses) (s : State) : Did :=
  match (s.die (coreDie c.core)).keySlot va.toNat c.wg.asid with
  | none => c.takeIn u { Out.v d .p64 [] with err := some ⟨.churnKey, c.mask, va⟩ } s .done
  | some n => c.sleepOn u (some d) .p64 s (fun s => c.churnSleep s va.toNat (some n) (some d) none (work c l))

/-- CALIGHT (R424). -/
def execCalight (c d a : Nat) (s : State) : Host.Outcome State Fault Refusal :=
  groupWord (uX .m c [.v a] [.v d]) s (churnWord a (keyWord d (fun _ _ => .alight)))

/-- The capture of a group's lanes (R427); cas tells that d gives the compare values. -/
def capWork (op b d : Nat) (c : Ctx) (_ : Nat) : ChurnWork :=
  .cap op (c.doers.map (fun l => (l, (c.src.read b l).setWidth 64, (c.src.read d l).setWidth 64)))
    (c.act.filter (fun l => !c.doers.contains l))

/-- A CCAP word that reads b (R426). -/
def capGroup (op d a b : Nat) (c : Ctx) (u : Uses) (s : State) : Did :=
  churnWord a (fun va l c u s =>
    if c.src.shape b ≠ .p64 ∨ (op = 7 ∧ c.src.shape d ≠ .p64) then .trap c.shapeTrap false s
    else keyWord d (capWork op b d) va l c u s) c u s

/-- CCAP.ADD (R426). -/
def execCcapAdd (c d a b : Nat) (s : State) : Host.Outcome State Fault Refusal := groupWord (uX .m c [.v a, .v b] [.v d]) s (capGroup 0 d a b)
/-- CCAP.SUB (R426). -/
def execCcapSub (c d a b : Nat) (s : State) : Host.Outcome State Fault Refusal := groupWord (uX .m c [.v a, .v b] [.v d]) s (capGroup 1 d a b)
/-- CCAP.MIN (R426). -/
def execCcapMin (c d a b : Nat) (s : State) : Host.Outcome State Fault Refusal := groupWord (uX .m c [.v a, .v b] [.v d]) s (capGroup 2 d a b)
/-- CCAP.MAX (R426). -/
def execCcapMax (c d a b : Nat) (s : State) : Host.Outcome State Fault Refusal := groupWord (uX .m c [.v a, .v b] [.v d]) s (capGroup 3 d a b)
/-- CCAP.AND (R426). -/
def execCcapAnd (c d a b : Nat) (s : State) : Host.Outcome State Fault Refusal := groupWord (uX .m c [.v a, .v b] [.v d]) s (capGroup 4 d a b)
/-- CCAP.OR (R426). -/
def execCcapOr (c d a b : Nat) (s : State) : Host.Outcome State Fault Refusal := groupWord (uX .m c [.v a, .v b] [.v d]) s (capGroup 5 d a b)
/-- CCAP.XCHG (R426). -/
def execCcapXchg (c d a b : Nat) (s : State) : Host.Outcome State Fault Refusal := groupWord (uX .m c [.v a, .v b] [.v d]) s (capGroup 6 d a b)
/-- CCAP.CAS (R426). -/
def execCcapCas (c d a b : Nat) (s : State) : Host.Outcome State Fault Refusal := groupWord (uX .m c [.v a, .v b, .v d] [.v d]) s (capGroup 7 d a b)
/-- CCAP.DEC (R426, R427): it reads no b. -/
def execCcapDec (c d a : Nat) (s : State) : Host.Outcome State Fault Refusal :=
  groupWord (uX .m c [.v a] [.v d]) s (churnWord a (keyWord d (capWork 8 d d)))

/-- CPEEK (R429). -/
def execCpeek (c d a : Nat) (s : State) : Host.Outcome State Fault Refusal :=
  groupWord (uX .m c [.v a] [.v d]) s (churnWord a (keyWord d (fun _ _ => .peek)))

/-- CWAIT (R429). -/
def execCwait (c d a b k : Nat) (s : State) : Host.Outcome State Fault Refusal :=
  groupWord (uX .m c [.v a, .v b] [.v d]) s (churnWord a (fun va l x u s =>
    if x.src.shape b ≠ .p64 then .trap x.shapeTrap false s
    else keyWord d (fun x l => .wait k ((x.src.read b l).setWidth 64)) va l x u s))

/-! ## A passage -/

/-- The new value of a capture (R426): slot's value o, operand x, compare value y; none where DEC underflows. -/
def capNew (op : Nat) (o x y : W64) : Option W64 :=
  match op with
  | 0 => some (o + x)
  | 1 => some (o - x)
  | 2 => some (if x.toInt < o.toInt then x else o)
  | 3 => some (if o.toInt < x.toInt then x else o)
  | 4 => some (o &&& x)
  | 5 => some (o ||| x)
  | 6 => some x
  | 7 => some (if o = y then x else o)
  | _ => if o = 0 then none else some (o - 1)

/-- A capture's lanes in ascending order (R427), each once: old values and the slot's new value. (DEDUCED, log entry 94.) -/
def capLanes (op : Nat) (v : W64) : List (Nat × W64 × W64) → Option (List (Nat × W64) × W64)
  | [] => some ([], v)
  | (l, x, y) :: t => match capNew op v x y with
    | none => none
    | some n => (capLanes op n t).map (fun r => ((l, v) :: r.1, r.2))

/-- The test of CWAIT (R429). (DEDUCED, log entry 32.) -/
def cwaitMeets (cond : Nat) (v b : W64) : Bool :=
  if cond = 0 then v = b else if cond = 1 then v ≠ b else if cond = 2 then b.toNat ≤ v.toNat else v.toNat < b.toNat

/-- The request that is under way in a slot, if there is one, is over: its issuer's word gets an answer. -/
def State.takeReq (s : State) (d n : Nat) (f : State → Who → Nat → State) : State :=
  match (s.die d).reqs.find? (fun r => decide (r.slot = some n ∧ r.stage = .taken)) with
  | none => s
  | some r =>
    let s := s.dropReq d r.id
    match r.who with
    | none => s
    | some w => f s w r.id

/-- A slot becomes FREE (R418): the home slice clears the boarded entry (R354), and the CALIGHT that waited completes (R424). -/
def State.freeSlot (s : State) (d n : Nat) : State :=
  match tget (s.die d).slots n with
  | none => s
  | some x =>
    let s := s.modDie d (fun k => { k with slots := tdel k.slots n })
    let s := s.modPkg (fun p => { p with boarded := p.boarded.filter (fun b => decide (¬ (b.die = d ∧ b.slot = some n))) })
    let s := s.modDir (x.home / 128) (fun e => { e with boarded := s.lineBoarded (x.home / 128) })
    (s.takeReq d n (fun s w id => s.finishReply w id none)).answerTaps d n

/-- A slot that has been written home and owes no release is FREE (R418). -/
def State.settleSlot (s : State) (d n : Nat) : State :=
  match tget (s.die d).slots n with
  | none => s
  | some x => if x.state = .alighting ∧ x.written = true ∧ x.fire = false then s.freeSlot d n else s

/-- CALIGHT is applied (R424, R435): the word's destination takes the value, and the slot alights; a poisoned one is given up at once, its home line
lost, and the word raises MEM_UE. -/
def State.alightSlot (s : State) (d n : Nat) (x : Slot) (r : ChurnReq) (w : Who) (k : Wait) : State :=
  let lose := fun (q : ChurnReq) => if q.slot = some n ∧ q.id ≠ r.id then { q with stage := .lost } else q
  let s := s.modDie d (fun y => { y with reqs := y.reqs.map lose })
  let x := { x with state := .alighting, armed := false, written := x.poison }
  if x.poison then
    (((s.setSlot d n x).loseLine (x.home / 128)).settleSlot d n).dropReq d r.id |>.reqFault w k .memUe k.mask r.key
  else
    let s := s.setSlot d n x
    let s := s.modDie d (fun y => { y with reqs := y.reqs.map (fun q => if q.id = r.id then { q with stage := .taken } else q) })
    s.modGroup w.core w.wg w.grp (fun g =>
      let g := g.writeWait k (k.all x.value)
      { g with waits := g.waits.map (fun y => if y.id = k.id then { y with dv := none } else y) })

/-- One event of a word on its slot (R424 to R427, R429, R431, R434, R435); none when it goes on waiting. (DEDUCED, log entry 32.) -/
def State.churnEvent (s : State) (d n : Nat) (x : Slot) (r : ChurnReq) (w : Who) (k : Wait) : Option State :=
  let gone := s.dropReq d r.id
  if r.stage = .lost ∨ x.use ≠ .word ∨ x.key ≠ r.key ∨ x.asid ≠ r.asid ∨ x.state = .alighting ∨ x.state = .free then
    some (gone.reqFault w k .churnKey k.mask r.key)
  else if x.state = .boarding then none
  else match s.wakeTrap w.core w.wg w.grp k with
  | some t => some (s.faultWait w.core w.wg w.grp k t false |>.dropReq d r.id)
  | none => match r.work with
    | .alight => some (s.alightSlot d n x r w k)
    | .cap op lanes helpers => match capLanes op x.value lanes with
      | none => some (gone.reqFault w k .churnUnderflow (listMask (lanes.map (·.1))) r.key)
      | some (old, v) =>
        if x.poison then some (gone.reqFault w k .memUe k.mask r.key)
        else
          let fires := decide (op = 8 ∧ v = 0) && x.armed
          let vs : List (Nat × Elem) := old.map (fun y => (y.1, y.2.setWidth 128)) ++ helpers.map (fun l => (l, (0 : Elem)))
          some ((gone.setSlot d n { x with value := v, armed := x.armed && !fires, fire := x.fire || fires }).reqDone w k vs none)
    | .peek =>
      if x.poison then some (gone.reqFault w k .memUe k.mask r.key) else some (gone.reqDone w k (k.all x.value) none)
    | .wait cond b =>
      if x.poison then some (gone.reqFault w k .memUe k.mask r.key)
      else if cwaitMeets cond x.value b then some (gone.reqDone w k (k.all x.value) none) else none
    | _ => none

/-- A capture on a bin's tail (R450): the records enter the bin when there is room; a word completes, and a scan is finished, with its
last capture. (DESIGN CHOICE, log entry 31.) -/
def State.binEvent (s : State) (d : Nat) (r : ChurnReq) (b : Nat) (quads : List (List (BitVec 128))) (singles : List (BitVec 128)) :
    Option State :=
  let n := (quads.map (fun q => (q.filter (fun y => !recHelper y)).length)).sum + singles.length
  if 65536 < s.pendingRecords d + n then none
  else
    let drop := fun (q : ChurnReq) => !(decide (q.id = r.id) && (match q.work with
      | .bin k _ _ => decide (k = b)
      | _ => false))
    let s := (s.modDie d (fun k => { k with reqs := k.reqs.filter drop })).enterBin d b quads singles
    if (s.die d).reqs.any (fun q => q.id = r.id) then some s
    else match r.who with
      | some _ => match s.reqWait r with
        | none => some s
        | some (w, k) => some (s.reqDone w k [] none)
      | none => match (s.die d).scan with
        | none => some s
        | some (e, _) => match tget (s.die d).tiles e with
          | none => some (s.modDie d (fun k => { k with scan := none }))
          | some t =>
            let s := s.modDie d (fun k => { k with scan := none })
            if t.refs = 0 then some ((s.modDie d (fun k => { k with tiles := tdel k.tiles e })).passComplete d t.pass)
            else some (s.modDie d (fun k => { k with tiles := tset k.tiles e { t with state := .binned } }))

/-- A request may act at a stop in this cycle: it is there, it reached it two cycles ago, and its path is not frozen (R260, R431). -/
def State.reqAt (s : State) (stop : Nat) (r : ChurnReq) : Bool :=
  decide (r.stop = stop ∧ r.reached + 2 ≤ s.cycle ∧ r.stage ≠ .taken) && (r.who.isNone || (s.reqWait r).isSome)

/-- The event of a request on slot n, if the request is for that slot. -/
def State.slotEvent (s : State) (d n : Nat) (r : ChurnReq) : Option State :=
  match tget (s.die d).slots n with
  | none => match r.work with
    | .bin _ _ _ => none
    | _ => if r.slot = some n then (s.reqWait r).map (fun y => (s.dropReq d r.id).reqFault y.1 y.2 .churnKey y.2.mask r.key) else none
  | some x => match r.work with
    | .bin b q t => if x.use = .tail b then s.binEvent d r b q t else none
    | _ => if r.slot = some n then (s.reqWait r).bind (fun y => s.churnEvent d n x r y.1 y.2) else none

/-- The events of one slot at a stop: at most `left` of them, in the order of arrival (R431). -/
def State.slotEvents (s : State) (d n : Nat) : Nat → List ChurnReq → State
  | _, [] => s
  | left, r :: t =>
    if left = 0 then s
    else match s.slotEvent d n r with
      | none => s.slotEvents d n left t
      | some s => s.slotEvents d n (left - 1) t

/-- A slot claimed for a word (R422): its home slice sets boarded, and copies of the line go (R354). -/
def State.claimWord (s : State) (d n : Nat) (r : ChurnReq) (home : Nat) (at_ : Option (Nat × Nat)) : State :=
  let v := (((s.reach (home / 128)).hostTake (home / 128)).backInvalidate (home / 128)).draw
  let x : Slot := { state := .boarding, value := v.1.setWidth 64, key := r.key, asid := r.asid, part := r.part, priv := r.priv,
                    armed := at_.isSome, packet := (at_.map (·.1)).getD 0, queue := (at_.map (·.2)).getD 0, fire := false,
                    poison := false, home := home, use := .word, loaded := false, written := false, leaving := false }
  let s := v.2.setSlot d n x
  let s := s.modDie d (fun k => { k with reqs := k.reqs.map (fun q => if q.id = r.id then { q with stage := .taken, slot := some n } else q) })
  let s := s.modPkg (fun p => { p with boarded := p.boarded.map (fun b => if b.req = r.id ∧ b.slot = none then { b with slot := some n } else b) })
  s.modDir (home / 128) (fun e => { e with boarded := true })

/-- A slot boarded by the Separator as a bin's tail (R450). (DESIGN CHOICE, log entry 31.) -/
def State.claimTail (s : State) (d n b part : Nat) : State :=
  let x : Slot := { state := .aboard, value := 0, key := b, asid := 0, part := part, priv := false, armed := false, packet := 0, queue := 0,
                    fire := false, poison := false, home := 0, use := .tail b, loaded := true, written := false, leaving := false }
  (s.setSlot d n x).modBin d b (fun k => { k with tail := some n })

/-- Tails that a partition holds (R450). -/
def Die.tails (d : Die) (part : Nat) : Nat :=
  (d.slots.filter (fun x => decide (x.2.part = part) && (match x.2.use with
    | .tail _ => true
    | _ => false))).length

/-- The claim of a FREE slot at a stop (R422, R431, R450): the first promise that waits there; at stop 98 the first bin that waits for
a tail it may have. -/
def State.claim (s : State) (d stop n : Nat) : State :=
  if (tget (s.die d).slots n).isSome then s
  else match (s.die d).reqs.find? (fun r => r.isPromise && s.reqAt stop r) with
    | some r => match r.work with
      | .board home at_ => s.claimWord d n r home at_
      | _ => s
    | none =>
      if stop ≠ 98 then s
      else
        let want := (s.die d).reqs.filterMap (fun r => match r.work with
          | .bin b _ _ =>
            if r.reached + 2 ≤ s.cycle ∧ (s.bin d b).tail = none ∧ (r.who.isNone || (s.reqWait r).isSome) = true ∧
              (s.die d).tails (s.bin d b).part.toNat < 32 ∧ (s.die d).slotLeft (s.bin d b).part.toNat = true then some b else none
          | _ => none)
        match want with
        | [] => s
        | b :: _ => s.claimTail d n b (s.bin d b).part.toNat

/-- What a memory tap does to a slot (R418, R424): a word that has been read comes aboard; an alighting value is written home, once its slice
accepts requests (R368). -/
def State.tapSlot (s : State) (d n : Nat) : State :=
  match tget (s.die d).slots n with
  | none => s
  | some x =>
    if x.use ≠ .word then s
    else if x.state = .boarding ∧ x.loaded = true then
      let x := if x.leaving then { x with state := .alighting, armed := false, leaving := false } else { x with state := .aboard }
      (s.setSlot d n x).takeReq d n (fun s w id => s.finishReply w id (some .t))
    else if x.state = .alighting ∧ x.written = false ∧ s.stopped x.home = false then
      let s := s.unitWrite x.asid x.key x.home (leBytes 8 x.value.toNat)
      (s.setSlot d n { x with written := true }).settleSlot d n
    else s

/-- What the ring port does to a slot at stop 96 (R428): it takes a release that has fired; a packet that cannot be read is refused. -/
def State.portSlot (s : State) (d n : Nat) : State :=
  match tget (s.die d).slots n with
  | none => s
  | some x =>
    if x.fire = false then s
    else
      let s := s.setSlot d n { x with fire := false }
      let s := match s.unitRead512 x.asid x.priv x.part x.packet with
        | .error _ => (s.modDie d (fun k => k.modQueue x.queue (fun q => { q with error := true }))).count 1 (sourceOf d 0x200)
        | .ok b => s.releaseInto d x.queue b
      s.settleSlot d n

/-- One slot passes a stop. -/
def State.passSlot (s : State) (d stop n : Nat) : State :=
  let s := if stop = 97 ∨ stop = 99 then (s.tapSlot d n).answerTaps d n else if stop = 96 then s.portSlot d n else s
  let s := s.claim d stop n
  s.slotEvents d n 4 ((s.die d).reqs.filter (s.reqAt stop))

/-- CHURN_PASSAGE: the car at a stop passes it (R431). -/
def execChurnPassage (die stop : Nat) (s : State) : Host.Outcome State Fault Refusal :=
  if 4 ≤ die ∨ 100 ≤ stop then .next s
  else .next ((s.carAt stop).foldl (fun s n => s.passSlot die stop n) s)

/-- BOARDING_READ_RETURN: the home read of a boarding slot returns (R418, R434): the value, or an uncorrectable error that frees the slot and
raises MEM_UE at the word. -/
def execBoardingReadReturn (die slot : Nat) (s : State) : Host.Outcome State Fault Refusal :=
  match tget (s.die die).slots slot with
  | none => .next s
  | some x =>
    if x.state ≠ .boarding ∨ x.loaded = true then .next s
    else if s.unreadable x.home 8 then
      .next ((s.takeReq die slot (fun s w id => s.failReply w id .memUe (BitVec.ofNat 64 x.key))).freeSlot die slot)
    else
      let s := s.sliceRead 96 x.asid x.key x.home
      .next (s.setSlot die slot { x with value := BitVec.ofNat 64 (s.readPhys x.home 8), loaded := true })

/-- A write of a Churn limit register (R421). -/
def State.writeChurnLimit (s : State) (die part value : Nat) : State :=
  s.modDie die (fun d => { d with churnLimit := tset d.churnLimit part (BitVec.ofNat 9 (min (value % 512) 336)) })

/-- CHURN_LIMIT_WRITE (R421). -/
def execChurnLimitWrite (die part value : Nat) (s : State) : Host.Outcome State Fault Refusal :=
  if 4 ≤ die ∨ 8 ≤ part then .next s else .next (s.writeChurnLimit die part value)

end Sys2Proof.Machine
end

