-- ==== Sys2Proof/Machine/Dispatcher.lean ====
section
/-!
DEFINITION. The front end: doorbells and queues (R394, R395, R409, R508), dispatch (R397 to R399), spawn trees (R400, R401), completion
(R404), range lists (R413, R490), and admission, donation and the return of slots (R232 to R235, R344).
-/
namespace Sys2Proof.Machine

/-! ## Queue registers -/

/-- A doorbell (R395): the write index moves on, or the doorbell is dropped with the error bit. -/
def State.doorbell (s : State) (d q value : Nat) : State :=
  let w := BitVec.ofNat 32 value
  s.modDie d (fun x => x.modQueue q (fun k =>
    if k.enable = true ∧ k.destroying = false ∧ (w - k.read).toNat ≤ k.cap ∧ (w - k.write).toNat ≤ k.cap then { k with write := w }
    else { k with error := true }))

/-- DOORBELL (R395). -/
def execDoorbell (die queue value : Nat) (s : State) : Host.Outcome State Fault Refusal :=
  if 4 ≤ die ∨ 256 ≤ queue then .next s else .next (s.doorbell die queue value)

/-- A write that takes enable from 0 to 1 puts the queue in service and clears its energy counter (R508). -/
def State.enableQueue (s : State) (d q : Nat) : State :=
  if ((s.die d).queue q).enable then s
  else (s.modDie d (fun x => x.modQueue q (fun k => { k with enable := true }))).modDie d
    (fun x => { x with queueEnergy := tset x.queueEnergy q 0 })

/-- QUEUE_ENABLE (R394, R508). -/
def execQueueEnable (die queue : Nat) (s : State) : Host.Outcome State Fault Refusal :=
  if 4 ≤ die ∨ 256 ≤ queue then .next s else .next (s.enableQueue die queue)

/-- The tag of the ring entry with a write index (R402, R407): its tree and depth; none for a command. -/
def Queue.tagOf (k : Queue) (i : Nat) : Option (Nat × Nat) :=
  match k.tags.find? (fun t => decide (t.1 = i)) with
  | none => none
  | some t => t.2.1.map (fun tree => (tree, t.2.2))

/-- The packet in the ring at a write index (R394). -/
def State.ringPacket (s : State) (d q i : Nat) : Except Cause (BitVec 512) :=
  let k := (s.die d).queue q
  s.unitRead512 k.asid.toNat k.pq k.part.toNat (k.entryAt i)

/-! ## Destroying a queue -/

/-- Take a packet's unadmitted workgroups from the clusters of a die: how many they were. -/
def State.dropAssigned (s : State) (d n : Nat) : Nat × State :=
  let ks := upto (24 * d) 24
  let count := (ks.map (fun k => ((s.cluster k).queue.filter (fun a => decide (a.packet = n))).length)).sum
  (count, ks.foldl (fun s k =>
    if (s.cluster k).queue.any (fun a => decide (a.packet = n)) then
      s.modCluster k (fun c => { c with queue := c.queue.filter (fun a => decide (a.packet ≠ n)) })
    else s) s)

/-- Cancel what has not been dispatched of a served packet (R399, R409, R410). (DEDUCED, log entry 34.) -/
def State.cancelPacket (s : State) (d n : Nat) : State :=
  match tget (s.die d).packets n with
  | none => s
  | some p =>
    if p.groups ≤ p.dispatched * lpGroups p.bits then s
    else (s.dropAssigned d n).2.groupsEnded d n (p.groups - p.dispatched * lpGroups p.bits)

/-- A packet of a destroyed queue that was never served completes ABORTED (R404, R409). -/
def State.abortUnserved (s : State) (d q i : Nat) : State :=
  let k := (s.die d).queue q
  let s := match s.ringPacket d q i with
    | .error _ => s
    | .ok b =>
      let s := s.writeSignal d k.asid.toNat (lpPriv b && k.pq) k.part.toNat (lpSignal b) (signalWord 0 0 3)
      if lpInterrupt b ∧ lpSignal b ≠ 0 then s.modPkg (fun p => { p with interrupts := p.interrupts ++ [(d, k.vector.toNat)] }) else s
  match k.tagOf i with
  | none => s
  | some (tree, _) => s.treeEvent d (some tree) (-1)

/-- Destroying a queue (R408, R409). (DEDUCED, log entry 34.) -/
def State.destroyQueue (s : State) (d q : Nat) : State :=
  let k := (s.die d).queue q
  let s := s.modDie d (fun x => { x with packets := x.packets.map (fun p => if p.2.source = q then (p.1, { p.2 with cancelled := true }) else p) })
  let first := if k.serving.isSome then k.read.toNat + 1 else k.read.toNat
  let left := k.held - (if k.serving.isSome then 1 else 0)
  let s := (upto 0 left).foldl (fun s i => s.abortUnserved d q ((first + i) % 2 ^ 32)) s
  let s := ((s.die d).packets.filter (fun p => decide (p.2.source = q))).foldl (fun s p => s.cancelPacket d p.1) s
  let s := s.modDie d (fun x => x.modQueue q (fun k =>
    { k with enable := false, destroying := true, read := k.write, tags := [], released := [], serving := none }))
  k.released.foldl (fun s b => s.refusePacket d q b) s

/-- QUEUE_DESTROY: 1 is written to destroy (R394, R409). -/
def execQueueDestroy (die queue : Nat) (s : State) : Host.Outcome State Fault Refusal :=
  if 4 ≤ die ∨ 256 ≤ queue then .next s
  else
    let s := s.modDie die (fun x => x.modQueue queue (fun k => { k with destroy := true }))
    if ((s.die die).queue queue).destroying then .next s else .next (s.destroyQueue die queue)

/-- Every packet of a queue has completed, and every tree its commands began (R409). -/
def State.queueIdle (s : State) (d q : Nat) : Bool := (s.die d).packets.all (fun p => decide (p.2.source ≠ q))

/-- QUEUE_DESTROY_COMPLETE (R409). -/
def execQueueDestroyComplete (die queue : Nat) (s : State) : Host.Outcome State Fault Refusal :=
  if 4 ≤ die ∨ 256 ≤ queue then .next s
  else if ((s.die die).queue queue).destroying = true ∧ s.queueIdle die queue = true then
    .next (s.modDie die (fun x => x.modQueue queue (fun k => { k with destroying := false })))
  else .next s

/-! ## Spawn trees -/

/-- A counter slot that the front end keeps and no tree uses (R400). -/
def Die.freeCounter (d : Die) : Option Nat := (d.slots.find? (fun x => decide (x.2.use = .counter))).map (·.1)

/-- One change of a tree's counter (R401). -/
def State.treeChange (s : State) (d : Nat) (u : TreeUpdate) : State :=
  match tget (s.die d).slots u.slot with
  | none => s
  | some x => match x.use with
    | .tree n =>
      let v := (if u.set then 0 else x.value) + BitVec.ofInt 64 u.delta
      let s := s.setSlot d u.slot { x with value := v }
      if v = 0 then s.treeDone d u.slot n else s
    | _ => s

/-- The first n of a list that meet a test, and the rest. -/
def takeSome {α : Type} (p : α → Bool) : Nat → List α → List α × List α
  | _, [] => ([], [])
  | n, a :: t =>
    if n ≠ 0 ∧ p a = true then
      let r := takeSome p (n - 1) t
      (a :: r.1, r.2)
    else
      let r := takeSome p n t
      (r.1, a :: r.2)

/-- TREE_COUNTER_UPDATE: the front end applies its changes to the counters that stand at its own stop, in the order in which the events
reached it, at most four to a slot (R401, R431). -/
def execTreeCounterUpdate (die : Nat) (s : State) : Host.Outcome State Fault Refusal :=
  if 4 ≤ die then .next s
  else .next ((s.carAt 96).foldl (fun s n =>
    let r := takeSome (fun (u : TreeUpdate) => decide (u.slot = n)) 4 (s.die die).treeUpdates
    r.1.foldl (fun s u => s.treeChange die u) (s.modDie die (fun x => { x with treeUpdates := r.2 }))) s)

/-! ## Range lists -/

/-- One entry of a range list (R413): base line, lines, use, expected reads; none if it is malformed. -/
def rangeEntry (w0 w1 : Nat) : Option (Nat × Nat × Nat × Nat) :=
  let use := w1 / 2 ^ 36 % 4
  if w0 / 2 ^ 55 ≠ 0 ∨ w0 % 128 ≠ 0 ∨ w1 / 2 ^ 38 ≠ 0 ∨ use = 3 ∨ w1 % 2 ^ 32 = 0 then none
  else some (w0 / 128, w1 % 2 ^ 32, use, w1 / 2 ^ 32 % 16)

/-- Entries i, i + 1, … of a range list (R413): none if one cannot be read or is malformed. -/
def State.rangeEntries (s : State) (asid : Nat) (priv : Bool) (part a : Nat) : Nat → Option (List (Nat × Nat × Nat × Nat))
  | 0 => some []
  | n + 1 => match s.unitRead asid priv part a 16 with
    | .error _ => none
    | .ok v => match rangeEntry (v % 2 ^ 64) (v / 2 ^ 64), s.rangeEntries asid priv part (a + 16) n with
      | some e, some t => some (e :: t)
      | _, _ => none

/-- A packet's range list (R413): none if it is malformed or cannot be read. (DEDUCED, log entry 20.) -/
def State.rangeList (s : State) (p : Packet) : Option (List (Nat × Nat × Nat × Nat)) :=
  let a := lpRanges p.bits
  match s.unitRead p.asid (lpPriv p.bits) (lpPartition p.bits) a 16 with
  | .error _ => none
  | .ok h =>
    if h / 64 ≠ 0 ∨ h = 0 ∨ 32 < h then none
    else s.rangeEntries p.asid (lpPriv p.bits) (lpPartition p.bits) (a + 16) h

/-- Read a packet's range list at dispatch and count its ranges, up to 256 per die (R413, R490); a bad list is ignored and counted.
(DEDUCED, log entry 20.) -/
def State.noteRanges (s : State) (d n : Nat) (p : Packet) : State :=
  if lpRanges p.bits = 0 then s
  else match s.rangeList p with
    | none => s.count 4 (sourceOf d 0x200)
    | some l =>
      let room := 256 - (s.pkg.ranges.filter (fun r => decide (r.die = d))).length
      let new := (l.take room).map (fun e => (⟨d, n, p.asid, e.1, e.2.1, e.2.2.1, e.2.2.2, 0, 0, false⟩ : RangeCount))
      s.modPkg (fun k => { k with ranges := k.ranges ++ new })

/-! ## Dispatch -/

/-- The packet at the head of a queue: the one being served, or the ring entry at read. -/
def State.headPacket (s : State) (d q : Nat) : Except Cause (BitVec 512) :=
  let k := (s.die d).queue q
  match k.serving.bind (tget (s.die d).packets) with
  | some p => .ok p.bits
  | none => s.ringPacket d q k.read.toNat

/-- A queue is ready (R397, R400). -/
def State.queueReady (s : State) (d q : Nat) : Bool :=
  let x := s.die d
  let k := x.queue q
  k.enable && !k.destroying &&
  (k.serving.isSome ||
    (decide (k.read ≠ k.write) &&
      (match s.headPacket d q with
        | .error _ => true
        | .ok b => !lpBarrier b || x.packets.all (fun p => decide (p.2.source ≠ q))) &&
      ((k.tagOf k.read.toNat).isSome || x.freeCounter.isSome)))

/-- A queue's priority (R397): that of its packet; 0 where the packet cannot be read (log entry 13). -/
def State.queuePriority (s : State) (d q : Nat) : Nat :=
  match s.headPacket d q with
  | .error _ => 0
  | .ok b => lpPriority b

/-- The ready sources of a die with their priorities, ascending (R397, R453). -/
def State.readySources (s : State) (d : Nat) : List (Nat × Nat) :=
  ((s.die d).queues.filter (fun q => s.queueReady d q.1)).map (fun q => (q.1, s.queuePriority d q.1)) ++
  (match (s.die d).launches with
    | [] => []
    | l :: _ => [(256, lpPriority l.template)])

/-- Steps that a source has been ready and not served (R398). -/
def Die.unserved (d : Die) (q : Nat) : Nat := if q = 256 then d.binUnserved else (d.queue q).unserved

/-- Where a source stands in turn after the one served last at a priority (R397). -/
def Die.turn (d : Die) (prio q : Nat) : Nat :=
  match tget d.lastServed prio with
  | none => q
  | some l => (q + 257 - (l + 1) % 257) % 257

/-- The source that a dispatch step serves (R397, R398). (DESIGN CHOICE, log entry 13.) -/
def State.chooseSource (s : State) (d : Nat) : Option (Nat × Nat) :=
  let x := s.die d
  let rs := s.readySources d
  let late := rs.filter (fun r => decide (65536 ≤ x.unserved r.1))
  match lmin (fun a b => decide (x.unserved b.1 < x.unserved a.1)) late with
  | some r => some r
  | none => lmin (fun a b => decide (b.2 < a.2) || (decide (a.2 = b.2) && decide (x.turn a.2 a.1 < x.turn b.2 b.1))) rs

/-- The clusters of a die that may take a workgroup of a partition (R399, R344): enabled, of the partition, with room in their queue. -/
def State.openClusters (s : State) (d part : Nat) : List Nat :=
  let m := ((tget s.pkg.parts part).map (·.clusters)).getD 0
  (upto (24 * d) 24).filter (fun k => m.getLsbD k && (s.die d).clusters.getLsbD (k % 24) && decide ((s.cluster k).queue.length < 64))

/-- The partition has a cluster on the die, so that its workgroups can fit a core (R392). (DEDUCED, log entry 35.) -/
def State.partHere (s : State) (d part : Nat) : Bool :=
  let m := ((tget s.pkg.parts part).map (·.clusters)).getD 0
  (upto (24 * d) 24).any (fun k => m.getLsbD k && (s.die d).clusters.getLsbD (k % 24))

/-- A local queue with a workgroup added, ordered by priority and then by assignment (R344). -/
def addAssigned (a : Assigned) (l : List Assigned) : List Assigned := linsert (fun (x y : Assigned) => decide (y.prio < x.prio)) a l

/-- The forecast peak of a core exceeds the threshold (R510): the dispatcher prefers other cores. -/
def State.hotCore (s : State) (c : Nat) : Bool := decide (Config.thermalThreshold < tgetD (s.die (coreDie c)).forecast (coreSite c) 0)

/-- The members of a list that meet a test, or all of them where none does. -/
def prefer {α : Type} (p : α → Bool) (l : List α) : List α := if (l.filter p).isEmpty then l else l.filter p

/-- Assign the next workgroup of a packet to a cluster, if one has room (R397, R399), one with a core that is not hot for choice (R510); the front
end's choice among them is not architectural. -/
def State.assignNext (s : State) (d n : Nat) (p : Packet) : State :=
  match prefer (fun k => (clusterCores k).any (fun c => s.isProgramCore c && !s.hotCore c)) (s.openClusters d (lpPartition p.bits)) with
  | [] => s
  | ks =>
    let i := Config.clusterChoice s.freeIdx % ks.length
    let k := ks.getD i 0
    let a : Assigned := { packet := n, index := p.assigned, prio := lpPriority p.bits, noDonate := lpNoDonate p.bits }
    let s := { s with freeIdx := s.freeIdx + 1 }
    let s := s.modCluster k (fun c => { c with queue := addAssigned a c.queue })
    s.modDie d (fun x => { x with packets := tset x.packets n { p with assigned := p.assigned + 1 } })

/-- Advance a queue past its packet at read (R397). -/
def State.advanceRead (s : State) (d q : Nat) : State :=
  s.modDie d (fun x => x.modQueue q (fun k =>
    { k with read := k.read + 1, serving := none, tags := k.tags.filter (fun t => decide (t.1 ≠ k.read.toNat)) }))

/-- A packet taken into service (R333, R397, R400, R401): its number. A command takes its counter slot, which the front end sets at its own
stop. -/
def State.beginPacket (s : State) (d : Nat) (p : Packet) : Nat × State :=
  let n := (s.die d).nextPacket
  let g := p.groups
  let bar : NetBar := { gen := 0, expected := g, arrived := 0, next := g, joins := [] }
  let p := { p with nbars := List.replicate (lpNbar p.bits) bar }
  let s := s.modDie d (fun x => { x with nextPacket := n + 1, packets := tset x.packets n p })
  let s := s.noteRanges d n p
  if p.command then match p.tree with
    | none => (n, s)
    | some k => (n, s.modDie d (fun x => { x with
        slots := match tget x.slots k with
          | none => x.slots
          | some y => tset x.slots k { y with use := .tree n, value := 0 },
        treeUpdates := x.treeUpdates ++ [⟨k, true, g⟩] }))
  else if p.tree.isNone then (n, s)
  else (n, s.treeEvent d p.tree ((g : Int) - 1))

/-- A packet as it is first served. -/
def newPacket (b : BitVec 512) (source asid : Nat) (tree : Option Nat) (command : Bool) (depth : Nat)
    (recs : List (Option (BitVec 128) × Bool)) (bin : Bool) : Packet :=
  { bits := b, source := source, asid := asid, tree := tree, command := command, depth := depth, assigned := 0, dispatched := 0, ended := 0,
    cause := none, cancelled := false, gridDone := false, records := recs, nbars := [], binCharged := bin }

/-- The next workgroup of a queue's packet in service is assigned; with the last, read advances (R397). -/
def State.serveMore (s : State) (d q n : Nat) : State :=
  match tget (s.die d).packets n with
  | none => s.advanceRead d q
  | some p =>
    let s := s.assignNext d n p
    match tget (s.die d).packets n with
    | none => s
    | some p => if lpGrid p.bits ≤ p.assigned then s.advanceRead d q else s

/-- A packet's first service (R391, R392, R394, R397, R401). -/
def State.serveFirst (s : State) (d q : Nat) : State :=
  let k := (s.die d).queue q
  let tag := k.tagOf k.read.toNat
  let churn := k.tags.any (fun t => decide (t.1 = k.read.toNat ∧ t.2.1 = none ∧ t.2.2 = 0))
  let refused := fun (s : State) => (match tag with
    | none => s
    | some (tree, _) => s.treeEvent d (some tree) (-1)).advanceRead d q
  match s.ringPacket d q k.read.toNat with
  | .error _ => refused ((s.modDie d (fun x => x.modQueue q (fun k => { k with error := true }))).count 5 (sourceOf d 0x200))
  | .ok b =>
    if s.packetRefused b k.part.toNat k.pq = true ∨ (lpKind b = 1 ∧ s.partHere d k.part.toNat = false) then refused (s.refusePacket d q b)
    else
      let tree := match tag with
        | some t => some t.1
        | none => (s.die d).freeCounter
      let p := newPacket b q k.asid.toNat tree tag.isNone ((tag.map (·.2)).getD 0) [] churn
      let r := s.beginPacket d p
      if lpKind b = 2 then (r.2.groupsEnded d r.1 1).advanceRead d q
      else (r.2.modDie d (fun x => x.modQueue q (fun k => { k with serving := some r.1 }))).serveMore d q r.1

/-- Serve the bin-launch source (R453). -/
def State.serveBin (s : State) (d : Nat) : State :=
  match (s.die d).launches with
  | [] => s
  | l :: t =>
    let part := lpPartition l.template
    if s.partHere d part = false then
      (s.modDie d (fun x => { x with launches := t })).dropRecords d l.bin (l.records.filterMap (·.1))
    else if s.openClusters d part = [] then s
    else
      let s := s.modDie d (fun x => { x with launches := t })
      let r := s.beginPacket d (newPacket l.template 256 (s.binAsid d part) none false 0 l.records true)
      match tget (r.2.die d).packets r.1 with
      | none => r.2
      | some p => r.2.assignNext d r.1 p

/-- The counts of R398 after a step that served a source: none ready and unserved is forgotten, the served one starts again. -/
def State.countUnserved (s : State) (d : Nat) (ready : List (Nat × Nat)) (served : Option (Nat × Nat)) : State :=
  let is_ := fun (q : Nat) => ready.any (fun r => decide (r.1 = q)) && decide (served.map (·.1) ≠ some q)
  s.modDie d (fun x => { x with
    queues := x.queues.map (fun q => (q.1, { q.2 with unserved := if is_ q.1 then q.2.unserved + 1 else 0 })),
    binUnserved := if is_ 256 then x.binUnserved + 1 else 0,
    lastServed := match served with
      | none => x.lastServed
      | some r => tset x.lastServed r.2 r.1 })

/-- DISPATCH_STEP: the front end serves one ready source (R397 to R399). -/
def execDispatchStep (die : Nat) (s : State) : Host.Outcome State Fault Refusal :=
  if 4 ≤ die then .next s
  else
    let ready := s.readySources die
    let r := s.chooseSource die
    let s := s.countUnserved die ready r
    match r with
    | none => .next s
    | some (q, _) =>
      if q = 256 then .next (s.serveBin die)
      else match ((s.die die).queue q).serving with
        | some n => .next (s.serveMore die q n)
        | none => .next (s.serveFirst die q)

/-! ## Admission -/

/-- Groups of a core that have not retired. -/
def Core.liveGroups (c : Core) : List (Workgroup × Group) :=
  c.wgs.flatMap (fun w => (w.2.groups.filter (fun g => !g.retired)).map (fun g => (w.2, g)))

/-- A workgroup of a packet fits a core now (R232). -/
def State.fits (s : State) (core : Nat) (b : BitVec 512) : Bool :=
  let c := s.core core
  let live := c.liveGroups
  s.isProgramCore core &&
  decide (c.wgs.length < 16 ∧ live.length + lpGroups b ≤ 32 ∧ (live.map (·.2.quota)).sum + lpGroups b * lpQuota b ≤ 16384) &&
  decide ((c.wgs.map (·.2.scratchBytes)).sum + 1024 * lpScratch b ≤ 1024 * s.partScratch (lpPartition b)) &&
  decide ((c.wgs.map (·.2.tiles.length)).sum + lpTiles b ≤ 16) &&
  decide ((c.wgs.map (fun w => (w.2.fifos.map (·.cap)).sum)).sum + lpFifoSum b ≤ 496) &&
  decide ((c.wgs.filter (·.2.context)).length + (if lpSlice b then 1 else 0) ≤ 4)

/-- The packs of a workgroup that hold a group that has not retired, by number (R162). -/
def Workgroup.livePacks (w : Workgroup) : List Nat :=
  (upto 0 w.home.length).filter (fun p =>
    (w.groups.drop (p * (64 / w.width))).take (64 / w.width) |>.any (fun g => !g.retired))

/-- Packs resident at each issue slot of a core. -/
def Core.packsAt (c : Core) (slot : Nat) : Nat :=
  (c.wgs.map (fun w => (w.2.livePacks.filter (fun p => decide (w.2.home.getD p 4 = slot))).length)).sum

/-- Home slots for n packs in turn, each at the slot with the fewest (R235); `l` holds the counts. -/
def homeSlots : Nat → List Nat → List Nat
  | 0, _ => []
  | n + 1, l =>
    let k := ((upto 0 4).foldl (fun m i => if l.getD i 0 < l.getD m 0 then i else m) 0)
    k :: homeSlots n (lmod l k (· + 1))

/-- The first slot of a core with no workgroup. -/
def Core.freeSlot (c : Core) : Nat := ((upto 0 16).find? (fun n => (tget c.wgs n).isNone)).getD 0

/-- Admit a workgroup to a core (R233): everything it requests at once, and its groups start. -/
def State.takeIn (s : State) (core n : Nat) (p : Packet) (ix : Nat) : State :=
  let c := s.core core
  let u := s.fresh
  let ctx := u.2.freeCtx
  let home := homeSlots (packCount (lpGroups p.bits) (lpWidth p.bits)) ((upto 0 4).map c.packsAt)
  let w := Workgroup.start u.1 n p.bits p.source p.tree p.depth p.asid ctx (saveArea ctx) ix (lpNbar p.bits) home p.records
  let s := u.2.modCore core (fun x => { x with wgs := tset x.wgs x.freeSlot w })
  let s := s.modPkg (fun k => { k with ctxids := ctx :: k.ctxids })
  s.modDie (coreDie core) (fun d => { d with packets := tset d.packets n { p with dispatched := p.dispatched + 1 } })

/-- The core of a cluster that would admit a workgroup of a packet: the first that it fits, one that is not hot for choice (R233, R510). (DESIGN
CHOICE, log entry 83.) -/
def State.coreFor (s : State) (cluster : Nat) (b : BitVec 512) : Option Nat :=
  (prefer (fun c => !s.hotCore c) ((clusterCores cluster).filter (fun c => s.fits c b))).head?

/-- The first workgroup of a list that a core of a cluster can take, with its packet and the core. -/
def State.admissible (s : State) (cluster : Nat) : List Assigned → Option (Assigned × Packet × Nat)
  | [] => none
  | a :: t => match tget (s.die (cluster / 24)).packets a.packet with
    | none => s.admissible cluster t
    | some p => match s.coreFor cluster p.bits with
      | none => s.admissible cluster t
      | some c => some (a, p, c)

/-- WORKGROUP_ADMISSION: the first workgroup of a cluster's queue that fits a core is admitted to it (R233, R344). (DESIGN CHOICE, log entry 83.) -/
def execWorkgroupAdmission (cluster : Nat) (s : State) : Host.Outcome State Fault Refusal :=
  if 96 ≤ cluster then .next s
  else match s.admissible cluster (s.cluster cluster).queue with
    | none => .next s
    | some (a, p, c) =>
      .next ((s.modCluster cluster (fun k => { k with queue := k.queue.filter (fun y => decide (y ≠ a)) })).takeIn c a.packet p a.index)

/-- A workgroup's asynchronous work has finished, and every group has retired (R234). -/
def Workgroup.ended (w : Workgroup) : Bool :=
  w.groups.all (·.retired) && w.ops.all (·.done) && w.copies.isEmpty && !w.slice.running

/-- SLOT_RETURN: the slot of a workgroup that is over is free (R234). -/
def execSlotReturn (core wg : Nat) (s : State) : Host.Outcome State Fault Refusal :=
  match s.wg core wg with
  | none => .next s
  | some w =>
    if w.ended then
      .next ((s.modCore core (fun c => { c with wgs := tdel c.wgs wg })).modPkg
        (fun p => { p with ctxids := p.ctxids.filter (fun x => decide (x ≠ w.ctxid)) }))
    else .next s

/-! ## Donation -/

/-- Quadrant of a cluster site (R361). -/
def quadrantOf (k : Nat) : Nat := k % 24 / 4

/-- The clusters that a cluster asks, in order (R344): those of its quadrant, then the others of its die. -/
def askOrder (k : Nat) : List Nat :=
  let ks := (upto (k / 24 * 24) 24).filter (fun j => decide (j ≠ k))
  ks.filter (fun j => decide (quadrantOf j = quadrantOf k)) ++ ks.filter (fun j => decide (quadrantOf j ≠ quadrantOf k))

/-- What a donor gives (R344): of the workgroups of its highest priority, up to half, rounded up, from the end; never those whose
packet forbids it. -/
def donated (l : List Assigned) : List Assigned :=
  match l with
  | [] => []
  | a :: _ =>
    let top := l.filter (fun x => decide (x.prio = a.prio))
    let may := top.filter (fun x => !x.noDonate)
    may.drop (may.length - Nat.min may.length ((top.length + 1) / 2))

/-- Two clusters belong to one live partition. -/
def State.samePart (s : State) (j k : Nat) : Bool :=
  s.pkg.parts.any (fun p => p.2.live && p.2.clusters.getLsbD j && p.2.clusters.getLsbD k)

/-- The donor that answers a cluster, with what it gives (R344). -/
def State.donor (s : State) (k : Nat) : Option (Nat × List Assigned) :=
  (askOrder k).findSome? (fun j =>
    let g := (donated (s.cluster j).queue).take (64 - (s.cluster k).queue.length)
    if s.samePart j k = true ∧ (s.admissible k g).isSome = true then some (j, g) else none)

/-- The packet that a ready source of a die serves next. -/
def State.sourcePacket (s : State) (d q : Nat) : Option (BitVec 512) :=
  if q = 256 then (s.die d).launches.head?.map (·.template) else (s.headPacket d q).toOption

/-- The front end supplies a workgroup that a cluster of the packet's partition can take (R344). -/
def State.frontSupplies (s : State) (k : Nat) : Bool :=
  (s.readySources (k / 24)).any (fun r => match s.sourcePacket (k / 24) r.1 with
    | none => false
    | some b => ((s.partOfCluster k).map (·.1) == some (lpPartition b)) && (s.coreFor k b).isSome)

/-- A cluster asks for work (R344): neither its own queue nor the front end supplies a workgroup that it can take, and a donor does. -/
def State.asks (s : State) (k : Nat) : Bool := (s.donor k).isSome && (s.admissible k (s.cluster k).queue).isNone && !s.frontSupplies k

/-- DONATION_REQUEST: a cluster that asks takes unstarted workgroups from a donor (R344). -/
def execDonationRequest (cluster : Nat) (s : State) : Host.Outcome State Fault Refusal :=
  if 96 ≤ cluster then .next s
  else if s.asks cluster = false then .next s
  else match s.donor cluster with
    | none => .next s
    | some (j, g) =>
      .next ((s.modCluster j (fun c => { c with queue := c.queue.filter (fun a => !g.contains a) })).modCluster cluster
        (fun c => { c with queue := g.foldl (fun l a => addAssigned a l) c.queue }))

end Sys2Proof.Machine
end

