-- ==== Sys2Proof/Machine/ClusterOps.lean ====
section
/-!
DEFINITION. Network barriers (R333 to R338) and range descriptors (R340 to R343).
-/
namespace Sys2Proof.Machine

/-! ## Network barriers -/

/-- Barrier b of a packet. -/
def Packet.nbar (p : Packet) (b : Nat) : Option NetBar := p.nbars[b]?

/-- The network barrier that a workgroup's word names (R333, R334): none at or above the bound count. -/
def State.netBar (s : State) (core : Nat) (w : Workgroup) (b : Nat) : Option NetBar :=
  if w.nbar ≤ b then none else (tget (s.die (coreDie core)).packets w.packet).bind (·.nbar b)

/-- The state with a network barrier of a packet replaced. -/
def State.setNetBar (s : State) (d n b : Nat) (x : NetBar) : State :=
  match tget (s.die d).packets n with
  | none => s
  | some p => s.modDie d (fun y => { y with packets := tset y.packets n { p with nbars := lset p.nbars b x } })

/-- `advance` (R335). -/
def NetBar.advance (x : NetBar) : NetBar :=
  let g := x.gen + 1
  let n := x.next + tgetD x.joins g.toNat 0
  { gen := g, expected := n, arrived := 0, next := n, joins := tdel x.joins g.toNat }

/-- An arrival of k (R335): the barrier and whether it advanced; none when it overruns. -/
def NetBar.arrive (x : NetBar) (k : Nat) (drop : Bool) : Option (NetBar × Bool) :=
  if x.expected - x.arrived < k ∨ (drop = true ∧ x.next < k) then none
  else
    let y := { x with arrived := x.arrived + k, next := if drop then x.next - k else x.next }
    if y.arrived = y.expected ∧ 0 < k then some (y.advance, true) else some (y, false)

/-- NBARSET (R335): the barrier, when the join is accepted. -/
def NetBar.join (x : NetBar) (n g : Nat) : Option NetBar :=
  let delta := (g + 65536 - x.gen.toNat) % 65536
  if 32768 ≤ delta then none
  else if delta = 0 then
    if 65535 < x.expected + n then none else some { x with expected := x.expected + n, next := x.next + n }
  else if (8 ≤ x.joins.length ∧ (tget x.joins g).isNone) ∨ 65535 < x.next + n then none
  else some { x with joins := tset x.joins g (tgetD x.joins g 0 + n) }

/-- Test items for every NBARWAIT on barrier b of a packet of a die (R335). -/
def State.nbarWakes (s : State) (d n b : Nat) : List Item :=
  (s.cores.filter (fun c => decide (coreDie c.1 = d))).flatMap (fun c => c.2.wgs.flatMap (fun w =>
    if w.2.packet ≠ n then []
    else (lmapIdx (fun g (x : Group) => x.waits.filterMap (fun y => match y.kind with
      | .nbar i _ _ => if i = b then some (Item.wake c.1 w.1 g y.id) else none
      | _ => none)) 0 w.2.groups).flatten))

/-- ACCESS or BAR_OVERRUN at a barrier index (R334, R335). -/
def Ctx.nbarTrap (c : Ctx) (x : Cause) (b : Nat) : Trap := ⟨x, c.mask, BitVec.ofNat 64 b⟩

/-- NBARRIVE, once for the group (R335). -/
def nbarriveGroup (d a b : Nat) (drop : Bool) (c : Ctx) (u : Uses) (s : State) : Did :=
  match c.lowP32 a with
  | none => .trap c.shapeTrap false s
  | some v => match s.netBar c.core c.wg b with
    | none => c.commit u { Out.v d .p32 [] with err := some (c.nbarTrap .access b) } s .done
    | some x => match x.arrive (v.toNat % 2 ^ 16) drop with
      | none => c.commit u { Out.v d .p32 [] with err := some (c.nbarTrap .barOverrun b) } s .done
      | some (y, adv) => c.commit u (Out.v d .p32 (c.all (x.gen.setWidth 128))) s (fun s =>
          let s := s.setNetBar (coreDie c.core) c.wg.packet b y
          .done (if adv then s.next (s.nbarWakes (coreDie c.core) c.wg.packet b) else s))

/-- NBARRIVE (R335). -/
def execNbarrive (c d a k : Nat) (s : State) : Host.Outcome State Fault Refusal :=
  groupWord (uX .m c [.v a] [.v d]) s (nbarriveGroup d a k false)

/-- NBARRIVE.DROP (R335). -/
def execNbarriveDrop (c d a k : Nat) (s : State) : Host.Outcome State Fault Refusal :=
  groupWord (uX .m c [.v a] [.v d]) s (nbarriveGroup d a k true)

/-- NBARWAIT (R336): a bound of 0 is tested at the end of this cycle. -/
def execNbarwait (c q a e k : Nat) (s : State) : Host.Outcome State Fault Refusal :=
  groupWord (uX .m c [.v a, .v e] [.q q]) s (fun x u s => match x.lowP32 a, x.lowP32 e with
    | some t, some bound => match s.netBar x.core x.wg k with
      | none => .trap (x.nbarTrap .access k) false s
      | some b =>
        if b.gen.toNat ≠ t.toNat % 2 ^ 16 then x.commit u (Out.q q (x.allQ .t)) s .done
        else
          let f := s.fresh
          let till := boundAt s.cycle bound.toNat
          let s := if till = some s.cycle then
              { f.2 with agenda := f.2.agenda ++ [.event (.nbarwaitBoundExpiry x.core x.who.wg x.who.grp f.1)] } else f.2
          .sleep s (x.waitFor f.1 (.nbar k (t.toNat % 2 ^ 16) till) none .p32 (some q))
    | _, _ => .trap x.shapeTrap false s)

/-- NBARSET (R335). -/
def execNbarset (c q a b k : Nat) (s : State) : Host.Outcome State Fault Refusal :=
  groupWord (uX .m c [.v a, .v b] [.q q]) s (fun x u s => match x.lowP32 a, x.lowP32 b with
    | some n, some g => match s.netBar x.core x.wg k with
      | none => .trap (x.nbarTrap .access k) false s
      | some y => match y.join (n.toNat % 2 ^ 16) (g.toNat % 2 ^ 16) with
        | none => x.commit u (Out.q q (x.allQ .f)) s .done
        | some z => x.commit u (Out.q q (x.allQ .t)) s (fun s => .done (s.setNetBar (coreDie x.core) x.wg.packet k z))
    | _, _ => .trap x.shapeTrap false s)

/-! ## Range descriptors -/

/-- Descriptor i of a cluster (R340). -/
def Cluster.range (k : Cluster) (i : Nat) : RangeDesc := tgetD k.ranges i ⟨0, 0, 0, 0, 0⟩

/-- A grab: how many indices, and the descriptor afterwards (R342). -/
def RangeDesc.grab (r : RangeDesc) (asid : Nat) : Nat × RangeDesc :=
  if r.asid ≠ asid ∨ r.fin.toNat ≤ r.next.toNat then (0, r)
  else
    let rem := r.fin.toNat - r.next.toNat
    let div := Nat.max r.div.toNat 1
    let n := Nat.min rem (Nat.max (Nat.max r.min.toNat 1) ((rem + div - 1) / div))
    (n, { r with next := r.next + BitVec.ofNat 32 n })

/-- RGRAB (R342). -/
def execRgrab (c d i : Nat) (s : State) : Host.Outcome State Fault Refusal :=
  groupWord (uX .c c [] [.v d]) s (fun x u s =>
    let k := coreCluster x.core
    let r := (s.cluster k).range i
    let g := r.grab x.wg.asid
    x.commit u (Out.v d .p64 (x.all (elemN (g.1 * 2 ^ 32 + r.next.toNat)))) s (fun s => .done
      ((s.modCluster k (fun y => { y with ranges := tset y.ranges i g.2 })).modCurWg (fun w => { w with grabbed := true }))))

/-- RGRAB.SET (R342). -/
def execRgrabSet (c a b i : Nat) (s : State) : Host.Outcome State Fault Refusal :=
  groupWord (uX .c c [.v a, .v b] []) s (fun x u s => match x.lowP64 a, x.lowP32 b with
    | some p, some v =>
      let r : RangeDesc := { fin := (p >>> 32).setWidth 32, next := p.setWidth 32, asid := x.wg.asid, min := (v >>> 16).setWidth 16,
                             div := v.setWidth 16 }
      x.plain u s (fun s => .done ((s.modCluster (coreCluster x.core) (fun y => { y with ranges := tset y.ranges i r })).modCurWg
        (fun w => { w with grabbed := true })))
    | _, _ => .trap x.shapeTrap false s)

end Sys2Proof.Machine
end

