-- ==== Sys2Proof/Machine/Wake.lean ====
section
/-!
DEFINITION. The tests of sleeping words (R166, R204, R215, R247, R256, R304, R308, R309, R314, R336): what each waits for, and what it does
when that has come; with the events that end a sleep or a bound.
-/
namespace Sys2Proof.Machine

/-- A queue word of a group retries (R308, R309): it keeps its place while it must wait, and what it does wakes others. -/
def State.wakeQueue (s : State) (c w g : Nat) (k : Workgroup) (x : Wait) (n : Nat) (push : Option W64) : State :=
  let trap : Trap := ⟨.queueFault, x.mask, BitVec.ofNat 64 (scratchBase + queueAt n)⟩
  if queueOk k n = false then (s.modWg c w (fun y => queueMark y n g push.isSome false)).faultWait c w g x trap false
  else match push with
    | some v =>
      if queueLen k n = queueCap k n then s
      else (s.completeWait c w g x [] none).bankOp c w n (fun y => queueMark (queuePush y n v) n g true false)
    | none =>
      if queueLen k n = 0 then s
      else match s.wakeTrap c w g x with
        | some t => (s.modWg c w (fun y => queueMark y n g false false)).faultWait c w g x t false
        | none => (s.completeWait c w g x (x.all (queueFront k n)) none).bankOp c w n (fun y => queueMark (queuePop y n) n g false false)

/-- A BARWAIT tests (R314): `last` is the test at its bound. -/
def State.wakeBar (s : State) (c w g : Nat) (k : Workgroup) (x : Wait) (off token : Nat) (last : Bool) : State :=
  let moved := decide ((k.bar off).phase ≠ token)
  if moved || last then
    (s.modWg c w (fun y => y.setBar off { y.bar off with waiters := (y.bar off).waiters - 1 })).completeWait c w g x [] (some (Tri.ofBool moved))
  else s

/-- An NBARWAIT tests (R336). -/
def State.wakeNbar (s : State) (c w g : Nat) (k : Workgroup) (x : Wait) (i token : Nat) (last : Bool) : State :=
  let moved := match s.netBar c k i with
    | none => false
    | some b => decide (b.gen.toNat ≠ token)
  if moved || last then s.completeWait c w g x [] (some (Tri.ofBool moved)) else s

/-- An SWWAIT tests (R303, R304): a recorded copy fault of its sync word is raised first. -/
def State.wakeSync (s : State) (c w g : Nat) (k : Workgroup) (x : Wait) (off gen : Nat) : State :=
  match (k.group g).bind (·.copyFaultAt off) with
  | some t => (s.modGroup c w g (fun y => { y with copyFault := none })).faultWait c w g x t true
  | none => if syncGen (k.word off) ≠ gen then s.completeWait c w g x [] none else s

/-- An MWAIT tests (R215): a recorded fault of its tile is raised first. -/
def State.wakeTile (s : State) (c w g : Nat) (k : Workgroup) (x : Wait) (t lim : Nat) : State :=
  match (k.group g).bind (·.tileFaultOn t) with
  | some f => (s.modGroup c w g (fun y => { y with tileFault := none })).faultWait c w g x f true
  | none => if k.tileQuiet t lim then (s.coverOps c w t lim).completeWait c w g x [] none else s

/-- An AWAIT tests (R256). -/
def State.wakeAwait (s : State) (c w g : Nat) (k : Workgroup) (x : Wait) : State :=
  if k.slice.running then s
  else match k.slice.result with
    | .error t => (s.modWg c w (fun y => { y with slice := y.slice.deliver })).faultWait c w g x ⟨t.1, x.mask, t.2⟩ true
    | .ok v => s.completeWait c w g x [] (some v)

/-- A queue word of a slice retries. -/
def State.wakeSlice (s : State) (c w : Nat) (k : Workgroup) (x : Wait) : State :=
  let own := BitVec.ofNat 64 (4 * x.pc)
  match x.kind with
  | .push n v =>
    if queueOk k n = false then (s.modWg c w (fun y => queueMark y n 16 true false)).faultSlice c w .queueFault own
    else if queueLen k n = queueCap k n then s
    else (s.completeSlice c w x 0).bankOp c w n (fun y => queueMark (queuePush y n v) n 16 true false)
  | .pop n =>
    if queueOk k n = false then (s.modWg c w (fun y => queueMark y n 16 false false)).faultSlice c w .queueFault own
    else if queueLen k n = 0 then s
    else (s.completeSlice c w x (queueFront k n)).bankOp c w n (fun y => queueMark (queuePop y n) n 16 false false)
  | _ => s

/-- Test a sleeping word's condition; it stays asleep when that has not come, or while its path is frozen (R260). -/
def State.wake (s : State) (c w g id : Nat) : State :=
  match s.wg c w with
  | none => s
  | some k =>
    if g = 16 then match k.slice.wait with
      | none => s
      | some x => if x.id = id then s.wakeSlice c w k x else s
    else match s.waitReady c w g id with
      | none => s
      | some x => match x.kind with
        | .sleep till => if till ≤ s.cycle then s.completeWait c w g x [] none else s
        | .push n v => s.wakeQueue c w g k x n (some v)
        | .pop n => s.wakeQueue c w g k x n none
        | .sync off gen => s.wakeSync c w g k x off gen
        | .bar off token d => s.wakeBar c w g k x off token (d.any (fun t => decide (t < s.cycle)))
        | .nbar i token d => s.wakeNbar c w g k x i token (d.any (fun t => decide (t < s.cycle)))
        | .tile t lim => s.wakeTile c w g k x t lim
        | .slice => s.wakeAwait c w g k x
        | .images _ _ _ _ => s.wakeImages c w g x
        | .answered q none => s.completeWait c w g x [] q
        | .answered _ (some f) => s.faultWait c w g x ⟨f.1, x.mask, f.2⟩ false
        | .rest => s.wakeRest c w g x
        | .reply _ => s
        | .cwait _ => s

/-- SLEEP_EXPIRY: a SLEEP whose cycle has come ends (R247). -/
def execSleepExpiry (core wg grp id : Nat) (s : State) : Host.Outcome State Fault Refusal :=
  match s.waitReady core wg grp id with
  | none => .next s
  | some x => match x.kind with
    | .sleep till => if till ≤ s.cycle then .next (s.completeWait core wg grp x [] none) else .next s
    | _ => .next s

/-- BARWAIT_BOUND_EXPIRY: the test in cycle i + bound (R314). -/
def execBarwaitBoundExpiry (core wg grp id : Nat) (s : State) : Host.Outcome State Fault Refusal :=
  match s.wg core wg with
  | none => .next s
  | some k => match s.waitReady core wg grp id with
    | none => .next s
    | some x => match x.kind with
      | .bar off token (some d) => .next (s.wakeBar core wg grp k x off token (decide (d ≤ s.cycle)))
      | _ => .next s

/-- NBARWAIT_BOUND_EXPIRY: the test in cycle i + bound (R336). -/
def execNbarwaitBoundExpiry (core wg grp id : Nat) (s : State) : Host.Outcome State Fault Refusal :=
  match s.wg core wg with
  | none => .next s
  | some k => match s.waitReady core wg grp id with
    | none => .next s
    | some x => match x.kind with
      | .nbar i token (some d) => .next (s.wakeNbar core wg grp k x i token (decide (d ≤ s.cycle)))
      | _ => .next s

end Sys2Proof.Machine
end

