-- ==== Sys2Proof/Machine/Schedule.lean ====
section
/-!
DEFINITION. Which chains issue in a cycle: paths, eligibility and choice (R166 to R171, R180), issue opportunities and shared pipes (R236,
R237), issue duty (R238, R239, R505); and the completion of outstanding register writes (R33).
-/
namespace Sys2Proof.Machine

/-! ## Paths -/

/-- A path of a pack (R166): workgroup slot, pack, program counter, repeat step, its lanes by group, its age, whether it is forced (R169)
and yielding (R180), whether its next chain may issue, and the classes of its words. -/
structure Path where
  wg : Nat
  pack : Nat
  pc : Nat
  step : Option Nat
  lanes : List (Nat × List Nat)
  age : Nat
  forced : Bool
  yielding : Bool
  ready : Bool
  cls : List Cls
  deriving DecidableEq, Repr

/-- The lanes of a group that belong to paths (R166, R260): not exited, not waiting at a JOIN, not asleep, not held. -/
def Group.awake (g : Group) : List Nat :=
  if g.retired || g.queueBlocked then []
  else g.liveLanes.filter (fun l => (g.lane l).waiting.isNone && !(g.lane l).held && !g.waits.any (fun w => w.mask.getLsbD l))

/-- What the lanes of a path share (R48, R166): program counter and repeat step. -/
def Lane.key (l : Lane) : Nat × Option Nat := (l.pc, l.rep.map (·.idx))

/-- The groups of a pack (R162). -/
def Workgroup.packGroups (w : Workgroup) (p : Nat) : List Nat :=
  (upto (p * (64 / w.width)) (64 / w.width)).filter (fun g => decide (g < w.groups.length))

/-- The lanes of a pack with a key, by group. -/
def Workgroup.lanesAt (w : Workgroup) (p : Nat) (key : Nat × Option Nat) : List (Nat × List Nat) :=
  (w.packGroups p).filterMap (fun g => match w.group g with
    | none => none
    | some x =>
      let ls := x.awake.filter (fun l => decide ((x.lane l).key = key))
      if ls = [] then none else some (g, ls))

/-- The keys of a pack's paths. -/
def Workgroup.keys (w : Workgroup) (p : Nat) : List (Nat × Option Nat) :=
  ((w.packGroups p).flatMap (fun g => match w.group g with
    | none => []
    | some x => x.awake.map (fun l => (x.lane l).key))).eraseDups

/-- The lanes of a path as the machine holds them. -/
def Workgroup.laneList (w : Workgroup) (ls : List (Nat × List Nat)) : List Lane :=
  ls.flatMap (fun x => match w.group x.1 with
    | none => []
    | some g => x.2.map g.lane)

/-- The paths of a pack (R166, R168), with what the probe of this cycle found of them; a path is yielding, or forced, when a lane of it is.
(DESIGN CHOICE, log entry 87.) -/
def Workgroup.paths (w : Workgroup) (slot p : Nat) (probe : List PathInfo) : List Path :=
  (w.keys p).map (fun k =>
    let ls := w.lanesAt p k
    let xs := w.laneList ls
    let seen := probe.find? (fun i => decide (i.wg = slot ∧ i.pack = p ∧ i.pc = k.1 ∧ i.step = k.2))
    { wg := slot, pack := p, pc := k.1, step := k.2, lanes := ls, age := xs.foldl (fun a l => max a l.age) 0,
      forced := xs.any (·.forced), yielding := xs.any (·.yielding), ready := (seen.map (·.ready)).getD false,
      cls := (seen.map (·.cls)).getD [] })

/-- Lanes of a path. -/
def Path.size (p : Path) : Nat := (p.lanes.map (·.2.length)).sum

/-- The lower program counter (R169): packet, slot, then step; a path that does not repeat counts as at step 0, and of two that tie the one found
first is taken. (DESIGN CHOICE, log entry 86.) -/
def Path.below (p q : Path) : Bool := decide (p.pc < q.pc) || (decide (p.pc = q.pc) && decide (p.step.getD 0 < q.step.getD 0))

/-- The order of the first choice (R169 step 1): most lanes, greater age, lower program counter. -/
def Path.betterBy (p q : Path) : Bool :=
  decide (q.size < p.size) || (decide (q.size = p.size) && (decide (q.age < p.age) || (decide (q.age = p.age) && p.below q)))

/-- The order of age (R169 steps 2 and 4): greatest age, lower program counter. -/
def Path.olderThan (p q : Path) : Bool := decide (q.age < p.age) || (decide (q.age = p.age) && p.below q)

/-- The first and second choices among eligible paths, before the sharing check, and whether the first is forced (R169). (DEDUCED, log entry 42.) -/
def pathChoice (ps : List Path) : Option (Path × Option Path × Bool) :=
  let forced := ps.filter (fun p => p.forced && decide (64 ≤ p.age))
  let first := match lmin Path.olderThan forced with
    | some p => some (p, true)
    | none => (lmin Path.betterBy ps).map (fun p => (p, false))
  match first with
  | none => none
  | some (p, f) =>
    let rest := ps.filter (fun q => decide (q ≠ p))
    let old := rest.filter (fun q => decide (64 ≤ q.age))
    let second := match lmin Path.olderThan old with
      | some q => some q
      | none => lmin Path.betterBy rest
    some (p, second, f)

/-! ## Pipes -/

/-- The core's shared pipes that a chain needs (R26, R237). (DEDUCED, log entry 41.) -/
def sharedPipes (cls : List Cls) : List Cls := cls.filter (fun k => decide (k = .m ∨ k = .x ∨ k = .c))

/-- The second choice passes the sharing check (R170). -/
def sharesWith (p q : Path) : Bool := (sharedPipes q.cls).all (fun k => !(sharedPipes p.cls).contains k)

/-- Class-A words of a chain. -/
def aWords (cls : List Cls) : Nat := (cls.filter (fun k => decide (k = .a ∨ k = .a6))).length

/-- The slot's A-pipes and SFU pipe that a chain needs are free (R28, R167). (DEDUCED, log entry 40.) -/
def pipesFree (now : Nat) (busy : Nat × Nat × Nat) (cls : List Cls) : Bool :=
  decide (aWords cls ≤ (if busy.1 ≤ now then 1 else 0) + (if busy.2.1 ≤ now then 1 else 0)) &&
  (!cls.contains .f || decide (busy.2.2 ≤ now))

/-- Lanes that the n-th class-A words of chains occupy. -/
def aLanes (ps : List Path) (n : Nat) : Nat := ((ps.filter (fun p => decide (n < aWords p.cls))).map Path.size).sum

/-- The pipes of a slot after chains have issued (R1, R28): an A-pipe takes 32 lanes a cycle, the SFU pipe 16. (DEDUCED, log entry 40.) -/
def occupy (now : Nat) (busy : Nat × Nat × Nat) (ps : List Path) : Nat × Nat × Nat :=
  let till := fun (n : Nat) => now + (aLanes ps n + 31) / 32
  let f := ((ps.filter (fun p => p.cls.contains .f)).map Path.size).sum
  let sfu := if f = 0 then busy.2.2 else now + (f + 15) / 16
  if aLanes ps 0 = 0 then (busy.1, busy.2.1, sfu)
  else if busy.1 ≤ now then (till 0, if aLanes ps 1 = 0 then busy.2.1 else till 1, sfu)
  else (busy.1, till 0, sfu)

/-! ## The opportunity of a slot -/

/-- What a slot's opportunity offers (R236): the pack served, its paths, those that are eligible, and its choices. -/
structure Offer where
  slot : Nat
  wg : Nat
  pack : Nat
  paths : List Path
  eligible : List Path
  first : Option Path
  second : Option Path
  forced : Bool
  deriving DecidableEq, Repr

/-- A path is eligible (R167). -/
def State.eligible (s : State) (core slot : Nat) (p : Path) : Bool :=
  match s.wg core p.wg with
  | none => false
  | some w => p.ready && !p.yielding && (w.laneList p.lanes).all (fun l => decide (l.earliest ≤ s.cycle)) &&
      pipesFree s.cycle ((s.core core).pipes.getD slot (0, 0, 0)) p.cls

/-- The packs of a core at a slot, ascending, as workgroup slot × 16 + pack; a workgroup that is being pre-empted issues nothing (R263). -/
def Core.packsOf (c : Core) (slot : Nat) : List (Nat × Nat) :=
  c.wgs.flatMap (fun w => if w.2.preempting then [] else
    (w.2.livePacks.filter (fun p => decide (w.2.home.getD p 4 = slot))).map (fun p => (w.1, p)))

/-- Packs in the order in which a slot looks at them: after the one it served last, and round (R236). -/
def rotatePacks (last : Option Nat) (ps : List (Nat × Nat)) : List (Nat × Nat) :=
  match last with
  | none => ps
  | some n => ps.filter (fun p => decide (n < 16 * p.1 + p.2)) ++ ps.filter (fun p => decide (16 * p.1 + p.2 ≤ n))

/-- The opportunity of a slot (R236): the first pack with an eligible or a yielding path. -/
def State.offerOf (s : State) (core slot : Nat) : Option Offer :=
  let c := s.core core
  (rotatePacks (c.served.getD slot none) (c.packsOf slot)).findSome? (fun k => match s.wg core k.1 with
    | none => none
    | some w =>
      let ps := w.paths k.1 k.2 c.probe
      let el := ps.filter (s.eligible core slot)
      if el = [] ∧ ps.any (·.yielding) = false then none
      else
        let ch := pathChoice el
        some { slot := slot, wg := k.1, pack := k.2, paths := ps, eligible := el, first := ch.map (·.1),
               second := match ch with
                 | some (p, some q, _) => if sharesWith p q then some q else none
                 | _ => none,
               forced := (ch.map (·.2.2)).getD false })

/-! ## Grants of shared pipes -/

/-- A slice that would issue: workgroup slot, context number, refusals, the pipe its word needs. -/
structure SliceOffer where
  wg : Nat
  ctx : Nat
  refusals : Nat
  cls : List Cls
  deriving DecidableEq, Repr

/-- Access contexts of a core by number: a workgroup that holds one has the number of those before it (the model's numbering).
(DESIGN CHOICE, log entry 38.) -/
def Core.contextOf (c : Core) (wg : Nat) : Nat := (c.wgs.filter (fun w => w.2.context && decide (w.1 < wg))).length

/-- The running slices that would issue a word (R251). (DEDUCED, log entry 41.) -/
def State.sliceOffers (s : State) (core : Nat) : List SliceOffer :=
  let c := s.core core
  c.wgs.filterMap (fun w => match c.probe.find? (fun i => decide (i.wg = w.1 ∧ i.pack = 16 ∧ i.pc = w.2.slice.pc)) with
    | none => none
    | some i =>
      if w.2.slice.live && w.2.slice.push.isNone && w.2.slice.wait.isNone && !w.2.preempting && i.ready then
        some { wg := w.1, ctx := c.contextOf w.1, refusals := w.2.slice.refusals, cls := i.cls }
      else none)

/-- Slices of one rank in turn (R237): ascending context number after the one granted last. (DESIGN CHOICE, log entry 38.) -/
def rotateSlices (last : Option Nat) (l : List SliceOffer) : List SliceOffer :=
  let k := fun (x : SliceOffer) => match last with
    | none => x.ctx
    | some n => (x.ctx + 3 - n % 4) % 4
  lsort (fun x y => decide (k x < k y)) l

/-- What has been granted so far in a cycle (R237): pipes, slots whose first choice and whose second choice issue, the slots whose first
choice took a shared pipe in turn, slices that issue and that were refused the MEM pipe, and the context granted last. -/
structure Grants where
  pipes : List Cls
  first : List Nat
  second : List Nat
  moved : List Nat
  slices : List Nat
  refused : List Nat
  last : Option Nat
  deriving DecidableEq, Repr

/-- The pipes of a chain are all free, and are taken. -/
def Grants.take (g : Grants) (cls : List Cls) : Option Grants :=
  let need := sharedPipes cls
  if need.all (fun k => !g.pipes.contains k) then some { g with pipes := g.pipes ++ need } else none

/-- A first-choice chain is considered. -/
def Grants.askFirst (g : Grants) (slot : Nat) (p : Path) : Grants :=
  match g.take p.cls with
  | none => g
  | some h => { h with first := h.first ++ [slot], moved := if sharedPipes p.cls = [] then h.moved else h.moved ++ [slot] }

/-- A second-choice chain is considered: after its own first choice has been granted. -/
def Grants.askSecond (g : Grants) (slot : Nat) (p : Path) : Grants :=
  if g.first.contains slot then match g.take p.cls with
    | none => g
    | some h => { h with second := h.second ++ [slot] }
  else g

/-- A slice is considered; a refusal of the MEM pipe is noted. -/
def Grants.askSlice (g : Grants) (x : SliceOffer) : Grants :=
  match g.take x.cls with
  | none => if x.cls.contains .m && g.pipes.contains .m then { g with refused := g.refused ++ [x.wg] } else g
  | some h => { h with slices := h.slices ++ [x.wg], last := if sharedPipes x.cls = [] then h.last else some x.ctx }

/-- The grants of a cycle (R237). -/
def grantsOf (order : List Nat) (last : Option Nat) (offers : List Offer) (slices : List SliceOffer) : Grants :=
  let at_ := fun (n : Nat) => offers.find? (fun o => o.slot = n)
  let firsts := fun (f : Bool) => order.filterMap (fun n => match at_ n with
    | none => none
    | some o => if o.forced = f then o.first.map (fun p => (n, p)) else none)
  let seconds := order.filterMap (fun n => match at_ n with
    | none => none
    | some o => o.second.map (fun p => (n, p)))
  let late := fun (b : Bool) => rotateSlices last (slices.filter (fun x => decide (16 ≤ x.refusals) == b))
  let g : Grants := ⟨[], [], [], [], [], [], last⟩
  let g := (firsts true).foldl (fun g x => g.askFirst x.1 x.2) g
  let g := (late true).foldl Grants.askSlice g
  let g := (firsts false).foldl (fun g x => g.askFirst x.1 x.2) g
  let g := seconds.foldl (fun g x => g.askSecond x.1 x.2) g
  (late false).foldl Grants.askSlice g

/-! ## Issue -/

/-- The chains of a path, one for each of its groups. (DEDUCED, log entry 70.) -/
def State.chainsOf (s : State) (core : Nat) (w : Workgroup) (p : Path) : List (Nat × Item) :=
  p.lanes.map (fun x => (16 * p.wg + x.1, .chain ⟨⟨core, p.wg, w.uid, x.1⟩, listMask x.2, p.pc, s.group core p.wg x.1, 0, true, false, [], false⟩))

/-- A lane of a path after its pack's opportunity (R168, R169 step 4): `issued` for a path that issues, `elig` for one that was eligible;
`age` is the path's, the greatest of its lanes', which all of them take. (DEDUCED, log entry 42.) -/
def Lane.opportunity (issued elig : Bool) (age : Nat) (l : Lane) : Lane :=
  if issued then { l with age := 0, forced := false }
  else { l with age := if elig then age + 1 else age, forced := l.forced || decide (64 ≤ age) }

/-- The lanes of a pack after its opportunity: ages, forced choices, and its yields end (R168, R169, R180). -/
def State.ageLanes (s : State) (core : Nat) (o : Offer) (issued : List Path) : State :=
  let s := o.paths.foldl (fun s p => p.lanes.foldl (fun s x =>
    s.modGroup core p.wg x.1 (fun g => g.modLanes x.2 (Lane.opportunity (issued.contains p) (o.eligible.contains p) p.age))) s) s
  s.modWg core o.wg (fun w => { w with groups := lmapIdx (fun n (g : Group) =>
    if (w.packGroups o.pack).contains n then { g with lanes := g.lanes.map (fun l => { l with yielding := false }) } else g) 0 w.groups })

/-- The paths that an offer issues under the grants. -/
def Offer.issued (o : Offer) (g : Grants) : List Path :=
  (if g.first.contains o.slot then o.first.toList else []) ++ (if g.second.contains o.slot then o.second.toList else [])

/-- A workgroup after its slice issued, was refused the MEM pipe, or neither (R237). -/
def Workgroup.countRefusal (w : Workgroup) (granted refused : Bool) : Workgroup :=
  let x := w.slice
  { w with slice := { x with refusals := if granted then 0 else if refused then x.refusals + 1 else x.refusals } }

/-- The slots that served a pack, the pipes and the grant order after a cycle (R28, R236, R237). -/
def Core.afterIssue (c : Core) (now : Nat) (offers : List Offer) (g : Grants) : Core :=
  { c with
    served := lmapIdx (fun n (x : Option Nat) => match offers.find? (fun o => o.slot = n) with
      | none => x
      | some o => some (16 * o.wg + o.pack)) 0 c.served,
    pipes := lmapIdx (fun n (x : Nat × Nat × Nat) => match offers.find? (fun o => o.slot = n) with
      | none => x
      | some o => occupy now x (o.issued g)) 0 c.pipes,
    grant := c.grant.filter (fun n => !g.moved.contains n) ++ g.moved,
    lastContext := g.last,
    wgs := c.wgs.map (fun w => (w.1, w.2.countRefusal (g.slices.contains w.1) (g.refused.contains w.1))),
    probe := [] }

/-- The chain of a slice: its lanes are none (R251). -/
def sliceItem (core : Nat) (wg : Nat) (w : Workgroup) : Item :=
  .chain { who := ⟨core, wg, w.uid, 16⟩, mask := 0, pc := w.slice.pc, snap := none, stall := 0, live := true, waited := false, freed := [],
           rest := false }

/-- The issue of one cycle: the chains that issue go to the head of the agenda, first choices before second, groups in ascending order
within their workgroup, slices last (R171, R172, R272). (DEDUCED, log entry 70.) -/
def State.issueCycle (s : State) (core : Nat) : State :=
  let offers := (upto 0 4).filterMap (fun n => s.offerOf core n)
  let slices := s.sliceOffers core
  let g := grantsOf (s.core core).grant (s.core core).lastContext offers slices
  let chains := offers.flatMap (fun o => match s.wg core o.wg with
    | none => []
    | some w => (o.issued g).flatMap (s.chainsOf core w))
  let its := (lsort (fun (x y : Nat × Item) => decide (x.1 < y.1)) chains).map (·.2)
  let sl := g.slices.filterMap (fun n => (s.wg core n).map (sliceItem core n))
  let s1 := offers.foldl (fun s o => s.ageLanes core o (o.issued g)) s
  let s1 := (offers.flatMap (fun o => (o.issued g).map (·.wg)) ++ g.slices).foldl (fun s n => s.chargeUnit core n) s1
  (s1.modCore core (fun c => c.afterIssue s.cycle offers g)).next (its ++ sl)

/-- The issue duty k allows a cycle (R238). -/
def dutyAllows (k c : Nat) : Bool := decide (c % 16 * k / 16 < (c % 16 + 1) * k / 16)

/-- ISSUE_OPPORTUNITY: in a cycle that the duty allows, the core's slots and slices issue (R236 to R239). -/
def execIssueOpportunity (core : Nat) (s : State) : Host.Outcome State Fault Refusal :=
  if 384 ≤ core then .next s
  else if dutyAllows (s.core core).duty s.cycle then .next (s.issueCycle core)
  else .next (s.modCore core (fun c => { c with probe := [] }))

/-! ## Duty -/

/-- The duty a core is to use (R505): the least of its partition's, its die's thermal and its die's limiter duty. -/
def State.dutyOf (s : State) (core : Nat) : Nat :=
  let d := s.die (coreDie core)
  min ((s.partOfCluster (coreCluster core)).map (·.2.k) |>.getD 16) (min d.thermalDuty d.limiterDuty)

/-- DUTY_CHANGE: a core takes a new duty at a cycle that is a multiple of 16 (R239, R505). -/
def execDutyChange (core : Nat) (s : State) : Host.Outcome State Fault Refusal :=
  if 384 ≤ core then .next s
  else if s.cycle % 16 = 0 then .next (s.modCore core (fun c => { c with duty := s.dutyOf core })) else .next s

/-! ## Results -/

/-- RESULT_WRITEBACK: an outstanding write whose cycle has come is no longer outstanding, and the frees that waited for it take effect
(R29, R31, R33, R66). (DESIGN CHOICE, log entry 5.) -/
def execResultWriteback (core wg grp id : Nat) (s : State) : Host.Outcome State Fault Refusal :=
  match s.group core wg grp with
  | none => .next s
  | some _ => .next (s.modGroup core wg grp (fun x => Group.settle { x with
      pend := x.pend.filter (fun p => !(decide (p.id = id) && p.due.any (fun t => decide (t ≤ s.cycle)))) }))

end Sys2Proof.Machine
end

