-- ==== Sys2Proof/Machine/Power.lean ====
section
/-!
DEFINITION. Partition power control, the current limiter and thermal control (R505 to R507, R510).
-/
namespace Sys2Proof.Machine

/-! ## Partitions -/

/-- Partition p, created or not. -/
def State.part (s : State) (p : Nat) : Partition := tgetD s.pkg.parts p Partition.reset

/-- The state with a partition's record changed. -/
def State.modPart (s : State) (p : Nat) (f : Partition → Partition) : State :=
  s.modPkg (fun k => { k with parts := tmod k.parts p Partition.reset f })

/-- The duty that a partition controller takes (R506): `charged` µJ in 10 µs are a power of charged / 10 W. -/
def nextDuty (cap k charged : Nat) : Nat :=
  if cap = 0 then 16
  else if cap * 10 < charged then max 1 (k - 1)
  else if charged * 16 < cap * 150 then min 16 (k + 1)
  else k

/-- A power in mW, saturating (R507), from the µJ of 10 µs. -/
def powerOf (charged : Nat) : W32 := BitVec.ofNat 32 (min (charged * 100) (2 ^ 32 - 1))

/-- A partition at the end of an interval, with `idle` µJ that no workgroup's activity accounts for (R506 to R508). -/
def Partition.interval (p : Partition) (idle : Nat) : Partition :=
  let e := p.charged + idle
  { p with nextK := nextDuty p.cap.toNat p.k e, energy := p.energy + e, power := powerOf e, charged := 0 }

/-- Cycles of a partition controller's interval (R506). -/
def powerInterval : Nat := 19000

/-- The controller's duty changes (R505). -/
def Partition.latch (p : Partition) : Partition := { p with k := p.nextK }

/-- PARTITION_POWER_INTERVAL: at the end of an interval the duty follows the cap, from the first cycle after it that is a multiple of 16
(R505, R506). -/
def execPartitionPowerInterval (part : Nat) (s : State) : Host.Outcome State Fault Refusal :=
  if 8 ≤ part then .next s
  else if s.cycle % powerInterval = 0 then .next (s.modPart part (fun p =>
      let p := p.interval (Config.idleEnergy part s.cycle)
      if s.cycle % 16 = 0 then p.latch else p))
  else .next s

/-- A write of a partition's cap (R507). -/
def State.writeCap (s : State) (part value : Nat) : State :=
  s.modPart part (fun p => { p with cap := BitVec.ofNat 12 (min (value / 2 ^ 32 % 2 ^ 12) 2400) })

/-- POWER_CAP_WRITE: word 0 of a partition's power registers is written (R507). -/
def execPowerCapWrite (part value : Nat) (s : State) : Host.Outcome State Fault Refusal :=
  if 8 ≤ part then .next s else .next (s.writeCap part value)

/-! ## The current limiter -/

/-- Telemetry kind of current-limiter events. (DESIGN CHOICE, log entry 73.) -/
def limiterKind : Nat := 9

/-- CURRENT_DROOP: the die's limiter duty is 8 for the 64 cycles from the next cycle that is a multiple of 16, and the event is counted (R505,
R507). (DEDUCED, log entry 58.) -/
def execCurrentDroop (die : Nat) (s : State) : Host.Outcome State Fault Refusal :=
  if 4 ≤ die then .next s
  else .next (((s.modDie die (fun d => { d with limiterTill := some ((s.cycle / 16 + 1) * 16 + 64) })).count limiterKind
    (sourceOf die 0xFFF)).tally (0x5E8 + die))

/-- LIMITER_RESTORE (R507). (DEDUCED, log entry 58.) -/
def execLimiterRestore (die : Nat) (s : State) : Host.Outcome State Fault Refusal :=
  if 4 ≤ die then .next s
  else if (s.die die).limiterTill.any (fun t => decide (t ≤ s.cycle)) then
    .next (s.modDie die (fun d => { d with limiterDuty := 16, limiterTill := none }))
  else .next s

/-! ## The sources of a duty -/

/-- The duties of a die that change at a cycle that is a multiple of 16 (R505): the thermal duty, and the limiter's once a droop has come. -/
def Die.latch (d : Die) (now : Nat) : Die :=
  { d with thermalDuty := d.nextThermal, limiterDuty := if d.limiterTill.any (fun t => decide (now < t)) then 8 else d.limiterDuty }

/-- At a cycle that is a multiple of 16 each source of a duty takes its new value (R505). -/
def State.latchDuties (s : State) : State :=
  if s.cycle % 16 = 0 then
    ({ s with dies := s.dies.map (fun (d : Nat × Die) => (d.1, d.2.latch s.cycle)) }).modPkg
      (fun p => { p with parts := p.parts.map (fun (x : Nat × Partition) => (x.1, x.2.latch)) })
  else s

/-! ## Thermal control -/

/-- A core takes its matrix mode from its forecast (R221, R510). (DEDUCED, log entry 60.) -/
def State.orderHalfRow (s : State) (core : Nat) (peak : Int) : State :=
  s.modCore core (fun k => { k with halfRow := decide (Config.thermalThreshold < peak) })

/-- THERMAL_FORECAST: the forecast peaks of a die's cores, by site, in m°C (R510). (DEDUCED, log entry 60.) -/
def execThermalForecast (die : Nat) (peaks : List Int) (s : State) : Host.Outcome State Fault Refusal :=
  if 4 ≤ die then .next s
  else .next ((lmapIdx (fun n p => (n, p)) 0 (peaks.take 96)).foldl (fun s x =>
    (s.modDie die (fun d => { d with forecast := tset d.forecast x.1 x.2 })).orderHalfRow (96 * die + x.1) x.2) s)

/-- The thermal duty of a die with sensor readings (R510). -/
def thermalDutyOf (duty : Nat) (sensors : Tab Int) : Nat :=
  if sensors.any (fun x => decide (110000 ≤ x.2)) then 1
  else if sensors.all (fun x => decide (x.2 < 100000)) then 16 else duty

/-- A core whose power is removed keeps its duty only. (DEDUCED, log entry 59.) -/
def Core.off (c : Core) : Core := { Core.reset with duty := c.duty }

/-- The record of a thermal trip (R510). -/
def tripRecord : JournalRec := ⟨0, false, false⟩

/-- The package removes core power (R510): nothing resident is left, what waited in clusters is gone, and the journal records the trip.
(DEDUCED, log entry 59.) -/
def State.trip (s : State) : State :=
  let s := (upto 0 4).foldl (fun s d => s.withdrawChurn d (fun _ => true)) s
  let s := { s with cores := s.cores.map (fun (c : Nat × Core) => (c.1, c.2.off)), clusters := [], cur := Issue.idle }
  s.modPkg (fun p => { p with boot := .tripped, journal := p.journal ++ [tripRecord] })

/-- A sensor of a die reads a temperature in m°C (R510): a crossing of 110 °C, or of all below 100 °C, changes the thermal duty, from the next
cycle that is a multiple of 16 (R505), and 125 °C trips. -/
def State.sense (s : State) (d n : Nat) (temp : Int) : State :=
  let s := s.modDie d (fun k =>
    let x := tset k.sensors n temp
    { k with sensors := x, nextThermal := thermalDutyOf k.nextThermal x })
  if 125000 ≤ temp then s.trip else s

/-- THERMAL_SENSOR (R510). -/
def execThermalSensor (die sensor : Nat) (temp : Int) (s : State) : Host.Outcome State Fault Refusal :=
  if 4 ≤ die ∨ 96 ≤ sensor then .next s else .next (s.sense die sensor temp)

/-- THERMAL_TRIP (R510). -/
def execThermalTrip (die : Nat) (s : State) : Host.Outcome State Fault Refusal :=
  if 4 ≤ die then .next s else .next s.trip

end Sys2Proof.Machine
end

