-- ==== Sys2Proof/Machine/Boot.lean ====
section
/-!
DEFINITION. Boot, measurement and its journal (R512, R514, R516, R529), SPDM (R513) and lifetime counters (R515).
-/
namespace Sys2Proof.Machine

/-! ## SHA-256

The spec names the function (R512) and FIPS 180-4 defines it: log entry 14. -/

/-- The 64 round constants. (PRESUMED, log entry 14.) -/
def shaK : List W32 :=
  [0x428A2F98, 0x71374491, 0xB5C0FBCF, 0xE9B5DBA5, 0x3956C25B, 0x59F111F1, 0x923F82A4, 0xAB1C5ED5] ++
  [0xD807AA98, 0x12835B01, 0x243185BE, 0x550C7DC3, 0x72BE5D74, 0x80DEB1FE, 0x9BDC06A7, 0xC19BF174] ++
  [0xE49B69C1, 0xEFBE4786, 0x0FC19DC6, 0x240CA1CC, 0x2DE92C6F, 0x4A7484AA, 0x5CB0A9DC, 0x76F988DA] ++
  [0x983E5152, 0xA831C66D, 0xB00327C8, 0xBF597FC7, 0xC6E00BF3, 0xD5A79147, 0x06CA6351, 0x14292967] ++
  [0x27B70A85, 0x2E1B2138, 0x4D2C6DFC, 0x53380D13, 0x650A7354, 0x766A0ABB, 0x81C2C92E, 0x92722C85] ++
  [0xA2BFE8A1, 0xA81A664B, 0xC24B8B70, 0xC76C51A3, 0xD192E819, 0xD6990624, 0xF40E3585, 0x106AA070] ++
  [0x19A4C116, 0x1E376C08, 0x2748774C, 0x34B0BCB5, 0x391C0CB3, 0x4ED8AA4A, 0x5B9CCA4F, 0x682E6FF3] ++
  [0x748F82EE, 0x78A5636F, 0x84C87814, 0x8CC70208, 0x90BEFFFA, 0xA4506CEB, 0xBEF9A3F7, 0xC67178F2]

/-- The eight words a hash starts from. -/
def shaInit : List W32 := [0x6A09E667, 0xBB67AE85, 0x3C6EF372, 0xA54FF53A, 0x510E527F, 0x9B05688C, 0x1F83D9AB, 0x5BE0CD19]

/-- A big-endian word of four bytes. -/
def beWord (l : List Byte) : W32 := (l.take 4).foldl (fun n b => n <<< 8 ||| b.setWidth 32) 0

/-- The big-endian bytes of a word. -/
def beBytes (w : W32) : List Byte := [(w >>> 24).setWidth 8, (w >>> 16).setWidth 8, (w >>> 8).setWidth 8, w.setWidth 8]

/-- The words of a block of 64 bytes. -/
def blockWords (l : List Byte) : List W32 := (upto 0 16).map (fun i => beWord (l.drop (4 * i)))

/-- The message schedule: n further words; `w` holds the last sixteen, newest first. -/
def shaSchedule : Nat → List W32 → List W32
  | 0, w => w.reverse
  | n + 1, w =>
    let a := w.getD 14 0
    let b := w.getD 1 0
    let s0 := a.rotateRight 7 ^^^ a.rotateRight 18 ^^^ a >>> 3
    let s1 := b.rotateRight 17 ^^^ b.rotateRight 19 ^^^ b >>> 10
    shaSchedule n ((w.getD 15 0 + s0 + w.getD 6 0 + s1) :: w)

/-- One round. -/
def shaRound (h : List W32) (kw : W32) : List W32 :=
  let a := h.getD 0 0
  let b := h.getD 1 0
  let c := h.getD 2 0
  let e := h.getD 4 0
  let f := h.getD 5 0
  let g := h.getD 6 0
  let s1 := e.rotateRight 6 ^^^ e.rotateRight 11 ^^^ e.rotateRight 25
  let t1 := h.getD 7 0 + s1 + ((e &&& f) ^^^ (~~~e &&& g)) + kw
  let s0 := a.rotateRight 2 ^^^ a.rotateRight 13 ^^^ a.rotateRight 22
  let t2 := s0 + ((a &&& b) ^^^ (a &&& c) ^^^ (b &&& c))
  [t1 + t2, a, b, c, h.getD 3 0 + t1, e, f, g]

/-- A block is taken in. -/
def shaBlock (h : List W32) (block : List Byte) : List W32 :=
  let w := shaSchedule 48 (blockWords block).reverse
  List.zipWith (· + ·) h ((List.zipWith (· + ·) shaK w).foldl shaRound h)

/-- n blocks are taken in. -/
def shaBlocks : Nat → List W32 → List Byte → List W32
  | 0, h, _ => h
  | n + 1, h, l => shaBlocks n (shaBlock h (l.take 64)) (l.drop 64)

/-- The digest of a message, 32 bytes. (PRESUMED, log entry 14.) -/
def sha256 (l : List Byte) : List Byte :=
  let n := l.length
  let z := (119 - n % 64) % 64
  let bits := 8 * n
  let m := l ++ [0x80#8] ++ List.replicate z 0#8 ++ beBytes (BitVec.ofNat 32 (bits / 2 ^ 32)) ++ beBytes (BitVec.ofNat 32 bits)
  (shaBlocks (m.length / 64) shaInit m).flatMap beBytes

/-! ## Boot -/

/-- Measurement register m_n (R512). -/
def Package.measured (p : Package) (n : Nat) : List Byte := tgetD p.measure n (List.replicate 32 0)

/-- Extend a measurement register with an image (R512). -/
def Package.extend (p : Package) (n : Nat) (image : List Byte) : Package :=
  { p with measure := tset p.measure n (sha256 (p.measured n ++ sha256 image)) }

/-- A step that verifies and measures an image (R514). -/
def readsImage (step : Nat) : Bool := decide (step = 2 ∨ step = 7)

/-- A step that has an alternate (R514). -/
def hasAlternate (step : Nat) : Bool := decide (2 ≤ step ∧ step ≤ 8)

/-- The last record of a step (R514). -/
def lastRecord (l : List JournalRec) (step : Nat) : Option JournalRec := l.reverse.find? (fun r => decide (r.step = step))

/-- The choice for a step at a start (R514): the primary, the alternate after a failure, or none: the package goes into recovery. -/
def bootChoice (l : List JournalRec) (step : Nat) : Option Bool :=
  match lastRecord l step with
  | none => some false
  | some r => if r.ok then some false else if hasAlternate step = true ∧ r.alternate = false then some true else none

/-- A step succeeds (R512, R514): its action does, and the image it reads verifies; skipping step 8 cannot fail. -/
def bootOk (step : Nat) (alternate : Bool) (o : BootOutcome) : Bool :=
  if step = 8 ∧ alternate = true then true
  else (if alternate then o.alternateOk else o.primaryOk) && (!readsImage step || (decide (o.cls < 16) && Config.imageVerifies o.image))

/-- Partition and queue registers at their reset values (R514 step 10). -/
def State.resetQueues (s : State) : State :=
  let s := (upto 0 4).foldl (fun s d => s.modDie d (fun k => { k with
    queues := [], packets := [], lastServed := [], binUnserved := 0, queueEnergy := [], binEnergy := [], churnLimit := [], bins := [],
    binAsid := [] })) s
  s.modPkg (fun p => { p with parts := [] })

/-- What a step that succeeds does (R512, R514, R516, R524, R529). `joined` says that step 8 brought the fabric into service: then the timestamp
takes the origin of the domain's lowest-numbered package, which is a free value. (DEDUCED, log entry 56.) -/
def State.bootAction (s : State) (step : Nat) (alternate joined : Bool) (o : BootOutcome) : State :=
  match step with
  | 2 => s.modPkg (fun p => p.extend o.cls o.image)
  | 7 => s.modPkg (fun p => { (p.extend o.cls o.image) with fwSlot := if alternate then 1 else 0 })
  | 8 =>
    if alternate then s.modPkg (fun p => { p with self := 127 })
    else s.modPkg (fun p => { p with inbound := (upto 0 128).map (fun n => (n, Config.inboundEntry n)) })
  | 9 =>
    let d := s.draw
    if joined then d.2.modPkg (fun p => { p with epoch := s.cycle, tsOffset := (d.1.setWidth 64).toInt })
    else s.modPkg (fun p => { p with epoch := s.cycle, tsOffset := 0 })
  | 10 => s.resetQueues
  | _ => s

/-- The boot phase is set. -/
def State.bootPhase (s : State) (b : BootPhase) : State := s.modPkg (fun p => { p with boot := b })

/-- A step's record is appended to the journal (R514). -/
def State.record (s : State) (step : Nat) (alternate ok : Bool) : State :=
  s.modPkg (fun p => { p with journal := p.journal ++ [(⟨step, alternate, ok⟩ : JournalRec)] })

/-- The steps from one on, with what each meets (R514). A step that fails and has an untried alternate ends the start: the alternate runs at
the next start. (DEDUCED, log entry 55.) -/
def State.bootSteps (s : State) (step : Nat) (joined : Bool) : List BootOutcome → State
  | [] => s
  | o :: t =>
    if 11 ≤ step then s
    else match bootChoice s.pkg.journal step with
      | none => s.bootPhase .recovery
      | some alt =>
        let ok := bootOk step alt o
        let s := s.record step alt ok
        if ok then
          (s.bootAction step alt joined o).bootSteps (step + 1) (joined || (decide (step = 8) && !alt)) t
        else if alt = false ∧ hasAlternate step = true then s else s.bootPhase .recovery

/-- A start after the first finds the package as reset leaves it, but for what flash keeps (R511, R514, R515). -/
def State.powerOn (s : State) : State :=
  let r := State.reset
  { r with cycle := s.cycle, inbox := s.inbox, freeIdx := s.freeIdx, nextId := s.nextId,
           pkg := { r.pkg with journal := s.pkg.journal, lifetime := s.pkg.lifetime, epoch := s.cycle } }

/-- Step 11: the package is ready, and the journal is cleared (R514). -/
def State.bootReady (s : State) : State := s.modPkg (fun p => { p with boot := .ready, journal := [] })

/-- The step of a boot that has run all of the first ten succeeded (R514): the last record is step 10's success. -/
def bootedAll (s : State) : Bool := (s.pkg.journal.getLast?).any (fun r => decide (r.step = 10) && r.ok)

/-- BOOT: the steps run in order, each as the journal and what it meets decide (R514). (DEDUCED, log entry 55.) -/
def execBoot (script : List BootOutcome) (s : State) : Host.Outcome State Fault Refusal :=
  let s := if s.pkg.boot = .off ∧ s.pkg.journal = [] then s else s.powerOn
  let s := (s.bootPhase .off).bootSteps 1 false script
  .next (if s.pkg.boot = .off ∧ bootedAll s = true then s.bootReady else s)

/-! ## SPDM -/

/-- The package answers an SPDM message (R513). -/
def State.spdmAnswer (s : State) (a : SpdmAnswer) : State := s.modPkg (fun p => { p with spdm := p.spdm ++ [a] })

/-- GET_VERSION: SPDM 1.3 (R513). -/
def execGetVersion (s : State) : Host.Outcome State Fault Refusal := .next (s.spdmAnswer (.version 1 3))

/-- GET_CAPABILITIES: certificates, challenge and measurements (R513). -/
def execGetCapabilities (s : State) : Host.Outcome State Fault Refusal := .next (s.spdmAnswer (.capabilities true true true))

/-- SPDM's code of ECDSA P-256 among asymmetric algorithms. (PRESUMED, log entry 57.) -/
def ecdsaP256 : Nat := 0x10
/-- SPDM's code of SHA-256 among hashes. -/
def shaCode : Nat := 0x1

/-- NEGOTIATE_ALGORITHMS with the offered sets: of each, the one that the package has (R513). (PRESUMED, log entry 57.) -/
def execNegotiateAlgorithms (asym hash : Nat) (s : State) : Host.Outcome State Fault Refusal :=
  .next (s.spdmAnswer (.algorithms (asym &&& ecdsaP256) (hash &&& shaCode)))

/-- GET_DIGESTS: the digest of the one slot's certificate chain (R513). -/
def execGetDigests (s : State) : Host.Outcome State Fault Refusal := .next (s.spdmAnswer (.digests (sha256 Config.certificate)))

/-- GET_CERTIFICATE (R513). -/
def execGetCertificate (slot offset len : Nat) (s : State) : Host.Outcome State Fault Refusal :=
  .next (s.spdmAnswer (if slot = 0 then .certificate ((Config.certificate.drop offset).take len) else .unsupported))

/-- CHALLENGE: the device identity key signs the chain's digest and the nonce (R513). -/
def execChallenge (slot : Nat) (nonce : List Byte) (s : State) : Host.Outcome State Fault Refusal :=
  .next (s.spdmAnswer (if slot = 0 then .challengeAuth (Config.sign (sha256 Config.certificate ++ nonce)) else .unsupported))

/-- GET_MEASUREMENTS: index n returns m(n − 1), signed when requested (R513). -/
def execGetMeasurements (index signed : Nat) (nonce : List Byte) (s : State) : Host.Outcome State Fault Refusal :=
  let m := s.pkg.measured (index - 1)
  .next (s.spdmAnswer (if 1 ≤ index ∧ index ≤ 16 then
    .measurement index m (if signed = 1 then some (Config.sign (nonce ++ m)) else none) else .unsupported))

/-- SPDM_UNSUPPORTED: every other request (R513). -/
def execSpdmUnsupported (_code : Nat) (s : State) : Host.Outcome State Fault Refusal := .next (s.spdmAnswer .unsupported)

/-! ## Lifetime counters -/

/-- LIFETIME_COUNTER_UPDATE: what has been counted is added in flash, and `delta` at one index for what the model does not count itself (R515).
(DEDUCED, log entry 62.) -/
def execLifetimeCounterUpdate (index delta : Nat) (s : State) : Host.Outcome State Fault Refusal :=
  if 0x5EC < index then .next s else .next (s.modPkg (fun p => p.lifetimeUpdate index delta))

end Sys2Proof.Machine
end

