-- ==== Sys2Proof/Machine/Fabric.lean ====
section
/-!
DEFINITION. The fabric (R518 to R528): ports and flits, answers to remote accesses, inbound accesses and remote atomics.
-/
namespace Sys2Proof.Machine

/-! ## Ports and flits -/

/-- Add to a saturating 32-bit count (R521). -/
def satAdd32 (x : W32) (n : Nat) : W32 := BitVec.ofNat 32 (min (x.toNat + n) (2 ^ 32 - 1))

/-- An event at a port of the package; of another it changes nothing. (DEDUCED, log entry 91.) -/
def portEvent (port : Nat) (s : State) (f : Port → State) : Host.Outcome State Fault Refusal :=
  if 144 ≤ port then .next s else .next (f (s.port port))

/-- The flit that carried an access has been delivered (R520): it and those before it on its port are acknowledged. (DEDUCED, log entry 52.) -/
def Port.acknowledge (p : Port) (id : Nat) : Port :=
  if p.unacked.any (fun x => x.2 = id) then
    { p with unacked := (p.unacked.dropWhile (fun x => decide (x.2 ≠ id))).drop 1, crcRefusals := 0 }
  else p

/-- Flits that wait for a port leave, in their order, where one has room (R520). -/
def State.sendWaiting (s : State) : State :=
  s.pkg.unsent.foldl (fun s id => match s.outsideOf id with
    | none => s
    | some o => s.sendFlit o.package id) (s.modPkg (fun p => { p with unsent := [] }))

/-- The flit that carried an access has been delivered, whichever port sent it: the port has room again. -/
def State.acknowledge (s : State) (id : Nat) : State :=
  ((upto 0 144).foldl (fun s i => if (s.port i).unacked.any (fun x => x.2 = id) then s.modPort i (fun p => p.acknowledge id) else s) s).sendWaiting

/-- A peer package answers an access: its value, or an error (R524, R526). -/
def State.answerRemote (s : State) (id : Nat) (v : Option Nat) : State :=
  match s.outsideOf id with
  | none => s
  | some o => if o.package < 126 then (s.acknowledge id).answer o v else s

/-- A port that must retrain (R520): one flit has been refused 32 times in a row for a bad CRC. It carries nothing until it has trained. -/
def Port.mustRetrain (p : Port) : Bool := decide (32 ≤ p.crcRefusals)

/-- FLIT_RECEIVE (R519, R520): a flit is refused for a bad CRC or for want of space, accepted with its one or two messages when it is next in
sequence, and discarded otherwise. (DEDUCED, log entry 52.) -/
def execFlitReceive (port : Nat) (flit : Flit) (s : State) : Host.Outcome State Fault Refusal :=
  portEvent port s (fun p =>
    if p.inService = false ∨ p.mustRetrain = true ∨ flit.crcOk = false ∨ flit.space = false ∨ p.rxSeq.toNat ≠ flit.seq % 4096 then s
    else (flit.msg :: flit.second.toList).foldl (fun s m => s.answerRemote m.access (if m.ok then some (leNat m.data) else none))
      (s.modPort port (fun x => { x with rxSeq := x.rxSeq + 1 })))

/-- The flits of a port from a sequence number on. -/
def Port.from (p : Port) (seq : Nat) : List (BitVec 12 × Nat) := p.unacked.dropWhile (fun x => decide (x.1.toNat ≠ seq % 4096))

/-- A port whose far end refused a flit (R520, R521): the earlier ones have been accepted, and it and the later ones are resent. -/
def Port.refuse (p : Port) (seq : Nat) (crc : Bool) : Port :=
  let l := p.from seq
  if l = [] ∨ p.mustRetrain = true then p
  else { p with
    unacked := l
    refused := satAdd32 p.refused 1
    resent := satAdd32 p.resent l.length
    crcRefusals := if crc then (if p.unacked.length = l.length then p.crcRefusals + 1 else 1) else 0 }

/-- FLIT_REFUSAL of a sequence number, for a bad CRC or for want of space (R520). -/
def execFlitRefusal (port seq crc : Nat) (s : State) : Host.Outcome State Fault Refusal :=
  portEvent port s (fun _ => s.modPort port (fun p => p.refuse seq (decide (crc = 1))))

/-- Telemetry kind of retrains. -/
def retrainKind : Nat := 10

/-- A port that has trained (R520, R521): it is up, and what is not acknowledged is resent. -/
def Port.trained (p : Port) (peer : BitVec 7) (farport : Byte) : Port :=
  { p with up := true, peer := peer, farport := farport, failedRetrains := 0, crcRefusals := 0, resent := satAdd32 p.resent p.unacked.length }

/-- A port goes out of service (R527). -/
def Port.out (p : Port) : Port := { p with up := false, failed := true, failedRetrains := 0, crcRefusals := 0, unacked := [] }

/-- A retrain of a port that had been up is counted (R520, R521). -/
def Port.countRetrain (p : Port) : Port :=
  if p.up ∧ p.retrains ≠ BitVec.allOnes 16 then { p with retrains := p.retrains + 1 } else p

/-- Flits of a failed port are resent over another in-service port to the same package (R527). -/
def State.moveFlits (s : State) (l : List (BitVec 12 × Nat)) : State :=
  l.foldl (fun s x => match s.outsideOf x.2 with
    | none => s
    | some o => s.sendFlit o.package o.id) s

/-- Outstanding accesses to a package are completed in error (R524, R527, R528). -/
def State.failAccesses (s : State) (package : Nat) : State :=
  (s.pkg.outside.filter (fun o => decide (o.package = package))).foldl (fun s o => (s.acknowledge o.id).answer o none) s

/-- Outstanding accesses to packages that no in-service port leads to are completed in error (R527). -/
def State.failUnreachable (s : State) : State :=
  (((s.pkg.outside.map (·.package)).filter (fun n => decide (n < 126))).eraseDups).foldl (fun s n =>
    if s.portsTo n = [] then s.failAccesses n else s) s

/-- A port's training ends well, or fails; the third failure in a row takes it out of service (R520, R527). Retrains are counted (R515). -/
def State.retrain (s : State) (port : Nat) (ok : Bool) : State :=
  let p := (s.port port).countRetrain
  let s := if (s.port port).up then (s.count retrainKind (portSource port)).tally (0x540 + port) else s
  if ok then (s.modPort port (fun _ => p.trained (Config.farEnd port).1 (Config.farEnd port).2)).sendWaiting
  else if p.failedRetrains < 2 then s.modPort port (fun _ => { p with failedRetrains := p.failedRetrains + 1 })
  else (((s.modPort port (fun _ => p.out)).firmwareCause 5).moveFlits p.unacked).failUnreachable

/-- PORT_RETRAIN: an enabled port trains (R520, R521, R527). -/
def execPortRetrain (port ok : Nat) (s : State) : Host.Outcome State Fault Refusal :=
  portEvent port s (fun p => if p.enable = true ∧ p.failed = false then s.retrain port (decide (ok = 1)) else s)

/-! ## Inbound accesses -/

/-- The kind reads. -/
def remoteReads (k : RemoteKind) : Bool := decide (k ≠ .write)

/-- The kind writes. -/
def remoteWrites (k : RemoteKind) : Bool := decide (k ≠ .read)

/-- The inbound table allows an access (R524): the limit is the last byte. (DEDUCED, log entry 53.) -/
def State.inboundOk (s : State) (r : RemoteReq) : Bool :=
  let e := tgetD s.pkg.inbound r.src (0, 0, false, false)
  decide (e.1 ≤ r.pa ∧ r.pa + r.size ≤ e.2.1 + 1) && (!remoteReads r.kind || e.2.2.1) && (!remoteWrites r.kind || e.2.2.2)

/-- An access of another package can be performed at a home slice of this one (R524): memory of its tiers; slice scratch has its own parties
(R355). (DEDUCED, log entry 53.) -/
def State.ownable (s : State) (pa n : Nat) : Bool :=
  (upto pa n).all (fun a => match s.region a with
    | .tier1 _ => true
    | .tier2 _ => true
    | _ => false)

/-- Data of an inbound access cannot be returned (R368, R369), or it is an atomic to a word aboard a Churn, which takes none (R354). -/
def State.inboundLost (s : State) (r : RemoteReq) : Bool :=
  (remoteReads r.kind && ((upto r.pa r.size).any s.isLost || s.badBytes r.pa r.size)) ||
  (decide (r.kind = .atomic) && (upto r.pa r.size).any s.isBoarded)

/-- The owner answers the source (R524, R526); a write in error, or an atomic that wants no value, is counted and reported. -/
def State.reply (s : State) (r : RemoteReq) (v : Option Nat) : State :=
  let s := match v with
    | none => if r.kind = RemoteKind.write ∨ (r.kind = RemoteKind.atomic ∧ r.ret = false) then s.count 8 (sourceOf (s.homeDie r.pa) 0xFFF) else s
    | some _ => s
  s.modPkg (fun p => { p with replies := p.replies ++ [(r.src, v)] })

/-- An inbound write at its home slice (R524, R526): cached copies go first. -/
def State.inboundWrite (s : State) (pa : Nat) (bs : List Byte) : State := s.linkWrites (bs.length / 128 + 2) pa bs

/-- A line of the ports' buffer (R525): taken in M from every cache; the buffer holds 32 lines. -/
def State.portLine (s : State) (line : Nat) : State :=
  if s.pkg.portBuf.contains line then s
  else (s.takeHome line 0).modPkg (fun p => { p with portBuf := line :: p.portBuf.take 31 })

/-- The owner's port applies an atomic operation (R290, R525): its old value. -/
def State.remoteAtomic (s : State) (r : RemoteReq) : State :=
  let s := s.portLine (r.pa / 128)
  let o := s.readPhys r.pa r.size
  let n := atomNew r.aop (8 * r.size) o (r.data.toNat % 256 ^ r.size) (r.cmp.toNat % 256 ^ r.size)
  ((s.markDirty (r.pa / 128) (byteMask (r.pa % 128) r.size)).writeSpan r.pa (leBytes r.size n)).reply r (some (if r.ret then o else 0))

/-- An inbound access is performed, or completed in error (R524, R525). -/
def State.inboundAccess (s : State) (r : RemoteReq) : State :=
  if s.inboundOk r = false ∨ s.ownable r.pa r.size = false ∨ s.inboundLost r = true then s.reply r none
  else match r.kind with
    | .read => (s.sliceRead 96 noAsid 0 r.pa).reply r (some (s.readPhys r.pa r.size))
    | .write => (s.inboundWrite r.pa (leBytes r.size r.data.toNat)).reply r (some 0)
    | .atomic => s.remoteAtomic r

/-- INBOUND_ACCESS: at most a flit's payload, an atomic of at most 8 bytes (R519, R524); another names nothing that can arrive. (DEDUCED, log entry 91.) -/
def execInboundAccess (req : RemoteReq) (s : State) : Host.Outcome State Fault Refusal :=
  if 126 ≤ req.src ∨ req.size = 0 ∨ 128 < req.size ∨ (req.kind = .atomic ∧ 8 < req.size) then .next s
  else .next (hostWait (.inboundAccess req) req.pa s (fun s => s.inboundAccess req))

/-- REMOTE_ATOMIC: a .sys ATOM of another package (R525). -/
def execRemoteAtomic (req : RemoteReq) (s : State) : Host.Outcome State Fault Refusal :=
  if 126 ≤ req.src ∨ req.kind ≠ .atomic ∨ (req.size ≠ 4 ∧ req.size ≠ 8) ∨ req.pa % req.size ≠ 0 ∨ 15 ≤ req.aop then .next s
  else .next (hostWait (.remoteAtomic req) req.pa s (fun s => s.inboundAccess req))

/-! ## Completion -/

/-- REMOTE_WRITE_ACK: the owner has performed a write, or an atomic that wants no value (R526). -/
def execRemoteWriteAck (id : Nat) (s : State) : Host.Outcome State Fault Refusal :=
  match s.outsideOf id with
  | none => .next s
  | some o => if o.work = .store ∨ (match o.work with
      | .atomic _ _ ret => !ret
      | _ => false) = true then .next (s.answerRemote id (some 0)) else .next s

/-- PEER_RESET: every outstanding access to the package is completed in error (R528). -/
def execPeerReset (package : Nat) (s : State) : Host.Outcome State Fault Refusal :=
  if 126 ≤ package then .next s else .next (s.failAccesses package)

end Sys2Proof.Machine
end

