-- ==== Sys2Proof/Machine/Registers.lean ====
section
/-!
DEFINITION. Writes of the die control blocks (R12, R396, R476), and the creation and destruction of partitions (R340, R400, R421, R436,
R508).
-/
namespace Sys2Proof.Machine

/-- Bits hi..lo of a register's value. -/
def bitsOf (v hi lo : Nat) : Nat := v / 2 ^ lo % 2 ^ (hi + 1 - lo)

/-- Bit n of a register's value. -/
def bitOf (v n : Nat) : Bool := v / 2 ^ n % 2 = 1

/-! ## Queues -/

/-- Word 0 of a queue's registers (R394, R508). -/
def State.writeQueue0 (s : State) (d q v : Nat) : State :=
  let s := if bitOf v 63 then s.enableQueue d q else s
  s.modDie d (fun x => x.modQueue q (fun k => { k with
    enable := bitOf v 63, pq := bitOf v 62, enq := bitOf v 61, lgsize := BitVec.ofNat 4 (bitsOf v 59 56), base := BitVec.ofNat 55 v }))

/-- Word 2 of a queue's registers (R394, R409). -/
def State.writeQueue2 (s : State) (d q v : Nat) : State :=
  let s := s.modDie d (fun x => x.modQueue q (fun k => { k with
    asid := BitVec.ofNat 16 (bitsOf v 63 48), vector := BitVec.ofNat 8 (bitsOf v 47 40), error := k.error && !bitOf v 34, destroy := bitOf v 32,
    part := BitVec.ofNat 3 v }))
  if bitOf v 32 = true ∧ ((s.die d).queue q).destroying = false then s.destroyQueue d q else s

/-- A word of a queue's registers: word 1 is the doorbell, word 3 is reserved (R394, R395). -/
def State.writeQueue (s : State) (d q word v : Nat) : State :=
  if word = 0 then s.writeQueue0 d q v else if word = 1 then s.doorbell d q v else if word = 2 then s.writeQueue2 d q v else s

/-! ## Other registers of a die -/

/-- A bin's register (R448). -/
def State.writeBin (s : State) (d b v : Nat) : State :=
  s.modBin d b (fun k => { k with
    enable := bitOf v 63, part := BitVec.ofNat 3 (bitsOf v 62 60), error := k.error && !bitOf v 59, pq := bitOf v 58,
    template := BitVec.ofNat 55 v })

/-- A bin ASID register (R531). -/
def State.writeBinAsid (s : State) (d p v : Nat) : State :=
  s.modDie d (fun k => { k with binAsid := tset k.binAsid p (BitVec.ofNat 16 v) })

/-- Word 0 of a port's registers (R521): a port that is disabled is not up. -/
def State.writePort (s : State) (i v : Nat) : State :=
  s.modPort i (fun p => { p with enable := bitOf v 63, up := p.up && bitOf v 63, failed := p.failed && !bitOf v 61 })

/-- A controller's lost-line status register (R369). -/
def State.writeLost (s : State) (d m v : Nat) : State :=
  s.modDie d (fun k => { k with lost := tmod k.lost m ⟨[], [], 0, false⟩ (fun t => { t with overflow := t.overflow && !bitOf v 31 }) })

/-! ## Registers of die 0 alone -/

/-- The package register block (R485). -/
def State.writePkgReg (s : State) (off v : Nat) : State :=
  let put := fun (f : PkgRegs → PkgRegs) => s.modPkg (fun p => { p with regs := f p.regs })
  if off = 0x00 then put (fun g => { g with asidbase := bitsOf v 51 20 * 2 ^ 20 })
  else if off = 0x08 then put (fun g => { g with ringbase := bitsOf v 51 12 * 2 ^ 12, lgrec := bitsOf v 3 0 })
  else if off = 0x18 then put (fun g => { g with rread := BitVec.ofNat 32 v })
  else if off = 0x20 then put (fun g => { g with pte := bitsOf v 51 3 * 8 })
  else if off = 0x28 then put (fun g => { g with dest := bitsOf v 51 16 * 2 ^ 16 })
  else if off = 0x30 then put (fun g => { g with asid := bitsOf v 63 48, vpn := bitsOf v 38 0 })
  else if off = 0x38 then s.migrationCommand v
  else s

/-- An entry of the route table (R522). -/
def State.writeRoute (s : State) (n v : Nat) : State :=
  s.modPkg (fun p => { p with routes := tset p.routes n (bitOf v 63, BitVec.ofNat 18 v) })

/-- Registers of die 0's block only (R476, R507, R522). -/
def State.writeDie0 (s : State) (off v : Nat) : State :=
  if 0x80000 ≤ off ∧ off < 0x80040 then s.writePkgReg (off - 0x80000) v
  else if 0x90000 ≤ off ∧ off < 0x90080 ∧ off % 16 = 0 then s.writeCap ((off - 0x90000) / 16) v
  else if 0xB0000 ≤ off ∧ off < 0xB03F0 then s.writeRoute ((off - 0xB0000) / 8) v
  else if off = 0xB0400 then s.modPkg (fun p => { p with self := BitVec.ofNat 7 v })
  else s

/-! ## A write -/

/-- An 8-byte write at an offset of a die's control block (R12): where no register stands, and where one is read-only, it is ignored.
(DEDUCED, log entry 54.) -/
def State.writeRegister (s : State) (d off v : Nat) : State :=
  if off % 8 ≠ 0 then s
  else if 0x10000 ≤ off ∧ off < 0x12000 then s.writeQueue d ((off - 0x10000) / 32) (off / 8 % 4) v
  else if 0x20000 ≤ off ∧ off < 0x20040 then s.writeSplit d ((off - 0x20000) / 8) v
  else if off = 0x20100 then s.writeGating d v
  else if 0x30000 ≤ off ∧ off < 0x30040 then s.writeChurnLimit d ((off - 0x30000) / 8) v
  else if 0x50000 ≤ off ∧ off < 0x58000 then s.writeBin d ((off - 0x50000) / 8) v
  else if 0x58000 ≤ off ∧ off < 0x58040 then s.writeBinAsid d ((off - 0x58000) / 8) v
  else if off = 0x60000 then s.writeBias d v
  else if 0xA0000 ≤ off ∧ off < 0xA0240 ∧ off % 16 = 0 then s.writePort (36 * d + (off - 0xA0000) / 16) v
  else if 0x100000 ≤ off ∧ off < 0x114000 ∧ off % 0x1000 = 0x100 then s.writeLost d ((off - 0x100000) / 0x1000) v
  else if d = 0 then s.writeDie0 off v
  else s

/-- REGISTER_WRITE: the host or firmware writes 8 bytes of a control block (R12, R476); in recovery only SPDM and the flash interface answer
(R514). (DEDUCED, log entry 54.) -/
def execRegisterWrite (pa value : Nat) (s : State) : Host.Outcome State Fault Refusal :=
  match s.region pa with
  | .control d =>
    if s.pkg.boot = .recovery ∨ s.pkg.boot = .tripped then .next s else .next (s.writeRegister d (pa % 0x1000000) (value % 2 ^ 64))
  | _ => .next s

/-! ## Partitions -/

/-- A Churn slot that the front end keeps for the tree counters (R400). (DESIGN CHOICE, log entry 28.) -/
def counterSlot : Slot :=
  { state := .aboard, value := 0, key := 0, asid := 0, part := 0, priv := true, armed := false, packet := 0, queue := 0, fire := false,
    poison := false, home := 0, use := .counter, loaded := true, written := false, leaving := false }

/-- The 64 counter slots of a die come aboard with the first partition (R400); here slots 336 to 399. (DESIGN CHOICE, log entry 28.) -/
def Die.boardCounters (d : Die) : Die :=
  { d with slots := (upto 336 64).foldl (fun t n => if (tget t n).isSome then t else tset t n counterSlot) d.slots }

/-- The clusters of a set are enabled and in no other partition (R1, R4). -/
def State.clustersFree (s : State) (m : BitVec 96) : Bool :=
  (sharerList m).all (fun k => (s.die (k / 24)).clusters.getLsbD (k % 24) && (s.partOfCluster k).isNone)

/-- Firmware creates a partition (R232, R340, R400, R421, R508). -/
def State.createPartition (s : State) (part : Nat) (spec : PartSpec) : State :=
  let s := s.modPart part (fun p => { p with live := true, clusters := spec.clusters, scratchKiB := spec.scratchKiB })
  let s := (sharerList spec.clusters).foldl (fun s k => s.modCluster k (fun c => { c with ranges := [] })) s
  (upto 0 4).foldl (fun s d =>
    (s.modDie d (fun k => { k.boardCounters with binEnergy := tset k.binEnergy part 0 })).writeChurnLimit d part (min spec.churnLimit 336)) s

/-- PARTITION_CREATION. -/
def execPartitionCreation (part : Nat) (spec : PartSpec) (s : State) : Host.Outcome State Fault Refusal :=
  if 8 ≤ part ∨ (s.part part).live = true ∨ s.clustersFree spec.clusters = false ∨ 448 < spec.scratchKiB ∨ spec.scratchKiB % 64 ≠ 0 then
    .next s
  else .next (s.createPartition part spec)

/-- Firmware alights one slot of a partition that is destroyed (R436): words that wait for it have lost it; a value aboard goes home, a poisoned
one is lost; a slot that is still BOARDING completes that first (R418); an alighting one goes on. (DEDUCED, log entry 65.) -/
def State.expelSlot (s : State) (d n : Nat) (x : Slot) : State :=
  let lose := fun (r : ChurnReq) => if r.slot = some n ∧ r.stage = .waiting then { r with stage := .lost } else r
  let s := s.modDie d (fun k => { k with reqs := k.reqs.map lose })
  match x.use with
  | .word =>
    if x.state = .boarding then s.setSlot d n { x with leaving := true }
    else if x.state = .aboard then
      let s := s.setSlot d n { x with state := .alighting, armed := false, written := x.written || x.poison }
      (if x.poison then s.loseLine (x.home / 128) else s).settleSlot d n
    else s
  | .tail b => (s.modBin d b (fun k => { k with tail := none })).freeSlot d n
  | _ => s

/-- PARTITION_DESTRUCTION: every Churn slot that the partition holds alights (R436). (DEDUCED, log entry 65.) -/
def execPartitionDestruction (part : Nat) (s : State) : Host.Outcome State Fault Refusal :=
  if 8 ≤ part then .next s
  else
    let s := s.modPart part (fun p => { p with live := false, clusters := 0 })
    .next ((upto 0 4).foldl (fun s d =>
      (((s.die d).slots.filter (fun x => decide (x.2.part = part ∧ x.2.state ≠ .free))).foldl (fun s x => s.expelSlot d x.1 x.2) s)) s)

end Sys2Proof.Machine
end

