-- ==== Sys2Proof/Machine/Restore.lean ====
section
/-!
DEFINITION. What a restore reads back from a save area (R72, R264 to R267): the record that was kept, with every field that the area holds
taken from its bytes.
-/
namespace Sys2Proof.Machine

/-- A save area as it is read: the field of n bytes at an offset. -/
abbrev SaveArea := Nat → Nat → Nat

/-- The save area at a physical address. -/
def State.saveAreaAt (s : State) (base : Nat) : SaveArea := fun off n => s.readPhys (base + off) n

/-- All causes that a recorded fault may have. -/
def Cause.all : List Cause :=
  [.illegalOp, .illegalChain, .stallShort, .shape, .quota, .emptyInterval, .invalidInterval, .misaligned, .access, .translation, .memUe,
   .atomicScope, .barOverrun, .queueFault, .matFifo, .matFormat, .churnUnderflow, .churnStore, .churnKey, .rastState, .tid, .trapInstr,
   .priv, .enqFault]

/-- The cause with a code (R258), or another one where no user cause has it. -/
def Cause.ofCode (other : Cause) (n : Nat) : Cause := (Cause.all.find? (fun c => decide (c.code = n))).getD other

/-- Element l of a section of predicate codes (R72). -/
def predAt (n l : Nat) : Tri := Tri.ofBits (n / 4 ^ l)

/-! ## Tiles -/

/-- A row of a tile record at an offset (R266). -/
def TileRow.reload (m : SaveArea) (o i : Nat) (r : TileRow) : TileRow :=
  { r with cells := (upto 0 16).map (fun j => BitVec.ofNat 56 (m (o + 8 + 7 * (16 * i + j)) 7)), m := BitVec.ofNat 32 (m (o + 7176 + 12 * i) 4),
           l := BitVec.ofNat 56 (m (o + 7180 + 12 * i) 7), sat := decide (m (o + 7187 + 12 * i) 1 % 2 = 1) }

/-- A tile from its record (R266): one whose operations do not wait is clean from here on (R264). -/
def Tile.reload (m : SaveArea) (o : Nat) (waits : Bool) (t : Tile) : Tile :=
  { mode := TileMode.ofCode (m o 1), rows := lmapIdx (fun i r => r.reload m o i) 0 t.rows, clean := !waits }

/-- What a word of a waiting-operation list does, of the kind that was kept (R218, R225); the scale that an SMXU took as it issued is not in the
area. -/
def TileWork.ofWord (k : TileWork) (w : Nat) : TileWork :=
  match k with
  | .mma _ _ _ _ _ =>
    let f := readTMma w
    .mma f.f f.g (mmaMode f.r) (decide (f.s = 1)) (decide (f.z = 1))
  | .azero => .azero
  | .smxu _ _ _ sigma => .smxu (bits w 21 3) (bits w 16 5) (bits w 14 2) sigma

/-- A waiting operation from its entry (R266). -/
def TileOp.reload (m : SaveArea) (o : Nat) (x : TileOp) : TileOp :=
  { x with work := x.work.ofWord (m o 4), grp := m (o + 4) 4, mask := BitVec.ofNat 64 (m (o + 8) 8) }

/-- The waiting operations of a tile from their list. -/
def reloadOps (m : SaveArea) (o : Nat) : Nat → List TileOp → List TileOp
  | _, [] => []
  | k, x :: t => x.reload m (o + 16 * k) :: reloadOps m o (k + 1) t

/-- The operations of a workgroup from the lists of its tiles: those that do not wait stay. -/
def Workgroup.reloadOps (m : SaveArea) (w : Workgroup) : List TileOp :=
  let lists := (upto 0 w.tiles.length).flatMap (fun t =>
    Machine.reloadOps m (m (m (16 + 8 * t) 8 + 7944) 8) 0 (w.ops.filter (fun o => decide (o.tile = t) && !o.done)))
  w.ops.map (fun o => (lists.find? (fun x => decide (x.id = o.id))).getD o)

/-! ## Groups -/

/-- The shape of a code of the rename map (R267). -/
def shapeOfCode (n : Nat) : Option Shape :=
  if n % 8 = 1 then some .p32 else if n % 8 = 2 then some .p64 else if n % 8 = 3 then some .i32 else if n % 8 = 4 then some .i64 else none

/-- A register of a group of w lanes from its granules at an offset (R58, R267). -/
def VReg.reload (m : SaveArea) (o w : Nat) (sh : Shape) : VReg :=
  let at_ := fun (k g : Nat) => o + 33 * (k * (w / 8) + g)
  { shape := sh,
    lanes := (upto 0 w).map (fun l => BitVec.ofNat 128 ((upto 0 sh.rows).map (fun k => m (at_ k (l / 8) + 4 * (l % 8)) 4 * 2 ^ (32 * k))).sum),
    side := (upto 0 (sh.rows * (w / 8))).map (fun n => BitVec.ofNat 8 (m (o + 33 * n + 32) 1)) }

/-- Registers from a rename map and the granules that follow, v0 first (R267). -/
def reloadRegs (m : SaveArea) (map w : Nat) : Nat → List Nat → Tab VReg
  | _, [] => []
  | o, n :: t => match shapeOfCode (m (map + 4 * n) 4) with
    | none => reloadRegs m map w o t
    | some sh => (n, VReg.reload m o w sh) :: reloadRegs m map w (o + 33 * granules sh w) t

/-- A lane from its 16 bytes and its generator (R267); the increments of a repeat are not in the area. -/
def Lane.reload (m : SaveArea) (o l : Nat) (x : Lane) : Lane :=
  let a := m (o + 384 + 16 * l) 8
  let b := m (o + 392 + 16 * l) 8
  let inc := fun (f : Rep → Nat) => (x.rep.map f).getD 0
  { x with pc := a % 2 ^ 55 / 4, exited := decide (a / 2 ^ 63 = 1),
           rep := if b / 64 % 2 = 1 then some { idx := b % 64, last := b % 64 + b / 128 % 64, incd := inc (·.incd), inca := inc (·.inca),
                                                incb := inc (·.incb) } else none,
           waiting := if b / 2 ^ 17 % 2 = 1 then some (b / 2 ^ 13 % 16) else none, helper := decide (b / 2 ^ 18 % 2 = 1),
           q := (upto 0 8).map (fun n => predAt (m (o + 128 + 16 * n) 16) l), gen := BitVec.ofNat 64 (m (o + 1408 + 8 * l) 8) }

/-- The control registers from their 64 bytes (R267). -/
def CtrlRegs.reload (m : SaveArea) (o : Nat) (k : CtrlRegs) : CtrlRegs :=
  { k with round := BitVec.ofNat 3 (m o 4), stallchk := decide (m (o + 4) 4 % 2 = 1), trapbase := BitVec.ofNat 55 (m (o + 8) 8),
           seed := BitVec.ofNat 32 (m (o + 16) 4), smxscale := BitVec.ofNat 32 (m (o + 20) 4), hint := BitVec.ofNat 4 (m (o + 24) 4),
           q4scale := BitVec.ofNat 32 (m (o + 32) 4), trapH := decide (m (o + 36) 4 / 512 % 2 = 1),
           trapA := decide (m (o + 36) 4 / 256 % 2 = 1), trapcause := BitVec.ofNat 8 (m (o + 36) 1), trappc := BitVec.ofNat 55 (m (o + 40) 8),
           trapmask := BitVec.ofNat 64 (m (o + 48) 8), trapaddr := BitVec.ofNat 64 (m (o + 56) 8) }

/-- The tile fault of a fault block (R267); its tile is not in the area. -/
def TileFault.reload (m : SaveArea) (o : Nat) (f : TileFault) : Option TileFault :=
  if m o 8 / 256 % 2 = 1 then
    some { f with cause := Cause.ofCode f.cause (m o 1), addr := BitVec.ofNat 64 (m (o + 8) 8), mask := BitVec.ofNat 64 (m (o + 16) 8) }
  else none

/-- The copy fault of a fault block (R267). -/
def CopyFault.reload (m : SaveArea) (o : Nat) (f : Option CopyFault) : Option CopyFault :=
  if m (o + 24) 8 / 256 % 2 = 1 then
    some { cause := Cause.ofCode ((f.map (·.cause)).getD .memUe) (m (o + 24) 1), addr := BitVec.ofNat 64 (m (o + 32) 8),
           mask := BitVec.ofNat 64 (m (o + 40) 8), sync := m (o + 48) 8 % 2 ^ 19 }
  else none

/-- A replay entry at an offset (R267); what its word loads into is known from the word. -/
def Replay.reload (m : SaveArea) (o : Nat) (r : Replay) : Replay :=
  let mask := BitVec.ofNat 64 (m (o + 16) 8)
  { r with word := BitVec.ofNat 32 (m o 4), step := m (o + 4) 4 % 64, isRep := decide (m (o + 4) 4 / 64 % 2 = 1),
           addr := BitVec.ofNat 64 (m (o + 8) 8), mask := mask,
           addrs := (upto 0 (maskList mask).length).map (fun k => BitVec.ofNat 64 (m (m (o + 24) 8 + 8 * k) 8)) }

/-- The remainder of a sleeping word from the lanes' records (R267). -/
def Wait.reload (m : SaveArea) (o : Nat) (x : Wait) : Wait :=
  match x.kind with
  | .sleep _ => { x with kind := .sleep (m (o + 392 + 16 * (maskList x.mask).headD 0) 8 / 2 ^ 32 % 65536) }
  | _ => x

/-- A group from its record at an offset (R267). -/
def Group.reload (m : SaveArea) (o : Nat) (g : Group) : Group :=
  let w := g.lanes.length
  let count := m (o + 2040) 8 % 65536
  { g with
    lanes := lmapIdx (fun l x => x.reload m o l) 0 g.lanes,
    regs := reloadRegs m o w (o + 2048 + 32 * count) (upto 0 32),
    joins := (upto 0 16).foldl (fun t n => tset t n (BitVec.ofNat 64 (m (o + 256 + 8 * n) 8))) g.joins,
    ctrl := g.ctrl.reload m (o + 1920), quota := m (o + 1948) 4 % 2 ^ 15,
    tileFault := g.tileFault.bind (fun f => f.reload m (o + 1984)), copyFault := CopyFault.reload m (o + 1984) g.copyFault,
    replay := lmapIdx (fun n r => r.reload m (o + 2048 + 32 * n)) 0 (g.replay.take count),
    waits := g.waits.map (fun x => x.reload m o) }

/-! ## FIFOs, slice, scratch -/

/-- A FIFO from its section at an offset (R202, R265). -/
def Fifo.reload (m : SaveArea) (o : Nat) (f : Fifo) : Fifo :=
  { cap := m o 4,
    entries := (upto 0 (m (o + 4) 4)).map (fun n =>
      let e := o + 8 + 272 * n
      { data := BitVec.ofNat 2048 ((upto 0 8).map (fun k => m (e + 33 * k) 32 * 2 ^ (256 * k))).sum,
        side := BitVec.ofNat 64 ((upto 0 8).map (fun k => m (e + 33 * k + 32) 1 * 2 ^ (8 * k))).sum,
        tag := BitVec.ofNat 32 (m (e + 264) 4), fmt := m (e + 268) 4 % 16, smxu := decide (m (e + 268) 4 / 16 % 2 = 1),
        bad := ((f.entries[n]?).map (·.bad)).getD false }) }

/-- A slice from its record at an offset (R265). -/
def Slice.reload (m : SaveArea) (o : Nat) (x : Slice) : Slice :=
  { x with
    x := (upto 0 16).map (fun n => BitVec.ofNat 64 (m (o + 8 * n) 8)), pc := m (o + 128) 8 / 4,
    q := (upto 0 8).map (fun n => predAt (m (o + 136) 8) n),
    push := if m (o + 144) 8 / 2 ^ 63 = 1 then
        x.push.map (fun p => { p with fifo := m (o + 144) 1, k := m (o + 145) 3, n := m (o + 148) 4 % 2 ^ 31 })
      else none,
    ended := match x.ended with
      | .faulted c _ _ => .faulted (Cause.ofCode c (m (o + 152) 1)) (BitVec.ofNat 64 (m (o + 160) 8)) (decide (m (o + 152) 8 / 512 % 2 = 1))
      | e => e }

/-- A workgroup from its save area (R264): each part of the record that was kept takes what the area holds of it. (DEDUCED, log entry 63.) -/
def Workgroup.reload (m : SaveArea) (w : Workgroup) : Workgroup :=
  let scratch := m 248 8
  { w with
    tiles := lmapIdx (fun n t => t.reload m (m (16 + 8 * n) 8) (w.ops.any (fun o => decide (o.tile = n) && !o.done))) 0 w.tiles,
    ops := w.reloadOps m,
    groups := lmapIdx (fun n g => g.reload m (m (48 + 8 * n) 8)) 0 w.groups,
    fifos := lmapIdx (fun n (f : Fifo) => if f.cap = 0 then f else f.reload m (m (176 + 8 * n) 8)) 0 w.fifos,
    slice := if w.context then w.slice.reload m (m 240 8) else w.slice,
    scratch := if scratch = 0 then [] else memPutList [] 0 ((upto 0 w.scratchBytes).map (fun o => BitVec.ofNat 8 (m (scratch + o) 1))) }

end Sys2Proof.Machine
end

