-- ==== Sys2Proof/Machine/Context.lean ====
section
/-!
DEFINITION. Pre-emption and restore of a workgroup (R216, R263, R264, R316, R339, R343, R436), and what the save area holds (R265 to R267).
-/
namespace Sys2Proof.Machine

/-! ## The save area -/

/-- The 4 bytes of a word of code (R22), 0 where its page is gone. -/
def State.codeWord (s : State) (asid addr : Nat) : Nat :=
  match s.translateUnit asid addr with
  | .error _ => 0
  | .ok (pa, _) => s.readPhys pa 4

/-- Code of a register's shape in the rename map (R267). -/
def shapeCode : Option VReg → Nat
  | none => 0
  | some v => match v.shape with
    | .p32 => 1
    | .p64 => 2
    | .i32 => 3
    | .i64 => 4

/-- Tile operations of a tile that wait (R216). -/
def Workgroup.waitingOps (w : Workgroup) (t : Nat) : List TileOp := w.ops.filter (fun o => decide (o.tile = t) && !o.done)

/-- A tile's waiting-operation list (R266): 16 bytes each. -/
def State.opBytes (s : State) (asid : Nat) (l : List TileOp) : List Byte :=
  l.flatMap (fun o => leBytes 4 (s.codeWord asid o.addr.toNat) ++ leBytes 4 o.grp ++ leBytes 8 o.mask.toNat)

/-- A tile record (R266), with the offset of its waiting-operation list. -/
def tileBytes (t : Tile) (waiting listAt : Nat) : List Byte :=
  leBytes 8 (t.mode.code + (if t.clean then 4 else 0) + waiting % 256 * 256) ++
  t.rows.flatMap (fun r => r.cells.flatMap (fun c => leBytes 7 c.toNat)) ++
  t.rows.flatMap (fun r => leBytes 4 r.m.toNat ++ leBytes 7 r.l.toNat ++ leBytes 1 (if r.sat then 1 else 0)) ++
  leBytes 8 listAt

/-- A predicate register over the lanes: lane l at bits [2l+1:2l]. -/
def predBytes (l : List Tri) : List Byte := leBytes 16 ((lmapIdx (fun n q => Tri.bits q * 4 ^ n) 0 l).sum)

/-- The remaining cycles of a lane's SLEEP (R263, R267). -/
def Group.sleepLeft (g : Group) (l now : Nat) : Nat :=
  match g.waits.find? (fun w => w.mask.getLsbD l && (match w.kind with
    | .sleep _ => true
    | _ => false)) with
  | some w => match w.kind with
    | .sleep till => till - now
    | _ => 0
  | none => 0

/-- The 16 bytes of a lane (R267). -/
def Lane.bytes (x : Lane) (sleep : Nat) : List Byte :=
  let rep := match x.rep with
    | none => 0
    | some r => r.idx % 64 + 64 + (r.last - r.idx) % 64 * 128
  leBytes 8 (4 * x.pc % 2 ^ 55 + (if x.exited then 2 ^ 63 else 0)) ++
  leBytes 8 (rep + x.waiting.getD 0 % 16 * 2 ^ 13 + (if x.waiting.isSome then 2 ^ 17 else 0) + (if x.helper then 2 ^ 18 else 0) +
    sleep % 65536 * 2 ^ 32)

/-- Control registers 0x000 to 0x00F in order (R267). -/
def Group.controlBytes (g : Group) : List Byte :=
  let k := g.ctrl
  leBytes 4 k.round.toNat ++ leBytes 4 (if k.stallchk then 1 else 0) ++ leBytes 8 k.trapbase.toNat ++ leBytes 4 k.seed.toNat ++
  leBytes 4 k.smxscale.toNat ++ leBytes 4 k.hint.toNat ++ leBytes 4 (g.quota % 2 ^ 15) ++ leBytes 4 k.q4scale.toNat ++
  leBytes 4 ((if k.trapH then 512 else 0) + (if k.trapA then 256 else 0) + k.trapcause.toNat) ++ leBytes 8 k.trappc.toNat ++
  leBytes 8 k.trapmask.toNat ++ leBytes 8 k.trapaddr.toNat

/-- The fault block (R267). -/
def Group.faultBytes (g : Group) : List Byte :=
  let cause := fun (c : Option Cause) => match c with
    | none => 0
    | some x => x.code + 256
  leBytes 8 (cause (g.tileFault.map (·.cause))) ++ leBytes 8 ((g.tileFault.map (·.addr.toNat)).getD 0) ++
  leBytes 8 ((g.tileFault.map (·.mask.toNat)).getD 0) ++ leBytes 8 (cause (g.copyFault.map (·.cause))) ++
  leBytes 8 ((g.copyFault.map (·.addr.toNat)).getD 0) ++ leBytes 8 ((g.copyFault.map (·.mask.toNat)).getD 0) ++
  leBytes 8 ((g.copyFault.map (·.sync)).getD 0) ++ leBytes 8 (g.replay.length % 65536)

/-- A register's granules (R58, R267): row 0 first, granule 0 first. -/
def VReg.bytes (v : VReg) (width : Nat) : List Byte :=
  (upto 0 v.shape.rows).flatMap (fun k => (upto 0 (width / 8)).flatMap (fun n => v.record width k n))

/-- A replay entry (R267), with the offset of its addresses. -/
def Replay.bytes (r : Replay) (addrsAt : Nat) : List Byte :=
  leBytes 4 r.word.toNat ++ leBytes 4 (r.step % 64 + (if r.isRep then 64 else 0)) ++ leBytes 8 r.addr.toNat ++ leBytes 8 r.mask.toNat ++
  leBytes 8 addrsAt

/-- The replay entries of a group with the offsets of their addresses from `at_` on. -/
def replayBytes : Nat → List Replay → List Byte
  | _, [] => []
  | at_, r :: t => r.bytes at_ ++ replayBytes (at_ + 8 * r.addrs.length) t

/-- A group record that starts at an offset (R267). -/
def Group.bytes (g : Group) (now at_ : Nat) : List Byte :=
  let w := g.width
  let rename := (upto 0 32).flatMap (fun n => leBytes 4 (shapeCode (tget g.regs n)))
  let preds := (upto 0 8).flatMap (fun n => predBytes (g.lanes.map (fun l => l.pred n)))
  let joins := (upto 0 16).flatMap (fun n => leBytes 8 (tgetD g.joins n 0).toNat)
  let lanes := (upto 0 64).flatMap (fun l => if l < w then (g.lane l).bytes (g.sleepLeft l now) else leBytes 16 0)
  let gens := (upto 0 64).flatMap (fun l => if l < w then leBytes 8 (g.lane l).gen.toNat else leBytes 8 0)
  let regs := g.regs.flatMap (fun x => x.2.bytes w)
  let addrsAt := at_ + 2048 + 32 * g.replay.length + regs.length
  rename ++ preds ++ joins ++ lanes ++ gens ++ g.controlBytes ++ g.faultBytes ++ replayBytes addrsAt g.replay ++ regs ++
  g.replay.flatMap (fun r => r.addrs.flatMap (fun a => leBytes 8 a.toNat))

/-- A FIFO's section (R202, R265): each granule's 32 data bytes, then its side byte. -/
def Fifo.bytes (f : Fifo) : List Byte :=
  leBytes 8 (f.cap + f.entries.length * 2 ^ 32) ++
  f.entries.flatMap (fun e =>
    (upto 0 8).flatMap (fun k => leBytes 32 (e.data.toNat / 2 ^ (256 * k)) ++ leBytes 1 (e.side.toNat / 2 ^ (8 * k))) ++
    leBytes 4 e.tag.toNat ++ leBytes 4 (e.fmt % 16 + (if e.smxu then 16 else 0)))

/-- The slice record (R265): x0 to x15, the program counter, the predicates, the pending PUSHT (FIFO, next row, rows) and the fault. -/
def Slice.bytes (x : Slice) : List Byte :=
  let preds := (lmapIdx (fun n q => Tri.bits q * 4 ^ n) 0 x.q).sum
  let push := match x.push with
    | none => 0
    | some p => 2 ^ 63 + p.fifo + p.k * 2 ^ 8 + p.n * 2 ^ 32
  let fault := match x.ended with
    | .faulted c _ d => c.code + 256 + (if d then 512 else 0)
    | _ => 0
  let addr := match x.ended with
    | .faulted _ a _ => a.toNat
    | _ => 0
  (upto 0 16).flatMap (fun n => leBytes 8 (x.x.getD n 0).toNat) ++ leBytes 8 (4 * x.pc) ++ leBytes 8 preds ++ leBytes 8 push ++
  leBytes 8 fault ++ leBytes 8 addr ++ leBytes 88 0

/-- A number rounded up to a multiple of 8. -/
def up8 (n : Nat) : Nat := (n + 7) / 8 * 8

/-- Sections laid one after the other from an offset, each at a multiple of 8: the offset of each, and the end. -/
def layOut : Nat → List Nat → List Nat × Nat
  | at_, [] => ([], at_)
  | at_, n :: t =>
    let r := layOut (up8 (at_ + n)) t
    (at_ :: r.1, r.2)

/-- Bytes padded to a multiple of 8. -/
def pad8 (l : List Byte) : List Byte := l ++ List.replicate (up8 l.length - l.length) 0

/-- The bytes of a workgroup's save area (R265): sections stand in the order of the header, one after the other, the lists of waiting
tile operations after the tile records. Every bound tile is in use. (DEDUCED, log entry 63.) -/
def State.saveImage (s : State) (w : Workgroup) : List Byte :=
  let nt := w.tiles.length
  let ops := (upto 0 nt).map (fun t => s.opBytes w.asid (w.waitingOps t))
  let l1 := layOut 256 (List.replicate nt 7952 ++ ops.map (·.length))
  let tiles := lmapIdx (fun n t => tileBytes t (w.waitingOps n).length (l1.1.getD (nt + n) 0)) 0 w.tiles
  let sizes := w.groups.map (fun g => (g.bytes s.cycle 0).length)
  let l2 := layOut l1.2 sizes
  let groups := lmapIdx (fun n g => g.bytes s.cycle (l2.1.getD n 0)) 0 w.groups
  let fifos := w.fifos.map (fun f => if f.cap = 0 then [] else f.bytes)
  let l3 := layOut l2.2 (fifos.map (·.length))
  let slice := if w.context then w.slice.bytes else []
  let scratchAt := up8 (l3.2 + slice.length)
  let offs := fun (l : List Nat) (n : Nat) => (upto 0 n).flatMap (fun k => leBytes 8 (l.getD k 0))
  let fmask := (lmapIdx (fun n (f : Fifo) => if f.cap = 0 then 0 else 2 ^ n) 0 w.fifos).sum
  let fifoOffs := lmapIdx (fun n (f : Fifo) => if f.cap = 0 then 0 else l3.1.getD n 0) 0 w.fifos
  leBytes 1 1 ++ leBytes 1 w.groups.length ++ leBytes 1 w.width ++ leBytes 1 (2 ^ nt - 1) ++ leBytes 1 fmask ++
  leBytes 1 (if w.context then 1 else 0) ++ leBytes 2 0 ++ leBytes 8 w.scratchBytes ++ offs (l1.1.take nt) 4 ++ offs l2.1 16 ++
  offs fifoOffs 8 ++ leBytes 8 (if w.context then l3.2 else 0) ++ leBytes 8 (if w.scratchBytes = 0 then 0 else scratchAt) ++
  tiles.flatMap pad8 ++ ops.flatMap pad8 ++ groups.flatMap pad8 ++ fifos.flatMap pad8 ++ pad8 slice ++
  memGetList w.scratch 0 w.scratchBytes

/-! ## Pre-emption -/

/-- A request of the workgroup's CHURN words that has not taken effect (R436). -/
def ChurnReq.withdrawn (r : ChurnReq) (core wg : Nat) : Bool :=
  (match r.who with
  | none => false
  | some x => decide (x.core = core ∧ x.wg = wg)) && decide (r.stage ≠ .taken) && (match r.work with
    | .bin _ _ _ => false
    | _ => true)

/-- CHURN words that have not taken effect are withdrawn (R436). -/
def State.withdrawWaiting (s : State) (core wg : Nat) : State :=
  let d := coreDie core
  let out := ((s.die d).reqs.filter (fun r => r.withdrawn core wg)).map (·.id)
  if out = [] then s
  else (s.modDie d (fun x => { x with reqs := x.reqs.filter (fun r => !out.contains r.id) })).modPkg
    (fun k => { k with boarded := k.boarded.filter (fun b => b.slot.isSome || !out.contains b.req) })

/-- What a waiting word of group g leaves in scratch when it gives up its place (R316). -/
def Workgroup.unwait (w : Workgroup) (g : Nat) (x : Wait) : Workgroup :=
  match x.kind with
  | .push n _ => queueMark w n g true false
  | .pop n => queueMark w n g false false
  | .bar off _ _ => w.setBar off { w.bar off with waiters := (w.bar off).waiters - 1 }
  | _ => w

/-- A request has left the core and takes its effect, or has taken it: a Churn request under way in its slot, a capture on a bin's tail, an
operation at the cluster atomic unit (R263, R436). -/
def State.underWay (s : State) (core id : Nat) : Bool :=
  (s.die (coreDie core)).reqs.any (fun r => decide (r.id = id) && (decide (r.stage = .taken) || (match r.work with
    | .bin _ _ _ => true
    | _ => false))) ||
  (s.cluster (coreCluster core)).atomReqs.any (fun r => decide (r.id = id))

/-- A waiting word keeps its place at pre-emption: a SLEEP, an answered word, and one whose request is under way. -/
def State.keepsWait (s : State) (core : Nat) (x : Wait) : Bool :=
  match x.kind with
  | .sleep _ => true
  | .answered _ _ => true
  | .reply id => s.underWay core id
  | .cwait id => s.underWay core id
  | _ => false

/-- The answered words of a group whose path is frozen complete before the context is saved, but for one that faults or whose chain goes on
(R436). -/
def State.writeAnswers (s : State) (core wg g : Nat) : State :=
  match s.group core wg g with
  | none => s
  | some x => x.waits.foldl (fun s w => match w.kind with
    | .answered q none => if w.rest.isNone then s.completeWait core wg g w [] q else s
    | _ => s) s

/-- Waiting words of a group have not completed: each issues again on resume (R263, R316). -/
def State.unwaitGroup (s : State) (core wg g : Nat) : State :=
  match s.group core wg g with
  | none => s
  | some x =>
    let out := x.waits.filter (fun w => !s.keepsWait core w)
    if out = [] then s
    else
      let s := out.foldl (fun s w => s.modWg core wg (fun k => k.unwait g w)) s
      s.modGroup core wg g (fun x => { x with waits := x.waits.filter (fun w => !out.contains w) })

/-- The slice's waiting word issues again (R263). -/
def State.unwaitSlice (s : State) (core wg : Nat) : State :=
  s.modWg core wg (fun k => match k.slice.wait with
    | none => k
    | some w =>
      let k := k.unwait 16 w
      let x := k.slice
      { k with slice := { x with wait := none } })

/-- An outside access is a load of the workgroup in slot wg of a core: one that waits for a memory tap completes instead. -/
def Outside.isLoadOf (o : Outside) (core wg : Nat) : Bool :=
  decide (o.who.core = core ∧ o.who.wg = wg) && (match o.work with
    | .load _ _ _ _ => decide (o.package ≠ tapParty)
    | .image _ _ _ => true
    | .sliceLoad _ _ _ => true
    | _ => false)

/-- The lanes of a replay entry with their addresses, ascending. -/
def Replay.lanes (r : Replay) : List (Nat × W64) := (maskList r.mask).zip r.addrs

/-- Further lanes join a replay entry. -/
def Replay.join (r : Replay) (xs : List (Nat × W64)) : Replay :=
  let ls := xs.foldl (fun l x => insertLane x l) r.lanes
  { r with mask := listMask (ls.map (·.1)), addrs := ls.map (·.2) }

/-- The lanes of a cancelled load join the replay entry of its word, or begin one (R263, R267). -/
def addReplay (word : W32) (o : Outside) (l : List Replay) : List Replay :=
  let xs := o.lanes.map (fun x => (x.1, o.va))
  let mine := fun (r : Replay) => decide (r.addr = BitVec.ofNat 64 (4 * o.pc) ∧ r.isRep = o.step.isSome ∧ r.step = o.step.getD 0) &&
    xs.all (fun x => !r.mask.getLsbD x.1)
  if l.any mine then l.map (fun r => if mine r then r.join xs else r)
  else l ++ [{ word := word, step := o.step.getD 0, isRep := o.step.isSome, addr := BitVec.ofNat 64 (4 * o.pc), mask := listMask (xs.map (·.1)),
               addrs := xs.map (·.2), acq := o.acq, work := o.work }]

/-- One outside load of the workgroup is cancelled (R263): a group's goes to its replay list, but for those of a word that sleeps, which issues
again. -/
def State.cancelLoad (s : State) (core wg asid : Nat) (o : Outside) : State :=
  let s := s.dropOutside o.id
  if o.who.grp = 16 ∨ (match o.work with
    | .load _ _ _ _ => false
    | _ => true) = true then s
  else
    let word := BitVec.ofNat 32 (s.codeWord asid (4 * o.pc))
    s.modGroup core wg o.who.grp (fun g =>
      { g with pend := g.pend.filter (fun p => decide (p.id ≠ o.id)), replay := addReplay word o g.replay })

/-- The workgroup stops: what has not taken effect is cancelled or will issue again (R263). (DEDUCED, log entry 64.) -/
def State.stopWg (s : State) (core wg : Nat) (w : Workgroup) : State :=
  let s := s.modWg core wg (fun k => { k with preempting := true })
  let s := (s.withdrawWaiting core wg).withdrawSeals core wg
  let s := (upto 0 w.groups.length).foldl (fun s g => (s.unwaitGroup core wg g).writeAnswers core wg g) s
  let s := (s.pkg.outside.filter (fun o => o.isLoadOf core wg)).foldl (fun s o => s.cancelLoad core wg w.asid o) s
  s.unwaitSlice core wg

/-- What has left the core is complete (R263): stores, atomics, results, copies, and CHURN words that have taken effect. -/
def State.drained (s : State) (core wg : Nat) (w : Workgroup) : Bool :=
  let mine := fun (x : Who) => decide (x.core = core ∧ x.wg = wg ∧ x.uid = w.uid)
  s.pkg.outside.all (fun o => !mine o.who) && (s.cluster (coreCluster core)).atomReqs.all (fun r => !mine r.who) &&
  (s.die (coreDie core)).reqs.all (fun r => match r.who with
    | none => true
    | some x => !mine x) &&
  s.agenda.all (fun it => match it with
    | .chain iss => !mine iss.who
    | _ => true) &&
  w.copies.isEmpty && w.groups.all (fun g => g.pend.isEmpty && g.frees.isEmpty)

/-- A SLEEP's remainder stands in place of its end while the context is saved. -/
def Wait.shift (f : Nat → Nat) (x : Wait) : Wait :=
  match x.kind with
  | .sleep till => { x with kind := .sleep (f till) }
  | _ => x

/-- Path ages are not saved (R267). -/
def Lane.resume (l : Lane) : Lane := { l with age := 0, forced := false, yielding := false, earliest := 0 }

/-- A workgroup as its save area holds it. (DEDUCED, log entry 63.) -/
def Workgroup.save (w : Workgroup) (now : Nat) : Workgroup :=
  { w with groups := w.groups.map (fun g => { g with waits := g.waits.map (Wait.shift (fun t => t - now)), lanes := g.lanes.map Lane.resume }) }

/-- What is written of a save area, by offset (R264): a tile that is clean is skipped, since its area is the one that it was restored from. -/
def Workgroup.savedParts (w : Workgroup) (img : List Byte) : List (Nat × List Byte) :=
  let tiles := (lmapIdx (fun n (t : Tile) => if t.clean then [] else [(256 + 7952 * n, (img.drop (256 + 7952 * n)).take 7952)]) 0 w.tiles).flatten
  (0, img.take 256) :: tiles ++ [(256 + 7952 * w.tiles.length, img.drop (256 + 7952 * w.tiles.length))]

/-- The context is saved and its slot returned (R264). -/
def State.saveWg (s : State) (core wg : Nat) (w : Workgroup) : State :=
  let s := (w.savedParts (s.saveImage w)).foldl (fun s x => s.linkWrites (x.2.length / 128 + 2) (w.savebase + x.1) x.2) s
  let k : Saved := { die := coreDie core, cluster := if w.grabbed then some (coreCluster core) else none, wg := w.save s.cycle }
  (s.modCore core (fun c => { c with wgs := tdel c.wgs wg })).modPkg (fun p => { p with saved := p.saved ++ [k] })

/-- System cause PREEMPT (R258). -/
def causePreempt : Nat := 0x20

/-- PREEMPT: firmware orders it as system cause PREEMPT, the workgroup stops, and once what has left the core is complete its context is
saved (R263, R264). A workgroup that has aborted, or that is over, is left to end. (DEDUCED, log entry 64.) -/
def execPreempt (core wg : Nat) (s : State) : Host.Outcome State Fault Refusal :=
  match s.wg core wg with
  | none => .next s
  | some w =>
    if w.aborted.isSome = true ∨ w.ended = true then .next s
    else
      let s := if w.preempting then s else s.systemCause causePreempt
      let s := s.stopWg core wg w
      match s.wg core wg with
      | none => .next s
      | some w => if s.drained core wg w then .next (s.saveWg core wg w) else .next s

/-! ## Restore -/

/-- Groups of a workgroup that have not retired. -/
def Workgroup.liveGroups (w : Workgroup) : List Group := w.groups.filter (fun g => !g.retired)

/-- A saved workgroup fits a core now (R232, R264, R343). -/
def State.fitsSaved (s : State) (core : Nat) (k : Saved) : Bool :=
  let c := s.core core
  let live := c.liveGroups
  let w := k.wg
  s.isProgramCore core && decide (coreDie core = k.die) &&
  (match k.cluster with
  | none => true
  | some x => decide (coreCluster core = x)) &&
  ((s.partOfCluster (coreCluster core)).map (·.1) == some w.part) &&
  decide (c.wgs.length < 16 ∧ live.length + w.liveGroups.length ≤ 32) &&
  decide ((live.map (·.2.quota)).sum + (w.liveGroups.map (·.quota)).sum ≤ 16384) &&
  decide ((c.wgs.map (·.2.scratchBytes)).sum + w.scratchBytes ≤ 1024 * s.partScratch w.part) &&
  decide ((c.wgs.map (·.2.tiles.length)).sum + w.tiles.length ≤ 16) &&
  decide ((c.wgs.map (fun x => (x.2.fifos.map (·.cap)).sum)).sum + (w.fifos.map (·.cap)).sum ≤ 496) &&
  decide ((c.wgs.filter (·.2.context)).length + (if w.context then 1 else 0) ≤ 4)

/-- The access kind of a replayed load. -/
def Replay.acc (r : Replay) : Acc := Acc.plain .read r.work.size r.work.size true 0

/-- A replayed load issues with its original lanes, but for those that have exited: its addresses are translated and checked afresh (R263, R487); a
lane's fault is taken at the word. (DEDUCED, log entry 64.) -/
def State.replayLoad (s : State) (who : Who) (w : Workgroup) (g : Group) (r : Replay) : State :=
  match r.work with
  | .load reg sh signed size =>
    let ls := r.lanes.filter (fun x => !(g.lane x.1).exited)
    let addr := fun (l : Nat) => ((ls.find? (fun x => decide (x.1 = l))).map (·.2)).getD 0
    let q := s.places who.core w r.acc ls
    match accTrap q.1 addr with
    | some t => q.2.takeTrap who.core who.wg who.grp (ls.map (·.1)) (r.addr.toNat / 4) t false
    | none =>
      let f := q.2.fresh
      let ok := q.1.filterMap (fun x => x.2.toOption.map (fun p => (x.1, p)))
      let s := f.2.l1Reads who.core w.asid 0 1 (f.2.herePieces (ok.map (·.2)))
      let away := fun (x : Nat × Place) => s.outsidePlace x.2 || s.tapPlace x.2
      let here := ok.filter (fun x => !away x)
      let good := (here.filter (fun x => !s.badPlace x.2)).map (fun x =>
        (x.1, answerElem signed size (leNat (s.readPlace w who.grp x.1 size x.2))))
      let bad := (here.filter (fun x => s.badPlace x.2)).map (fun x => (x.1, addr x.1))
      let s := s.modGroup who.core who.wg who.grp (fun y => y.land reg f.1 sh good bad)
      (combineLanes ((ok.filter away).flatMap (fun x => (placePieces [x.2]).map (fun p => (x.1, p))))).foldl
        (fun s x => s.sendLoad who f.1 reg r.work r.acq (addr (x.1.headD 0)) x.1 x.2) s
  | _ => s

/-- The replay lists of a workgroup issue before any other word (R263). -/
def State.replayWg (s : State) (core slot : Nat) (w : Workgroup) : State :=
  (upto 0 w.groups.length).foldl (fun s g => match w.group g with
    | none => s
    | some x =>
      let s := s.modGroup core slot g (fun y => { y with replay := [] })
      x.replay.foldl (fun s r => s.replayLoad ⟨core, slot, w.uid, g⟩ w x r) s) s

/-- A saved context is resident again (R264), as its save area holds it: its SLEEPs go on with their remainders. -/
def State.restoreWg (s : State) (n core : Nat) (k : Saved) : State :=
  let c := s.core core
  let slot := c.freeSlot
  let w := k.wg.reload (s.saveAreaAt k.wg.savebase)
  let w := { w with preempting := false, home := homeSlots w.home.length ((upto 0 4).map c.packsAt),
                    groups := w.groups.map (fun g => { g with waits := g.waits.map (Wait.shift (fun t => t + s.cycle)) }) }
  let s := s.modCore core (fun c => { c with wgs := tset c.wgs slot w })
  let s := s.modPkg (fun p => { p with saved := p.saved.eraseIdx n })
  s.replayWg core slot w

/-- CONTEXT_RESTORE of a saved context onto a core of its die and partition, in its own cluster if it has grabbed a range (R264, R343). -/
def execContextRestore (saved core : Nat) (s : State) : Host.Outcome State Fault Refusal :=
  match s.pkg.saved[saved]? with
  | none => .next s
  | some k => if s.fitsSaved core k then .next (s.restoreWg saved core k) else .next s

end Sys2Proof.Machine
end

