-- ==== Sys2Proof/Machine/Float.lean ====
section
/-!
DEFINITION. The floating-point majors FARITH, FCMP and FUNARY on points and intervals (R113 to R122, R143 to R148, R155).
-/
namespace Sys2Proof.Machine

/-! ## FARITH -/

/-- A lane's FARITH result on points (R113 to R115). -/
def Ctx.farithPt (c : Ctx) (w fn a b d l : Nat) : Except Cause (Elem × W64) :=
  let F := fmtOf w
  if fn = 6 ∨ fn = 7 then .ok (elemN (fminBits F (fn = 7) (c.src.readN a l) (c.src.readN b l)), c.gen l)
  else
    let m := c.mode 0
    let r := rndGen F m (c.gen l) (farithX fn m (c.pt w a l) (c.pt w b l) (c.pt w d l))
    .ok (elemN r.1, r.2)

/-- A lane's FARITH result on intervals (R144); the fused functions take a third. -/
def Ctx.farithIvLane (c : Ctx) (w fn : Nat) (regs : List Nat) (l : Nat) : Except Cause (Elem × W64) :=
  c.keepGen l (c.onIv w regs l (fun xs => match xs with
    | a :: b :: t =>
      let r := farithIv fn a b (t.headD a)
      .ok (outwardX (fmtOf w) r.1 r.2)
    | _ => .ok 0))

/-- FARITH in a group: function fn, which reads d when `rd` (R113, R144). -/
def farith (fn : Nat) (rd : Bool) (f : R3) (c : Ctx) (u : Uses) (s : State) : Did :=
  let regs := if rd then [f.a, f.b, f.d] else [f.a, f.b]
  match c.fltWidth regs with
  | none => .trap c.shapeTrap false s
  | some (w, false) => c.commit u (laneOut f.d (pointShape w) (c.act.map (fun l => ⟨l, c.farithPt w fn f.a f.b f.d l⟩))) s .done
  | some (w, true) =>
    c.commit u (laneOut f.d (ivShape w)
      (c.act.map (fun l => ⟨l, c.farithIvLane w fn regs l⟩))) s .done

/-- FADD: x + y (R113 to R115, R144). -/
def execFadd (f : R3) (s : State) : Host.Outcome State Fault Refusal := groupWord (u3 .a f false [f.d]) s (farith 0 false f)

/-- FSUB: x − y (R113 to R115, R144). -/
def execFsub (f : R3) (s : State) : Host.Outcome State Fault Refusal := groupWord (u3 .a f false [f.d]) s (farith 1 false f)

/-- FMUL: x × y (R113 to R115, R144). -/
def execFmul (f : R3) (s : State) : Host.Outcome State Fault Refusal := groupWord (u3 .a f false [f.d]) s (farith 2 false f)

/-- FMA: x × y + z (R113 to R115, R144). -/
def execFma (f : R3) (s : State) : Host.Outcome State Fault Refusal := groupWord (u3 .a f true [f.d]) s (farith 3 true f)

/-- FMS: x × y − z (R113 to R115, R144). -/
def execFms (f : R3) (s : State) : Host.Outcome State Fault Refusal := groupWord (u3 .a f true [f.d]) s (farith 4 true f)

/-- FNMA: −(x × y) + z (R113 to R115, R144). -/
def execFnma (f : R3) (s : State) : Host.Outcome State Fault Refusal := groupWord (u3 .a f true [f.d]) s (farith 5 true f)

/-- FMIN: the lesser (R113 to R115, R144). -/
def execFmin (f : R3) (s : State) : Host.Outcome State Fault Refusal := groupWord (u3 .a f false [f.d]) s (farith 6 false f)

/-- FMAX: the greater (R113 to R115, R144). -/
def execFmax (f : R3) (s : State) : Host.Outcome State Fault Refusal := groupWord (u3 .a f false [f.d]) s (farith 7 false f)

/-! ## FCMP -/

/-- FCMP in a group (R116 on points, R155 on intervals). -/
def fcmp (fn : Nat) (f : RCmp) (c : Ctx) (u : Uses) (s : State) : Did :=
  match c.fltWidth [f.a, f.b] with
  | none => .trap c.shapeTrap false s
  | some (w, false) =>
    c.commit u (Out.q f.q (c.act.map (fun l => (l, fcmpPoint fn (c.pt w f.a l) (c.pt w f.b l))))) s .done
  | some (w, true) => c.commit u (triOut f.q (c.act.map (fun l => (l, c.triIv w f.a f.b l (fcmpIv fn))))) s .done

/-- FCMP.LT: x < y (R116, R155). -/
def execFcmpLt (f : RCmp) (s : State) : Host.Outcome State Fault Refusal := groupWord (uc f) s (fcmp 0 f)

/-- FCMP.LE: x ≤ y (R116, R155). -/
def execFcmpLe (f : RCmp) (s : State) : Host.Outcome State Fault Refusal := groupWord (uc f) s (fcmp 1 f)

/-- FCMP.EQ: x = y (R116, R155). -/
def execFcmpEq (f : RCmp) (s : State) : Host.Outcome State Fault Refusal := groupWord (uc f) s (fcmp 2 f)

/-- FCMP.NE: x ≠ y (R116, R155). -/
def execFcmpNe (f : RCmp) (s : State) : Host.Outcome State Fault Refusal := groupWord (uc f) s (fcmp 3 f)

/-- FCMP.GT: x > y (R116, R155). -/
def execFcmpGt (f : RCmp) (s : State) : Host.Outcome State Fault Refusal := groupWord (uc f) s (fcmp 4 f)

/-- FCMP.GE: x ≥ y (R116, R155). -/
def execFcmpGe (f : RCmp) (s : State) : Host.Outcome State Fault Refusal := groupWord (uc f) s (fcmp 5 f)

/-- FCMP.UNO: a source is NaN (R116, R155). -/
def execFcmpUno (f : RCmp) (s : State) : Host.Outcome State Fault Refusal := groupWord (uc f) s (fcmp 6 f)

/-! ## FUNARY -/

/-- A lane's FUNARY result on a point (R118, R119, R122): codes 0 to 11, 13 and 14. -/
def Ctx.funaryPt (c : Ctx) (w code mode a l : Nat) : Except Cause (Elem × W64) :=
  let F := fmtOf w
  let x := c.pt w a l
  let bits := c.src.readN a l
  let g := c.gen l
  if x.isNan then .ok (elemN (qnan F), g)
  else if code = 0 then .ok (elemN (bits % 2 ^ (w - 1)), g)
  else if code = 1 then .ok (elemN (bits ^^^ 2 ^ (w - 1)), g)
  else if code = 13 ∨ code = 14 then .ok (elemN bits, g)
  else if code = 9 then .ok (elemN (roundN F 1 (rintFV 3 0 x).1), g)
  else if code = 10 then .ok (elemN (roundN F 1 (rintFV 4 0 x).1), g)
  else if code = 11 then
    let r := rintFV mode (genBits g) x
    .ok (elemN (roundN F 1 r.1), if r.2 then genStep g else g)
  else
    let r := rndGen F mode g (funaryX code x)
    .ok (elemN r.1, r.2)

/-- FUNARY but for FCLASS, IVLO, IVHI and MOV (R117, R118, R145). -/
def funary (code : Nat) (f : RRnd) (c : Ctx) (u : Uses) (s : State) : Did :=
  let k := c.src.shape f.a
  let w := k.width
  if k.isIv then
    c.commit u (laneOut f.d k (c.act.map (fun l => ⟨l, c.keepGen l (c.onIv w [f.a] l (fun xs => match xs with
      | x :: _ => funaryIv (fmtOf w) code (c.mode f.r) x
      | _ => .ok 0))⟩))) s .done
  else c.commit u (laneOut f.d k (c.act.map (fun l => ⟨l, c.funaryPt w code (c.mode f.r) f.a l⟩))) s .done

/-- IVLO and IVHI: a bound of an interval as a point, a point unchanged (R122, R148). -/
def ivBound (hi : Bool) (f : RRnd) (c : Ctx) (u : Uses) (s : State) : Did :=
  let k := c.src.shape f.a
  let w := k.width
  if k.isIv then
    c.commit u (laneOut f.d (pointShape w) (c.act.map (fun l =>
      let e := c.src.read f.a l
      ⟨l, c.keepGen l ((c.iv w f.a l).map (fun _ => elemN (plusZero (fmtOf w) (if hi then ivHiBits w e else ivLoBits w e))))⟩))) s .done
  else c.commit u (laneOut f.d k (c.act.map (fun l => ⟨l, c.funaryPt w (if hi then 14 else 13) 0 f.a l⟩))) s .done

/-- FABS: |x| (R118, R119, R145). -/
def execFabs (f : RRnd) (s : State) : Host.Outcome State Fault Refusal := groupWord (uRnd .a f 1 1) s (funary 0 f)

/-- FNEG: −x (R118, R119, R145). -/
def execFneg (f : RRnd) (s : State) : Host.Outcome State Fault Refusal := groupWord (uRnd .a f 1 1) s (funary 1 f)

/-- FSQRT: √x (R118, R119, R145). -/
def execFsqrt (f : RRnd) (s : State) : Host.Outcome State Fault Refusal := groupWord (uRnd .f f 1 1) s (funary 2 f)

/-- FRCP: 1/x (R118, R119, R145). -/
def execFrcp (f : RRnd) (s : State) : Host.Outcome State Fault Refusal := groupWord (uRnd .f f 1 1) s (funary 3 f)

/-- FRSQ: 1/√x (R118, R119, R145). -/
def execFrsq (f : RRnd) (s : State) : Host.Outcome State Fault Refusal := groupWord (uRnd .f f 1 1) s (funary 4 f)

/-- FEXP2: 2^x (R118, R119, R145). -/
def execFexp2 (f : RRnd) (s : State) : Host.Outcome State Fault Refusal := groupWord (uRnd .f f 1 1) s (funary 5 f)

/-- FLOG2: log₂ x (R118, R119, R145). -/
def execFlog2 (f : RRnd) (s : State) : Host.Outcome State Fault Refusal := groupWord (uRnd .f f 1 1) s (funary 6 f)

/-- FSIN: sin(πx) (R118, R119, R145). -/
def execFsin (f : RRnd) (s : State) : Host.Outcome State Fault Refusal := groupWord (uRnd .f f 1 1) s (funary 7 f)

/-- FCOS: cos(πx) (R118, R119, R145). -/
def execFcos (f : RRnd) (s : State) : Host.Outcome State Fault Refusal := groupWord (uRnd .f f 1 1) s (funary 8 f)

/-- FFLOOR: the greatest integer not above x (R118, R119, R145). -/
def execFfloor (f : RRnd) (s : State) : Host.Outcome State Fault Refusal := groupWord (uRnd .a f 1 1) s (funary 9 f)

/-- FCEIL: the least integer not below x (R118, R119, R145). -/
def execFceil (f : RRnd) (s : State) : Host.Outcome State Fault Refusal := groupWord (uRnd .a f 1 1) s (funary 10 f)

/-- FRINT: x rounded to an integer (R118, R119, R145). -/
def execFrint (f : RRnd) (s : State) : Host.Outcome State Fault Refusal := groupWord (uRnd .a f 1 1) s (funary 11 f)

/-- FCLASS: one bit for the class of a point (R120); an interval raises SHAPE (R148). -/
def execFclass (f : RRnd) (s : State) : Host.Outcome State Fault Refusal :=
  groupWord (uRnd .a f 1 1) s (fun c u s =>
    let k := c.src.shape f.a
    if k.isIv then .trap c.shapeTrap false s
    else c.commit u (Out.v f.d .p32 (c.act.map (fun l => (l, elemN (2 ^ fclassBit (fmtOf k.width) (c.src.readN f.a l)))))) s .done)

/-- IVLO: the lower bound (R122, R148). -/
def execIvlo (f : RRnd) (s : State) : Host.Outcome State Fault Refusal := groupWord (uRnd .a f 1 1) s (ivBound false f)

/-- IVHI: the upper bound (R122, R148). -/
def execIvhi (f : RRnd) (s : State) : Host.Outcome State Fault Refusal := groupWord (uRnd .a f 1 1) s (ivBound true f)

/-- Granules of a group that hold an active lane, ascending (R58, R121). -/
def Ctx.actGranules (c : Ctx) : List Nat := (upto 0 (c.grp.width / 8)).filter (fun g => c.act.any (fun l => decide (l / 8 = g)))

/-- MOV: the bits of a at its own shape, with the side bytes of the granule rows that hold an active lane (R121). -/
def execMov (f : R1) (s : State) : Host.Outcome State Fault Refusal :=
  groupWord (u1 .a f [f.d]) s (fun c u s =>
    let v := c.src.vreg f.a
    let n := c.grp.width / 8
    let ix := c.actGranules.flatMap (fun g => (upto 0 v.shape.rows).map (fun k => k * n + g))
    c.commit u { Out.v f.d v.shape (c.act.map (fun l => (l, c.src.read f.a l))) with
                 sides := [(f.d, ix.map (fun i => (i, v.side.getD i 0)))] } s .done)

end Sys2Proof.Machine
end

