-- ==== Sys2Proof/Machine/Convert.lean ====
section
/-!
DEFINITION. The conversions of major CVT and the side-byte words (R123 to R135).
-/
namespace Sys2Proof.Machine

/-! ## Shared operations -/

/-- Every register of a list is P32 (R123). -/
def Ctx.allP32 (c : Ctx) (regs : List Nat) : Bool := regs.all (fun r => decide (c.src.shape r = .p32))

/-- A single-register conversion: source and destination shapes, and the lane's bits and generator from its source bits (R123, R124). -/
def cvt1 (from_ dst : Shape) (f : RRnd) (op : Nat → W64 → Nat → Nat × W64) (c : Ctx) (u : Uses) (s : State) : Did :=
  if c.src.shape f.a ≠ from_ then .trap c.shapeTrap false s
  else
    let rs := c.act.map (fun l => (l, op (c.mode f.r) (c.gen l) (c.src.readN f.a l)))
    c.commit u { Out.v f.d dst (rs.map (fun r => (r.1, elemN r.2.1))) with gens := rs.map (fun r => (r.1, r.2.2)) } s .done

/-- A rounding of an exact value to a floating-point format (R94). -/
def cvtRound (F : Fmt) (x : Nat → XV) (mode : Nat) (g : W64) (b : Nat) : Nat × W64 := rndGen F mode g (x b)

/-- A rounding to an integer range, as n bits (R125). -/
def cvtInt (F : Fmt) (lo hi : Int) (n mode : Nat) (g : W64) (b : Nat) : Nat × W64 :=
  let r := roundI lo hi mode (genBits g) (decodeF F b)
  (wrapInt r.1 n, if r.2 then genStep g else g)

/-- A conversion that is exact (R124). -/
def cvtExact (op : Nat → Nat) (_mode : Nat) (g : W64) (b : Nat) : Nat × W64 := (op b, g)

/-- A 16-bit element of a lane word as FP32 (R59, R124). -/
def widen16 (F : Fmt) (high : Bool) (b : Nat) : Nat := roundN fp32 1 (decodeF F (if high then b / 65536 % 65536 else b % 65536)).toX

/-! ## Packing -/

/-- Elements of a lane taken in order, each with the generator that the one before left (R134). -/
def threadGen (op : W64 → Nat → Nat × W64) : W64 → List Nat → List Nat × W64
  | g, [] => ([], g)
  | g, x :: t =>
    let r := op g x
    let q := threadGen op r.2 t
    (r.1 :: q.1, q.2)

/-- Fields of n bits joined, the first lowest. -/
def joinBits (n : Nat) : List Nat → Nat
  | [] => 0
  | x :: t => x % 2 ^ n + 2 ^ n * joinBits n t

/-- The k-th n-bit field of a word. -/
def fieldBits (n k b : Nat) : Nat := b / 2 ^ (n * k) % 2 ^ n

/-- The source words of lane l: registers a, a + 1, … (R126). -/
def Ctx.packed (c : Ctx) (a n l : Nat) : List Nat := (regRun a n).map (fun r => c.src.readN r l)

/-- A packing word of n sources into fields of `bits` bits (R127); `side` gives a granule's new side byte, if the word writes one, from
the source words of its active lanes (R128, R130, R133), and `op` an element's code under it. -/
def cvtPack (n bits : Nat) (side : Option (List Nat → Nat)) (op : Nat → Nat → W64 → Nat → Nat × W64) (f : RRnd) (c : Ctx) (u : Uses)
    (s : State) : Did :=
  if c.allP32 (regRun f.a n) = false then .trap c.shapeTrap false s
  else
    let mode := c.mode f.r
    let sides := match side with
      | none => []
      | some h => c.actGranules.map (fun g => (g, h ((c.act.filter (fun l => decide (l / 8 = g))).flatMap (c.packed f.a n))))
    let code := fun (l : Nat) => ((sides.find? (fun x => decide (x.1 = l / 8))).map (·.2)).getD 0
    let rs := c.act.map (fun l => (l, threadGen (op mode (code l)) (c.gen l) (c.packed f.a n l)))
    c.commit u { Out.v f.d .p32 (rs.map (fun r => (r.1, elemN (joinBits bits r.2.1)))) with
                 gens := rs.map (fun r => (r.1, r.2.2))
                 sides := [(f.d, sides.map (fun x => (x.1, BitVec.ofNat 8 x.2)))] } s .done

/-- An unpacking word: the n fields of a lane's word, with its granule's side byte, to registers d, d + 1, … (R126, R127). -/
def cvtUnpack (n bits : Nat) (op : Nat → Nat → W64 → Nat → Nat × W64) (f : RRnd) (c : Ctx) (u : Uses) (s : State) : Did :=
  if c.src.shape f.a ≠ .p32 then .trap c.shapeTrap false s
  else
    let mode := c.mode f.r
    let v := c.src.vreg f.a
    let rs := c.act.map (fun l =>
      (l, threadGen (op mode (v.side.getD (l / 8) 0).toNat) (c.gen l) ((upto 0 n).map (fun k => fieldBits bits k (c.src.readN f.a l)))))
    let vs := lmapIdx (fun k d => (⟨d, .p32, rs.map (fun r => (r.1, elemN (r.2.1.getD k 0)))⟩ : VWrite)) 0 (regRun f.d n)
    c.commit u { Out.none with vs := vs, gens := rs.map (fun r => (r.1, r.2.2)) } s .done

/-! ## Block scales -/

/-- The greatest finite magnitude among FP32 words (R128): M. -/
def maxFinite (ws : List Nat) : FV :=
  ws.foldl (fun m w => match decodeF fp32 w with
    | .fin _ k e => maxFV m (.fin false k e)
    | _ => m) (.fin false 0 0)

/-- The E8M0 scale of a block whose greatest encodable magnitude is `top` (R128). -/
def blockScale (top : Nat) (ws : List Nat) : Nat :=
  let m := maxFinite ws
  if m.isZero then 127
  else ((upto 0 255).find? (fun (e : Nat) => decide (cmpFV m (.fin false top ((e : Int) - 127)) ≤ 0))).getD 254

/-- A value times 2^k. -/
def scaleFV (k : Int) : FV → FV
  | .nan => .nan
  | .inf n => .inf n
  | .fin n m e => .fin n m (e + k)

/-- An element packed under a block scale e (R128). -/
def packBlock (F : Fmt) (mode e : Nat) (g : W64) (w : Nat) : Nat × W64 :=
  rndGen F mode g (scaleFV (127 - (e : Int)) (decodeF fp32 w)).toX

/-- An element unpacked under a block scale e (R129). -/
def unpackBlock (F : Fmt) (mode e : Nat) (g : W64) (b : Nat) : Nat × W64 :=
  rndGen fp32 mode g (if e = 255 then .nan else (scaleFV ((e : Int) - 127) (decodeF F b)).toX)

/-- The Q4N code of a granule under a superscale (R130). -/
def q4Code (sup : W32) (ws : List Nat) : Nat :=
  match decodeF fp32 sup.toNat, maxFinite ws with
  | .fin false ms es, .fin _ mm em =>
    if ms = 0 ∨ mm = 0 then 0
    else
      let k := em - es
      let num := 256 * mm * 2 ^ k.toNat
      let den := ms * 2 ^ (-k).toNat
      min 255 ((num + den - 1) / den)
  | _, _ => 0

/-- An element packed under a Q4N code and superscale (R130). -/
def packQ4 (sup : W32) (mode c : Nat) (g : W64) (w : Nat) : Nat × W64 :=
  if c = 0 then (7, g)
  else match decodeF fp32 w, decodeF fp32 sup.toNat with
    | .nan, _ => (7, g)
    | .inf n, _ => (if n then 0 else 15, g)
    | .fin n m e, .fin _ ms es =>
      let k := e - es
      let num : Int := (256 * m * 2 ^ k.toNat : Nat)
      let den := c * ms * 2 ^ (-k).toNat
      let r := roundQ4 mode (genBits g) (if n then -num else num) den
      (r.1, if r.2 then genStep g else g)
    | _, _ => (7, g)

/-- An element unpacked under a Q4N code and superscale (R131); an exact zero has the product of the signs. (DESIGN CHOICE, log entry 84.) -/
def unpackQ4 (sup : W32) (mode c : Nat) (g : W64) (b : Nat) : Nat × W64 :=
  rndGen fp32 mode g (mulFV (mulFV (codebook b) (.fin false c (-8))) (decodeF fp32 sup.toNat)).toX

/-! ## The words -/

/-- CVT.F64.F32: FP32 to FP64, exact (R124). -/
def execCvtF64F32 (f : RRnd) (s : State) : Host.Outcome State Fault Refusal :=
  groupWord (uRnd .a f 1 1) s (cvt1 .p32 .p64 f (cvtExact (fun b => roundN fp64 1 (decodeF fp32 b).toX)))

/-- CVT.F32.F64: FP64 rounded to FP32 (R124). -/
def execCvtF32F64 (f : RRnd) (s : State) : Host.Outcome State Fault Refusal :=
  groupWord (uRnd .a f 1 1) s (cvt1 .p64 .p32 f (cvtRound fp32 (fun b => (decodeF fp64 b).toX)))

/-- CVT.F32.I32: a signed integer rounded to FP32 (R124). -/
def execCvtF32I32 (f : RRnd) (s : State) : Host.Outcome State Fault Refusal :=
  groupWord (uRnd .a f 1 1) s (cvt1 .p32 .p32 f (cvtRound fp32 (fun b => intX (sextN b 32))))

/-- CVT.F32.N32: an unsigned integer rounded to FP32 (R124). -/
def execCvtF32N32 (f : RRnd) (s : State) : Host.Outcome State Fault Refusal :=
  groupWord (uRnd .a f 1 1) s (cvt1 .p32 .p32 f (cvtRound fp32 (fun b => intX b)))

/-- CVT.I32.F32: FP32 rounded to INT32, saturating (R124, R125). -/
def execCvtI32F32 (f : RRnd) (s : State) : Host.Outcome State Fault Refusal :=
  groupWord (uRnd .a f 1 1) s (cvt1 .p32 .p32 f (cvtInt fp32 (-2147483648) 2147483647 32))

/-- CVT.N32.F32: FP32 rounded to N32, saturating (R124, R125). -/
def execCvtN32F32 (f : RRnd) (s : State) : Host.Outcome State Fault Refusal :=
  groupWord (uRnd .a f 1 1) s (cvt1 .p32 .p32 f (cvtInt fp32 0 4294967295 32))

/-- CVT.F64.I64: a signed 64-bit integer rounded to FP64 (R124). -/
def execCvtF64I64 (f : RRnd) (s : State) : Host.Outcome State Fault Refusal :=
  groupWord (uRnd .a f 1 1) s (cvt1 .p64 .p64 f (cvtRound fp64 (fun b => intX (sextN b 64))))

/-- CVT.I64.F64: FP64 rounded to INT64, saturating (R124, R125). -/
def execCvtI64F64 (f : RRnd) (s : State) : Host.Outcome State Fault Refusal :=
  groupWord (uRnd .a f 1 1) s (cvt1 .p64 .p64 f (cvtInt fp64 (-9223372036854775808) 9223372036854775807 64))

/-- CVT.F32.F16L: the low FP16 element as FP32 (R124). -/
def execCvtF32F16l (f : RRnd) (s : State) : Host.Outcome State Fault Refusal :=
  groupWord (uRnd .a f 1 1) s (cvt1 .p32 .p32 f (cvtExact (widen16 fp16 false)))

/-- CVT.F32.F16H: the high FP16 element as FP32 (R124). -/
def execCvtF32F16h (f : RRnd) (s : State) : Host.Outcome State Fault Refusal :=
  groupWord (uRnd .a f 1 1) s (cvt1 .p32 .p32 f (cvtExact (widen16 fp16 true)))

/-- CVT.F32.BF16L: the low BF16 element as FP32 (R124). -/
def execCvtF32Bf16l (f : RRnd) (s : State) : Host.Outcome State Fault Refusal :=
  groupWord (uRnd .a f 1 1) s (cvt1 .p32 .p32 f (cvtExact (widen16 bf16 false)))

/-- CVT.F32.BF16H: the high BF16 element as FP32 (R124). -/
def execCvtF32Bf16h (f : RRnd) (s : State) : Host.Outcome State Fault Refusal :=
  groupWord (uRnd .a f 1 1) s (cvt1 .p32 .p32 f (cvtExact (widen16 bf16 true)))

/-- CVT.PK.F16: two FP32 registers to FP16 pairs (R127). -/
def execCvtPkF16 (f : RRnd) (s : State) : Host.Outcome State Fault Refusal :=
  groupWord (uRnd .a f 2 1) s (cvtPack 2 16 none (fun m _ => cvtRound fp16 (fun b => (decodeF fp32 b).toX) m) f)

/-- CVT.PK.BF16: two FP32 registers to BF16 pairs (R127). -/
def execCvtPkBf16 (f : RRnd) (s : State) : Host.Outcome State Fault Refusal :=
  groupWord (uRnd .a f 2 1) s (cvtPack 2 16 none (fun m _ => cvtRound bf16 (fun b => (decodeF fp32 b).toX) m) f)

/-- CVT.PK.E4M3: four FP32 registers to an E4M3 block (R128). -/
def execCvtPkE4m3 (f : RRnd) (s : State) : Host.Outcome State Fault Refusal :=
  groupWord (uRnd .f f 4 1) s (cvtPack 4 8 (some (blockScale 448)) (packBlock e4m3) f)

/-- CVT.PK.E5M2: four FP32 registers to an E5M2 block (R128). -/
def execCvtPkE5m2 (f : RRnd) (s : State) : Host.Outcome State Fault Refusal :=
  groupWord (uRnd .f f 4 1) s (cvtPack 4 8 (some (blockScale 57344)) (packBlock e5m2) f)

/-- CVT.UP.E4M3: an E4M3 block to four FP32 registers (R129). -/
def execCvtUpE4m3 (f : RRnd) (s : State) : Host.Outcome State Fault Refusal :=
  groupWord (uRnd .f f 1 4) s (cvtUnpack 4 8 (unpackBlock e4m3) f)

/-- CVT.UP.E5M2: an E5M2 block to four FP32 registers (R129). -/
def execCvtUpE5m2 (f : RRnd) (s : State) : Host.Outcome State Fault Refusal :=
  groupWord (uRnd .f f 1 4) s (cvtUnpack 4 8 (unpackBlock e5m2) f)

/-- CVT.PK.Q4N: eight FP32 registers to a Q4N block (R130). -/
def execCvtPkQ4n (f : RRnd) (s : State) : Host.Outcome State Fault Refusal :=
  groupWord (uRnd .f f 8 1) s (fun c u s => cvtPack 8 4 (some (q4Code c.src.ctrl.q4scale)) (packQ4 c.src.ctrl.q4scale) f c u s)

/-- CVT.UP.Q4N: a Q4N block to eight FP32 registers (R131). -/
def execCvtUpQ4n (f : RRnd) (s : State) : Host.Outcome State Fault Refusal :=
  groupWord (uRnd .f f 1 8) s (fun c u s => cvtUnpack 8 4 (unpackQ4 c.src.ctrl.q4scale) f c u s)

/-- CVT.PK.I8: four INT32 registers to saturated bytes (R132). -/
def execCvtPkI8 (f : RRnd) (s : State) : Host.Outcome State Fault Refusal :=
  groupWord (uRnd .a f 4 1) s (cvtPack 4 8 none (fun _ _ g b => (wrapInt (satInt (-128) 127 (sextN b 32)) 8, g)) f)

/-- CVT.UP.I8: bytes to four INT32 registers (R132). -/
def execCvtUpI8 (f : RRnd) (s : State) : Host.Outcome State Fault Refusal :=
  groupWord (uRnd .a f 1 4) s (cvtUnpack 4 8 (fun _ _ g b => (wrapInt (sextN b 8) 32, g)) f)

/-- CVT.I64.I32: sign extension (R124). -/
def execCvtI64I32 (f : RRnd) (s : State) : Host.Outcome State Fault Refusal :=
  groupWord (uRnd .a f 1 1) s (cvt1 .p32 .p64 f (cvtExact (fun b => wrapInt (sextN b 32) 64)))

/-- CVT.N64.N32: zero extension (R124). -/
def execCvtN64N32 (f : RRnd) (s : State) : Host.Outcome State Fault Refusal :=
  groupWord (uRnd .a f 1 1) s (cvt1 .p32 .p64 f (cvtExact (fun b => b)))

/-- CVT.I32.I64: saturation to 32 bits (R124). -/
def execCvtI32I64 (f : RRnd) (s : State) : Host.Outcome State Fault Refusal :=
  groupWord (uRnd .a f 1 1) s (cvt1 .p64 .p32 f (cvtExact (fun b => wrapInt (satInt (-2147483648) 2147483647 (sextN b 64)) 32)))

/-- SIDE.GET: the side byte of row 0 of the granule that holds the lane (R135). -/
def execSideGet (f : RRnd) (s : State) : Host.Outcome State Fault Refusal :=
  groupWord (uRnd .a f 1 1) s (fun c u s =>
    let v := c.src.vreg f.a
    c.commit u (Out.v f.d .p32 (c.act.map (fun l => (l, elemN (v.side.getD (l / 8) 0).toNat)))) s .done)

/-- SIDE.SET: the side byte of each granule of row 0 of d, from a in its lowest active lane; d keeps its shape and data (R135).
(DEDUCED, log entry 66.) -/
def execSideSet (f : RRnd) (s : State) : Host.Outcome State Fault Refusal :=
  groupWord { uRnd .a f 1 1 with reads := [.v f.a, .v f.d] } s (fun c u s =>
    if c.src.shape f.a ≠ .p32 then .trap c.shapeTrap false s
    else
      let byte := fun (g : Nat) => BitVec.ofNat 8 (c.src.readN f.a ((c.act.find? (fun l => decide (l / 8 = g))).getD 0))
      c.commit u { Out.v f.d (c.grp.shape f.d) [] with sides := [(f.d, c.actGranules.map (fun g => (g, byte g)))] } s .done)

end Sys2Proof.Machine
end

