-- ==== Sys2Proof/Machine/Integer.lean ====
section
/-!
DEFINITION. The integer majors IARITH, ILOGIC, IBITS, ICMP, IIMM, MOVI and MOVHI (R95 to R112), in a group and in a slice (R252).
Values are W-bit patterns as numbers.
-/
namespace Sys2Proof.Machine

/-! ## Shared operations -/

/-- The operation width of integer sources (R95): one point width for all, or none. -/
def Ctx.intWidth (c : Ctx) (regs : List Nat) : Option Nat :=
  match regs with
  | [] => none
  | r :: _ =>
    let k := c.src.shape r
    if k.isIv = false ∧ regs.all (fun q => decide (c.src.shape q = k)) = true then some k.width else none

/-- The results of an integer word in its active lanes: op on W and the lane's sources, the third being d. -/
def Ctx.intVals (c : Ctx) (w a b d : Nat) (op : Nat → Nat → Nat → Nat → Nat) : List (Nat × Elem) :=
  c.act.map (fun l => (l, elemN (op w (c.src.readN a l) (c.src.readN b l) (c.src.readN d l) % 2 ^ w)))

/-- A group's integer word of sources `regs` (R95 to R97). -/
def intGroup (regs : List Nat) (d a b : Nat) (op : Nat → Nat → Nat → Nat → Nat) (c : Ctx) (u : Uses) (s : State) : Did :=
  match c.intWidth regs with
  | none => .trap c.shapeTrap false s
  | some w => c.commit u (Out.v d (pointShape w) (c.intVals w a b d op)) s .done

/-- A slice's integer word: W = 64 (R252). -/
def intSlice (d a b : Nat) (op : Nat → Nat → Nat → Nat → Nat) (x : Slice) (s : State) : SliceDid :=
  .done (s.modCurSlice (fun y => y.setReg d
    (BitVec.ofNat 64 (op 64 (x.reg a).toNat (x.reg b).toNat (x.reg d).toNat % 2 ^ 64))))

/-- An integer word of two sources, and of d when `rd` (R103, R105 to R107). -/
def intWord (u : Uses) (d a b : Nat) (rd : Bool) (op : Nat → Nat → Nat → Nat → Nat) (s : State) :
    Host.Outcome State Fault Refusal :=
  bothWord u s (intGroup (if rd then [a, b, d] else [a, b]) d a b op) (intSlice d a b op)

/-- An integer word of one source (R106). -/
def intWord1 (u : Uses) (d a : Nat) (op : Nat → Nat → Nat) (s : State) : Host.Outcome State Fault Refusal :=
  bothWord u s (intGroup [a] d a a (fun w x _ _ => op w x)) (intSlice d a a (fun w x _ _ => op w x))

/-- An integer word with an immediate, widened to W by sign extension (R110). -/
def immWord (u : Uses) (f : RImm) (op : Nat → Nat → Nat → Nat) (s : State) : Host.Outcome State Fault Refusal :=
  let g := fun (w x _ _ : Nat) => op w x (wrapInt (sextN f.i 9) w)
  bothWord u s (intGroup [f.a] f.d f.a f.a g) (intSlice f.d f.a f.a g)

/-- A group's integer compare (R108). -/
def cmpGroup (q a b : Nat) (rel : Nat → Nat → Nat → Bool) (c : Ctx) (u : Uses) (s : State) : Did :=
  match c.intWidth [a, b] with
  | none => .trap c.shapeTrap false s
  | some w => c.commit u (Out.q q (c.act.map (fun l => (l, Tri.ofBool (rel w (c.src.readN a l) (c.src.readN b l)))))) s .done

/-- A slice's integer compare (R252). -/
def cmpSlice (q a b : Nat) (rel : Nat → Nat → Nat → Bool) (x : Slice) (s : State) : SliceDid :=
  .done (s.modCurSlice (fun y => y.setPred q (Tri.ofBool (rel 64 (x.reg a).toNat (x.reg b).toNat))))

/-- An integer compare (R108). -/
def cmpWord (u : Uses) (f : RCmp) (rel : Nat → Nat → Nat → Bool) (s : State) : Host.Outcome State Fault Refusal :=
  bothWord u s (cmpGroup f.q f.a f.b rel) (cmpSlice f.q f.a f.b rel)

/-! ## What the functions compute -/

/-- The signed quotient truncated toward zero; all ones for a zero divisor (R103, R104). -/
def divSigned (w x y : Nat) : Nat := if y % 2 ^ w = 0 then 2 ^ w - 1 else wrapInt ((sextN x w).tdiv (sextN y w)) w
/-- The unsigned quotient; all ones for a zero divisor (R103, R104). -/
def divUnsigned (w x y : Nat) : Nat := if y % 2 ^ w = 0 then 2 ^ w - 1 else x / y
/-- Arithmetic shift right (R105). -/
def shiftArith (w x c : Nat) : Nat := wrapInt (sextN x w / 2 ^ c) w
/-- Rotate right (R105). -/
def rotateRight (w x c : Nat) : Nat := (x / 2 ^ c) ||| (x * 2 ^ (w - c) % 2 ^ w)
/-- Population count (R106). -/
def popCount (w x : Nat) : Nat := ((upto 0 w).filter (fun k => x.testBit k)).length
/-- Leading zeros (R106). -/
def leadingZeros (w x : Nat) : Nat := ((upto 0 w).takeWhile (fun k => !x.testBit (w - 1 - k))).length
/-- Bit reversal (R106). -/
def bitReverse (w x : Nat) : Nat := (BitVec.ofNat w x).reverse.toNat
/-- BFX (R107). -/
def bitField (w x y : Nat) : Nat :=
  let pos := y % 64
  let len := y / 256 % 64
  let e := min (pos + len) w
  if w ≤ pos ∨ len = 0 then 0
  else
    let f := x / 2 ^ pos % 2 ^ (e - pos)
    if y / 2 ^ 15 % 2 = 1 then wrapInt (sextN f (e - pos)) w else f

/-! ## IARITH (R103, R104) -/


/-- IADD: a + b modulo 2^W (R103). -/
def execIadd (f : R3) (s : State) : Host.Outcome State Fault Refusal :=
  intWord (u3 .a f false [f.d]) f.d f.a f.b false (fun _ x y _ => x + y) s

/-- ISUB: a − b modulo 2^W (R103). -/
def execIsub (f : R3) (s : State) : Host.Outcome State Fault Refusal :=
  intWord (u3 .a f false [f.d]) f.d f.a f.b false (fun w x y _ => x + 2 ^ w - y) s

/-- IMUL: the low half of the product (R103). -/
def execImul (f : R3) (s : State) : Host.Outcome State Fault Refusal :=
  intWord (u3 .a f false [f.d]) f.d f.a f.b false (fun _ x y _ => x * y) s

/-- IMULH: the high half of the signed product (R103). -/
def execImulh (f : R3) (s : State) : Host.Outcome State Fault Refusal :=
  intWord (u3 .a f false [f.d]) f.d f.a f.b false (fun w x y _ => wrapInt (sextN x w * sextN y w / 2 ^ w) w) s

/-- IMULHN: the high half of the unsigned product (R103). -/
def execImulhn (f : R3) (s : State) : Host.Outcome State Fault Refusal :=
  intWord (u3 .a f false [f.d]) f.d f.a f.b false (fun w x y _ => x * y / 2 ^ w) s

/-- IMAD: a × b + d modulo 2^W (R103). -/
def execImad (f : R3) (s : State) : Host.Outcome State Fault Refusal :=
  intWord (u3 .a f true [f.d]) f.d f.a f.b true (fun _ x y z => x * y + z) s

/-- IDIV: signed quotient (R103, R104). -/
def execIdiv (f : R3) (s : State) : Host.Outcome State Fault Refusal :=
  intWord (u3 .f f false [f.d]) f.d f.a f.b false (fun w x y _ => divSigned w x y) s

/-- IDIVN: unsigned quotient (R103, R104). -/
def execIdivn (f : R3) (s : State) : Host.Outcome State Fault Refusal :=
  intWord (u3 .f f false [f.d]) f.d f.a f.b false (fun w x y _ => divUnsigned w x y) s

/-! ## ILOGIC (R105) -/

/-- AND: bitwise and (R105). -/
def execAnd (f : R3) (s : State) : Host.Outcome State Fault Refusal :=
  intWord (u3 .a f false [f.d]) f.d f.a f.b false (fun _ x y _ => x &&& y) s

/-- OR: bitwise or (R105). -/
def execOr (f : R3) (s : State) : Host.Outcome State Fault Refusal :=
  intWord (u3 .a f false [f.d]) f.d f.a f.b false (fun _ x y _ => x ||| y) s

/-- XOR: bitwise exclusive or (R105). -/
def execXor (f : R3) (s : State) : Host.Outcome State Fault Refusal :=
  intWord (u3 .a f false [f.d]) f.d f.a f.b false (fun _ x y _ => x ^^^ y) s

/-- ANDN: a and not b (R105). -/
def execAndn (f : R3) (s : State) : Host.Outcome State Fault Refusal :=
  intWord (u3 .a f false [f.d]) f.d f.a f.b false (fun w x y _ => x &&& (2 ^ w - 1 - y)) s

/-- SHL: shift left by b mod W (R105). -/
def execShl (f : R3) (s : State) : Host.Outcome State Fault Refusal :=
  intWord (u3 .a f false [f.d]) f.d f.a f.b false (fun w x y _ => x * 2 ^ (y % w)) s

/-- SHR: logical shift right by b mod W (R105). -/
def execShr (f : R3) (s : State) : Host.Outcome State Fault Refusal :=
  intWord (u3 .a f false [f.d]) f.d f.a f.b false (fun w x y _ => x / 2 ^ (y % w)) s

/-- SAR: arithmetic shift right by b mod W (R105). -/
def execSar (f : R3) (s : State) : Host.Outcome State Fault Refusal :=
  intWord (u3 .a f false [f.d]) f.d f.a f.b false (fun w x y _ => shiftArith w x (y % w)) s

/-- ROTR: rotate right by b mod W (R105). -/
def execRotr (f : R3) (s : State) : Host.Outcome State Fault Refusal :=
  intWord (u3 .a f false [f.d]) f.d f.a f.b false (fun w x y _ => rotateRight w x (y % w)) s

/-! ## IBITS (R106, R107) -/

/-- IMIN: signed lesser (R106). -/
def execImin (f : R3) (s : State) : Host.Outcome State Fault Refusal :=
  intWord (u3 .a f false [f.d]) f.d f.a f.b false (fun w x y _ => if sextN x w ≤ sextN y w then x else y) s

/-- IMAX: signed greater (R106). -/
def execImax (f : R3) (s : State) : Host.Outcome State Fault Refusal :=
  intWord (u3 .a f false [f.d]) f.d f.a f.b false (fun w x y _ => if sextN y w ≤ sextN x w then x else y) s

/-- NMIN: unsigned lesser (R106). -/
def execNmin (f : R3) (s : State) : Host.Outcome State Fault Refusal :=
  intWord (u3 .a f false [f.d]) f.d f.a f.b false (fun _ x y _ => min x y) s

/-- NMAX: unsigned greater (R106). -/
def execNmax (f : R3) (s : State) : Host.Outcome State Fault Refusal :=
  intWord (u3 .a f false [f.d]) f.d f.a f.b false (fun _ x y _ => max x y) s

/-- POPC: the number of 1 bits of a (R106). -/
def execPopc (f : R1) (s : State) : Host.Outcome State Fault Refusal :=
  intWord1 (u1 .a f [f.d]) f.d f.a popCount s

/-- CLZ: the number of leading 0 bits of a (R106). -/
def execClz (f : R1) (s : State) : Host.Outcome State Fault Refusal :=
  intWord1 (u1 .a f [f.d]) f.d f.a leadingZeros s

/-- BREV: bit reversal of a (R106). -/
def execBrev (f : R1) (s : State) : Host.Outcome State Fault Refusal :=
  intWord1 (u1 .a f [f.d]) f.d f.a bitReverse s

/-- BFX: bit-field extract (R107). -/
def execBfx (f : R3) (s : State) : Host.Outcome State Fault Refusal :=
  intWord (u3 .a f false [f.d]) f.d f.a f.b false (fun w x y _ => bitField w x y) s

/-! ## ICMP (R108, R109) -/

/-- ICMP.EQ: T where x = y (R108). -/
def execIcmpEq (f : RCmp) (s : State) : Host.Outcome State Fault Refusal :=
  cmpWord (uc f) f (fun _ x y => decide (x = y)) s

/-- ICMP.NE: T where x ≠ y (R108). -/
def execIcmpNe (f : RCmp) (s : State) : Host.Outcome State Fault Refusal :=
  cmpWord (uc f) f (fun _ x y => decide (x ≠ y)) s

/-- ICMP.LT: T where signed x < y (R108). -/
def execIcmpLt (f : RCmp) (s : State) : Host.Outcome State Fault Refusal :=
  cmpWord (uc f) f (fun w x y => decide (sextN x w < sextN y w)) s

/-- ICMP.LE: T where signed x ≤ y (R108). -/
def execIcmpLe (f : RCmp) (s : State) : Host.Outcome State Fault Refusal :=
  cmpWord (uc f) f (fun w x y => decide (sextN x w ≤ sextN y w)) s

/-- ICMP.LTN: T where unsigned x < y (R108). -/
def execIcmpLtn (f : RCmp) (s : State) : Host.Outcome State Fault Refusal :=
  cmpWord (uc f) f (fun _ x y => decide (x < y)) s

/-- ICMP.LEN: T where unsigned x ≤ y (R108). -/
def execIcmpLen (f : RCmp) (s : State) : Host.Outcome State Fault Refusal :=
  cmpWord (uc f) f (fun _ x y => decide (x ≤ y)) s

/-- ICMP.TST: T where x and y share a bit (R108). -/
def execIcmpTst (f : RCmp) (s : State) : Host.Outcome State Fault Refusal :=
  cmpWord (uc f) f (fun _ x y => decide (x &&& y ≠ 0)) s

/-- The shape of SEL's result (R109): that of the sources, an interval where a point meets one; none for two widths. -/
def selShape (a b : Shape) : Option Shape :=
  if a.width ≠ b.width then none else if a.isIv || b.isIv then some (ivShape a.width) else some a

/-- SEL in a group (R109): it runs in every lane of the path; the condition of G picks a or b, bit for bit. -/
def selGroup (f : R3) (c : Ctx) (u : Uses) (s : State) : Did :=
  match selShape (c.src.shape f.a) (c.src.shape f.b) with
  | none => .trap c.shapeTrap false s
  | some k =>
    let pick := fun (l : Nat) =>
      let r := if guardPasses f.g (c.src.lane l) then f.a else f.b
      if k.isIv then promote k.width (c.src.shape r) (c.src.read r l) else c.src.read r l
    c.commit u (Out.v f.d k (c.act.map (fun l => (l, pick l)))) s .done

/-- SEL in a slice (R252). -/
def selSlice (f : R3) (x : Slice) (s : State) : SliceDid :=
  .done (s.modCurSlice (fun y => y.setReg f.d (if x.guard f.g then x.reg f.a else x.reg f.b)))

/-- SEL: a where the condition of G holds, b elsewhere (R109). -/
def execSel (f : R3) (s : State) : Host.Outcome State Fault Refusal :=
  bothWord (uSel f) s (selGroup f) (selSlice f)

/-! ## IIMM (R110) -/

/-- IADDI: a + i, i sign-extended (R110). -/
def execIaddi (f : RImm) (s : State) : Host.Outcome State Fault Refusal :=
  immWord (uImm f) f (fun _ x i => x + i) s

/-- ANDI: a and i, i sign-extended (R110). -/
def execAndi (f : RImm) (s : State) : Host.Outcome State Fault Refusal :=
  immWord (uImm f) f (fun _ x i => x &&& i) s

/-- ORI: a or i, i sign-extended (R110). -/
def execOri (f : RImm) (s : State) : Host.Outcome State Fault Refusal :=
  immWord (uImm f) f (fun _ x i => x ||| i) s

/-- XORI: a xor i, i sign-extended (R110). -/
def execXori (f : RImm) (s : State) : Host.Outcome State Fault Refusal :=
  immWord (uImm f) f (fun _ x i => x ^^^ i) s

/-- SHLI: a shifted left by i mod W, i sign-extended (R110). -/
def execShli (f : RImm) (s : State) : Host.Outcome State Fault Refusal :=
  immWord (uImm f) f (fun w x i => x * 2 ^ (i % w)) s

/-- SHRI: a shifted right by i mod W, i sign-extended (R110). -/
def execShri (f : RImm) (s : State) : Host.Outcome State Fault Refusal :=
  immWord (uImm f) f (fun w x i => x / 2 ^ (i % w)) s

/-- SARI: a shifted right arithmetically by i mod W, i sign-extended (R110). -/
def execSari (f : RImm) (s : State) : Host.Outcome State Fault Refusal :=
  immWord (uImm f) f (fun w x i => shiftArith w x (i % w)) s

/-- IMULI: a × i, i sign-extended (R110). -/
def execImuli (f : RImm) (s : State) : Host.Outcome State Fault Refusal :=
  immWord (uImm f) f (fun _ x i => x * i) s

/-! ## MOVI and MOVHI (R111, R112) -/

/-- MOVI: the sign-extended 18-bit immediate at P32 (R111); as 64 bits in a slice (R252). -/
def execMovi (f : RWide) (s : State) : Host.Outcome State Fault Refusal :=
  bothWord (uWide f false) s
    (fun c u s => c.commit u (Out.v f.d .p32 (c.all (elemN (wrapInt (sextN f.i 18) 32)))) s .done)
    (fun _ s => .done (s.modCurSlice (fun y => y.setReg f.d (BitVec.ofInt 64 (sextN f.i 18)))))

/-- MOVHI: bits [31:14] replaced, [13:0] kept (R112); [63:32] zero in a slice (R252). -/
def execMovhi (f : RWide) (s : State) : Host.Outcome State Fault Refusal :=
  bothWord (uWide f true) s
    (fun c u s =>
      if c.src.shape f.d ≠ .p32 then .trap c.shapeTrap false s
      else c.commit u (Out.v f.d .p32 (c.act.map (fun l => (l, elemN (f.i * 2 ^ 14 + c.src.readN f.d l % 2 ^ 14))))) s .done)
    (fun x s => .done (s.modCurSlice (fun y => y.setReg f.d (BitVec.ofNat 64 (f.i * 2 ^ 14 + (x.reg f.d).toNat % 2 ^ 14)))))

end Sys2Proof.Machine
end

