-- ==== Sys2Proof/Machine/GroupOps.lean ====
section
/-!
DEFINITION. Words that move values between the lanes of a group or of a quad: majors GROUP and QUAD (R185 to R195).
-/
namespace Sys2Proof.Machine

/-! ## Shuffles -/

/-- A shuffle: each active lane takes the value of a from the active lane that `src` names, else its own (R185, R186). -/
def shuffle (src : Nat → Nat → Option Nat) (f : R3) (c : Ctx) (u : Uses) (s : State) : Did :=
  if c.src.shape f.b ≠ .p32 then .trap c.shapeTrap false s
  else c.commit u (Out.v f.d (c.src.shape f.a) (c.act.map (fun l =>
    let from_ := match src l (c.src.readN f.b l) with
      | none => l
      | some k => if c.act.contains k then k else l
    (l, c.src.read f.a from_)))) s .done

/-- SHFL: lane b (R186). -/
def execShfl (f : R3) (s : State) : Host.Outcome State Fault Refusal := groupWord (u3 .a6 f false [f.d]) s (shuffle (fun _ b => some b) f)

/-- SHFLU: lane l − b (R186). -/
def execShflu (f : R3) (s : State) : Host.Outcome State Fault Refusal :=
  groupWord (u3 .a6 f false [f.d]) s (shuffle (fun l b => if b ≤ l then some (l - b) else none) f)

/-- SHFLD: lane l + b (R186). -/
def execShfld (f : R3) (s : State) : Host.Outcome State Fault Refusal := groupWord (u3 .a6 f false [f.d]) s (shuffle (fun l b => some (l + b)) f)

/-- SHFLX: lane l xor b (R186). -/
def execShflx (f : R3) (s : State) : Host.Outcome State Fault Refusal := groupWord (u3 .a6 f false [f.d]) s (shuffle (fun l b => some (l ^^^ b)) f)

/-! ## Votes -/

/-- VOTE: the mask of active lanes whose predicate matches K (R187). -/
def execVote (c d q k g st : Nat) (s : State) : Host.Outcome State Fault Refusal :=
  groupWord { uX .a6 c [.q q] [.v d] with stall := st, guard := g } s (fun x u s =>
    let m := listMask (x.act.filter (fun l => kMatch k ((x.src.lane l).pred q)))
    x.commit u (Out.v d .p64 (x.all (m.setWidth 128))) s .done)

/-- MATCH: the mask of active lanes whose element has the same bits (R187). -/
def execMatchLanes (f : R1) (s : State) : Host.Outcome State Fault Refusal :=
  groupWord (u1 .a6 f [f.d]) s (fun x u s =>
    x.commit u (Out.v f.d .p64 (x.act.map (fun l =>
      (l, (listMask (x.act.filter (fun k => decide (x.src.read f.a k = x.src.read f.a l)))).setWidth 128)))) s .done)

/-! ## Reductions -/

/-- A node of the reduction tree: the lowest active lane beneath it and its value. -/
abbrev Node := Option (Nat × Elem)

/-- One level of the tree: nodes 2i and 2i + 1 combined; a rounding advances the generator of the lowest lane beneath (R189). -/
def redLevel (op : Elem → Elem → W64 → Elem × W64) (gens : Tab W64) : List Node → List Node × Tab W64
  | x :: y :: t =>
    let r := match x, y with
      | some a, some b =>
        let v := op a.2 b.2 (tgetD gens a.1 0)
        (some (a.1, v.1), tset gens a.1 v.2)
      | some a, none => (some a, gens)
      | none, b => (b, gens)
    let q := redLevel op r.2 t
    (r.1 :: q.1, q.2)
  | l => (l, gens)

/-- The tree: n levels (R189). -/
def redTree (op : Elem → Elem → W64 → Elem × W64) : Nat → Tab W64 → List Node → List Node × Tab W64
  | 0, gens, l => (l, gens)
  | n + 1, gens, l => let r := redLevel op gens l; redTree op n r.2 r.1

/-- GRED over points or intervals that have been checked (R188, R189): at most 64 lanes, six levels. -/
def gredWith (op : Elem → Elem → W64 → Elem × W64) (err : Option Trap) (f : R1) (c : Ctx) (u : Uses) (s : State) : Did :=
  let leaves : List Node := (upto 0 c.grp.width).map (fun l => if c.act.contains l then some (l, c.src.read f.a l) else none)
  let r := redTree op 6 (c.act.map (fun l => (l, c.gen l))) leaves
  let v := match r.1 with
    | some x :: _ => x.2
    | _ => 0
  c.commit u { Out.v f.d (c.src.shape f.a) (c.all v) with gens := r.2, err := err } s .done

/-- An integer or bitwise GRED: points only (R188). -/
def gredInt (op : Nat → Nat → Nat → Nat) (f : R1) (c : Ctx) (u : Uses) (s : State) : Did :=
  let k := c.src.shape f.a
  if k.isIv then .trap c.shapeTrap false s
  else gredWith (fun x y g => (elemN (op k.width (x.toNat % 2 ^ k.width) (y.toNat % 2 ^ k.width) % 2 ^ k.width), g)) none f c u s

/-- A floating-point GRED, FARITH function fn (R188). -/
def gredFlt (fn : Nat) (f : R1) (c : Ctx) (u : Uses) (s : State) : Did :=
  let k := c.src.shape f.a
  let w := k.width
  let F := fmtOf w
  if k.isIv then
    let op := fun (x y : Elem) (g : W64) => let r := farithIv fn (ivOf F x) (ivOf F y) (ivOf F x); (outwardX F r.1 r.2, g)
    let err := laneTrap (c.act.map (fun l => ⟨l, (c.iv w f.a l).map (fun _ => (0, 0))⟩))
    gredWith op err f c u s
  else
    let op := fun (x y : Elem) (g : W64) =>
      if fn = 6 ∨ fn = 7 then (elemN (fminBits F (fn = 7) x.toNat y.toNat), g)
      else
        let m := c.mode 0
        let r := rndGen F m g (farithX fn m (decodeF F x.toNat) (decodeF F y.toNat) (decodeF F 0))
        (elemN r.1, r.2)
    gredWith op none f c u s

/-- GRED.IADD (R188, R189). -/
def execGredIadd (f : R1) (s : State) : Host.Outcome State Fault Refusal := groupWord (u1 .a6 f [f.d]) s (gredInt (fun _ x y => x + y) f)

/-- GRED.IMIN (R188, R189). -/
def execGredImin (f : R1) (s : State) : Host.Outcome State Fault Refusal := groupWord (u1 .a6 f [f.d]) s (gredInt (fun w x y => if sextN x w ≤ sextN y w then x else y) f)

/-- GRED.IMAX (R188, R189). -/
def execGredImax (f : R1) (s : State) : Host.Outcome State Fault Refusal := groupWord (u1 .a6 f [f.d]) s (gredInt (fun w x y => if sextN x w ≤ sextN y w then y else x) f)

/-- GRED.NMIN (R188, R189). -/
def execGredNmin (f : R1) (s : State) : Host.Outcome State Fault Refusal := groupWord (u1 .a6 f [f.d]) s (gredInt (fun _ x y => min x y) f)

/-- GRED.NMAX (R188, R189). -/
def execGredNmax (f : R1) (s : State) : Host.Outcome State Fault Refusal := groupWord (u1 .a6 f [f.d]) s (gredInt (fun _ x y => max x y) f)

/-- GRED.AND (R188, R189). -/
def execGredAnd (f : R1) (s : State) : Host.Outcome State Fault Refusal := groupWord (u1 .a6 f [f.d]) s (gredInt (fun _ x y => x &&& y) f)

/-- GRED.OR (R188, R189). -/
def execGredOr (f : R1) (s : State) : Host.Outcome State Fault Refusal := groupWord (u1 .a6 f [f.d]) s (gredInt (fun _ x y => x ||| y) f)

/-- GRED.XOR (R188, R189). -/
def execGredXor (f : R1) (s : State) : Host.Outcome State Fault Refusal := groupWord (u1 .a6 f [f.d]) s (gredInt (fun _ x y => x ^^^ y) f)

/-- GRED.FADD (R188, R189). -/
def execGredFadd (f : R1) (s : State) : Host.Outcome State Fault Refusal := groupWord (u1 .a6 f [f.d]) s (gredFlt 0 f)

/-- GRED.FMIN (R188, R189). -/
def execGredFmin (f : R1) (s : State) : Host.Outcome State Fault Refusal := groupWord (u1 .a6 f [f.d]) s (gredFlt 6 f)

/-- GRED.FMAX (R188, R189). -/
def execGredFmax (f : R1) (s : State) : Host.Outcome State Fault Refusal := groupWord (u1 .a6 f [f.d]) s (gredFlt 7 f)

/-! ## GFENCE -/

/-- GFENCE: every earlier load of the active lanes has bound its value before a later word issues: it waits while a load of theirs is
outstanding (R195). (DEDUCED, log entry 68.) -/
def execGfence (c _l g st : Nat) (s : State) : Host.Outcome State Fault Refusal :=
  groupWord { uX .m c [] [] with stall := st, guard := g } s (fun x _ s =>
    let mine := fun (o : Outside) => decide (o.who = x.who) && o.lanes.any (fun y => x.act.contains y.1) && (match o.work with
      | .load _ _ _ _ => true
      | .atomic _ _ _ => true
      | _ => false)
    if s.pkg.outside.any mine then .hold s else .done s)

/-! ## Quads -/

/-- The value of a from the quad partner at position pos xor k, if it is active (R192). -/
def quadSwap (k : Nat) (f : R1) (c : Ctx) (u : Uses) (s : State) : Did :=
  c.commit u (Out.v f.d (c.src.shape f.a) (c.act.map (fun l =>
    let p := l / 4 * 4 + (l % 4 ^^^ k)
    (l, c.src.read f.a (if c.act.contains p then p else l))))) s .done

/-- QXH: the horizontal partner (R191). -/
def execQxh (f : R1) (s : State) : Host.Outcome State Fault Refusal := groupWord (u1 .a6 f [f.d]) s (quadSwap 1 f)

/-- QXV: the vertical partner (R191). -/
def execQxv (f : R1) (s : State) : Host.Outcome State Fault Refusal := groupWord (u1 .a6 f [f.d]) s (quadSwap 2 f)

/-- QXD: the diagonal partner (R191). -/
def execQxd (f : R1) (s : State) : Host.Outcome State Fault Refusal := groupWord (u1 .a6 f [f.d]) s (quadSwap 3 f)

/-- A derivative of a lane: the difference of two lanes of its quad; NaN or the whole line where one is not active (R193). (DEDUCED, log entry 67.) -/
def Ctx.deriv (c : Ctx) (w a l hi lo : Nat) : Except Cause (Elem × W64) :=
  let F := fmtOf w
  let h := l / 4 * 4 + hi
  let k := l / 4 * 4 + lo
  if (c.src.shape a).isIv then
    match c.iv w a h, c.iv w a k with
    | .ok x, .ok y =>
      if c.act.contains h && c.act.contains k then
        let r := farithIv 1 x y x
        .ok (outwardX F r.1 r.2, c.gen l)
      else .ok (ivElem w (infOf F true) (infOf F false), c.gen l)
    | x, y =>
      if c.act.contains h && c.act.contains k then .error (worseCause [x, y])
      else .ok (ivElem w (infOf F true) (infOf F false), c.gen l)
  else if c.act.contains h && c.act.contains k then
    let m := c.mode 0
    let r := rndGen F m (c.gen l) (farithX 1 m (c.pt w a h) (c.pt w a k) (c.pt w a k))
    .ok (elemN r.1, r.2)
  else .ok (elemN (qnan F), c.gen l)

/-- A derivative word: `at_` gives the quad positions subtracted for a lane's position (R193). (DEDUCED, log entry 67.) -/
def derivWord (at_ : Nat → Nat × Nat) (f : R1) (c : Ctx) (u : Uses) (s : State) : Did :=
  let k := c.src.shape f.a
  let w := k.width
  c.commit u (laneOut f.d k (c.act.map (fun l =>
    ⟨l, c.deriv w f.a l (at_ (l % 4)).1 (at_ (l % 4)).2⟩))) s .done

/-- DDXC: a[1] − a[0] (R191). -/
def execDdxc (f : R1) (s : State) : Host.Outcome State Fault Refusal := groupWord (u1 .a6 f [f.d]) s (derivWord (fun _ => (1, 0)) f)

/-- DDYC: a[2] − a[0] (R191). -/
def execDdyc (f : R1) (s : State) : Host.Outcome State Fault Refusal := groupWord (u1 .a6 f [f.d]) s (derivWord (fun _ => (2, 0)) f)

/-- DDXF: across the lane's own row (R191). -/
def execDdxf (f : R1) (s : State) : Host.Outcome State Fault Refusal :=
  groupWord (u1 .a6 f [f.d]) s (derivWord (fun p => if p < 2 then (1, 0) else (3, 2)) f)

/-- DDYF: down the lane's own column (R191). -/
def execDdyf (f : R1) (s : State) : Host.Outcome State Fault Refusal :=
  groupWord (u1 .a6 f [f.d]) s (derivWord (fun p => if p % 2 = 0 then (2, 0) else (3, 1)) f)

/-- HELPQ: the quad positions held by helper lanes, and whether the lane is one (R191). -/
def execHelpq (c d g st : Nat) (s : State) : Host.Outcome State Fault Refusal :=
  groupWord { uX .a6 c [] [.v d] with stall := st, guard := g } s (fun x u s =>
    let bit := fun (l k : Nat) => if (x.grp.lane (l / 4 * 4 + k)).helper then 2 ^ k else 0
    x.commit u (Out.v d .p32 (x.act.map (fun l =>
      (l, elemN (bit l 0 + bit l 1 + bit l 2 + bit l 3 + if (x.grp.lane l).helper then 16 else 0))))) s .done)

end Sys2Proof.Machine
end

