-- ==== Sys2Proof/Machine/Interval.lean ====
section
/-!
DEFINITION. The interval instructions IVAL and the certain comparisons IVCMP (R136 to R141, R149 to R157).
-/
namespace Sys2Proof.Machine

/-! ## Shared operations -/

/-- A bound as exact bits: a zero is +0.0 (R137). -/
def exactIv (F : Fmt) (lo hi : FV) : Elem := outwardX F lo.toX hi.toX

/-- A word of interval sources a (and b) of one width, whose lanes give an element at the shape `k w` (R151). -/
def ivWord (regs : List Nat) (d : Nat) (k : Nat → Shape) (op : Fmt → List Iv → Except Cause Elem) (c : Ctx) (u : Uses) (s : State) :
    Did :=
  match c.fltWidth regs with
  | none => .trap c.shapeTrap false s
  | some (w, _) =>
    c.commit u (laneOut d (k w) (c.act.map (fun l => ⟨l, c.keepGen l (c.onIv w regs l (op (fmtOf w)))⟩))) s .done

/-- An exact sum as a value. -/
def XV.toFV : XV → FV
  | .nan => .nan
  | .inf n => .inf n
  | .val n m e _ => .fin n m e

/-- `mid(A)` as bits, a zero as +0.0 (R153). -/
def midBits (F : Fmt) (a : Iv) : Nat :=
  if a.lo.isInf && a.hi.isInf then 0
  else if a.lo.isInf then maxOf F true
  else if a.hi.isInf then maxOf F false
  else match addFV 1 a.lo a.hi with
    | .val n m e st => plusZero F (roundN F 1 (.val n m (e - 1) st))
    | x => roundN F 1 x

/-- The radius about the midpoint, rounded up (R153). -/
def radBits (F : Fmt) (a : Iv) : Nat :=
  if a.lo.isInf || a.hi.isInf then infOf F false
  else
    let m := decodeF F (midBits F a)
    plusZero F (roundN F 4 (maxFV (addFV 1 m (negFV a.lo)).toFV (addFV 1 a.hi (negFV m)).toFV).toX)

/-- The tight square (R143, R151). -/
def sqrIv (F : Fmt) (a : Iv) : Elem :=
  let p := mulFV a.lo a.lo
  let q := mulFV a.hi a.hi
  let lo := if cmpFV a.lo (.fin false 0 0) ≤ 0 ∧ 0 ≤ cmpFV a.hi (.fin false 0 0) then .fin false 0 0 else minFV p q
  outwardX F lo.toX (maxFV p q).toX

/-- A significand without its trailing zero bits, and how many they were: at most n. -/
def stripZeros : Nat → Nat → Nat × Nat
  | 0, m => (m, 0)
  | n + 1, m => if m % 2 = 0 then let r := stripZeros n (m / 2); (r.1, r.2 + 1) else (m, 0)

/-- |x|^n for n ≥ 1 as a value to round (R154). -/
def powBound (n : Nat) : FV → XV
  | .nan => .nan
  | .inf _ => .inf false
  | .fin _ m e => if m = 0 then .val false 0 0 false else let r := stripZeros 64 m; powX r.1 (e + r.2) n

/-- |x|^−n for n ≥ 1: 0 of an infinity, +∞ of 0 (R154). -/
def powInvBound (n : Nat) : FV → XV
  | .nan => .nan
  | .inf _ => .val false 0 0 false
  | .fin _ m e => if m = 0 then .inf false else let r := stripZeros 64 m; powInvX r.1 (e + r.2) n

/-- The magnitude of a value. -/
def absFV : FV → FV
  | .nan => .nan
  | .inf _ => .inf false
  | .fin _ m e => .fin false m e

/-- IVPOWN of a valid interval to the integer n (R154). -/
def powIv (F : Fmt) (n : Int) (a : Iv) : Except Cause Elem :=
  let k := n.natAbs
  let odd := k % 2 = 1
  let slo := sgnFV a.lo
  let shi := sgnFV a.hi
  let big := maxFV (absFV a.lo) (absFV a.hi)
  let small := minFV (absFV a.lo) (absFV a.hi)
  let up := fun (x : FV) => (powBound k x).signed x.isNeg
  let dn := fun (x : FV) => (powInvBound k x).signed x.isNeg
  if n = 0 then .ok (outwardX F (.val false 1 0 false) (.val false 1 0 false))
  else if 0 < n then
    if odd then .ok (outwardX F (up a.lo) (up a.hi))
    else if slo ≤ 0 ∧ 0 ≤ shi then .ok (outwardX F (.val false 0 0 false) (powBound k big))
    else .ok (outwardX F (powBound k small) (powBound k big))
  else if slo = 0 ∧ shi = 0 then .error .emptyInterval
  else if odd then
    if slo < 0 ∧ 0 < shi then .ok (outwardX F (.inf true) (.inf false))
    else if slo = 0 then .ok (outwardX F (dn a.hi) (.inf false))
    else if shi = 0 then .ok (outwardX F (.inf true) (dn a.lo))
    else .ok (outwardX F (dn a.hi) (dn a.lo))
  else if slo ≤ 0 ∧ 0 ≤ shi then .ok (outwardX F (powInvBound k big) (.inf false))
  else .ok (outwardX F (powInvBound k big) (powInvBound k small))

/-! ## IVAL -/

/-- IVMK: [a, b] from two points (R152). -/
def execIvmk (f : R3) (s : State) : Host.Outcome State Fault Refusal :=
  groupWord (u3 .a f false [f.d]) s (fun c u s =>
    match c.fltWidth [f.a, f.b] with
    | some (w, false) =>
      let F := fmtOf w
      c.commit u (laneOut f.d (ivShape w) (c.act.map (fun l =>
        ⟨l, c.keepGen l (((⟨c.pt w f.a l, c.pt w f.b l⟩ : Iv).check).map (fun x => exactIv F x.lo x.hi))⟩))) s .done
    | _ => .trap c.shapeTrap false s)

/-- IVHULL: the hull (R151). -/
def execIvhull (f : R3) (s : State) : Host.Outcome State Fault Refusal :=
  groupWord (u3 .a f false [f.d]) s (ivWord [f.a, f.b] f.d ivShape (fun F xs => match xs with
    | a :: b :: _ => .ok (exactIv F (minFV a.lo b.lo) (maxFV a.hi b.hi))
    | _ => .ok 0))

/-- IVMEET: the intersection; an empty one raises EMPTY_INTERVAL (R151). -/
def execIvmeet (f : R3) (s : State) : Host.Outcome State Fault Refusal :=
  groupWord (u3 .a f false [f.d]) s (ivWord [f.a, f.b] f.d ivShape (fun F xs => match xs with
    | a :: b :: _ =>
      let lo := maxFV a.lo b.lo
      let hi := minFV a.hi b.hi
      if 0 < cmpFV lo hi then .error .emptyInterval else .ok (exactIv F lo hi)
    | _ => .ok 0))

/-- IVSQR: the tight square (R151). -/
def execIvsqr (f : R1) (s : State) : Host.Outcome State Fault Refusal :=
  groupWord (u1 .f f [f.d]) s (ivWord [f.a] f.d ivShape (fun F xs => .ok (match xs with
    | a :: _ => sqrIv F a
    | _ => 0)))

/-- IVMID: the midpoint as a point (R153). -/
def execIvmid (f : R1) (s : State) : Host.Outcome State Fault Refusal :=
  groupWord (u1 .a f [f.d]) s (ivWord [f.a] f.d pointShape (fun F xs => .ok (match xs with
    | a :: _ => elemN (midBits F a)
    | _ => 0)))

/-- IVRAD: the radius as a point, rounded up (R153). -/
def execIvrad (f : R1) (s : State) : Host.Outcome State Fault Refusal :=
  groupWord (u1 .a f [f.d]) s (ivWord [f.a] f.d pointShape (fun F xs => .ok (match xs with
    | a :: _ => elemN (radBits F a)
    | _ => 0)))

/-- IVSPLIT: the two halves, into d and d + 1 (R153). -/
def execIvsplit (f : R1) (s : State) : Host.Outcome State Fault Refusal :=
  groupWord (u1 .a f [f.d, (f.d + 1) % 32]) s (fun c u s =>
    let w := (c.src.shape f.a).width
    let F := fmtOf w
    let half := fun (upper : Bool) => c.act.map (fun l => (⟨l, c.keepGen l ((c.iv w f.a l).map (fun a =>
      let m := decodeF F (midBits F a)
      if upper then exactIv F m a.hi else exactIv F a.lo m))⟩ : LaneOut))
    let lo := laneOut f.d (ivShape w) (half false)
    let hi := laneOut ((f.d + 1) % 32) (ivShape w) (half true)
    c.commit u { lo with vs := lo.vs ++ hi.vs } s .done)

/-- IVPOWN: the tight power, the exponent a point integer (R154). -/
def execIvpown (f : R3) (s : State) : Host.Outcome State Fault Refusal :=
  groupWord (u3 .f f false [f.d]) s (fun c u s =>
    let w := (c.src.shape f.a).width
    if c.src.shape f.b ≠ pointShape w then .trap c.shapeTrap false s
    else c.commit u (laneOut f.d (ivShape w) (c.act.map (fun l =>
      ⟨l, c.keepGen l ((c.iv w f.a l).bind (powIv (fmtOf w) (sextN (c.src.readN f.b l) w)))⟩))) s .done)

/-! ## IVCMP -/

/-- An IVCMP word of two sources (R156, R157). -/
def ivcmp (rel : Iv → Iv → Bool) (f : RCmp) (c : Ctx) (u : Uses) (s : State) : Did :=
  match c.fltWidth [f.a, f.b] with
  | none => .trap c.shapeTrap false s
  | some (w, _) => c.commit u (triOut f.q (c.act.map (fun l => (l, c.triIv w f.a f.b l (fun a b => Tri.ofBool (rel a b)))))) s .done

/-- A ≤ or < between bounds. -/
def leFV (x y : FV) : Bool := decide (cmpFV x y ≤ 0)
/-- Strictly below. -/
def ltFV (x y : FV) : Bool := decide (cmpFV x y < 0)

/-- CLT: certainly below (R156). -/
def execClt (f : RCmp) (s : State) : Host.Outcome State Fault Refusal :=
  groupWord (uc f) s (ivcmp (fun a b => ltFV a.hi b.lo) f)

/-- CLE: certainly not above (R156). -/
def execCle (f : RCmp) (s : State) : Host.Outcome State Fault Refusal :=
  groupWord (uc f) s (ivcmp (fun a b => leFV a.hi b.lo) f)

/-- CEQ: the same single point (R156). -/
def execCeq (f : RCmp) (s : State) : Host.Outcome State Fault Refusal :=
  groupWord (uc f) s (ivcmp (fun a b => leFV a.hi a.lo && leFV b.hi b.lo && decide (cmpFV a.lo b.lo = 0)) f)

/-- SUBSET: A lies within B (R156). -/
def execSubset (f : RCmp) (s : State) : Host.Outcome State Fault Refusal :=
  groupWord (uc f) s (ivcmp (fun a b => leFV b.lo a.lo && leFV a.hi b.hi) f)

/-- CONTAINS: B lies in the interior of A (R156). -/
def execContains (f : RCmp) (s : State) : Host.Outcome State Fault Refusal :=
  groupWord (uc f) s (ivcmp (fun a b => (a.lo.isInf || ltFV a.lo b.lo) && (a.hi.isInf || ltFV b.hi a.hi)) f)

/-- DISJOINT: no overlap (R156). -/
def execDisjoint (f : RCmp) (s : State) : Host.Outcome State Fault Refusal :=
  groupWord (uc f) s (ivcmp (fun a b => ltFV (minFV a.hi b.hi) (maxFV a.lo b.lo)) f)

/-- ZIN: zero lies in the interval (R156). -/
def execZin (f : RCmp1) (s : State) : Host.Outcome State Fault Refusal :=
  groupWord (uc1 f) s (fun c u s =>
    let w := (c.src.shape f.a).width
    c.commit u (triOut f.q (c.act.map (fun l =>
      (l, (c.iv w f.a l).map (fun a => Tri.ofBool (leFV a.lo (.fin false 0 0) && leFV (.fin false 0 0) a.hi)))))) s .done)

end Sys2Proof.Machine
end

