-- ==== Sys2Proof/Machine/Predicate.lean ====
section
/-!
DEFINITION. Predicate logic, major QLOGIC (R72 to R74, R158 to R160).
-/
namespace Sys2Proof.Machine

/-- A predicate word of two sources (R158). -/
def qWord (u : Uses) (q x y : Nat) (op : Tri → Tri → Tri) (s : State) : Host.Outcome State Fault Refusal :=
  groupWord u s
    (fun c u s => c.commit u (Out.q q (c.act.map (fun l => (l, op ((c.src.lane l).pred x) ((c.src.lane l).pred y))))) s .done)

/-- QAND (R159). -/
def execQand (f : RQ2) (s : State) : Host.Outcome State Fault Refusal := qWord (uq2 f) f.q f.x f.y triAnd s

/-- QOR (R159). -/
def execQor (f : RQ2) (s : State) : Host.Outcome State Fault Refusal := qWord (uq2 f) f.q f.x f.y triOr s

/-- QXOR (R159). -/
def execQxor (f : RQ2) (s : State) : Host.Outcome State Fault Refusal := qWord (uq2 f) f.q f.x f.y triXor s

/-- QCONS (R159). -/
def execQcons (f : RQ2) (s : State) : Host.Outcome State Fault Refusal := qWord (uq2 f) f.q f.x f.y triCons s

/-- QNOT (R159). -/
def execQnot (f : RQ1) (s : State) : Host.Outcome State Fault Refusal := qWord (uq1 f) f.q f.x f.x (fun x _ => triNot x) s

/-- QMOV: a copy (R159). -/
def execQmov (f : RQ1) (s : State) : Host.Outcome State Fault Refusal := qWord (uq1 f) f.q f.x f.x (fun x _ => x) s

/-- QDEF (R159). -/
def execQdef (f : RQ1) (s : State) : Host.Outcome State Fault Refusal := qWord (uq1 f) f.q f.x f.x (fun x _ => triDef x) s

/-- QSET: a constant (R160). -/
def execQset (f : RQSet) (s : State) : Host.Outcome State Fault Refusal := qWord (uqs f) f.q 0 0 (fun _ _ => triConst f.k) s

end Sys2Proof.Machine
end

