-- ==== Sys2Proof/Machine/Raster.lean ====
section
/-!
DEFINITION. Render passes, the raster units, tiles and the Separator's scan (R442 to R447), and the GFX words that feed the bins: RAST,
RSEAL, BPUSH, BISECT, BFLUSH (R457 to R462).
-/
namespace Sys2Proof.Machine

/-! ## Passes -/

/-- Slot of the pass of a die at a descriptor address of an ASID, with the pass. -/
def State.passAt (s : State) (d asid addr : Nat) : Option (Nat × Pass) :=
  (s.die d).passes.find? (fun p => decide (p.2.asid = asid ∧ p.2.addr = addr))

/-- A descriptor is in order, but for what the die holds (R443). -/
def passFieldsOk (b : BitVec 512) : Bool :=
  let w := fieldOf b 1 15 0
  let h := fieldOf b 1 31 16
  let clear := decodeF fp32 (fieldOf b 2 31 0)
  decide (fieldOf b 0 63 55 = 0 ∧ fieldOf b 1 63 35 = 0 ∧ fieldOf b 2 63 44 = 0 ∧ fieldOf b 3 63 32 = 0 ∧ fieldOf b 4 63 55 = 0) &&
  decide (fieldOf b 5 63 0 = 0 ∧ fieldOf b 6 63 0 = 0 ∧ fieldOf b 7 63 0 = 0) &&
  decide (fieldOf b 1 33 32 ≠ 3 ∧ 1 ≤ w ∧ w ≤ 16384 ∧ 1 ≤ h ∧ h ≤ 16384) &&
  !clear.isNan && !clear.isInf && decide (0 ≤ cmpFV clear (.fin false 0 0) ∧ cmpFV clear (.fin false 1 0) ≤ 0) &&
  decide (fieldOf b 0 54 0 % 8 = 0 ∧ fieldOf b 4 54 0 % 2 = 0 ∧ fieldOf b 3 31 0 % 256 = 0)

/-- A pass slot of a die that is not held. -/
def Die.freePass (d : Die) : Option Nat := (upto 0 8).find? (fun n => (tget d.passes n).isNone)

/-- A pass may open (R443): its slot. (DEDUCED, log entry 36.) -/
def State.passOpens (s : State) (d part : Nat) (b : BitVec 512) : Option Nat :=
  let n := passTiles b
  if passFieldsOk b = false ∨ 4096 < passE0 b + n ∨ s.ways d part * 0x2000000 < fieldOf b 3 31 0 + n * passTileBytes b ∨
      (upto (passE0 b) n).any (fun e => (tget (s.die d).tiles e).isSome) = true then none
  else (s.die d).freePass

/-- Every pixel of a tile of side S at an address becomes empty, at the clear depth (R443). -/
def State.clearTile (s : State) (a side clear : Nat) : State :=
  let n := side * side
  let s := (upto 0 n).foldl (fun s p => s.rawWrite (a + 8 * p) (leBytes 8 (2 ^ 64 - 1))) s
  (upto 0 n).foldl (fun s p => s.rawWrite (a + 8 * n + 4 * p) (leBytes 4 clear)) s

/-- Open a pass in a slot (R443). -/
def State.openPass (s : State) (d slot : Nat) (p : Pass) : State :=
  let es := upto (passE0 p.desc) (passTiles p.desc)
  let s := s.modDie d (fun k => { k with
    passes := tset k.passes slot p,
    tiles := es.foldl (fun t e => tset t e { state := .opened, pass := slot, refs := 0, spoiled := false }) k.tiles })
  es.foldl (fun s e => s.clearTile (p.tileBase d e) (passSide p.desc) (fieldOf p.desc 2 31 0)) s

/-! ## RAST and RSEAL -/

/-- A GFX word whose operands are taken once (R457): with no lane that is no helper it has no effect. -/
def gfxOnce (body : Nat → Ctx → Uses → State → Did) (c : Ctx) (u : Uses) (s : State) : Did :=
  match c.doers with
  | [] => .done s
  | l :: _ => body l c u s

/-- Registers that must have a shape. -/
def Ctx.shapes (c : Ctx) (sh : Shape) (rs : List Nat) : Bool := rs.all (fun r => decide (c.src.shape r = sh))

/-- The triangles of a RAST word (R458): vertices and visibility word. -/
def Ctx.triangles (c : Ctx) (slot b e : Nat) : List Triangle :=
  c.doers.map (fun l => { pass := slot, xyz := (upto b 9).map (fun r => (c.src.read (r % 32) l).setWidth 32),
                          vis := (c.src.read e l).setWidth 64 &&& ~~~(0xFF#64) })

/-- Hand triangles to the raster units. -/
def State.handOver (s : State) (d : Nat) (ts : List Triangle) : State := s.modDie d (fun k => { k with triangles := k.triangles ++ ts })

/-- RAST_STATE at a descriptor or block address (R468). -/
def Ctx.rastTrap (c : Ctx) (a : W64) : Trap := ⟨.rastState, c.mask, a⟩

/-- The die's units read a place for a lane: relaxed reads performed at the home slices, with no line filled in an L1 (R374). (DESIGN CHOICE,
log entry 22.) -/
def State.laneRead (s : State) (c : Ctx) (p : Place) : State :=
  (s.herePieces [p]).foldl (fun s q => s.sliceRead (coreCluster c.core) c.wg.asid q.va q.pa) s

/-- RAST after its checks at issue (R442, R443, R458). (DEDUCED, log entry 36.) -/
def rastAt (a b e l : Nat) (c : Ctx) (u : Uses) (s : State) : Did :=
  let va : W64 := (c.src.read a l).setWidth 64
  let d := coreDie c.core
  if va.toNat % 64 ≠ 0 then .trap ⟨.misaligned, c.mask, va⟩ false s
  else match s.passAt d c.wg.asid va.toNat with
    | some (slot, p) =>
      if p.sealed then .trap (c.rastTrap va) false s
      else c.plain u s (fun s => .done (s.handOver d (c.triangles slot b e)))
    | none => match s.place c.core c.wg true (Acc.plain .read 64 64 false 0) va with
      | (.error x, s) => .trap ⟨x, c.mask, va⟩ false s
      | (.ok q, s) =>
        if s.stalls [(l, .ok q)] then .hold s
        else if s.badPlace q then .trap ⟨.memUe, c.mask, va⟩ false s
        else
          let s := s.laneRead c q
          let desc := BitVec.ofNat 512 (leNat (s.readPlace c.wg c.who.grp l 64 q))
          match s.passOpens d c.wg.part desc with
          | none => .trap (c.rastTrap va) false s
          | some slot =>
            let p : Pass := { addr := va.toNat, desc := desc, asid := c.wg.asid, priv := c.wg.priv, part := c.wg.part, sealed := false,
                              sealing := none, records := 0, dropped := false, cause := none }
            c.plain u s (fun s => .done ((s.openPass d slot p).handOver d (c.triangles slot b e)))

/-- RAST (R458). -/
def execRast (c a b e : Nat) (s : State) : Host.Outcome State Fault Refusal :=
  groupWord (uX .x c (.v a :: .v e :: (upto 0 9).map (fun k => .v ((b + k) % 32))) []) s (gfxOnce (fun l x u s =>
    if x.shapes .p64 [a, e] && x.shapes .p32 (regRun b 9) then rastAt a b e l x u s else .trap x.shapeTrap false s))

/-- RSEAL (R459): it sleeps until the pass's triangles have been applied. -/
def execRseal (c a : Nat) (s : State) : Host.Outcome State Fault Refusal :=
  groupWord (uX .x c [.v a] []) s (gfxOnce (fun l x _ s =>
    if x.shapes .p64 [a] = false then .trap x.shapeTrap false s
    else
      let va : W64 := (x.src.read a l).setWidth 64
      let d := coreDie x.core
      if va.toNat % 64 ≠ 0 then .trap ⟨.misaligned, x.mask, va⟩ false s
      else match s.passAt d x.wg.asid va.toNat with
        | none => .trap (x.rastTrap va) false s
        | some (slot, p) =>
          if p.sealed then .trap (x.rastTrap va) false s
          else if p.sealing.isSome then .hold s
          else
            let f := s.fresh
            .sleep (f.2.modDie d (fun k => { k with passes := tset k.passes slot { p with sealing := some (x.who, f.1) } }))
              (x.waitFor f.1 (.reply f.1) none .p32 none)))

/-! ## The raster units -/

/-- A point of the screen. -/
abbrev Point := Frac × Frac

/-- The edge function of the edge from a to b at p (R445). -/
def edgeAt (a b p : Point) : Frac :=
  ((b.1.sub a.1).mul (p.2.sub a.2)).sub ((b.2.sub a.2).mul (p.1.sub a.1))

/-- The edge from a to b includes its points (R445). -/
def edgeIncl (a b : Point) : Bool := b.2.lt a.2 || (!a.2.lt b.2 && !b.2.lt a.2 && a.1.lt b.1)

/-- A point lies inside an edge, or on it where it is inclusive. -/
def edgeIn (a b p : Point) : Bool :=
  let e := edgeAt a b p
  decide (0 < e.num) || (e.isZero && edgeIncl a b)

/-- The vertices of a triangle as exact numbers, if all are finite. -/
def Triangle.verts (t : Triangle) : Option (List (Point × Frac)) :=
  let vs := t.xyz.filterMap (fun w => (decodeF fp32 w.toNat).toFrac)
  match vs with
  | [x0, y0, z0, x1, y1, z1, x2, y2, z2] => some [((x0, y0), z0), ((x1, y1), z1), ((x2, y2), z2)]
  | _ => none

/-- A triangle with positive area, its vertices in order (R445). -/
def orient (vs : List (Point × Frac)) : Option ((Point × Frac) × (Point × Frac) × (Point × Frac) × Frac) :=
  match vs with
  | [v0, v1, v2] =>
    let a := edgeAt v0.1 v1.1 v2.1
    if a.isZero then none else if 0 < a.num then some (v0, v1, v2, a) else some (v0, v2, v1, a.neg)
  | _ => none

/-- The depth of a triangle at a covered point (R445), if it lies in [0, 1]. -/
def fragDepth (v0 v1 v2 : Point × Frac) (a : Frac) (p : Point) : Option Nat :=
  let n := (((edgeAt v1.1 v2.1 p).mul v0.2).add ((edgeAt v2.1 v0.1 p).mul v1.2)).add ((edgeAt v0.1 v1.1 p).mul v2.2)
  let z := roundN fp32 1 (n.div a).toX
  let v := decodeF fp32 z
  if 0 ≤ cmpFV v (.fin false 0 0) ∧ cmpFV v (.fin false 1 0) ≤ 0 then some z else none

/-- The depth test of a pass (R445): a fragment (z, v) against the present contents (zo, vo). -/
def depthWins (greater : Bool) (z v zo vo : Nat) : Bool :=
  let k := cmpFV (decodeF fp32 z) (decodeF fp32 zo)
  decide (if greater then 0 < k else k < 0) || (decide (k = 0) && decide (v < vo))

/-- The centre of a pixel. -/
def centre (x y : Nat) : Point := (⟨2 * x + 1, 2⟩, ⟨2 * y + 1, 2⟩)

/-- The tile table entry of a pixel of a pass (R442). -/
def Pass.entry (p : Pass) (x y : Nat) : Nat := passE0 p.desc + y / passSide p.desc * passTx p.desc + x / passSide p.desc

/-- Where a pixel of a pass lies: its tile's base, and its place in the tile (R442, R444). -/
def Pass.pixel (p : Pass) (d x y : Nat) : Nat × Nat :=
  let n := passSide p.desc
  (p.tileBase d (p.entry x y), y % n * n + x % n)

/-- A store has left the pixels of a tile undefined (R444). -/
def State.spoiledTile (s : State) (d e : Nat) : Bool := ((tget (s.die d).tiles e).map (·.spoiled)).getD false

/-- One fragment meets the depth test at its pixel; in a tile that a store has spoiled it meets free values (R444). -/
def State.fragment (s : State) (d : Nat) (p : Pass) (x y z v : Nat) : State :=
  let q := p.pixel d x y
  let n := passSide p.desc * passSide p.desc
  let va := q.1 + 8 * q.2
  let za := q.1 + 8 * n + 4 * q.2
  let free := s.draw
  let spoiled := s.spoiledTile d (p.entry x y)
  let zo := if spoiled then free.1.toNat % 2 ^ 32 else s.readPhys za 4
  let vo := if spoiled then free.1.toNat / 2 ^ 32 % 2 ^ 64 else s.readPhys va 8
  let s := if spoiled then free.2 else s
  if depthWins (fieldOf p.desc 1 34 34 = 1) z v zo vo then (s.rawWrite va (leBytes 8 v)).rawWrite za (leBytes 4 z) else s

/-- Whole numbers from ⌊lo⌋ to ⌊hi⌋ in [0, n). -/
def span (lo hi : Frac) (n : Nat) : List Nat :=
  let a := lo.floor.toNat
  let b := Nat.min (hi.floor + 1).toNat n
  upto a (b - a)

/-- The least and the greatest of three. -/
def frac3 (lt : Frac → Frac → Bool) (a b c : Frac) : Frac :=
  let m := if lt b a then b else a
  if lt c m then c else m

/-- Apply one triangle to its pass (R445). -/
def State.rasterise (s : State) (d : Nat) (p : Pass) (t : Triangle) : State :=
  match t.verts.bind orient with
  | none => s
  | some (v0, v1, v2, a) =>
    let gt := fun (x y : Frac) => y.lt x
    let xs := span (frac3 Frac.lt v0.1.1 v1.1.1 v2.1.1) (frac3 gt v0.1.1 v1.1.1 v2.1.1) (fieldOf p.desc 1 15 0)
    let ys := span (frac3 Frac.lt v0.1.2 v1.1.2 v2.1.2) (frac3 gt v0.1.2 v1.1.2 v2.1.2) (fieldOf p.desc 1 31 16)
    ys.foldl (fun s y => xs.foldl (fun s x =>
      let c := centre x y
      if edgeIn v0.1 v1.1 c && edgeIn v1.1 v2.1 c && edgeIn v2.1 v0.1 c then
        match fragDepth v0 v1 v2 a c with
        | none => s
        | some z => s.fragment d p x y z t.vis.toNat
      else s) s) s

/-- RASTER_TRIANGLE: a raster unit applies the oldest triangle of its die (R445). -/
def execRasterTriangle (die : Nat) (s : State) : Host.Outcome State Fault Refusal :=
  match (s.die die).triangles with
  | [] => .next s
  | t :: r =>
    let s := s.modDie die (fun k => { k with triangles := r })
    match tget (s.die die).passes t.pass with
    | none => .next s
    | some p => .next (s.rasterise die p t)

/-- PASS_SEAL: an RSEAL takes effect once every triangle of its pass has been applied (R459); a frozen path's RSEAL takes none (R260). -/
def execPassSeal (die pass : Nat) (s : State) : Host.Outcome State Fault Refusal :=
  match tget (s.die die).passes pass with
  | none => .next s
  | some p => match p.sealing with
    | none => .next s
    | some (w, id) =>
      if (s.die die).triangles.any (fun t => t.pass = pass) then .next s
      else if (s.waitReady w.core w.wg w.grp id).isNone then .next s
      else
          let close := fun (t : Nat × TileEntry) => if t.2.pass = pass ∧ t.2.state = .opened then (t.1, { t.2 with state := .sealed }) else t
          let s := s.modDie die (fun k => { k with
            passes := tset k.passes pass { p with sealed := true, sealing := none }, tiles := k.tiles.map close })
          .next (s.finishReply w id none)

/-! ## The Separator's scan -/

/-- A pixel that a scan forms a record of. -/
structure Pixel where
  x : Nat
  y : Nat
  vis : Nat
  key : Nat
  deriving DecidableEq, Repr

/-- A kind-0 record (R449). -/
def pixelRecord (key x y entry vis : Nat) (helper : Bool) : BitVec 128 :=
  BitVec.ofNat 128 (key % 2 ^ 16 + (if helper then 2 ^ 20 else 0) + entry % 4096 * 2 ^ 32 + x % 2 ^ 14 * 2 ^ 44 + y % 2 ^ 14 * 2 ^ 58 +
    vis / 256 % 2 ^ 56 * 2 ^ 72)

/-- The state with a dropped pixel of a pass, and the cause of a failing read (R446). -/
def State.dropPixel (s : State) (d slot : Nat) (cause : Option Cause) : State :=
  let mark := fun (p : Pass) => { p with dropped := true, cause := if p.cause.isSome then p.cause else cause }
  (s.modDie d (fun k => { k with passes := match tget k.passes slot with
    | none => k.passes
    | some p => tset k.passes slot (mark p) })).count 3 (sourceOf d 0x201)

/-- A pixel of a tile, as a scan finds it (R446): its record, none, or dropped. -/
def State.scanPixel (s : State) (d slot entry : Nat) (p : Pass) (spoiled : Bool) (k : Nat) : Option Pixel × State :=
  let n := passSide p.desc
  let t := entry - passE0 p.desc
  let a := p.tileBase d entry
  let v := s.draw
  let vis := if spoiled then v.1.toNat % 2 ^ 64 else s.readPhys (a + 8 * k) 8
  let s := if spoiled then v.2 else s
  if s.isPoisoned (a + 8 * k) || s.isPoisoned (a + 8 * n * n + 4 * k) then (none, s.dropPixel d slot (some .memUe))
  else if vis = 2 ^ 64 - 1 then (none, s)
  else match s.unitFetch p.asid p.priv p.part (fieldOf p.desc 4 54 0 + 2 * (vis / 2 ^ 40)) 2 with
    | (.error c, s) => (none, s.dropPixel d slot (some c))
    | (.ok key, s) =>
      let b := s.bin d key
      if 4096 ≤ key ∨ b.enable = false ∨ b.part.toNat ≠ p.part then (none, s.dropPixel d slot none)
      else (some ⟨t % passTx p.desc * n + k % n, t / passTx p.desc * n + k / n, vis, key⟩, s)

/-- All pixels of a tile in ascending order. -/
def State.scanPixels (s : State) (d slot entry : Nat) (p : Pass) (spoiled : Bool) : List Nat → List Pixel × State
  | [] => ([], s)
  | k :: t =>
    let r := s.scanPixel d slot entry p spoiled k
    let q := r.2.scanPixels d slot entry p spoiled t
    (r.1.toList ++ q.1, q.2)

/-- The quad that the pixels of one block form for a key (R451, R452): real records, and helpers with the lowest one's visibility. -/
def quadOf (entry key x y : Nat) (ps : List Pixel) : Option (List (BitVec 128)) :=
  match ps.filter (fun p => decide (p.key = key ∧ p.x / 2 = x / 2 ∧ p.y / 2 = y / 2)) with
  | [] => none
  | f :: t =>
    some ([(x, y), (x + 1, y), (x, y + 1), (x + 1, y + 1)].map (fun q =>
      match (f :: t).find? (fun p => decide (p.x = q.1 ∧ p.y = q.2)) with
      | some p => pixelRecord key p.x p.y entry p.vis false
      | none => pixelRecord key q.1 q.2 entry f.vis true))

/-- The quads of a tile for a key, in ascending block order (R451). -/
def tileQuads (entry key side x0 y0 : Nat) (ps : List Pixel) : List (List (BitVec 128)) :=
  (upto 0 (side / 2)).flatMap (fun j => (upto 0 (side / 2)).filterMap (fun i => quadOf entry key (x0 + 2 * i) (y0 + 2 * j) ps))

/-- The keys of pixels, ascending. -/
def pixelKeys (ps : List Pixel) : List Nat := (ps.foldl (fun (t : Tab Unit) p => tset t p.key ()) []).map (·.1)

/-- TILE_SCAN: the Separator takes the lowest sealed tile (R446): its pixels become records, sent as one capture on each bin's tail
(R450). -/
def execTileScan (die : Nat) (s : State) : Host.Outcome State Fault Refusal :=
  match (s.die die).scan, (s.die die).tiles.find? (fun t => t.2.state = .sealed) with
  | none, some (e, t) => match tget (s.die die).passes t.pass with
    | none => .next s
    | some p =>
      let n := passSide p.desc
      let r := s.scanPixels die t.pass e p t.spoiled (upto 0 (n * n))
      let ps := r.1
      let k := e - passE0 p.desc
      let s := r.2.modDie die (fun d => { d with passes := match tget d.passes t.pass with
        | none => d.passes
        | some p => tset d.passes t.pass { p with records := p.records + ps.length } })
      if ps = [] then .next ((s.modDie die (fun d => { d with tiles := tdel d.tiles e })).passComplete die t.pass)
      else
        let f := s.fresh
        let reqs := (pixelKeys ps).map (fun b =>
          let quads := tileQuads e b n (k % passTx p.desc * n) (k / passTx p.desc * n) ps
          let r : ChurnReq := ⟨f.1, none, 98, s.cycle, b, 0, p.part, false, none, .waiting, .bin b quads []⟩
          r)
        .next (f.2.modDie die (fun d => { d with
          tiles := tset d.tiles e { t with state := .scanning, refs := ps.length }, scan := some (e, f.1), reqs := d.reqs ++ reqs }))
  | _, _ => .next s

/-! ## BPUSH, BISECT, BFLUSH -/

/-- A record from its key, kind and three payload words (R449). -/
def pushRecord (key kind p0 p1 p2 : Nat) : BitVec 128 :=
  BitVec.ofNat 128 (key % 2 ^ 16 + kind * 2 ^ 16 + p0 % 2 ^ 32 * 2 ^ 32 + p1 % 2 ^ 32 * 2 ^ 64 + p2 % 2 ^ 32 * 2 ^ 96)

/-- A key that a workgroup may not push to (R460). -/
def State.badKey (s : State) (c : Ctx) (k : Nat) : Bool :=
  let b := s.bin (coreDie c.core) k
  decide (4095 < k) || !b.enable || decide (b.part.toNat ≠ c.wg.part)

/-- ACCESS of the pushing lanes whose keys are bad (R460): the address is the lowest lane's key. -/
def State.keyTrap (s : State) (c : Ctx) (keys : List (Nat × Nat)) : Option Trap :=
  match keys.filter (fun x => s.badKey c x.2) with
  | [] => none
  | x :: t => some ⟨.access, listMask ((x :: t).map (·.1)), BitVec.ofNat 64 x.2⟩

/-- Push records (R450, R460): one capture per bin, in ascending key order; the word sleeps until all have been applied. -/
def pushAll (recs : List (Nat × BitVec 128)) (c : Ctx) (u : Uses) (s : State) : Did :=
  if recs = [] then c.plain u s .done
  else
    let f := s.fresh
    let keys := (recs.foldl (fun (t : Tab Unit) r => tset t r.1 ()) []).map (·.1)
    let reqs := keys.map (fun b => c.churnReq s f.1 b none (.bin b [] ((recs.filter (fun r => decide (r.1 = b))).map (·.2))))
    .sleep (f.2.modDie (coreDie c.core) (fun d => { d with reqs := d.reqs ++ reqs })) (c.waitFor f.1 (.reply f.1) none .p32 none)

/-- BPUSH of a kind (R460). -/
def bpushGroup (kind k q a b : Nat) (c : Ctx) (u : Uses) (s : State) : Did :=
  if c.shapes .p32 (a :: regRun b 3) = false then .trap c.shapeTrap false s
  else
    let ls := c.doers.filter (fun l => kMatch k ((c.src.lane l).pred q))
    let keys := ls.map (fun l => (l, c.src.readN a l % 2 ^ 16))
    match s.keyTrap c keys with
    | some t => .trap t false s
    | none => pushAll (keys.map (fun x => (x.2, pushRecord x.2 kind (c.src.readN b x.1) (c.src.readN ((b + 1) % 32) x.1)
        (c.src.readN ((b + 2) % 32) x.1)))) c u s

/-- BPUSH (R460): kind 3. -/
def execBpush (c k q a b : Nat) (s : State) : Host.Outcome State Fault Refusal := groupWord (uX .x c [.q q, .v a, .v b, .v ((b + 1) % 32), .v ((b + 2) % 32)] []) s (bpushGroup 3 k q a b)

/-- BPUSH.HIT (R460): kind 1. -/
def execBpushHit (c k q a b : Nat) (s : State) : Host.Outcome State Fault Refusal := groupWord (uX .x c [.q q, .v a, .v b, .v ((b + 1) % 32), .v ((b + 2) % 32)] []) s (bpushGroup 1 k q a b)

/-- BISECT (R461): lanes whose q is U push the two halves of their interval. -/
def execBisect (c q a b e : Nat) (s : State) : Host.Outcome State Fault Refusal :=
  groupWord (uX .x c [.q q, .v a, .v b, .v e] []) s (fun x u s =>
    if (x.shapes .p32 [a, e] && x.shapes .i32 [b]) = false then .trap x.shapeTrap false s
    else
      let ls := x.doers.filter (fun l => decide ((x.src.lane l).pred q = .u))
      let keys := ls.map (fun l => (l, x.src.readN a l % 2 ^ 16))
      match s.keyTrap x keys with
      | some t => .trap t false s
      | none =>
        let ivs := keys.map (fun y => (y, x.iv 32 b y.1))
        let of_ := fun (z : Cause) => (ivs.filter (fun y => match y.2 with
          | .error w => decide (w = z)
          | .ok _ => false)).map (·.1.1)
        if of_ .invalidInterval ≠ [] then faultAt .invalidInterval (of_ .invalidInterval) 0 s
        else if of_ .emptyInterval ≠ [] then faultAt .emptyInterval (of_ .emptyInterval) 0 s
        else pushAll (ivs.flatMap (fun y => match y.2 with
          | .error _ => []
          | .ok v =>
            let m := decodeF fp32 (midBits fp32 v)
            let half := fun (i : Elem) =>
              (y.1.2, pushRecord y.1.2 2 (i.toNat % 2 ^ 32) (i.toNat / 2 ^ 32) (x.src.readN e y.1.1))
            [half (exactIv fp32 v.lo m), half (exactIv fp32 m v.hi)])) x u s)

/-- BFLUSH (R462). (DEDUCED, log entry 74.) -/
def execBflush (c a : Nat) (s : State) : Host.Outcome State Fault Refusal :=
  groupWord (uX .x c [.v a] []) s (gfxOnce (fun l x u s =>
    if x.shapes .p32 [a] = false then .trap x.shapeTrap false s
    else
      let k := x.src.readN a l
      let d := coreDie x.core
      if 4095 < k ∨ (s.bin d k).part.toNat ≠ x.wg.part then .trap ⟨.access, x.mask, BitVec.ofNat 64 k⟩ false s
      else x.plain u s (fun s => .done (s.flushBin d k true))))

/-- BFLUSH.ALL (R462). (DEDUCED, log entry 74.) -/
def execBflushAll (c : Nat) (s : State) : Host.Outcome State Fault Refusal :=
  groupWord (uX .x c [] []) s (gfxOnce (fun _ x u s =>
    let d := coreDie x.core
    x.plain u s (fun s => .done ((s.die d).bins.foldl (fun s b =>
      if b.2.part.toNat = x.wg.part then s.flushBin d b.1 true else s) s))))

end Sys2Proof.Machine
end

