-- ==== Sys2Proof/Machine/Sampling.lean ====
section
/-!
DEFINITION. The attribute engine and texture sampling: ATTR (R463, R464), TEX, TEXL, TEXG (R465, R466), with their faults (R467, R468).
-/
namespace Sys2Proof.Machine

/-! ## Reads of a lane -/

/-- What one lane of an ATTR or TEX word comes to: its results, a cause with an address, data in error at an address (R287), or a wait for a
slice that has stopped accepting requests (R368). -/
inductive GfxLane where
  | vals (l : List W32)
  | fault (cause : Cause) (addr : Nat)
  | bad (addr : Nat)
  | wait

/-- Relaxed .dev reads of a lane, in turn: address and length of each (R374); aligned to `al`. -/
def State.laneReads (s : State) (c : Ctx) (l al : Nat) : List (Nat × Nat) → Except GfxLane (List (List Byte)) × State
  | [] => (.ok [], s)
  | (a, n) :: t => match s.place c.core c.wg false (Acc.plain .read al n false 0) (BitVec.ofNat 64 a) with
    | (.error x, s) => (.error (.fault x (a % 2 ^ 64)), s)
    | (.ok p, s) =>
      if s.stalls [(l, .ok p)] then (.error .wait, s)
      else if s.badPlace p then (.error (.bad (a % 2 ^ 64)), s)
      else match (s.laneRead c p).laneReads c l al t with
        | (.error x, s) => (.error x, s)
        | (.ok r, s) => (.ok (s.readPlace c.wg c.who.grp l n p :: r), s)

/-- The results of a lane, with what a helper lane receives in place of a fault (R286, R464). -/
def GfxLane.settle (helper : Bool) (n : Nat) : GfxLane → GfxLane
  | .fault x a => if helper = true ∧ (x = .misaligned ∨ x = .access ∨ x = .translation) then .vals (List.replicate n 0) else .fault x a
  | r => r

/-- Registers d, d + 1, … at P32 with the lanes' results, n of them. -/
def gfxWrites (d n : Nat) (lanes : List (Nat × GfxLane)) : List VWrite :=
  (upto 0 n).map (fun k => ⟨(d + k) % 32, .p32, lanes.filterMap (fun x => match x.2 with
    | .vals r => some (x.1, (r.getD k 0).setWidth 128)
    | _ => none)⟩)

/-- Data in error: one failed read for the word, whose fault the first read of any of its destinations raises (R464, R468). -/
def Group.failAll (g : Group) (b d n : Nat) (bad : List (Nat × W64)) : Group := (upto 0 n).foldl (fun g k => g.fail (.v ((d + k) % 32)) b bad) g

/-- A lane of an ATTR or TEX word waits. -/
def GfxLane.waits : GfxLane → Bool
  | .wait => true
  | _ => false

/-- Commit the lanes of an ATTR or TEX word: n results each into d, d + 1, … (R464, R466, R468), the lanes' generators with them. A word of
which a lane waits has no effect yet; `s0` is the state in which it began. -/
def gfxCommit (d n : Nat) (gens : List (Nat × W64)) (lanes : List (Nat × GfxLane)) (c : Ctx) (u : Uses) (s0 s : State) : Did :=
  let lanes := lanes.map (fun x => (x.1, x.2.settle (c.grp.lane x.1).helper n))
  let faults := lanes.filterMap (fun x => match x.2 with
    | .fault y a => some (x.1, y, a)
    | _ => none)
  let cause := faults.foldl (fun k x => firstCause k (some x.2.1)) none
  let err := cause.map (fun k =>
    let hit := faults.filter (fun x => decide (x.2.1 = k))
    (⟨k, listMask (hit.map (·.1)), BitVec.ofNat 64 ((hit.map (·.2.2)).headD 0)⟩ : Trap))
  let bad := lanes.filterMap (fun x => match x.2 with
    | .bad a => some (x.1, BitVec.ofNat 64 a)
    | _ => none)
  if lanes.any (fun x => x.2.waits) then .hold s0
  else c.commit u { Out.none with vs := gfxWrites d n lanes, gens := gens, err := err } s (fun s =>
    .done (if bad = [] then s else s.fresh.2.modCur (fun g => g.failAll s.fresh.1 d n bad)))

/-- Lanes in turn. -/
def State.eachLane (s : State) (f : State → Nat → GfxLane × State) : List Nat → List (Nat × GfxLane) × State
  | [] => ([], s)
  | l :: t =>
    let r := f s l
    let q := r.2.eachLane f t
    ((l, r.1) :: q.1, q.2)

/-! ## ATTR -/

/-- Vertices, triangles and attributes of a geometry block's word 0 (R463). -/
def geoV (w : Nat) : Nat := w % 512
/-- T. -/
def geoT (w : Nat) : Nat := w / 2 ^ 16 % 512
/-- A. -/
def geoA (w : Nat) : Nat := w / 2 ^ 32 % 32

/-- A geometry block's word 0 is in order (R463). -/
def geoOk (w : Nat) : Bool :=
  decide (w = geoV w + geoT w * 2 ^ 16 + geoA w * 2 ^ 32) &&
  decide (1 ≤ geoV w ∧ geoV w ≤ 256 ∧ 1 ≤ geoT w ∧ geoT w ≤ 256 ∧ geoA w ≤ 16)

/-- Offset of the attributes (R463). -/
def geoR (w : Nat) : Nat := (64 + 12 * geoV w + 3 * geoT w + 3) / 4 * 4

/-- A fraction rounded to FP32, nearest-even. -/
def Frac.toF32 (x : Frac) : W32 := BitVec.ofNat 32 (roundN fp32 1 x.toX)

/-- The canonical NaN three times. -/
def nan3 : List W32 := List.replicate 3 (BitVec.ofNat 32 (qnan fp32))

/-- A weighted sum of three. -/
def sum3 (l x : List Frac) : Frac := ((l.zip x).map (fun p => p.1.mul p.2)).foldl Frac.add (Frac.int 0)

/-- ATTR of a triangle at a pixel's centre (R464): h and its two derivatives, perspective-correct; `at_`, `om` and `pts` are the
attributes, ω and points of its vertices. -/
def attrPixel (pts : List Point) (om at_ : List Frac) (p : Point) : List W32 :=
  match pts with
  | [p0, p1, p2] =>
    let area := edgeAt p0 p1 p2
    let e := [edgeAt p1 p2 p, edgeAt p2 p0 p, edgeAt p0 p1 p]
    let dx := [p1.2.sub p2.2, p2.2.sub p0.2, p0.2.sub p1.2]
    let dy := [p2.1.sub p1.1, p0.1.sub p2.1, p1.1.sub p0.1]
    let wa := (om.zip at_).map (fun q => q.1.mul q.2)
    let n := sum3 e wa
    let m := sum3 e om
    if area.isZero || m.isZero then nan3
    else
      let der := fun (k : List Frac) => (((sum3 k wa).mul m).sub (n.mul (sum3 k om))).div (m.mul m)
      [(n.div m).toF32, (der dx).toF32, (der dy).toF32]
  | _ => nan3

/-- ATTR at barycentric coordinates (R464). -/
def attrBary (l1 l2 : Frac) (at_ : List Frac) : List W32 :=
  [(sum3 [((Frac.int 1).sub l1).sub l2, l1, l2] at_).toF32, 0, 0]

/-- The launch record of a lane, if it is of kind 0 in a bin-launched group (R464). -/
def Ctx.pixelRec (c : Ctx) (l : Nat) : Option (BitVec 128) :=
  match (c.grp.lane l).record with
  | none => none
  | some r => if recKind r = 0 then some r else none

/-- What ATTR makes of a lane's fetched vertices: x, y, ω and the attribute of each (R464). -/
def attrValue (c : Ctx) (b l : Nat) (vs : List (List Byte)) : List W32 :=
  let word := fun (bs : List Byte) (k : Nat) => (decodeF fp32 (leNat ((bs.drop (4 * k)).take 4))).toFrac
  let pos := vs.take 3
  let xs := pos.filterMap (word · 0)
  let ys := pos.filterMap (word · 1)
  let om := pos.filterMap (word · 2)
  let at_ := (vs.drop 3).filterMap (word · 0)
  if xs.length < 3 ∨ ys.length < 3 ∨ om.length < 3 ∨ at_.length < 3 then nan3
  else match c.pixelRec l with
    | some r => attrPixel (xs.zip ys) om at_ (centre (r.toNat / 2 ^ 44 % 2 ^ 14) (r.toNat / 2 ^ 58 % 2 ^ 14))
    | none => match (decodeF fp32 (c.src.readN b l)).toFrac, (decodeF fp32 (c.src.readN ((b + 1) % 32) l)).toFrac with
      | some l1, some l2 => attrBary l1 l2 at_
      | _, _ => nan3

/-- The triangle that a lane names (R464). -/
def Ctx.attrTri (c : Ctx) (b l : Nat) : Nat :=
  match c.pixelRec l with
  | some r => r.toNat / 2 ^ 72 % 256
  | none => c.src.readN ((b + 2) % 32) l % 256

/-- ATTR of one lane (R464). -/
def attrLane (c : Ctx) (a b j : Nat) (s : State) (l : Nat) : GfxLane × State :=
  let g := ((c.src.read a l).setWidth 64 : W64).toNat
  if g % 64 ≠ 0 then (.fault .misaligned g, s)
  else match s.laneReads c l 1 [(g, 8)] with
    | (.error x, s) => (x, s)
    | (.ok h, s) =>
      let w := leNat (h.headD [])
      let t := c.attrTri b l
      if geoOk w = false ∨ geoT w ≤ t ∨ geoA w ≤ j then (.fault .rastState g, s)
      else match s.laneReads c l 1 [(g + 64 + 12 * geoV w + 3 * t, 3)] with
        | (.error x, s) => (x, s)
        | (.ok ix, s) =>
          let is_ := (ix.headD []).map BitVec.toNat
          if is_.any (fun i => decide (geoV w ≤ i)) then (.fault .rastState g, s)
          else match s.laneReads c l 1 (is_.map (fun i => (g + 64 + 12 * i, 12)) ++
              is_.map (fun i => (g + geoR w + 4 * (geoA w * i + j), 4))) with
            | (.error x, s) => (x, s)
            | (.ok vs, s) => (.vals (attrValue c b l vs), s)

/-- ATTR (R464). -/
def execAttr (c d a b j : Nat) (s : State) : Host.Outcome State Fault Refusal :=
  groupWord (uX .x c [.v a, .v b, .v ((b + 1) % 32), .v ((b + 2) % 32)] [.v d, .v ((d + 1) % 32), .v ((d + 2) % 32)]) s (fun x u s =>
    let plain := x.act.any (fun l => (x.pixelRec l).isNone)
    if x.src.shape a ≠ .p64 ∨ (plain = true ∧ x.shapes .p32 (regRun b 3) = false) then .trap x.shapeTrap false s
    else
      let r := s.eachLane (attrLane x a b j) x.act
      gfxCommit d 3 [] r.1 x u s r.2)

/-! ## Textures -/

/-- Width (height) of level i from that of level 0 (R465). -/
def levelSize (n i : Nat) : Nat := max 1 (n / 2 ^ i)

/-- Bytes of a texel (R465). -/
def texelBytes (e : BitVec 512) : Nat := texChannels e * (fmtHalves (tidFormat e) / 2)

/-- Bytes of level i, rounded up to a multiple of 64 (R465). -/
def levelBytes (e : BitVec 512) (i : Nat) : Nat :=
  (levelSize (tidExtent e 0) i * levelSize (tidExtent e 1) i * texelBytes e + 63) / 64 * 64

/-- Address of texel (x, y) of level i (R465). -/
def texelAt (e : BitVec 512) (i x y : Nat) : Nat :=
  if i = 0 then tidBase e + x * texelBytes e + y * tidStride e 1
  else texMip e + ((upto 1 (i - 1)).map (levelBytes e)).sum + y * (levelSize (tidExtent e 0) i * texelBytes e) + x * texelBytes e

/-- A texel index under an axis mode (R466): none outside a border. -/
def axisIndex (mode size : Nat) (i : Int) : Option Nat :=
  if mode = 0 then some (i % size).toNat
  else if mode = 1 then some (satInt 0 (size - 1 : Nat) i).toNat
  else if 0 ≤ i ∧ i < size then some i.toNat else none

/-- The texels of one level with their weights (R466): nearest, or the four about a point. -/
def levelTexels (e : BitVec 512) (nearest : Bool) (i : Nat) (wt u v : Frac) : List (Frac × Option Nat) :=
  let w := levelSize (tidExtent e 0) i
  let h := levelSize (tidExtent e 1) i
  let x := u.mul (Frac.int w)
  let y := v.mul (Frac.int h)
  let pick := fun (k : Frac) (a b : Int) => (k, match axisIndex (texModeU e) w a, axisIndex (texModeV e) h b with
    | some a, some b => some (texelAt e i a b)
    | _, _ => none)
  if nearest then [pick wt x.floor y.floor]
  else
    let x := x.sub ⟨1, 2⟩
    let y := y.sub ⟨1, 2⟩
    let fx := x.sub (Frac.int x.floor)
    let fy := y.sub (Frac.int y.floor)
    let gx := (Frac.int 1).sub fx
    let gy := (Frac.int 1).sub fy
    [pick (wt.mul (gx.mul gy)) x.floor y.floor, pick (wt.mul (fx.mul gy)) (x.floor + 1) y.floor,
     pick (wt.mul (gx.mul fy)) x.floor (y.floor + 1), pick (wt.mul (fx.mul fy)) (x.floor + 1) (y.floor + 1)]

/-- λ clamped to [0, L − 1]; NaN reads as 0 (R466). -/
def clampLod (levels : Nat) (x : FV) : Frac :=
  match x with
  | .nan => Frac.int 0
  | .inf n => if n then Frac.int 0 else Frac.int (levels - 1 : Nat)
  | y => match y.toFrac with
    | none => Frac.int 0
    | some f => if f.num < 0 then Frac.int 0 else if (Frac.int (levels - 1 : Nat)).lt f then Frac.int (levels - 1 : Nat) else f

/-- The texels of a sample at a clamped λ (R466). -/
def sampleTexels (e : BitVec 512) (lod u v : Frac) : List (Frac × Option Nat) :=
  if texFilter e < 2 then levelTexels e (texFilter e = 0) (lod.add ⟨1, 2⟩).floor.toNat (Frac.int 1) u v
  else
    let i := lod.floor.toNat
    let f := lod.sub (Frac.int i)
    levelTexels e false i ((Frac.int 1).sub f) u v ++ levelTexels e false (min (i + 1) (texLevels e - 1)) f u v

/-- What a texel's element reads as (R85, R207): a value, N8 as a fraction. -/
def texelValue (e : BitVec 512) (w : Nat) : FV × Frac :=
  let v := if tidFormat e = 1 then decodeF fp32 w else decodeF fp16 w
  if tidFormat e = 9 then (.fin false w 0, ⟨w, 255⟩) else (v, v.toFrac.getD (Frac.int 0))

/-- A channel: the exact weighted sum, rounded once (R466). -/
def channelSum (xs : List (Frac × FV × Frac)) : W32 :=
  let nan := xs.any (fun x => x.2.1.isNan || (x.2.1.isInf && x.1.isZero))
  let up := xs.any (fun x => x.2.1.isInf && !x.2.1.isNeg)
  let dn := xs.any (fun x => x.2.1.isInf && x.2.1.isNeg)
  BitVec.ofNat 32 (if nan || (up && dn) then qnan fp32 else if up then infOf fp32 false else if dn then infOf fp32 true
    else roundN fp32 1 ((xs.map (fun x => x.1.mul x.2.2)).foldl Frac.add (Frac.int 0)).toX)

/-- λ of a finite footprint M = m × 2^e, above 0, and a finite bias: ½ log₂ M + bias, to be rounded (R466). -/
def lodX (m : Nat) (e : Int) (bias : FV) : XV :=
  let b := nbits m - 1
  let n : Int := e + b
  match bias with
  | .fin bn bm be =>
    if m = 2 ^ b then addFV 1 (.fin (decide (n < 0)) n.natAbs (-1)) bias
    else
      let v := fun (p : Nat) =>
        let y := fixOf m (-(b : Int)) p
        let one := 2 ^ p
        let w := 2 * atanhFix ((y - one) * one / (y + one)) p
        let k : Int := fixOf bm be p
        (n * one + (w * one / ln2Fix p : Nat)) / 2 + (if bn then -k else k)
      if v 512 < -(2 ^ 130 : Int) then .val true 1 0 false
      else zivX 12 false m e (fun p => if v p < 2 ^ 130 then none else around (v p) p)
  | x => x.toX

/-- The footprint of two gradients (R466): the greater of W² u² + H² v². -/
def footprint (e : BitVec 512) (gx gy : FV × FV) : FV :=
  let sq := fun (n : Nat) (x : FV) => mulFV (.fin false (n * n) 0) (mulFV x x)
  let one := fun (g : FV × FV) => (addFV 1 (sq (tidExtent e 0) g.1) (sq (tidExtent e 1) g.2)).toFV
  let a := one gx
  let b := one gy
  if a.isNan || b.isNan then .nan else maxFV a b

/-- λ of a footprint and a bias, rounded to FP32 (R466). -/
def lodOf (m bias : FV) : FV :=
  decodeF fp32 (roundN fp32 1 (match m, bias with
    | .nan, _ => .nan
    | _, .nan => .nan
    | .inf _, b => addFV 1 (.inf false) b
    | .fin _ k e, b => if k = 0 then addFV 1 (.inf true) b else lodX k e b))

/-- How a word obtains λ (R466). -/
inductive LodKind where
  | quad | given | gradients
  deriving DecidableEq, Repr

/-- The context in which a lane's generator has advanced. -/
def Ctx.withGen (c : Ctx) (l : Nat) (g : W64) : Ctx := { c with grp := c.grp.modLane l (fun x => { x with gen := g }) }

/-- The four differences of a quad that TEX forms, u and v across, then u and v down, each as DDXC or DDYC rounds it and advances the lane's
generator (R191, R193, R466). (DEDUCED, log entry 37.) -/
def Ctx.texDiffs (c : Ctx) (a l : Nat) : List FV × Ctx :=
  [(0, 1), (1, 1), (0, 2), (1, 2)].foldl (fun (r : List FV × Ctx) k => match r.2.deriv 32 ((a + k.1) % 32) l k.2 0 with
    | .ok x => (r.1 ++ [decodeF fp32 (x.1.toNat % 2 ^ 32)], r.2.withGen l x.2)
    | .error _ => (r.1 ++ [FV.nan], r.2)) ([], c)

/-- λ of a lane, before clamping, and its generator after it (R466). -/
def Ctx.texLod (c : Ctx) (kind : LodKind) (e : BitVec 512) (a l : Nat) : FV × W64 :=
  let r := fun (k : Nat) => decodeF fp32 (c.src.readN ((a + k) % 32) l)
  let bias := decodeF fp32 (texBias e)
  match kind with
  | .given => (decodeF fp32 (roundN fp32 1 (addFV 1 (r 2) bias)), c.gen l)
  | .quad =>
    let d := c.texDiffs a l
    let x := fun (k : Nat) => d.1.getD k .nan
    (lodOf (footprint e (x 0, x 1) (x 2, x 3)) bias, d.2.gen l)
  | .gradients => (lodOf (footprint e (r 2, r 3) (r 4, r 5)) bias, c.gen l)

/-- A coordinate: an infinite one lies beyond every texel of an axis that does not wrap. (DEDUCED, log entry 37.) -/
def coordOf (x : FV) : Frac :=
  match x with
  | .inf n => Frac.int (if n then -(2 ^ 200 : Int) else 2 ^ 200)
  | y => y.toFrac.getD (Frac.int 0)

/-- A sample of one lane (R466). An infinite coordinate on an axis that wraps names no texel: the channels are free values. (DEDUCED, log entry 37.) -/
def texLane (kind : LodKind) (e : BitVec 512) (a : Nat) (c : Ctx) (s : State) (l : Nat) : GfxLane × State :=
  let n := texChannels e
  let u := decodeF fp32 (c.src.readN a l)
  let v := decodeF fp32 (c.src.readN ((a + 1) % 32) l)
  if u.isNan || v.isNan then (.vals (List.replicate n (BitVec.ofNat 32 (qnan fp32))), s)
  else if (u.isInf && decide (texModeU e = 0)) || (v.isInf && decide (texModeV e = 0)) then
    let r := s.drawList (upto 0 n)
    (.vals (r.1.map (fun x => x.2.setWidth 32)), r.2)
  else
    let ts := sampleTexels e (clampLod (texLevels e) (c.texLod kind e a l).1) (coordOf u) (coordOf v)
    let w := fmtHalves (tidFormat e) / 2
    let reads := ts.flatMap (fun t => match t.2 with
      | none => []
      | some p => (upto 0 n).map (fun k => (p + k * w, w)))
    match s.laneReads c l w reads with
    | (.error x, s) => (x, s)
    | (.ok bs, s) =>
      let place := fun (k : Nat) => ((ts.take k).filter (fun t => t.2.isSome)).length * n
      let vals := fun (ch : Nat) => lmapIdx (fun k (t : Frac × Option Nat) => (t.1, match t.2 with
        | none => (FV.fin false 0 0, Frac.int 0)
        | some _ => texelValue e (leNat (bs.getD (place k + ch) [])))) 0 ts
      (.vals ((upto 0 n).map (fun ch => channelSum (vals ch))), s)

/-- A TEX word (R465, R466, R468): `na` source registers from a. SHAPE and QUOTA of the destinations come before the faults of the entry and of the
reads. (DEDUCED, log entry 71.) -/
def texGroup (kind : LodKind) (na d a t : Nat) (c : Ctx) (u : Uses) (s : State) : Did :=
  if c.shapes .p32 (regRun a na) = false then .trap c.shapeTrap false s
  else match s.viewEntry c.wg t with
    | .error x => .trap ⟨x.1, c.mask, x.2⟩ false s
    | .ok e =>
      let n := texChannels e
      let s1 := s.modCurWg (fun w => w.noteEntry t e)
      if texOk e = false then
        c.commit u { Out.none with vs := gfxWrites d n [], err := some ⟨.tid, c.mask, BitVec.ofNat 64 t⟩ } s1 .done
      else
        let r := s1.eachLane (texLane kind e a c) c.act
        gfxCommit d n (if kind = .quad then c.act.map (fun l => (l, (c.texLod kind e a l).2)) else []) r.1 c u s r.2

/-- TEX (R466). -/
def execTex (c d a t : Nat) (s : State) : Host.Outcome State Fault Refusal := groupWord (uTex c d a 2 (s.chan t)) s (texGroup .quad 2 d a t)

/-- TEXL (R466). -/
def execTexl (c d a t : Nat) (s : State) : Host.Outcome State Fault Refusal := groupWord (uTex c d a 3 (s.chan t)) s (texGroup .given 3 d a t)

/-- TEXG (R466). -/
def execTexg (c d a t : Nat) (s : State) : Host.Outcome State Fault Refusal := groupWord (uTex c d a 6 (s.chan t)) s (texGroup .gradients 6 d a t)

end Sys2Proof.Machine
end

