-- ==== Sys2Proof/Machine/Dispatch.lean ====
section
/-!
DEFINITION. The one dispatch: each constructor of Instr to its meaning. Words first come from a chain (R25), events from the
package (file 95).
-/
namespace Sys2Proof.Machine

/-- The meaning of an instruction or event. -/
def exec (i : Instr) (s : State) : Host.Outcome State Fault Refusal :=
  match i with
  | .issueOpportunity core => Sys2Proof.Machine.execIssueOpportunity core s
  | .dutyChange core => Sys2Proof.Machine.execDutyChange core s
  | .resultWriteback core wg grp id => Sys2Proof.Machine.execResultWriteback core wg grp id s
  | .sleepExpiry core wg grp id => Sys2Proof.Machine.execSleepExpiry core wg grp id s
  | .workgroupAdmission cluster => Sys2Proof.Machine.execWorkgroupAdmission cluster s
  | .slotReturn core wg => Sys2Proof.Machine.execSlotReturn core wg s
  | .preempt core wg => Sys2Proof.Machine.execPreempt core wg s
  | .contextRestore saved core => Sys2Proof.Machine.execContextRestore saved core s
  | .pushtRowPlaced core wg => Sys2Proof.Machine.execPushtRowPlaced core wg s
  | .mmaExecute core wg id => Sys2Proof.Machine.execMmaExecute core wg id s
  | .azeroExecute core wg id => Sys2Proof.Machine.execAzeroExecute core wg id s
  | .smxuExecute core wg id => Sys2Proof.Machine.execSmxuExecute core wg id s
  | .copyRow core wg id => Sys2Proof.Machine.execCopyRow core wg id s
  | .barwaitBoundExpiry core wg grp id => Sys2Proof.Machine.execBarwaitBoundExpiry core wg grp id s
  | .nbarwaitBoundExpiry core wg grp id => Sys2Proof.Machine.execNbarwaitBoundExpiry core wg grp id s
  | .gets cluster pa => Sys2Proof.Machine.execGets cluster pa s
  | .getm cluster pa => Sys2Proof.Machine.execGetm cluster pa s
  | .put cluster pa => Sys2Proof.Machine.execPut cluster pa s
  | .promotionDemand cluster pa => Sys2Proof.Machine.execPromotionDemand cluster pa s
  | .forward cluster pa => Sys2Proof.Machine.execForward cluster pa s
  | .l2Eviction pa => Sys2Proof.Machine.execL2Eviction pa s
  | .tlbWalkFill cluster asid va gen => Sys2Proof.Machine.execTlbWalkFill cluster asid va gen s
  | .tlbInvalidation cluster kind asid va => Sys2Proof.Machine.execTlbInvalidation cluster kind asid va s
  | .clusterAtomic cluster => Sys2Proof.Machine.execClusterAtomic cluster s
  | .donationRequest cluster => Sys2Proof.Machine.execDonationRequest cluster s
  | .splitRegisterWrite die ctx value => Sys2Proof.Machine.execSplitRegisterWrite die ctx value s
  | .resizeComplete die ctx => Sys2Proof.Machine.execResizeComplete die ctx s
  | .routerIdleGate die router => Sys2Proof.Machine.execRouterIdleGate die router s
  | .routerWake die router => Sys2Proof.Machine.execRouterWake die router s
  | .routerWakeComplete die router => Sys2Proof.Machine.execRouterWakeComplete die router s
  | .routerGatingWrite die value => Sys2Proof.Machine.execRouterGatingWrite die value s
  | .linkFlitRetry die link ok => Sys2Proof.Machine.execLinkFlitRetry die link ok s
  | .uncorrectableError site => Sys2Proof.Machine.execUncorrectableError site s
  | .doorbell die queue value => Sys2Proof.Machine.execDoorbell die queue value s
  | .queueDestroy die queue => Sys2Proof.Machine.execQueueDestroy die queue s
  | .queueDestroyComplete die queue => Sys2Proof.Machine.execQueueDestroyComplete die queue s
  | .dispatchStep die => Sys2Proof.Machine.execDispatchStep die s
  | .treeCounterUpdate die => Sys2Proof.Machine.execTreeCounterUpdate die s
  | .churnPassage die stop => Sys2Proof.Machine.execChurnPassage die stop s
  | .boardingReadReturn die slot => Sys2Proof.Machine.execBoardingReadReturn die slot s
  | .releasePacketEnqueue die queue => Sys2Proof.Machine.execReleasePacketEnqueue die queue s
  | .churnLimitWrite die part value => Sys2Proof.Machine.execChurnLimitWrite die part value s
  | .rasterTriangle die => Sys2Proof.Machine.execRasterTriangle die s
  | .passSeal die pass => Sys2Proof.Machine.execPassSeal die pass s
  | .tileScan die => Sys2Proof.Machine.execTileScan die s
  | .binTimeout die bin => Sys2Proof.Machine.execBinTimeout die bin s
  | .migrationGo value => Sys2Proof.Machine.execMigrationGo value s
  | .migrationComplete => Sys2Proof.Machine.execMigrationComplete s
  | .biasFlip die value => Sys2Proof.Machine.execBiasFlip die value s
  | .biasFlipComplete die => Sys2Proof.Machine.execBiasFlipComplete die s
  | .hostReadShared addr => Sys2Proof.Machine.execHostReadShared addr s
  | .hostReadOwned addr => Sys2Proof.Machine.execHostReadOwned addr s
  | .hostWriteback addr data => Sys2Proof.Machine.execHostWriteback addr data s
  | .hostSnoop pa own => Sys2Proof.Machine.execHostSnoop pa own s
  | .peerPostedWrite addr data => Sys2Proof.Machine.execPeerPostedWrite addr data s
  | .peerRead addr len => Sys2Proof.Machine.execPeerRead addr len s
  | .mmioReadCompletion id status value => Sys2Proof.Machine.execMmioReadCompletion id status value s
  | .mmioReadTimeout id => Sys2Proof.Machine.execMmioReadTimeout id s
  | .partitionPowerInterval part => Sys2Proof.Machine.execPartitionPowerInterval part s
  | .powerCapWrite part value => Sys2Proof.Machine.execPowerCapWrite part value s
  | .currentDroop die => Sys2Proof.Machine.execCurrentDroop die s
  | .limiterRestore die => Sys2Proof.Machine.execLimiterRestore die s
  | .thermalForecast die peaks => Sys2Proof.Machine.execThermalForecast die peaks s
  | .thermalSensor die sensor temp => Sys2Proof.Machine.execThermalSensor die sensor temp s
  | .thermalTrip die => Sys2Proof.Machine.execThermalTrip die s
  | .boot script => Sys2Proof.Machine.execBoot script s
  | .getVersion => Sys2Proof.Machine.execGetVersion s
  | .getCapabilities => Sys2Proof.Machine.execGetCapabilities s
  | .negotiateAlgorithms asym hash => Sys2Proof.Machine.execNegotiateAlgorithms asym hash s
  | .getDigests => Sys2Proof.Machine.execGetDigests s
  | .getCertificate slot offset len => Sys2Proof.Machine.execGetCertificate slot offset len s
  | .challenge slot nonce => Sys2Proof.Machine.execChallenge slot nonce s
  | .getMeasurements index signed nonce => Sys2Proof.Machine.execGetMeasurements index signed nonce s
  | .spdmUnsupported code => Sys2Proof.Machine.execSpdmUnsupported code s
  | .scrubRead pa outcome => Sys2Proof.Machine.execScrubRead pa outcome s
  | .lifetimeCounterUpdate index delta => Sys2Proof.Machine.execLifetimeCounterUpdate index delta s
  | .flitReceive port flit => Sys2Proof.Machine.execFlitReceive port flit s
  | .flitRefusal port seq crc => Sys2Proof.Machine.execFlitRefusal port seq crc s
  | .portRetrain port ok => Sys2Proof.Machine.execPortRetrain port ok s
  | .inboundAccess req => Sys2Proof.Machine.execInboundAccess req s
  | .remoteAtomic req => Sys2Proof.Machine.execRemoteAtomic req s
  | .remoteWriteAck id => Sys2Proof.Machine.execRemoteWriteAck id s
  | .peerReset package => Sys2Proof.Machine.execPeerReset package s
  | .registerWrite pa value => Sys2Proof.Machine.execRegisterWrite pa value s
  | .partitionCreation part spec => Sys2Proof.Machine.execPartitionCreation part spec s
  | .partitionDestruction part => Sys2Proof.Machine.execPartitionDestruction part s
  | .queueEnable die queue => Sys2Proof.Machine.execQueueEnable die queue s
  | .routerGatingComplete die router => Sys2Proof.Machine.execRouterGatingComplete die router s
  | .memoryFillReturn pa => Sys2Proof.Machine.execMemoryFillReturn pa s
  | .invalidationAcknowledgement cluster pa => Sys2Proof.Machine.execInvalidationAcknowledgement cluster pa s
  | .hostMemoryWrite addr data => Sys2Proof.Machine.execHostMemoryWrite addr data s
  | .correctedSoftError site => Sys2Proof.Machine.execCorrectedSoftError site s
  | .iadd f => Sys2Proof.Machine.execIadd f s
  | .isub f => Sys2Proof.Machine.execIsub f s
  | .imul f => Sys2Proof.Machine.execImul f s
  | .imulh f => Sys2Proof.Machine.execImulh f s
  | .imulhn f => Sys2Proof.Machine.execImulhn f s
  | .imad f => Sys2Proof.Machine.execImad f s
  | .idiv f => Sys2Proof.Machine.execIdiv f s
  | .idivn f => Sys2Proof.Machine.execIdivn f s
  | .and f => Sys2Proof.Machine.execAnd f s
  | .or f => Sys2Proof.Machine.execOr f s
  | .xor f => Sys2Proof.Machine.execXor f s
  | .andn f => Sys2Proof.Machine.execAndn f s
  | .shl f => Sys2Proof.Machine.execShl f s
  | .shr f => Sys2Proof.Machine.execShr f s
  | .sar f => Sys2Proof.Machine.execSar f s
  | .rotr f => Sys2Proof.Machine.execRotr f s
  | .imin f => Sys2Proof.Machine.execImin f s
  | .imax f => Sys2Proof.Machine.execImax f s
  | .nmin f => Sys2Proof.Machine.execNmin f s
  | .nmax f => Sys2Proof.Machine.execNmax f s
  | .popc f => Sys2Proof.Machine.execPopc f s
  | .clz f => Sys2Proof.Machine.execClz f s
  | .brev f => Sys2Proof.Machine.execBrev f s
  | .bfx f => Sys2Proof.Machine.execBfx f s
  | .icmpEq f => Sys2Proof.Machine.execIcmpEq f s
  | .icmpNe f => Sys2Proof.Machine.execIcmpNe f s
  | .icmpLt f => Sys2Proof.Machine.execIcmpLt f s
  | .icmpLe f => Sys2Proof.Machine.execIcmpLe f s
  | .icmpLtn f => Sys2Proof.Machine.execIcmpLtn f s
  | .icmpLen f => Sys2Proof.Machine.execIcmpLen f s
  | .icmpTst f => Sys2Proof.Machine.execIcmpTst f s
  | .sel f => Sys2Proof.Machine.execSel f s
  | .iaddi f => Sys2Proof.Machine.execIaddi f s
  | .andi f => Sys2Proof.Machine.execAndi f s
  | .ori f => Sys2Proof.Machine.execOri f s
  | .xori f => Sys2Proof.Machine.execXori f s
  | .shli f => Sys2Proof.Machine.execShli f s
  | .shri f => Sys2Proof.Machine.execShri f s
  | .sari f => Sys2Proof.Machine.execSari f s
  | .imuli f => Sys2Proof.Machine.execImuli f s
  | .movi f => Sys2Proof.Machine.execMovi f s
  | .movhi f => Sys2Proof.Machine.execMovhi f s
  | .fadd f => Sys2Proof.Machine.execFadd f s
  | .fsub f => Sys2Proof.Machine.execFsub f s
  | .fmul f => Sys2Proof.Machine.execFmul f s
  | .fma f => Sys2Proof.Machine.execFma f s
  | .fms f => Sys2Proof.Machine.execFms f s
  | .fnma f => Sys2Proof.Machine.execFnma f s
  | .fmin f => Sys2Proof.Machine.execFmin f s
  | .fmax f => Sys2Proof.Machine.execFmax f s
  | .fcmpLt f => Sys2Proof.Machine.execFcmpLt f s
  | .fcmpLe f => Sys2Proof.Machine.execFcmpLe f s
  | .fcmpEq f => Sys2Proof.Machine.execFcmpEq f s
  | .fcmpNe f => Sys2Proof.Machine.execFcmpNe f s
  | .fcmpGt f => Sys2Proof.Machine.execFcmpGt f s
  | .fcmpGe f => Sys2Proof.Machine.execFcmpGe f s
  | .fcmpUno f => Sys2Proof.Machine.execFcmpUno f s
  | .fabs f => Sys2Proof.Machine.execFabs f s
  | .fneg f => Sys2Proof.Machine.execFneg f s
  | .fsqrt f => Sys2Proof.Machine.execFsqrt f s
  | .frcp f => Sys2Proof.Machine.execFrcp f s
  | .frsq f => Sys2Proof.Machine.execFrsq f s
  | .fexp2 f => Sys2Proof.Machine.execFexp2 f s
  | .flog2 f => Sys2Proof.Machine.execFlog2 f s
  | .fsin f => Sys2Proof.Machine.execFsin f s
  | .fcos f => Sys2Proof.Machine.execFcos f s
  | .ffloor f => Sys2Proof.Machine.execFfloor f s
  | .fceil f => Sys2Proof.Machine.execFceil f s
  | .frint f => Sys2Proof.Machine.execFrint f s
  | .fclass f => Sys2Proof.Machine.execFclass f s
  | .ivlo f => Sys2Proof.Machine.execIvlo f s
  | .ivhi f => Sys2Proof.Machine.execIvhi f s
  | .mov f => Sys2Proof.Machine.execMov f s
  | .cvtF64F32 f => Sys2Proof.Machine.execCvtF64F32 f s
  | .cvtF32F64 f => Sys2Proof.Machine.execCvtF32F64 f s
  | .cvtF32I32 f => Sys2Proof.Machine.execCvtF32I32 f s
  | .cvtF32N32 f => Sys2Proof.Machine.execCvtF32N32 f s
  | .cvtI32F32 f => Sys2Proof.Machine.execCvtI32F32 f s
  | .cvtN32F32 f => Sys2Proof.Machine.execCvtN32F32 f s
  | .cvtF64I64 f => Sys2Proof.Machine.execCvtF64I64 f s
  | .cvtI64F64 f => Sys2Proof.Machine.execCvtI64F64 f s
  | .cvtF32F16l f => Sys2Proof.Machine.execCvtF32F16l f s
  | .cvtF32F16h f => Sys2Proof.Machine.execCvtF32F16h f s
  | .cvtF32Bf16l f => Sys2Proof.Machine.execCvtF32Bf16l f s
  | .cvtF32Bf16h f => Sys2Proof.Machine.execCvtF32Bf16h f s
  | .cvtPkF16 f => Sys2Proof.Machine.execCvtPkF16 f s
  | .cvtPkBf16 f => Sys2Proof.Machine.execCvtPkBf16 f s
  | .cvtPkE4m3 f => Sys2Proof.Machine.execCvtPkE4m3 f s
  | .cvtPkE5m2 f => Sys2Proof.Machine.execCvtPkE5m2 f s
  | .cvtUpE4m3 f => Sys2Proof.Machine.execCvtUpE4m3 f s
  | .cvtUpE5m2 f => Sys2Proof.Machine.execCvtUpE5m2 f s
  | .cvtPkQ4n f => Sys2Proof.Machine.execCvtPkQ4n f s
  | .cvtUpQ4n f => Sys2Proof.Machine.execCvtUpQ4n f s
  | .cvtPkI8 f => Sys2Proof.Machine.execCvtPkI8 f s
  | .cvtUpI8 f => Sys2Proof.Machine.execCvtUpI8 f s
  | .cvtI64I32 f => Sys2Proof.Machine.execCvtI64I32 f s
  | .cvtN64N32 f => Sys2Proof.Machine.execCvtN64N32 f s
  | .cvtI32I64 f => Sys2Proof.Machine.execCvtI32I64 f s
  | .sideGet f => Sys2Proof.Machine.execSideGet f s
  | .sideSet f => Sys2Proof.Machine.execSideSet f s
  | .ivmk f => Sys2Proof.Machine.execIvmk f s
  | .ivhull f => Sys2Proof.Machine.execIvhull f s
  | .ivmeet f => Sys2Proof.Machine.execIvmeet f s
  | .ivsqr f => Sys2Proof.Machine.execIvsqr f s
  | .ivmid f => Sys2Proof.Machine.execIvmid f s
  | .ivrad f => Sys2Proof.Machine.execIvrad f s
  | .ivsplit f => Sys2Proof.Machine.execIvsplit f s
  | .ivpown f => Sys2Proof.Machine.execIvpown f s
  | .clt f => Sys2Proof.Machine.execClt f s
  | .cle f => Sys2Proof.Machine.execCle f s
  | .ceq f => Sys2Proof.Machine.execCeq f s
  | .subset f => Sys2Proof.Machine.execSubset f s
  | .contains f => Sys2Proof.Machine.execContains f s
  | .disjoint f => Sys2Proof.Machine.execDisjoint f s
  | .zin f => Sys2Proof.Machine.execZin f s
  | .qand f => Sys2Proof.Machine.execQand f s
  | .qor f => Sys2Proof.Machine.execQor f s
  | .qnot f => Sys2Proof.Machine.execQnot f s
  | .qxor f => Sys2Proof.Machine.execQxor f s
  | .qmov f => Sys2Proof.Machine.execQmov f s
  | .qdef f => Sys2Proof.Machine.execQdef f s
  | .qcons f => Sys2Proof.Machine.execQcons f s
  | .qset f => Sys2Proof.Machine.execQset f s
  | .br c q k o => Sys2Proof.Machine.execBr c q k o s
  | .call c d o => Sys2Proof.Machine.execCall c d o s
  | .ret c a => Sys2Proof.Machine.execRet c a s
  | .jmpr c d a l => Sys2Proof.Machine.execJmpr c d a l s
  | .splitj c j => Sys2Proof.Machine.execSplitj c j s
  | .join c j => Sys2Proof.Machine.execJoin c j s
  | .exit c => Sys2Proof.Machine.execExit c s
  | .yield c => Sys2Proof.Machine.execYield c s
  | .jmaskGet c j d => Sys2Proof.Machine.execJmaskGet c j d s
  | .jmaskSet c j a => Sys2Proof.Machine.execJmaskSet c j a s
  | .jmaskAdd c j => Sys2Proof.Machine.execJmaskAdd c j s
  | .jmaskDel c j => Sys2Proof.Machine.execJmaskDel c j s
  | .jmaskClr c j => Sys2Proof.Machine.execJmaskClr c j s
  | .shfl f => Sys2Proof.Machine.execShfl f s
  | .shflu f => Sys2Proof.Machine.execShflu f s
  | .shfld f => Sys2Proof.Machine.execShfld f s
  | .shflx f => Sys2Proof.Machine.execShflx f s
  | .vote c d q k g y => Sys2Proof.Machine.execVote c d q k g y s
  | .gredIadd f => Sys2Proof.Machine.execGredIadd f s
  | .gredImin f => Sys2Proof.Machine.execGredImin f s
  | .gredImax f => Sys2Proof.Machine.execGredImax f s
  | .gredNmin f => Sys2Proof.Machine.execGredNmin f s
  | .gredNmax f => Sys2Proof.Machine.execGredNmax f s
  | .gredAnd f => Sys2Proof.Machine.execGredAnd f s
  | .gredOr f => Sys2Proof.Machine.execGredOr f s
  | .gredXor f => Sys2Proof.Machine.execGredXor f s
  | .gredFadd f => Sys2Proof.Machine.execGredFadd f s
  | .gredFmin f => Sys2Proof.Machine.execGredFmin f s
  | .gredFmax f => Sys2Proof.Machine.execGredFmax f s
  | .matchLanes f => Sys2Proof.Machine.execMatchLanes f s
  | .gfence c l g y => Sys2Proof.Machine.execGfence c l g y s
  | .qxh f => Sys2Proof.Machine.execQxh f s
  | .qxv f => Sys2Proof.Machine.execQxv f s
  | .qxd f => Sys2Proof.Machine.execQxd f s
  | .ddxc f => Sys2Proof.Machine.execDdxc f s
  | .ddyc f => Sys2Proof.Machine.execDdyc f s
  | .ddxf f => Sys2Proof.Machine.execDdxf f s
  | .ddyf f => Sys2Proof.Machine.execDdyf f s
  | .helpq c d g y => Sys2Proof.Machine.execHelpq c d g y s
  | .ld f => Sys2Proof.Machine.execLd f s
  | .st f => Sys2Proof.Machine.execSt f s
  | .lda f => Sys2Proof.Machine.execLda f s
  | .stl f => Sys2Proof.Machine.execStl f s
  | .ldg f => Sys2Proof.Machine.execLdg f s
  | .stg f => Sys2Proof.Machine.execStg f s
  | .pref c a o y h => Sys2Proof.Machine.execPref c a o y h s
  | .lineWb c a o y => Sys2Proof.Machine.execLineWb c a o y s
  | .lineInv c a o y => Sys2Proof.Machine.execLineInv c a o y s
  | .lineWbinv c a o y => Sys2Proof.Machine.execLineWbinv c a o y s
  | .lineZero c a o y => Sys2Proof.Machine.execLineZero c a o y s
  | .atomAdd f => Sys2Proof.Machine.execAtomAdd f s
  | .atomMin f => Sys2Proof.Machine.execAtomMin f s
  | .atomMax f => Sys2Proof.Machine.execAtomMax f s
  | .atomNmin f => Sys2Proof.Machine.execAtomNmin f s
  | .atomNmax f => Sys2Proof.Machine.execAtomNmax f s
  | .atomAnd f => Sys2Proof.Machine.execAtomAnd f s
  | .atomOr f => Sys2Proof.Machine.execAtomOr f s
  | .atomXor f => Sys2Proof.Machine.execAtomXor f s
  | .atomXchg f => Sys2Proof.Machine.execAtomXchg f s
  | .atomCas f => Sys2Proof.Machine.execAtomCas f s
  | .atomFadd f => Sys2Proof.Machine.execAtomFadd f s
  | .atomFmin f => Sys2Proof.Machine.execAtomFmin f s
  | .atomFmax f => Sys2Proof.Machine.execAtomFmax f s
  | .atomIncw f => Sys2Proof.Machine.execAtomIncw f s
  | .atomDecw f => Sys2Proof.Machine.execAtomDecw f s
  | .nop c => Sys2Proof.Machine.execNop c s
  | .trap c k => Sys2Proof.Machine.execTrap c k s
  | .eret c => Sys2Proof.Machine.execEret c s
  | .crr c d r => Sys2Proof.Machine.execCrr c d r s
  | .crw c a r => Sys2Proof.Machine.execCrw c a r s
  | .crset c a r => Sys2Proof.Machine.execCrset c a r s
  | .crclr c a r => Sys2Proof.Machine.execCrclr c a r s
  | .fence c y => Sys2Proof.Machine.execFence c y s
  | .fenceAcq c y => Sys2Proof.Machine.execFenceAcq c y s
  | .fenceRel c y => Sys2Proof.Machine.execFenceRel c y s
  | .fenceLayer c => Sys2Proof.Machine.execFenceLayer c s
  | .quota c q a b => Sys2Proof.Machine.execQuota c q a b s
  | .sleep c n => Sys2Proof.Machine.execSleep c n s
  | .tlbinvPage c a => Sys2Proof.Machine.execTlbinvPage c a s
  | .tlbinvAsid c => Sys2Proof.Machine.execTlbinvAsid c s
  | .tlbinvAll c => Sys2Proof.Machine.execTlbinvAll c s
  | .fwcallVersion c d a => Sys2Proof.Machine.execFwcallVersion c d a s
  | .fwcallTemperature c d a => Sys2Proof.Machine.execFwcallTemperature c d a s
  | .fwcallForecast c d a => Sys2Proof.Machine.execFwcallForecast c d a s
  | .fwcallCap c d a => Sys2Proof.Machine.execFwcallCap c d a s
  | .fwcallCounter c d a => Sys2Proof.Machine.execFwcallCounter c d a s
  | .fwcallHalfRow c d a => Sys2Proof.Machine.execFwcallHalfRow c d a s
  | .fwcallUnlisted c d a y => Sys2Proof.Machine.execFwcallUnlisted c d a y s
  | .cacheIfetch c => Sys2Proof.Machine.execCacheIfetch c s
  | .cacheWb c => Sys2Proof.Machine.execCacheWb c s
  | .cacheWbinv c => Sys2Proof.Machine.execCacheWbinv c s
  | .rep n d a b => Sys2Proof.Machine.execRep n d a b s
  | .aslice c q a b => Sys2Proof.Machine.execAslice c q a b s
  | .pusht c f t x n => Sys2Proof.Machine.execPusht c f t x n s
  | .copy c a b m => Sys2Proof.Machine.execCopy c a b m s
  | .tidset c a n => Sys2Proof.Machine.execTidset c a n s
  | .tidget c a n => Sys2Proof.Machine.execTidget c a n s
  | .await c q => Sys2Proof.Machine.execAwait c q s
  | .qpush c a n => Sys2Proof.Machine.execQpush c a n s
  | .qpop c d n => Sys2Proof.Machine.execQpop c d n s
  | .qtry c d q n => Sys2Proof.Machine.execQtry c d q n s
  | .swinit c a b => Sys2Proof.Machine.execSwinit c a b s
  | .swadd c a b => Sys2Proof.Machine.execSwadd c a b s
  | .swwait c a b => Sys2Proof.Machine.execSwwait c a b s
  | .barinit c a b => Sys2Proof.Machine.execBarinit c a b s
  | .barrive c d a b => Sys2Proof.Machine.execBarrive c d a b s
  | .bardrop c d a b => Sys2Proof.Machine.execBardrop c d a b s
  | .barwait c q a b e => Sys2Proof.Machine.execBarwait c q a b e s
  | .nbarrive c d a k => Sys2Proof.Machine.execNbarrive c d a k s
  | .nbarriveDrop c d a k => Sys2Proof.Machine.execNbarriveDrop c d a k s
  | .nbarwait c q a e k => Sys2Proof.Machine.execNbarwait c q a e k s
  | .nbarset c q a b k => Sys2Proof.Machine.execNbarset c q a b k s
  | .acqp c d a z => Sys2Proof.Machine.execAcqp c d a z s
  | .mma f => Sys2Proof.Machine.execMma f s
  | .azero c a => Sys2Proof.Machine.execAzero c a s
  | .areadF32 c a d k => Sys2Proof.Machine.execAreadF32 c a d k s
  | .areadF64 c a d k => Sys2Proof.Machine.execAreadF64 c a d k s
  | .areadI32 c a d k => Sys2Proof.Machine.execAreadI32 c a d k s
  | .areadRaw c a d k => Sys2Proof.Machine.execAreadRaw c a d k s
  | .awriteF32 c a v k => Sys2Proof.Machine.execAwriteF32 c a v k s
  | .awriteF64 c a v k => Sys2Proof.Machine.execAwriteF64 c a v k s
  | .awriteI32 c a v k => Sys2Proof.Machine.execAwriteI32 c a v k s
  | .awriteRaw c a v k => Sys2Proof.Machine.execAwriteRaw c a v k s
  | .smxu c a f v p => Sys2Proof.Machine.execSmxu c a f v p s
  | .smxrM c a d => Sys2Proof.Machine.execSmxrM c a d s
  | .smxrL c a d => Sys2Proof.Machine.execSmxrL c a d s
  | .smxrSt c a d => Sys2Proof.Machine.execSmxrSt c a d s
  | .mfence c => Sys2Proof.Machine.execMfence c s
  | .mwait c a => Sys2Proof.Machine.execMwait c a s
  | .cboard c q a => Sys2Proof.Machine.execCboard c q a s
  | .cboardr c q a b e => Sys2Proof.Machine.execCboardr c q a b e s
  | .calight c d a => Sys2Proof.Machine.execCalight c d a s
  | .ccapAdd c d a b => Sys2Proof.Machine.execCcapAdd c d a b s
  | .ccapSub c d a b => Sys2Proof.Machine.execCcapSub c d a b s
  | .ccapMin c d a b => Sys2Proof.Machine.execCcapMin c d a b s
  | .ccapMax c d a b => Sys2Proof.Machine.execCcapMax c d a b s
  | .ccapAnd c d a b => Sys2Proof.Machine.execCcapAnd c d a b s
  | .ccapOr c d a b => Sys2Proof.Machine.execCcapOr c d a b s
  | .ccapXchg c d a b => Sys2Proof.Machine.execCcapXchg c d a b s
  | .ccapCas c d a b => Sys2Proof.Machine.execCcapCas c d a b s
  | .ccapDec c d a => Sys2Proof.Machine.execCcapDec c d a s
  | .cpeek c d a => Sys2Proof.Machine.execCpeek c d a s
  | .cwait c d a b k => Sys2Proof.Machine.execCwait c d a b k s
  | .rast c a b e => Sys2Proof.Machine.execRast c a b e s
  | .rseal c a => Sys2Proof.Machine.execRseal c a s
  | .bpush c k q a b => Sys2Proof.Machine.execBpush c k q a b s
  | .bpushHit c k q a b => Sys2Proof.Machine.execBpushHit c k q a b s
  | .bisect c q a b e => Sys2Proof.Machine.execBisect c q a b e s
  | .attr c d a b j => Sys2Proof.Machine.execAttr c d a b j s
  | .tex c d a t => Sys2Proof.Machine.execTex c d a t s
  | .texl c d a t => Sys2Proof.Machine.execTexl c d a t s
  | .texg c d a t => Sys2Proof.Machine.execTexg c d a t s
  | .bflush c a => Sys2Proof.Machine.execBflush c a s
  | .bflushAll c => Sys2Proof.Machine.execBflushAll c s
  | .enq c q a b => Sys2Proof.Machine.execEnq c q a b s
  | .rgrab c d n => Sys2Proof.Machine.execRgrab c d n s
  | .rgrabSet c a b n => Sys2Proof.Machine.execRgrabSet c a b n s
  | .sread c d k => Sys2Proof.Machine.execSread c d k s
  | .time c d => Sys2Proof.Machine.execTime c d s
  | .energy c d => Sys2Proof.Machine.execEnergy c d s
  | .energyQ c d a => Sys2Proof.Machine.execEnergyQ c d a s

end Sys2Proof.Machine
end

