-- ==== Sys2Proof/Machine/Chain.lean ====
section
/-!
DEFINITION. Running one word where it lies, and chains: their legality (R27), their beginning and their end (R23, R28, R30, R42), JOIN
releases (R182, R183) and the end of a handler path (R262).
-/
namespace Sys2Proof.Machine

/-- A word that is no instruction raises ILLEGAL_OP (R40); a REP among them whose next word carries C = 1 is an illegal chain first
(R42, R46). -/
def State.badWord (s : State) (w : Nat) : State :=
  let next := match (s.fetchCur (s.cur.pc + 1)).1 with
    | .error _ => false
    | .ok v => chainBit v.toNat
  if s.isSlice = false ∧ majorOf w = 0x01 ∧ next = true then
    { s with cur := { s.cur with pc := s.cur.pc + 1 } }.stepFault .illegalChain 0
  else s.stepFault .illegalOp 0

/-- The class that R38 gives the row of a word that is no instruction. (DEDUCED, log entry 72.) -/
def rowClass (w : Nat) : Cls :=
  let m := majorOf w
  if m = 0x00 ∧ fieldN w 25 20 = 0 ∨ 0x1C ≤ m then .none
  else if m = 0x00 ∧ (fieldN w 25 20 = 7 ∨ fieldN w 25 20 = 12) then .m
  else if m = 0x00 ∨ m = 0x01 ∨ m = 0x10 ∨ m = 0x11 ∨ m = 0x1B then .c
  else if m = 0x14 ∨ m = 0x15 ∨ m = 0x17 ∨ m = 0x19 ∨ m = 0x12 ∧ fieldN w 2 0 = 7 then .m
  else if m = 0x16 ∨ m = 0x18 ∨ m = 0x1A then .x
  else if m = 0x0B ∧ 2 ≤ fieldN w 15 11 ∧ fieldN w 15 11 ≤ 8 ∨ m = 0x0C ∧ 14 ≤ fieldN w 15 11 ∧ fieldN w 15 11 ≤ 19 ∨
    m = 0x0D ∧ (fieldN w 2 0 = 3 ∨ fieldN w 2 0 = 7) then .f
  else if m = 0x12 ∨ m = 0x13 then .a6
  else .a

/-- Fetch, decode and execute the word at the issue's program counter; a word that is no instruction raises ILLEGAL_OP (R40). -/
noncomputable def runWord (s : State) : Host.Outcome State Fault Refusal :=
  if s.cur.live = true ∧ s.fetchStopped s.cur.pc = true then .next { s with cur := { s.cur with live := false, waited := true } }
  else if s.cur.live then
    match s.fetchCur s.cur.pc with
    | (.error x, s) => .next (s.stepFault x (BitVec.ofNat 64 (4 * s.cur.pc)))
    | (.ok w, s) => match decode (s.issueWord w) with
      | .error _ => .next (s.badWord w.toNat)
      | .ok i => exec i s
  else .next s

/-! ## Legality -/

/-- Does a list name one thing twice. -/
def hasDup : List RegName → Bool
  | [] => false
  | a :: t => t.contains a || hasDup t

/-- The destinations of a word that R27 counts. -/
def Uses.dests (u : Uses) : List RegName := u.writes.filter (fun r => decide (r ≠ .q 0))

/-- How many words of a chain are of a class. -/
def classCount (us : List Uses) (p : Cls → Bool) : Nat := (us.filter (fun u => p u.cls)).length

/-- A chain of these words is legal (R27); `last` says that the last word still carries C = 1. (DEDUCED, log entry 72.) -/
def legalChain (us : List Uses) (last : Bool) : Bool :=
  !last &&
  decide (classCount us (fun k => k = .a ∨ k = .a6) ≤ 2) && decide (classCount us (fun k => k = .f) ≤ 1) &&
  decide (classCount us (fun k => k = .m) ≤ 1) && decide (classCount us (fun k => k = .x) ≤ 1) &&
  decide (classCount us (fun k => k = .c) ≤ 1) && !hasDup (us.flatMap Uses.dests) &&
  (decide (us.length ≤ 1) || us.all (fun u => !u.rep))

/-- What a raw word names; a word that is no instruction names its class and its chain bit. -/
noncomputable def usesOfWord (s : State) (w : Nat) : Uses :=
  match decode w with
  | .ok i => s.uses i
  | .error _ => { uNone with cls := rowClass w, chain := fieldN w 31 31, rep := decide (majorOf w = 0x01) }

/-- The raw words of the chain at a word address (R25): n slots are left in the packet; the flag says that the last has C = 1. A word that cannot be
fetched ends the chain, counts as of no class, and faults in its turn, the lower words done. (DESIGN CHOICE, log entry 92.) -/
def State.chainWords (s : State) (pc : Nat) : Nat → List Nat × Bool
  | 0 => ([], true)
  | n + 1 => match (s.fetchCur pc).1 with
    | .error _ => ([0], false)
    | .ok w =>
      if chainBit w.toNat then
        let r := s.chainWords (pc + 1) n
        (w.toNat :: r.1, r.2)
      else ([w.toNat], false)

/-- Some word of the chain waits at issue (R167): found by running the chain; past a word that faults or sleeps, the words above it are tried
from where it stood (R28). -/
noncomputable def chainHolds : Nat → State → Bool
  | 0, _ => false
  | n + 1, s => match runWord s with
    | .next t => t.cur.waited || chainHolds n (if t.cur.live then t else { s with cur := { s.cur with pc := s.cur.pc + 1 } })
    | _ => false

/-- An issue may begin: its workgroup is resident, its group not retired, its slice running. -/
def State.mayBegin (s : State) : Bool :=
  match s.curWg with
  | none => false
  | some w => if s.cur.who.grp = 16 then w.slice.live else match w.group s.cur.who.grp with
    | none => false
    | some g => !g.retired

/-- The state in which the words of an issue run: the group as it stands is what they read (R28). -/
def State.issuing (s : State) (iss : Issue) : State :=
  { s with cur := { iss with stall := 0, live := true, waited := false,
                             snap := match iss.snap with
                               | some g => some g
                               | none => s.group iss.who.core iss.who.wg iss.who.grp } }

/-- The raw words of the chain that an issue begins, and whether the last still carries C = 1: one word when a repeat re-issues it (R45). -/
def State.chainAt (s : State) : List Nat × Bool :=
  match s.curRep with
  | some _ => match (s.fetchCur s.cur.pc).1 with
    | .error _ => ([0], false)
    | .ok w => ([w.toNat], chainBit w.toNat)
  | none => s.chainWords s.cur.pc (3 - s.cur.pc % 3)

/-- The packet that holds the chain lies, from the chain on, in part in a slice that has stopped (R21, R368): it is not fetched. -/
def State.chainStopped (s : State) : Bool :=
  (upto s.cur.pc (if s.isSlice || s.curRep.isSome then 1 else 3 - s.cur.pc % 3)).any s.fetchStopped

/-- What the choice of paths asks of a chain: whether it may issue (R167), and the pipe classes of its words (R26); an illegal chain has the
shared pipes of its words, each once (R170), and needs no other. -/
noncomputable def State.lookAt (s0 : State) (iss : Issue) : Bool × List Cls :=
  let s := s0.issuing iss
  if s.chainStopped then (false, [])
  else if s.isSlice then
    match (s.fetchCur s.cur.pc).1 with
    | .error _ => (true, [])
    | .ok w => (!chainHolds 1 s, [(usesOfWord s w.toNat).cls])
  else
    let ws := s.chainAt
    let us := ws.1.map (usesOfWord s)
    if legalChain us ws.2 then (!chainHolds ws.1.length s, us.map (·.cls))
    else (true, (sharedPipes (us.map (·.cls))).eraseDups)

/-- The paths of a pack as an issue opportunity will find them: a path may issue when the chain of each of its groups may (R167). -/
noncomputable def State.probePack (s : State) (core : Nat) (slot : Nat) (w : Workgroup) (p : Nat) : List PathInfo :=
  (w.keys p).map (fun k =>
    let looks := (w.lanesAt p k).map (fun x => s.lookAt ⟨⟨core, slot, w.uid, x.1⟩, listMask x.2, k.1, none, 0, true, false, [], false⟩)
    { wg := slot, pack := p, pc := k.1, step := k.2, ready := looks.all (·.1), cls := (looks.head?.map (·.2)).getD [] })

/-- The next word of a slice as an issue opportunity will find it. -/
noncomputable def State.probeSlice (s : State) (core : Nat) (slot : Nat) (w : Workgroup) : List PathInfo :=
  if w.slice.live && w.slice.push.isNone && w.slice.wait.isNone then
    let look := s.lookAt ⟨⟨core, slot, w.uid, 16⟩, 0, w.slice.pc, none, 0, true, false, [], false⟩
    [{ wg := slot, pack := 16, pc := w.slice.pc, step := none, ready := look.1, cls := look.2 }]
  else []

/-- Look at the paths of a core before its issue opportunity (R167). -/
noncomputable def State.probe (s : State) (core : Nat) : State :=
  let found := (s.core core).wgs.flatMap (fun w => w.2.livePacks.flatMap (s.probePack core w.1 w.2) ++ s.probeSlice core w.1 w.2)
  s.modCore core (fun c => { c with probe := found })

/-- Begin a chain (R25, R27): the group as it stands is what its words read (R28), an illegal chain traps at its first word (R42), a
chain with a word that waits does not issue (R167), and the rest of one keeps what it reads. (DESIGN CHOICE, log entry 9.) -/
noncomputable def beginChain (iss : Issue) (s0 : State) : State :=
  let s := s0.issuing iss
  let stop := { s0 with cur := { iss with live := false } }
  let wait := if iss.rest then stop.parkRest iss else stop
  if s.mayBegin = false then stop
  else if s.chainStopped then wait
  else if s.isSlice then s.next [.word, .chainEnd]
  else
    let ws := s.chainAt
    if legalChain (ws.1.map (usesOfWord s)) ws.2 = false then (s.stepFault .illegalChain 0).next [.chainEnd]
    else if chainHolds ws.1.length s then wait
    else s.next (List.replicate ws.1.length .word ++ [.chainEnd])

/-! ## The end of a chain -/

/-- A lane after its chain: it goes where the chain leads, and the stall binds it (R30), as that of a lower word that slept does. -/
def Lane.endChain (live : Bool) (earliest : Nat) (l : Lane) : Lane :=
  let l := { l with earliest := max l.earliest earliest }
  if live then l.land else l

/-- Helper lanes of a quad exit with its last other lane (R165). -/
def Group.helperExit (g : Group) : Group :=
  let alone := fun (l : Nat) => (upto (l / 4 * 4) 4).all (fun k => (g.lane k).exited || (g.lane k).helper)
  match g.liveLanes.filter (fun l => (g.lane l).helper && alone l) with
  | [] => g
  | ls => g.exitLanes ls

/-- An ERET of this chain has ended the handler (R262). -/
def Group.handlerEnded (g : Group) : Bool := !g.ctrl.trapH && g.lanes.any (·.handler)

/-- Everything a group does at the end of one of its chains. -/
def Group.endChain (g : Group) (mask : W64) (live : Bool) (earliest : Nat) : Group :=
  let g := g.modLanes (g.lanesIn mask) (Lane.endChain live earliest)
  let g := if g.lanes.any (·.helper) then g.helperExit else g
  let g := if g.handlerGone || g.handlerEnded then g.leaveTrap else g
  g.joinTest

/-- Wake items for every sleeping word of a group: each tests its condition again (R260). -/
def Group.wakeAll (g : Group) (c w n : Nat) : List Item := g.waits.map (fun x => .wake c w n x.id)

/-- End a chain. -/
def endChain (s : State) : State :=
  let w := s.cur.who
  match s.curWg with
  | none => { s with cur := Issue.idle }
  | some wg => match wg.group w.grp with
    | none => { s with cur := Issue.idle }
    | some g =>
      let s1 := s.modCur (fun g => g.endChain s.cur.mask s.cur.live (s.cycle + 1 + s.cur.stall))
      let ended := match s1.group w.core w.wg w.grp with
        | some h => g.lanes.any (·.held) && h.lanes.all (fun l => !l.held)
        | none => false
      let s1 := if ended then s1.next (g.wakeAll w.core w.wg w.grp) else s1
      let s1 := s1.retireFinished w.core w.wg
      { s1 with cur := Issue.idle }

end Sys2Proof.Machine
end

