-- ==== Sys2Proof/Machine/Tick.lean ====
section
/-!
DEFINITION. The next cycle: what falls due in it, in the order in which the machine does it (R272, R332, R353, R497; log entry 4). An event
that the rules leave to the hardware's own time happens in the first cycle in which it can.
-/
namespace Sys2Proof.Machine

/-- The numbers of a list of table entries. -/
def tkeys {α : Type} (t : Tab α) : List Nat := t.map (·.1)

/-- Every resident workgroup: core, slot and workgroup. -/
def State.residents (s : State) : List (Nat × Nat × Workgroup) := s.cores.flatMap (fun c => c.2.wgs.map (fun w => (c.1, w.1, w.2)))

/-- Programs run: the package has power (R510) and has not stopped in recovery (R514). -/
def State.runs (s : State) : Bool := decide (s.pkg.boot ≠ .tripped ∧ s.pkg.boot ≠ .recovery)

/-! ## Power and duty -/

/-- Dies whose limiter's 64 cycles are over (R507). -/
def State.limitersDue (s : State) : List Nat := (upto 0 4).filter (fun d => (s.die d).limiterTill.any (fun t => decide (t ≤ s.cycle)))

/-- Partition intervals that end, limiters that restore, and cores that may take another duty (R505 to R507). -/
def State.duePower (s : State) : List Instr :=
  let ends := decide (s.cycle % powerInterval = 0)
  let p := if ends then ((s.pkg.parts.filter (·.2.live)).map (·.1)).map Instr.partitionPowerInterval else []
  let l := s.limitersDue
  let t := l.foldl (fun (s : State) d => s.modDie d (fun x => { x with limiterDuty := 16 })) s
  let c := if s.cycle % 16 = 0 then (upto 0 384).filter (fun c =>
      decide (t.dutyOf c ≠ (t.core c).duty) || (ends && (s.partOfCluster (coreCluster c)).isSome)) else []
  p ++ l.map Instr.limiterRestore ++ c.map Instr.dutyChange

/-! ## Results and requests -/

/-- Register writes that complete (R29, R31). -/
def State.dueResults (s : State) : List Instr :=
  s.residents.flatMap (fun r => (lmapIdx (fun n (g : Group) =>
    (g.pend.filter (fun p => p.due.any (fun t => decide (t ≤ s.cycle)))).map (fun p => Instr.resultWriteback r.1 r.2.1 n p.id)) 0 r.2.2.groups).flatten)

/-- Routers whose sequence ends, on one die (R366). -/
def State.dueRouters (s : State) (d : Nat) : List Instr :=
  (s.die d).routers.filterMap (fun r =>
    if s.cycle < r.2.till then none
    else match r.2.state with
      | .gating => some (.routerGatingComplete d r.1)
      | .waking => some (.routerWakeComplete d r.1)
      | _ => none)

/-- Accesses outside that time out, and packages that no in-service port leads to any more (R498, R527). -/
def State.dueOutside (s : State) : List Instr :=
  ((s.pkg.outside.filter (fun o => decide (o.package = 126 ∧ o.sent + mmioTimeout ≤ s.cycle))).map (fun o => Instr.mmioReadTimeout o.id)) ++
  ((((s.pkg.outside.map (·.package)).filter (fun n => decide (n < 126))).eraseDups).filter (fun n => decide (s.portsTo n = []))).map Instr.peerReset

/-- Operations at the atomic unit of a cluster, each in turn (R331). -/
def State.dueAtomics (s : State) (k : Nat) : List Instr := (s.cluster k).atomReqs.map (fun _ => Instr.clusterAtomic k)

/-! ## The Churn and the front end -/

/-- Stops that a car passes with something to do (R416, R431): those where requests wait, and the ports and taps while slots are in use or
loads wait for a tap. -/
def Die.busyStops (d : Die) (loads : Bool) : List Nat :=
  (upto 0 100).filter (fun k => d.reqs.any (fun r => decide (r.stop = k)) || (decide (96 ≤ k) && (loads || !d.slots.isEmpty)))

/-- Home reads of boarding slots (R418); one from a slice that has stopped waits (R368). -/
def State.boardingReads (s : State) (d : Nat) : List Nat :=
  tkeys ((s.die d).slots.filter (fun x => decide (x.2.state = .boarding) && !x.2.loaded && !s.stopped x.2.home))

/-- The Churn of a die (R418, R431). -/
def State.dueChurn (s : State) (d : Nat) : List Instr :=
  let x := s.die d
  ((s.boardingReads d).map (fun n => Instr.boardingReadReturn d n)) ++
  ((x.busyStops (s.pkg.outside.any (fun o => decide (o.package = tapParty)))).map (fun k => Instr.churnPassage d k))

/-- The raster units, the Separator and the bins of a die (R445, R446, R451, R459). -/
def State.dueRaster (s : State) (d : Nat) : List Instr :=
  let x := s.die d
  (if x.triangles.isEmpty then [] else [.rasterTriangle d]) ++
  ((tkeys (x.passes.filter (fun p => p.2.sealing.isSome))).map (fun n => Instr.passSeal d n)) ++
  (if x.scan.isNone && x.tiles.any (fun t => decide (t.2.state = .sealed)) then [.tileScan d] else []) ++
  ((tkeys (x.bins.filter (fun b => !b.2.empty && decide (b.2.last + 4096 ≤ s.cycle)))).map (fun b => Instr.binTimeout d b))

/-- The front end of a die (R397, R401, R408): a packet that the Churn released takes the first place that opens. -/
def State.dueFront (s : State) (d : Nat) : List Instr :=
  let x := s.die d
  (if s.runs = false ∨ (x.queues.isEmpty && x.launches.isEmpty) = true then [] else [.dispatchStep d]) ++
  (if x.treeUpdates.any (fun u => (s.carAt 96).contains u.slot) then [.treeCounterUpdate d] else []) ++
  ((tkeys (x.queues.filter (fun q => !q.2.released.isEmpty))).map (fun q => Instr.releasePacketEnqueue d q))

/-- Admission and donation in the clusters of a die (R233, R344). -/
def State.dueAdmit (s : State) (d : Nat) : List Instr :=
  if s.runs then
    (((upto (24 * d) 24).filter (fun k => !(s.cluster k).queue.isEmpty)).map Instr.workgroupAdmission) ++
    (((upto (24 * d) 24).filter s.asks).map Instr.donationRequest)
  else []

/-- Resizes and destructions that end on a die (R359, R409). -/
def State.dueEnds (s : State) (d : Nat) : List Instr :=
  ((s.die d).resizes.take 1).map (fun c => Instr.resizeComplete d c) ++
  ((tkeys ((s.die d).queues.filter (fun q => q.2.destroying && s.queueIdle d q.1))).map (fun q => Instr.queueDestroyComplete d q))

/-- What the directory transitions under way wait for comes (R352, R353): the fill, the owner's supply, the acknowledgements. -/
def State.dueCoherence (s : State) : List Instr :=
  ((s.pkg.trans.map (·.line)).eraseDups).flatMap (fun l => match s.transOf l with
    | none => []
    | some t =>
      (if t.fill then [.memoryFillReturn (128 * l)] else []) ++ (t.owner.map (fun k => Instr.forward k (128 * l))).toList ++
      (sharerList t.acks).map (fun k => Instr.invalidationAcknowledgement k (128 * l)))

/-- A migration and the bias flips under way end (R487, R494). -/
def State.dueMoves (s : State) : List Instr :=
  (if s.pkg.migration.isSome then [.migrationComplete] else []) ++
  (((upto 0 4).filter (fun d => (s.die d).bias.busy)).map Instr.biasFlipComplete)

/-! ## The engines of a core -/

/-- The event that executes a tile operation. -/
def TileOp.event (o : TileOp) (core wg : Nat) : Instr :=
  match o.work with
  | .mma _ _ _ _ _ => .mmaExecute core wg o.id
  | .azero => .azeroExecute core wg o.id
  | .smxu _ _ _ _ => .smxuExecute core wg o.id

/-- The tile operation of a workgroup that executes next (R212). (DESIGN CHOICE, log entry 29.) -/
def Workgroup.nextOp (w : Workgroup) : Option TileOp := w.ops.find? (fun o => match w.opReady o with
  | .wait => false
  | _ => true)

/-- The slice's next row and the next tile operation of a workgroup that is not being pre-empted (R212, R255, R263). (DESIGN CHOICE, log entry 29.) -/
def Workgroup.dueEngines (w : Workgroup) (core slot : Nat) : List Instr :=
  if w.preempting then []
  else (if w.canPlace then [.pushtRowPlaced core slot] else []) ++ (w.nextOp.map (fun o => o.event core slot)).toList

/-- The next rows of a workgroup's copies (R263, R301): the copy engine comes last at a bank (R272). -/
def Workgroup.dueCopies (w : Workgroup) (core slot : Nat) : List Instr := w.copies.map (fun c => Instr.copyRow core slot c.id)

/-- A pre-emption goes on, and a slot is returned (R234, R263). -/
def Workgroup.dueEnds (w : Workgroup) (core slot : Nat) : List Instr :=
  if w.ended then [.slotReturn core slot] else if w.preempting then [.preempt core slot] else []

/-! ## Sleeping words -/

/-- SLEEPs that end (R247). -/
def Group.dueSleeps (g : Group) (now core slot n : Nat) : List Instr :=
  g.waits.filterMap (fun w => match w.kind with
    | .sleep till => if till ≤ now then some (.sleepExpiry core slot n w.id) else none
    | _ => none)

/-- Bounds of BARWAIT and NBARWAIT whose last test is in this cycle (R314, R336). -/
def Group.dueBounds (g : Group) (now core slot n : Nat) : List Instr :=
  g.waits.filterMap (fun w => match w.kind with
    | .bar _ _ (some t) => if t ≤ now then some (.barwaitBoundExpiry core slot n w.id) else none
    | .nbar _ _ (some t) => if t ≤ now then some (.nbarwaitBoundExpiry core slot n w.id) else none
    | _ => none)

/-- A sleeping word that tests its condition in each cycle (R215, R256, R304), or that may have been answered or may issue (R28, R142, R260). A
queue word does not: the operation that lets it go on wakes it (R308, R309). -/
def Wait.polls (x : Wait) : Bool :=
  match x.kind with
  | .sync _ _ => true
  | .tile _ _ => true
  | .slice => true
  | .images _ _ _ _ => true
  | .answered _ _ => true
  | .rest => true
  | _ => false

/-- Wake tests of a workgroup, with the numbers of the words. -/
def Workgroup.wakesOf (w : Workgroup) (core slot : Nat) : List (Nat × Item) :=
  (lmapIdx (fun n (g : Group) => (g.waits.filter Wait.polls).map (fun x => (x.id, Item.wake core slot n x.id))) 0 w.groups).flatten

/-- Wake tests in the order in which the words fell asleep. -/
def State.dueWakes (s : State) : List Item :=
  (lsort (fun (a b : Nat × Item) => decide (a.1 < b.1)) (s.residents.flatMap (fun r => r.2.2.wakesOf r.1 r.2.1))).map (·.2)

/-! ## Issue -/

/-- Where a core ranks in its cluster in a cycle (R332). -/
def rankOf (now core : Nat) : Nat := (core % 4 + 4 - now % 4) % 4

/-- The cores of a cluster that may issue, each in its rank (R236, R332). -/
def State.issuers (s : State) (k : Nat) : List Nat :=
  if s.runs then
    lsort (fun (a b : Nat) => decide (rankOf s.cycle a < rankOf s.cycle b)) ((clusterCores k).filter (fun c => !(s.core c).wgs.isEmpty))
  else []

/-! ## Events from outside -/

/-- When an event from outside comes within a cycle (R353, R497, R525): with the memory side, among the host's requests, right after
them, or in a cluster's turn. -/
inductive Turn where
  | memory | host | fabric
  | cluster (k : Nat)
  deriving DecidableEq, Repr

/-- The turn of an event from outside. (DESIGN CHOICE, log entry 4.) -/
def turnOf : Instr → Turn
  | .hostReadShared _ => .host
  | .hostReadOwned _ => .host
  | .hostWriteback _ _ => .host
  | .hostSnoop _ _ => .host
  | .hostMemoryWrite _ _ => .host
  | .peerPostedWrite _ _ => .host
  | .peerRead _ _ => .host
  | .inboundAccess _ => .fabric
  | .remoteAtomic _ => .fabric
  | .gets k _ => .cluster k
  | .getm k _ => .cluster k
  | .put k _ => .cluster k
  | .promotionDemand k _ => .cluster k
  | _ => .memory

/-- An event that a package in recovery takes (R514): a start, SPDM, and what happens to it, wear and heat; no request of the host, of firmware
or of another package. (DEDUCED, log entry 55.) -/
def inRecovery : Instr → Bool
  | .boot _ => true
  | .getVersion => true
  | .getCapabilities => true
  | .negotiateAlgorithms _ _ => true
  | .getDigests => true
  | .getCertificate _ _ _ => true
  | .challenge _ _ => true
  | .getMeasurements _ _ _ => true
  | .spdmUnsupported _ => true
  | .lifetimeCounterUpdate _ _ => true
  | .uncorrectableError _ => true
  | .correctedSoftError _ => true
  | .scrubRead _ _ => true
  | .thermalSensor _ _ _ => true
  | .thermalForecast _ _ => true
  | .thermalTrip _ => true
  | _ => false

/-- The events from outside whose turn it is, in arrival order; in recovery few are answered (R514). -/
def State.arrived (s : State) (t : Turn) : List Instr :=
  s.inbox.filter (fun i => decide (turnOf i = t) && (decide (s.pkg.boot ≠ .recovery) || inRecovery i))

/-! ## The cycle -/

/-- What a cluster does in its turn (R332, R353): requests from outside, its atomic unit, its cores. -/
def State.dueCluster (s : State) (k : Nat) : List Item :=
  ((s.arrived (.cluster k)) ++ s.dueAtomics k).map Item.event ++ (s.issuers k).flatMap (fun c => [.probe c, .event (.issueOpportunity c)])

/-- Clusters that have a turn: those of the package, and what an event from outside names beyond it. -/
def State.turnClusters (s : State) : List Nat :=
  upto 0 96 ++ (s.inbox.filterMap (fun i => match turnOf i with
    | .cluster k => if k < 96 then none else some k
    | _ => none)).eraseDups

/-- All that falls due in the present cycle, in order: power, results and answers; memory-side events; host requests; inbound ones of the
fabric; the die's units; words that wake; the clusters; the slices' rows, tile operations and copies; ends and bounds. -/
def State.due (s : State) : List Item :=
  let wg := fun (f : Workgroup → Nat → Nat → List Instr) => s.residents.flatMap (fun r => f r.2.2 r.1 r.2.1)
  let grp := fun (f : Group → Nat → Nat → Nat → List Instr) =>
    wg (fun w core slot => (lmapIdx (fun n (g : Group) => f g core slot n) 0 w.groups).flatten)
  let dies := upto 0 4
  ((s.duePower ++ s.dueResults ++ dies.flatMap s.dueRouters ++ s.dueOutside ++ s.arrived .memory ++ s.dueCoherence ++ s.dueMoves ++
    s.arrived .host ++ s.arrived .fabric ++
    dies.flatMap s.dueFront ++ dies.flatMap s.dueRaster ++ dies.flatMap s.dueChurn ++ dies.flatMap s.dueAdmit ++
    grp (fun g => g.dueSleeps s.cycle)).map Item.event) ++
  s.dueWakes ++ s.turnClusters.flatMap s.dueCluster ++
  ((wg Workgroup.dueEngines ++ wg Workgroup.dueCopies ++ dies.flatMap s.dueEnds ++ wg Workgroup.dueEnds ++
    grp (fun g => g.dueBounds s.cycle)).map Item.event)

/-- The next cycle begins: the events from outside take their turns in it. -/
def State.tick (s : State) : State :=
  let s := State.latchDuties { s with cycle := s.cycle + 1 }
  { s with agenda := s.due, inbox := [] }

end Sys2Proof.Machine
end

