-- ==== Sys2Proof/Machine/Step.lean ====
section
/-!
DEFINITION. One step of the machine, and the state in which the next step runs a given word. Both only call operations.
-/
namespace Sys2Proof.Machine

/-- One item of the present cycle's work. (DESIGN CHOICE, log entry 4.) -/
noncomputable def stepItem (it : Item) (s : State) : Host.Outcome State Fault Refusal :=
  match it with
  | .word => runWord s
  | .chain iss => .next (beginChain iss s)
  | .chainEnd => .next (endChain s)
  | .wake c w g id => .next (s.wake c w g id)
  | .probe c => .next (s.probe c)
  | .event i => exec i s

/-- One step: the next item of the present cycle's work; with none left, the next cycle, in which the events from outside take their turns.
(DESIGN CHOICE, log entry 4.) -/
noncomputable def step (s : State) : Host.Outcome State Fault Refusal :=
  match s.agenda with
  | it :: t => stepItem it { s with agenda := t }
  | [] => .next s.tick

/-- The state with the word w stored where the next step fetches (log entry 10). -/
def State.withFetchWord (s : State) (_nbits w : Nat) : State := s.placeWord w

end Sys2Proof.Machine
end

