-- ==== Sys2Proof/Safety.lean ====
section
/-!
DEFINITION. The terms that statements about this machine use: when a word meets none of the checks that stop it at issue, when its
destinations are admitted, and the states in which it has completed, has trapped, or waits.
-/
namespace Sys2Proof.Safety

open Sys2Proof.Machine

/-! ## A word of a group -/

/-- Group context c issues instruction i, and no check that every word meets stops it: the privilege of its workgroup (R41), an
outstanding result that it needs (R31), a free held back for its destination (R66), an outstanding acquire (R526), a fixed-latency
result that it reads early (R32), the deferred fault of a load (R287); and some lane of the path is active (R64). -/
structure Ready (i : Instr) (c : Ctx) (s : State) : Prop where
  ofGroup : s.isSlice = false
  issuer : s.ctx (s.uses i).guard = some c
  allowed : (s.uses i).priv = true → c.wg.priv = true
  results : c.busy (s.uses i) = false
  frees : c.freeHeld (s.uses i) = false
  acquires : (s.uses i).cls = .m ∨ (s.uses i).cls = .x → s.acqHeld c = false
  early : c.earlyGuard (s.uses i) s.cycle = [] ∧ c.earlyReads (s.uses i) s.cycle = []
  loads : c.failedRead (s.uses i) = none
  active : c.act ≠ []

/-- The destinations of a word with results o are admitted: no reshape by a part of the group (R63), no more granules than the quota
(R69), and no allocation while a free of the word's own is held back (R66). -/
structure Fits (i : Instr) (c : Ctx) (o : Out) (s : State) : Prop where
  shape : c.badReshape o.vs = false
  quota : c.overQuota (s.uses i) o = false
  freed : c.freesLater (s.uses i) = [] ∨ c.newRegs (s.uses i) o = []

/-- The state in which a word has completed with results o and the further effect f, from the state t that its address checks left. -/
def completed (i : Instr) (c : Ctx) (o : Out) (t : State) (f : State → State) (s : State) : State :=
  c.finish (s.uses i) s (.done (f (c.apply (s.uses i) (s.uses i).cls o t)))

/-- The word ANSWERS A NEXT STATE: it completes, with results o and the further effect f. -/
def Completes (i : Instr) (c : Ctx) (o : Out) (t : State) (f : State → State) (s : State) : Prop :=
  exec i s = .next (completed i c o t f s)

/-- The word completes with no register written and nothing freed, in the state t. -/
def Does (i : Instr) (c : Ctx) (t s : State) : Prop := exec i s = .next (c.finish (s.uses i) s (.done t))

/-- The word traps with a user cause (R260), with no other effect but what its address checks left in t. -/
def TrapsIn (i : Instr) (c : Ctx) (x : Trap) (t s : State) : Prop := exec i s = .next (c.finish (s.uses i) s (.trap x false t))

/-- The word traps with a user cause (R260), with no other effect. -/
def Traps (i : Instr) (c : Ctx) (x : Trap) (s : State) : Prop := TrapsIn i c x s s

/-- The word waits at issue (R167), with no other effect but what its address checks left in t. -/
def HoldsIn (i : Instr) (c : Ctx) (t s : State) : Prop := exec i s = .next (c.finish (s.uses i) s (.hold t))

/-- The word waits at issue (R167), with no other effect. -/
def Holds (i : Instr) (c : Ctx) (s : State) : Prop := HoldsIn i c s s

/-- The word falls asleep (R166) with the wait x, in the state t. -/
def Sleeps (i : Instr) (c : Ctx) (t : State) (x : Wait) (s : State) : Prop := exec i s = .next (c.finish (s.uses i) s (.sleep t x))

/-- A fault of the active lanes with address 0 (R71, R260). -/
def faultOf (c : Ctx) (cause : Cause) : Trap := ⟨cause, c.mask, 0⟩

/-- What a word with results o does at its destinations, before `then_`: SHAPE where a part of the group would reshape one (R63); with more
granules than the quota, it waits while a free of the group is held back, else QUOTA (R69); a word that allocates waits for a held-back free of
its own (R66). -/
def Admits (i : Instr) (c : Ctx) (o : Out) (t s : State) (then_ : Prop) : Prop :=
  (c.badReshape o.vs = true → TrapsIn i c (faultOf c .shape) t s) ∧
  (c.badReshape o.vs = false → c.overQuota (s.uses i) o = true → c.grp.frees ≠ [] ∨ c.freesLater (s.uses i) ≠ [] → HoldsIn i c t s) ∧
  (c.badReshape o.vs = false → c.overQuota (s.uses i) o = true → c.grp.frees = [] → c.freesLater (s.uses i) = [] →
    TrapsIn i c (faultOf c .quota) t s) ∧
  (c.badReshape o.vs = false → c.overQuota (s.uses i) o = false → c.freesLater (s.uses i) ≠ [] → c.newRegs (s.uses i) o ≠ [] →
    HoldsIn i c t s) ∧
  (Fits i c o s → then_)

/-- What a word with results o does: the checks of its destinations, then the fault of its own, if it has one (R71, R141); else it completes,
with the further effect f. -/
def DeliversFrom (i : Instr) (c : Ctx) (o : Out) (t : State) (f : State → State) (s : State) : Prop :=
  Admits i c o t s ((∀ x, o.err = some x → TrapsIn i c x t s) ∧ (o.err = none → Completes i c o t f s))

/-- The same of a word that checks no address. -/
def Delivers (i : Instr) (c : Ctx) (o : Out) (f : State → State) (s : State) : Prop := DeliversFrom i c o s f s

/-- A lane's element of a register as a point of W bits (R58). -/
def point (g : Group) (w r l : Nat) : BitVec w := (g.read r l).setWidth w

/-- One value for each active lane. -/
def lanes (c : Ctx) (v : Nat → Elem) : List (Nat × Elem) := c.act.map (fun l => (l, v l))

/-- One predicate for each active lane. -/
def preds (c : Ctx) (v : Nat → Tri) : List (Nat × Tri) := c.act.map (fun l => (l, v l))

/-- Registers r of a word are all points of width W (R95). -/
abbrev Points (c : Ctx) (regs : List Nat) (w : Nat) : Prop := (w = 32 ∨ w = 64) ∧ ∀ r ∈ regs, c.src.shape r = pointShape w

/-! ## A word of an access slice -/

/-- Access slice x issues instruction i, which names no register above 15 and carries C = 0 (R252), and its guard passes. -/
structure SliceReady (i : Instr) (x : Slice) (s : State) : Prop where
  ofSlice : s.isSlice = true
  issuer : ∃ w, s.curWg = some w ∧ w.slice = x
  alone : (s.uses i).chain = 0
  low : ∀ n, .v n ∈ (s.uses i).reads ++ (s.uses i).writes → n < 16
  guard : x.guard (s.uses i).guard = true

/-- The slice's word completes, changing the slice by f. -/
def SliceDoes (i : Instr) (f : Slice → Slice) (s : State) : Prop :=
  exec i s = .next (s.finishSlice (.done (s.modCurSlice f)))

/-- The slice's word completes in the state t. -/
def SliceDone (i : Instr) (t s : State) : Prop := exec i s = .next (s.finishSlice (.done t))

/-- The slice's word waits at issue (R167), with no effect. -/
def SliceHolds (i : Instr) (s : State) : Prop := exec i s = .next (s.finishSlice (.hold s))

/-- The slice's word falls asleep (R166, R252) with the wait w, in the state t. -/
def SliceSleeps (i : Instr) (t : State) (w : Wait) (s : State) : Prop := exec i s = .next (s.finishSlice (.sleep t w))

/-- The slice's word faults (R257): the slice stops at it, and cause and address are recorded. -/
def SliceFaults (i : Instr) (cause : Cause) (addr : Option W64) (s : State) : Prop := exec i s = .next (s.finishSlice (.fault cause addr))

/-! ## Integer words -/

/-- An integer word of source registers `regs` (R95, R96, R252): lane by lane the function op of the sources, on W-bit values; SHAPE where
the sources are no points of one width; in a slice, the same function of the 64-bit x registers. -/
def IntegerWord (i : Instr) (regs : List Nat) (d a b : Nat) (op : (w : Nat) → BitVec w → BitVec w → BitVec w → BitVec w) : Prop :=
  ∀ s : State,
    (∀ c w, Ready i c s → Points c regs w →
      Delivers i c (Out.v d (pointShape w)
        (lanes c (fun l => (op w (point c.src w a l) (point c.src w b l) (point c.src w d l)).setWidth 128))) id s) ∧
    (∀ c, Ready i c s → (¬ ∃ w, Points c regs w) → Traps i c (faultOf c .shape) s) ∧
    (∀ x, SliceReady i x s → SliceDoes i (fun y => y.setReg d (op 64 (x.reg a) (x.reg b) (x.reg d))) s)

/-- An integer compare (R95, R108, R252): T where the relation holds of the W-bit sources, F elsewhere. -/
def IntegerCompare (i : Instr) (q a b : Nat) (rel : (w : Nat) → BitVec w → BitVec w → Prop) [∀ w x y, Decidable (rel w x y)] : Prop :=
  ∀ s : State,
    (∀ c w, Ready i c s → Points c [a, b] w →
      Delivers i c (Out.q q (preds c (fun l => if rel w (point c.src w a l) (point c.src w b l) then Tri.t else Tri.f))) id s) ∧
    (∀ c, Ready i c s → (¬ ∃ w, Points c [a, b] w) → Traps i c (faultOf c .shape) s) ∧
    (∀ x, SliceReady i x s → SliceDoes i (fun y => y.setPred q (if rel 64 (x.reg a) (x.reg b) then Tri.t else Tri.f)) s)

/-! ## Floating-point and interval words -/

/-- Registers r of a word are all of width W (R95, R63). -/
abbrev Widths (c : Ctx) (regs : List Nat) (w : Nat) : Prop := ∀ r ∈ regs, (c.src.shape r).width = w

/-- A word of floating-point sources `regs` (R95, R113, R117, R144): on points of one width W, `pt` gives a lane's element and generator;
where a source is an interval, `iv` gives a lane's interval, or the cause that the lane raises; SHAPE on sources of two widths. -/
def FloatWord (i : Instr) (regs : List Nat) (d : Nat) (pt : Nat → Ctx → Nat → Elem × W64)
    (iv : Nat → Ctx → Nat → Except Cause Elem) : Prop :=
  ∀ (s : State) (c : Ctx), Ready i c s →
    (∀ w, Points c regs w → Delivers i c (laneOut d (pointShape w) (c.act.map (fun l => ⟨l, .ok (pt w c l)⟩))) id s) ∧
    (∀ w, Widths c regs w → (∃ r ∈ regs, (c.src.shape r).isIv = true) →
      Delivers i c (laneOut d (ivShape w) (c.act.map (fun l => ⟨l, c.keepGen l (iv w c l)⟩))) id s) ∧
    ((¬ ∃ w, Widths c regs w) → Traps i c (faultOf c .shape) s)

/-- A rounded result of a lane: the exact value x rounded to the format of W under mode m, with the lane's generator after it (R89, R94). -/
def rounded (w m : Nat) (c : Ctx) (l : Nat) (x : XV) : Elem × W64 :=
  let r := rndGen (fmtOf w) m (c.gen l) x
  (elemN r.1, r.2)

/-- A point source of a lane as the value that it encodes (R76). -/
def value (c : Ctx) (w r l : Nat) : FV := decodeF (fmtOf w) (c.src.readN r l)

/-- A floating-point compare (R116, R155): `pt` on points, `iv` where a source is an interval, SHAPE on two widths. -/
def FloatCompare (i : Instr) (q a b : Nat) (pt : FV → FV → Tri) (iv : Iv → Iv → Tri) : Prop :=
  ∀ (s : State) (c : Ctx), Ready i c s →
    (∀ w, Points c [a, b] w → Delivers i c (Out.q q (preds c (fun l => pt (value c w a l) (value c w b l)))) id s) ∧
    (∀ w, Widths c [a, b] w → ((c.src.shape a).isIv = true ∨ (c.src.shape b).isIv = true) →
      Delivers i c (triOut q (c.act.map (fun l => (l, c.triIv w a b l iv)))) id s) ∧
    ((c.src.shape a).width ≠ (c.src.shape b).width → Traps i c (faultOf c .shape) s)

/-- A point compare with a relation on the sign of x − y: U where a source is NaN (R116). -/
def unlessNan (rel : Int → Bool) (x y : FV) : Tri := if x.isNan || y.isNan then .u else if rel (cmpFV x y) then .t else .f

/-- An interval word (R140, R151): every source promoted and checked; SHAPE on sources of two widths. -/
def IntervalWord (i : Instr) (regs : List Nat) (d : Nat) (k : Nat → Shape) (op : Fmt → List Iv → Except Cause Elem) : Prop :=
  ∀ (s : State) (c : Ctx), Ready i c s →
    (∀ w, Widths c regs w →
      Delivers i c (laneOut d (k w) (c.act.map (fun l => ⟨l, c.keepGen l (c.onIv w regs l (op (fmtOf w)))⟩))) id s) ∧
    ((¬ ∃ w, Widths c regs w) → Traps i c (faultOf c .shape) s)

/-- A certain comparison (R156, R157): T or F of two intervals, points promoted; SHAPE on two widths. -/
def CertainCompare (i : Instr) (q a b : Nat) (rel : Iv → Iv → Bool) : Prop :=
  ∀ (s : State) (c : Ctx), Ready i c s →
    (∀ w, Widths c [a, b] w →
      Delivers i c (triOut q (c.act.map (fun l => (l, c.triIv w a b l (fun x y => if rel x y then .t else .f))))) id s) ∧
    ((c.src.shape a).width ≠ (c.src.shape b).width → Traps i c (faultOf c .shape) s)

/-! ## Conversions -/

/-- The rounding mode of a CVT or FUNARY word: the dynamic mode for FN = 000 (R86, R87). -/
def modeOf (c : Ctx) (r : Nat) : Nat := if r = 0 then c.src.ctrl.round.toNat else r

/-- A single-register conversion (R123, R124): from a source of one shape to a destination of one shape, `op` giving a lane's bits and
generator from the mode, the generator and the source bits; SHAPE on another source. -/
def Converts (i : Instr) (f : RRnd) (src dst : Shape) (op : Nat → W64 → Nat → Nat × W64) : Prop :=
  ∀ (s : State) (c : Ctx), Ready i c s →
    let r := fun l => op (modeOf c f.r) (c.gen l) (c.src.readN f.a l)
    (c.src.shape f.a = src → Delivers i c
      { Out.v f.d dst (lanes c (fun l => elemN (r l).1)) with gens := c.act.map (fun l => (l, (r l).2)) } id s) ∧
    (c.src.shape f.a ≠ src → Traps i c (faultOf c .shape) s)

/-- A packing conversion of n source registers into fields of `bits` bits (R126, R127, R133, R134): where it writes side bytes, `side` gives
that of each granule with an active lane from the source words of those lanes, and `op` an element's code under it. -/
def Packs (i : Instr) (f : RRnd) (n bits : Nat) (side : Option (Ctx → List Nat → Nat))
    (op : Ctx → Nat → Nat → W64 → Nat → Nat × W64) : Prop :=
  ∀ (s : State) (c : Ctx), Ready i c s →
    let ofGranule := fun g => (c.act.filter (fun l => decide (l / 8 = g))).flatMap (c.packed f.a n)
    let sides := match side with
      | none => []
      | some h => c.actGranules.map (fun g => (g, h c (ofGranule g)))
    let r := fun l => threadGen (op c (modeOf c f.r) (((sides.find? (fun x => decide (x.1 = l / 8))).map (·.2)).getD 0)) (c.gen l)
      (c.packed f.a n l)
    ((∀ q ∈ regRun f.a n, c.src.shape q = .p32) → Delivers i c
      { Out.v f.d .p32 (lanes c (fun l => elemN (joinBits bits (r l).1))) with
        gens := c.act.map (fun l => (l, (r l).2)), sides := [(f.d, sides.map (fun x => (x.1, BitVec.ofNat 8 x.2)))] } id s) ∧
    (¬ (∀ q ∈ regRun f.a n, c.src.shape q = .p32) → Traps i c (faultOf c .shape) s)

/-- An unpacking conversion into n destination registers, from fields of `bits` bits and the granule's side byte (R126, R127, R134). -/
def Unpacks (i : Instr) (f : RRnd) (n bits : Nat) (op : Ctx → Nat → Nat → W64 → Nat → Nat × W64) : Prop :=
  ∀ (s : State) (c : Ctx), Ready i c s →
    let r := fun l => threadGen (op c (modeOf c f.r) ((c.src.vreg f.a).side.getD (l / 8) 0).toNat) (c.gen l)
      ((upto 0 n).map (fun k => fieldBits bits k (c.src.readN f.a l)))
    (c.src.shape f.a = .p32 → Delivers i c
      { Out.none with
        vs := lmapIdx (fun k d => ⟨d, .p32, lanes c (fun l => elemN ((r l).1.getD k 0))⟩) 0 (regRun f.d n),
        gens := c.act.map (fun l => (l, (r l).2)) } id s) ∧
    (c.src.shape f.a ≠ .p32 → Traps i c (faultOf c .shape) s)

/-! ## Words between lanes -/

/-- A GROUP or QUAD word that writes d at shape k with one value for each active lane. -/
def LaneWord (i : Instr) (d : Nat) (k : Ctx → Shape) (v : Ctx → Nat → Elem) : Prop :=
  ∀ (s : State) (c : Ctx), Ready i c s → Delivers i c (Out.v d (k c) (lanes c (v c))) id s

/-- A shuffle (R185, R186): lane l takes a from the lane that `from_` names, when that lane is active, else its own; SHAPE unless the index
register is P32. -/
def Shuffles (i : Instr) (f : R3) (from_ : Nat → Nat → Option Nat) : Prop :=
  ∀ (s : State) (c : Ctx), Ready i c s →
    (c.src.shape f.b = .p32 → Delivers i c (Out.v f.d (c.src.shape f.a) (lanes c (fun l =>
      c.src.read f.a (((from_ l (c.src.readN f.b l)).filter (fun k => c.act.contains k)).getD l)))) id s) ∧
    (c.src.shape f.b ≠ .p32 → Traps i c (faultOf c .shape) s)

/-- A reduction (R188, R189): every active lane takes the root of the tree over the lane positions, `op` combining two elements under the
generator of the lowest active lane beneath; `bad` is the fault of lanes whose intervals are not valid; SHAPE on a source the operation
does not take. -/
def Reduces (i : Instr) (f : R1) (takes : Shape → Bool) (op : Ctx → Elem → Elem → W64 → Elem × W64) (bad : Ctx → Option Trap) : Prop :=
  ∀ (s : State) (c : Ctx), Ready i c s →
    let leaves : List Node := (upto 0 c.grp.width).map (fun l => if c.act.contains l then some (l, c.src.read f.a l) else none)
    let r := redTree (op c) 6 (c.act.map (fun l => (l, c.gen l))) leaves
    (takes (c.src.shape f.a) = true → Delivers i c
      { Out.v f.d (c.src.shape f.a) (c.all (match r.1 with
          | some x :: _ => x.2
          | _ => 0)) with gens := r.2, err := bad c } id s) ∧
    (takes (c.src.shape f.a) = false → Traps i c (faultOf c .shape) s)

/-- A derivative (R191, R193): the value at quad position `hi` less that at `lo`, for the lane's own position. -/
def Derives (i : Instr) (f : R1) (hi lo : Nat → Nat) : Prop :=
  ∀ (s : State) (c : Ctx), Ready i c s →
    let w := (c.src.shape f.a).width
    let h := fun l => l / 4 * 4 + hi (l % 4)
    let k := fun l => l / 4 * 4 + lo (l % 4)
    (c.src.shape f.a = pointShape w → Delivers i c (laneOut f.d (c.src.shape f.a) (c.act.map (fun l => ⟨l, .ok (
      if h l ∈ c.act ∧ k l ∈ c.act then
        rounded w c.src.ctrl.round.toNat c l (addFV c.src.ctrl.round.toNat (value c w f.a (h l)) (negFV (value c w f.a (k l))))
      else (elemN (qnan (fmtOf w)), c.gen l))⟩))) id s) ∧
    (c.src.shape f.a = ivShape w → Delivers i c (laneOut f.d (c.src.shape f.a) (c.act.map (fun l => ⟨l, c.keepGen l (
      if h l ∈ c.act ∧ k l ∈ c.act then
        match c.iv w f.a (h l), c.iv w f.a (k l) with
        | .ok x, .ok y => .ok (outwardX (fmtOf w) (addFV 1 x.lo (negFV y.hi)) (addFV 1 x.hi (negFV y.lo)))
        | x, y => .error (worseCause [x, y])
      else .ok (ivElem w (infOf (fmtOf w) true) (infOf (fmtOf w) false)))⟩))) id s)

/-! ## Control flow -/

/-- The word address of the packet at a signed packet offset of n bits from the packet of a word (R37, R175, R177). -/
def packetAt (pc n off : Nat) : Nat := ((3 * (((pc / 3 : Nat) : Int) + (BitVec.ofNat n off).toInt)) % (2 ^ 62 : Int)).toNat

/-- The byte address of the packet after a word's (R177). -/
def nextPacket (pc : Nat) : W64 := BitVec.ofNat 64 (12 * (pc / 3 + 1))

/-- RET and JMPR (R177): each lane goes to the address in a, with a link in d when `link`; MISALIGNED where an address is no multiple of 12,
at the lowest such lane; SHAPE unless a is P64; the same of a slice (R252). -/
def Jumps (i : Instr) (a : Nat) (link : Option Nat) : Prop :=
  ∀ s : State,
    (∀ c, Ready i c s → c.src.shape a = .p64 →
      let bad := c.act.filter (fun l => decide ((c.src.read a l).toNat % 12 ≠ 0))
      let o := match link with
        | none => Out.none
        | some d => Out.v d .p64 (lanes c (fun _ => (nextPacket c.pc).setWidth 128))
      Delivers i c
        { o with err := if bad = [] then none else some ⟨.misaligned, listMask bad, (c.src.read a (bad.headD 0)).setWidth 64⟩ }
        (fun t => t.goTo (c.act.map (fun l => (l, (c.src.read a l).toNat / 4)))) s) ∧
    (∀ c, Ready i c s → c.src.shape a ≠ .p64 → Traps i c (faultOf c .shape) s) ∧
    (∀ x, SliceReady i x s → (x.reg a).toNat % 12 = 0 →
      let t := match link with
        | none => s
        | some d => s.modCurSlice (fun y => y.setReg d (nextPacket x.pc))
      SliceDone i (t.sliceGoTo ((x.reg a).toNat / 4)) s) ∧
    (∀ x, SliceReady i x s → (x.reg a).toNat % 12 ≠ 0 → SliceFaults i .misaligned (some (x.reg a)) s)

/-! ## Memory words -/

/-- Where the active lanes of a list go, each at its own address, after the checks at acceptance (R268, R270, R280): every one at a place,
and the state with the translations that this fetched. -/
def Accepted (s : State) (c : Ctx) (k : Acc) (ls : List Nat) (addr : Nat → W64) (at_ : Nat → Place) (t : State) : Prop :=
  s.places c.core c.wg k (ls.map (fun l => (l, addr l))) = (ls.map (fun l => (l, .ok (at_ l))), t)

/-- The checks refuse: the cause, the lanes and the address of R317, over the lanes that no rule exempts. -/
def Refused (s : State) (c : Ctx) (k : Acc) (ls : List Nat) (addr : Nat → W64) (x : Trap) (t : State) : Prop :=
  ∃ rs, s.places c.core c.wg k (ls.map (fun l => (l, addr l))) = (rs, t) ∧ accTrap rs addr = some x

/-- A place that this package answers at once: no party outside, and no slot of a Churn that passes a memory tap (R288). -/
abbrev Here (t : State) (p : Place) : Prop := t.outsidePlace p = false ∧ t.tapPlace p = false

/-- A place of this package whose data can be returned (R368, R435). -/
abbrev Readable (t : State) (p : Place) : Prop := Here t p ∧ t.badPlace p = false

/-- The state after a number has been taken. -/
def numbered (s : State) : State := { s with nextId := s.nextId + 1 }

/-- A load of size code z at address `addr` (R277, R280, R281, R286, R287): the destination's checks, then the data. -/
def Loads (i : Instr) (k : Acc) (d a z h : Nat) (acq : Bool) (addr : Ctx → Nat → W64) : Prop :=
  ∀ (s : State) (c : Ctx), Ready i c s →
    (c.src.shape a ≠ .p64 → Traps i c (faultOf c .shape) s) ∧
    -- a lane fails its checks, and is no helper to which zeros go
    (c.src.shape a = .p64 → ∀ rs t, s.places c.core c.wg k (c.act.map (fun l => (l, addr c l))) = (rs, t) →
      ∀ x, accTrap (rs.filter (fun r => !c.helperZero r)) (addr c) = some x → Fits i c (Out.v d (szShape z) []) s → TrapsIn i c x t s) ∧
    -- the slice of a line has stopped
    (c.src.shape a = .p64 → ∀ at_ t, Accepted s c k c.act (addr c) at_ t → t.stalls (c.act.map (fun l => (l, .ok (at_ l)))) = true →
      Holds i c s) ∧
    (c.src.shape a = .p64 → ∀ at_ t, Accepted s c k c.act (addr c) at_ t → t.stalls (c.act.map (fun l => (l, .ok (at_ l)))) = false →
      let u := t.l1Reads c.core c.wg.asid h c.src.ctrl.hint.toNat (t.herePieces (c.act.map at_))
      Admits i c (Out.v d (szShape z) []) t s (
        -- data of this package: the little-endian bytes, extended; an image that is no interval faults before any lane is written
        ((∀ l ∈ c.act, Readable u (at_ l)) →
          let vals := lanes c (fun l => loadElem z (u.readPlace c.wg c.who.grp l (szBytes z) (at_ l)))
          (∀ x, imageTrap z vals (addr c) = some x → TrapsIn i c x u s) ∧
          (imageTrap z vals (addr c) = none → Completes i c (Out.v d (szShape z) vals) u id s)) ∧
        -- data that cannot be returned: the fault is deferred to the next read of the destination
        ((∀ l ∈ c.act, Here u (at_ l) ∧ u.badPlace (at_ l) = true) →
          Completes i c (Out.v d (szShape z) []) (numbered u)
            (fun x => x.modCur (fun g => g.fail (.v d) u.nextId (c.act.map (fun l => (l, addr c l))))) s) ∧
        -- a party outside the package, or a slot of a Churn: one request for each address, whose answer completes the write
        (∀ q : Nat → Piece, z < 6 → (∀ l ∈ c.act, at_ l = .global [q l] ∧ ¬ Here u (at_ l)) →
          Completes i c (Out.v d (szShape z) []) (numbered u)
            (fun x => (combineLanes (c.act.map (fun l => (l, q l)))).foldl
              (fun x y => x.sendLoad c.who u.nextId d (loadWork d z) acq (addr c (y.1.headD 0)) y.1 y.2) x) s) ∧
        -- images there: the word sleeps until all have come (R142)
        (∀ (q : Nat → Piece) (ps : Nat → List Piece), 6 ≤ z → (∀ l ∈ c.act, at_ l = .global (q l :: ps l) ∧ ¬ Here u (at_ l)) →
          let all := c.act.map (fun l => (l, Except.ok (at_ l)))
          Sleeps i c ((combineLanes (c.act.map (fun l => (l, q l)))).foldl (fun x y =>
              x.sendImage c u.nextId acq (addr c (y.1.headD 0)) y.1 (lanePieces all (y.1.headD 0))) (numbered u))
            { id := u.nextId, mask := c.mask, pc := c.pc, kind := .images z [] [] (c.act.map (fun l => (l, addr c l))), dv := some d,
              dshape := szShape z, dq := none, rest := none } s)))

/-- A store of size code z (R277, R280, R282, R286): lane by lane, ascending, helpers storing nothing; a release store at .sys waits for what
its lanes have outstanding outside (R389, R526). -/
def Stores (i : Instr) (f : MMem) (rel : Bool) (addr : Ctx → Nat → W64) : Prop :=
  ∀ (s : State) (c : Ctx), Ready i c s →
    let n := szBytes f.z
    let k := Acc.plain .write (szAlign f.z) n (decide (f.z < 6)) f.h
    let shaped := c.src.shape f.a = .p64 ∧ c.src.shape f.d = szShape f.z
    let held := rel = true ∧ f.s = 5 ∧ s.sysHeld c = true
    (c.doers = [] → Delivers i c Out.none id s) ∧
    (c.doers ≠ [] → ¬ shaped → Traps i c (faultOf c .shape) s) ∧
    (c.doers ≠ [] → shaped → held → Holds i c s) ∧
    (c.doers ≠ [] → shaped → ¬ held → ∀ x t, Refused s c k c.doers (addr c) x t → TrapsIn i c x t s) ∧
    (c.doers ≠ [] → shaped → ¬ held → ∀ at_ t, Accepted s c k c.doers (addr c) at_ t →
      (t.stalls (c.doers.map (fun l => (l, .ok (at_ l)))) = true → Holds i c s) ∧
      (t.stalls (c.doers.map (fun l => (l, .ok (at_ l)))) = false →
        DeliversFrom i c Out.none t (fun x => c.doers.foldl (fun x l =>
          x.storePlace c.who c.wg.asid l f.h (addr c l) (leBytes n (c.src.readN f.d l)) (at_ l)) x) s))

/-- a + sext(off5) × scale (R280). -/
def addrOf (a o scale : Nat) (c : Ctx) (l : Nat) : W64 :=
  (c.src.read a l).setWidth 64 + BitVec.ofInt 64 ((BitVec.ofNat 5 o).toInt * scale)

/-- A LINE word (R285): what it does to each line of global memory of this package, to a private line and to scratch; the access is the whole
line for LINE.ZERO (`zero`), which a boarded word refuses (R288). -/
def LineWord (i : Instr) (zero : Bool) (a o : Nat) (onGlobal : Ctx → State → Piece → State) (onPriv : Ctx → State → Nat → Nat → State)
    (onScratch : Ctx → State → Nat → State) : Prop :=
  ∀ (s : State) (c : Ctx), Ready i c s →
    let addr := addrOf a o 128 c
    let k := { Acc.plain .write 1 (if zero then 128 else 1) false 2 with boardOk := !zero }
    let at_line := fun l => if zero then BitVec.ofNat 64 ((addr l).toNat / 128 * 128) else addr l
    (c.doers = [] → Delivers i c Out.none id s) ∧
    (c.doers ≠ [] → c.src.shape a ≠ .p64 → Traps i c (faultOf c .shape) s) ∧
    (c.doers ≠ [] → c.src.shape a = .p64 → ∀ rs t x, s.places c.core c.wg k (c.doers.map (fun l => (l, at_line l))) = (rs, t) →
      accTrap rs addr = some x → TrapsIn i c x t s) ∧
    (c.doers ≠ [] → c.src.shape a = .p64 → ∀ at_ t, Accepted s c k c.doers at_line at_ t →
      (t.stalls (c.doers.map (fun l => (l, .ok (at_ l)))) = true → Holds i c s) ∧
      (t.stalls (c.doers.map (fun l => (l, .ok (at_ l)))) = false →
        DeliversFrom i c Out.none t (fun x => c.doers.foldl (fun x l => match at_ l with
          | .scratch p => onScratch c x p
          | .priv p => onPriv c x l p
          | .global ps => ps.foldl (fun x p => if x.outsidePlace (.global [p]) then x else onGlobal c x p) x) x) s))

/-! ## Atomics -/

/-- The lanes of an atomic at places of the scratchpad and of private windows, in order (R290, R291): a lane's old value is what the bytes hold
when its turn comes, and its new value is that of R290's table. -/
def performed (c : Ctx) (f : AAtom) (aop w : Nat) (at_ : Nat → Place) : List Nat → State → List (Nat × Nat) × State
  | [], x => ([], x)
  | l :: ls, x =>
    let old := leNat (x.readPlace (x.curWg.getD c.wg) c.who.grp l (w / 8) (at_ l))
    let r := performed c f aop w at_ ls (x.writePlace c.who.core c.who.wg c.who.grp l
      (leBytes (w / 8) (atomNew aop w old (c.src.readN f.b l) (c.src.readN f.d l))) (at_ l))
    ((l, old) :: r.1, r.2)

/-- An ATOM word of operation `aop` (R289 to R292): the lanes that are no helpers are performed in ascending order, each in one go, and the old
values are written to d when R = 1, zeros in helper lanes (R286); SHAPE on operands of another shape; a .sys release waits for what its lanes
have outstanding outside (R389). -/
def AtomWord (i : Instr) (aop : Nat) (f : AAtom) : Prop :=
  ∀ (s : State) (c : Ctx), Ready i c s →
    let w := if f.w = 1 then 64 else 32
    let sh := pointShape w
    let good := c.src.shape f.a = .p64 ∧ c.src.shape f.b = sh ∧ (aop = 9 → c.src.shape f.d = sh)
    let waits := 2 ≤ f.o ∧ f.s = 5 ∧ s.sysHeld c = true
    let addr : Nat → W64 := fun l => (c.src.read f.a l).setWidth 64
    let k := atomAcc aop w f.s
    let zeros : List (Nat × Elem) := (c.act.filter (fun l => !c.doers.contains l)).map (fun l => (l, 0))
    let out := fun (vs : List (Nat × Elem)) => if f.r = 1 then Out.v f.d sh vs else Out.none
    let olds := fun (vs : List (Nat × Nat)) => out (zeros ++ vs.map (fun x => (x.1, elemN x.2)))
    (c.doers = [] → Delivers i c (out zeros) id s) ∧
    (c.doers ≠ [] → ¬ good → Traps i c (faultOf c .shape) s) ∧
    (c.doers ≠ [] → good → waits → Holds i c s) ∧
    (c.doers ≠ [] → good → ¬ waits → ∀ x t, Refused s c k c.doers addr x t → DeliversFrom i c { out [] with err := some x } t id s) ∧
    (c.doers ≠ [] → good → ¬ waits → ∀ at_ t, Accepted s c k c.doers addr at_ t →
      t.stalls (c.doers.map (fun l => (l, .ok (at_ l)))) = true → Holds i c s) ∧
    (c.doers ≠ [] → good → ¬ waits → ∀ at_ t, Accepted s c k c.doers addr at_ t →
      t.stalls (c.doers.map (fun l => (l, .ok (at_ l)))) = false → Admits i c (out []) t s (
        -- in the scratchpad and the private windows
        ((∀ l ∈ c.doers, ∀ ps, at_ l ≠ .global ps) →
          let q := performed c f aop w at_ c.doers t
          Completes i c (olds q.1) (numbered q.2) id s) ∧
        -- one lane at a global address whose line this package performs at once
        (∀ l p, c.doers = [l] → at_ l = .global [p] → Readable t (at_ l) → ¬ (f.s = 2 ∧ t.cacheable p.pa p.attr = true) →
          let q := t.atomCaches c f.s [p]
          let old := leNat (q.readPlace (q.curWg.getD c.wg) c.who.grp l (w / 8) (at_ l))
          Completes i c (olds [(l, old)]) (numbered (q.writePlace c.who.core c.who.wg c.who.grp l
            (leBytes (w / 8) (atomNew aop w old (c.src.readN f.b l) (c.src.readN f.d l))) (at_ l))) id s) ∧
        -- every place: the cluster's unit and the parties outside get their lanes, which answer later (R331, R525)
        (let q := t.atomLanes c f aop w (c.doers.map (fun l => (l, at_ l)))
         Completes i c (olds q.vals) (numbered q.st) (fun x =>
          let y := (x.toUnit c f aop w q.st.nextId addr q.unit).postAtoms c f aop w q.st.nextId (combineLanes q.out)
          if f.r = 1 ∧ q.bad ≠ [] then y.modCur (fun g => g.fail (.v f.d) q.st.nextId (q.bad.map (fun l => (l, addr l)))) else y) s)))

/-! ## Firmware calls -/

/-- FWCALL (R249): P64 argument in the lowest active lane, the reply in every active lane; it waits for the lanes' reads outside; SHAPE on
another argument. -/
def FirmwareCall (i : Instr) (d a : Nat) (reply : Ctx → State → W64 → W64) : Prop :=
  ∀ (s : State) (c : Ctx), Ready i c s →
    (c.src.shape a ≠ .p64 → Traps i c (faultOf c .shape) s) ∧
    (c.src.shape a = .p64 → s.readsOut c = true → Holds i c s) ∧
    (c.src.shape a = .p64 → s.readsOut c = false →
      Delivers i c (Out.v d .p64 (lanes c (fun _ => (reply c s ((c.src.read a c.low).setWidth 64)).setWidth 128))) id s)

/-- TLBINV (R248, R328): the clusters of the partition and the issuer's own are invalidated, once no access that it matches is still under way
outside. -/
def Invalidates (i : Instr) (kind : Nat) (va : Ctx → Nat) (s : State) (c : Ctx) : Prop :=
  let ks := s.partClusters c.wg.part (coreCluster c.core)
  (s.invPending ks kind c.wg.asid (va c) = true → Holds i c s) ∧
  (s.invPending ks kind c.wg.asid (va c) = false →
    Delivers i c Out.none (fun t => ks.foldl (fun t k => t.invalidate k kind c.wg.asid (va c)) t) s)

/-! ## Operands taken once, and words that sleep -/

/-- A 64-bit operand that a word takes once, from its lowest active lane. -/
def low64 (c : Ctx) (r : Nat) : W64 := (c.src.read r c.low).setWidth 64

/-- A 32-bit operand that a word takes once. -/
def low32 (c : Ctx) (r : Nat) : W32 := (c.src.read r c.low).setWidth 32

/-- The word falls asleep, once its destinations o are admitted (R63, R69). -/
def SleepsOn (i : Instr) (c : Ctx) (o : Out) (t : State) (x : Wait) (s : State) : Prop := Fits i c o s → Sleeps i c t x s

/-- A user fault at an address, of the active lanes (R260). -/
def faultFor (c : Ctx) (cause : Cause) (a : W64) : Trap := ⟨cause, c.mask, a⟩

/-- A fault whose rule states no `trapaddr`: that is the next free value, whatever it is (R15, R260). -/
def TrapsOpen (i : Instr) (c : Ctx) (cause : Cause) (s : State) : Prop :=
  ∃ a, TrapsIn i c (faultFor c cause a) { s with freeIdx := s.freeIdx + 1 } s

/-- The word completes with the destination d of shape k taking one value in every active lane, after a further effect f. -/
def Gives (i : Instr) (c : Ctx) (d : Nat) (k : Shape) (v : Elem) (f : State → State) (s : State) : Prop :=
  Delivers i c (Out.v d k (lanes c (fun _ => v))) f s

/-- The word completes with one truth value in every active lane, after a further effect f. -/
def Decides (i : Instr) (c : Ctx) (q : Nat) (x : Tri) (f : State → State) (s : State) : Prop :=
  Delivers i c (Out.q q (preds c (fun _ => x))) f s

/-- The issuing workgroup changed by f. -/
def onWg (f : Workgroup → Workgroup) (t : State) : State := t.modCurWg f

end Sys2Proof.Safety
end

