-- ==== Sys2Proof/Certificates/Slice0/Obligations.lean ====
section
/-!
DEFINITION. The statements for the provers. Each docstring names the rules of spec/ that it formalises.
-/
open Sys2Proof Sys2Proof.Machine Sys2Proof.Safety

/-! ## Integer instructions -/

/-- The eight IARITH instructions compute R103's functions on W-bit values, with the edges of R104: a zero divisor gives all ones, and the
quotient of the least value by −1 wraps. -/
def Obligations.IntegerArithmeticComputes : Prop :=
  ∀ f : R3,
    IntegerWord (.iadd f) [f.a, f.b] f.d f.a f.b (fun _ x y _ => x + y) ∧
    IntegerWord (.isub f) [f.a, f.b] f.d f.a f.b (fun _ x y _ => x - y) ∧
    IntegerWord (.imul f) [f.a, f.b] f.d f.a f.b (fun _ x y _ => x * y) ∧
    IntegerWord (.imulh f) [f.a, f.b] f.d f.a f.b (fun w x y _ => BitVec.ofInt w (x.toInt * y.toInt / 2 ^ w)) ∧
    IntegerWord (.imulhn f) [f.a, f.b] f.d f.a f.b (fun w x y _ => BitVec.ofNat w (x.toNat * y.toNat / 2 ^ w)) ∧
    IntegerWord (.imad f) [f.a, f.b, f.d] f.d f.a f.b (fun _ x y z => x * y + z) ∧
    IntegerWord (.idiv f) [f.a, f.b] f.d f.a f.b
      (fun w x y _ => if y = 0 then BitVec.allOnes w else BitVec.ofInt w (x.toInt.tdiv y.toInt)) ∧
    IntegerWord (.idivn f) [f.a, f.b] f.d f.a f.b (fun w x y _ => if y = 0 then BitVec.allOnes w else x / y)

/-- The eight ILOGIC instructions compute R105's functions; a shift count is taken modulo W. -/
def Obligations.LogicAndShiftsCompute : Prop :=
  ∀ f : R3,
    IntegerWord (.and f) [f.a, f.b] f.d f.a f.b (fun _ x y _ => x &&& y) ∧
    IntegerWord (.or f) [f.a, f.b] f.d f.a f.b (fun _ x y _ => x ||| y) ∧
    IntegerWord (.xor f) [f.a, f.b] f.d f.a f.b (fun _ x y _ => x ^^^ y) ∧
    IntegerWord (.andn f) [f.a, f.b] f.d f.a f.b (fun _ x y _ => x &&& ~~~y) ∧
    IntegerWord (.shl f) [f.a, f.b] f.d f.a f.b (fun w x y _ => x <<< (y.toNat % w)) ∧
    IntegerWord (.shr f) [f.a, f.b] f.d f.a f.b (fun w x y _ => x >>> (y.toNat % w)) ∧
    IntegerWord (.sar f) [f.a, f.b] f.d f.a f.b (fun w x y _ => x.sshiftRight (y.toNat % w)) ∧
    IntegerWord (.rotr f) [f.a, f.b] f.d f.a f.b (fun w x y _ => (x >>> (y.toNat % w)) ||| (x <<< (w - y.toNat % w)))

/-- The eight IBITS instructions compute R106's functions and R107's field extraction. -/
def Obligations.BitOperationsCompute : Prop :=
  (∀ f : R3,
    IntegerWord (.imin f) [f.a, f.b] f.d f.a f.b (fun _ x y _ => if x.toInt ≤ y.toInt then x else y) ∧
    IntegerWord (.imax f) [f.a, f.b] f.d f.a f.b (fun _ x y _ => if y.toInt ≤ x.toInt then x else y) ∧
    IntegerWord (.nmin f) [f.a, f.b] f.d f.a f.b (fun _ x y _ => if x.toNat ≤ y.toNat then x else y) ∧
    IntegerWord (.nmax f) [f.a, f.b] f.d f.a f.b (fun _ x y _ => if y.toNat ≤ x.toNat then x else y) ∧
    IntegerWord (.bfx f) [f.a, f.b] f.d f.a f.b (fun w x y _ =>
      let pos := y.toNat % 64
      let len := y.toNat / 256 % 64
      let n := min (pos + len) w - pos
      if w ≤ pos ∨ len = 0 then 0
      else if y.getLsbD 15 then BitVec.ofInt w ((x.extractLsb' pos n).toInt) else BitVec.ofNat w ((x.extractLsb' pos n).toNat))) ∧
  ∀ f : R1,
    IntegerWord (.popc f) [f.a] f.d f.a f.a (fun w x _ _ => BitVec.ofNat w ((List.range w).filter (fun k => x.getLsbD k)).length) ∧
    IntegerWord (.clz f) [f.a] f.d f.a f.a (fun w x _ _ => BitVec.ofNat w ((List.range w).takeWhile (fun k => !x.getMsbD k)).length) ∧
    IntegerWord (.brev f) [f.a] f.d f.a f.a (fun _ x _ _ => x.reverse)

/-- The seven integer compares decide R108's relations: T where the relation holds, F otherwise, never U. -/
def Obligations.IntegerComparesDecide : Prop :=
  ∀ f : RCmp,
    IntegerCompare (.icmpEq f) f.q f.a f.b (fun _ x y => x = y) ∧
    IntegerCompare (.icmpNe f) f.q f.a f.b (fun _ x y => x ≠ y) ∧
    IntegerCompare (.icmpLt f) f.q f.a f.b (fun _ x y => x.toInt < y.toInt) ∧
    IntegerCompare (.icmpLe f) f.q f.a f.b (fun _ x y => x.toInt ≤ y.toInt) ∧
    IntegerCompare (.icmpLtn f) f.q f.a f.b (fun _ x y => x.toNat < y.toNat) ∧
    IntegerCompare (.icmpLen f) f.q f.a f.b (fun _ x y => x.toNat ≤ y.toNat) ∧
    IntegerCompare (.icmpTst f) f.q f.a f.b (fun _ x y => x &&& y ≠ 0)

/-- The IIMM instructions compute R110's functions of a and the sign-extended immediate; MOVI and MOVHI make constants (R111, R112); a slice
does the same on 64 bits (R252). SEL takes a where the condition of G holds and b elsewhere, bit for bit, at the shape of the sources, a point
promoted where it meets an interval (R109); it faults SHAPE on two widths. -/
def Obligations.ImmediatesAndSelectCompute : Prop :=
  ((∀ f : RImm,
     let i : (w : Nat) → BitVec w := fun w => (BitVec.ofNat 9 f.i).signExtend w
     IntegerWord (.iaddi f) [f.a] f.d f.a f.a (fun w x _ _ => x + i w) ∧
     IntegerWord (.andi f) [f.a] f.d f.a f.a (fun w x _ _ => x &&& i w) ∧
     IntegerWord (.ori f) [f.a] f.d f.a f.a (fun w x _ _ => x ||| i w) ∧
     IntegerWord (.xori f) [f.a] f.d f.a f.a (fun w x _ _ => x ^^^ i w) ∧
     IntegerWord (.shli f) [f.a] f.d f.a f.a (fun w x _ _ => x <<< ((i w).toNat % w)) ∧
     IntegerWord (.shri f) [f.a] f.d f.a f.a (fun w x _ _ => x >>> ((i w).toNat % w)) ∧
     IntegerWord (.sari f) [f.a] f.d f.a f.a (fun w x _ _ => x.sshiftRight ((i w).toNat % w)) ∧
     IntegerWord (.imuli f) [f.a] f.d f.a f.a (fun w x _ _ => x * i w)) ∧
   ∀ (f : RWide) (s : State), f.i < 2 ^ 18 →
     (∀ c, Ready (.movi f) c s →
       Delivers (.movi f) c (Out.v f.d .p32 (lanes c (fun _ => ((BitVec.ofNat 18 f.i).signExtend 32).setWidth 128))) id s) ∧
     (∀ x, SliceReady (.movi f) x s → SliceDoes (.movi f) (fun y => y.setReg f.d ((BitVec.ofNat 18 f.i).signExtend 64)) s) ∧
     (∀ c, Ready (.movhi f) c s → c.src.shape f.d = .p32 →
       Delivers (.movhi f) c (Out.v f.d .p32 (lanes c (fun l =>
         ((BitVec.ofNat 18 f.i ++ (point c.src 32 f.d l).setWidth 14 : BitVec 32)).setWidth 128))) id s) ∧
     (∀ c, Ready (.movhi f) c s → c.src.shape f.d ≠ .p32 → Traps (.movhi f) c (faultOf c .shape) s) ∧
     (∀ x, SliceReady (.movhi f) x s → SliceDoes (.movhi f)
       (fun y => y.setReg f.d ((BitVec.ofNat 18 f.i ++ (x.reg f.d).setWidth 14 : BitVec 32).setWidth 64)) s)) ∧
  ∀ (f : R3) (s : State),
    (∀ c, Ready (.sel f) c s → (c.src.shape f.a).width = (c.src.shape f.b).width →
      let k := if (c.src.shape f.a).isIv ∨ (c.src.shape f.b).isIv then ivShape (c.src.shape f.a).width else c.src.shape f.a
      Delivers (.sel f) c (Out.v f.d k (lanes c (fun l =>
        let r := if guardPasses f.g (c.src.lane l) then f.a else f.b
        if k.isIv ∧ ¬ (c.src.shape r).isIv then ivElem k.width (c.src.readN r l) (c.src.readN r l) else c.src.read r l))) id s) ∧
    (∀ c, Ready (.sel f) c s → (c.src.shape f.a).width ≠ (c.src.shape f.b).width → Traps (.sel f) c (faultOf c .shape) s) ∧
    (∀ x, SliceReady (.sel f) x s → SliceDoes (.sel f) (fun y => y.setReg f.d (if x.guard f.g then x.reg f.a else x.reg f.b)) s)

/-! ## Floating point -/

/-- FADD, FSUB, FMUL, FMA, FMS and FNMA round the exact value of R113 once, under the dynamic mode; FMIN and FMAX take an operand's encoding
(R115); on intervals the bounds are those of R144, rounded outward. -/
def Obligations.FloatArithmeticRounds : Prop :=
  ∀ f : R3,
    let m : Ctx → Nat := fun c => c.src.ctrl.round.toNat
    let arith := fun (e : Nat → FV → FV → FV → XV) (w : Nat) (c : Ctx) (l : Nat) =>
      rounded w (m c) c l (e (m c) (value c w f.a l) (value c w f.b l) (value c w f.d l))
    let pick := fun (greater : Bool) (w : Nat) (c : Ctx) (l : Nat) =>
      (elemN (fminBits (fmtOf w) greater (c.src.readN f.a l) (c.src.readN f.b l)), c.gen l)
    let iv2 := fun (g : Iv → Iv → XV × XV) (w : Nat) (c : Ctx) (l : Nat) => c.onIv w [f.a, f.b] l (fun xs => match xs with
      | a :: b :: _ => .ok (outwardX (fmtOf w) (g a b).1 (g a b).2)
      | _ => .ok 0)
    let iv3 := fun (g : Iv → Iv → XV × XV) (w : Nat) (c : Ctx) (l : Nat) => c.onIv w [f.a, f.b, f.d] l (fun xs => match xs with
      | a :: b :: z :: _ => .ok (outwardX (fmtOf w) (g (ivProducts a b) z).1 (g (ivProducts a b) z).2)
      | _ => .ok 0)
    FloatWord (.fadd f) [f.a, f.b] f.d (arith (fun m x y _ => addFV m x y)) (iv2 (fun a b => (addFV 1 a.lo b.lo, addFV 1 a.hi b.hi))) ∧
    FloatWord (.fsub f) [f.a, f.b] f.d (arith (fun m x y _ => addFV m x (negFV y)))
      (iv2 (fun a b => (addFV 1 a.lo (negFV b.hi), addFV 1 a.hi (negFV b.lo)))) ∧
    FloatWord (.fmul f) [f.a, f.b] f.d (arith (fun _ x y _ => (mulFV x y).toX))
      (iv2 (fun a b => ((ivProducts a b).lo.toX, (ivProducts a b).hi.toX))) ∧
    FloatWord (.fma f) [f.a, f.b, f.d] f.d (arith (fun m x y z => addFV m (mulFV x y) z))
      (iv3 (fun p z => (addFV 1 p.lo z.lo, addFV 1 p.hi z.hi))) ∧
    FloatWord (.fms f) [f.a, f.b, f.d] f.d (arith (fun m x y z => addFV m (mulFV x y) (negFV z)))
      (iv3 (fun p z => (addFV 1 p.lo (negFV z.hi), addFV 1 p.hi (negFV z.lo)))) ∧
    FloatWord (.fnma f) [f.a, f.b, f.d] f.d (arith (fun m x y z => addFV m (negFV (mulFV x y)) z))
      (iv3 (fun p z => (addFV 1 z.lo (negFV p.hi), addFV 1 z.hi (negFV p.lo)))) ∧
    FloatWord (.fmin f) [f.a, f.b] f.d (pick false) (iv2 (fun a b => ((minFV a.lo b.lo).toX, (minFV a.hi b.hi).toX))) ∧
    FloatWord (.fmax f) [f.a, f.b] f.d (pick true) (iv2 (fun a b => ((maxFV a.lo b.lo).toX, (maxFV a.hi b.hi).toX)))

/-- FCMP on points writes U where a source is NaN and otherwise decides its relation, UNO being T exactly there (R116); on intervals it writes
T, F or U as R155 fixes. -/
def Obligations.FloatComparesDecide : Prop :=
  ∀ f : RCmp,
    FloatCompare (.fcmpLt f) f.q f.a f.b (unlessNan (fun k => decide (k < 0)))
      (fun a b => if cmpFV a.hi b.lo < 0 then .t else if cmpFV b.hi a.lo ≤ 0 then .f else .u) ∧
    FloatCompare (.fcmpLe f) f.q f.a f.b (unlessNan (fun k => decide (k ≤ 0)))
      (fun a b => if cmpFV a.hi b.lo ≤ 0 then .t else if cmpFV b.hi a.lo < 0 then .f else .u) ∧
    FloatCompare (.fcmpEq f) f.q f.a f.b (unlessNan (fun k => decide (k = 0)))
      (fun a b => if cmpFV a.hi a.lo ≤ 0 ∧ cmpFV b.hi b.lo ≤ 0 ∧ cmpFV a.lo b.lo = 0 then .t
        else if cmpFV (minFV a.hi b.hi) (maxFV a.lo b.lo) < 0 then .f else .u) ∧
    FloatCompare (.fcmpNe f) f.q f.a f.b (unlessNan (fun k => decide (k ≠ 0)))
      (fun a b => if cmpFV (minFV a.hi b.hi) (maxFV a.lo b.lo) < 0 then .t
        else if cmpFV a.hi a.lo ≤ 0 ∧ cmpFV b.hi b.lo ≤ 0 ∧ cmpFV a.lo b.lo = 0 then .f else .u) ∧
    FloatCompare (.fcmpGt f) f.q f.a f.b (unlessNan (fun k => decide (0 < k)))
      (fun a b => if cmpFV b.hi a.lo < 0 then .t else if cmpFV a.hi b.lo ≤ 0 then .f else .u) ∧
    FloatCompare (.fcmpGe f) f.q f.a f.b (unlessNan (fun k => decide (0 ≤ k)))
      (fun a b => if cmpFV b.hi a.lo ≤ 0 then .t else if cmpFV a.hi b.lo < 0 then .f else .u) ∧
    FloatCompare (.fcmpUno f) f.q f.a f.b (fun x y => if x.isNan || y.isNan then .t else .f) (fun _ _ => .f)

/-- FUNARY: FABS and FNEG set the sign bit, the rounded functions round the exact value once under FN, FFLOOR, FCEIL and FRINT round to an
integer, a NaN gives the canonical NaN (R118, R119); on intervals the result is R145's. FCLASS writes its one bit and refuses intervals (R120,
R148); IVLO and IVHI give a bound as a point (R122, R148); MOV copies bits and side bytes (R121). It rests on the model's own reading in log
entries 8 and 85. -/
def Obligations.FloatUnaryComputes : Prop :=
  (∀ f : RRnd,
    let m : Ctx → Nat := fun c => if f.r = 0 then c.src.ctrl.round.toNat else f.r
    let iv := fun (code : Nat) (w : Nat) (c : Ctx) (l : Nat) => c.onIv w [f.a] l (fun xs => match xs with
      | a :: _ => funaryIv (fmtOf w) code (m c) a
      | _ => .ok 0)
    let bits := fun (g : Nat → Nat → Nat) (w : Nat) (c : Ctx) (l : Nat) =>
      (if (value c w f.a l).isNan then elemN (qnan (fmtOf w)) else elemN (g w (c.src.readN f.a l)), c.gen l)
    let fn := fun (code : Nat) (w : Nat) (c : Ctx) (l : Nat) => rounded w (m c) c l (funaryX code (value c w f.a l))
    let toInt := fun (mode : Nat) (w : Nat) (c : Ctx) (l : Nat) => (elemN (roundN (fmtOf w) 1 (rintFV mode 0 (value c w f.a l)).1), c.gen l)
    FloatWord (.fabs f) [f.a] f.d (bits (fun w x => x % 2 ^ (w - 1))) (iv 0) ∧
    FloatWord (.fneg f) [f.a] f.d (bits (fun w x => x ^^^ 2 ^ (w - 1))) (iv 1) ∧
    FloatWord (.fsqrt f) [f.a] f.d (fn 2) (iv 2) ∧ FloatWord (.frcp f) [f.a] f.d (fn 3) (iv 3) ∧
    FloatWord (.frsq f) [f.a] f.d (fn 4) (iv 4) ∧ FloatWord (.fexp2 f) [f.a] f.d (fn 5) (iv 5) ∧
    FloatWord (.flog2 f) [f.a] f.d (fn 6) (iv 6) ∧ FloatWord (.fsin f) [f.a] f.d (fn 7) (iv 7) ∧
    FloatWord (.fcos f) [f.a] f.d (fn 8) (iv 8) ∧
    FloatWord (.ffloor f) [f.a] f.d (toInt 3) (iv 9) ∧ FloatWord (.fceil f) [f.a] f.d (toInt 4) (iv 10) ∧
    FloatWord (.frint f) [f.a] f.d (fun w c l =>
      let r := rintFV (m c) (genBits (c.gen l)) (value c w f.a l)
      (elemN (roundN (fmtOf w) 1 r.1), if r.2 then genStep (c.gen l) else c.gen l)) (iv 11)) ∧
  (∀ (f : RRnd) (s : State) (c : Ctx),
    (Ready (.fclass f) c s → (c.src.shape f.a).isIv = true → Traps (.fclass f) c (faultOf c .shape) s) ∧
    (∀ w, Ready (.fclass f) c s → Points c [f.a] w →
      Delivers (.fclass f) c (Out.v f.d .p32 (lanes c (fun l => elemN (2 ^ fclassBit (fmtOf w) (c.src.readN f.a l))))) id s) ∧
    (∀ hi : Bool, let i : Instr := if hi then .ivhi f else .ivlo f
      (∀ w, Ready i c s → Points c [f.a] w → Delivers i c (laneOut f.d (pointShape w) (c.act.map (fun l =>
        ⟨l, .ok (if (value c w f.a l).isNan then elemN (qnan (fmtOf w)) else c.src.read f.a l, c.gen l)⟩))) id s) ∧
      (Ready i c s → (c.src.shape f.a).isIv = true →
        let w := (c.src.shape f.a).width
        Delivers i c (laneOut f.d (pointShape w) (c.act.map (fun l => ⟨l, c.keepGen l ((c.iv w f.a l).map (fun _ =>
          elemN (plusZero (fmtOf w) (if hi then ivHiBits w (c.src.read f.a l) else ivLoBits w (c.src.read f.a l)))))⟩))) id s))) ∧
  ∀ (f : R1) (s : State) (c : Ctx), Ready (.mov f) c s →
    let v := c.src.vreg f.a
    Delivers (.mov f) c
      { Out.v f.d v.shape (lanes c (fun l => c.src.read f.a l)) with
        sides := [(f.d, (c.actGranules.flatMap (fun g => (upto 0 v.shape.rows).map (fun k => k * (c.grp.width / 8) + g))).map
          (fun i => (i, v.side.getD i 0)))] } id s

/-! ## Intervals and predicates -/

/-- IVAL: IVMK pairs two points (R152), IVHULL and IVMEET join and meet (R151), IVSQR squares (R151), IVMID, IVRAD and IVSPLIT follow R153,
IVPOWN raises to the integer in b (R154); faults INVALID_INTERVAL and EMPTY_INTERVAL as R138, R139 and R141 say. IVCMP writes T or F, the
certain relations of R156, on intervals and promoted points (R157). -/
def Obligations.IntervalWordsCompute : Prop :=
  ((∀ f : R3,
     IntervalWord (.ivhull f) [f.a, f.b] f.d ivShape (fun F xs => match xs with
       | a :: b :: _ => .ok (outwardX F (minFV a.lo b.lo).toX (maxFV a.hi b.hi).toX)
       | _ => .ok 0) ∧
     IntervalWord (.ivmeet f) [f.a, f.b] f.d ivShape (fun F xs => match xs with
       | a :: b :: _ => if 0 < cmpFV (maxFV a.lo b.lo) (minFV a.hi b.hi) then .error .emptyInterval
         else .ok (outwardX F (maxFV a.lo b.lo).toX (minFV a.hi b.hi).toX)
       | _ => .ok 0) ∧
     (∀ (s : State) (c : Ctx), Ready (.ivmk f) c s →
       (∀ w, Points c [f.a, f.b] w → Delivers (.ivmk f) c (laneOut f.d (ivShape w) (c.act.map (fun l =>
         let x : Iv := ⟨value c w f.a l, value c w f.b l⟩
         ⟨l, c.keepGen l (x.check.map (fun _ => outwardX (fmtOf w) x.lo.toX x.hi.toX))⟩))) id s) ∧
       ((¬ ∃ w, Points c [f.a, f.b] w) → Traps (.ivmk f) c (faultOf c .shape) s)) ∧
     (∀ (s : State) (c : Ctx), Ready (.ivpown f) c s →
       let w := (c.src.shape f.a).width
       (c.src.shape f.b = pointShape w → Delivers (.ivpown f) c (laneOut f.d (ivShape w) (c.act.map (fun l =>
         ⟨l, c.keepGen l ((c.iv w f.a l).bind (powIv (fmtOf w) (point c.src w f.b l).toInt))⟩))) id s) ∧
       (c.src.shape f.b ≠ pointShape w → Traps (.ivpown f) c (faultOf c .shape) s))) ∧
   ∀ f : R1,
     IntervalWord (.ivsqr f) [f.a] f.d ivShape (fun F xs => match xs with
       | a :: _ => .ok (sqrIv F a)
       | _ => .ok 0) ∧
     IntervalWord (.ivmid f) [f.a] f.d pointShape (fun F xs => match xs with
       | a :: _ => .ok (elemN (midBits F a))
       | _ => .ok 0) ∧
     IntervalWord (.ivrad f) [f.a] f.d pointShape (fun F xs => match xs with
       | a :: _ => .ok (elemN (radBits F a))
       | _ => .ok 0) ∧
     ∀ (s : State) (c : Ctx), Ready (.ivsplit f) c s →
       let w := (c.src.shape f.a).width
       let half := fun (d : Nat) (g : Iv → FV → Elem) => laneOut d (ivShape w) (c.act.map (fun l =>
         ⟨l, c.keepGen l ((c.iv w f.a l).map (fun a => g a (decodeF (fmtOf w) (midBits (fmtOf w) a))))⟩))
       let lo := half f.d (fun a m => outwardX (fmtOf w) a.lo.toX m.toX)
       Delivers (.ivsplit f) c
         { lo with vs := lo.vs ++ (half ((f.d + 1) % 32) (fun a m => outwardX (fmtOf w) m.toX a.hi.toX)).vs } id s) ∧
  (∀ f : RCmp,
    CertainCompare (.clt f) f.q f.a f.b (fun a b => decide (cmpFV a.hi b.lo < 0)) ∧
    CertainCompare (.cle f) f.q f.a f.b (fun a b => decide (cmpFV a.hi b.lo ≤ 0)) ∧
    CertainCompare (.ceq f) f.q f.a f.b (fun a b => decide (cmpFV a.hi a.lo ≤ 0 ∧ cmpFV b.hi b.lo ≤ 0 ∧ cmpFV a.lo b.lo = 0)) ∧
    CertainCompare (.subset f) f.q f.a f.b (fun a b => decide (cmpFV b.lo a.lo ≤ 0 ∧ cmpFV a.hi b.hi ≤ 0)) ∧
    CertainCompare (.contains f) f.q f.a f.b
      (fun a b => decide ((a.lo.isInf = true ∨ cmpFV a.lo b.lo < 0) ∧ (a.hi.isInf = true ∨ cmpFV b.hi a.hi < 0))) ∧
    CertainCompare (.disjoint f) f.q f.a f.b (fun a b => decide (cmpFV (minFV a.hi b.hi) (maxFV a.lo b.lo) < 0))) ∧
  ∀ (f : RCmp1) (s : State) (c : Ctx), Ready (.zin f) c s →
    Delivers (.zin f) c (triOut f.q (c.act.map (fun l => (l, (c.iv (c.src.shape f.a).width f.a l).map (fun a =>
      if cmpFV a.lo (.fin false 0 0) ≤ 0 ∧ cmpFV (.fin false 0 0) a.hi ≤ 0 then .t else .f))))) id s

/-- QLOGIC computes Kleene's tables (R159) on the predicates of each active lane, and QSET its constant (R160). -/
def Obligations.PredicateLogicComputes : Prop :=
  ∀ (s : State) (c : Ctx),
    let p := fun (n l : Nat) => (c.src.lane l).pred n
    let and3 : Tri → Tri → Tri := fun x y => if x = .f ∨ y = .f then .f else if x = .t ∧ y = .t then .t else .u
    let or3 : Tri → Tri → Tri := fun x y => if x = .t ∨ y = .t then .t else if x = .f ∧ y = .f then .f else .u
    (∀ f : RQ2,
      (Ready (.qand f) c s → Delivers (.qand f) c (Out.q f.q (preds c (fun l => and3 (p f.x l) (p f.y l)))) id s) ∧
      (Ready (.qor f) c s → Delivers (.qor f) c (Out.q f.q (preds c (fun l => or3 (p f.x l) (p f.y l)))) id s) ∧
      (Ready (.qxor f) c s → Delivers (.qxor f) c (Out.q f.q (preds c (fun l =>
        if p f.x l = .u ∨ p f.y l = .u then .u else if p f.x l = p f.y l then .f else .t))) id s) ∧
      (Ready (.qcons f) c s → Delivers (.qcons f) c (Out.q f.q (preds c (fun l =>
        if p f.x l = p f.y l then p f.x l else .u))) id s)) ∧
    (∀ f : RQ1,
      (Ready (.qnot f) c s → Delivers (.qnot f) c (Out.q f.q (preds c (fun l =>
        if p f.x l = .t then .f else if p f.x l = .f then .t else .u))) id s) ∧
      (Ready (.qmov f) c s → Delivers (.qmov f) c (Out.q f.q (preds c (fun l => p f.x l))) id s) ∧
      (Ready (.qdef f) c s → Delivers (.qdef f) c (Out.q f.q (preds c (fun l => if p f.x l = .u then .f else .t))) id s)) ∧
    ∀ f : RQSet, Ready (.qset f) c s →
      Delivers (.qset f) c (Out.q f.q (preds c (fun _ => if f.k = 1 then .t else if f.k = 2 then .u else .f))) id s

/-! ## Conversions -/

/-- The single-register conversions of R124, each with its source and destination shape, its rounding and, to integers, its saturation (R125).
-/
def Obligations.ConversionsConvert : Prop :=
  ∀ f : RRnd,
    let rnd := fun (F : Fmt) (x : Nat → XV) (m : Nat) (g : W64) (b : Nat) => rndGen F m g (x b)
    let toI := fun (F : Fmt) (lo hi : Int) (n : Nat) (m : Nat) (g : W64) (b : Nat) =>
      let r := roundI lo hi m (genBits g) (decodeF F b)
      ((BitVec.ofInt n r.1).toNat, if r.2 then genStep g else g)
    let same := fun (h : Nat → Nat) (_ : Nat) (g : W64) (b : Nat) => (h b, g)
    let widen := fun (F : Fmt) (b : Nat) => roundN fp32 1 (decodeF F (b % 2 ^ 16)).toX
    Converts (.cvtF64F32 f) f .p32 .p64 (same (fun b => roundN fp64 1 (decodeF fp32 b).toX)) ∧
    Converts (.cvtF32F64 f) f .p64 .p32 (rnd fp32 (fun b => (decodeF fp64 b).toX)) ∧
    Converts (.cvtF32I32 f) f .p32 .p32 (rnd fp32 (fun b => intX (BitVec.ofNat 32 b).toInt)) ∧
    Converts (.cvtF32N32 f) f .p32 .p32 (rnd fp32 (fun b => intX b)) ∧
    Converts (.cvtI32F32 f) f .p32 .p32 (toI fp32 (-2 ^ 31) (2 ^ 31 - 1) 32) ∧
    Converts (.cvtN32F32 f) f .p32 .p32 (toI fp32 0 (2 ^ 32 - 1) 32) ∧
    Converts (.cvtF64I64 f) f .p64 .p64 (rnd fp64 (fun b => intX (BitVec.ofNat 64 b).toInt)) ∧
    Converts (.cvtI64F64 f) f .p64 .p64 (toI fp64 (-2 ^ 63) (2 ^ 63 - 1) 64) ∧
    Converts (.cvtF32F16l f) f .p32 .p32 (same (fun b => widen fp16 b)) ∧
    Converts (.cvtF32F16h f) f .p32 .p32 (same (fun b => widen fp16 (b / 2 ^ 16))) ∧
    Converts (.cvtF32Bf16l f) f .p32 .p32 (same (fun b => widen bf16 b)) ∧
    Converts (.cvtF32Bf16h f) f .p32 .p32 (same (fun b => widen bf16 (b / 2 ^ 16))) ∧
    Converts (.cvtI64I32 f) f .p32 .p64 (same (fun b => ((BitVec.ofNat 32 b).signExtend 64).toNat)) ∧
    Converts (.cvtN64N32 f) f .p32 .p64 (same (fun b => b)) ∧
    Converts (.cvtI32I64 f) f .p64 .p32 (same (fun b =>
      (BitVec.ofInt 32 (max (-2 ^ 31) (min (2 ^ 31 - 1) (BitVec.ofNat 64 b).toInt))).toNat))

/-- The packing and unpacking conversions (R126 to R134): FP16 and BF16 pairs, E4M3 and E5M2 blocks under an E8M0 scale for each granule
(R128, R129), Q4N blocks under a code for each granule and the superscale (R130, R131), saturated bytes (R132). SIDE.GET reads the side byte
of row 0 of the lane's granule; SIDE.SET writes that of each granule with an active lane from a in its lowest active lane, and keeps d's shape
and data (R135). It rests on the model's own reading in log entries 66 and 84. -/
def Obligations.PackedConversionsConvert : Prop :=
  (∀ f : RRnd,
     let round := fun (F : Fmt) (_ : Ctx) (m _code : Nat) (g : W64) (b : Nat) => rndGen F m g (decodeF fp32 b).toX
     Packs (.cvtPkF16 f) f 2 16 none (round fp16) ∧
     Packs (.cvtPkBf16 f) f 2 16 none (round bf16) ∧
     Packs (.cvtPkE4m3 f) f 4 8 (some (fun _ ws => blockScale 448 ws))
       (fun _ m e g b => rndGen e4m3 m g (scaleFV (127 - (e : Int)) (decodeF fp32 b)).toX) ∧
     Packs (.cvtPkE5m2 f) f 4 8 (some (fun _ ws => blockScale 57344 ws))
       (fun _ m e g b => rndGen e5m2 m g (scaleFV (127 - (e : Int)) (decodeF fp32 b)).toX) ∧
     Packs (.cvtPkQ4n f) f 8 4 (some (fun c ws => q4Code c.src.ctrl.q4scale ws)) (fun c m k g b => packQ4 c.src.ctrl.q4scale m k g b) ∧
     Packs (.cvtPkI8 f) f 4 8 none
       (fun _ _ _ g b => ((BitVec.ofInt 8 (max (-128) (min 127 (BitVec.ofNat 32 b).toInt))).toNat, g)) ∧
     Unpacks (.cvtUpE4m3 f) f 4 8 (fun _ m e g b =>
       rndGen fp32 m g (if e = 255 then .nan else (scaleFV ((e : Int) - 127) (decodeF e4m3 b)).toX)) ∧
     Unpacks (.cvtUpE5m2 f) f 4 8 (fun _ m e g b =>
       rndGen fp32 m g (if e = 255 then .nan else (scaleFV ((e : Int) - 127) (decodeF e5m2 b)).toX)) ∧
     Unpacks (.cvtUpQ4n f) f 8 4 (fun c m k g b =>
       rndGen fp32 m g (mulFV (mulFV (codebook b) (.fin false k (-8))) (decodeF fp32 c.src.ctrl.q4scale.toNat)).toX) ∧
     Unpacks (.cvtUpI8 f) f 4 8 (fun _ _ _ g b => (((BitVec.ofNat 8 b).signExtend 32).toNat, g))) ∧
  ∀ (f : RRnd) (s : State) (c : Ctx),
    (Ready (.sideGet f) c s → Delivers (.sideGet f) c
      (Out.v f.d .p32 (lanes c (fun l => ((c.src.vreg f.a).side.getD (l / 8) 0).setWidth 128))) id s) ∧
    (Ready (.sideSet f) c s → c.src.shape f.a = .p32 → Delivers (.sideSet f) c
      { Out.v f.d (c.grp.shape f.d) [] with sides := [(f.d, c.actGranules.map (fun g =>
          (g, (c.src.read f.a ((c.act.find? (fun l => decide (l / 8 = g))).getD 0)).setWidth 8)))] } id s) ∧
    (Ready (.sideSet f) c s → c.src.shape f.a ≠ .p32 → Traps (.sideSet f) c (faultOf c .shape) s)

/-! ## Words between lanes -/

/-- The shuffles deliver a from the lane that b names (R185, R186); VOTE and MATCH deliver masks of active lanes (R187). -/
def Obligations.ShufflesAndVotesDeliver : Prop :=
  (∀ f : R3,
    Shuffles (.shfl f) f (fun _ b => some b) ∧
    Shuffles (.shflu f) f (fun l b => if b ≤ l then some (l - b) else none) ∧
    Shuffles (.shfld f) f (fun l b => some (l + b)) ∧
    Shuffles (.shflx f) f (fun l b => some (l ^^^ b))) ∧
  (∀ c0 d q k g st : Nat, LaneWord (.vote c0 d q k g st) d (fun _ => .p64)
    (fun c _ => (listMask (c.act.filter (fun l => kMatch k ((c.src.lane l).pred q)))).setWidth 128)) ∧
  ∀ f : R1, LaneWord (.matchLanes f) f.d (fun _ => .p64)
    (fun c l => (listMask (c.act.filter (fun k => decide (c.src.read f.a k = c.src.read f.a l)))).setWidth 128)

/-- GRED combines the active lanes' values in the fixed tree of R189, with the operations of R188. -/
def Obligations.ReductionsCombine : Prop :=
  ∀ f : R1,
    let int := fun (g : (w : Nat) → BitVec w → BitVec w → BitVec w) (c : Ctx) (x y : Elem) (gen : W64) =>
      let w := (c.src.shape f.a).width
      ((g w (x.setWidth w) (y.setWidth w)).setWidth 128, gen)
    let point := fun (k : Shape) => !k.isIv
    let flt := fun (pt : Ctx → Nat → Elem → Elem → W64 → Elem × W64) (iv : Iv → Iv → XV × XV) (c : Ctx) (x y : Elem) (gen : W64) =>
      let w := (c.src.shape f.a).width
      if (c.src.shape f.a).isIv then
        let r := iv (ivOf (fmtOf w) x) (ivOf (fmtOf w) y)
        (outwardX (fmtOf w) r.1 r.2, gen)
      else pt c w x y gen
    let bad := fun (c : Ctx) => if (c.src.shape f.a).isIv then
        laneTrap (c.act.map (fun l => ⟨l, (c.iv (c.src.shape f.a).width f.a l).map (fun _ => (0, 0))⟩)) else none
    Reduces (.gredIadd f) f point (int (fun _ x y => x + y)) (fun _ => none) ∧
    Reduces (.gredImin f) f point (int (fun _ x y => if x.toInt ≤ y.toInt then x else y)) (fun _ => none) ∧
    Reduces (.gredImax f) f point (int (fun _ x y => if x.toInt ≤ y.toInt then y else x)) (fun _ => none) ∧
    Reduces (.gredNmin f) f point (int (fun _ x y => if x.toNat ≤ y.toNat then x else y)) (fun _ => none) ∧
    Reduces (.gredNmax f) f point (int (fun _ x y => if x.toNat ≤ y.toNat then y else x)) (fun _ => none) ∧
    Reduces (.gredAnd f) f point (int (fun _ x y => x &&& y)) (fun _ => none) ∧
    Reduces (.gredOr f) f point (int (fun _ x y => x ||| y)) (fun _ => none) ∧
    Reduces (.gredXor f) f point (int (fun _ x y => x ^^^ y)) (fun _ => none) ∧
    Reduces (.gredFadd f) f (fun _ => true)
      (flt (fun c w x y gen =>
          let m := c.src.ctrl.round.toNat
          let r := rndGen (fmtOf w) m gen (addFV m (decodeF (fmtOf w) x.toNat) (decodeF (fmtOf w) y.toNat))
          (elemN r.1, r.2))
        (fun a b => (addFV 1 a.lo b.lo, addFV 1 a.hi b.hi))) bad ∧
    Reduces (.gredFmin f) f (fun _ => true)
      (flt (fun _ w x y gen => (elemN (fminBits (fmtOf w) false x.toNat y.toNat), gen))
        (fun a b => ((minFV a.lo b.lo).toX, (minFV a.hi b.hi).toX))) bad ∧
    Reduces (.gredFmax f) f (fun _ => true)
      (flt (fun _ w x y gen => (elemN (fminBits (fmtOf w) true x.toNat y.toNat), gen))
        (fun a b => ((maxFV a.lo b.lo).toX, (maxFV a.hi b.hi).toX))) bad

/-- The QUAD words: exchange with a partner (R191, R192), derivatives (R191, R193), and HELPQ's positions of helper lanes (R191). It rests on
the model's own reading in log entry 67. -/
def Obligations.QuadWordsDeliver : Prop :=
  (∀ f : R1,
    let swap := fun (k : Nat) (c : Ctx) (l : Nat) =>
      let p := l / 4 * 4 + (l % 4 ^^^ k)
      c.src.read f.a (if p ∈ c.act then p else l)
    LaneWord (.qxh f) f.d (fun c => c.src.shape f.a) (swap 1) ∧
    LaneWord (.qxv f) f.d (fun c => c.src.shape f.a) (swap 2) ∧
    LaneWord (.qxd f) f.d (fun c => c.src.shape f.a) (swap 3) ∧
    Derives (.ddxc f) f (fun _ => 1) (fun _ => 0) ∧
    Derives (.ddyc f) f (fun _ => 2) (fun _ => 0) ∧
    Derives (.ddxf f) f (fun p => if p < 2 then 1 else 3) (fun p => if p < 2 then 0 else 2) ∧
    Derives (.ddyf f) f (fun p => if p % 2 = 0 then 2 else 3) (fun p => if p % 2 = 0 then 0 else 1)) ∧
  ∀ c0 d g st : Nat, LaneWord (.helpq c0 d g st) d (fun _ => .p32) (fun c l =>
    elemN (((upto 0 4).map (fun k => if (c.grp.lane (l / 4 * 4 + k)).helper then 2 ^ k else 0)).sum +
      if (c.grp.lane l).helper then 16 else 0))

/-! ## Control flow -/

/-- BR, CALL, RET and JMPR: lanes get their targets, where they go at the end of the chain (R23, R175, R177), in a group and in a slice
(R252); MISALIGNED where an address of RET or JMPR is no multiple of 12, SHAPE where it is not P64. -/
def Obligations.TransfersGoToTheirTargets : Prop :=
  (∀ (c0 q k o : Nat) (s : State), k < 4 →
    (∀ c, Ready (.br c0 q k o) c s → Does (.br c0 q k o) c
      (s.goTo ((c.act.filter (fun l => kMatch k ((c.src.lane l).pred q))).map (fun l => (l, packetAt c.pc 21 o)))) s) ∧
    (∀ x, SliceReady (.br c0 q k o) x s → SliceDone (.br c0 q k o)
      (if kMatch k (x.pred q) then s.sliceGoTo (packetAt x.pc 21 o) else s) s)) ∧
  (∀ (c0 d o : Nat) (s : State),
    (∀ c, Ready (.call c0 d o) c s → Delivers (.call c0 d o) c (Out.v d .p64 (lanes c (fun _ => (nextPacket c.pc).setWidth 128)))
      (fun t => t.goTo (c.act.map (fun l => (l, packetAt c.pc 15 o)))) s) ∧
    (∀ x, SliceReady (.call c0 d o) x s → SliceDone (.call c0 d o)
      ((s.modCurSlice (fun y => y.setReg d (nextPacket x.pc))).sliceGoTo (packetAt x.pc 15 o)) s)) ∧
  (∀ c0 a : Nat, Jumps (.ret c0 a) a none) ∧
  ∀ c0 d a l : Nat, Jumps (.jmpr c0 d a l) a (if l = 1 then some d else none)

/-- EXIT raises a recorded tile fault first, then a recorded copy fault (R215, R303), and else ends its active lanes (R179); in a slice it
ends the slice (R252, R256). YIELD marks the path (R180). Join masks: SPLITJ writes the path's mask (R181), JOIN makes the lanes in the mask
wait at the end of its chain (R182), JMASK reads and edits a mask (R184). -/
def Obligations.PathsEndYieldAndJoin : Prop :=
  (∀ (c0 : Nat) (s : State),
     (∀ c, Ready (.exit c0) c s →
       (∀ x, c.grp.tileFault = some x → exec (.exit c0) s = .next (c.finish (s.uses (.exit c0)) s
         (.trap ⟨x.cause, x.mask, x.addr⟩ true (s.modCur (fun g => { g with tileFault := none }))))) ∧
       (∀ x, c.grp.tileFault = none → c.grp.copyFault = some x → exec (.exit c0) s = .next (c.finish (s.uses (.exit c0)) s
         (.trap ⟨x.cause, x.mask, x.addr⟩ true (s.modCur (fun g => { g with copyFault := none }))))) ∧
       (c.grp.tileFault = none → c.grp.copyFault = none → Does (.exit c0) c (s.modCur (fun g => g.exitLanes c.act)) s)) ∧
     (∀ x, SliceReady (.exit c0) x s →
       SliceDone (.exit c0) (s.modCurSlice (fun x => { x with live := false, ended := .exited })) s) ∧
     (∀ c, Ready (.yield c0) c s →
       Does (.yield c0) c (s.modCur (fun g => g.modLanes c.act (fun l => { l with yielding := true }))) s)) ∧
  ∀ (c0 j r : Nat) (s : State) (c : Ctx),
    (Ready (.splitj c0 j) c s → Does (.splitj c0 j) c (s.setJoin j c.mask) s) ∧
    (Ready (.join c0 j) c s → Does (.join c0 j) c
      (s.modCur (fun g => g.modLanes (c.act.filter (fun l => (c.src.join j).getLsbD l)) (fun l => { l with joining := some j }))) s) ∧
    (Ready (.jmaskGet c0 j r) c s →
      Delivers (.jmaskGet c0 j r) c (Out.v r .p64 (lanes c (fun _ => (c.src.join j).setWidth 128))) id s) ∧
    (Ready (.jmaskSet c0 j r) c s → c.src.shape r = .p64 → Does (.jmaskSet c0 j r) c
      (s.setJoin j ((c.src.read r c.low).setWidth 64 &&& BitVec.ofNat 64 (2 ^ c.grp.width - 1))) s) ∧
    (Ready (.jmaskSet c0 j r) c s → c.src.shape r ≠ .p64 → Traps (.jmaskSet c0 j r) c (faultOf c .shape) s) ∧
    (Ready (.jmaskAdd c0 j) c s → Does (.jmaskAdd c0 j) c (s.setJoin j (c.src.join j ||| c.mask)) s) ∧
    (Ready (.jmaskDel c0 j) c s → Does (.jmaskDel c0 j) c (s.setJoin j (c.src.join j &&& ~~~c.mask)) s) ∧
    (Ready (.jmaskClr c0 j) c s → Does (.jmaskClr c0 j) c (s.setJoin j 0) s)

/-! ## Memory -/

/-- LD, LDA and ACQP load the little-endian bytes at each lane's address (R277, R280, R281, R297); data that cannot be returned leave the
fault to the destination's next reader (R287); a load that a party outside or a Churn's tap serves sends its request and leaves its
destination outstanding (R288, R498, R523), and one of interval images sleeps (R142); where the checks fail in a lane that is no helper, the
word traps (R286, R317). LD in a slice (R252, R257): no private window, the value fills all 64 bits, faults stop the slice. It rests on the
model's own reading in log entries 3, 6, 39, 51, 76 and 90. -/
def Obligations.LoadsLoad : Prop :=
  ((∀ f : MMem,
     let k := Acc.plain .read (szAlign f.z) (szBytes f.z) (decide (f.z < 6)) f.h
     Loads (.ld f) k f.d f.a f.z f.h false (addrOf f.a f.o (szBytes f.z)) ∧
     Loads (.lda f) k f.d f.a f.z f.h true (addrOf f.a f.o (szBytes f.z))) ∧
   ∀ c0 d a z : Nat,
     let size := if z = 1 then 5 else 4
     Loads (.acqp c0 d a z) ⟨.read, szBytes size, szBytes size, false, none, true, true, false, false⟩ d a size 0 true
       (fun c l => (c.src.read a l).setWidth 64)) ∧
  ∀ (f : MMem) (s : State) (x : Slice) (w : Workgroup), SliceReady (.ld f) x s → s.curWg = some w →
    let k := Acc.plain .read (szAlign f.z) (szBytes f.z) (decide (f.z < 6)) f.h
    let a := x.reg f.a + BitVec.ofInt 64 ((BitVec.ofNat 5 f.o).toInt * szBytes f.z)
    (6 ≤ f.z → SliceFaults (.ld f) .illegalOp none s) ∧
    (f.z < 6 → ∀ e t, s.place s.cur.who.core w true k a = (.error e, t) → SliceFaults (.ld f) e (some a) s) ∧
    (f.z < 6 → ∀ p t, s.place s.cur.who.core w true k a = (.ok p, t) →
      (t.stalls [(0, .ok p)] = true → SliceHolds (.ld f) s) ∧
      (t.stalls [(0, .ok p)] = false →
        (Readable t p →
          let u := t.l1Reads t.cur.who.core w.asid f.h 1 (placePieces [p])
          let bs := u.readPlace w 16 0 (szBytes f.z) p
          let v : W64 := if szSigned f.z then BitVec.ofInt 64 (sextN (leNat bs) (8 * bs.length)) else BitVec.ofNat 64 (leNat bs)
          SliceDone (.ld f) (u.modCurSlice (fun y => y.setReg f.d v)) s) ∧
        (Here t p → t.badPlace p = true → SliceFaults (.ld f) .memUe (some a) s) ∧
        (∀ q, p = .global [q] → ¬ Here t p → exec (.ld f) s = .next (s.finishSlice (.sleep
          ((numbered t).post ((numbered t).outsideAt t.nextId t.nextId s.cur.who [(0, 0, 0)] q.pa q.attr a
            (.sliceLoad f.d (szSigned f.z) q.len)))
          { id := t.nextId, mask := 0, pc := x.pc, kind := .reply t.nextId, dv := none, dshape := .p64, dq := none, rest := none })))))

/-- ST and STL store the low bytes of d at each lane's address, ascending; a release store at .sys waits for what the lanes have outstanding
outside (R277, R280, R282, R286, R389). It rests on the model's own reading in log entries 6 and 39. -/
def Obligations.StoresStore : Prop :=
  ∀ f : MMem, Stores (.st f) f false (addrOf f.a f.o (szBytes f.z)) ∧ Stores (.stl f) f true (addrOf f.a f.o (szBytes f.z))

/-- LDG and STG move whole granules as 33-byte records at A + 33 k (R283): where every record is accepted, in this package and readable, LDG
writes the eight lanes and the side byte of each row, and STG stores them. It rests on the model's own reading in log entries 39 and 50. -/
def Obligations.GranulesMove : Prop :=
  ∀ (f : MGran) (s : State) (c : Ctx) (t : State),
    let addr := addrOf f.a f.o 33 c
    let n := c.grp.width / 8
    let rows := (c.src.shape f.d).rows
    let placed := fun (k : AccKind) (gs : List (Nat × Nat × Bool)) (at_ : (Nat × Nat × Bool) → Nat → Place) =>
      s.allGranPlaces c (Acc.plain k 1 33 false f.h) addr rows gs =
        (gs.map (fun g => (g, (upto 0 rows).map (fun r => (g.2.1, .ok (at_ g r))))), t)
    let stalled := fun (gs : List (Nat × Nat × Bool)) (at_ : (Nat × Nat × Bool) → Nat → Place) =>
      t.stalls (gs.flatMap (fun g => (upto 0 rows).map (fun r => (g.2.1, .ok (at_ g r)))))
    let places := fun (at_ : (Nat × Nat × Bool) → Nat → Place) => c.granLanes.flatMap (fun g => (upto 0 rows).map (at_ g))
    let stored := c.granLanes.filter (fun g => !g.2.2)
    (Ready (.ldg f) c s → c.src.shape f.a ≠ .p64 → Traps (.ldg f) c (faultOf c .shape) s) ∧
    (∀ at_, Ready (.ldg f) c s → c.src.shape f.a = .p64 → placed .read c.granLanes at_ →
      (stalled c.granLanes at_ = true → Holds (.ldg f) c s) ∧
      (stalled c.granLanes at_ = false →
        let u := t.l1Reads c.core c.wg.asid f.h c.src.ctrl.hint.toNat (t.herePieces (places at_))
        Admits (.ldg f) c (Out.v f.d (c.src.shape f.d) []) t s (
          (∀ g ∈ c.granLanes, ∀ r < rows, u.badPlace (at_ g r) = false) →
          let rec_ := fun (g : Nat × Nat × Bool) => (upto 0 rows).map (fun r => u.readPlace c.wg c.who.grp g.2.1 33 (at_ g r))
          Completes (.ldg f) c
            { Out.v f.d (c.src.shape f.d) (c.granLanes.flatMap (fun g => (upto 0 8).map (fun i => (8 * g.1 + i, recElem (rec_ g) i)))) with
              sides := [(f.d, c.granLanes.flatMap (fun g => lmapIdx (fun k (b : List Byte) => (k * n + g.1, b.getD 32 0)) 0 (rec_ g)))] }
            u id s))) ∧
    (Ready (.stg f) c s → stored = [] → Delivers (.stg f) c Out.none id s) ∧
    (Ready (.stg f) c s → stored ≠ [] → c.src.shape f.a ≠ .p64 → Traps (.stg f) c (faultOf c .shape) s) ∧
    (∀ at_, Ready (.stg f) c s → c.src.shape f.a = .p64 → stored ≠ [] → placed .write stored at_ →
      (stalled stored at_ = true → Holds (.stg f) c s) ∧
      (stalled stored at_ = false →
        DeliversFrom (.stg f) c Out.none t (fun x => stored.foldl (fun x g =>
          (upto 0 rows).foldl (fun x r => x.storePlace c.who c.wg.asid g.2.1 f.h (addr g.2.1)
            ((c.src.vreg f.d).record c.grp.width r g.1) (at_ g r)) x) x) s))

/-- PREF and LINE act on the line of each lane's address (R284, R285): PREF writes nothing and never faults, and does nothing where it fails a
check; WB, INV and WBINV reach the L1, and the L2 and memory from .dev outward; ZERO stores 128 zero bytes. It rests on the model's own
reading in log entries 22 and 39. -/
def Obligations.LinesAreMoved : Prop :=
  ∀ c0 a o n : Nat,
    (∀ (h : Nat) (s : State) (c : Ctx), Ready (.pref c0 a o n h) c s →
      (c.src.shape a ≠ .p64 → Delivers (.pref c0 a o n h) c Out.none id s) ∧
      (c.src.shape a = .p64 → ∀ rs t,
        s.places c.core c.wg (Acc.plain .read 1 1 false 2) (c.act.map (fun l => (l, addrOf a o 128 c l))) = (rs, t) →
        let good := (∀ r ∈ rs, r.2.isOk = true) ∧ t.stalls rs = false
        (¬ good → DeliversFrom (.pref c0 a o n h) c Out.none t id s) ∧
        (good → DeliversFrom (.pref c0 a o n h) c Out.none t (fun x =>
          x.prefetch c.core c.wg.asid n h c.src.ctrl.hint.toNat (t.herePieces (rs.filterMap (fun y => y.2.toOption)))) s))) ∧
    LineWord (.lineWb c0 a o n) false a o (fun c x p => x.writeBackLine c.core (p.pa / 128) (decide (4 ≤ n))) (fun _ x l p => x.cleanPriv l p)
      (fun _ x _ => x) ∧
    LineWord (.lineInv c0 a o n) false a o (fun c x p => x.invalidateLine c.core (p.pa / 128) (decide (4 ≤ n)))
      (fun c x l p => x.exposePriv c l p) (fun _ x _ => x) ∧
    LineWord (.lineWbinv c0 a o n) false a o (fun c x p =>
      (x.writeBackLine c.core (p.pa / 128) (decide (4 ≤ n))).invalidateLine c.core (p.pa / 128) (decide (4 ≤ n)))
      (fun _ x l p => x.cleanPriv l p) (fun _ x _ => x) ∧
    let zeros := List.replicate 128 (0 : Byte)
    LineWord (.lineZero c0 a o n) true a o (fun c x p => (x.l1Write c.core c.wg.asid p 0).writePhys p.pa zeros)
      (fun c x l p => x.writePlace c.who.core c.who.wg c.who.grp l zeros (.priv p))
      (fun c x p => x.writePlace c.who.core c.who.wg c.who.grp 0 zeros (.scratch p))

/-- Fences (R294) wait for the accesses of their lanes that have left the package: a release at .sys for reads and writes (R383, R389), an
acquire for reads (R526); then they have no effect in a memory that is one total order. CACHE acts on the issuing core's L1 (R295). GFENCE
waits while a load or an atomic of its active lanes is still outstanding outside the package, and otherwise only moves on (R195): every other
load has bound its value at issue. It rests on the model's own reading in log entries 6, 25 and 68. -/
def Obligations.FencesAndCacheAct : Prop :=
  (∀ (c0 n : Nat) (s : State) (c : Ctx),
     let fence := fun (i : Instr) (acq rel : Bool) (sc : Nat) => Ready i c s →
       let waits := (rel = true ∧ sc = 5 ∧ s.sysHeld c = true) ∨ (acq = true ∧ s.readsOut c = true)
       (waits → Holds i c s) ∧ (¬ waits → Delivers i c Out.none id s)
     let lines := fun (x : State) (g : State → Nat → State) =>
       (((x.core c.core).l1.filter (fun y => decide (y.asid = c.wg.asid))).map (·.pline)).foldl g x
     fence (.fence c0 n) true true n ∧ fence (.fenceAcq c0 n) true false n ∧ fence (.fenceRel c0 n) false true n ∧
     fence (.fenceLayer c0) true true 3 ∧
     (Ready (.cacheIfetch c0) c s → Delivers (.cacheIfetch c0) c Out.none id s) ∧
     (Ready (.cacheWb c0) c s → Delivers (.cacheWb c0) c Out.none (fun x => lines x (fun y l => y.writeBackLine c.core l false)) s) ∧
     (Ready (.cacheWbinv c0) c s →
       Delivers (.cacheWbinv c0) c Out.none (fun x => lines x (fun y l => (y.writeBackLine c.core l false).dropOwn c.core l)) s)) ∧
  ∀ (c0 l g st : Nat) (s : State) (c : Ctx), Ready (.gfence c0 l g st) c s →
    let mine := fun (o : Outside) => decide (o.who = c.who) && o.lanes.any (fun y => c.act.contains y.1) && (match o.work with
      | .load _ _ _ _ => true
      | .atomic _ _ _ => true
      | _ => false)
    (s.pkg.outside.any mine = true → Holds (.gfence c0 l g st) c s) ∧
    (s.pkg.outside.any mine = false → exec (.gfence c0 l g st) s = .next (c.finish (s.uses (.gfence c0 l g st)) s (.done s)))

/-- The fifteen ATOM operations, each performed lane by lane in ascending order, the old values returned when R = 1 (R289 to R292), zeros in
helper lanes (R286): where all lanes go to the scratchpad or to private windows, or one goes to global memory of this package, the word
completes at once with the old values; where the checks refuse, it traps. It rests on the model's own reading in log entries 6, 24 and 39. -/
def Obligations.AtomicsPerform : Prop :=
  ∀ f : AAtom,
    AtomWord (.atomAdd f) 0 f ∧ AtomWord (.atomMin f) 1 f ∧ AtomWord (.atomMax f) 2 f ∧ AtomWord (.atomNmin f) 3 f ∧
    AtomWord (.atomNmax f) 4 f ∧ AtomWord (.atomAnd f) 5 f ∧ AtomWord (.atomOr f) 6 f ∧ AtomWord (.atomXor f) 7 f ∧
    AtomWord (.atomXchg f) 8 f ∧ AtomWord (.atomCas f) 9 f ∧ AtomWord (.atomFadd f) 10 f ∧ AtomWord (.atomFmin f) 11 f ∧
    AtomWord (.atomFmax f) 12 f ∧ AtomWord (.atomIncw f) 13 f ∧ AtomWord (.atomDecw f) 14 f

/-- The new value of each atomic operation on W bits, from the old value o, the operand x and the compare value y (R290). -/
def Obligations.AtomicValuesAreThoseOfTheTable : Prop :=
  ∀ (w : Nat) (o x y : BitVec w), w = 32 ∨ w = 64 →
    let new := fun aop => atomNew aop w o.toNat x.toNat y.toNat
    new 0 = (o + x).toNat ∧
    new 1 = (if x.toInt < o.toInt then x else o).toNat ∧ new 2 = (if o.toInt < x.toInt then x else o).toNat ∧
    new 3 = (if x < o then x else o).toNat ∧ new 4 = (if o < x then x else o).toNat ∧
    new 5 = (o &&& x).toNat ∧ new 6 = (o ||| x).toNat ∧ new 7 = (o ^^^ x).toNat ∧ new 8 = x.toNat ∧
    new 9 = (if o = y then x else o).toNat ∧
    new 10 = roundN (fmtOf w) 1 (addFV 1 (decodeF (fmtOf w) o.toNat) (decodeF (fmtOf w) x.toNat)) ∧
    new 11 = fminBits (fmtOf w) false o.toNat x.toNat ∧ new 12 = fminBits (fmtOf w) true o.toNat x.toNat ∧
    new 13 = (if x ≤ o then 0 else o + 1).toNat ∧
    new 14 = (if o = 0 ∨ x < o then x else o - 1).toNat

/-! ## System instructions -/

/-- NOP does nothing (R242), TRAP raises TRAP_INSTR with its code (R259), ERET ends the handler and sends its lanes to `trappc`, ILLEGAL_OP
with no handler, an abort with a `trappc` that is no multiple of 4 (R262); SLEEP n sleeps until cycle t + 1 + n (R247). REP repeats the word
after it, n + 1 times with its increments (R43 to R47); where that word carries C = 1 it is an illegal chain named at that word, and where it
may not be repeated so it is ILLEGAL_OP (R46). It rests on the model's own reading in log entry 72. -/
def Obligations.TrapReturnSleepAndRepeatAct : Prop :=
  (∀ (c0 n : Nat) (s : State),
     (∀ c, Ready (.nop c0) c s → Does (.nop c0) c s s) ∧
     (∀ x, SliceReady (.nop c0) x s → SliceDone (.nop c0) s s) ∧
     (∀ c, Ready (.trap c0 n) c s → Traps (.trap c0 n) c ⟨.trapInstr, c.mask, BitVec.ofNat 64 n⟩ s) ∧
     (∀ c, Ready (.eret c0) c s →
       (c.grp.ctrl.trapH = false → Traps (.eret c0) c ⟨.illegalOp, listMask c.path, 0⟩ s) ∧
       (c.grp.ctrl.trapH = true → c.grp.ctrl.trappc.toNat % 4 ≠ 0 →
         exec (.eret c0) s = .next (c.finish (s.uses (.eret c0)) s (.abort c.grp.ctrl.trapcause s))) ∧
       (c.grp.ctrl.trapH = true → c.grp.ctrl.trappc.toNat % 4 = 0 → Does (.eret c0) c
         ((s.modCur (fun g => { g with ctrl := { g.ctrl with trapH := false } })).goTo
           (c.act.map (fun l => (l, c.grp.ctrl.trappc.toNat / 4)))) s)) ∧
     (∀ c, Ready (.sleep c0 n) c s →
       (n = 0 → Does (.sleep c0 n) c s s) ∧
       (n ≠ 0 → exec (.sleep c0 n) s = .next (c.finish (s.uses (.sleep c0 n)) s (.sleep { s with nextId := s.nextId + 1 }
         (c.waitFor s.nextId (.sleep (s.cycle + 1 + n)) none .p32 none)))))) ∧
  ∀ (n d a b : Nat) (s : State) (c : Ctx), Ready (.rep n d a b) c s →
    let r : Rep := { idx := 0, last := n, incd := d, inca := a, incb := b }
    (∀ e t, s.fetchCur (c.pc + 1) = (.error e, t) → exec (.rep n d a b) s = .next (c.finish (s.uses (.rep n d a b)) s (.again r t))) ∧
    (∀ w t, s.fetchCur (c.pc + 1) = (.ok w, t) → chainBit w.toNat = false → repForbids w.toNat = false → repBadInc w.toNat d a b = false →
      exec (.rep n d a b) s = .next (c.finish (s.uses (.rep n d a b)) s (.again r t))) ∧
    (∀ w t, s.fetchCur (c.pc + 1) = (.ok w, t) → chainBit w.toNat = false → (repForbids w.toNat = true ∨ repBadInc w.toNat d a b = true) →
      TrapsIn (.rep n d a b) c ⟨.illegalOp, listMask c.path, 0⟩ t s) ∧
    (∀ w t, s.fetchCur (c.pc + 1) = (.ok w, t) → chainBit w.toNat = true →
      TrapsIn (.rep n d a b) c ⟨.illegalChain, listMask c.path, 0⟩ { t with cur := { t.cur with pc := c.pc + 1 } } s)

/-- CRR, CRW, CRSET and CRCLR act once for the group on the register that the map names, from the lowest active lane's P32 (R244); a number
that names none is ILLEGAL_OP. -/
def Obligations.ControlRegisterWordsAct : Prop :=
  ∀ (c0 a d r : Nat) (s : State) (c : Ctx),
    let writes := fun (i : Instr) (f : W32 → W32 → W32) => Ready i c s →
      (s.controlReg c r = none → Traps i c ⟨.illegalOp, listMask c.path, 0⟩ s) ∧
      (∀ old, s.controlReg c r = some old → c.src.shape a ≠ .p32 → Traps i c (faultOf c .shape) s) ∧
      (∀ old, s.controlReg c r = some old → c.src.shape a = .p32 →
        Does i c (s.modCur (fun g => g.writeControl r (f old ((c.src.read a c.low).setWidth 32)))) s)
    (Ready (.crr c0 d r) c s →
      (s.controlReg c r = none → Traps (.crr c0 d r) c ⟨.illegalOp, listMask c.path, 0⟩ s) ∧
      ∀ v, s.controlReg c r = some v → Delivers (.crr c0 d r) c (Out.v d .p32 (lanes c (fun _ => v.setWidth 128))) id s) ∧
    writes (.crw c0 a r) (fun _ x => x) ∧ writes (.crset c0 a r) (fun old x => old ||| x) ∧
    writes (.crclr c0 a r) (fun old x => old &&& ~~~x)

/-- The control register map: what each number reads (R87, R91, R92, R227, R245, R246), reserved bits as zero, and no other number named. -/
def Obligations.ControlRegisterMapReads : Prop :=
  ∀ (s : State) (c : Ctx),
    let k := c.src.ctrl
    let low : BitVec 64 → W32 := fun v => v.setWidth 32
    let high : BitVec 64 → W32 := fun v => (v >>> 32).setWidth 32
    s.controlReg c 0x000 = some (k.round.setWidth 32) ∧ s.controlReg c 0x001 = some (if k.stallchk then 1 else 0) ∧
    s.controlReg c 0x002 = some (low (k.trapbase.setWidth 64)) ∧ s.controlReg c 0x003 = some (high (k.trapbase.setWidth 64)) ∧
    s.controlReg c 0x004 = some k.seed ∧ s.controlReg c 0x005 = some k.smxscale ∧ s.controlReg c 0x006 = some (k.hint.setWidth 32) ∧
    s.controlReg c 0x007 = some ((BitVec.ofNat 15 c.src.quota).setWidth 32) ∧ s.controlReg c 0x008 = some k.q4scale ∧
    s.controlReg c 0x009 = some ((BitVec.ofBool k.trapH ++ BitVec.ofBool k.trapA ++ k.trapcause : BitVec 10).setWidth 32) ∧
    s.controlReg c 0x00A = some (low (k.trappc.setWidth 64)) ∧ s.controlReg c 0x00B = some (high (k.trappc.setWidth 64)) ∧
    s.controlReg c 0x00C = some (low k.trapmask) ∧ s.controlReg c 0x00D = some (high k.trapmask) ∧
    s.controlReg c 0x00E = some (low k.trapaddr) ∧ s.controlReg c 0x00F = some (high k.trapaddr) ∧
    s.controlReg c 0x100 = some ((4#3 ++ 16#5 ++ 32#6 ++ 4#4 : BitVec 18).setWidth 32) ∧
    s.controlReg c 0x101 = some ((BitVec.ofNat 16 c.wg.asid).setWidth 32) ∧
    s.controlReg c 0x102 = some ((BitVec.ofNat 5 (s.core c.core).duty).setWidth 32) ∧
    s.controlReg c 0x103 = some ((BitVec.ofNat 16 c.wg.ctxid).setWidth 32) ∧
    s.controlReg c 0x104 = some (low ((BitVec.ofNat 55 c.wg.savebase).setWidth 64)) ∧
    s.controlReg c 0x105 = some (high ((BitVec.ofNat 55 c.wg.savebase).setWidth 64)) ∧
    ∀ r, (0x010 ≤ r ∧ r ≤ 0x0FF) ∨ 0x106 ≤ r → s.controlReg c r = none

/-- What a control register write leaves (R12, R87, R245): each named field takes its bits, reserved and read-only bits stay, `round` ignores
a reserved mode, `hint` a count of 0. -/
def Obligations.ControlRegisterWritesKeepReservedBits : Prop :=
  ∀ (k : CtrlRegs) (x : W32),
    k.write 0x000 x = (if x.setWidth 3 = 0#3 ∨ x.setWidth 3 = 7#3 then k else { k with round := x.setWidth 3 }) ∧
    k.write 0x001 x = { k with stallchk := x.getLsbD 0 } ∧
    k.write 0x002 x = { k with trapbase := (k.trapbase >>> 32).setWidth 23 ++ x } ∧
    k.write 0x003 x = { k with trapbase := x.setWidth 23 ++ k.trapbase.setWidth 32 } ∧
    k.write 0x004 x = { k with seed := x } ∧ k.write 0x005 x = { k with smxscale := x } ∧
    k.write 0x006 x = (if x.setWidth 4 = 0#4 then k else { k with hint := x.setWidth 4 }) ∧
    k.write 0x007 x = k ∧ k.write 0x008 x = { k with q4scale := x } ∧
    k.write 0x009 x = { k with trapA := x.getLsbD 8, trapcause := x.setWidth 8 } ∧
    k.write 0x00A x = { k with trappc := (k.trappc >>> 32).setWidth 23 ++ x } ∧
    k.write 0x00B x = { k with trappc := x.setWidth 23 ++ k.trappc.setWidth 32 } ∧
    k.write 0x00C x = { k with trapmask := (k.trapmask >>> 32).setWidth 32 ++ x } ∧
    k.write 0x00D x = { k with trapmask := x ++ k.trapmask.setWidth 32 } ∧
    k.write 0x00E x = { k with trapaddr := (k.trapaddr >>> 32).setWidth 32 ++ x } ∧
    k.write 0x00F x = { k with trapaddr := x ++ k.trapaddr.setWidth 32 } ∧
    ∀ r, 0x010 ≤ r → k.write r x = k

/-- QUOTA moves n granules of the issuing group's quota to another group that is resident, and writes T; F where there is none; it waits for a
held-back free, else QUOTA, where the group has not n to spare (R241). TLBINV invalidates a page, an ASID or everything at each cluster it
reaches (R248, R328). It rests on the model's own reading in log entries 16 and 23. -/
def Obligations.QuotaMovesAndTranslationsGo : Prop :=
  (∀ (c0 q a b : Nat) (s : State) (c : Ctx),
     let i : Instr := .quota c0 q a b
     Ready i c s →
     let g := ((c.src.read a c.low).setWidth 32 : W32).toNat
     let n := ((c.src.read b c.low).setWidth 32 : W32).toNat
     let there := g ≠ c.who.grp ∧ ∃ y, c.wg.group g = some y ∧ y.retired = false
     (c.src.shape a ≠ .p32 ∨ c.src.shape b ≠ .p32 → Traps i c (faultOf c .shape) s) ∧
     (c.src.shape a = .p32 → c.src.shape b = .p32 → ¬ there → Delivers i c (Out.q q (preds c (fun _ => .f))) id s) ∧
     (c.src.shape a = .p32 → c.src.shape b = .p32 → there → n ≤ c.grp.quota - c.grp.used →
       Delivers i c (Out.q q (preds c (fun _ => .t))) (fun t =>
         (t.modCur (fun y => { y with quota := y.quota - n })).modGroup c.core c.who.wg g (fun y => { y with quota := y.quota + n })) s) ∧
     (c.src.shape a = .p32 → c.src.shape b = .p32 → there → c.grp.quota - c.grp.used < n → c.grp.frees ≠ [] → Holds i c s) ∧
     (c.src.shape a = .p32 → c.src.shape b = .p32 → there → c.grp.quota - c.grp.used < n → c.grp.frees = [] →
       Traps i c (faultOf c .quota) s)) ∧
  ∀ (c0 a : Nat) (s : State) (c : Ctx),
    (Ready (.tlbinvPage c0 a) c s → c.src.shape a ≠ .p64 → Traps (.tlbinvPage c0 a) c (faultOf c .shape) s) ∧
    (Ready (.tlbinvPage c0 a) c s → c.src.shape a = .p64 →
      Invalidates (.tlbinvPage c0 a) 0 (fun c => ((c.src.read a c.low).setWidth 64 : W64).toNat) s c) ∧
    (Ready (.tlbinvAsid c0) c s → Invalidates (.tlbinvAsid c0) 1 (fun _ => 0) s c) ∧
    (Ready (.tlbinvAll c0) c s → Invalidates (.tlbinvAll c0) 2 (fun _ => 0) s c)

/-- FWCALL returns the reply of its service (R249, R511): version, temperature, forecast, cap, lifetime counter, half-row cores; all ones for
an argument out of range and for an unlisted service. It rests on the model's own reading in log entries 16 and 60. -/
def Obligations.FirmwareCallsReply : Prop :=
  ∀ c0 d a v : Nat,
    let ones := BitVec.allOnes 64
    FirmwareCall (.fwcallVersion c0 d a) d a (fun _ s x => if x = 0 then Config.firmwareVersion s.pkg.fwSlot else ones) ∧
    FirmwareCall (.fwcallTemperature c0 d a) d a (fun c s x =>
      if x.toNat < 96 then BitVec.ofInt 64 (tgetD (s.die (c.core / 96)).sensors x.toNat 0) else ones) ∧
    FirmwareCall (.fwcallForecast c0 d a) d a (fun c s x =>
      if x.toNat < 96 then BitVec.ofInt 64 (tgetD (s.die (c.core / 96)).forecast x.toNat 0) else ones) ∧
    FirmwareCall (.fwcallCap c0 d a) d a (fun c s x =>
      if x.toNat = c.wg.part then match tget s.pkg.parts c.wg.part with
        | none => BitVec.ofNat 64 (16 * 2 ^ 32)
        | some p => BitVec.ofNat 64 (p.cap.toNat + p.k % 32 * 2 ^ 32)
      else ones) ∧
    FirmwareCall (.fwcallCounter c0 d a) d a (fun _ s x => if x.toNat ≤ 0x5EC then tgetD s.pkg.lifetime x.toNat 0 else ones) ∧
    FirmwareCall (.fwcallHalfRow c0 d a) d a (fun c s x =>
      if x = 0 then listMask ((upto 0 64).filter (fun n => (s.core (96 * (c.core / 96) + n)).halfRow)) else ones) ∧
    FirmwareCall (.fwcallUnlisted c0 d a v) d a (fun _ _ _ => ones)

/-! ## Synchronisation in scratch -/

/-- SWINIT sets a sync word's target and count and keeps its generation, SWADD adds, advancing the generation once for each whole target
(R299), and SWWAIT completes at once when the generation differs, else sleeps; a recorded copy fault comes first (R303, R304). It rests on the
model's own reading in log entry 30. -/
def Obligations.SyncWordsAct : Prop :=
  ∀ (c0 a b : Nat) (s : State) (c : Ctx),
    let word := fun (w : Workgroup) (off : Nat) => (BitVec.ofNat 64 (w.word off))
    let field := fun (x : BitVec 64) (hi lo : Nat) => (x.extractLsb hi lo).toNat
    let object := fun (i : Instr) (k : Nat → Prop) => Ready i c s →
      (c.src.shape a ≠ .p64 ∨ c.src.shape b ≠ .p32 → Traps i c (faultOf c .shape) s) ∧
      (c.src.shape a = .p64 → c.src.shape b = .p32 →
        ((low64 c a).toNat % 8 ≠ 0 → Traps i c (faultFor c .misaligned (low64 c a)) s) ∧
        ((low64 c a).toNat % 8 = 0 →
          ¬ (scratchBase ≤ (low64 c a).toNat ∧ (low64 c a).toNat + 8 ≤ scratchBase + c.wg.scratchBytes) →
          Traps i c (faultFor c .access (low64 c a)) s) ∧
        ∀ off, (low64 c a).toNat = scratchBase + off → (low64 c a).toNat % 8 = 0 → off + 8 ≤ c.wg.scratchBytes → k off)
    object (.swinit c0 a b) (fun off => Delivers (.swinit c0 a b) c Out.none (onWg (fun w =>
      w.setWord off ((low32 c b).toNat % 2 ^ 24 * 2 ^ 40 + field (word w off) 15 0))) s) ∧
    object (.swadd c0 a b) (fun off => Delivers (.swadd c0 a b) c Out.none (onWg (fun w =>
      let target := field (word w off) 63 40
      let count := field (word w off) 39 16 + (low32 c b).toNat % 2 ^ 24
      let gen := field (word w off) 15 0
      w.setWord off (if target = 0 then target * 2 ^ 40 + count % 2 ^ 24 * 2 ^ 16 + gen
        else target * 2 ^ 40 + count % target * 2 ^ 16 + (gen + count / target) % 2 ^ 16))) s) ∧
    object (.swwait c0 a b) (fun off =>
      (∀ f, c.grp.copyFault = some f → f.sync = off → exec (.swwait c0 a b) s = .next (c.finish (s.uses (.swwait c0 a b)) s
        (.trap ⟨f.cause, f.mask, f.addr⟩ true (s.modCur (fun g => { g with copyFault := none }))))) ∧
      ((∀ f, c.grp.copyFault = some f → f.sync ≠ off) →
        (field (word c.wg off) 15 0 ≠ (low32 c b).toNat % 2 ^ 16 → Delivers (.swwait c0 a b) c Out.none id s) ∧
        (field (word c.wg off) 15 0 = (low32 c b).toNat % 2 ^ 16 → Sleeps (.swwait c0 a b) c (numbered s)
          (c.waitFor s.nextId (.sync off ((low32 c b).toNat % 2 ^ 16)) none .p32 none) s)))

/-- The barrier objects (R311 to R314): BARINIT starts phase 0 with n expected; BARRIVE and BARDROP deliver the phase and count k arrivals,
BARDROP lowers the next count too, and where nothing remains the phase advances and the sleepers test; too large a k sets the overrun bit and
raises BAR_OVERRUN; BARWAIT writes T once the phase differs, else sleeps up to its bound, a bound of 0 ending it this cycle. An operand of
another shape is SHAPE, an address that is no multiple of 16 MISALIGNED, and one outside scratch ACCESS. -/
def Obligations.BarrierObjectsAct : Prop :=
  ∀ (c0 d q a b e : Nat) (s : State) (c : Ctx),
    let p := (low64 c a).toNat
    let n := (low32 c b).toNat % 2 ^ 16
    let object := fun (i : Instr) (out : Out) (shapes : Prop) (k : Nat → BarObj → Prop) => Ready i c s →
      (¬ shapes → Traps i c (faultOf c .shape) s) ∧
      (shapes → Fits i c out s → p % 16 ≠ 0 → Traps i c (faultFor c .misaligned (low64 c a)) s) ∧
      (shapes → Fits i c out s → p % 16 = 0 → ¬ (scratchBase ≤ p ∧ p + 16 ≤ scratchBase + c.wg.scratchBytes) →
        Traps i c (faultFor c .access (low64 c a)) s) ∧
      (shapes → ∀ off, p = scratchBase + off → p % 16 = 0 → off + 16 ≤ c.wg.scratchBytes → k off (c.wg.bar off))
    let ab := c.src.shape a = .p64 ∧ c.src.shape b = .p32
    let arrive := fun (i : Instr) (drop : Bool) => object i (Out.v d .p32 []) ab (fun off o =>
      let bad := o.remaining < n ∨ (drop = true ∧ o.nextCount < n)
      let next := if drop then o.nextCount - n else o.nextCount
      let advances := o.remaining = n ∧ 0 < n
      let after : BarObj := if advances then { o with phase := (o.phase + 1) % 16, expected := next, remaining := next, nextCount := next }
        else { o with remaining := o.remaining - n, nextCount := next }
      (bad → Fits i c (Out.v d .p32 (lanes c (fun _ => elemN o.phase))) s →
        TrapsIn i c (faultFor c .barOverrun (low64 c a)) (onWg (fun w => w.setBar off { w.bar off with overrun := true }) s) s) ∧
      (¬ bad → Gives i c d .p32 (elemN o.phase) (fun t =>
        let u := onWg (fun w => w.setBar off after) t
        if advances then u.next (c.wg.barWakes c.core c.who.wg off) else u) s))
    object (.barinit c0 a b) Out.none ab (fun off _ => Delivers (.barinit c0 a b) c Out.none (onWg (fun w => w.setBar off
      { overrun := false, phase := 0, remaining := n, expected := n, nextCount := n, waiters := (w.bar off).waiters })) s) ∧
    arrive (.barrive c0 d a b) false ∧ arrive (.bardrop c0 d a b) true ∧
    object (.barwait c0 q a b e) Out.none (ab ∧ c.src.shape e = .p32) (fun off o =>
      let i : Instr := .barwait c0 q a b e
      let bound := (low32 c e).toNat
      let t := onWg (fun w => w.setBar off { w.bar off with waiters := (w.bar off).waiters + 1 }) (numbered s)
      (o.phase ≠ (low32 c b).toNat % 16 → Decides i c q .t id s) ∧
      (o.phase = (low32 c b).toNat % 16 → Sleeps i c
        (if bound = 0 then { t with agenda := t.agenda ++ [.event (.barwaitBoundExpiry c.core c.who.wg c.who.grp s.nextId)] } else t)
        (c.waitFor s.nextId (.bar off o.phase (if bound = 0xFFFFFFFF then none else some (s.cycle + bound))) none .p32 (some q)) s))

/-- The named queues (R305 to R308): QPUSH appends, QPOP takes the head, QTRY takes it or writes F; a full or an empty queue puts QPUSH or
QPOP to sleep with its waiter bit set; a malformed descriptor raises QUEUE_FAULT at its address. A slice does the same (R252). -/
def Obligations.QueuesMoveValues : Prop :=
  ∀ (c0 d q a n : Nat) (s : State),
    (∀ c, Ready (.qpush c0 a n) c s → (c.src.shape a).isIv = false →
      (queueOk c.wg n = false → Traps (.qpush c0 a n) c (faultFor c .queueFault (BitVec.ofNat 64 (scratchBase + 32 * n))) s) ∧
      (queueOk c.wg n = true → queueLen c.wg n ≠ queueCap c.wg n →
        Delivers (.qpush c0 a n) c Out.none (fun t => t.curBank n (fun w => queuePush w n (low64 c a))) s) ∧
      (queueOk c.wg n = true → queueLen c.wg n = queueCap c.wg n → Sleeps (.qpush c0 a n) c
        (onWg (fun w => queueMark w n c.who.grp true true) (numbered s)) (c.waitFor s.nextId (.push n (low64 c a)) none .p32 none) s)) ∧
    (∀ c, Ready (.qpush c0 a n) c s → (c.src.shape a).isIv = true → Traps (.qpush c0 a n) c (faultOf c .shape) s) ∧
    (∀ c, Ready (.qpop c0 d n) c s →
      (queueOk c.wg n = true → queueLen c.wg n ≠ 0 →
        Gives (.qpop c0 d n) c d .p64 ((queueFront c.wg n).setWidth 128) (fun t => t.curBank n (fun w => queuePop w n)) s) ∧
      (queueOk c.wg n = true → queueLen c.wg n = 0 → SleepsOn (.qpop c0 d n) c (Out.v d .p64 [])
        (onWg (fun w => queueMark w n c.who.grp false true) (numbered s)) (c.waitFor s.nextId (.pop n) (some d) .p64 none) s) ∧
      (queueOk c.wg n = false → Fits (.qpop c0 d n) c (Out.v d .p64 []) s →
        Traps (.qpop c0 d n) c (faultFor c .queueFault (BitVec.ofNat 64 (scratchBase + 32 * n))) s)) ∧
    (∀ c, Ready (.qtry c0 d q n) c s →
      (queueOk c.wg n = true → queueLen c.wg n = 0 → Decides (.qtry c0 d q n) c q .f id s) ∧
      (queueOk c.wg n = true → queueLen c.wg n ≠ 0 → Delivers (.qtry c0 d q n) c
        { Out.v d .p64 (lanes c (fun _ => (queueFront c.wg n).setWidth 128)) with qs := [(q, preds c (fun _ => .t))] }
        (fun t => t.curBank n (fun w => queuePop w n)) s) ∧
      (queueOk c.wg n = false → Fits (.qtry c0 d q n) c (Out.v d .p64 []) s →
        Traps (.qtry c0 d q n) c (faultFor c .queueFault (BitVec.ofNat 64 (scratchBase + 32 * n))) s)) ∧
    ∀ x w, s.curWg = some w →
      (SliceReady (.qpush c0 a n) x s →
        (queueOk w n = false → SliceFaults (.qpush c0 a n) .queueFault none s) ∧
        (queueOk w n = true → queueLen w n ≠ queueCap w n →
          SliceDone (.qpush c0 a n) (s.curBank n (fun w => queuePush w n (x.reg a))) s) ∧
        (queueOk w n = true → queueLen w n = queueCap w n → SliceSleeps (.qpush c0 a n)
          (onWg (fun w => queueMark w n 16 true true) (numbered s)) (x.waitFor s.nextId (.push n (x.reg a)) none) s)) ∧
      (SliceReady (.qpop c0 d n) x s →
        (queueOk w n = false → SliceFaults (.qpop c0 d n) .queueFault none s) ∧
        (queueOk w n = true → queueLen w n ≠ 0 → SliceDone (.qpop c0 d n)
          ((s.curBank n (fun w => queuePop w n)).modCurSlice (fun y => y.setReg d (queueFront w n))) s) ∧
        (queueOk w n = true → queueLen w n = 0 → SliceSleeps (.qpop c0 d n)
          (onWg (fun w => queueMark w n 16 false true) (numbered s)) (x.waitFor s.nextId (.pop n) (some d)) s)) ∧
      (SliceReady (.qtry c0 d q n) x s →
        (queueOk w n = false → SliceFaults (.qtry c0 d q n) .queueFault none s) ∧
        (queueOk w n = true → queueLen w n = 0 → SliceDoes (.qtry c0 d q n) (fun y => y.setPred q .f) s) ∧
        (queueOk w n = true → queueLen w n ≠ 0 → SliceDone (.qtry c0 d q n)
          ((s.curBank n (fun w => queuePop w n)).modCurSlice (fun y => (y.setReg d (queueFront w n)).setPred q .t)) s))

/-- The network barriers (R333 to R336): an index at or above the packet's count is ACCESS; NBARRIVE delivers the generation and counts k
arrivals; NBARSET adds to the current or a coming generation; NBARWAIT writes T once the generation differs, else sleeps up to its bound, a
bound of 0 ending it this cycle. An operand of another shape is SHAPE. -/
def Obligations.NetworkBarriersAct : Prop :=
  ∀ (c0 d q a b e k : Nat) (s : State) (c : Ctx),
    let n := (low32 c a).toNat % 2 ^ 16
    let put := fun (x : NetBar) (t : State) => t.setNetBar (coreDie c.core) c.wg.packet k x
    let arrive := fun (i : Instr) (drop : Bool) => Ready i c s → (c.src.shape a ≠ .p32 → Traps i c (faultOf c .shape) s) ∧ (c.src.shape a = .p32 →
      (s.netBar c.core c.wg k = none → Fits i c (Out.v d .p32 []) s → Traps i c (faultFor c .access (BitVec.ofNat 64 k)) s) ∧
      ∀ x, s.netBar c.core c.wg k = some x →
        let bad := x.expected - x.arrived < n ∨ (drop = true ∧ x.next < n)
        let next := if drop then x.next - n else x.next
        let advances := x.arrived + n = x.expected ∧ 0 < n
        let coming := next + tgetD x.joins (x.gen + 1).toNat 0
        let after : NetBar := if advances then
            { gen := x.gen + 1, expected := coming, arrived := 0, next := coming, joins := tdel x.joins (x.gen + 1).toNat }
          else { x with arrived := x.arrived + n, next := next }
        (bad → Fits i c (Out.v d .p32 []) s → Traps i c (faultFor c .barOverrun (BitVec.ofNat 64 k)) s) ∧
        (¬ bad → Gives i c d .p32 (x.gen.setWidth 128) (fun t =>
          if advances then (put after t).next ((put after t).nbarWakes (coreDie c.core) c.wg.packet k) else put after t) s))
    arrive (.nbarrive c0 d a k) false ∧ arrive (.nbarriveDrop c0 d a k) true ∧
    (Ready (.nbarwait c0 q a e k) c s → ¬ (c.src.shape a = .p32 ∧ c.src.shape e = .p32) → Traps (.nbarwait c0 q a e k) c (faultOf c .shape) s) ∧
    (Ready (.nbarwait c0 q a e k) c s → c.src.shape a = .p32 → c.src.shape e = .p32 →
      let i : Instr := .nbarwait c0 q a e k
      let bound := (low32 c e).toNat
      (s.netBar c.core c.wg k = none → Traps i c (faultFor c .access (BitVec.ofNat 64 k)) s) ∧
      ∀ x, s.netBar c.core c.wg k = some x →
        (x.gen.toNat ≠ n → Decides i c q .t id s) ∧
        (x.gen.toNat = n → Sleeps i c
          (if bound = 0 then
            { numbered s with agenda := s.agenda ++ [.event (.nbarwaitBoundExpiry c.core c.who.wg c.who.grp s.nextId)] } else numbered s)
          (c.waitFor s.nextId (.nbar k n (if bound = 0xFFFFFFFF then none else some (s.cycle + bound))) none .p32 (some q)) s)) ∧
    (Ready (.nbarset c0 q a b k) c s → ¬ (c.src.shape a = .p32 ∧ c.src.shape b = .p32) → Traps (.nbarset c0 q a b k) c (faultOf c .shape) s) ∧
    (Ready (.nbarset c0 q a b k) c s → c.src.shape a = .p32 → c.src.shape b = .p32 →
      let i : Instr := .nbarset c0 q a b k
      let g := (low32 c b).toNat % 2 ^ 16
      (s.netBar c.core c.wg k = none → Traps i c (faultFor c .access (BitVec.ofNat 64 k)) s) ∧
      ∀ x, s.netBar c.core c.wg k = some x →
        let ahead := (g + 2 ^ 16 - x.gen.toNat) % 2 ^ 16
        let bad := 32768 ≤ ahead ∨ (0 < ahead ∧ ((8 ≤ x.joins.length ∧ tget x.joins g = none) ∨ 65535 < x.next + n)) ∨
          (ahead = 0 ∧ 65535 < x.expected + n)
        (bad → Decides i c q .f id s) ∧
        (¬ bad → ahead = 0 → Decides i c q .t (put { x with expected := x.expected + n, next := x.next + n }) s) ∧
        (¬ bad → 0 < ahead → Decides i c q .t (put { x with joins := tset x.joins g (tgetD x.joins g 0 + n) }) s))

/-! ## Launch words -/

/-- RGRAB takes indices from its cluster's descriptor (R342); SREAD delivers the launch values (R411), TIME the timestamp (R412), ENERGY and
ENERGY.Q energy counters (R509). ENQ reads 64 bytes at each lane's address, checks every lane's packet, and appends them in ascending lane
order, T where one was taken and F where its ring is full (R405 to R407); a wrong packet is ENQ_FAULT of its lanes with no effect. It rests on
the model's own reading in log entries 56, 61 and 81. -/
def Obligations.LaunchWordsReply : Prop :=
  (∀ (c0 d a b k : Nat) (s : State) (c : Ctx),
     let cl := coreCluster c.core
     let grabbed := fun (w : Workgroup) => { w with grabbed := true }
     (Ready (.rgrab c0 d k) c s →
       let r := (s.cluster cl).range k
       let rem := r.fin.toNat - r.next.toNat
       let n := if r.asid ≠ c.wg.asid ∨ r.fin.toNat ≤ r.next.toNat then 0
         else min rem (max (max r.min.toNat 1) ((rem + max r.div.toNat 1 - 1) / max r.div.toNat 1))
       Gives (.rgrab c0 d k) c d .p64 (elemN (n * 2 ^ 32 + r.next.toNat)) (fun t => onWg grabbed
         (t.modCluster cl (fun y => { y with ranges := tset y.ranges k { r with next := r.next + BitVec.ofNat 32 n } }))) s) ∧
     (Ready (.rgrabSet c0 a b k) c s →
       (c.src.shape a ≠ .p64 ∨ c.src.shape b ≠ .p32 → Traps (.rgrabSet c0 a b k) c (faultOf c .shape) s) ∧
       (c.src.shape a = .p64 → c.src.shape b = .p32 →
         let r : RangeDesc := { fin := (low64 c a).extractLsb' 32 32, next := (low64 c a).extractLsb' 0 32, asid := c.wg.asid,
                                min := (low32 c b).extractLsb' 16 16, div := (low32 c b).extractLsb' 0 16 }
         Delivers (.rgrabSet c0 a b k) c Out.none (fun t => onWg grabbed
           (t.modCluster cl (fun y => { y with ranges := tset y.ranges k r }))) s)) ∧
     (Ready (.sread c0 d k) c s →
       (23 ≤ k → Traps (.sread c0 d k) c ⟨.illegalOp, listMask c.path, 0⟩ s) ∧
       (k < 23 →
         let p := c.wg.launch
         let values : Nat → List Nat := fun l =>
           let word := fun (j : Nat) => ((c.grp.lane l).record.map BitVec.toNat).getD 0 / 2 ^ (32 * j)
           [l, c.who.grp, c.wg.width, c.wg.wx, c.wg.wy, c.wg.wz, lpGridX p, lpGridY p, lpGridZ p, coreSite c.core, coreSite c.core / 4,
            coreDie c.core, if s.pkg.self = 127 then 0 else s.pkg.self.toNat, c.wg.part,
            if c.wg.source = 256 then 0xFFFFFFFF else coreDie c.core * 256 + c.wg.source, lpArgs p, lpArgs p / 2 ^ 32, c.wg.depth,
            if (c.grp.lane l).helper then 1 else 0, word 0, word 1, word 2, word 3]
         Delivers (.sread c0 d k) c (Out.v d .p32 (lanes c (fun l => elemN ((values l).getD k 0 % 2 ^ 32)))) id s)) ∧
     (Ready (.time c0 d) c s → Gives (.time c0 d) c d .p64 (s.timestamp.setWidth 128) id s) ∧
     (Ready (.energy c0 d) c s → Gives (.energy c0 d) c d .p64 ((s.energyOf c.core c.wg).setWidth 128) id s) ∧
     (Ready (.energyQ c0 d a) c s → c.src.shape a = .p32 →
       let n := (low32 c a).toNat
       let mine := n ≤ 0x3FF ∧ ((s.die (n / 256)).queue (n % 256)).part.toNat = c.wg.part
       (mine → Gives (.energyQ c0 d a) c d .p64 ((tgetD (s.die (n / 256)).queueEnergy (n % 256) 0).setWidth 128) id s) ∧
       (¬ mine → Fits (.energyQ c0 d a) c (Out.v d .p64 []) s →
         Traps (.energyQ c0 d a) c (faultFor c .access (BitVec.ofNat 64 n)) s))) ∧
  ∀ (c0 q a b : Nat) (s : State) (c : Ctx) (at_ : Nat → Place) (t : State),
    let i : Instr := .enq c0 q a b
    let addr : Nat → W64 := fun l => (c.src.read a l).setWidth 64
    let u := t.l1Reads c.core c.wg.asid 0 c.src.ctrl.hint.toNat (t.herePieces (c.act.map at_))
    let packet : Nat → BitVec 512 := fun l => BitVec.ofNat 512 (leNat (u.readPlace c.wg c.who.grp l 64 (at_ l)))
    let xs : List EnqLane := c.act.map (fun l => (l, c.src.readN b l, packet l))
    let wrong := (xs.filter (fun y => u.enqBad c y (enqBefore c xs y.1 y.2.1))).map (·.1)
    Ready i c s →
    (c.src.shape a ≠ .p64 ∨ c.src.shape b ≠ .p32 → Traps i c (faultOf c .shape) s) ∧
    (c.src.shape a = .p64 → c.src.shape b = .p32 → Accepted s c (Acc.plain .read 64 64 false 0) c.act addr at_ t →
      (t.stalls (c.act.map (fun l => (l, .ok (at_ l)))) = true → Holds i c s) ∧
      (t.stalls (c.act.map (fun l => (l, .ok (at_ l)))) = false → (∀ l ∈ c.act, u.badPlace (at_ l) = false) →
        (wrong ≠ [] → TrapsIn i c ⟨.enqFault, listMask wrong, addr (wrong.headD 0)⟩ u s) ∧
        (wrong = [] → DeliversFrom i c (Out.q q (preds c (fun _ => .f))) u (fun y => (y.enqAll c xs).2.putPreds q (y.enqAll c xs).1) s) ∧
        -- one lane: its packet takes the ring's next place, or finds none
        (∀ l, wrong = [] → c.act = [l] → (c.grp.lane l).helper = false →
          let d := coreDie c.core
          let k := (u.die d).queue (c.src.readN b l)
          k.released = [] →
          (k.held < k.cap → DeliversFrom i c (Out.q q [(l, .f)]) u (fun y =>
            ((y.ringWrite d (c.src.readN b l) (packet l) c.wg.tree (c.wg.depth + 1)).treeEvent d c.wg.tree 1).putPreds q [(l, .t)]) s) ∧
          (k.cap ≤ k.held → DeliversFrom i c (Out.q q [(l, .f)]) u (fun y => y.putPreds q [(l, .f)]) s))))

/-! ## The access slice and the engines -/

/-- ASLICE starts the slice, T, unless one runs or owes a fault, F (R254); AWAIT delivers how it ended, or sleeps (R256); PUSHT begins a push
(R255); TIDSET and TIDGET move entries of the view (R230); COPY starts rows on the copy engine (R300, R301). It rests on the model's own
reading in log entry 30. -/
def Obligations.SliceAndCopyStart : Prop :=
  ∀ (c0 q a b m f x n : Nat) (s : State),
    (∀ c, Ready (.aslice c0 q a b) c s → c.src.shape a = .p64 → c.src.shape b = .p64 →
      let free := c.wg.context = true ∧ c.wg.slice.running = false ∧ c.wg.slice.owes = false
      ((low64 c a).toNat % 12 ≠ 0 → Traps (.aslice c0 q a b) c (faultFor c .misaligned (low64 c a)) s) ∧
      ((low64 c a).toNat % 12 = 0 → ¬ free → Decides (.aslice c0 q a b) c q .f id s) ∧
      ((low64 c a).toNat % 12 = 0 → free → Decides (.aslice c0 q a b) c q .t
        (onWg (fun w => { w with slice := Slice.begin ((low64 c a).toNat / 4) (low64 c b) })) s)) ∧
    (∀ c, Ready (.await c0 q) c s →
      (c.wg.slice.running = true → Sleeps (.await c0 q) c (numbered s) (c.waitFor s.nextId .slice none .p32 (some q)) s) ∧
      (c.wg.slice.running = false →
        (∀ cause addr, c.wg.slice.ended = .faulted cause addr false →
          exec (.await c0 q) s = .next (c.finish (s.uses (.await c0 q)) s (.trap ⟨cause, c.mask, addr⟩ true
            (onWg (fun w => { w with slice := { w.slice with ended := match w.slice.ended with
              | .faulted z y _ => .faulted z y true
              | z => z } }) s)))) ∧
        (∀ cause addr, c.wg.slice.ended = .faulted cause addr true → Decides (.await c0 q) c q .f id s) ∧
        (c.wg.slice.ended = .exited ∨ c.wg.slice.ended = .never → Decides (.await c0 q) c q .t id s))) ∧
    (∀ y w e, SliceReady (.pusht c0 f m x n) y s → s.curWg = some w → x ≤ 12 → s.viewEntry w m = .ok e →
      let split := fmtBlock (tidFormat e) = true ∧ (y.reg x).toNat % 2 ^ 32 % fmtBlockSize (tidFormat e) ≠ 0
      (tidOk e = true ∧ fmtMatrix (tidFormat e) = true → ¬ split → (w.fifo f).cap ≠ 0 →
        let p : Push := { fifo := f, entry := e, i0 := (y.reg x).toNat % 2 ^ 32, i1 := (y.reg (x + 1)).toNat % 2 ^ 32,
                          i2 := (y.reg (x + 2)).toNat % 2 ^ 32, i3 := (y.reg (x + 3)).toNat % 2 ^ 32, k := 0, n := n + 1, pc := y.pc }
        SliceDone (.pusht c0 f m x n)
          (onWg (fun w => { w.noteEntry m e with slice := { (w.noteEntry m e).slice with push := some p } }) s) s) ∧
      (tidOk e = false ∨ fmtMatrix (tidFormat e) = false ∨ split → SliceFaults (.pusht c0 f m x n) .tid none s) ∧
      (tidOk e = true → fmtMatrix (tidFormat e) = true → ¬ split → (w.fifo f).cap = 0 → SliceFaults (.pusht c0 f m x n) .matFifo none s)) ∧
    (∀ c t p, Ready (.tidset c0 a m) c s → c.src.shape a = .p64 →
      s.place c.core c.wg false (Acc.plain .read 64 64 false 0) (low64 c a) = (.ok p, t) → t.stalls [(c.low, .ok p)] = false →
      t.badPlace p = false →
      let u := t.l1Reads c.core c.wg.asid 0 c.src.ctrl.hint.toNat (t.herePieces [p])
      let e := BitVec.ofNat 512 (leNat (u.readPlace c.wg c.who.grp c.low 64 p))
      let room := (c.wg.view.filter (fun y => decide (y.1 ≠ m) && y.2.rewritten)).length < 32
      tidOk e = true → room → DeliversFrom (.tidset c0 a m) c Out.none u (onWg (fun w => { w with view := tset w.view m ⟨e, true⟩ })) s) ∧
    (∀ c t p e, Ready (.tidget c0 a m) c s → c.src.shape a = .p64 →
      s.place c.core c.wg false (Acc.plain .write 64 64 false 0) (low64 c a) = (.ok p, t) → t.stalls [(c.low, .ok p)] = false →
      t.viewEntry c.wg m = .ok e →
      DeliversFrom (.tidget c0 a m) c Out.none t (fun u => (onWg (fun w => w.noteEntry m e) u).storePlace c.who c.wg.asid c.low 0 (low64 c a)
        (leBytes 64 e.toNat) p) s) ∧
    ∀ c e, Ready (.copy c0 a b m) c s → c.src.shape a = .p64 → c.src.shape ((a + 1) % 32) = .p64 → c.src.shape b = .p64 →
      let v := low64 c b
      let dest := (v.extractLsb' 0 19).toNat
      let sync := (v.extractLsb' 19 19).toNat
      let rows := (v.extractLsb' 38 10).toNat + 1
      let len := 4 * ((v.extractLsb' 48 16).toNat + 1)
      let i0 := ((low64 c a).extractLsb' 0 32).toNat
      dest % 4 = 0 → sync % 8 = 0 → dest + rows * len ≤ c.wg.scratchBytes → sync + 8 ≤ c.wg.scratchBytes → s.viewEntry c.wg m = .ok e →
      tidOk e = true → i0 * fmtHalves (tidFormat e) % 2 = 0 →
      let new : Nat → Copy := fun id =>
        { id := id, grp := c.who.grp, mask := c.mask, entry := e, i0 := i0, i1 := ((low64 c a).extractLsb' 32 32).toNat,
          i2 := ((low64 c ((a + 1) % 32)).extractLsb' 0 32).toNat, i3 := ((low64 c ((a + 1) % 32)).extractLsb' 32 32).toNat,
          dest := dest, sync := sync, rows := rows, len := len, k := 0 }
      Delivers (.copy c0 a b m) c Out.none (fun t => onWg (fun w =>
        { w.noteEntry m e with copies := (w.noteEntry m e).copies ++ [new t.nextId] }) (numbered t)) s

/-! ## Tiles -/

/-- AREAD, SMXR and AWRITE act on the rows of the active lanes of a bound tile with no operation pending (R213, R223, R224, R228): AREAD
converts cell k, rounding nearest-even and saturating integers, AWRITE converts into it and sets the mode; a mode that the word does not
accept and an unbound tile are MAT_FORMAT. It rests on the model's own reading in log entries 7, 26 and 93. -/
def Obligations.TilesAreReadAndWritten : Prop :=
  ∀ (c0 a d k : Nat) (s : State) (c : Ctx) (t : Tile), c.wg.tile a = some t →
    let idle := c.wg.pendingOn a = false
    let cell := fun (l : Nat) => ((t.row l).cells.getD k 0)
    let real := fun (l : Nat) => decodeF a56 (cell l).toNat
    let wide := fun (l : Nat) => ((t.row l).cells.getD (2 * k) 0).toNat + ((t.row l).cells.getD (2 * k + 1) 0).toNat % 256 * 2 ^ 56
    let reads := fun (i : Instr) (sh : Shape) (ok : TileMode → Prop) (v : Nat → Nat) => Ready i c s → idle →
      (ok t.mode → Delivers i c (Out.v d sh (lanes c (fun l => elemN (v l)))) id s) ∧
      (¬ ok t.mode → TrapsOpen i c .matFormat s)
    let byMode := fun (isInt isFp isReal : Nat → Nat) (l : Nat) => match t.mode with
      | .int => isInt l
      | .fp64 => isFp l
      | _ => isReal l
    let writes := fun (i : Instr) (sh : Shape) (mode : Option TileMode) (row : Nat → TileRow → TileRow) => Ready i c s → idle →
      let ok := mode = none ∨ t.mode = .empty ∨ mode = some t.mode
      (c.src.shape d ≠ sh → Traps i c (faultOf c .shape) s) ∧
      (c.src.shape d = sh → ok → Delivers i c Out.none (fun u => (onWg (fun w => w.modTile a (fun y =>
        { (c.act.foldl (fun y l => y.modRow l (row l)) y) with mode := mode.getD t.mode })) u).modCur (fun g => g.noteTile a)) s) ∧
      (c.src.shape d = sh → ¬ ok → TrapsOpen i c .matFormat s)
    reads (.areadF32 c0 a d k) .p32 (fun m => m ≠ .fp64)
      (byMode (fun l => roundN fp32 1 (intX (cell l).toInt)) (fun _ => 0) (fun l => roundN fp32 1 (real l).toX)) ∧
    reads (.areadF64 c0 a d k) .p64 (fun m => m = .fp64 → k < 8)
      (byMode (fun l => roundN fp64 1 (intX (cell l).toInt)) wide (fun l => roundN fp64 1 (real l).toX)) ∧
    reads (.areadI32 c0 a d k) .p32 (fun m => m ≠ .fp64)
      (byMode (fun l => (BitVec.ofInt 32 (max (-2 ^ 31) (min (2 ^ 31 - 1) (cell l).toInt))).toNat) (fun _ => 0)
        (fun l => (BitVec.ofInt 32 (roundI (-2 ^ 31) (2 ^ 31 - 1) 1 0 (real l)).1).toNat)) ∧
    reads (.areadRaw c0 a d k) .p64 (fun _ => True) (fun l => (cell l).toNat) ∧
    reads (.smxrM c0 a d) .p32 (fun _ => True) (fun l => (t.row l).m.toNat) ∧
    reads (.smxrL c0 a d) .p64 (fun _ => True) (fun l => roundN fp64 1 (decodeF a56 (t.row l).l.toNat).toX) ∧
    reads (.smxrSt c0 a d) .p32 (fun _ => True) (fun l => t.mode.code + if (t.row l).sat then 4 else 0) ∧
    writes (.awriteF32 c0 a d k) .p32 (some .float) (fun l r => r.setCell k (roundN a56 1 (decodeF fp32 (c.src.readN d l)).toX)) ∧
    writes (.awriteF64 c0 a d k) .p64 (some .fp64) (fun l r => r.setPair k (c.src.readN d l)) ∧
    writes (.awriteI32 c0 a d k) .p32 (some .int) (fun l r => r.setCell k ((point c.src 32 d l).signExtend 56).toNat) ∧
    writes (.awriteRaw c0 a d k) .p64 none (fun l r => r.setCell k (c.src.readN d l % 2 ^ 56))

/-- MMA, AZERO and SMXU join their workgroup's list of tile operations (R201, R212, R222, R225), with MAT_FORMAT at an unbound tile and
MAT_FIFO where a FIFO cannot hold the operands; MFENCE lets later operations depend on what the group wrote (R214); MWAIT raises a recorded
fault of its tile, waits for the operations on it, and covers them (R212, R215). It rests on the model's own reading in log entries 7, 26, 29,
89 and 93. -/
def Obligations.TileOperationsIssue : Prop :=
  ∀ (c0 a v p n : Nat) (f : TMma) (s : State) (c : Ctx),
    let adds := fun (i : Instr) (tile : Nat) (work : TileWork) (dirty : Bool) =>
      let op : Nat → TileOp := fun id => { id := id, grp := c.who.grp, tile := tile, work := work, mask := c.mask, unfenced := dirty,
                                           addr := BitVec.ofNat 64 (4 * c.pc), done := false }
      Delivers i c Out.none (fun t => onWg (fun w => { (w.modTile tile id) with ops := w.ops ++ [op t.nextId] }) (numbered t)) s
    let lanes := c.act.length
    (Ready (.mma f) c s →
      (c.wg.tile f.a = none → TrapsOpen (.mma f) c .matFormat s) ∧
      (c.wg.tile f.a ≠ none → (c.wg.fifo f.f).cap < lanes ∨ (c.wg.fifo f.g).cap < 8 + (if f.f = f.g then lanes else 0) →
        TrapsOpen (.mma f) c .matFifo s) ∧
      (c.wg.tile f.a ≠ none → lanes ≤ (c.wg.fifo f.f).cap → 8 + (if f.f = f.g then lanes else 0) ≤ (c.wg.fifo f.g).cap →
        adds (.mma f) f.a (.mma f.f f.g (if f.r = 0 then 1 else if f.r = 1 then 3 else if f.r = 2 then 4 else 2) (decide (f.s = 1))
          (decide (f.z = 1))) (decide (f.z ≠ 1) && c.grp.unfencedTiles.contains f.a))) ∧
    (Ready (.azero c0 a) c s →
      (c.wg.tile a = none → TrapsOpen (.azero c0 a) c .matFormat s) ∧
      (c.wg.tile a ≠ none → adds (.azero c0 a) a .azero false)) ∧
    (Ready (.smxu c0 a n v p) c s → c.wg.tile a ≠ none → (c.wg.fifo n).cap ≠ 0 → lanes ≤ (c.wg.fifo n).cap →
      (c.src.shape v ≠ .p32 → Traps (.smxu c0 a n v p) c (faultOf c .shape) s) ∧
      (c.src.shape v = .p32 → adds (.smxu c0 a n v p) a (.smxu n v p c.src.ctrl.smxscale)
        (c.grp.unfencedTiles.contains a || c.grp.unfencedRegs.contains v))) ∧
    (Ready (.mfence c0) c s → Delivers (.mfence c0) c Out.none (fun t => (onWg (fun w =>
        { w with ops := w.ops.map (fun o => if o.grp = c.who.grp then { o with unfenced := w.opDirty o } else o) }) t).modCur
      (fun g => { g with unfencedRegs := [], unfencedTiles := [] })) s) ∧
    (Ready (.mwait c0 a) c s →
      (c.wg.tile a = none → TrapsOpen (.mwait c0 a) c .matFormat s) ∧
      (c.wg.tile a ≠ none →
        (∀ x, c.grp.tileFault = some x → x.tile = a → exec (.mwait c0 a) s = .next (c.finish (s.uses (.mwait c0 a)) s
          (.trap ⟨x.cause, x.mask, x.addr⟩ true (s.modCur (fun g => { g with tileFault := none }))))) ∧
        ((∀ x, c.grp.tileFault = some x → x.tile ≠ a) →
          let quiet := ∀ o ∈ c.wg.ops, o.tile = a → o.id < s.nextId → o.done = true
          (quiet → Delivers (.mwait c0 a) c Out.none (fun t => t.coverOps c.core c.who.wg a t.nextId) s) ∧
          (¬ quiet → Sleeps (.mwait c0 a) c (numbered s) (c.waitFor s.nextId (.tile a s.nextId) none .p32 none) s))))

/-! ## The Churn and graphics -/

/-- The Churn words (R419 to R429) take their address from the lowest active lane that is no helper; CBOARD, CBOARDR, CALIGHT and CPEEK have
no effect where there is none. CBOARD and CBOARDR write U for a word that is boarded, F where no slot is left, and else promise a slot and
sleep; the others sleep with a request at the slot that carries their key, and raise CHURN_KEY where none does. It rests on the model's own
reading in log entry 71. -/
def Obligations.ChurnWordsAct : Prop :=
  ∀ (c0 d q a b e k l : Nat) (s : State) (c : Ctx),
    let va : W64 := (c.src.read a l).setWidth 64
    let die := coreDie c.core
    let req : State → Option Nat → ChurnWork → ChurnReq := fun t slot work =>
      { id := t.nextId, who := some c.who, stop := coreSite c.core, reached := t.cycle, key := va.toNat, asid := c.wg.asid, part := c.wg.part,
        priv := c.wg.priv, slot := slot, stage := .waiting, work := work }
    let asks := fun (t : State) (r : ChurnReq) => (numbered t).modDie die (fun x => { x with reqs := x.reqs ++ [r] })
    let board := fun (i : Instr) (attach : Option (Nat × Nat)) => Ready i c s → c.doers.head? = some l → c.src.shape a = .p64 →
      ∀ pa t, s.boardPlace c va.toNat = (.ok pa, t) →
        (t.boardedAt pa ≠ none → DeliversFrom i c (Out.q q (preds c (fun _ => .u))) t id s) ∧
        (t.boardedAt pa = none → (t.die die).slotLeft c.wg.part = false → DeliversFrom i c (Out.q q (preds c (fun _ => .f))) t id s) ∧
        (t.boardedAt pa = none → (t.die die).slotLeft c.wg.part = true →
          let promise : Boarded := { word := pa / 8, die := die, req := t.nextId, slot := none }
          Sleeps i c ((asks t (req t none (.board pa attach))).modPkg (fun p => { p with boarded := p.boarded ++ [promise] }))
            (c.waitFor t.nextId (.reply t.nextId) none .p64 (some q)) s)
    let keyed := fun (i : Instr) (work : ChurnWork) => Ready i c s → c.doers.head? = some l → c.src.shape a = .p64 →
      (∀ n, (s.die die).keySlot va.toNat c.wg.asid = some n →
        SleepsOn i c (Out.v d .p64 []) (asks s (req s (some n) work)) (c.waitFor s.nextId (work.waitKind s.nextId) (some d) .p64 none) s) ∧
      ((s.die die).keySlot va.toNat c.wg.asid = none → Fits i c (Out.v d .p64 []) s → Traps i c (faultFor c .churnKey va) s)
    let alone := fun (i : Instr) => Ready i c s → c.doers = [] → Does i c s s
    let cap := fun (i : Instr) (op : Nat) => c.src.shape b = .p64 → (op = 7 → c.src.shape d = .p64) → keyed i
      (.cap op (c.doers.map (fun l => (l, (c.src.read b l).setWidth 64, (c.src.read d l).setWidth 64)))
        (c.act.filter (fun l => !c.doers.contains l)))
    board (.cboard c0 q a) none ∧ alone (.cboard c0 q a) ∧
    (c.src.shape b = .p64 → c.src.shape e = .p32 → ((c.src.read b l).setWidth 64 : W64).toNat % 64 = 0 → c.src.readN e l ≤ 255 →
      board (.cboardr c0 q a b e) (some (((c.src.read b l).setWidth 64 : W64).toNat % 2 ^ 55, c.src.readN e l))) ∧
    alone (.cboardr c0 q a b e) ∧
    keyed (.calight c0 d a) .alight ∧ keyed (.cpeek c0 d a) .peek ∧ alone (.calight c0 d a) ∧ alone (.cpeek c0 d a) ∧
    (c.src.shape b = .p64 → keyed (.cwait c0 d a b k) (.wait k ((c.src.read b l).setWidth 64))) ∧
    cap (.ccapAdd c0 d a b) 0 ∧ cap (.ccapSub c0 d a b) 1 ∧ cap (.ccapMin c0 d a b) 2 ∧ cap (.ccapMax c0 d a b) 3 ∧
    cap (.ccapAnd c0 d a b) 4 ∧ cap (.ccapOr c0 d a b) 5 ∧ cap (.ccapXchg c0 d a b) 6 ∧ cap (.ccapCas c0 d a b) 7 ∧
    keyed (.ccapDec c0 d a) (.cap 8 (c.doers.map (fun l => (l, (c.src.read d l).setWidth 64, (c.src.read d l).setWidth 64)))
      (c.act.filter (fun l => !c.doers.contains l)))

/-- The graphics words (R457 to R466): RAST hands its triangles to the raster units of a pass that is open, RSEAL sleeps until its pass is
sealed, BPUSH and BISECT push records and sleep, BFLUSH launches bins; ATTR and the TEX words deliver each lane's samples. It rests on the
model's own reading in log entries 22, 36, 37, 71 and 74. -/
def Obligations.GraphicsWordsAct : Prop :=
  ∀ (c0 d q a b e j k l t : Nat) (s : State) (c : Ctx),
    let va : W64 := (c.src.read a l).setWidth 64
    let die := coreDie c.core
    let mine := c.doers.head? = some l
    let push := fun (i : Instr) (recs : List (Nat × BitVec 128)) =>
      (∀ x ∈ recs, s.badKey c x.1 = false) →
      (recs = [] → Delivers i c Out.none id s) ∧
      (recs ≠ [] →
        let bins := ((recs.map (·.1)).foldl (fun (t : Tab Unit) b => tset t b ()) []).map (·.1)
        let req : Nat → ChurnReq := fun b => c.churnReq s s.nextId b none (.bin b [] ((recs.filter (fun r => decide (r.1 = b))).map (·.2)))
        Sleeps i c ((numbered s).modDie die (fun x => { x with reqs := x.reqs ++ bins.map req }))
          (c.waitFor s.nextId (.reply s.nextId) none .p32 none) s)
    let record := fun (kind l : Nat) =>
      let key := c.src.readN a l % 2 ^ 16
      (key, pushRecord key kind (c.src.readN b l) (c.src.readN ((b + 1) % 32) l) (c.src.readN ((b + 2) % 32) l))
    let sampled := fun (n : Nat) (v : Nat → List W32) (gens : List (Nat × W64)) => { Out.none with
      vs := (upto 0 n).map (fun k => ⟨(d + k) % 32, .p32, lanes c (fun l => ((v l).getD k 0).setWidth 128)⟩), gens := gens }
    let samples := fun (i : Instr) (n : Nat) (f : State → Nat → GfxLane × State) (gens : List (Nat × W64)) (t0 : State) =>
      ∀ (v : Nat → List W32) u, t0.eachLane f c.act = (c.act.map (fun l => (l, .vals (v l))), u) →
        DeliversFrom i c (sampled n v gens) u id s
    let tex := fun (i : Instr) (kind : LodKind) (regs : Nat) => Ready i c s → (∀ r ∈ regRun a regs, c.src.shape r = .p32) →
      (∀ x, s.viewEntry c.wg t = .error x → Traps i c ⟨x.1, c.mask, x.2⟩ s) ∧
      ∀ ent, s.viewEntry c.wg t = .ok ent →
        let n := texChannels ent
        let noted := onWg (fun w => w.noteEntry t ent) s
        let gens := if kind = .quad then c.act.map (fun l => (l, (c.texLod kind ent a l).2)) else []
        (texOk ent = false → DeliversFrom i c { Out.none with
          vs := (upto 0 n).map (fun k => ⟨(d + k) % 32, .p32, []⟩), err := some ⟨.tid, c.mask, BitVec.ofNat 64 t⟩ } noted id s) ∧
        (texOk ent = true → samples i n (texLane kind ent a c) gens noted) ∧
        -- a coordinate that is NaN in every lane samples nothing: canonical NaNs
        (texOk ent = true → (∀ l ∈ c.act, (value c 32 a l).isNan = true) →
          DeliversFrom i c (sampled n (fun _ => List.replicate n (BitVec.ofNat 32 (qnan fp32))) gens) noted id s)
    let block := va.toNat
    (Ready (.rast c0 a b e) c s → mine → c.src.shape a = .p64 → c.src.shape e = .p64 → (∀ r ∈ regRun b 9, c.src.shape r = .p32) →
      (va.toNat % 64 ≠ 0 → Traps (.rast c0 a b e) c (faultFor c .misaligned va) s) ∧
      (va.toNat % 64 = 0 → ∀ slot p, s.passAt die c.wg.asid va.toNat = some (slot, p) →
        (p.sealed = true → Traps (.rast c0 a b e) c (faultFor c .rastState va) s) ∧
        (p.sealed = false → Delivers (.rast c0 a b e) c Out.none (fun u => u.modDie die (fun x =>
          { x with triangles := x.triangles ++ c.triangles slot b e })) s)) ∧
      (va.toNat % 64 = 0 → s.passAt die c.wg.asid va.toNat = none → ∀ p u,
        s.place c.core c.wg true (Acc.plain .read 64 64 false 0) va = (.ok p, u) → u.stalls [(l, .ok p)] = false → u.badPlace p = false →
        let v := u.laneRead c p
        let desc := BitVec.ofNat 512 (leNat (v.readPlace c.wg c.who.grp l 64 p))
        (v.passOpens die c.wg.part desc = none → TrapsIn (.rast c0 a b e) c (faultFor c .rastState va) v s) ∧
        ∀ slot, v.passOpens die c.wg.part desc = some slot → DeliversFrom (.rast c0 a b e) c Out.none v (fun x => (x.openPass die slot
          { addr := va.toNat, desc := desc, asid := c.wg.asid, priv := c.wg.priv, part := c.wg.part, sealed := false, sealing := none,
            records := 0, dropped := false, cause := none }).modDie die (fun x =>
              { x with triangles := x.triangles ++ c.triangles slot b e })) s)) ∧
    (Ready (.rseal c0 a) c s → mine → c.src.shape a = .p64 → va.toNat % 64 = 0 →
      (s.passAt die c.wg.asid va.toNat = none → Traps (.rseal c0 a) c (faultFor c .rastState va) s) ∧
      ∀ slot p, s.passAt die c.wg.asid va.toNat = some (slot, p) → p.sealed = false → p.sealing = none →
        Sleeps (.rseal c0 a) c ((numbered s).modDie die (fun x =>
          { x with passes := tset x.passes slot { p with sealing := some (c.who, s.nextId) } }))
          (c.waitFor s.nextId (.reply s.nextId) none .p32 none) s) ∧
    (∀ hit : Bool, let i : Instr := if hit then .bpushHit c0 k q a b else .bpush c0 k q a b
      Ready i c s → c.src.shape a = .p32 → (∀ r ∈ regRun b 3, c.src.shape r = .p32) →
      push i ((c.doers.filter (fun l => kMatch k ((c.src.lane l).pred q))).map (record (if hit then 1 else 3)))) ∧
    (Ready (.bisect c0 q a b e) c s → c.src.shape a = .p32 → c.src.shape e = .p32 → c.src.shape b = .i32 →
      let ls := c.doers.filter (fun l => decide ((c.src.lane l).pred q = .u))
      ∀ iv : Nat → Iv, (∀ l ∈ ls, c.iv 32 b l = .ok (iv l)) →
        push (.bisect c0 q a b e) (ls.flatMap (fun l =>
          let key := c.src.readN a l % 2 ^ 16
          let m := decodeF fp32 (midBits fp32 (iv l))
          [exactIv fp32 (iv l).lo m, exactIv fp32 m (iv l).hi].map (fun i =>
            (key, pushRecord key 2 (i.toNat % 2 ^ 32) (i.toNat / 2 ^ 32) (c.src.readN e l)))))) ∧
    (Ready (.bflush c0 a) c s → mine → c.src.shape a = .p32 →
      let bin := c.src.readN a l
      let ok := bin ≤ 4095 ∧ (s.bin die bin).part.toNat = c.wg.part
      (ok → Delivers (.bflush c0 a) c Out.none (fun u => u.flushBin die bin true) s) ∧
      (¬ ok → Traps (.bflush c0 a) c (faultFor c .access (BitVec.ofNat 64 bin)) s)) ∧
    (Ready (.bflushAll c0) c s → mine → Delivers (.bflushAll c0) c Out.none (fun u => (u.die die).bins.foldl (fun x y =>
      if y.2.part.toNat = c.wg.part then x.flushBin die y.1 true else x) u) s) ∧
    (Ready (.attr c0 d a b j) c s → c.src.shape a = .p64 →
      (∀ l ∈ c.act, c.pixelRec l = none → ∀ r ∈ regRun b 3, c.src.shape r = .p32) →
      samples (.attr c0 d a b j) 3 (attrLane c a b j) [] s ∧
      -- one lane, step by step: word 0 of the geometry block, the triangle's vertex numbers, their positions and values
      (c.act = [l] → block % 64 = 0 → ∀ h t1, s.laneReads c l 1 [(block, 8)] = (.ok [h], t1) →
        let w := leNat h
        let tri := c.attrTri b l
        geoOk w = true → tri < geoT w → j < geoA w →
        ∀ ix t2, t1.laneReads c l 1 [(block + 64 + 12 * geoV w + 3 * tri, 3)] = (.ok [ix], t2) → (∀ i ∈ ix, i.toNat < geoV w) →
        ∀ vs t3, t2.laneReads c l 1 (ix.map (fun i => (block + 64 + 12 * i.toNat, 12)) ++
            ix.map (fun i => (block + geoR w + 4 * (geoA w * i.toNat + j), 4))) = (.ok vs, t3) →
          DeliversFrom (.attr c0 d a b j) c (sampled 3 (fun _ => attrValue c b l vs) []) t3 id s)) ∧
    tex (.tex c0 d a t) .quad 2 ∧ tex (.texl c0 d a t) .given 3 ∧ tex (.texg c0 d a t) .gradients 6

/-! ## Events -/

/-- Events of a core that exists: an issue opportunity issues exactly in the cycles that its duty allows (R236, R238), a duty changes at
multiples of 16 to the least of the three (R505), a result leaves the outstanding writes (R29, R31), a SLEEP ends at its cycle (R247), a
bounded wait tests at its bound (R314, R336); at a slot with no workgroup nothing happens. It rests on the model's own reading in log entries
5 and 42. -/
def Obligations.IssueEventsAct : Prop :=
  ∀ (core wg grp id : Nat) (s : State), core < 384 →
    let k := (s.core core).duty
    let n := s.cycle % 16
    (n * k / 16 < (n + 1) * k / 16 → exec (.issueOpportunity core) s = .next (s.issueCycle core)) ∧
    (¬ n * k / 16 < (n + 1) * k / 16 → exec (.issueOpportunity core) s = .next (s.modCore core (fun c => { c with probe := [] }))) ∧
    (let part := s.pkg.parts.find? (fun p => p.2.live && p.2.clusters.getLsbD (coreCluster core))
     let least := min ((part.map (·.2.k)).getD 16) (min (s.die (coreDie core)).thermalDuty (s.die (coreDie core)).limiterDuty)
     exec (.dutyChange core) s = .next (if n = 0 then s.modCore core (fun c => { c with duty := least }) else s)) ∧
    (∀ g, s.group core wg grp = some g → exec (.resultWriteback core wg grp id) s = .next (s.modGroup core wg grp (fun x =>
      { x with pend := x.pend.filter (fun p => !(decide (p.id = id) && p.due.any (fun t => decide (t ≤ s.cycle)))) }.settle))) ∧
    (∀ x, s.waitReady core wg grp id = some x →
      (∀ till, x.kind = .sleep till →
        exec (.sleepExpiry core wg grp id) s = .next (if till ≤ s.cycle then s.completeWait core wg grp x [] none else s)) ∧
      ∀ w, s.wg core wg = some w →
        (∀ off token d, x.kind = .bar off token (some d) → exec (.barwaitBoundExpiry core wg grp id) s = .next (
          if (w.bar off).phase = token ∧ s.cycle < d then s
          else (s.modWg core wg (fun y => y.setBar off { y.bar off with waiters := (y.bar off).waiters - 1 })).completeWait core wg grp x []
            (some (if (w.bar off).phase = token then .f else .t)))) ∧
        (∀ i token d b, x.kind = .nbar i token (some d) → s.netBar core w i = some b →
          exec (.nbarwaitBoundExpiry core wg grp id) s = .next (
            if b.gen.toNat = token ∧ s.cycle < d then s
            else s.completeWait core wg grp x [] (some (if b.gen.toNat = token then .f else .t))))) ∧
    (s.wg core wg = none → ∀ i ∈ [Instr.resultWriteback core wg grp id, .sleepExpiry core wg grp id,
      .barwaitBoundExpiry core wg grp id, .nbarwaitBoundExpiry core wg grp id, .slotReturn core wg, .preempt core wg,
      .pushtRowPlaced core wg, .copyRow core wg id, .mmaExecute core wg id, .azeroExecute core wg id, .smxuExecute core wg id],
      exec i s = .next s)

/-- Events of a resident workgroup and of its engines: a row enters its FIFO while there is room, or stops the slice (R255); a row of a copy
enters scratch and is counted, or the copy stops with its fault recorded (R301 to R303); a tile operation executes when it may, waits, or
faults MAT_FIFO where its operands will never come (R203, R204, R212); a slot returns when all is over (R234); a pre-emption marks a workgroup
that goes on, and does nothing to one that is over or aborted (R263), and a saved context is restored where it fits (R264). It rests on the
model's own reading in log entries 21, 29 and 64. -/
def Obligations.WorkgroupEventsAct : Prop :=
  ∀ (core slot id : Nat) (s : State) (w : Workgroup), s.wg core slot = some w →
    (∀ p, w.slice.push = some p → (w.fifo p.fifo).entries.length < (w.fifo p.fifo).cap →
      (s.pushWaits w p = true → exec (.pushtRowPlaced core slot) s = .next s) ∧
      (s.pushWaits w p = false →
        (∀ e t, s.pushRow core w p = (.ok e, t) →
          exec (.pushtRowPlaced core slot) s = .next ((t.modWg core slot (fun w => w.placeRow p e)).chargeUnit core slot)) ∧
        (∀ x t, s.pushRow core w p = (.error x, t) → exec (.pushtRowPlaced core slot) s = .next (t.modSlice core slot (fun y =>
          { y with live := false, push := none, ended := .faulted x.1 (sliceFaultAddr p.pc x) false }))))) ∧
    (∀ p, w.copies.find? (fun y => y.id = id) = some p →
      (s.engineWaits w p.span.1 p.span.2 = true → exec (.copyRow core slot id) s = .next s) ∧
      (s.engineWaits w p.span.1 p.span.2 = false →
        (∀ bs t, s.copyBytes core w p = (.ok bs, t) →
          exec (.copyRow core slot id) s = .next ((t.modWg core slot (fun w => w.copyRow p bs)).chargeUnit core slot)) ∧
        (∀ x t, s.copyBytes core w p = (.error x, t) →
          exec (.copyRow core slot id) s = .next (t.modWg core slot (fun w => w.copyStop p x))))) ∧
    (∀ o, w.ops.find? (fun o => o.id = id) = some o →
      let event : Instr := match o.work with
        | .mma _ _ _ _ _ => .mmaExecute core slot id
        | .azero => .azeroExecute core slot id
        | .smxu _ _ _ _ => .smxuExecute core slot id
      let o' := { o with unfenced := w.opDirty o }
      (w.opReady o = .wait → exec event s = .next s) ∧
      (w.opReady o = .stuck → exec event s = .next (s.modWg core slot (fun w => w.opFault o .matFifo))) ∧
      (w.opReady o = .go → exec event s = .next ((match o.work with
        | .mma fa fb rm rs z => s.mmaRun core slot w o' fa fb rm rs z
        | .azero => s.modWg core slot (fun w => w.azero o')
        | .smxu f v p sigma => s.smxRun core slot w o' f v p sigma).chargeUnit core slot))) ∧
    (w.ended = true → exec (.slotReturn core slot) s = .next ((s.modCore core (fun c => { c with wgs := tdel c.wgs slot })).modPkg
      (fun p => { p with ctxids := p.ctxids.filter (fun x => decide (x ≠ w.ctxid)) }))) ∧
    (w.ended = false → exec (.slotReturn core slot) s = .next s) ∧
    (w.aborted ≠ none ∨ w.ended = true → exec (.preempt core slot) s = .next s) ∧
    (w.aborted = none → w.ended = false → ∃ t, exec (.preempt core slot) s = .next t ∧
      ∀ v, t.wg core slot = some v → v.preempting = true) ∧
    ∀ n k, s.pkg.saved[n]? = some k → s.fitsSaved core k = true → exec (.contextRestore n core) s = .next (s.restoreWg n core k)

/-- The front end's events (R233, R344, R394, R395, R397, R401, R408, R409): a doorbell that would overfill the ring sets the error bit;
enabling clears the energy counter; a queue is destroyed once, and its destruction completes when no packet of it is left; a released packet
enters a ring that has room; a dispatch step serves the source that is chosen; a cluster admits the first workgroup of its queue that fits one
of its cores, and takes a donation when neither its queue nor the front end supplies one. It rests on the model's own reading in log entries
13, 34 and 83. -/
def Obligations.FrontEndEventsAct : Prop :=
  ∀ (die q v cluster : Nat) (s : State), die < 4 → q < 256 → cluster < 96 →
    let k := (s.die die).queue q
    let set := fun (f : Queue → Queue) => s.modDie die (fun x => x.modQueue q f)
    exec (.doorbell die q v) s = .next (
      let n := BitVec.ofNat 32 v
      if k.enable = true ∧ k.destroying = false ∧ (n - k.read).toNat ≤ 2 ^ k.lgsize.toNat ∧ (n - k.write).toNat ≤ 2 ^ k.lgsize.toNat then
        set (fun _ => { k with write := n })
      else set (fun _ => { k with error := true })) ∧
    exec (.queueEnable die q) s = .next (if k.enable then s
      else (set (fun _ => { k with enable := true })).modDie die (fun x => { x with queueEnergy := tset x.queueEnergy q 0 })) ∧
    (let t := set (fun _ => { k with destroy := true })
     exec (.queueDestroy die q) s = .next (if k.destroying then t else t.destroyQueue die q)) ∧
    exec (.queueDestroyComplete die q) s = .next (
      if k.destroying = true ∧ (s.die die).packets.all (fun p => decide (p.2.source ≠ q)) = true then set (fun _ => { k with destroying := false })
      else s) ∧
    (k.released = [] ∨ 2 ^ k.lgsize.toNat ≤ (k.write - k.read).toNat → exec (.releasePacketEnqueue die q) s = .next s) ∧
    (∀ b t, k.released = b :: t → (k.write - k.read).toNat < 2 ^ k.lgsize.toNat → exec (.releasePacketEnqueue die q) s =
      .next ((set (fun _ => { k with released := t })).ringWrite die q b none 0)) ∧
    exec (.treeCounterUpdate die) s = .next ((upto (4 * ((96 + 100 - s.cycle % 100) % 100)) 4).foldl (fun s n =>
      let mine := takeSome (fun u => decide (u.slot = n)) 4 (s.die die).treeUpdates
      mine.1.foldl (fun s u => s.treeChange die u) (s.modDie die (fun x => { x with treeUpdates := mine.2 }))) s) ∧
    (let served := s.countUnserved die (s.readySources die) (s.chooseSource die)
     (s.chooseSource die = none → exec (.dispatchStep die) s = .next served) ∧
     (∀ prio, s.chooseSource die = some (256, prio) → exec (.dispatchStep die) s = .next (served.serveBin die)) ∧
     (∀ prio, s.chooseSource die = some (q, prio) → exec (.dispatchStep die) s = .next (
       match ((served.die die).queue q).serving with
       | some n => served.serveMore die q n
       | none => served.serveFirst die q))) ∧
    ((∀ a ∈ (s.cluster cluster).queue, ∀ p, tget (s.die (cluster / 24)).packets a.packet = some p →
        ∀ c ∈ clusterCores cluster, s.fits c p.bits = false) → exec (.workgroupAdmission cluster) s = .next s) ∧
    (∀ a p c, s.admissible cluster (s.cluster cluster).queue = some (a, p, c) →
      s.fits c p.bits = true ∧ c ∈ clusterCores cluster ∧ a ∈ (s.cluster cluster).queue ∧
      exec (.workgroupAdmission cluster) s = .next
        ((s.modCluster cluster (fun x => { x with queue := x.queue.filter (fun y => decide (y ≠ a)) })).takeIn c a.packet p a.index)) ∧
    (s.donor cluster = none ∨ s.admissible cluster (s.cluster cluster).queue ≠ none ∨ s.frontSupplies cluster = true →
      exec (.donationRequest cluster) s = .next s) ∧
    ∀ j g, s.admissible cluster (s.cluster cluster).queue = none → s.frontSupplies cluster = false → s.donor cluster = some (j, g) →
      exec (.donationRequest cluster) s = .next (
        (s.modCluster j (fun c => { c with queue := c.queue.filter (fun a => !g.contains a) })).modCluster cluster
          (fun c => { c with queue := g.foldl (fun l a => addAssigned a l) c.queue }))

/-- Events of the Churn, the raster units and the bins of a die (R401, R418, R421, R431, R434, R445, R446, R451, R459): each completes; a
passage applies the requests at a stop to the four slots of its car, a boarding read loads its slot, a limit is at most 336, a triangle is
rasterised in its pass, a seal waits for its pass's triangles, a bin launches what it holds after its time. It rests on the model's own
reading in log entries 28, 32 and 91. -/
def Obligations.ChurnAndRasterEventsAct : Prop :=
  ∀ (die n : Nat) (s : State), die < 4 →
    (n < 100 → exec (.churnPassage die n) s = .next ((upto (4 * ((n + 100 - s.cycle % 100) % 100)) 4).foldl (fun s k => s.passSlot die n k) s)) ∧
    (n < 400 → (∃ t, exec (.boardingReadReturn die n) s = .next t) ∧
      ∀ x, tget (s.die die).slots n = some x → x.state = .boarding → x.loaded = false → s.unreadable x.home 8 = false →
        let t := s.sliceRead 96 x.asid x.key x.home
        exec (.boardingReadReturn die n) s =
          .next (t.setSlot die n { x with value := BitVec.ofNat 64 (t.readPhys x.home 8), loaded := true })) ∧
    -- what a capture makes of a slot's value, and the lanes' order (R426, R427)
    (∀ o x y : W64,
      capNew 0 o x y = some (o + x) ∧ capNew 1 o x y = some (o - x) ∧ capNew 2 o x y = some (if x.toInt < o.toInt then x else o) ∧
      capNew 3 o x y = some (if o.toInt < x.toInt then x else o) ∧ capNew 4 o x y = some (o &&& x) ∧ capNew 5 o x y = some (o ||| x) ∧
      capNew 6 o x y = some x ∧ capNew 7 o x y = some (if o = y then x else o) ∧ capNew 8 o x y = (if o = 0 then none else some (o - 1)) ∧
      ∀ op l t, capLanes op o [] = some ([], o) ∧ (capNew op o x y = none → capLanes op o ((l, x, y) :: t) = none) ∧
        ∀ v, capNew op o x y = some v → capLanes op o ((l, x, y) :: t) = (capLanes op v t).map (fun r => ((l, o) :: r.1, r.2))) ∧
    -- one capture's passage: the slot takes the value, a DEC to zero fires an armed release once, and the word's lanes take the old values
    (∀ (r : ChurnReq) (x : Slot) (w : Who) (k : Wait) (op : Nat) (lanes : List (Nat × W64 × W64)) (helpers : List Nat) old v,
      r.stage ≠ .lost → x.use = .word → x.key = r.key → x.asid = r.asid → x.state = .aboard → s.wakeTrap w.core w.wg w.grp k = none →
      r.work = .cap op lanes helpers → capLanes op x.value lanes = some (old, v) → x.poison = false →
      let fires := decide (op = 8 ∧ v = 0) && x.armed
      s.churnEvent die n x r w k = some (((s.dropReq die r.id).setSlot die n
        { x with value := v, armed := x.armed && !fires, fire := x.fire || fires }).completeWait w.core w.wg w.grp k
          (old.map (fun y => (y.1, y.2.setWidth 128)) ++ helpers.map (fun l => (l, 0))) none)) ∧
    (∀ v, n < 8 → exec (.churnLimitWrite die n v) s = .next (s.modDie die (fun d =>
      { d with churnLimit := tset d.churnLimit n (BitVec.ofNat 9 (min (v % 512) 336)) }))) ∧
    ((s.die die).triangles = [] → exec (.rasterTriangle die) s = .next s) ∧
    (∀ t r p, (s.die die).triangles = t :: r → tget (s.die die).passes t.pass = some p →
      exec (.rasterTriangle die) s = .next ((s.modDie die (fun k => { k with triangles := r })).rasterise die p t)) ∧
    (n < 8 → ∃ t, exec (.passSeal die n) s = .next t ∧ ∀ p w id, tget (s.die die).passes n = some p → p.sealing = some (w, id) →
      ((∃ x ∈ (s.die die).triangles, x.pass = n) ∨ s.waitReady w.core w.wg w.grp id = none → t = s) ∧
      ∀ x, (∀ y ∈ (s.die die).triangles, y.pass ≠ n) → s.waitReady w.core w.wg w.grp id = some x →
        t = (s.modDie die (fun k => { k with
          passes := tset k.passes n { p with sealed := true, sealing := none },
          tiles := k.tiles.map (fun y => if y.2.pass = n ∧ y.2.state = .opened then (y.1, { y.2 with state := .sealed }) else y) })).completeWait
            w.core w.wg w.grp x [] none) ∧
    (∃ t, exec (.tileScan die) s = .next t ∧
      ((s.die die).scan ≠ none ∨ (∀ y ∈ (s.die die).tiles, y.2.state ≠ .sealed) → t = s)) ∧
    (n < 4096 → exec (.binTimeout die n) s = .next (
      if (s.bin die n).empty = true ∨ s.cycle < (s.bin die n).last + 4096 then s else s.flushBin die n true))

/-- The directory's events (R350 to R353) at an address that the directory covers: a Gets, a Getm or a promotion makes the cluster's request,
a Put that crosses a forward is dropped and another gives up the cluster's copies with the bytes modified in them, a forward, a fill or an
acknowledgement is what the transition waits for, a line is evicted unless a transition is under way; elsewhere Gets and Getm have no effect.
The TLB's (R325, R328, R329): a fill of another generation walks again, an invalidation reaches its cluster once no access that it matches is
in flight; the atomic unit applies what reached it first (R331). It rests on the model's own reading in log entries 15, 45 and 91. -/
def Obligations.CacheEventsAct : Prop :=
  ∀ (k pa asid va n : Nat) (s : State), k < 96 →
    let line := pa / 128
    (s.directed pa = true →
      exec (.gets k pa) s = .next (s.request k line false) ∧ exec (.promotionDemand k pa) s = .next (s.request k line false) ∧
      exec (.getm k pa) s = .next (s.request k line true) ∧
      (∀ t, s.transOf line = some t → t.owner = some k → exec (.put k pa) s = .next s) ∧
      ((∀ t, s.transOf line = some t → t.owner ≠ some k) →
        exec (.put k pa) s = .next ((s.dropLine k line).dirPut k line (s.dirtyIn k line))) ∧
      exec (.forward k pa) s =
        .next (s.advanceTrans line (fun t => if t.owner = some k then { t with owner := none } else t)) ∧
      exec (.memoryFillReturn pa) s = .next ((s.l2Fill line).advanceTrans line (fun t => { t with fill := false })) ∧
      (∀ t, s.transOf line = some t → t.acks &&& oneSharer k ≠ 0 → exec (.invalidationAcknowledgement k pa) s =
        .next ((((s.markDirty line (s.dirtyIn k line)).dropLine k line).modDir line (fun e =>
          { e with sharers := e.sharers &&& ~~~(oneSharer k) })).advanceTrans line (fun t => { t with acks := t.acks &&& ~~~(oneSharer k) }))) ∧
      exec (.l2Eviction pa) s = .next (if s.transOf line = none then s.evictLine line else s)) ∧
    (s.directed pa = false → exec (.gets k pa) s = .next s ∧ exec (.getm k pa) s = .next s) ∧
    (BitVec.ofNat 16 n ≠ (s.cluster k).walkGen → exec (.tlbWalkFill k asid va n) s =
      .next { s with inbox := s.inbox ++ [.tlbWalkFill k asid va (s.cluster k).walkGen.toNat] }) ∧
    (∀ e, BitVec.ofNat 16 n = (s.cluster k).walkGen → s.walk asid va = .ok e → s.tlbHit k asid va = none →
      exec (.tlbWalkFill k asid va n) s = .next (s.modCluster k (fun c => c.fillTlb e))) ∧
    (n < 3 →
      (s.invPending [k] n asid va = true →
        exec (.tlbInvalidation k n asid va) s = .next { s with inbox := s.inbox ++ [.tlbInvalidation k n asid va] }) ∧
      (s.invPending [k] n asid va = false → exec (.tlbInvalidation k n asid va) s = .next (s.invalidate k n asid va))) ∧
    ((s.cluster k).atomReqs = [] → exec (.clusterAtomic k) s = .next s) ∧
    ∀ r t w, (s.cluster k).atomReqs = r :: t →
      let q := (s.modCluster k (fun c => { c with atomReqs := t })).unitLanes k r r.lanes
      s.wg r.who.core r.who.wg = some w → w.uid = r.who.uid →
      exec (.clusterAtomic k) s = .next (q.2.modGroup r.who.core r.who.wg r.who.grp (fun g => g.unitAnswer r q.1))

/-- The network's events (R356, R359, R366 to R368): a split write, and a resize when it is the first of its queue; a router's gating, its
completion, its waking and its completion; a link's retries, with the sixteenth failure in a row taking it out of service; and errors (R345,
R369, R515, R517): an uncorrectable error of a core's control aborts its workgroups, a corrected line is counted, a scrub read counts what it
corrected and loses the line that it could not. It rests on the model's own reading in log entries 43, 62, 69, 73 and 77. -/
def Obligations.NetworkAndErrorEventsAct : Prop :=
  ∀ (die n v : Nat) (s : State), die < 4 →
    let router := fun (f : Router → Router) => s.modDie die (fun k => { k with routers := tset k.routers n (f ((s.die die).router n)) })
    (n < 8 → exec (.splitRegisterWrite die n v) s = .next (s.writeSplit die n v) ∧
      exec (.resizeComplete die n) s = .next (if (s.die die).resizes.head? = some n then s.finishResize die n else s)) ∧
    (n < 24 →
      exec (.routerIdleGate die n) s = .next (router (fun x =>
        if (n % 4 ≠ 3 ∧ n ≠ 1 ∧ n ≠ 9 ∧ n ≠ 13 ∧ n ≠ 6 ∧ n ≠ 18) ∧ x.state = .on ∧ x.last + 2048 ≤ s.cycle ∧ (s.die die).forbid.getLsbD n = false
        then { x with state := .gating, till := s.cycle + 8 } else x)) ∧
      exec (.routerGatingComplete die n) s =
        .next (router (fun x => if x.state = .gating ∧ x.till ≤ s.cycle then { x with state := .gated } else x)) ∧
      exec (.routerWake die n) s = .next (router (fun x => if x.state = .gated then { x with state := .waking, till := s.cycle + 40 }
        else if x.state = .gating then { x with state := .on, last := s.cycle } else x)) ∧
      exec (.routerWakeComplete die n) s =
        .next (router (fun x => if x.state = .waking ∧ x.till ≤ s.cycle then { x with state := .on, last := s.cycle } else x))) ∧
    exec (.routerGatingWrite die v) s = .next (s.writeGating die v) ∧
    (n < 51 →
      let old := tgetD (s.die die).linkRetries n 0
      let put := fun (t : State) (x : Nat) => t.modDie die (fun k => { k with linkRetries := tset k.linkRetries n x })
      exec (.linkFlitRetry die n v) s = .next (if old = linkOut then s
        else if v = 1 then put (s.count 6 (sourceOf die 0xFFF)) 0 else if old < 15 then put s (old + 1) else (put s linkOut).firmwareCause 3)) ∧
    (∀ site t, s.uncorrectable site = some t → exec (.uncorrectableError site) s = .next t) ∧
    (∀ site, s.uncorrectable site = none → exec (.uncorrectableError site) s = .next s) ∧
    (n < 384 → exec (.uncorrectableError (.coreControl n)) s =
      .next (((s.firmwareCause 4).core n).wgs.foldl (fun s w => s.abortWg n w.1 0x0B) (s.firmwareCause 4))) ∧
    (∀ line, exec (.correctedSoftError (.line line false)) s =
      .next (s.count 6 (sliceSource (s.homeDie (128 * line)) (homeSlice (128 * line))))) ∧
    (s.isLocal n = true → exec (.scrubRead n 0) s = .next s ∧
      exec (.scrubRead n 1) s = .next ((s.count 6 (sourceOf (s.homeDie n) (0x400 + s.controller n))).tally (s.bankCounter n)) ∧
      exec (.scrubRead n 2) s = .next (s.loseLine (n / 128)))

/-- Events of the host link (R486, R487, R492 to R499, R503): a command register write without its go bit does nothing; a migration completes
unless a boarded word keeps its source, and leaves none busy; a bias flip starts, and its completion ends it; host reads, writes, write-backs
and snoops at HDM addresses and at those of the host window, with no effect at others; answers and timeouts of MMIO reads. It rests on the
model's own reading in log entries 39, 46, 47, 48 and 75. -/
def Obligations.HostLinkEventsAct : Prop :=
  ∀ (die n v : Nat) (data : List Byte) (s : State),
    exec (.migrationGo v) s = .next (s.migrationCommand v) ∧
    (v % 2 = 0 → v / 2 ^ 62 % 2 = 0 → exec (.migrationGo v) s = .next s) ∧
    (∀ m, s.pkg.migration = some m → (∃ b ∈ s.pkg.boarded, 8 * b.word / 65536 = m.src / 65536) → exec .migrationComplete s = .next s) ∧
    (s.pkg.migration = none → exec .migrationComplete s = .next s) ∧
    (∀ m, s.pkg.migration = some m → (∀ b ∈ s.pkg.boarded, 8 * b.word / 65536 ≠ m.src / 65536) →
      ∃ t, exec .migrationComplete s = .next t ∧ t.pkg.migration = none ∧ t.pkg.regs.busy = false) ∧
    (die < 4 →
      exec (.biasFlip die v) s = .next (s.writeBias die v) ∧
      ((s.die die).bias.busy = false → exec (.biasFlipComplete die) s = .next s) ∧
      ((s.die die).bias.busy = true → ∃ t, exec (.biasFlipComplete die) s = .next t ∧ (t.die die).bias.busy = false)) ∧
    (∀ pa, hostAddr n = some pa → s.stopped pa = true → exec (.hostReadShared n) s = .next { s with inbox := s.inbox ++ [.hostReadShared n] }) ∧
    (∀ pa, hostAddr n = some pa → s.stopped pa = false →
      exec (.hostReadShared n) s = .next ((s.hostTouch pa).hostHalf pa false) ∧
      exec (.hostReadOwned n) s = .next ((s.hostTouch pa).hostHalf pa true) ∧
      exec (.hostMemoryWrite n data) s = .next (s.hostWrite pa data) ∧ exec (.peerPostedWrite n data) s = .next (s.hostWrite pa data) ∧
      (∃ t bs, exec (.peerRead n v) s = .next t ∧ t.pkg.peerReads = s.pkg.peerReads ++ [bs]) ∧
      let line := pa / 128
      let owned := (if pa / 64 % 2 = 0 then (s.halves line).1 else (s.halves line).2) = .o
      (¬ owned ∨ data.length ≠ 64 → exec (.hostWriteback n data) s = .next s) ∧
      (owned → data.length = 64 →
        exec (.hostWriteback n data) s = .next (((s.reach line).setHalf line (pa / 64 % 2) .i).homeBytes (pa / 64 * 64) data))) ∧
    (hostAddr n = none → exec (.hostReadShared n) s = .next s) ∧
    (s.region n = .host → s.stopped n = false → exec (.hostSnoop n v) s = .next (s.hostHalf n (decide (v = 1)))) ∧
    (∀ o, s.outsideOf n = some o → o.package = 126 →
      (exec (.mmioReadCompletion n 0 v) s = .next (s.answer o (some v))) ∧
      (∀ status, status ≠ 0 → exec (.mmioReadCompletion n status v) s = .next (s.answer o none)) ∧
      exec (.mmioReadTimeout n) s = .next (if o.sent + 19000000 ≤ s.cycle then s.answer o none else s)) ∧
    (s.outsideOf n = none → exec (.mmioReadCompletion n 0 v) s = .next s ∧ exec (.mmioReadTimeout n) s = .next s)

/-- Events of the fabric (R519 to R528): a flit is taken only by a port in service, with a good CRC, with space, in sequence; a refusal goes
to its port; a port that is enabled and has not failed trains, another does not; an access of another package is performed where the inbound
table allows it, else answered in error; acknowledgements and resets complete what is outstanding. It rests on the model's own reading in log
entries 33, 52, 53 and 91. -/
def Obligations.FabricEventsAct : Prop :=
  ∀ (port id : Nat) (r : RemoteReq) (s : State),
    (port < 144 →
      let p := s.port port
      let serves := p.enable = true ∧ p.up = true ∧ p.failed = false ∧ p.crcRefusals < 32
      (∀ flit, serves → flit.crcOk = true → flit.space = true → p.rxSeq.toNat = flit.seq % 4096 → exec (.flitReceive port flit) s =
        .next ((flit.msg :: flit.second.toList).foldl (fun t m => t.answerRemote m.access (if m.ok then some (leNat m.data) else none))
          (s.modPort port (fun x => { x with rxSeq := x.rxSeq + 1 })))) ∧
      (∀ flit, ¬ serves ∨ flit.crcOk = false ∨ flit.space = false ∨ p.rxSeq.toNat ≠ flit.seq % 4096 →
        exec (.flitReceive port flit) s = .next s) ∧
      (∀ seq crc, exec (.flitRefusal port seq crc) s = .next (s.modPort port (fun p => p.refuse seq (decide (crc = 1))))) ∧
      (∀ ok, p.enable = true → p.failed = false → exec (.portRetrain port ok) s = .next (s.retrain port (decide (ok = 1)))) ∧
      (∀ ok, p.enable = false ∨ p.failed = true → exec (.portRetrain port ok) s = .next s)) ∧
    (let legal := r.src < 126 ∧ 0 < r.size ∧ r.size ≤ 128 ∧ (r.kind ≠ .atomic ∨ r.size ≤ 8) ∧ s.stopped r.pa = false
     let refused := s.inboundOk r = false ∨ s.ownable r.pa r.size = false ∨ s.inboundLost r = true
     (legal → refused → exec (.inboundAccess r) s = .next (s.reply r none)) ∧
     (legal → ¬ refused → r.kind = .read →
       exec (.inboundAccess r) s = .next ((s.sliceRead 96 noAsid 0 r.pa).reply r (some (s.readPhys r.pa r.size)))) ∧
     (legal → ¬ refused → r.kind = .write →
       exec (.inboundAccess r) s = .next ((s.inboundWrite r.pa (leBytes r.size r.data.toNat)).reply r (some 0))) ∧
     (r.src < 126 → r.kind = .atomic → (r.size = 4 ∨ r.size = 8) → r.pa % r.size = 0 → r.aop < 15 → s.stopped r.pa = false → ¬ refused →
       exec (.remoteAtomic r) s = .next (s.remoteAtomic r))) ∧
    (s.outsideOf id = none → exec (.remoteWriteAck id) s = .next s) ∧
    (∀ o, s.outsideOf id = some o → o.work = .store → o.package < 126 →
      exec (.remoteWriteAck id) s = .next ((s.acknowledge id).answer o (some 0))) ∧
    (id < 126 → exec (.peerReset id) s = .next ((s.pkg.outside.filter (fun o => decide (o.package = id))).foldl
      (fun s o => (s.acknowledge o.id).answer o none) s))

/-- Events of power and thermal control (R505 to R507, R510): a partition's duty falls, rises or stays at the end of an interval as its energy
lies against the cap; a cap is at most 2,400 W; a droop lowers the limiter's duty to 8 for 64 cycles; a reading of 110 °C lowers the thermal
duty to 1, all below 100 °C restore it, 125 °C trips; these duties change at cycles that are multiples of 16; a forecast changes no memory. It
rests on the model's own reading in log entries 58, 59, 61, 62 and 73. -/
def Obligations.PowerEventsAct : Prop :=
  ∀ (die n v : Nat) (s : State),
    (n < 8 →
      (s.cycle % 16 = 0 → (s.latchDuties.part n).k = (s.part n).nextK) ∧
      exec (.powerCapWrite n v) s = .next (s.modPart n (fun p => { p with cap := BitVec.ofNat 12 (min (v / 2 ^ 32 % 2 ^ 12) 2400) })) ∧
      (s.cycle % 19000 ≠ 0 → exec (.partitionPowerInterval n) s = .next s) ∧
      (s.cycle % 19000 = 0 → exec (.partitionPowerInterval n) s = .next (s.modPart n (fun p =>
        let e := p.charged + Config.idleEnergy n s.cycle
        let next := if p.cap = 0 then 16 else if p.cap.toNat * 10 < e then max 1 (p.k - 1)
          else if e * 16 < p.cap.toNat * 150 then min 16 (p.k + 1) else p.k
        { p with nextK := next, k := if s.cycle % 16 = 0 then next else p.k,
                 energy := p.energy + e, power := BitVec.ofNat 32 (min (e * 100) (2 ^ 32 - 1)), charged := 0 })))) ∧
    (die < 4 →
      exec (.currentDroop die) s = .next (((s.modDie die (fun d =>
        { d with limiterTill := some ((s.cycle / 16 + 1) * 16 + 64) })).count 9 (sourceOf die 0xFFF)).tally (0x5E8 + die)) ∧
      (∀ t, (s.die die).limiterTill = some t → exec (.limiterRestore die) s = .next (
        if t ≤ s.cycle then s.modDie die (fun d => { d with limiterDuty := 16, limiterTill := none }) else s)) ∧
      ((s.die die).limiterTill = none → exec (.limiterRestore die) s = .next s) ∧
      (∀ temp : Int, n < 96 → temp < 125000 → exec (.thermalSensor die n temp) s = .next (s.modDie die (fun k =>
        { k with sensors := tset k.sensors n temp,
                 nextThermal := if (tset k.sensors n temp).any (fun x => decide (110000 ≤ x.2)) then 1
                   else if (tset k.sensors n temp).all (fun x => decide (x.2 < 100000)) then 16 else k.nextThermal }))) ∧
      (∀ temp : Int, n < 96 → 125000 ≤ temp → ∃ t, exec (.thermalSensor die n temp) s = .next t ∧ t.pkg.boot = .tripped ∧
        ∀ c, (t.core c).wgs = []) ∧
      (∃ t, exec (.thermalTrip die) s = .next t ∧ t.pkg.boot = .tripped ∧ ∀ c, (t.core c).wgs = []) ∧
      (∀ t, s.cycle % 16 = 0 → (s.die die).limiterTill = some t → s.cycle < t → (s.latchDuties.die die).limiterDuty = 8) ∧
      (s.cycle % 16 = 0 → (s.latchDuties.die die).thermalDuty = (s.die die).nextThermal) ∧
      (∀ peaks : List Int, ∃ t, exec (.thermalForecast die peaks) s = .next t ∧ t.mem = s.mem))

/-- Boot completes under every script (R514): a primary step that fails at once ends in recovery, ten good steps make the package ready unless
an image does not verify; SPDM requests are answered (R513); a lifetime counter grows (R515); a register is written by its map, unless the
package is in recovery or tripped (R12, R476, R514); partitions are created and destroyed (R340, R436). It rests on the model's own reading in
log entries 54, 55, 57, 62 and 65. -/
def Obligations.BootAndRegisterEventsAct : Prop :=
  ∀ (n v w : Nat) (nonce : List Byte) (s : State),
    let answers := fun (i : Instr) (a : SpdmAnswer) => exec i s = .next (s.modPkg (fun p => { p with spdm := p.spdm ++ [a] }))
    (∀ script, ∃ t, exec (.boot script) s = .next t) ∧
    (∀ o : BootOutcome, o.primaryOk = false → s.pkg.boot = .off → s.pkg.journal = [] →
      ∃ t, exec (.boot [o]) s = .next t ∧ t.pkg.boot = .recovery ∧ t.pkg.journal = [⟨1, false, false⟩]) ∧
    (∀ o : BootOutcome, o.primaryOk = true → o.cls < 16 → s.pkg.boot = .off → s.pkg.journal = [] →
      ∃ t, exec (.boot (List.replicate 10 o)) s = .next t ∧
        (if Config.imageVerifies o.image then t.pkg.boot = .ready ∧ t.pkg.journal = []
         else t.pkg.boot = .off ∧ t.pkg.journal = [⟨1, false, true⟩, ⟨2, false, false⟩])) ∧
    answers .getVersion (.version 1 3) ∧ answers .getCapabilities (.capabilities true true true) ∧
    answers (.negotiateAlgorithms v w) (.algorithms (v &&& 0x10) (w &&& 0x1)) ∧
    answers .getDigests (.digests (sha256 Config.certificate)) ∧
    answers (.getCertificate 0 v w) (.certificate ((Config.certificate.drop v).take w)) ∧
    answers (.challenge 0 nonce) (.challengeAuth (Config.sign (sha256 Config.certificate ++ nonce))) ∧
    (1 ≤ n → n ≤ 16 → answers (.getMeasurements n v nonce) (.measurement n (s.pkg.measured (n - 1))
      (if v = 1 then some (Config.sign (nonce ++ s.pkg.measured (n - 1))) else none))) ∧
    (n ≠ 0 → answers (.getCertificate n v w) .unsupported ∧ answers (.challenge n nonce) .unsupported) ∧
    answers (.getMeasurements 0 v nonce) .unsupported ∧ answers (.spdmUnsupported n) .unsupported ∧
    (n ≤ 0x5EC → exec (.lifetimeCounterUpdate n v) s =
      .next (s.modPkg (fun p => { p with
        lifetime := tmod (p.counted.foldl (fun t x => tmod t x.1 0 (· + x.2)) p.lifetime) n 0 (· + BitVec.ofNat 64 v), counted := [] }))) ∧
    (∀ d, s.region n = .control d →
      (s.pkg.boot = .recovery ∨ s.pkg.boot = .tripped → exec (.registerWrite n v) s = .next s) ∧
      (s.pkg.boot = .off ∨ s.pkg.boot = .ready →
        exec (.registerWrite n v) s = .next (s.writeRegister d (n % 2 ^ 24) (v % 2 ^ 64)))) ∧
    (n < 8 → ∃ t, exec (.partitionDestruction n) s = .next t ∧ (t.part n).live = false) ∧
    (∀ spec, n < 8 → (s.part n).live = false → s.clustersFree spec.clusters = true → spec.scratchKiB ≤ 448 → spec.scratchKiB % 64 = 0 →
      exec (.partitionCreation n spec) s = .next (s.createPartition n spec))

/-! ## What every word meets -/

/-- The checks that every word of a group meets before its own effect, in their order: PRIV without privilege (R41, R42), a wait for an
outstanding result, a held-back free or an acquire (R31, R66, R526), STALL_SHORT of an early read (R32), the deferred fault of a failed load
or of a damaged register (R287, R517); a word with no active lane has no effect (R64). It rests on the model's own reading in log entry 23. -/
def Obligations.EveryWordMeetsTheChecksAtIssue : Prop :=
  ∀ (i : Instr) (s : State) (c : Ctx), i.isWord = true → s.isSlice = false → s.ctx (s.uses i).guard = some c →
    let u := s.uses i
    let barred := u.priv = true ∧ c.wg.priv = false
    let guarded := c.earlyGuard u s.cycle = []
    let waits := c.busy u = true ∨ c.freeHeld u = true ∨ ((u.cls = .m ∨ u.cls = .x) ∧ s.acqHeld c = true)
    (barred → Traps i c ⟨.priv, listMask c.path, 0⟩ s) ∧
    (¬ barred → guarded → waits → Holds i c s) ∧
    (¬ barred → guarded → ¬ waits → c.earlyReads u s.cycle ≠ [] → c.src.ctrl.stallchk = true →
      Traps i c ⟨.stallShort, listMask c.path, 0⟩ s) ∧
    -- an early guard: what it leaves active waits, or the word is STALL_SHORT
    (¬ barred → ¬ guarded → c.src.ctrl.stallchk = true →
      let p := c.poisoned u (c.earlyGuard u s.cycle) s
      let waits := p.1.busy u = true ∨ c.freeHeld u = true ∨ ((u.cls = .m ∨ u.cls = .x) ∧ s.acqHeld p.1 = true)
      (waits → Holds i c s) ∧ (¬ waits → Traps i c ⟨.stallShort, listMask c.path, 0⟩ s)) ∧
    (¬ barred → guarded → ¬ waits → c.earlyReads u s.cycle = [] →
      (∀ f, c.failedRead u = some f → f.precise = true → Traps i c ⟨.memUe, c.mask, f.addr⟩ s) ∧
      (∀ f, c.failedRead u = some f → f.precise = false → exec i s = .next (c.finish u s (.trap ⟨.memUe, f.mask, f.addr⟩ true
        (s.modCur (fun g => { g with failed := g.failed.filter (fun x => x.precise || decide (x.batch ≠ f.batch)) }))))) ∧
      (c.failedRead u = none → c.act = [] → Does i c s s))

/-- THE FRAME of a word that completes with results o and no other effect, as the result statements say of the instructions that they name:
memory, the clusters, the dies and the package are as before, and so is every other group; of the issuing group every register that is no
destination and is not freed by this word keeps its value, every predicate that is no destination keeps its own, and so do the join masks, the
control registers, the quota, and every generator that the word does not advance. It rests on the model's own reading in log entry 23. -/
def Obligations.CompletedWordsChangeOnlyTheirDestinations : Prop :=
  ∀ (i : Instr) (c : Ctx) (o : Out) (s : State), Ready i c s →
    let u := completed i c o s id s
    u.mem = s.mem ∧ u.clusters = s.clusters ∧ u.dies = s.dies ∧ u.pkg = s.pkg ∧ u.cycle = s.cycle ∧ u.agenda = s.agenda ∧ u.inbox = s.inbox ∧
    (∀ core w g, ¬ (core = s.cur.who.core ∧ w = s.cur.who.wg ∧ g = s.cur.who.grp) → u.group core w g = s.group core w g) ∧
    ∃ g, u.group s.cur.who.core s.cur.who.wg s.cur.who.grp = some g ∧
      (∀ r, r ∉ o.vs.map (·.reg) → r ∉ o.sides.map (·.1) → r ∉ c.freesNow (s.uses i) → tget g.regs r = tget c.grp.regs r) ∧
      (∀ l q, q ∉ o.qs.map (·.1) → (g.lane l).pred q = (c.grp.lane l).pred q) ∧
      (∀ l, l ∉ o.gens.map (·.1) → (g.lane l).gen = (c.grp.lane l).gen) ∧
      g.joins = c.grp.joins ∧ g.ctrl = c.grp.ctrl ∧ g.quota = c.grp.quota ∧ g.lanes.length = c.grp.lanes.length

/-- A destination register after a word that completes with it alone (R58, R61, R63): it has the word's shape; it is the old register where
that has this shape and was not freed, else a zeroed one of the group's width; each active lane that it has holds the word's value, but for
one that a lower word of the chain has ended (R179). It rests on the model's own reading in log entry 23. -/
def Obligations.DestinationsTakeTheirValues : Prop :=
  ∀ (i : Instr) (c : Ctx) (d : Nat) (k : Shape) (v : Nat → Elem) (s : State), Ready i c s →
    let u := completed i c (Out.v d k (lanes c v)) s id s
    let old := match tget (freeRegs c.grp.regs (c.freesNow (s.uses i))) d with
      | none => VReg.zero k c.grp.width
      | some x => if x.shape = k then x else VReg.zero k c.grp.width
    ∃ g x, u.group s.cur.who.core s.cur.who.wg s.cur.who.grp = some g ∧ tget g.regs d = some x ∧ x.shape = k ∧ x.side = old.side ∧
      x.lanes.length = old.lanes.length ∧
      ∀ l e, old.lanes[l]? = some e → x.lanes[l]? = some (if l ∈ c.act ∧ (c.grp.lane l).exited = false then v l else e)

/-- THE FRAME of ST and LD: where the lanes of ST go to this package, outside the bytes that they address, and outside the report ring of
R490, every byte of memory reads as before; LD of data in this package leaves every byte outside that ring as before. For one lane in one
line, the stored bytes read as the low bytes of d, least significant first, where neither the report ring lies nor a half that the host owned;
a byte of a word that boards from such a half is no matter of the frame. It rests on the model's own reading in log entries 6, 18 and 47. -/
def Obligations.StoresChangeOnlyTheirBytes : Prop :=
  ∀ (f : MMem) (s : State) (c : Ctx),
    let n := szBytes f.z
    let settled := fun (a : Nat) => s.hostHeld (a / 64) ≠ none → s.isBoarded a = false
    let ring := fun (a : Nat) => s.pkg.regs.ringbase ≤ a ∧ a < s.pkg.regs.ringbase + 32 * 2 ^ s.pkg.regs.lgrec
    (∀ at_ t, Ready (.st f) c s →
      Accepted s c (Acc.plain .write (szAlign f.z) n (decide (f.z < 6)) f.h) c.doers (addrOf f.a f.o n c) at_ t →
      (∀ l ∈ c.doers, t.outsidePlace (at_ l) = false) → ∀ u, exec (.st f) s = .next u →
      (∀ a, ¬ ring a → settled a → (∀ l ∈ c.doers, ∀ ps, at_ l = .global ps → ∀ p ∈ ps, ¬ (p.pa ≤ a ∧ a < p.pa + p.len)) →
        u.cur.live = true → u.readByte a = s.readByte a) ∧
      (∀ l p, c.doers = [l] → at_ l = .global [p] → Memory.wf s.mem = true → p.pa + p.len ≤ 0x400000000000 → u.cur.live = true →
        ∀ j, j < p.len → ¬ ring (p.pa + j) → s.hostHeld ((p.pa + j) / 64) = none → u.readByte (p.pa + j) = (leBytes n (c.src.readN f.d l)).getD j 0)) ∧
    ∀ at_ t, Ready (.ld f) c s →
      Accepted s c (Acc.plain .read (szAlign f.z) n (decide (f.z < 6)) f.h) c.act (addrOf f.a f.o n c) at_ t →
      (∀ l ∈ c.act, Readable t (at_ l)) → ∀ u, exec (.ld f) s = .next u → u.cur.live = true →
      ∀ a, ¬ ring a → settled a → u.readByte a = s.readByte a

/-- TAKING AN EXCEPTION (R260): a user cause of a word writes cause, H, A, `trappc`, `trapmask` and `trapaddr`, sends the path's lanes that
have not exited to `trapbase` with their repeat state, their target and the join that they were to wait at kept, holds the other paths, and
changes no register, join mask or memory; with a handler running, with no handler, or with a `trapbase` that is no multiple of 12, the
workgroup aborts with the cause (R261). RETURNING FROM IT (R262): at the end of ERET's chain the handler path's lanes continue at `trappc`,
with what was kept when it is as the entry left it, and the held lanes are released; no other state of the lanes changes. It rests on the
model's own reading in log entry 17. -/
def Obligations.ExceptionsAreTakenAndReturned : Prop :=
  (∀ (g : Group) (l : Nat), l < g.lanes.length →
    let y := g.lane l
    let back := { y with pc := g.ctrl.trappc.toNat / 4, handler := false, rep := none, kept := none, target := none, keptTarget := none,
                         joining := none, keptJoin := none }
    g.leaveTrap.ctrl = { g.ctrl with trapH := false } ∧ g.leaveTrap.regs = g.regs ∧ g.leaveTrap.joins = g.joins ∧
    (y.handler = false → g.leaveTrap.lane l = { y with held := false }) ∧
    (y.handler = true → g.ctrl.trappc = g.entryPc → g.leaveTrap.lane l =
      { back with rep := y.kept, target := y.keptTarget, joining := y.keptJoin }) ∧
    (y.handler = true → g.ctrl.trappc ≠ g.entryPc → g.leaveTrap.lane l = back)) ∧
  ∀ (i : Instr) (c : Ctx) (x : Trap) (s : State), Ready i c s → Traps i c x s → s.cur.snap = none →
    let k := c.grp.ctrl
    let bad := k.trapH = true ∨ k.trapbase = 0 ∨ k.trapbase.toNat % 12 ≠ 0
    (bad → exec i s = .next (({ s with cur := { s.cur with live := false, waited := false } }).abortWg s.cur.who.core s.cur.who.wg
      (BitVec.ofNat 8 x.cause.code))) ∧
    (¬ bad → ∃ u g, exec i s = .next u ∧ u.group s.cur.who.core s.cur.who.wg s.cur.who.grp = some g ∧
      g.ctrl = { k with trapH := true, trapA := false, trapcause := BitVec.ofNat 8 x.cause.code, trappc := BitVec.ofNat 55 (4 * s.cur.pc),
                        trapmask := x.mask, trapaddr := x.addr } ∧
      (∀ l, l < c.grp.lanes.length → let y := c.grp.lane l
        g.lane l = if y.exited then y
          else if l ∈ c.path then { y with pc := k.trapbase.toNat / 4, kept := y.rep, rep := none, keptTarget := y.target, target := none,
                                           keptJoin := y.joining, joining := none, handler := true }
          else { y with held := true }) ∧
      g.regs = c.grp.regs ∧ g.joins = c.grp.joins ∧ g.quota = c.grp.quota ∧ u.mem = s.mem ∧ u.cur.live = false)

/-! ## The machine -/

/-- A STEP RUNS THE DECODED WORD: where the next work is a word of a live chain, and the bytes at the program counter are fetched and decode,
under the repeat that steps them (R45), to i, the step is exec of i; a word that is no instruction, and one that cannot be fetched, trap (R40,
R178); a word whose slice has stopped waits (R368); a chain that has ended skips its words (R42); an event runs as exec; with no work left the
next cycle begins. It rests on the model's own reading in log entries 4, 9 and 39. -/
def Obligations.AStepRunsTheDecodedWord : Prop :=
  ∀ (s : State) (rest : List Item),
    let here := { s with agenda := rest }
    let served := here.fetchStopped s.cur.pc = false
    (∀ w t i, s.agenda = .word :: rest → s.cur.live = true → served → here.fetchCur s.cur.pc = (.ok w, t) → decode (t.issueWord w) = .ok i →
      step s = exec i t) ∧
    (∀ w t e, s.agenda = .word :: rest → s.cur.live = true → served → here.fetchCur s.cur.pc = (.ok w, t) → decode (t.issueWord w) = .error e →
      step s = .next (t.badWord w.toNat)) ∧
    (∀ x t, s.agenda = .word :: rest → s.cur.live = true → served → here.fetchCur s.cur.pc = (.error x, t) →
      step s = .next (t.stepFault x (BitVec.ofNat 64 (4 * t.cur.pc)))) ∧
    (s.agenda = .word :: rest → s.cur.live = true → ¬ served → step s = .next { here with cur := { s.cur with live := false, waited := true } }) ∧
    (s.agenda = .word :: rest → s.cur.live = false → step s = .next here) ∧
    (∀ i, s.agenda = .event i :: rest → step s = exec i here) ∧
    (s.agenda = [] → step s = .next s.tick)

/-- Words of the spec's own worked examples decode to the instructions that they stand for: words of the examples after R54 (the first three),
R196, R231, R262, R317, R321, R323, R440, R160, R468, R334, R341 and R414, in this order. -/
def Obligations.WorkedExamplesDecode : Prop :=
  decode 0x9841FF80 = .ok (.iaddi ⟨1, 2, 1, 511, 0, 0⟩) ∧ decode 0x04224000 = .ok (.rep 2 1 1 0) ∧
  decode 0x8CE42C02 = .ok (.xor ⟨1, 7, 4, 5, 1, 0, 0, 0⟩) ∧
  decode 0x40E00002 = .ok (.br 0 1 3 2) ∧ decode 0x48611034 = .ok (.vote 0 3 1 2 0 6) ∧
  decode 0x60230004 = .ok (.smxu 0 0 1 3 0) ∧ decode 0x60108003 = .ok (.awriteF32 0 0 2 1) ∧
  decode 0x1C20000C = .ok (.movi ⟨0, 1, 1, 4⟩) ∧ decode 0x00100005 = .ok (.trap 0 5) ∧ decode 0x0031000A = .ok (.crr 0 2 10) ∧
  decode 0x0041000A = .ok (.crw 0 2 10) ∧ decode 0x00200000 = .ok (.eret 0) ∧ decode 0x00000000 = .ok (.nop 0) ∧
  decode 0x50610421 = .ok (.st ⟨0, 3, 1, 0, 4, 1, 0⟩) ∧ decode 0x54A121A1 = .ok (.atomFadd ⟨0, 5, 1, 4, 1, 0, 0, 1⟩) ∧
  decode 0x614C8000 = .ok (.mma ⟨0, 1, 2, 3, 0, 1, 0⟩) ∧ decode 0x15EF8067 = .ok (.sel ⟨0, 15, 15, 16, 0, 0, 1, 4⟩) ∧
  decode 0x58022C20 = .ok (.aslice 0 4 11 1) ∧ decode 0x5816058F = .ok (.pusht 0 3 2 12 15) ∧
  decode 0x5C90B232 = .ok (.barwait 0 1 12 17 18) ∧ decode 0x5C503600 = .ok (.swwait 0 13 16) ∧
  decode 0x64108C85 = .ok (.cboardr 0 1 3 4 5) ∧ decode 0x00700003 = .ok (.fence 0 3) ∧ decode 0x6429C800 = .ok (.calight 0 19 18) ∧
  decode 0x28329E21 = .ok (.fcmpLe ⟨0, 1, 18, 19, 1, 1, 0, 4⟩) ∧ decode 0x36820106 = .ok (.ivsplit ⟨0, 20, 2, 0, 4, 0⟩) ∧
  decode 0x68001114 = .ok (.rast 0 4 8 20) ∧ decode 0x68208981 = .ok (.bpushHit 0 0 1 2 12) ∧ decode 0x68451002 = .ok (.attr 0 10 4 0 2) ∧
  decode 0x5CA19401 = .ok (.nbarrive 0 3 5 1) ∧ decode 0x6C1018F2 = .ok (.rgrabSet 0 6 7 2) ∧ decode 0x6C008860 = .ok (.enq 0 1 2 3)

/-- WHAT RESET LEAVES, as the rules give it: nothing resident, no queue, bin, pass or port enabled and no slot in use (R394, R448, R443, R521,
R417); the duties 16 (R507, R510); every TLB empty and every range descriptor zero (R325, R340); the package registers, the measurement
registers and the route table zero and `self` 127 (R485, R512, R522); memory lists nothing, in canonical form. And WHAT A GROUP STARTS WITH:
no register allocated, no predicate but F, join masks zero, the launch quota (R56), nearest-even (R87), the seed of R91 and the superscales
1.0 (R92, R227), and the control registers of R245. The values of R396's register are the model's own (log entry 1) and are not stated. It
rests on the model's own reading in log entries 1 and 2. -/
def Obligations.ResetLeaves : Prop :=
  let s := State.reset
  Memory.wf s.mem = true ∧ s.mem = [] ∧ s.cycle = 0 ∧ s.agenda = [] ∧ s.inbox = [] ∧
  (∀ n, (s.core n).wgs = [] ∧ (s.core n).l1 = [] ∧ (s.core n).duty = 16 ∧ (s.core n).halfRow = false ∧ (s.core n).grant = [0, 1, 2, 3]) ∧
  (∀ n, (s.cluster n).tlb = [] ∧ (s.cluster n).ranges = [] ∧ (s.cluster n).queue = []) ∧
  (∀ n, let d := s.die n
    (∀ q, d.queue q = Queue.reset) ∧ d.slots = [] ∧ d.churnLimit = [] ∧ d.passes = [] ∧ d.tiles = [] ∧ d.bins = [] ∧ d.binAsid = [] ∧
    d.ports = [] ∧ d.forbid = 0 ∧ d.split = [] ∧ d.thermalDuty = 16 ∧ d.limiterDuty = 16) ∧
  Queue.reset.enable = false ∧ Queue.reset.read = 0 ∧ Queue.reset.write = 0 ∧ Port.reset.enable = false ∧ Port.reset.peer = 127 ∧
  (∀ p, (s.part p).live = false ∧ (s.part p).k = 16 ∧ (s.part p).cap = 0) ∧
  s.pkg.regs = PkgRegs.reset ∧ s.pkg.self = 127 ∧ s.pkg.routes = [] ∧ (∀ n, s.pkg.measured n = List.replicate 32 0) ∧
  ∀ (p : BitVec 512) (ix n : Nat),
    let g := Group.start p ix n []
    g.regs = [] ∧ g.joins = [] ∧ g.quota = lpQuota p ∧ g.lanes.length = lpWidth p ∧
    (∀ l q, l < lpWidth p → (g.lane l).pred q = if q = 0 then .t else .f) ∧
    g.ctrl.round = 1 ∧ g.ctrl.stallchk = false ∧ g.ctrl.seed = BitVec.ofNat 32 (ix * 16 + n) ∧ g.ctrl.smxscale = 0x3F800000 ∧
    g.ctrl.q4scale = 0x3F800000 ∧ g.ctrl.hint = 1 ∧ g.ctrl.trapH = false ∧ g.ctrl.trapA = false ∧ g.ctrl.trapcause = 0 ∧
    g.ctrl.trappc = 0 ∧ g.ctrl.trapmask = 0 ∧ g.ctrl.trapaddr = 0 ∧
    (lpTrap p ≠ 0 → g.ctrl.trapbase = BitVec.ofNat 55 (lpCode p + 12 * lpTrap p))

/-- DECODING UNDOES ENCODING: every well-formed word survives, with every operand at every value that its encoding admits. -/
def Obligations.EveryWordSurvivesItsEncoding : Prop :=
  ∀ i : Instr, i.isWord = true → i.wf = true → decode (encode i) = .ok i

/-- Every step keeps physical memory in canonical form: addresses strictly rising, and no entry equal to what an unlisted address reads as. It
rests on the model's own reading in log entry 2. -/
def Obligations.EveryStepKeepsMemoryCanonical : Prop :=
  ∀ s t : State, Memory.wf s.mem = true → step s = .next t → Memory.wf t.mem = true
end

