-- ==== Sys2Proof/Laws/Words.lean ====
section
/-!
SUPPORT. What a word does once it meets no check: its body runs in its own context and state, and admitted results are committed.
-/
namespace Sys2Proof.Laws
open Sys2Proof.Machine Sys2Proof.Safety

/-- The active lanes of an issuing context. -/
theorem ctx_act {s : State} {g : Nat} {c : Ctx} (h : s.ctx g = some c) :
    c.act = c.path.filter (fun l => guardPasses g (c.src.lane l)) := by
  unfold State.ctx at h
  split at h
  · cases h
  · split at h
    · cases h
    · cases h; rfl

/-- With nothing read early, the sources and the active lanes stay. -/
theorem poisoned_nothing {i : Instr} {s t : State} {c : Ctx} (h : s.ctx (s.uses i).guard = some c) :
    c.poisoned (s.uses i) [] t = (c, t) := by
  simp [Ctx.poisoned, poison, ← ctx_act h]

/-- A word that meets no check runs its body in its own context and state. -/
theorem groupWord_ready {i : Instr} {c : Ctx} {s : State} (h : Ready i c s) (body : Ctx → Uses → State → Did) :
    groupWord (s.uses i) s body = .next (c.finish (s.uses i) s (body c (s.uses i) s)) := by
  obtain ⟨hs, hc, hp, hb, hf, ha, he, hl, hn⟩ := h
  have hq := @poisoned_nothing i s s c hc
  unfold groupWord
  rw [hs, hc]
  have h1 : ¬ ((s.uses i).priv = true ∧ c.wg.priv = false) := by
    rintro ⟨x, y⟩; rw [hp x] at y; cases y
  have h2 : ¬ (c.busy (s.uses i) = true ∨ c.freeHeld (s.uses i) = true ∨ (((s.uses i).cls = .m ∨ (s.uses i).cls = .x) ∧ s.acqHeld c = true)) := by
    rintro (x | x | ⟨x, y⟩)
    · rw [hb] at x; cases x
    · rw [hf] at x; cases x
    · rw [ha x] at y; cases y
  simp only [Bool.false_eq_true, if_false]
  unfold Ctx.checked
  rw [if_neg h1]
  simp only [he.1, hq, if_neg h2, he.2, ne_eq, not_true_eq_false, or_self, false_and, if_false, hl, if_neg hn]

/-- A group issues: the word is a group's. -/
theorem bothWord_group {u : Uses} {s : State} (h : s.isSlice = false) (body : Ctx → Uses → State → Did) (sl : Slice → State → SliceDid) :
    bothWord u s body sl = groupWord u s body := by
  simp [bothWord, h]

/-- The same of a word that a slice may execute too. -/
theorem bothWord_ready {i : Instr} {c : Ctx} {s : State} (h : Ready i c s) (body : Ctx → Uses → State → Did) (sl : Slice → State → SliceDid) :
    bothWord (s.uses i) s body sl = .next (c.finish (s.uses i) s (body c (s.uses i) s)) := by
  rw [bothWord_group h.ofGroup, groupWord_ready h]

/-- A slice's word that may issue runs its body. -/
theorem bothWord_slice {i : Instr} {x : Slice} {s : State} (h : SliceReady i x s) (body : Ctx → Uses → State → Did)
    (sl : Slice → State → SliceDid) : bothWord (s.uses i) s body sl = .next (s.finishSlice (sl x s)) := by
  obtain ⟨hs, ⟨w, hw, rfl⟩, hc, hl, hg⟩ := h
  have hn : ¬ ((s.uses i).chain = 1 ∨ ((s.uses i).reads ++ (s.uses i).writes).any (fun r => match r with
        | .v n => decide (16 ≤ n)
        | _ => false) = true) := by
    rintro (k | k)
    · rw [hc] at k; cases k
    · obtain ⟨r, hr, k⟩ := List.any_eq_true.mp k
      cases r with
      | v n => have := hl n hr; simp at k; omega
      | q n => simp at k
      | j n => simp at k
  simp only [bothWord, hs, if_true, hw, State.sliceWord, hg]
  split
  · exact absurd (by assumption) hn
  · rfl

/-- Admitted results wait for no free of their own. -/
theorem takes {i : Instr} {c : Ctx} {o : Out} {s : State} (h : Fits i c o s) :
    ¬ (c.freesLater (s.uses i) ≠ [] ∧ c.newRegs (s.uses i) o ≠ []) := by
  rintro ⟨a, b⟩
  rcases h.freed with x | x
  · exact a x
  · exact b x

/-- Admitted results with no fault of their own are committed. -/
theorem commit_fits {i : Instr} {c : Ctx} {o : Out} {s t : State} (h : Fits i c o s) (he : o.err = none) (next : State → Did) :
    c.commit (s.uses i) o t next = next (c.apply (s.uses i) (s.uses i).cls o t) := by
  simp [Ctx.commit, Ctx.takeIn, h.shape, h.quota, takes h, he]

/-- What the checks of a word's destinations do, all of it. -/
theorem commit_from {i : Instr} {c : Ctx} {o : Out} {t : State} {f : State → State} {s : State}
    (h : exec i s = .next (c.finish (s.uses i) s (c.commit (s.uses i) o t (fun x => .done (f x))))) : DeliversFrom i c o t f s := by
  unfold DeliversFrom Admits TrapsIn HoldsIn Completes completed faultOf
  rw [h]
  refine ⟨fun a => ?_, fun a b d => ?_, fun a b d e => ?_, fun a b d e => ?_, fun a => ⟨fun x d => ?_, fun d => ?_⟩⟩
  · simp [Ctx.commit, Ctx.takeIn, a, Ctx.fault]
  · simp only [Ctx.commit, Ctx.takeIn, a, b, Bool.false_eq_true, if_false, if_true, if_pos d]
  · simp [Ctx.commit, Ctx.takeIn, a, b, d, e, Ctx.fault]
  · simp [Ctx.commit, Ctx.takeIn, a, b, d, e]
  · simp [Ctx.commit, Ctx.takeIn, a.shape, a.quota, takes a, d]
  · rw [commit_fits a d]

/-- The same of a word that checks no address. -/
theorem commit_delivers {i : Instr} {c : Ctx} {o : Out} {f : State → State} {s : State}
    (h : exec i s = .next (c.finish (s.uses i) s (c.commit (s.uses i) o s (fun x => .done (f x))))) : Delivers i c o f s := commit_from h

end Sys2Proof.Laws
end

