-- ==== Sys2Proof/Laws/Floats.lean ====
section
/-!
SUPPORT. The shapes of a floating-point word's sources, and what a word that takes points or intervals does.
-/
namespace Sys2Proof.Laws
open Sys2Proof.Machine Sys2Proof.Safety

/-- Sources of two widths have no common width. -/
theorem fltWidth_none {c : Ctx} {regs : List Nat} (h : ¬ ∃ w, Widths c regs w) : c.fltWidth regs = none := by
  cases regs with
  | nil => exact absurd ⟨0, by intro r hr; cases hr⟩ h
  | cons r t =>
    simp only [Ctx.fltWidth]
    rw [if_neg]
    intro k
    apply h
    exact ⟨_, fun q hq => by simpa using List.all_eq_true.mp k q hq⟩

/-- Sources of one width: that width, and whether one is an interval. -/
theorem fltWidth_iv {c : Ctx} {r : Nat} {t : List Nat} {w : Nat} (h : Widths c (r :: t) w) :
    c.fltWidth (r :: t) = some (w, (r :: t).any (fun q => (c.src.shape q).isIv)) := by
  have h0 := h r (by simp)
  simp only [Ctx.fltWidth, h0]
  rw [if_pos]
  exact List.all_eq_true.mpr (fun q hq => by simpa using h q hq)

/-- Points of one width are of one width. -/
theorem points_widths {c : Ctx} {regs : List Nat} {w : Nat} (h : Points c regs w) : Widths c regs w := by
  intro r hr
  rw [h.2 r hr]
  rcases h.1 with rfl | rfl <;> rfl

/-- No source of a list of points is an interval. -/
theorem points_iv {c : Ctx} {regs : List Nat} {w : Nat} (h : Points c regs w) : regs.any (fun q => (c.src.shape q).isIv) = false := by
  rw [List.any_eq_false]
  intro r hr
  rw [h.2 r hr]
  rcases h.1 with rfl | rfl <;> simp [pointShape, Shape.isIv]

/-- A word that takes points or intervals by its sources is a FloatWord. -/
theorem floatWord_law {i : Instr} {r0 : Nat} {t : List Nat} {d : Nat} {pt : Nat → Ctx → Nat → Elem × W64} {iv : Nat → Ctx → Nat → Except Cause Elem}
    {P Q : Nat → Ctx → Nat → Except Cause (Elem × W64)}
    (he : ∀ s, exec i s = groupWord (s.uses i) s (fun c u s => match c.fltWidth (r0 :: t) with
      | none => .trap c.shapeTrap false s
      | some (w, false) => c.commit u (laneOut d (pointShape w) (c.act.map (fun l => ⟨l, P w c l⟩))) s .done
      | some (w, true) => c.commit u (laneOut d (ivShape w) (c.act.map (fun l => ⟨l, Q w c l⟩))) s .done))
    (hP : ∀ w c l, P w c l = .ok (pt w c l)) (hQ : ∀ w c l, Q w c l = c.keepGen l (iv w c l)) :
    FloatWord i (r0 :: t) d pt iv := by
  intro s c h
  refine ⟨fun w hp => ?_, fun w hw hr => ?_, fun hn => ?_⟩
  · apply commit_delivers
    rw [he, groupWord_ready h, fltWidth_iv (points_widths hp), points_iv hp]
    simp only [hP]; rfl
  · apply commit_delivers
    have : (r0 :: t).any (fun q => (c.src.shape q).isIv) = true := by
      rw [List.any_eq_true]; obtain ⟨r, a, b⟩ := hr; exact ⟨r, a, b⟩
    rw [he, groupWord_ready h, fltWidth_iv hw, this]
    simp only [hQ]; rfl
  · unfold Traps TrapsIn
    rw [he, groupWord_ready h, fltWidth_none hn]; rfl

/-- What is made of the interval sources depends on the lists of their number only. -/
theorem onIv_congr {c : Ctx} {w l : Nat} {regs : List Nat} {f g : List Iv → Except Cause Elem}
    (h : ∀ xs, xs.length = regs.length → f xs = g xs) : c.onIv w regs l f = c.onIv w regs l g := by
  have len : ∀ (rs : List (Except Cause Iv)) xs, goodIvs rs = some xs → xs.length = rs.length := by
    intro rs
    induction rs with
    | nil => intro xs h; cases h; rfl
    | cons a t ih =>
      intro xs h
      cases a with
      | error e => cases h
      | ok x =>
        simp only [goodIvs, Option.map_eq_some_iff] at h
        obtain ⟨y, hy, rfl⟩ := h
        simp [ih y hy]
  unfold Ctx.onIv
  dsimp only
  split
  · rename_i xs hx
    exact h xs (by simpa using len _ _ hx)
  · rfl

/-- A list of two. -/
theorem two_of_length (xs : List Iv) (h : xs.length = 2) : ∃ a b, xs = [a, b] := by
  match xs, h with
  | [a, b], _ => exact ⟨a, b, rfl⟩

/-- A list of three. -/
theorem three_of_length (xs : List Iv) (h : xs.length = 3) : ∃ a b c, xs = [a, b, c] := by
  match xs, h with
  | [a, b, c], _ => exact ⟨a, b, c, rfl⟩

end Sys2Proof.Laws
end

