-- ==== Sys2Proof/Laws/Forms.lean ====
section
/-!
SUPPORT. The form of every word's meaning: a word of a group, or of a group or a slice, that names what `usesOf` says of it, so that the checks
at issue of R42 are the same for all.
-/
namespace Sys2Proof.Laws
open Sys2Proof.Machine Sys2Proof.Safety

/-- Every word is executed as a group's word, or as a word of either, with the registers, the class and the guard that it names. -/
theorem exec_form (i : Instr) (s : State) (h : i.isWord = true) :
    (∃ body, exec i s = groupWord (s.uses i) s body) ∨ ∃ body sl, exec i s = bothWord (s.uses i) s body sl := by
  cases i
  case fclass => exact .inl ⟨_, by unfold exec; unfold execFclass; exact rfl⟩
  case mov => exact .inl ⟨_, by unfold exec; unfold execMov; exact rfl⟩
  case sideGet => exact .inl ⟨_, by unfold exec; unfold execSideGet; exact rfl⟩
  case sideSet => exact .inl ⟨_, by unfold exec; unfold execSideSet; exact rfl⟩
  case ivmk => exact .inl ⟨_, by unfold exec; unfold execIvmk; exact rfl⟩
  case ivsplit => exact .inl ⟨_, by unfold exec; unfold execIvsplit; exact rfl⟩
  case ivpown => exact .inl ⟨_, by unfold exec; unfold execIvpown; exact rfl⟩
  case zin => exact .inl ⟨_, by unfold exec; unfold execZin; exact rfl⟩
  case qand => exact .inl ⟨_, by unfold exec; unfold execQand; exact rfl⟩
  case qor => exact .inl ⟨_, by unfold exec; unfold execQor; exact rfl⟩
  case qnot => exact .inl ⟨_, by unfold exec; unfold execQnot; exact rfl⟩
  case qxor => exact .inl ⟨_, by unfold exec; unfold execQxor; exact rfl⟩
  case qmov => exact .inl ⟨_, by unfold exec; unfold execQmov; exact rfl⟩
  case qdef => exact .inl ⟨_, by unfold exec; unfold execQdef; exact rfl⟩
  case qcons => exact .inl ⟨_, by unfold exec; unfold execQcons; exact rfl⟩
  case qset => exact .inl ⟨_, by unfold exec; unfold execQset; exact rfl⟩
  case splitj => exact .inl ⟨_, by unfold exec; unfold execSplitj; exact rfl⟩
  case join => exact .inl ⟨_, by unfold exec; unfold execJoin; exact rfl⟩
  case yield => exact .inl ⟨_, by unfold exec; unfold execYield; exact rfl⟩
  case jmaskGet => exact .inl ⟨_, by unfold exec; unfold execJmaskGet; exact rfl⟩
  case jmaskSet => exact .inl ⟨_, by unfold exec; unfold execJmaskSet; exact rfl⟩
  case jmaskAdd => exact .inl ⟨_, by unfold exec; unfold execJmaskAdd; exact rfl⟩
  case jmaskDel => exact .inl ⟨_, by unfold exec; unfold execJmaskDel; exact rfl⟩
  case jmaskClr => exact .inl ⟨_, by unfold exec; unfold execJmaskClr; exact rfl⟩
  case vote => exact .inl ⟨_, by unfold exec; unfold execVote; exact rfl⟩
  case matchLanes => exact .inl ⟨_, by unfold exec; unfold execMatchLanes; exact rfl⟩
  case gfence => exact .inl ⟨_, by unfold exec; unfold execGfence; exact rfl⟩
  case helpq => exact .inl ⟨_, by unfold exec; unfold execHelpq; exact rfl⟩
  case ldg => exact .inl ⟨_, by unfold exec; unfold execLdg; exact rfl⟩
  case stg => exact .inl ⟨_, by unfold exec; unfold execStg; exact rfl⟩
  case pref => exact .inl ⟨_, by unfold exec; unfold execPref; exact rfl⟩
  case trap => exact .inl ⟨_, by unfold exec; unfold execTrap; exact rfl⟩
  case eret => exact .inl ⟨_, by unfold exec; unfold execEret; exact rfl⟩
  case crr => exact .inl ⟨_, by unfold exec; unfold execCrr; exact rfl⟩
  case quota => exact .inl ⟨_, by unfold exec; unfold execQuota; exact rfl⟩
  case sleep => exact .inl ⟨_, by unfold exec; unfold execSleep; exact rfl⟩
  case tlbinvPage => exact .inl ⟨_, by unfold exec; unfold execTlbinvPage; exact rfl⟩
  case cacheIfetch => exact .inl ⟨_, by unfold exec; unfold execCacheIfetch; exact rfl⟩
  case cacheWb => exact .inl ⟨_, by unfold exec; unfold execCacheWb; exact rfl⟩
  case cacheWbinv => exact .inl ⟨_, by unfold exec; unfold execCacheWbinv; exact rfl⟩
  case rep => exact .inl ⟨_, by unfold exec; unfold execRep; exact rfl⟩
  case aslice => exact .inl ⟨_, by unfold exec; unfold execAslice; exact rfl⟩
  case copy => exact .inl ⟨_, by unfold exec; unfold execCopy; exact rfl⟩
  case tidset => exact .inl ⟨_, by unfold exec; unfold execTidset; exact rfl⟩
  case tidget => exact .inl ⟨_, by unfold exec; unfold execTidget; exact rfl⟩
  case await => exact .inl ⟨_, by unfold exec; unfold execAwait; exact rfl⟩
  case barwait => exact .inl ⟨_, by unfold exec; unfold execBarwait; exact rfl⟩
  case nbarwait => exact .inl ⟨_, by unfold exec; unfold execNbarwait; exact rfl⟩
  case nbarset => exact .inl ⟨_, by unfold exec; unfold execNbarset; exact rfl⟩
  case mma => exact .inl ⟨_, by unfold exec; unfold execMma; exact rfl⟩
  case azero => exact .inl ⟨_, by unfold exec; unfold execAzero; exact rfl⟩
  case smxu => exact .inl ⟨_, by unfold exec; unfold execSmxu; exact rfl⟩
  case mfence => exact .inl ⟨_, by unfold exec; unfold execMfence; exact rfl⟩
  case mwait => exact .inl ⟨_, by unfold exec; unfold execMwait; exact rfl⟩
  case bisect => exact .inl ⟨_, by unfold exec; unfold execBisect; exact rfl⟩
  case attr => exact .inl ⟨_, by unfold exec; unfold execAttr; exact rfl⟩
  case enq => exact .inl ⟨_, by unfold exec; unfold execEnq; exact rfl⟩
  case rgrab => exact .inl ⟨_, by unfold exec; unfold execRgrab; exact rfl⟩
  case rgrabSet => exact .inl ⟨_, by unfold exec; unfold execRgrabSet; exact rfl⟩
  case sread => exact .inl ⟨_, by unfold exec; unfold execSread; exact rfl⟩
  case time => exact .inl ⟨_, by unfold exec; unfold execTime; exact rfl⟩
  case energy => exact .inl ⟨_, by unfold exec; unfold execEnergy; exact rfl⟩
  case energyQ => exact .inl ⟨_, by unfold exec; unfold execEnergyQ; exact rfl⟩
  all_goals first
    | exact .inl ⟨_, rfl⟩
    | exact .inr ⟨_, _, rfl⟩
    | cases h

/-- A group's word that meets no check runs its body. -/
theorem exec_ready {i : Instr} {c : Ctx} {s : State} (h : Ready i c s) (body : Ctx → Uses → State → Did)
    (he : exec i s = groupWord (s.uses i) s body) : exec i s = .next (c.finish (s.uses i) s (body c (s.uses i) s)) := by
  rw [he, groupWord_ready h]

/-- The same of a word of either that a group issues. -/
theorem exec_ready2 {i : Instr} {c : Ctx} {s : State} (h : Ready i c s) (body : Ctx → Uses → State → Did) (sl : Slice → State → SliceDid)
    (he : exec i s = bothWord (s.uses i) s body sl) : exec i s = .next (c.finish (s.uses i) s (body c (s.uses i) s)) := by
  rw [he, bothWord_ready h]

/-- A slice's word that may issue runs its slice body. -/
theorem exec_slice {i : Instr} {x : Slice} {s : State} (h : SliceReady i x s) (body : Ctx → Uses → State → Did)
    (sl : Slice → State → SliceDid) (he : exec i s = bothWord (s.uses i) s body sl) : exec i s = .next (s.finishSlice (sl x s)) := by
  rw [he, bothWord_slice h]

/-- A word answers a next state where its issuer is resident. -/
theorem exec_word_next {i : Instr} {s : State} {c : Ctx} (h : i.isWord = true) (hs : s.isSlice = false)
    (hc : s.ctx (s.uses i).guard = some c) : ∃ t, exec i s = .next t := by
  rcases exec_form i s h with ⟨body, hb⟩ | ⟨body, sl, hb⟩
  · rw [hb]; simp [groupWord, hs, hc]
  · rw [hb]; simp [bothWord, groupWord, hs, hc]

end Sys2Proof.Laws
end

