-- ==== Sys2Proof/Laws/Integers.lean ====
section
/-!
SUPPORT. Integer words: the values that lanes read as bit vectors, and one lemma for each form of integer word.
-/
namespace Sys2Proof.Laws

open Sys2Proof.Machine Sys2Proof.Safety

theorem keep_lt (k : Shape) (e : Elem) : (k.keep e).toNat < 2 ^ (32 * k.rows) := by
  unfold Shape.keep
  rw [BitVec.toNat_ofNat]
  exact Nat.lt_of_le_of_lt (Nat.mod_le _ _) (Nat.mod_lt _ (Nat.two_pow_pos _))

/-- A point register's element has W bits. -/
theorem readN_point {g : Group} {r l w : Nat} (hw : w = 32 ∨ w = 64) (h : g.shape r = pointShape w) : g.readN r l < 2 ^ w := by
  have := keep_lt (g.shape r) ((g.vreg r).lanes.getD l 0)
  rw [h] at this
  unfold Group.readN Group.read
  rw [h]
  rcases hw with rfl | rfl <;> exact this

theorem point_toNat {g : Group} {r l w : Nat} (hw : w = 32 ∨ w = 64) (h : g.shape r = pointShape w) :
    (point g w r l).toNat = g.readN r l := by
  unfold point
  rw [BitVec.toNat_setWidth]
  exact Nat.mod_eq_of_lt (readN_point hw h)

/-- A value of W bits as an element. -/
theorem elemN_toNat {w : Nat} (x : BitVec w) : elemN x.toNat = x.setWidth 128 := by
  apply BitVec.eq_of_toNat_eq
  simp [elemN]

/-- Sign extension of a bit vector's number is its signed value. -/
theorem sextN_toInt {w : Nat} (x : BitVec w) (hw : 0 < w) : sextN x.toNat w = x.toInt := by
  unfold sextN
  rw [BitVec.toInt_eq_toNat_cond, Nat.mod_eq_of_lt x.isLt]
  obtain ⟨n, rfl⟩ : ∃ n, w = n + 1 := ⟨w - 1, by omega⟩
  simp only [Nat.add_sub_cancel]
  have h : 2 ^ (n + 1) = 2 * 2 ^ n := by rw [Nat.pow_succ]; omega
  have k : (2 : Int) ^ (n + 1) = ((2 ^ (n + 1) : Nat) : Int) := by push_cast; rfl
  rw [k]
  split <;> split <;> omega

/-- Wrapping an integer to w bits. -/
theorem wrapInt_eq (x : Int) (w : Nat) : wrapInt x w = (BitVec.ofInt w x).toNat := by
  unfold wrapInt
  rw [BitVec.toNat_ofInt]
  have : ((2 ^ w : Nat) : Int) = (2 : Int) ^ w := by push_cast; rfl
  rw [this]

theorem upto_eq (lo n : Nat) : upto lo n = (List.range n).map (lo + ·) := by
  induction n generalizing lo with
  | zero => rfl
  | succ n ih =>
    rw [upto, ih, List.range_succ_eq_map]
    simp [List.map_map, Function.comp_def, Nat.add_comm, Nat.add_left_comm]

theorem upto_zero (n : Nat) : upto 0 n = List.range n := by simp [upto_eq]

theorem intWidth_points {c : Ctx} {r : Nat} {t : List Nat} {w : Nat} (h : Points c (r :: t) w) : c.intWidth (r :: t) = some w := by
  obtain ⟨hw, h⟩ := h
  have h0 := h r (by simp)
  have e : (r :: t).all (fun q => decide (c.src.shape q = pointShape w)) = true := by simpa using h
  unfold Ctx.intWidth
  simp only [h0, e]
  rcases hw with rfl | rfl <;> simp [pointShape, Shape.isIv, Shape.width]

theorem intWidth_none {c : Ctx} {regs : List Nat} (h : ¬ ∃ w, Points c regs w) : c.intWidth regs = none := by
  cases regs with
  | nil => rfl
  | cons r t =>
    simp only [Ctx.intWidth]
    rw [if_neg]
    rintro ⟨k1, k2⟩
    apply h
    simp only [List.all_eq_true, decide_eq_true_eq] at k2
    refine ⟨(c.src.shape r).width, ?_, fun q hq => ?_⟩
    · cases c.src.shape r <;> simp [Shape.width]
    · rw [k2 q hq]
      revert k1
      cases c.src.shape r <;> simp [Shape.width, pointShape, Shape.isIv]

/-- An integer word over a group or a slice. -/
theorem intWord_law {i : Instr} {regs : List Nat} {d a b : Nat} {f : Nat → Nat → Nat → Nat → Nat}
    {op : (w : Nat) → BitVec w → BitVec w → BitVec w → BitVec w}
    (hne : ∃ r t, regs = r :: t) (ha : a ∈ regs) (hb : b ∈ regs)
    (hd : d ∈ regs ∨ ∀ w x y z z', f w x y z = f w x y z')
    (he : ∀ s, exec i s = bothWord (s.uses i) s (intGroup regs d a b f) (intSlice d a b f))
    (hf : ∀ w (x y z : BitVec w), w = 32 ∨ w = 64 → f w x.toNat y.toNat z.toNat % 2 ^ w = (op w x y z).toNat) :
    IntegerWord i regs d a b op := by
  intro s
  obtain ⟨r, t, rfl⟩ := hne
  refine ⟨fun c w h hp => ?_, fun c h hn => ?_, fun x h => ?_⟩
  · apply commit_delivers
    rw [he, bothWord_ready h]
    unfold intGroup
    rw [intWidth_points hp]
    have hv : c.intVals w a b d f = lanes c (fun l => (op w (point c.src w a l) (point c.src w b l) (point c.src w d l)).setWidth 128) := by
      unfold Ctx.intVals lanes
      apply List.map_congr_left
      intro l _
      dsimp only
      rw [← elemN_toNat, ← hf _ _ _ _ hp.1, point_toNat hp.1 (hp.2 a ha), point_toNat hp.1 (hp.2 b hb)]
      rcases hd with hd | hd
      · rw [point_toNat hp.1 (hp.2 d hd)]
      · rw [hd _ _ _ (c.src.readN d l) (point c.src w d l).toNat]
    simp only [hv]
    rfl
  · unfold Traps TrapsIn
    rw [he, bothWord_ready h]
    unfold intGroup
    rw [intWidth_none hn]; rfl
  · unfold SliceDoes
    rw [he, bothWord_slice h]
    unfold intSlice
    rw [hf 64 _ _ _ (.inr rfl), BitVec.ofNat_toNat, BitVec.setWidth_eq]

/-- An integer compare over a group or a slice. -/
theorem cmpWord_law {i : Instr} {q a b : Nat} {f : Nat → Nat → Nat → Bool} {rel : (w : Nat) → BitVec w → BitVec w → Prop}
    [∀ w x y, Decidable (rel w x y)]
    (he : ∀ s, exec i s = bothWord (s.uses i) s (cmpGroup q a b f) (cmpSlice q a b f))
    (hf : ∀ w (x y : BitVec w), w = 32 ∨ w = 64 → f w x.toNat y.toNat = decide (rel w x y)) :
    IntegerCompare i q a b rel := by
  have k : ∀ (p : Prop) [Decidable p], Tri.ofBool (decide p) = if p then Tri.t else Tri.f := by
    intro p _; by_cases h : p <;> simp [h, Tri.ofBool]
  intro s
  refine ⟨fun c w h hp => ?_, fun c h hn => ?_, fun x h => ?_⟩
  · apply commit_delivers
    rw [he, bothWord_ready h]
    unfold cmpGroup
    rw [intWidth_points hp]
    have hv : c.act.map (fun l => (l, Tri.ofBool (f w (c.src.readN a l) (c.src.readN b l)))) =
        preds c (fun l => if rel w (point c.src w a l) (point c.src w b l) then Tri.t else Tri.f) := by
      unfold preds
      apply List.map_congr_left
      intro l _
      dsimp only
      rw [← point_toNat hp.1 (hp.2 a (by simp)), ← point_toNat hp.1 (hp.2 b (by simp)), hf _ _ _ hp.1, k]
    simp only [hv]
    rfl
  · unfold Traps TrapsIn
    rw [he, bothWord_ready h]
    unfold cmpGroup
    rw [intWidth_none hn]; rfl
  · unfold SliceDoes
    rw [he, bothWord_slice h]
    unfold cmpSlice
    rw [hf 64 _ _ (.inr rfl), k]

end Sys2Proof.Laws
end

