-- ==== Sys2Proof/Laws/State.lean ====
section
/-!
SUPPORT. What each update of the state changes and leaves: one lemma per field per update, so that no proof unfolds a record update; and what
the tables that hold the state give back.
-/
namespace Sys2Proof.Machine

/-! ## Tables -/

@[simp] theorem tget_tset_same {α : Type} (t : Tab α) (k : Nat) (v : α) : tget (tset t k v) k = some v := by
  induction t with
  | nil => simp [tset, tget]
  | cons x t ih =>
    simp only [tset]
    split
    · simp [tget]
    · split
      · simp [tget]
      · rename_i h _; simp [tget, h, ih]

theorem tget_tset_ne {α : Type} (t : Tab α) {k j : Nat} (v : α) (h : j ≠ k) : tget (tset t k v) j = tget t j := by
  induction t with
  | nil => simp [tset, tget, Ne.symm h]
  | cons x t ih =>
    simp only [tset]
    split
    · rename_i e; subst e; simp [tget, Ne.symm h]
    · split
      · simp [tget, Ne.symm h]
      · simp [tget, ih]

@[simp] theorem tget_tdel_same {α : Type} (t : Tab α) (k : Nat) : tget (tdel t k) k = none := by
  induction t with
  | nil => rfl
  | cons x t ih =>
    unfold tdel at *
    rw [List.filter_cons]
    split
    · rename_i e; rw [tget, if_neg (by simpa using e), ih]
    · exact ih

theorem tget_tdel_ne {α : Type} (t : Tab α) {k j : Nat} (h : j ≠ k) : tget (tdel t k) j = tget t j := by
  induction t with
  | nil => rfl
  | cons x t ih =>
    unfold tdel at *
    rw [List.filter_cons]
    split
    · rw [tget, tget, ih]
    · rename_i e; rw [ih, tget, if_neg (fun k => h (by simp at e; omega))]

@[simp] theorem tgetD_tmod_same {α : Type} (t : Tab α) (k : Nat) (d : α) (f : α → α) : tgetD (tmod t k d f) k d = f (tgetD t k d) := by
  simp [tgetD, tmod]

theorem tgetD_tmod_ne {α : Type} (t : Tab α) {k j : Nat} (d : α) (f : α → α) (h : j ≠ k) : tgetD (tmod t k d f) j d = tgetD t j d := by
  simp [tgetD, tmod, tget_tset_ne t _ h]

/-! ## The machine: what an update of one part leaves -/

@[simp] theorem State.modCore_cycle (s : State) (c : Nat) (f : Core → Core) : (s.modCore c f).cycle = s.cycle := rfl
@[simp] theorem State.modCore_cur (s : State) (c : Nat) (f : Core → Core) : (s.modCore c f).cur = s.cur := rfl
@[simp] theorem State.modCore_agenda (s : State) (c : Nat) (f : Core → Core) : (s.modCore c f).agenda = s.agenda := rfl
@[simp] theorem State.modCore_inbox (s : State) (c : Nat) (f : Core → Core) : (s.modCore c f).inbox = s.inbox := rfl
@[simp] theorem State.modCore_freeIdx (s : State) (c : Nat) (f : Core → Core) : (s.modCore c f).freeIdx = s.freeIdx := rfl
@[simp] theorem State.modCore_nextId (s : State) (c : Nat) (f : Core → Core) : (s.modCore c f).nextId = s.nextId := rfl
@[simp] theorem State.modCore_mem (s : State) (c : Nat) (f : Core → Core) : (s.modCore c f).mem = s.mem := rfl
@[simp] theorem State.modCore_clusters (s : State) (c : Nat) (f : Core → Core) : (s.modCore c f).clusters = s.clusters := rfl
@[simp] theorem State.modCore_dies (s : State) (c : Nat) (f : Core → Core) : (s.modCore c f).dies = s.dies := rfl
@[simp] theorem State.modCore_pkg (s : State) (c : Nat) (f : Core → Core) : (s.modCore c f).pkg = s.pkg := rfl

@[simp] theorem State.modCluster_cycle (s : State) (c : Nat) (f : Cluster → Cluster) : (s.modCluster c f).cycle = s.cycle := rfl
@[simp] theorem State.modCluster_cur (s : State) (c : Nat) (f : Cluster → Cluster) : (s.modCluster c f).cur = s.cur := rfl
@[simp] theorem State.modCluster_agenda (s : State) (c : Nat) (f : Cluster → Cluster) : (s.modCluster c f).agenda = s.agenda := rfl
@[simp] theorem State.modCluster_inbox (s : State) (c : Nat) (f : Cluster → Cluster) : (s.modCluster c f).inbox = s.inbox := rfl
@[simp] theorem State.modCluster_freeIdx (s : State) (c : Nat) (f : Cluster → Cluster) : (s.modCluster c f).freeIdx = s.freeIdx := rfl
@[simp] theorem State.modCluster_nextId (s : State) (c : Nat) (f : Cluster → Cluster) : (s.modCluster c f).nextId = s.nextId := rfl
@[simp] theorem State.modCluster_mem (s : State) (c : Nat) (f : Cluster → Cluster) : (s.modCluster c f).mem = s.mem := rfl
@[simp] theorem State.modCluster_cores (s : State) (c : Nat) (f : Cluster → Cluster) : (s.modCluster c f).cores = s.cores := rfl
@[simp] theorem State.modCluster_dies (s : State) (c : Nat) (f : Cluster → Cluster) : (s.modCluster c f).dies = s.dies := rfl
@[simp] theorem State.modCluster_pkg (s : State) (c : Nat) (f : Cluster → Cluster) : (s.modCluster c f).pkg = s.pkg := rfl

@[simp] theorem State.modDie_cycle (s : State) (c : Nat) (f : Die → Die) : (s.modDie c f).cycle = s.cycle := rfl
@[simp] theorem State.modDie_cur (s : State) (c : Nat) (f : Die → Die) : (s.modDie c f).cur = s.cur := rfl
@[simp] theorem State.modDie_agenda (s : State) (c : Nat) (f : Die → Die) : (s.modDie c f).agenda = s.agenda := rfl
@[simp] theorem State.modDie_inbox (s : State) (c : Nat) (f : Die → Die) : (s.modDie c f).inbox = s.inbox := rfl
@[simp] theorem State.modDie_freeIdx (s : State) (c : Nat) (f : Die → Die) : (s.modDie c f).freeIdx = s.freeIdx := rfl
@[simp] theorem State.modDie_nextId (s : State) (c : Nat) (f : Die → Die) : (s.modDie c f).nextId = s.nextId := rfl
@[simp] theorem State.modDie_mem (s : State) (c : Nat) (f : Die → Die) : (s.modDie c f).mem = s.mem := rfl
@[simp] theorem State.modDie_cores (s : State) (c : Nat) (f : Die → Die) : (s.modDie c f).cores = s.cores := rfl
@[simp] theorem State.modDie_clusters (s : State) (c : Nat) (f : Die → Die) : (s.modDie c f).clusters = s.clusters := rfl
@[simp] theorem State.modDie_pkg (s : State) (c : Nat) (f : Die → Die) : (s.modDie c f).pkg = s.pkg := rfl

@[simp] theorem State.modPkg_cycle (s : State) (f : Package → Package) : (s.modPkg f).cycle = s.cycle := rfl
@[simp] theorem State.modPkg_cur (s : State) (f : Package → Package) : (s.modPkg f).cur = s.cur := rfl
@[simp] theorem State.modPkg_agenda (s : State) (f : Package → Package) : (s.modPkg f).agenda = s.agenda := rfl
@[simp] theorem State.modPkg_inbox (s : State) (f : Package → Package) : (s.modPkg f).inbox = s.inbox := rfl
@[simp] theorem State.modPkg_freeIdx (s : State) (f : Package → Package) : (s.modPkg f).freeIdx = s.freeIdx := rfl
@[simp] theorem State.modPkg_nextId (s : State) (f : Package → Package) : (s.modPkg f).nextId = s.nextId := rfl
@[simp] theorem State.modPkg_mem (s : State) (f : Package → Package) : (s.modPkg f).mem = s.mem := rfl
@[simp] theorem State.modPkg_cores (s : State) (f : Package → Package) : (s.modPkg f).cores = s.cores := rfl
@[simp] theorem State.modPkg_clusters (s : State) (f : Package → Package) : (s.modPkg f).clusters = s.clusters := rfl
@[simp] theorem State.modPkg_dies (s : State) (f : Package → Package) : (s.modPkg f).dies = s.dies := rfl

@[simp] theorem State.next_cycle (s : State) (l : List Item) : (s.next l).cycle = s.cycle := rfl
@[simp] theorem State.next_cur (s : State) (l : List Item) : (s.next l).cur = s.cur := rfl
@[simp] theorem State.next_inbox (s : State) (l : List Item) : (s.next l).inbox = s.inbox := rfl
@[simp] theorem State.next_freeIdx (s : State) (l : List Item) : (s.next l).freeIdx = s.freeIdx := rfl
@[simp] theorem State.next_nextId (s : State) (l : List Item) : (s.next l).nextId = s.nextId := rfl
@[simp] theorem State.next_mem (s : State) (l : List Item) : (s.next l).mem = s.mem := rfl
@[simp] theorem State.next_cores (s : State) (l : List Item) : (s.next l).cores = s.cores := rfl
@[simp] theorem State.next_clusters (s : State) (l : List Item) : (s.next l).clusters = s.clusters := rfl
@[simp] theorem State.next_dies (s : State) (l : List Item) : (s.next l).dies = s.dies := rfl
@[simp] theorem State.next_pkg (s : State) (l : List Item) : (s.next l).pkg = s.pkg := rfl
@[simp] theorem State.next_agenda (s : State) (l : List Item) : (s.next l).agenda = l ++ s.agenda := rfl

@[simp] theorem State.draw_cycle (s : State) : s.draw.2.cycle = s.cycle := rfl
@[simp] theorem State.draw_cur (s : State) : s.draw.2.cur = s.cur := rfl
@[simp] theorem State.draw_agenda (s : State) : s.draw.2.agenda = s.agenda := rfl
@[simp] theorem State.draw_inbox (s : State) : s.draw.2.inbox = s.inbox := rfl
@[simp] theorem State.draw_nextId (s : State) : s.draw.2.nextId = s.nextId := rfl
@[simp] theorem State.draw_mem (s : State) : s.draw.2.mem = s.mem := rfl
@[simp] theorem State.draw_cores (s : State) : s.draw.2.cores = s.cores := rfl
@[simp] theorem State.draw_clusters (s : State) : s.draw.2.clusters = s.clusters := rfl
@[simp] theorem State.draw_dies (s : State) : s.draw.2.dies = s.dies := rfl
@[simp] theorem State.draw_pkg (s : State) : s.draw.2.pkg = s.pkg := rfl
@[simp] theorem State.draw_freeIdx (s : State) : s.draw.2.freeIdx = s.freeIdx + 1 := rfl

@[simp] theorem State.fresh_cycle (s : State) : s.fresh.2.cycle = s.cycle := rfl
@[simp] theorem State.fresh_cur (s : State) : s.fresh.2.cur = s.cur := rfl
@[simp] theorem State.fresh_agenda (s : State) : s.fresh.2.agenda = s.agenda := rfl
@[simp] theorem State.fresh_inbox (s : State) : s.fresh.2.inbox = s.inbox := rfl
@[simp] theorem State.fresh_freeIdx (s : State) : s.fresh.2.freeIdx = s.freeIdx := rfl
@[simp] theorem State.fresh_mem (s : State) : s.fresh.2.mem = s.mem := rfl
@[simp] theorem State.fresh_cores (s : State) : s.fresh.2.cores = s.cores := rfl
@[simp] theorem State.fresh_clusters (s : State) : s.fresh.2.clusters = s.clusters := rfl
@[simp] theorem State.fresh_dies (s : State) : s.fresh.2.dies = s.dies := rfl
@[simp] theorem State.fresh_pkg (s : State) : s.fresh.2.pkg = s.pkg := rfl
@[simp] theorem State.fresh_nextId (s : State) : s.fresh.2.nextId = s.nextId + 1 := rfl
@[simp] theorem State.fresh_number (s : State) : s.fresh.1 = s.nextId := rfl

@[simp] theorem State.count_cycle (s : State) (n k : Nat) : (s.count n k).cycle = s.cycle := rfl
@[simp] theorem State.count_cur (s : State) (n k : Nat) : (s.count n k).cur = s.cur := rfl
@[simp] theorem State.count_agenda (s : State) (n k : Nat) : (s.count n k).agenda = s.agenda := rfl
@[simp] theorem State.count_inbox (s : State) (n k : Nat) : (s.count n k).inbox = s.inbox := rfl
@[simp] theorem State.count_freeIdx (s : State) (n k : Nat) : (s.count n k).freeIdx = s.freeIdx := rfl
@[simp] theorem State.count_nextId (s : State) (n k : Nat) : (s.count n k).nextId = s.nextId := rfl
@[simp] theorem State.count_mem (s : State) (n k : Nat) : (s.count n k).mem = s.mem := rfl
@[simp] theorem State.count_cores (s : State) (n k : Nat) : (s.count n k).cores = s.cores := rfl
@[simp] theorem State.count_clusters (s : State) (n k : Nat) : (s.count n k).clusters = s.clusters := rfl
@[simp] theorem State.count_dies (s : State) (n k : Nat) : (s.count n k).dies = s.dies := rfl

@[simp] theorem State.systemCause_cycle (s : State) (n : Nat) : (s.systemCause n).cycle = s.cycle := rfl
@[simp] theorem State.systemCause_cur (s : State) (n : Nat) : (s.systemCause n).cur = s.cur := rfl
@[simp] theorem State.systemCause_agenda (s : State) (n : Nat) : (s.systemCause n).agenda = s.agenda := rfl
@[simp] theorem State.systemCause_inbox (s : State) (n : Nat) : (s.systemCause n).inbox = s.inbox := rfl
@[simp] theorem State.systemCause_freeIdx (s : State) (n : Nat) : (s.systemCause n).freeIdx = s.freeIdx := rfl
@[simp] theorem State.systemCause_nextId (s : State) (n : Nat) : (s.systemCause n).nextId = s.nextId := rfl
@[simp] theorem State.systemCause_mem (s : State) (n : Nat) : (s.systemCause n).mem = s.mem := rfl
@[simp] theorem State.systemCause_cores (s : State) (n : Nat) : (s.systemCause n).cores = s.cores := rfl
@[simp] theorem State.systemCause_clusters (s : State) (n : Nat) : (s.systemCause n).clusters = s.clusters := rfl
@[simp] theorem State.systemCause_dies (s : State) (n : Nat) : (s.systemCause n).dies = s.dies := rfl

@[simp] theorem State.firmwareCause_cycle (s : State) (n : Nat) : (s.firmwareCause n).cycle = s.cycle := rfl
@[simp] theorem State.firmwareCause_cur (s : State) (n : Nat) : (s.firmwareCause n).cur = s.cur := rfl
@[simp] theorem State.firmwareCause_agenda (s : State) (n : Nat) : (s.firmwareCause n).agenda = s.agenda := rfl
@[simp] theorem State.firmwareCause_inbox (s : State) (n : Nat) : (s.firmwareCause n).inbox = s.inbox := rfl
@[simp] theorem State.firmwareCause_freeIdx (s : State) (n : Nat) : (s.firmwareCause n).freeIdx = s.freeIdx := rfl
@[simp] theorem State.firmwareCause_nextId (s : State) (n : Nat) : (s.firmwareCause n).nextId = s.nextId := rfl
@[simp] theorem State.firmwareCause_mem (s : State) (n : Nat) : (s.firmwareCause n).mem = s.mem := rfl
@[simp] theorem State.firmwareCause_cores (s : State) (n : Nat) : (s.firmwareCause n).cores = s.cores := rfl
@[simp] theorem State.firmwareCause_clusters (s : State) (n : Nat) : (s.firmwareCause n).clusters = s.clusters := rfl
@[simp] theorem State.firmwareCause_dies (s : State) (n : Nat) : (s.firmwareCause n).dies = s.dies := rfl

/-! ## The machine: what an update of one part gives -/

@[simp] theorem State.core_modCore (s : State) (c : Nat) (f : Core → Core) : (s.modCore c f).core c = f (s.core c) := by
  simp [State.core, State.modCore]
theorem State.core_modCore_ne (s : State) {c j : Nat} (f : Core → Core) (h : j ≠ c) : (s.modCore c f).core j = s.core j := by
  simp [State.core, State.modCore, tgetD_tmod_ne _ _ _ h]
@[simp] theorem State.cluster_modCluster (s : State) (c : Nat) (f : Cluster → Cluster) : (s.modCluster c f).cluster c = f (s.cluster c) := by
  simp [State.cluster, State.modCluster]
theorem State.cluster_modCluster_ne (s : State) {c j : Nat} (f : Cluster → Cluster) (h : j ≠ c) :
    (s.modCluster c f).cluster j = s.cluster j := by
  simp [State.cluster, State.modCluster, tgetD_tmod_ne _ _ _ h]
@[simp] theorem State.die_modDie (s : State) (c : Nat) (f : Die → Die) : (s.modDie c f).die c = f (s.die c) := by
  simp [State.die, State.modDie]
theorem State.die_modDie_ne (s : State) {c j : Nat} (f : Die → Die) (h : j ≠ c) : (s.modDie c f).die j = s.die j := by
  simp [State.die, State.modDie, tgetD_tmod_ne _ _ _ h]
@[simp] theorem State.modPkg_pkg (s : State) (f : Package → Package) : (s.modPkg f).pkg = f s.pkg := rfl

@[simp] theorem State.cluster_modCore (s : State) (c : Nat) (f : Core → Core) (k : Nat) : (s.modCore c f).cluster k = s.cluster k := rfl
@[simp] theorem State.die_modCore (s : State) (c : Nat) (f : Core → Core) (k : Nat) : (s.modCore c f).die k = s.die k := rfl

@[simp] theorem State.core_modCluster (s : State) (c : Nat) (f : Cluster → Cluster) (k : Nat) : (s.modCluster c f).core k = s.core k := rfl
@[simp] theorem State.die_modCluster (s : State) (c : Nat) (f : Cluster → Cluster) (k : Nat) : (s.modCluster c f).die k = s.die k := rfl
@[simp] theorem State.wg_modCluster (s : State) (c : Nat) (f : Cluster → Cluster) (k n : Nat) : (s.modCluster c f).wg k n = s.wg k n := rfl
@[simp] theorem State.group_modCluster (s : State) (c : Nat) (f : Cluster → Cluster) (k n g : Nat) : (s.modCluster c f).group k n g = s.group k n g := rfl

@[simp] theorem State.core_modDie (s : State) (c : Nat) (f : Die → Die) (k : Nat) : (s.modDie c f).core k = s.core k := rfl
@[simp] theorem State.cluster_modDie (s : State) (c : Nat) (f : Die → Die) (k : Nat) : (s.modDie c f).cluster k = s.cluster k := rfl
@[simp] theorem State.wg_modDie (s : State) (c : Nat) (f : Die → Die) (k n : Nat) : (s.modDie c f).wg k n = s.wg k n := rfl
@[simp] theorem State.group_modDie (s : State) (c : Nat) (f : Die → Die) (k n g : Nat) : (s.modDie c f).group k n g = s.group k n g := rfl

@[simp] theorem State.core_modPkg (s : State) (f : Package → Package) (k : Nat) : (s.modPkg f).core k = s.core k := rfl
@[simp] theorem State.cluster_modPkg (s : State) (f : Package → Package) (k : Nat) : (s.modPkg f).cluster k = s.cluster k := rfl
@[simp] theorem State.die_modPkg (s : State) (f : Package → Package) (k : Nat) : (s.modPkg f).die k = s.die k := rfl
@[simp] theorem State.wg_modPkg (s : State) (f : Package → Package) (k n : Nat) : (s.modPkg f).wg k n = s.wg k n := rfl
@[simp] theorem State.group_modPkg (s : State) (f : Package → Package) (k n g : Nat) : (s.modPkg f).group k n g = s.group k n g := rfl

/-! ## Workgroups and groups -/

@[simp] theorem State.modWg_cycle (s : State) (c w : Nat) (f : Workgroup → Workgroup) : (s.modWg c w f).cycle = s.cycle := by
  unfold State.modWg; split <;> rfl
@[simp] theorem State.modGroup_cycle (s : State) (c w g : Nat) (f : Group → Group) : (s.modGroup c w g f).cycle = s.cycle := State.modWg_cycle _ _ _ _
@[simp] theorem State.modSlice_cycle (s : State) (c w : Nat) (f : Slice → Slice) : (s.modSlice c w f).cycle = s.cycle := State.modWg_cycle _ _ _ _
@[simp] theorem State.modCur_cycle (s : State) (f : Group → Group) : (s.modCur f).cycle = s.cycle := State.modWg_cycle _ _ _ _
@[simp] theorem State.modCurWg_cycle (s : State) (f : Workgroup → Workgroup) : (s.modCurWg f).cycle = s.cycle := State.modWg_cycle _ _ _ _
@[simp] theorem State.modCurSlice_cycle (s : State) (f : Slice → Slice) : (s.modCurSlice f).cycle = s.cycle := State.modWg_cycle _ _ _ _
@[simp] theorem State.advance_cycle (s : State) (p : List Nat) : (s.advance p).cycle = s.cycle := by
  unfold State.advance; simp

@[simp] theorem State.modWg_cur (s : State) (c w : Nat) (f : Workgroup → Workgroup) : (s.modWg c w f).cur = s.cur := by
  unfold State.modWg; split <;> rfl
@[simp] theorem State.modGroup_cur (s : State) (c w g : Nat) (f : Group → Group) : (s.modGroup c w g f).cur = s.cur := State.modWg_cur _ _ _ _
@[simp] theorem State.modSlice_cur (s : State) (c w : Nat) (f : Slice → Slice) : (s.modSlice c w f).cur = s.cur := State.modWg_cur _ _ _ _
@[simp] theorem State.modCur_cur (s : State) (f : Group → Group) : (s.modCur f).cur = s.cur := State.modWg_cur _ _ _ _
@[simp] theorem State.modCurWg_cur (s : State) (f : Workgroup → Workgroup) : (s.modCurWg f).cur = s.cur := State.modWg_cur _ _ _ _
@[simp] theorem State.modCurSlice_cur (s : State) (f : Slice → Slice) : (s.modCurSlice f).cur = s.cur := State.modWg_cur _ _ _ _


@[simp] theorem State.modWg_agenda (s : State) (c w : Nat) (f : Workgroup → Workgroup) : (s.modWg c w f).agenda = s.agenda := by
  unfold State.modWg; split <;> rfl
@[simp] theorem State.modGroup_agenda (s : State) (c w g : Nat) (f : Group → Group) : (s.modGroup c w g f).agenda = s.agenda := State.modWg_agenda _ _ _ _
@[simp] theorem State.modSlice_agenda (s : State) (c w : Nat) (f : Slice → Slice) : (s.modSlice c w f).agenda = s.agenda := State.modWg_agenda _ _ _ _
@[simp] theorem State.modCur_agenda (s : State) (f : Group → Group) : (s.modCur f).agenda = s.agenda := State.modWg_agenda _ _ _ _
@[simp] theorem State.modCurWg_agenda (s : State) (f : Workgroup → Workgroup) : (s.modCurWg f).agenda = s.agenda := State.modWg_agenda _ _ _ _
@[simp] theorem State.modCurSlice_agenda (s : State) (f : Slice → Slice) : (s.modCurSlice f).agenda = s.agenda := State.modWg_agenda _ _ _ _
@[simp] theorem State.advance_agenda (s : State) (p : List Nat) : (s.advance p).agenda = s.agenda := by
  unfold State.advance; simp

@[simp] theorem State.modWg_inbox (s : State) (c w : Nat) (f : Workgroup → Workgroup) : (s.modWg c w f).inbox = s.inbox := by
  unfold State.modWg; split <;> rfl
@[simp] theorem State.modGroup_inbox (s : State) (c w g : Nat) (f : Group → Group) : (s.modGroup c w g f).inbox = s.inbox := State.modWg_inbox _ _ _ _
@[simp] theorem State.modSlice_inbox (s : State) (c w : Nat) (f : Slice → Slice) : (s.modSlice c w f).inbox = s.inbox := State.modWg_inbox _ _ _ _
@[simp] theorem State.modCur_inbox (s : State) (f : Group → Group) : (s.modCur f).inbox = s.inbox := State.modWg_inbox _ _ _ _
@[simp] theorem State.modCurWg_inbox (s : State) (f : Workgroup → Workgroup) : (s.modCurWg f).inbox = s.inbox := State.modWg_inbox _ _ _ _
@[simp] theorem State.modCurSlice_inbox (s : State) (f : Slice → Slice) : (s.modCurSlice f).inbox = s.inbox := State.modWg_inbox _ _ _ _
@[simp] theorem State.advance_inbox (s : State) (p : List Nat) : (s.advance p).inbox = s.inbox := by
  unfold State.advance; simp

@[simp] theorem State.modWg_freeIdx (s : State) (c w : Nat) (f : Workgroup → Workgroup) : (s.modWg c w f).freeIdx = s.freeIdx := by
  unfold State.modWg; split <;> rfl
@[simp] theorem State.modGroup_freeIdx (s : State) (c w g : Nat) (f : Group → Group) : (s.modGroup c w g f).freeIdx = s.freeIdx := State.modWg_freeIdx _ _ _ _
@[simp] theorem State.modSlice_freeIdx (s : State) (c w : Nat) (f : Slice → Slice) : (s.modSlice c w f).freeIdx = s.freeIdx := State.modWg_freeIdx _ _ _ _
@[simp] theorem State.modCur_freeIdx (s : State) (f : Group → Group) : (s.modCur f).freeIdx = s.freeIdx := State.modWg_freeIdx _ _ _ _
@[simp] theorem State.modCurWg_freeIdx (s : State) (f : Workgroup → Workgroup) : (s.modCurWg f).freeIdx = s.freeIdx := State.modWg_freeIdx _ _ _ _
@[simp] theorem State.modCurSlice_freeIdx (s : State) (f : Slice → Slice) : (s.modCurSlice f).freeIdx = s.freeIdx := State.modWg_freeIdx _ _ _ _
@[simp] theorem State.advance_freeIdx (s : State) (p : List Nat) : (s.advance p).freeIdx = s.freeIdx := by
  unfold State.advance; simp

@[simp] theorem State.modWg_nextId (s : State) (c w : Nat) (f : Workgroup → Workgroup) : (s.modWg c w f).nextId = s.nextId := by
  unfold State.modWg; split <;> rfl
@[simp] theorem State.modGroup_nextId (s : State) (c w g : Nat) (f : Group → Group) : (s.modGroup c w g f).nextId = s.nextId := State.modWg_nextId _ _ _ _
@[simp] theorem State.modSlice_nextId (s : State) (c w : Nat) (f : Slice → Slice) : (s.modSlice c w f).nextId = s.nextId := State.modWg_nextId _ _ _ _
@[simp] theorem State.modCur_nextId (s : State) (f : Group → Group) : (s.modCur f).nextId = s.nextId := State.modWg_nextId _ _ _ _
@[simp] theorem State.modCurWg_nextId (s : State) (f : Workgroup → Workgroup) : (s.modCurWg f).nextId = s.nextId := State.modWg_nextId _ _ _ _
@[simp] theorem State.modCurSlice_nextId (s : State) (f : Slice → Slice) : (s.modCurSlice f).nextId = s.nextId := State.modWg_nextId _ _ _ _
@[simp] theorem State.advance_nextId (s : State) (p : List Nat) : (s.advance p).nextId = s.nextId := by
  unfold State.advance; simp

@[simp] theorem State.modWg_mem (s : State) (c w : Nat) (f : Workgroup → Workgroup) : (s.modWg c w f).mem = s.mem := by
  unfold State.modWg; split <;> rfl
@[simp] theorem State.modGroup_mem (s : State) (c w g : Nat) (f : Group → Group) : (s.modGroup c w g f).mem = s.mem := State.modWg_mem _ _ _ _
@[simp] theorem State.modSlice_mem (s : State) (c w : Nat) (f : Slice → Slice) : (s.modSlice c w f).mem = s.mem := State.modWg_mem _ _ _ _
@[simp] theorem State.modCur_mem (s : State) (f : Group → Group) : (s.modCur f).mem = s.mem := State.modWg_mem _ _ _ _
@[simp] theorem State.modCurWg_mem (s : State) (f : Workgroup → Workgroup) : (s.modCurWg f).mem = s.mem := State.modWg_mem _ _ _ _
@[simp] theorem State.modCurSlice_mem (s : State) (f : Slice → Slice) : (s.modCurSlice f).mem = s.mem := State.modWg_mem _ _ _ _
@[simp] theorem State.advance_mem (s : State) (p : List Nat) : (s.advance p).mem = s.mem := by
  unfold State.advance; simp

@[simp] theorem State.modWg_clusters (s : State) (c w : Nat) (f : Workgroup → Workgroup) : (s.modWg c w f).clusters = s.clusters := by
  unfold State.modWg; split <;> rfl
@[simp] theorem State.modGroup_clusters (s : State) (c w g : Nat) (f : Group → Group) : (s.modGroup c w g f).clusters = s.clusters := State.modWg_clusters _ _ _ _
@[simp] theorem State.modSlice_clusters (s : State) (c w : Nat) (f : Slice → Slice) : (s.modSlice c w f).clusters = s.clusters := State.modWg_clusters _ _ _ _
@[simp] theorem State.modCur_clusters (s : State) (f : Group → Group) : (s.modCur f).clusters = s.clusters := State.modWg_clusters _ _ _ _
@[simp] theorem State.modCurWg_clusters (s : State) (f : Workgroup → Workgroup) : (s.modCurWg f).clusters = s.clusters := State.modWg_clusters _ _ _ _
@[simp] theorem State.modCurSlice_clusters (s : State) (f : Slice → Slice) : (s.modCurSlice f).clusters = s.clusters := State.modWg_clusters _ _ _ _
@[simp] theorem State.advance_clusters (s : State) (p : List Nat) : (s.advance p).clusters = s.clusters := by
  unfold State.advance; simp

@[simp] theorem State.modWg_dies (s : State) (c w : Nat) (f : Workgroup → Workgroup) : (s.modWg c w f).dies = s.dies := by
  unfold State.modWg; split <;> rfl
@[simp] theorem State.modGroup_dies (s : State) (c w g : Nat) (f : Group → Group) : (s.modGroup c w g f).dies = s.dies := State.modWg_dies _ _ _ _
@[simp] theorem State.modSlice_dies (s : State) (c w : Nat) (f : Slice → Slice) : (s.modSlice c w f).dies = s.dies := State.modWg_dies _ _ _ _
@[simp] theorem State.modCur_dies (s : State) (f : Group → Group) : (s.modCur f).dies = s.dies := State.modWg_dies _ _ _ _
@[simp] theorem State.modCurWg_dies (s : State) (f : Workgroup → Workgroup) : (s.modCurWg f).dies = s.dies := State.modWg_dies _ _ _ _
@[simp] theorem State.modCurSlice_dies (s : State) (f : Slice → Slice) : (s.modCurSlice f).dies = s.dies := State.modWg_dies _ _ _ _
@[simp] theorem State.advance_dies (s : State) (p : List Nat) : (s.advance p).dies = s.dies := by
  unfold State.advance; simp

@[simp] theorem State.modWg_pkg (s : State) (c w : Nat) (f : Workgroup → Workgroup) : (s.modWg c w f).pkg = s.pkg := by
  unfold State.modWg; split <;> rfl
@[simp] theorem State.modGroup_pkg (s : State) (c w g : Nat) (f : Group → Group) : (s.modGroup c w g f).pkg = s.pkg := State.modWg_pkg _ _ _ _
@[simp] theorem State.modSlice_pkg (s : State) (c w : Nat) (f : Slice → Slice) : (s.modSlice c w f).pkg = s.pkg := State.modWg_pkg _ _ _ _
@[simp] theorem State.modCur_pkg (s : State) (f : Group → Group) : (s.modCur f).pkg = s.pkg := State.modWg_pkg _ _ _ _
@[simp] theorem State.modCurWg_pkg (s : State) (f : Workgroup → Workgroup) : (s.modCurWg f).pkg = s.pkg := State.modWg_pkg _ _ _ _
@[simp] theorem State.modCurSlice_pkg (s : State) (f : Slice → Slice) : (s.modCurSlice f).pkg = s.pkg := State.modWg_pkg _ _ _ _
@[simp] theorem State.advance_pkg (s : State) (p : List Nat) : (s.advance p).pkg = s.pkg := by
  unfold State.advance; simp

/-- A workgroup in its slot after a change. -/
theorem State.wg_modWg (s : State) (c w : Nat) (f : Workgroup → Workgroup) : (s.modWg c w f).wg c w = (s.wg c w).map f := by
  unfold State.modWg
  split
  · rename_i h; simp [h]
  · rename_i h; rw [h]; simp [State.wg]

theorem State.wg_modWg_ne (s : State) {c w c' w' : Nat} (f : Workgroup → Workgroup) (h : ¬ (c' = c ∧ w' = w)) :
    (s.modWg c w f).wg c' w' = s.wg c' w' := by
  unfold State.modWg
  split
  · rfl
  · by_cases e : c' = c
    · subst e; simp [State.wg, tget_tset_ne _ _ (fun k => h ⟨rfl, k⟩)]
    · simp [State.wg, State.core_modCore_ne s _ e]

theorem getElem?_lmod {α : Type} (l : List α) (k j : Nat) (f : α → α) : (lmod l k f)[j]? = if j = k then l[j]?.map f else l[j]? := by
  induction l generalizing k j with
  | nil => simp [lmod]
  | cons a t ih =>
    cases k with
    | zero => cases j <;> simp [lmod]
    | succ k => cases j <;> simp [lmod, ih]

@[simp] theorem length_lmod {α : Type} (l : List α) (k : Nat) (f : α → α) : (lmod l k f).length = l.length := by
  induction l generalizing k with
  | nil => rfl
  | cons a t ih => cases k <;> simp [lmod, ih]

@[simp] theorem length_lset {α : Type} (l : List α) (k : Nat) (v : α) : (lset l k v).length = l.length := length_lmod _ _ _

/-- A group in its place after a change. -/
theorem State.group_modGroup (s : State) (c w g : Nat) (f : Group → Group) : (s.modGroup c w g f).group c w g = (s.group c w g).map f := by
  unfold State.group State.modGroup
  rw [State.wg_modWg]
  cases s.wg c w <;> simp [Workgroup.group, Workgroup.modGroup, getElem?_lmod]

theorem State.group_modGroup_ne (s : State) {c w g c' w' g' : Nat} (f : Group → Group) (h : ¬ (c' = c ∧ w' = w ∧ g' = g)) :
    (s.modGroup c w g f).group c' w' g' = s.group c' w' g' := by
  unfold State.group State.modGroup
  by_cases e : c' = c ∧ w' = w
  · obtain ⟨rfl, rfl⟩ := e
    rw [State.wg_modWg]
    have : g' ≠ g := fun k => h ⟨rfl, rfl, k⟩
    cases s.wg c' w' <;> simp [Workgroup.group, Workgroup.modGroup, getElem?_lmod, this]
  · rw [State.wg_modWg_ne s _ e]

/-! ## Lanes -/

/-- A lane in its place after a change: a lane that the group has is changed. -/
theorem Group.lane_modLane (g : Group) (l : Nat) (f : Lane → Lane) (h : l < g.lanes.length) : (g.modLane l f).lane l = f (g.lane l) := by
  unfold Group.lane Group.modLane
  rw [List.getD_eq_getElem?_getD, List.getD_eq_getElem?_getD, getElem?_lmod, if_pos rfl, List.getElem?_eq_getElem h]
  rfl

theorem Group.lane_modLane_ne (g : Group) {l j : Nat} (f : Lane → Lane) (h : j ≠ l) : (g.modLane l f).lane j = g.lane j := by
  simp [Group.lane, Group.modLane, List.getD_eq_getElem?_getD, getElem?_lmod, h]

@[simp] theorem Group.modLane_regs (g : Group) (l : Nat) (f : Lane → Lane) : (g.modLane l f).regs = g.regs := rfl
@[simp] theorem Group.modLane_joins (g : Group) (l : Nat) (f : Lane → Lane) : (g.modLane l f).joins = g.joins := rfl
@[simp] theorem Group.modLane_ctrl (g : Group) (l : Nat) (f : Lane → Lane) : (g.modLane l f).ctrl = g.ctrl := rfl
@[simp] theorem Group.modLane_quota (g : Group) (l : Nat) (f : Lane → Lane) : (g.modLane l f).quota = g.quota := rfl
@[simp] theorem Group.modLane_pend (g : Group) (l : Nat) (f : Lane → Lane) : (g.modLane l f).pend = g.pend := rfl
@[simp] theorem Group.modLane_frees (g : Group) (l : Nat) (f : Lane → Lane) : (g.modLane l f).frees = g.frees := rfl
@[simp] theorem Group.modLane_waits (g : Group) (l : Nat) (f : Lane → Lane) : (g.modLane l f).waits = g.waits := rfl
@[simp] theorem Group.modLane_failed (g : Group) (l : Nat) (f : Lane → Lane) : (g.modLane l f).failed = g.failed := rfl
@[simp] theorem Group.modLane_tileFault (g : Group) (l : Nat) (f : Lane → Lane) : (g.modLane l f).tileFault = g.tileFault := rfl
@[simp] theorem Group.modLane_copyFault (g : Group) (l : Nat) (f : Lane → Lane) : (g.modLane l f).copyFault = g.copyFault := rfl
@[simp] theorem Group.modLane_unfencedRegs (g : Group) (l : Nat) (f : Lane → Lane) : (g.modLane l f).unfencedRegs = g.unfencedRegs := rfl
@[simp] theorem Group.modLane_unfencedTiles (g : Group) (l : Nat) (f : Lane → Lane) : (g.modLane l f).unfencedTiles = g.unfencedTiles := rfl
@[simp] theorem Group.modLane_entryPc (g : Group) (l : Nat) (f : Lane → Lane) : (g.modLane l f).entryPc = g.entryPc := rfl
@[simp] theorem Group.modLane_replay (g : Group) (l : Nat) (f : Lane → Lane) : (g.modLane l f).replay = g.replay := rfl
@[simp] theorem Group.modLane_retired (g : Group) (l : Nat) (f : Lane → Lane) : (g.modLane l f).retired = g.retired := rfl
@[simp] theorem Group.modLane_length (g : Group) (l : Nat) (f : Lane → Lane) : (g.modLane l f).lanes.length = g.lanes.length := length_lmod _ _ _

@[simp] theorem Group.modLanes_regs (g : Group) (ls : List Nat) (f : Lane → Lane) : (g.modLanes ls f).regs = g.regs := by
  unfold Group.modLanes; induction ls generalizing g with
  | nil => rfl
  | cons l t ih => exact ih (g.modLane l f)
@[simp] theorem Group.modLanes_joins (g : Group) (ls : List Nat) (f : Lane → Lane) : (g.modLanes ls f).joins = g.joins := by
  unfold Group.modLanes; induction ls generalizing g with
  | nil => rfl
  | cons l t ih => exact ih (g.modLane l f)
@[simp] theorem Group.modLanes_ctrl (g : Group) (ls : List Nat) (f : Lane → Lane) : (g.modLanes ls f).ctrl = g.ctrl := by
  unfold Group.modLanes; induction ls generalizing g with
  | nil => rfl
  | cons l t ih => exact ih (g.modLane l f)
@[simp] theorem Group.modLanes_quota (g : Group) (ls : List Nat) (f : Lane → Lane) : (g.modLanes ls f).quota = g.quota := by
  unfold Group.modLanes; induction ls generalizing g with
  | nil => rfl
  | cons l t ih => exact ih (g.modLane l f)
@[simp] theorem Group.modLanes_pend (g : Group) (ls : List Nat) (f : Lane → Lane) : (g.modLanes ls f).pend = g.pend := by
  unfold Group.modLanes; induction ls generalizing g with
  | nil => rfl
  | cons l t ih => exact ih (g.modLane l f)
@[simp] theorem Group.modLanes_frees (g : Group) (ls : List Nat) (f : Lane → Lane) : (g.modLanes ls f).frees = g.frees := by
  unfold Group.modLanes; induction ls generalizing g with
  | nil => rfl
  | cons l t ih => exact ih (g.modLane l f)
@[simp] theorem Group.modLanes_waits (g : Group) (ls : List Nat) (f : Lane → Lane) : (g.modLanes ls f).waits = g.waits := by
  unfold Group.modLanes; induction ls generalizing g with
  | nil => rfl
  | cons l t ih => exact ih (g.modLane l f)
@[simp] theorem Group.modLanes_failed (g : Group) (ls : List Nat) (f : Lane → Lane) : (g.modLanes ls f).failed = g.failed := by
  unfold Group.modLanes; induction ls generalizing g with
  | nil => rfl
  | cons l t ih => exact ih (g.modLane l f)
@[simp] theorem Group.modLanes_tileFault (g : Group) (ls : List Nat) (f : Lane → Lane) : (g.modLanes ls f).tileFault = g.tileFault := by
  unfold Group.modLanes; induction ls generalizing g with
  | nil => rfl
  | cons l t ih => exact ih (g.modLane l f)
@[simp] theorem Group.modLanes_copyFault (g : Group) (ls : List Nat) (f : Lane → Lane) : (g.modLanes ls f).copyFault = g.copyFault := by
  unfold Group.modLanes; induction ls generalizing g with
  | nil => rfl
  | cons l t ih => exact ih (g.modLane l f)
@[simp] theorem Group.modLanes_unfencedRegs (g : Group) (ls : List Nat) (f : Lane → Lane) : (g.modLanes ls f).unfencedRegs = g.unfencedRegs := by
  unfold Group.modLanes; induction ls generalizing g with
  | nil => rfl
  | cons l t ih => exact ih (g.modLane l f)
@[simp] theorem Group.modLanes_unfencedTiles (g : Group) (ls : List Nat) (f : Lane → Lane) : (g.modLanes ls f).unfencedTiles = g.unfencedTiles := by
  unfold Group.modLanes; induction ls generalizing g with
  | nil => rfl
  | cons l t ih => exact ih (g.modLane l f)
@[simp] theorem Group.modLanes_entryPc (g : Group) (ls : List Nat) (f : Lane → Lane) : (g.modLanes ls f).entryPc = g.entryPc := by
  unfold Group.modLanes; induction ls generalizing g with
  | nil => rfl
  | cons l t ih => exact ih (g.modLane l f)
@[simp] theorem Group.modLanes_replay (g : Group) (ls : List Nat) (f : Lane → Lane) : (g.modLanes ls f).replay = g.replay := by
  unfold Group.modLanes; induction ls generalizing g with
  | nil => rfl
  | cons l t ih => exact ih (g.modLane l f)
@[simp] theorem Group.modLanes_retired (g : Group) (ls : List Nat) (f : Lane → Lane) : (g.modLanes ls f).retired = g.retired := by
  unfold Group.modLanes; induction ls generalizing g with
  | nil => rfl
  | cons l t ih => exact ih (g.modLane l f)
@[simp] theorem Group.modLanes_length (g : Group) (ls : List Nat) (f : Lane → Lane) : (g.modLanes ls f).lanes.length = g.lanes.length := by
  unfold Group.modLanes; induction ls generalizing g with
  | nil => rfl
  | cons l t ih => exact (ih (g.modLane l f)).trans (by simp)

@[simp] theorem Workgroup.modGroup_uid (w : Workgroup) (g : Nat) (f : Group → Group) : (w.modGroup g f).uid = w.uid := rfl
@[simp] theorem Workgroup.modGroup_packet (w : Workgroup) (g : Nat) (f : Group → Group) : (w.modGroup g f).packet = w.packet := rfl
@[simp] theorem Workgroup.modGroup_launch (w : Workgroup) (g : Nat) (f : Group → Group) : (w.modGroup g f).launch = w.launch := rfl
@[simp] theorem Workgroup.modGroup_source (w : Workgroup) (g : Nat) (f : Group → Group) : (w.modGroup g f).source = w.source := rfl
@[simp] theorem Workgroup.modGroup_tree (w : Workgroup) (g : Nat) (f : Group → Group) : (w.modGroup g f).tree = w.tree := rfl
@[simp] theorem Workgroup.modGroup_depth (w : Workgroup) (g : Nat) (f : Group → Group) : (w.modGroup g f).depth = w.depth := rfl
@[simp] theorem Workgroup.modGroup_asid (w : Workgroup) (g : Nat) (f : Group → Group) : (w.modGroup g f).asid = w.asid := rfl
@[simp] theorem Workgroup.modGroup_priv (w : Workgroup) (g : Nat) (f : Group → Group) : (w.modGroup g f).priv = w.priv := rfl
@[simp] theorem Workgroup.modGroup_part (w : Workgroup) (g : Nat) (f : Group → Group) : (w.modGroup g f).part = w.part := rfl
@[simp] theorem Workgroup.modGroup_ctxid (w : Workgroup) (g : Nat) (f : Group → Group) : (w.modGroup g f).ctxid = w.ctxid := rfl
@[simp] theorem Workgroup.modGroup_savebase (w : Workgroup) (g : Nat) (f : Group → Group) : (w.modGroup g f).savebase = w.savebase := rfl
@[simp] theorem Workgroup.modGroup_wx (w : Workgroup) (g : Nat) (f : Group → Group) : (w.modGroup g f).wx = w.wx := rfl
@[simp] theorem Workgroup.modGroup_wy (w : Workgroup) (g : Nat) (f : Group → Group) : (w.modGroup g f).wy = w.wy := rfl
@[simp] theorem Workgroup.modGroup_wz (w : Workgroup) (g : Nat) (f : Group → Group) : (w.modGroup g f).wz = w.wz := rfl
@[simp] theorem Workgroup.modGroup_width (w : Workgroup) (g : Nat) (f : Group → Group) : (w.modGroup g f).width = w.width := rfl
@[simp] theorem Workgroup.modGroup_home (w : Workgroup) (g : Nat) (f : Group → Group) : (w.modGroup g f).home = w.home := rfl
@[simp] theorem Workgroup.modGroup_scratchBytes (w : Workgroup) (g : Nat) (f : Group → Group) : (w.modGroup g f).scratchBytes = w.scratchBytes := rfl
@[simp] theorem Workgroup.modGroup_scratch (w : Workgroup) (g : Nat) (f : Group → Group) : (w.modGroup g f).scratch = w.scratch := rfl
@[simp] theorem Workgroup.modGroup_tiles (w : Workgroup) (g : Nat) (f : Group → Group) : (w.modGroup g f).tiles = w.tiles := rfl
@[simp] theorem Workgroup.modGroup_ops (w : Workgroup) (g : Nat) (f : Group → Group) : (w.modGroup g f).ops = w.ops := rfl
@[simp] theorem Workgroup.modGroup_fifos (w : Workgroup) (g : Nat) (f : Group → Group) : (w.modGroup g f).fifos = w.fifos := rfl
@[simp] theorem Workgroup.modGroup_context (w : Workgroup) (g : Nat) (f : Group → Group) : (w.modGroup g f).context = w.context := rfl
@[simp] theorem Workgroup.modGroup_slice (w : Workgroup) (g : Nat) (f : Group → Group) : (w.modGroup g f).slice = w.slice := rfl
@[simp] theorem Workgroup.modGroup_view (w : Workgroup) (g : Nat) (f : Group → Group) : (w.modGroup g f).view = w.view := rfl
@[simp] theorem Workgroup.modGroup_copies (w : Workgroup) (g : Nat) (f : Group → Group) : (w.modGroup g f).copies = w.copies := rfl
@[simp] theorem Workgroup.modGroup_nbar (w : Workgroup) (g : Nat) (f : Group → Group) : (w.modGroup g f).nbar = w.nbar := rfl
@[simp] theorem Workgroup.modGroup_grabbed (w : Workgroup) (g : Nat) (f : Group → Group) : (w.modGroup g f).grabbed = w.grabbed := rfl
@[simp] theorem Workgroup.modGroup_aborted (w : Workgroup) (g : Nat) (f : Group → Group) : (w.modGroup g f).aborted = w.aborted := rfl
@[simp] theorem Workgroup.modGroup_preempting (w : Workgroup) (g : Nat) (f : Group → Group) : (w.modGroup g f).preempting = w.preempting := rfl

end Sys2Proof.Machine
end

