-- ==== Sys2Proof/Laws/Memory.lean ====
section
/-!
SUPPORT. Reading and writing bytes of memory: a write gives what it wrote and leaves every other byte, and every operation that writes
memory keeps its canonical form.
-/
namespace Sys2Proof.Machine

/-! ## Canonical tables -/

theorem tabAbove_mono {α : Type} {a b : Nat} (h : a ≤ b) {t : Tab α} (ht : tabAbove b t = true) : tabAbove a t = true := by
  cases t with
  | nil => rfl
  | cons x t => simp only [tabAbove, Bool.and_eq_true, decide_eq_true_eq] at *; exact ⟨by omega, ht.2⟩

theorem tabAbove_tset {α : Type} {lo k : Nat} {v : α} {t : Tab α} (hk : lo < k) (ht : tabAbove lo t = true) : tabAbove lo (tset t k v) = true := by
  induction t generalizing lo with
  | nil => simp [tset, tabAbove, hk]
  | cons x t ih =>
    simp only [tabAbove, Bool.and_eq_true, decide_eq_true_eq] at ht
    simp only [tset]
    split
    · rename_i e; subst e; simp [tabAbove, ht.1, ht.2]
    · split
      · rename_i h; simp [tabAbove, hk, h, ht.2]
      · rename_i h1 h2; simp only [tabAbove, Bool.and_eq_true, decide_eq_true_eq]; exact ⟨ht.1, ih (by omega) ht.2⟩

theorem tabAbove_filter {α : Type} {lo : Nat} (p : Nat × α → Bool) {t : Tab α} (ht : tabAbove lo t = true) : tabAbove lo (t.filter p) = true := by
  induction t generalizing lo with
  | nil => rfl
  | cons x t ih =>
    simp only [tabAbove, Bool.and_eq_true, decide_eq_true_eq] at ht
    rw [List.filter_cons]
    split
    · simp only [tabAbove, Bool.and_eq_true, decide_eq_true_eq]; exact ⟨ht.1, ih ht.2⟩
    · exact ih (tabAbove_mono (by omega) ht.2)

/-- A table whose keys rise from above nothing is canonical. -/
theorem tabOk_of_above {α : Type} {lo : Nat} {t : Tab α} (h : tabAbove lo t = true) : tabOk t = true := by
  cases t with
  | nil => rfl
  | cons x t => simp only [tabAbove, Bool.and_eq_true, tabOk] at *; exact h.2

/-- Setting a key keeps a table canonical. -/
theorem tabOk_tset {α : Type} {k : Nat} {v : α} {t : Tab α} (ht : tabOk t = true) : tabOk (tset t k v) = true := by
  cases t with
  | nil => rfl
  | cons x t =>
    simp only [tabOk] at ht
    simp only [tset]
    split
    · rename_i e; subst e; simpa [tabOk] using ht
    · split
      · rename_i h; simp [tabOk, tabAbove, h, ht]
      · rename_i h1 h2; simp only [tabOk]; exact tabAbove_tset (by omega) ht

/-- Leaving entries out keeps a table canonical. -/
theorem tabOk_filter {α : Type} (p : Nat × α → Bool) {t : Tab α} (ht : tabOk t = true) : tabOk (t.filter p) = true := by
  cases t with
  | nil => rfl
  | cons x t =>
    simp only [tabOk] at ht
    rw [List.filter_cons]
    split
    · exact tabAbove_filter p ht
    · exact tabOk_of_above (tabAbove_filter p ht)

/-- Deleting a key keeps a table canonical. -/
theorem tabOk_tdel {α : Type} {k : Nat} {t : Tab α} (ht : tabOk t = true) : tabOk (tdel t k) = true := tabOk_filter _ ht

theorem mem_tset {α : Type} {t : Tab α} {k : Nat} {v : α} {x : Nat × α} (h : x ∈ tset t k v) : x = (k, v) ∨ x ∈ t := by
  induction t with
  | nil => simpa [tset] using h
  | cons y t ih =>
    simp only [tset] at h
    split at h
    · rcases List.mem_cons.mp h with h | h
      · exact .inl h
      · exact .inr (List.mem_cons_of_mem _ h)
    · split at h
      · rcases List.mem_cons.mp h with h | h
        · exact .inl h
        · exact .inr h
      · rcases List.mem_cons.mp h with h | h
        · exact .inr (by subst h; exact List.mem_cons_self)
        · rcases ih h with h | h
          · exact .inl h
          · exact .inr (List.mem_cons_of_mem _ h)

/-! ## One byte -/

/-- A byte reads as it was written. -/
@[simp] theorem memGet_memPut_same (m : List Host.Cell) (a : Nat) (b : Byte) : memGet (memPut m a b) a = b := by
  unfold memPut memGet tgetD
  split
  · rename_i h; simp [h]
  · simp

/-- A write of one byte leaves every other byte. -/
theorem memGet_memPut_ne (m : List Host.Cell) {a c : Nat} (b : Byte) (h : c ≠ a) : memGet (memPut m a b) c = memGet m c := by
  unfold memPut memGet tgetD
  split
  · rw [tget_tdel_ne _ h]
  · rw [tget_tset_ne _ _ h]

/-- Bytes in a row: those outside the row stay. -/
theorem memGet_memPutList_out (m : List Host.Cell) {a c : Nat} (bs : List Byte) (h : c < a ∨ a + bs.length ≤ c) :
    memGet (memPutList m a bs) c = memGet m c := by
  induction bs generalizing m a with
  | nil => rfl
  | cons b t ih =>
    simp only [List.length_cons] at h
    rw [memPutList, ih _ (by omega), memGet_memPut_ne _ _ (by omega)]

/-- Bytes in a row: each of them reads as written. -/
theorem memGet_memPutList_in (m : List Host.Cell) {a j : Nat} (bs : List Byte) (h : j < bs.length) :
    memGet (memPutList m a bs) (a + j) = bs.getD j 0 := by
  induction bs generalizing m a j with
  | nil => simp at h
  | cons b t ih =>
    rw [memPutList]
    cases j with
    | zero => rw [memGet_memPutList_out _ _ (by omega)]; simp
    | succ j => simp only [List.length_cons] at h; rw [show a + (j + 1) = a + 1 + j by omega, ih _ (by omega)]; simp

/-! ## Canonical memory -/

/-- Writing one byte keeps memory canonical. -/
theorem memPut_wf {m : List Host.Cell} {a : Nat} {b : Byte} (h : Memory.wf m = true) : Memory.wf (memPut m a b) = true := by
  unfold Memory.wf at *
  simp only [Bool.and_eq_true, List.all_eq_true, decide_eq_true_eq] at *
  unfold memPut
  split
  · refine ⟨tabOk_tdel h.1, fun x hx => h.2 x ?_⟩
    unfold tdel at hx
    exact (List.mem_filter.mp hx).1
  · rename_i hb
    refine ⟨tabOk_tset h.1, fun x hx => ?_⟩
    rcases mem_tset hx with hx | hx
    · subst hx; exact hb
    · exact h.2 x hx

/-- Writing bytes in a row keeps memory canonical. -/
theorem memPutList_wf {m : List Host.Cell} {a : Nat} {bs : List Byte} (h : Memory.wf m = true) : Memory.wf (memPutList m a bs) = true := by
  induction bs generalizing m a with
  | nil => exact h
  | cons b t ih => exact ih (memPut_wf h)

/-- Leaving cells out keeps memory canonical. -/
theorem filter_wf {m : List Host.Cell} (p : Host.Cell → Bool) (h : Memory.wf m = true) : Memory.wf (m.filter p) = true := by
  unfold Memory.wf at *
  simp only [Bool.and_eq_true, List.all_eq_true, decide_eq_true_eq] at *
  exact ⟨tabOk_filter p h.1, fun x hx => h.2 x (List.mem_filter.mp hx).1⟩

/-- Writing a byte for each member of a list keeps memory canonical. -/
theorem foldl_memPut_wf {α : Type} (f : α → Nat) (g : α → Byte) (l : List α) {m : List Host.Cell} (h : Memory.wf m = true) :
    Memory.wf (l.foldl (fun m x => memPut m (f x) (g x)) m) = true := by
  induction l generalizing m with
  | nil => exact h
  | cons x t ih => exact ih (memPut_wf h)

/-! ## The operations that write memory -/

@[simp] theorem State.storeLost_mem (s : State) (pa n : Nat) : (s.storeLost pa n).mem = s.mem := by
  unfold State.storeLost; split <;> rfl

@[simp] theorem State.spoil_mem (s : State) (pa n : Nat) : (s.spoil pa n).mem = s.mem := by
  unfold State.spoil
  split
  · split <;> rfl
  · rfl

/-- What a write within one line does to memory. -/
@[simp] theorem State.rawWrite_mem (s : State) (pa : Nat) (bs : List Byte) : (s.rawWrite pa bs).mem = memPutList s.mem pa bs := by
  simp only [State.rawWrite]
  split
  · exact State.storeLost_mem _ _ _
  · rw [State.modPkg_mem]; exact State.storeLost_mem _ _ _

/-- What a store within one line does to memory. -/
@[simp] theorem State.writePhys_mem (s : State) (pa : Nat) (bs : List Byte) : (s.writePhys pa bs).mem = memPutList s.mem pa bs := by
  unfold State.writePhys; rw [State.spoil_mem, State.rawWrite_mem]

/-- A store within one line keeps memory canonical. -/
theorem State.writePhys_wf {s : State} (pa : Nat) (bs : List Byte) (h : Memory.wf s.mem = true) :
    Memory.wf (s.writePhys pa bs).mem = true := by
  rw [State.writePhys_mem]; exact memPutList_wf h

/-- A store across lines keeps memory canonical. -/
theorem State.writeSpan_wf {s : State} (pa : Nat) (bs : List Byte) (h : Memory.wf s.mem = true) :
    Memory.wf (s.writeSpan pa bs).mem = true := by
  unfold State.writeSpan
  dsimp only
  split
  · exact State.writePhys_wf _ _ h
  · exact State.writePhys_wf _ _ (State.writePhys_wf _ _ h)

@[simp] theorem State.drawList_mem {α : Type} (s : State) (l : List α) : (s.drawList l).2.mem = s.mem := by
  induction l generalizing s with
  | nil => rfl
  | cons a t ih => exact ih s.draw.2

/-- Undefined bytes of a line keep memory canonical. -/
theorem State.exposeLine_wf {s : State} (line : Nat) (m : BitVec 128) (h : Memory.wf s.mem = true) :
    Memory.wf (s.exposeLine line m).mem = true := by
  unfold State.exposeLine
  exact foldl_memPut_wf _ _ _ (by rw [State.drawList_mem]; exact h)

/-- The copy of a page keeps memory canonical. -/
theorem copyPage_wf {m : List Host.Cell} (src dest : Nat) (h : Memory.wf m = true) : Memory.wf (copyPage m src dest) = true :=
  foldl_memPut_wf _ _ _ (filter_wf _ h)

/-- Clearing a range of bytes keeps memory canonical. -/
theorem State.zeroFill_wf {s : State} (lo hi : Nat) (h : Memory.wf s.mem = true) : Memory.wf (s.zeroFill lo hi).mem = true := filter_wf _ h

/-- Placing a word keeps memory canonical. -/
theorem placeMemory_wf {m : List Host.Cell} (w : Nat) (h : Memory.wf m = true) : Memory.wf (placeMemory w m) = true :=
  memPutList_wf (memPutList_wf (memPutList_wf h))

/-- Reset memory is canonical. -/
theorem reset_mem_wf : Memory.wf State.reset.mem = true := rfl

end Sys2Proof.Machine
end

