-- ==== Sys2Proof/Laws/Ops.lean ====
section
/-!
SUPPORT. Everything that the shared operations of a word can do, said once: who may execute it, how it ends, taking an exception and returning
from one.
-/
namespace Sys2Proof.Machine

/-- A group's word never refuses: it stops only where its issuer is not resident. -/
theorem groupWord_cases (u : Uses) (s : State) (body : Ctx → Uses → State → Did) :
    groupWord u s body = .fault .noIssuer ∨ ∃ t, groupWord u s body = .next t := by
  unfold groupWord
  repeat' split
  all_goals first | exact .inl rfl | exact .inr ⟨_, rfl⟩

/-- A word of either never refuses: it stops only where its issuer is not resident. -/
theorem bothWord_cases (u : Uses) (s : State) (body : Ctx → Uses → State → Did) (sl : Slice → State → SliceDid) :
    bothWord u s body sl = .fault .noIssuer ∨ ∃ t, bothWord u s body sl = .next t := by
  unfold bothWord
  repeat' split
  all_goals first | exact .inl rfl | exact .inr ⟨_, rfl⟩ | exact groupWord_cases _ _ _

/-- Taking a user cause does one of three things (R260, R261): nothing where the group is gone, an abort, or the entry of the handler. -/
theorem State.takeTrap_cases (s : State) (c w g : Nat) (path : List Nat) (pc : Nat) (t : Trap) (late : Bool) :
    (s.group c w g = none ∧ s.takeTrap c w g path pc t late = s) ∨
    (∃ x, s.group c w g = some x ∧ x.trapAborts = true ∧ s.takeTrap c w g path pc t late = s.abortWg c w (BitVec.ofNat 8 t.cause.code)) ∨
    (∃ x, s.group c w g = some x ∧ x.trapAborts = false ∧
      s.takeTrap c w g path pc t late = (s.modGroup c w g (fun y => y.enterTrap path pc t late)).tally (0x5CF + t.cause.code)) := by
  unfold State.takeTrap
  cases h : s.group c w g with
  | none => exact .inl ⟨rfl, rfl⟩
  | some x =>
    cases ha : x.trapAborts
    · exact .inr (.inr ⟨x, rfl, ha, by simp [ha]⟩)
    · exact .inr (.inl ⟨x, rfl, ha, by simp [ha]⟩)

/-- Where a handler can be entered, the group is the one that has entered it. -/
theorem State.takeTrap_group {s : State} {c w g : Nat} {x : Group} (path : List Nat) (pc : Nat) (t : Trap) (late : Bool)
    (h : s.group c w g = some x) (ha : x.trapAborts = false) :
    (s.takeTrap c w g path pc t late).group c w g = some (x.enterTrap path pc t late) := by
  unfold State.takeTrap
  simp only [h, ha, Bool.false_eq_true, if_false]
  show (s.modGroup c w g (fun y => y.enterTrap path pc t late)).group c w g = _
  rw [State.group_modGroup, h]
  rfl

/-- Entering a handler changes no register, join mask, quota or free, and no count of lanes. -/
theorem Group.enterTrap_keeps (g : Group) (path : List Nat) (pc : Nat) (t : Trap) (late : Bool) :
    (g.enterTrap path pc t late).regs = g.regs ∧ (g.enterTrap path pc t late).joins = g.joins ∧
    (g.enterTrap path pc t late).quota = g.quota ∧ (g.enterTrap path pc t late).frees = g.frees := ⟨rfl, rfl, rfl, rfl⟩

/-- What entering a handler writes (R260). -/
theorem Group.enterTrap_ctrl (g : Group) (path : List Nat) (pc : Nat) (t : Trap) (late : Bool) :
    (g.enterTrap path pc t late).ctrl =
      { g.ctrl with trapH := true, trapA := late, trapcause := BitVec.ofNat 8 t.cause.code, trappc := BitVec.ofNat 55 (4 * pc),
                    trapmask := t.mask, trapaddr := t.addr } := rfl

/-- Leaving a handler changes no register, join mask or quota. -/
theorem Group.leaveTrap_keeps (g : Group) :
    g.leaveTrap.regs = g.regs ∧ g.leaveTrap.joins = g.joins ∧ g.leaveTrap.quota = g.quota ∧
    g.leaveTrap.ctrl = { g.ctrl with trapH := false } := ⟨rfl, rfl, rfl, rfl⟩

/-- A word that is done goes on to the next word of its chain. -/
theorem Ctx.finish_done (c : Ctx) (u : Uses) (s0 s : State) :
    (c.finish u s0 (.done s)).mem = s.mem ∧ (c.finish u s0 (.done s)).dies = s.dies ∧ (c.finish u s0 (.done s)).pkg = s.pkg ∧
    (c.finish u s0 (.done s)).clusters = s.clusters ∧ (c.finish u s0 (.done s)).cycle = s.cycle := by
  simp [Ctx.finish]

/-- A word that waits has no effect but that its chain stops for now (R167). -/
theorem Ctx.finish_hold (c : Ctx) (u : Uses) (s0 s : State) :
    c.finish u s0 (.hold s) = { s with cur := { s.cur with live := false, waited := true } } := rfl

/-- A word that faults in a chain of its own takes its exception (R260). -/
theorem Ctx.finish_trap (c : Ctx) (u : Uses) {s0 : State} (s : State) (t : Trap) (late : Bool) (h : s0.cur.snap = none) :
    c.finish u s0 (.trap t late s) = ({ s with cur := { s.cur with live := false, waited := false } }).takeTrap c.who.core c.who.wg c.who.grp
      c.path s.cur.pc t late := by
  simp [Ctx.finish, h]

/-- The lanes of a mapped list by place. -/
theorem getElem?_lmapIdx {α β : Type} (f : Nat → α → β) (i : Nat) (l : List α) (k : Nat) :
    (lmapIdx f i l)[k]? = l[k]?.map (f (i + k)) := by
  induction l generalizing i k with
  | nil => simp [lmapIdx]
  | cons a t ih =>
    cases k with
    | zero => simp [lmapIdx]
    | succ k => simp [lmapIdx, ih, Nat.add_comm, Nat.add_left_comm]

@[simp] theorem length_lmapIdx {α β : Type} (f : Nat → α → β) (i : Nat) (l : List α) : (lmapIdx f i l).length = l.length := by
  induction l generalizing i with
  | nil => rfl
  | cons a t ih => simp [lmapIdx, ih]

end Sys2Proof.Machine
end

