-- ==== Sys2Proof/Laws/PerInstr.lean ====
section
/-!
SUPPORT. Decode and encode agree, constructor by constructor: the word of a well-formed instruction decodes to it (R34, R38, R40).
-/
set_option linter.unusedSimpArgs false

namespace Sys2Proof.Laws

/-- A row that fits a word, with fields that R40 admits, is what the decoder answers. -/
theorem decode_of_row {w : Nat} {i : Instr} (h : decodeRow w = some i) (k : i.wf = true) : decode w = .ok i := by
  unfold decode; rw [h]; simp [k]

/-- The lowest digit of a word. -/
theorem hit {v n r : Nat} (h : v < 2 ^ n) : bits (v + 2 ^ n * r) 0 n = v := by
  simp [bits, Nat.mod_eq_of_lt h]

/-- The last digit of a word. -/
theorem whole {v n : Nat} (h : v < 2 ^ n) : bits v 0 n = v := by
  simp [bits, Nat.mod_eq_of_lt h]

/-- Bits above the lowest digit. -/
theorem skip {v m r lo n x : Nat} (h : v < 2 ^ m) (k : m ≤ lo) (t : bits r (lo - m) n = x) : bits (v + 2 ^ m * r) lo n = x := by
  obtain ⟨j, rfl⟩ := Nat.exists_eq_add_of_le k
  rw [Nat.add_sub_cancel_left] at t
  subst t
  unfold bits
  rw [Nat.pow_add, ← Nat.div_div_eq_div_mul, Nat.add_mul_div_left _ _ (Nat.two_pow_pos m), Nat.div_eq_of_lt h, Nat.zero_add]

/-- Two neighbouring runs of bits. -/
theorem bits_join {w lo m n x y : Nat} (h : bits w lo m = x) (k : bits w (lo + m) n = y) : bits w lo (m + n) = x + 2 ^ m * y := by
  subst h k
  unfold bits
  rw [Nat.pow_add 2 m n, Nat.mod_mul, Nat.pow_add 2 lo m, Nat.div_div_eq_div_mul]

/-- A run of bits differs where a part of it does. -/
theorem apart {w lo n a m d v : Nat} (h : a + m ≤ n) (k : bits w (lo + a) m = d) (e : v / 2 ^ a % 2 ^ m ≠ d) : bits w lo n ≠ v := by
  intro t
  apply e
  subst t k
  obtain ⟨j, rfl⟩ := Nat.exists_eq_add_of_le h
  unfold bits
  rw [Nat.add_assoc, Nat.pow_add 2 a, Nat.mod_mul_right_div_self, Nat.pow_add 2 m j, Nat.mod_mul_right_mod, Nat.div_div_eq_div_mul, Nat.pow_add]

/-- What the family states of an instruction: if it is a word and its fields are those of an encoding, its word decodes to it. -/
def RoundTrip.Statement (i : Instr) : Prop := i.isWord = true → i.wf = true → decode (encode i) = .ok i

theorem decodeRow_0 {w : Nat} (h : bits w 26 5 = 0) : decodeRow w = decodeSys w := by simp [decodeRow, h]

theorem decodeRow_1 {w : Nat} (h : bits w 26 5 = 1) : decodeRow w = decodeRep w := by simp [decodeRow, h]

theorem decodeRow_2 {w : Nat} (h : bits w 26 5 = 2) : decodeRow w = decodeIarith w := by simp [decodeRow, h]

theorem decodeRow_3 {w : Nat} (h : bits w 26 5 = 3) : decodeRow w = decodeIlogic w := by simp [decodeRow, h]

theorem decodeRow_4 {w : Nat} (h : bits w 26 5 = 4) : decodeRow w = decodeIbits w := by simp [decodeRow, h]

theorem decodeRow_5 {w : Nat} (h : bits w 26 5 = 5) : decodeRow w = decodeIcmp w := by simp [decodeRow, h]

theorem decodeRow_6 {w : Nat} (h : bits w 26 5 = 6) : decodeRow w = decodeIimm w := by simp [decodeRow, h]

theorem decodeRow_7 {w : Nat} (h : bits w 26 5 = 7) : decodeRow w = decodeMovi w := by simp [decodeRow, h]

theorem decodeRow_8 {w : Nat} (h : bits w 26 5 = 8) : decodeRow w = decodeMovhi w := by simp [decodeRow, h]

theorem decodeRow_9 {w : Nat} (h : bits w 26 5 = 9) : decodeRow w = decodeFarith w := by simp [decodeRow, h]

theorem decodeRow_10 {w : Nat} (h : bits w 26 5 = 10) : decodeRow w = decodeFcmp w := by simp [decodeRow, h]

theorem decodeRow_11 {w : Nat} (h : bits w 26 5 = 11) : decodeRow w = decodeFunary w := by simp [decodeRow, h]

theorem decodeRow_12 {w : Nat} (h : bits w 26 5 = 12) : decodeRow w = decodeCvt w := by simp [decodeRow, h]

theorem decodeRow_13 {w : Nat} (h : bits w 26 5 = 13) : decodeRow w = decodeIval w := by simp [decodeRow, h]

theorem decodeRow_14 {w : Nat} (h : bits w 26 5 = 14) : decodeRow w = decodeIvcmp w := by simp [decodeRow, h]

theorem decodeRow_15 {w : Nat} (h : bits w 26 5 = 15) : decodeRow w = decodeQlogic w := by simp [decodeRow, h]

theorem decodeRow_16 {w : Nat} (h : bits w 26 5 = 16) : decodeRow w = decodeBr w := by simp [decodeRow, h]

theorem decodeRow_17 {w : Nat} (h : bits w 26 5 = 17) : decodeRow w = decodeCtl w := by simp [decodeRow, h]

theorem decodeRow_18 {w : Nat} (h : bits w 26 5 = 18) : decodeRow w = decodeGroup w := by simp [decodeRow, h]

theorem decodeRow_19 {w : Nat} (h : bits w 26 5 = 19) : decodeRow w = decodeQuad w := by simp [decodeRow, h]

theorem decodeRow_20 {w : Nat} (h : bits w 26 5 = 20) : decodeRow w = decodeMem w := by simp [decodeRow, h]

theorem decodeRow_21 {w : Nat} (h : bits w 26 5 = 21) : decodeRow w = decodeAtom w := by simp [decodeRow, h]

theorem decodeRow_22 {w : Nat} (h : bits w 26 5 = 22) : decodeRow w = decodeAsync w := by simp [decodeRow, h]

theorem decodeRow_23 {w : Nat} (h : bits w 26 5 = 23) : decodeRow w = decodeSync w := by simp [decodeRow, h]

theorem decodeRow_24 {w : Nat} (h : bits w 26 5 = 24) : decodeRow w = decodeMat w := by simp [decodeRow, h]

theorem decodeRow_25 {w : Nat} (h : bits w 26 5 = 25) : decodeRow w = decodeChurn w := by simp [decodeRow, h]

theorem decodeRow_26 {w : Nat} (h : bits w 26 5 = 26) : decodeRow w = decodeGfx w := by simp [decodeRow, h]

theorem decodeRow_27 {w : Nat} (h : bits w 26 5 = 27) : decodeRow w = decodeLaunch w := by simp [decodeRow, h]

/-- The fields of a word that is laid out as `R3`. -/
theorem R3.laid (f : R3) (h : f.fits) (K w j g0 : Nat) (hw : w = K + f.place) (hK : K = j * 67108864 + g0 * 1) (hj : j < 32) (hg0 : g0 < 8) :
    bits w 26 5 = j ∧ bits w 0 3 = g0 ∧ readR3 w = f := by
  obtain ⟨x0, x1, x2, x3, x4, x5, x6, x7⟩ := f
  simp only [R3.fits] at h
  simp only [R3.place] at hw
  subst hK
  obtain ⟨l0, l1, l2, l3, l4, l5, l6, l7⟩ := h
  have he : w = g0 + 2 ^ 3 * (x7 + 2 ^ 3 * (x6 + 2 ^ 3 * (x5 + 2 ^ 1 * (x4 + 2 ^ 1 * (x3 + 2 ^ 5 * (x2 + 2 ^ 5 * (x1 + 2 ^ 5 * (j + 2 ^ 5 * (x0))))))))) := by clear l0 l1 l2 l3 l4 l5 l6 l7 hg0 hj; simp only [Nat.mul_add, ← Nat.mul_assoc, Nat.reducePow, Nat.reduceMul]; omega
  have a0 : bits w 31 1 = x0 := by rw [he]; exact skip hg0 (by decide) (skip l7 (by decide) (skip l6 (by decide) (skip l5 (by decide) (skip l4 (by decide) (skip l3 (by decide) (skip l2 (by decide) (skip l1 (by decide) (skip hj (by decide) (whole l0)))))))))
  have a1 : bits w 21 5 = x1 := by rw [he]; exact skip hg0 (by decide) (skip l7 (by decide) (skip l6 (by decide) (skip l5 (by decide) (skip l4 (by decide) (skip l3 (by decide) (skip l2 (by decide) (hit l1)))))))
  have a2 : bits w 16 5 = x2 := by rw [he]; exact skip hg0 (by decide) (skip l7 (by decide) (skip l6 (by decide) (skip l5 (by decide) (skip l4 (by decide) (skip l3 (by decide) (hit l2))))))
  have a3 : bits w 11 5 = x3 := by rw [he]; exact skip hg0 (by decide) (skip l7 (by decide) (skip l6 (by decide) (skip l5 (by decide) (skip l4 (by decide) (hit l3)))))
  have a4 : bits w 10 1 = x4 := by rw [he]; exact skip hg0 (by decide) (skip l7 (by decide) (skip l6 (by decide) (skip l5 (by decide) (hit l4))))
  have a5 : bits w 9 1 = x5 := by rw [he]; exact skip hg0 (by decide) (skip l7 (by decide) (skip l6 (by decide) (hit l5)))
  have a6 : bits w 6 3 = x6 := by rw [he]; exact skip hg0 (by decide) (skip l7 (by decide) (hit l6))
  have a7 : bits w 3 3 = x7 := by rw [he]; exact skip hg0 (by decide) (hit l7)
  have c0 : bits w 26 5 = j := by rw [he]; exact skip hg0 (by decide) (skip l7 (by decide) (skip l6 (by decide) (skip l5 (by decide) (skip l4 (by decide) (skip l3 (by decide) (skip l2 (by decide) (skip l1 (by decide) (hit hj))))))))
  have c1 : bits w 0 3 = g0 := by rw [he]; exact hit hg0
  refine ⟨c0, c1, ?_⟩
  rw [readR3, a0, a1, a2, a3, a4, a5, a6, a7]

/-- The fields of a word that is laid out as `R1`. -/
theorem R1.laid (f : R1) (h : f.fits) (K w j g0 g1 g2 : Nat) (hw : w = K + f.place) (hK : K = j * 67108864 + g0 * 1 + g1 * 512 + g2 * 2048) (hj : j < 32) (hg0 : g0 < 8) (hg1 : g1 < 2) (hg2 : g2 < 32) :
    bits w 26 5 = j ∧ bits w 0 3 = g0 ∧ bits w 9 1 = g1 ∧ bits w 11 5 = g2 ∧ readR1 w = f := by
  obtain ⟨x0, x1, x2, x3, x4, x5⟩ := f
  simp only [R1.fits] at h
  simp only [R1.place] at hw
  subst hK
  obtain ⟨l0, l1, l2, l3, l4, l5⟩ := h
  have he : w = g0 + 2 ^ 3 * (x5 + 2 ^ 3 * (x4 + 2 ^ 3 * (g1 + 2 ^ 1 * (x3 + 2 ^ 1 * (g2 + 2 ^ 5 * (x2 + 2 ^ 5 * (x1 + 2 ^ 5 * (j + 2 ^ 5 * (x0))))))))) := by clear l0 l1 l2 l3 l4 l5 hg0 hg1 hg2 hj; simp only [Nat.mul_add, ← Nat.mul_assoc, Nat.reducePow, Nat.reduceMul]; omega
  have a0 : bits w 31 1 = x0 := by rw [he]; exact skip hg0 (by decide) (skip l5 (by decide) (skip l4 (by decide) (skip hg1 (by decide) (skip l3 (by decide) (skip hg2 (by decide) (skip l2 (by decide) (skip l1 (by decide) (skip hj (by decide) (whole l0)))))))))
  have a1 : bits w 21 5 = x1 := by rw [he]; exact skip hg0 (by decide) (skip l5 (by decide) (skip l4 (by decide) (skip hg1 (by decide) (skip l3 (by decide) (skip hg2 (by decide) (skip l2 (by decide) (hit l1)))))))
  have a2 : bits w 16 5 = x2 := by rw [he]; exact skip hg0 (by decide) (skip l5 (by decide) (skip l4 (by decide) (skip hg1 (by decide) (skip l3 (by decide) (skip hg2 (by decide) (hit l2))))))
  have a3 : bits w 10 1 = x3 := by rw [he]; exact skip hg0 (by decide) (skip l5 (by decide) (skip l4 (by decide) (skip hg1 (by decide) (hit l3))))
  have a4 : bits w 6 3 = x4 := by rw [he]; exact skip hg0 (by decide) (skip l5 (by decide) (hit l4))
  have a5 : bits w 3 3 = x5 := by rw [he]; exact skip hg0 (by decide) (hit l5)
  have c0 : bits w 26 5 = j := by rw [he]; exact skip hg0 (by decide) (skip l5 (by decide) (skip l4 (by decide) (skip hg1 (by decide) (skip l3 (by decide) (skip hg2 (by decide) (skip l2 (by decide) (skip l1 (by decide) (hit hj))))))))
  have c1 : bits w 0 3 = g0 := by rw [he]; exact hit hg0
  have c2 : bits w 9 1 = g1 := by rw [he]; exact skip hg0 (by decide) (skip l5 (by decide) (skip l4 (by decide) (hit hg1)))
  have c3 : bits w 11 5 = g2 := by rw [he]; exact skip hg0 (by decide) (skip l5 (by decide) (skip l4 (by decide) (skip hg1 (by decide) (skip l3 (by decide) (hit hg2)))))
  refine ⟨c0, c1, c2, c3, ?_⟩
  rw [readR1, a0, a1, a2, a3, a4, a5]

/-- The fields of a word that is laid out as `RCmp`. -/
theorem RCmp.laid (f : RCmp) (h : f.fits) (K w j g0 g1 : Nat) (hw : w = K + f.place) (hK : K = j * 67108864 + g0 * 1 + g1 * 16777216) (hj : j < 32) (hg0 : g0 < 8) (hg1 : g1 < 4) :
    bits w 26 5 = j ∧ bits w 0 3 = g0 ∧ bits w 24 2 = g1 ∧ readRCmp w = f := by
  obtain ⟨x0, x1, x2, x3, x4, x5, x6, x7⟩ := f
  simp only [RCmp.fits] at h
  simp only [RCmp.place] at hw
  subst hK
  obtain ⟨l0, l1, l2, l3, l4, l5, l6, l7⟩ := h
  have he : w = g0 + 2 ^ 3 * (x7 + 2 ^ 3 * (x6 + 2 ^ 3 * (x5 + 2 ^ 1 * (x4 + 2 ^ 1 * (x3 + 2 ^ 5 * (x2 + 2 ^ 5 * (x1 + 2 ^ 3 * (g1 + 2 ^ 2 * (j + 2 ^ 5 * (x0)))))))))) := by clear l0 l1 l2 l3 l4 l5 l6 l7 hg0 hg1 hj; simp only [Nat.mul_add, ← Nat.mul_assoc, Nat.reducePow, Nat.reduceMul]; omega
  have a0 : bits w 31 1 = x0 := by rw [he]; exact skip hg0 (by decide) (skip l7 (by decide) (skip l6 (by decide) (skip l5 (by decide) (skip l4 (by decide) (skip l3 (by decide) (skip l2 (by decide) (skip l1 (by decide) (skip hg1 (by decide) (skip hj (by decide) (whole l0))))))))))
  have a1 : bits w 21 3 = x1 := by rw [he]; exact skip hg0 (by decide) (skip l7 (by decide) (skip l6 (by decide) (skip l5 (by decide) (skip l4 (by decide) (skip l3 (by decide) (skip l2 (by decide) (hit l1)))))))
  have a2 : bits w 16 5 = x2 := by rw [he]; exact skip hg0 (by decide) (skip l7 (by decide) (skip l6 (by decide) (skip l5 (by decide) (skip l4 (by decide) (skip l3 (by decide) (hit l2))))))
  have a3 : bits w 11 5 = x3 := by rw [he]; exact skip hg0 (by decide) (skip l7 (by decide) (skip l6 (by decide) (skip l5 (by decide) (skip l4 (by decide) (hit l3)))))
  have a4 : bits w 10 1 = x4 := by rw [he]; exact skip hg0 (by decide) (skip l7 (by decide) (skip l6 (by decide) (skip l5 (by decide) (hit l4))))
  have a5 : bits w 9 1 = x5 := by rw [he]; exact skip hg0 (by decide) (skip l7 (by decide) (skip l6 (by decide) (hit l5)))
  have a6 : bits w 6 3 = x6 := by rw [he]; exact skip hg0 (by decide) (skip l7 (by decide) (hit l6))
  have a7 : bits w 3 3 = x7 := by rw [he]; exact skip hg0 (by decide) (hit l7)
  have c0 : bits w 26 5 = j := by rw [he]; exact skip hg0 (by decide) (skip l7 (by decide) (skip l6 (by decide) (skip l5 (by decide) (skip l4 (by decide) (skip l3 (by decide) (skip l2 (by decide) (skip l1 (by decide) (skip hg1 (by decide) (hit hj)))))))))
  have c1 : bits w 0 3 = g0 := by rw [he]; exact hit hg0
  have c2 : bits w 24 2 = g1 := by rw [he]; exact skip hg0 (by decide) (skip l7 (by decide) (skip l6 (by decide) (skip l5 (by decide) (skip l4 (by decide) (skip l3 (by decide) (skip l2 (by decide) (skip l1 (by decide) (hit hg1))))))))
  refine ⟨c0, c1, c2, ?_⟩
  rw [readRCmp, a0, a1, a2, a3, a4, a5, a6, a7]

/-- The fields of a word that is laid out as `RImm`. -/
theorem RImm.laid (f : RImm) (h : f.fits) (K w j g0 : Nat) (hw : w = K + f.place) (hK : K = j * 67108864 + g0 * 1) (hj : j < 32) (hg0 : g0 < 8) :
    bits w 26 5 = j ∧ bits w 0 3 = g0 ∧ readRImm w = f := by
  obtain ⟨x0, x1, x2, x3, x4, x5⟩ := f
  simp only [RImm.fits] at h
  simp only [RImm.place] at hw
  subst hK
  obtain ⟨l0, l1, l2, l3, l4, l5⟩ := h
  have he : w = g0 + 2 ^ 3 * (x5 + 2 ^ 3 * (x4 + 2 ^ 1 * (x3 + 2 ^ 9 * (x2 + 2 ^ 5 * (x1 + 2 ^ 5 * (j + 2 ^ 5 * (x0))))))) := by clear l0 l1 l2 l3 l4 l5 hg0 hj; simp only [Nat.mul_add, ← Nat.mul_assoc, Nat.reducePow, Nat.reduceMul]; omega
  have a0 : bits w 31 1 = x0 := by rw [he]; exact skip hg0 (by decide) (skip l5 (by decide) (skip l4 (by decide) (skip l3 (by decide) (skip l2 (by decide) (skip l1 (by decide) (skip hj (by decide) (whole l0)))))))
  have a1 : bits w 21 5 = x1 := by rw [he]; exact skip hg0 (by decide) (skip l5 (by decide) (skip l4 (by decide) (skip l3 (by decide) (skip l2 (by decide) (hit l1)))))
  have a2 : bits w 16 5 = x2 := by rw [he]; exact skip hg0 (by decide) (skip l5 (by decide) (skip l4 (by decide) (skip l3 (by decide) (hit l2))))
  have a3 : bits w 7 9 = x3 := by rw [he]; exact skip hg0 (by decide) (skip l5 (by decide) (skip l4 (by decide) (hit l3)))
  have a4 : bits w 6 1 = x4 := by rw [he]; exact skip hg0 (by decide) (skip l5 (by decide) (hit l4))
  have a5 : bits w 3 3 = x5 := by rw [he]; exact skip hg0 (by decide) (hit l5)
  have c0 : bits w 26 5 = j := by rw [he]; exact skip hg0 (by decide) (skip l5 (by decide) (skip l4 (by decide) (skip l3 (by decide) (skip l2 (by decide) (skip l1 (by decide) (hit hj))))))
  have c1 : bits w 0 3 = g0 := by rw [he]; exact hit hg0
  refine ⟨c0, c1, ?_⟩
  rw [readRImm, a0, a1, a2, a3, a4, a5]

/-- The fields of a word that is laid out as `RWide`. -/
theorem RWide.laid (f : RWide) (h : f.fits) (K w j  : Nat) (hw : w = K + f.place) (hK : K = j * 67108864) (hj : j < 32) :
    bits w 26 5 = j ∧ readRWide w = f := by
  obtain ⟨x0, x1, x2, x3⟩ := f
  simp only [RWide.fits] at h
  simp only [RWide.place] at hw
  subst hK
  obtain ⟨l0, l1, l2, l3⟩ := h
  have he : w = x3 + 2 ^ 3 * (x2 + 2 ^ 18 * (x1 + 2 ^ 5 * (j + 2 ^ 5 * (x0)))) := by clear l0 l1 l2 l3  hj; simp only [Nat.mul_add, ← Nat.mul_assoc, Nat.reducePow, Nat.reduceMul]; omega
  have a0 : bits w 31 1 = x0 := by rw [he]; exact skip l3 (by decide) (skip l2 (by decide) (skip l1 (by decide) (skip hj (by decide) (whole l0))))
  have a1 : bits w 21 5 = x1 := by rw [he]; exact skip l3 (by decide) (skip l2 (by decide) (hit l1))
  have a2 : bits w 3 18 = x2 := by rw [he]; exact skip l3 (by decide) (hit l2)
  have a3 : bits w 0 3 = x3 := by rw [he]; exact hit l3
  have c0 : bits w 26 5 = j := by rw [he]; exact skip l3 (by decide) (skip l2 (by decide) (skip l1 (by decide) (hit hj)))
  refine ⟨c0, ?_⟩
  rw [readRWide, a0, a1, a2, a3]

/-- The fields of a word that is laid out as `RRnd`. -/
theorem RRnd.laid (f : RRnd) (h : f.fits) (K w j g0 g1 : Nat) (hw : w = K + f.place) (hK : K = j * 67108864 + g0 * 512 + g1 * 2048) (hj : j < 32) (hg0 : g0 < 2) (hg1 : g1 < 32) :
    bits w 26 5 = j ∧ bits w 9 1 = g0 ∧ bits w 11 5 = g1 ∧ readRRnd w = f := by
  obtain ⟨x0, x1, x2, x3, x4, x5, x6⟩ := f
  simp only [RRnd.fits] at h
  simp only [RRnd.place] at hw
  subst hK
  obtain ⟨l0, l1, l2, l3, l4, l5, l6⟩ := h
  have he : w = x6 + 2 ^ 3 * (x5 + 2 ^ 3 * (x4 + 2 ^ 3 * (g0 + 2 ^ 1 * (x3 + 2 ^ 1 * (g1 + 2 ^ 5 * (x2 + 2 ^ 5 * (x1 + 2 ^ 5 * (j + 2 ^ 5 * (x0))))))))) := by clear l0 l1 l2 l3 l4 l5 l6 hg0 hg1 hj; simp only [Nat.mul_add, ← Nat.mul_assoc, Nat.reducePow, Nat.reduceMul]; omega
  have a0 : bits w 31 1 = x0 := by rw [he]; exact skip l6 (by decide) (skip l5 (by decide) (skip l4 (by decide) (skip hg0 (by decide) (skip l3 (by decide) (skip hg1 (by decide) (skip l2 (by decide) (skip l1 (by decide) (skip hj (by decide) (whole l0)))))))))
  have a1 : bits w 21 5 = x1 := by rw [he]; exact skip l6 (by decide) (skip l5 (by decide) (skip l4 (by decide) (skip hg0 (by decide) (skip l3 (by decide) (skip hg1 (by decide) (skip l2 (by decide) (hit l1)))))))
  have a2 : bits w 16 5 = x2 := by rw [he]; exact skip l6 (by decide) (skip l5 (by decide) (skip l4 (by decide) (skip hg0 (by decide) (skip l3 (by decide) (skip hg1 (by decide) (hit l2))))))
  have a3 : bits w 10 1 = x3 := by rw [he]; exact skip l6 (by decide) (skip l5 (by decide) (skip l4 (by decide) (skip hg0 (by decide) (hit l3))))
  have a4 : bits w 6 3 = x4 := by rw [he]; exact skip l6 (by decide) (skip l5 (by decide) (hit l4))
  have a5 : bits w 3 3 = x5 := by rw [he]; exact skip l6 (by decide) (hit l5)
  have a6 : bits w 0 3 = x6 := by rw [he]; exact hit l6
  have c0 : bits w 26 5 = j := by rw [he]; exact skip l6 (by decide) (skip l5 (by decide) (skip l4 (by decide) (skip hg0 (by decide) (skip l3 (by decide) (skip hg1 (by decide) (skip l2 (by decide) (skip l1 (by decide) (hit hj))))))))
  have c1 : bits w 9 1 = g0 := by rw [he]; exact skip l6 (by decide) (skip l5 (by decide) (skip l4 (by decide) (hit hg0)))
  have c2 : bits w 11 5 = g1 := by rw [he]; exact skip l6 (by decide) (skip l5 (by decide) (skip l4 (by decide) (skip hg0 (by decide) (skip l3 (by decide) (hit hg1)))))
  refine ⟨c0, c1, c2, ?_⟩
  rw [readRRnd, a0, a1, a2, a3, a4, a5, a6]

/-- The fields of a word that is laid out as `RCmp1`. -/
theorem RCmp1.laid (f : RCmp1) (h : f.fits) (K w j g0 g1 g2 g3 : Nat) (hw : w = K + f.place) (hK : K = j * 67108864 + g0 * 1 + g1 * 512 + g2 * 2048 + g3 * 16777216) (hj : j < 32) (hg0 : g0 < 8) (hg1 : g1 < 2) (hg2 : g2 < 32) (hg3 : g3 < 4) :
    bits w 26 5 = j ∧ bits w 0 3 = g0 ∧ bits w 9 1 = g1 ∧ bits w 11 5 = g2 ∧ bits w 24 2 = g3 ∧ readRCmp1 w = f := by
  obtain ⟨x0, x1, x2, x3, x4, x5⟩ := f
  simp only [RCmp1.fits] at h
  simp only [RCmp1.place] at hw
  subst hK
  obtain ⟨l0, l1, l2, l3, l4, l5⟩ := h
  have he : w = g0 + 2 ^ 3 * (x5 + 2 ^ 3 * (x4 + 2 ^ 3 * (g1 + 2 ^ 1 * (x3 + 2 ^ 1 * (g2 + 2 ^ 5 * (x2 + 2 ^ 5 * (x1 + 2 ^ 3 * (g3 + 2 ^ 2 * (j + 2 ^ 5 * (x0)))))))))) := by clear l0 l1 l2 l3 l4 l5 hg0 hg1 hg2 hg3 hj; simp only [Nat.mul_add, ← Nat.mul_assoc, Nat.reducePow, Nat.reduceMul]; omega
  have a0 : bits w 31 1 = x0 := by rw [he]; exact skip hg0 (by decide) (skip l5 (by decide) (skip l4 (by decide) (skip hg1 (by decide) (skip l3 (by decide) (skip hg2 (by decide) (skip l2 (by decide) (skip l1 (by decide) (skip hg3 (by decide) (skip hj (by decide) (whole l0))))))))))
  have a1 : bits w 21 3 = x1 := by rw [he]; exact skip hg0 (by decide) (skip l5 (by decide) (skip l4 (by decide) (skip hg1 (by decide) (skip l3 (by decide) (skip hg2 (by decide) (skip l2 (by decide) (hit l1)))))))
  have a2 : bits w 16 5 = x2 := by rw [he]; exact skip hg0 (by decide) (skip l5 (by decide) (skip l4 (by decide) (skip hg1 (by decide) (skip l3 (by decide) (skip hg2 (by decide) (hit l2))))))
  have a3 : bits w 10 1 = x3 := by rw [he]; exact skip hg0 (by decide) (skip l5 (by decide) (skip l4 (by decide) (skip hg1 (by decide) (hit l3))))
  have a4 : bits w 6 3 = x4 := by rw [he]; exact skip hg0 (by decide) (skip l5 (by decide) (hit l4))
  have a5 : bits w 3 3 = x5 := by rw [he]; exact skip hg0 (by decide) (hit l5)
  have c0 : bits w 26 5 = j := by rw [he]; exact skip hg0 (by decide) (skip l5 (by decide) (skip l4 (by decide) (skip hg1 (by decide) (skip l3 (by decide) (skip hg2 (by decide) (skip l2 (by decide) (skip l1 (by decide) (skip hg3 (by decide) (hit hj)))))))))
  have c1 : bits w 0 3 = g0 := by rw [he]; exact hit hg0
  have c2 : bits w 9 1 = g1 := by rw [he]; exact skip hg0 (by decide) (skip l5 (by decide) (skip l4 (by decide) (hit hg1)))
  have c3 : bits w 11 5 = g2 := by rw [he]; exact skip hg0 (by decide) (skip l5 (by decide) (skip l4 (by decide) (skip hg1 (by decide) (skip l3 (by decide) (hit hg2)))))
  have c4 : bits w 24 2 = g3 := by rw [he]; exact skip hg0 (by decide) (skip l5 (by decide) (skip l4 (by decide) (skip hg1 (by decide) (skip l3 (by decide) (skip hg2 (by decide) (skip l2 (by decide) (skip l1 (by decide) (hit hg3))))))))
  refine ⟨c0, c1, c2, c3, c4, ?_⟩
  rw [readRCmp1, a0, a1, a2, a3, a4, a5]

/-- The fields of a word that is laid out as `RQ2`. -/
theorem RQ2.laid (f : RQ2) (h : f.fits) (K w j g0 g1 g2 g3 g4 : Nat) (hw : w = K + f.place) (hK : K = j * 67108864 + g0 * 1 + g1 * 512 + g2 * 16384 + g3 * 524288 + g4 * 16777216) (hj : j < 32) (hg0 : g0 < 8) (hg1 : g1 < 4) (hg2 : g2 < 4) (hg3 : g3 < 4) (hg4 : g4 < 4) :
    bits w 26 5 = j ∧ bits w 0 3 = g0 ∧ bits w 9 2 = g1 ∧ bits w 14 2 = g2 ∧ bits w 19 2 = g3 ∧ bits w 24 2 = g4 ∧ readRQ2 w = f := by
  obtain ⟨x0, x1, x2, x3, x4, x5⟩ := f
  simp only [RQ2.fits] at h
  simp only [RQ2.place] at hw
  subst hK
  obtain ⟨l0, l1, l2, l3, l4, l5⟩ := h
  have he : w = g0 + 2 ^ 3 * (x5 + 2 ^ 3 * (x4 + 2 ^ 3 * (g1 + 2 ^ 2 * (x3 + 2 ^ 3 * (g2 + 2 ^ 2 * (x2 + 2 ^ 3 * (g3 + 2 ^ 2 * (x1 + 2 ^ 3 * (g4 + 2 ^ 2 * (j + 2 ^ 5 * (x0))))))))))) := by clear l0 l1 l2 l3 l4 l5 hg0 hg1 hg2 hg3 hg4 hj; simp only [Nat.mul_add, ← Nat.mul_assoc, Nat.reducePow, Nat.reduceMul]; omega
  have a0 : bits w 31 1 = x0 := by rw [he]; exact skip hg0 (by decide) (skip l5 (by decide) (skip l4 (by decide) (skip hg1 (by decide) (skip l3 (by decide) (skip hg2 (by decide) (skip l2 (by decide) (skip hg3 (by decide) (skip l1 (by decide) (skip hg4 (by decide) (skip hj (by decide) (whole l0)))))))))))
  have a1 : bits w 21 3 = x1 := by rw [he]; exact skip hg0 (by decide) (skip l5 (by decide) (skip l4 (by decide) (skip hg1 (by decide) (skip l3 (by decide) (skip hg2 (by decide) (skip l2 (by decide) (skip hg3 (by decide) (hit l1))))))))
  have a2 : bits w 16 3 = x2 := by rw [he]; exact skip hg0 (by decide) (skip l5 (by decide) (skip l4 (by decide) (skip hg1 (by decide) (skip l3 (by decide) (skip hg2 (by decide) (hit l2))))))
  have a3 : bits w 11 3 = x3 := by rw [he]; exact skip hg0 (by decide) (skip l5 (by decide) (skip l4 (by decide) (skip hg1 (by decide) (hit l3))))
  have a4 : bits w 6 3 = x4 := by rw [he]; exact skip hg0 (by decide) (skip l5 (by decide) (hit l4))
  have a5 : bits w 3 3 = x5 := by rw [he]; exact skip hg0 (by decide) (hit l5)
  have c0 : bits w 26 5 = j := by rw [he]; exact skip hg0 (by decide) (skip l5 (by decide) (skip l4 (by decide) (skip hg1 (by decide) (skip l3 (by decide) (skip hg2 (by decide) (skip l2 (by decide) (skip hg3 (by decide) (skip l1 (by decide) (skip hg4 (by decide) (hit hj))))))))))
  have c1 : bits w 0 3 = g0 := by rw [he]; exact hit hg0
  have c2 : bits w 9 2 = g1 := by rw [he]; exact skip hg0 (by decide) (skip l5 (by decide) (skip l4 (by decide) (hit hg1)))
  have c3 : bits w 14 2 = g2 := by rw [he]; exact skip hg0 (by decide) (skip l5 (by decide) (skip l4 (by decide) (skip hg1 (by decide) (skip l3 (by decide) (hit hg2)))))
  have c4 : bits w 19 2 = g3 := by rw [he]; exact skip hg0 (by decide) (skip l5 (by decide) (skip l4 (by decide) (skip hg1 (by decide) (skip l3 (by decide) (skip hg2 (by decide) (skip l2 (by decide) (hit hg3)))))))
  have c5 : bits w 24 2 = g4 := by rw [he]; exact skip hg0 (by decide) (skip l5 (by decide) (skip l4 (by decide) (skip hg1 (by decide) (skip l3 (by decide) (skip hg2 (by decide) (skip l2 (by decide) (skip hg3 (by decide) (skip l1 (by decide) (hit hg4)))))))))
  refine ⟨c0, c1, c2, c3, c4, c5, ?_⟩
  rw [readRQ2, a0, a1, a2, a3, a4, a5]

/-- The fields of a word that is laid out as `RQ1`. -/
theorem RQ1.laid (f : RQ1) (h : f.fits) (K w j g0 g1 g2 g3 : Nat) (hw : w = K + f.place) (hK : K = j * 67108864 + g0 * 1 + g1 * 512 + g2 * 524288 + g3 * 16777216) (hj : j < 32) (hg0 : g0 < 8) (hg1 : g1 < 128) (hg2 : g2 < 4) (hg3 : g3 < 4) :
    bits w 26 5 = j ∧ bits w 0 3 = g0 ∧ bits w 9 7 = g1 ∧ bits w 19 2 = g2 ∧ bits w 24 2 = g3 ∧ readRQ1 w = f := by
  obtain ⟨x0, x1, x2, x3, x4⟩ := f
  simp only [RQ1.fits] at h
  simp only [RQ1.place] at hw
  subst hK
  obtain ⟨l0, l1, l2, l3, l4⟩ := h
  have he : w = g0 + 2 ^ 3 * (x4 + 2 ^ 3 * (x3 + 2 ^ 3 * (g1 + 2 ^ 7 * (x2 + 2 ^ 3 * (g2 + 2 ^ 2 * (x1 + 2 ^ 3 * (g3 + 2 ^ 2 * (j + 2 ^ 5 * (x0))))))))) := by clear l0 l1 l2 l3 l4 hg0 hg1 hg2 hg3 hj; simp only [Nat.mul_add, ← Nat.mul_assoc, Nat.reducePow, Nat.reduceMul]; omega
  have a0 : bits w 31 1 = x0 := by rw [he]; exact skip hg0 (by decide) (skip l4 (by decide) (skip l3 (by decide) (skip hg1 (by decide) (skip l2 (by decide) (skip hg2 (by decide) (skip l1 (by decide) (skip hg3 (by decide) (skip hj (by decide) (whole l0)))))))))
  have a1 : bits w 21 3 = x1 := by rw [he]; exact skip hg0 (by decide) (skip l4 (by decide) (skip l3 (by decide) (skip hg1 (by decide) (skip l2 (by decide) (skip hg2 (by decide) (hit l1))))))
  have a2 : bits w 16 3 = x2 := by rw [he]; exact skip hg0 (by decide) (skip l4 (by decide) (skip l3 (by decide) (skip hg1 (by decide) (hit l2))))
  have a3 : bits w 6 3 = x3 := by rw [he]; exact skip hg0 (by decide) (skip l4 (by decide) (hit l3))
  have a4 : bits w 3 3 = x4 := by rw [he]; exact skip hg0 (by decide) (hit l4)
  have c0 : bits w 26 5 = j := by rw [he]; exact skip hg0 (by decide) (skip l4 (by decide) (skip l3 (by decide) (skip hg1 (by decide) (skip l2 (by decide) (skip hg2 (by decide) (skip l1 (by decide) (skip hg3 (by decide) (hit hj))))))))
  have c1 : bits w 0 3 = g0 := by rw [he]; exact hit hg0
  have c2 : bits w 9 7 = g1 := by rw [he]; exact skip hg0 (by decide) (skip l4 (by decide) (skip l3 (by decide) (hit hg1)))
  have c3 : bits w 19 2 = g2 := by rw [he]; exact skip hg0 (by decide) (skip l4 (by decide) (skip l3 (by decide) (skip hg1 (by decide) (skip l2 (by decide) (hit hg2)))))
  have c4 : bits w 24 2 = g3 := by rw [he]; exact skip hg0 (by decide) (skip l4 (by decide) (skip l3 (by decide) (skip hg1 (by decide) (skip l2 (by decide) (skip hg2 (by decide) (skip l1 (by decide) (hit hg3)))))))
  refine ⟨c0, c1, c2, c3, c4, ?_⟩
  rw [readRQ1, a0, a1, a2, a3, a4]

/-- The fields of a word that is laid out as `RQSet`. -/
theorem RQSet.laid (f : RQSet) (h : f.fits) (K w j g0 g1 g2 g3 : Nat) (hw : w = K + f.place) (hK : K = j * 67108864 + g0 * 1 + g1 * 512 + g2 * 8192 + g3 * 16777216) (hj : j < 32) (hg0 : g0 < 8) (hg1 : g1 < 4) (hg2 : g2 < 256) (hg3 : g3 < 4) :
    bits w 26 5 = j ∧ bits w 0 3 = g0 ∧ bits w 9 2 = g1 ∧ bits w 13 8 = g2 ∧ bits w 24 2 = g3 ∧ readRQSet w = f := by
  obtain ⟨x0, x1, x2, x3, x4⟩ := f
  simp only [RQSet.fits] at h
  simp only [RQSet.place] at hw
  subst hK
  obtain ⟨l0, l1, l2, l3, l4⟩ := h
  have he : w = g0 + 2 ^ 3 * (x4 + 2 ^ 3 * (x3 + 2 ^ 3 * (g1 + 2 ^ 2 * (x2 + 2 ^ 2 * (g2 + 2 ^ 8 * (x1 + 2 ^ 3 * (g3 + 2 ^ 2 * (j + 2 ^ 5 * (x0))))))))) := by clear l0 l1 l2 l3 l4 hg0 hg1 hg2 hg3 hj; simp only [Nat.mul_add, ← Nat.mul_assoc, Nat.reducePow, Nat.reduceMul]; omega
  have a0 : bits w 31 1 = x0 := by rw [he]; exact skip hg0 (by decide) (skip l4 (by decide) (skip l3 (by decide) (skip hg1 (by decide) (skip l2 (by decide) (skip hg2 (by decide) (skip l1 (by decide) (skip hg3 (by decide) (skip hj (by decide) (whole l0)))))))))
  have a1 : bits w 21 3 = x1 := by rw [he]; exact skip hg0 (by decide) (skip l4 (by decide) (skip l3 (by decide) (skip hg1 (by decide) (skip l2 (by decide) (skip hg2 (by decide) (hit l1))))))
  have a2 : bits w 11 2 = x2 := by rw [he]; exact skip hg0 (by decide) (skip l4 (by decide) (skip l3 (by decide) (skip hg1 (by decide) (hit l2))))
  have a3 : bits w 6 3 = x3 := by rw [he]; exact skip hg0 (by decide) (skip l4 (by decide) (hit l3))
  have a4 : bits w 3 3 = x4 := by rw [he]; exact skip hg0 (by decide) (hit l4)
  have c0 : bits w 26 5 = j := by rw [he]; exact skip hg0 (by decide) (skip l4 (by decide) (skip l3 (by decide) (skip hg1 (by decide) (skip l2 (by decide) (skip hg2 (by decide) (skip l1 (by decide) (skip hg3 (by decide) (hit hj))))))))
  have c1 : bits w 0 3 = g0 := by rw [he]; exact hit hg0
  have c2 : bits w 9 2 = g1 := by rw [he]; exact skip hg0 (by decide) (skip l4 (by decide) (skip l3 (by decide) (hit hg1)))
  have c3 : bits w 13 8 = g2 := by rw [he]; exact skip hg0 (by decide) (skip l4 (by decide) (skip l3 (by decide) (skip hg1 (by decide) (skip l2 (by decide) (hit hg2)))))
  have c4 : bits w 24 2 = g3 := by rw [he]; exact skip hg0 (by decide) (skip l4 (by decide) (skip l3 (by decide) (skip hg1 (by decide) (skip l2 (by decide) (skip hg2 (by decide) (skip l1 (by decide) (hit hg3)))))))
  refine ⟨c0, c1, c2, c3, c4, ?_⟩
  rw [readRQSet, a0, a1, a2, a3, a4]

/-- The fields of a word that is laid out as `MMem`. -/
theorem MMem.laid (f : MMem) (h : f.fits) (K w j g0 : Nat) (hw : w = K + f.place) (hK : K = j * 67108864 + g0 * 1) (hj : j < 32) (hg0 : g0 < 8) :
    bits w 26 5 = j ∧ bits w 0 3 = g0 ∧ readMMem w = f := by
  obtain ⟨x0, x1, x2, x3, x4, x5, x6⟩ := f
  simp only [MMem.fits] at h
  simp only [MMem.place] at hw
  subst hK
  obtain ⟨l0, l1, l2, l3, l4, l5, l6⟩ := h
  have he : w = g0 + 2 ^ 3 * (x6 + 2 ^ 2 * (x5 + 2 ^ 3 * (x4 + 2 ^ 3 * (x3 + 2 ^ 5 * (x2 + 2 ^ 5 * (x1 + 2 ^ 5 * (j + 2 ^ 5 * (x0)))))))) := by clear l0 l1 l2 l3 l4 l5 l6 hg0 hj; simp only [Nat.mul_add, ← Nat.mul_assoc, Nat.reducePow, Nat.reduceMul]; omega
  have a0 : bits w 31 1 = x0 := by rw [he]; exact skip hg0 (by decide) (skip l6 (by decide) (skip l5 (by decide) (skip l4 (by decide) (skip l3 (by decide) (skip l2 (by decide) (skip l1 (by decide) (skip hj (by decide) (whole l0))))))))
  have a1 : bits w 21 5 = x1 := by rw [he]; exact skip hg0 (by decide) (skip l6 (by decide) (skip l5 (by decide) (skip l4 (by decide) (skip l3 (by decide) (skip l2 (by decide) (hit l1))))))
  have a2 : bits w 16 5 = x2 := by rw [he]; exact skip hg0 (by decide) (skip l6 (by decide) (skip l5 (by decide) (skip l4 (by decide) (skip l3 (by decide) (hit l2)))))
  have a3 : bits w 11 5 = x3 := by rw [he]; exact skip hg0 (by decide) (skip l6 (by decide) (skip l5 (by decide) (skip l4 (by decide) (hit l3))))
  have a4 : bits w 8 3 = x4 := by rw [he]; exact skip hg0 (by decide) (skip l6 (by decide) (skip l5 (by decide) (hit l4)))
  have a5 : bits w 5 3 = x5 := by rw [he]; exact skip hg0 (by decide) (skip l6 (by decide) (hit l5))
  have a6 : bits w 3 2 = x6 := by rw [he]; exact skip hg0 (by decide) (hit l6)
  have c0 : bits w 26 5 = j := by rw [he]; exact skip hg0 (by decide) (skip l6 (by decide) (skip l5 (by decide) (skip l4 (by decide) (skip l3 (by decide) (skip l2 (by decide) (skip l1 (by decide) (hit hj)))))))
  have c1 : bits w 0 3 = g0 := by rw [he]; exact hit hg0
  refine ⟨c0, c1, ?_⟩
  rw [readMMem, a0, a1, a2, a3, a4, a5, a6]

/-- The fields of a word that is laid out as `MGran`. -/
theorem MGran.laid (f : MGran) (h : f.fits) (K w j g0 g1 : Nat) (hw : w = K + f.place) (hK : K = j * 67108864 + g0 * 1 + g1 * 256) (hj : j < 32) (hg0 : g0 < 8) (hg1 : g1 < 8) :
    bits w 26 5 = j ∧ bits w 0 3 = g0 ∧ bits w 8 3 = g1 ∧ readMGran w = f := by
  obtain ⟨x0, x1, x2, x3, x4, x5⟩ := f
  simp only [MGran.fits] at h
  simp only [MGran.place] at hw
  subst hK
  obtain ⟨l0, l1, l2, l3, l4, l5⟩ := h
  have he : w = g0 + 2 ^ 3 * (x5 + 2 ^ 2 * (x4 + 2 ^ 3 * (g1 + 2 ^ 3 * (x3 + 2 ^ 5 * (x2 + 2 ^ 5 * (x1 + 2 ^ 5 * (j + 2 ^ 5 * (x0)))))))) := by clear l0 l1 l2 l3 l4 l5 hg0 hg1 hj; simp only [Nat.mul_add, ← Nat.mul_assoc, Nat.reducePow, Nat.reduceMul]; omega
  have a0 : bits w 31 1 = x0 := by rw [he]; exact skip hg0 (by decide) (skip l5 (by decide) (skip l4 (by decide) (skip hg1 (by decide) (skip l3 (by decide) (skip l2 (by decide) (skip l1 (by decide) (skip hj (by decide) (whole l0))))))))
  have a1 : bits w 21 5 = x1 := by rw [he]; exact skip hg0 (by decide) (skip l5 (by decide) (skip l4 (by decide) (skip hg1 (by decide) (skip l3 (by decide) (skip l2 (by decide) (hit l1))))))
  have a2 : bits w 16 5 = x2 := by rw [he]; exact skip hg0 (by decide) (skip l5 (by decide) (skip l4 (by decide) (skip hg1 (by decide) (skip l3 (by decide) (hit l2)))))
  have a3 : bits w 11 5 = x3 := by rw [he]; exact skip hg0 (by decide) (skip l5 (by decide) (skip l4 (by decide) (skip hg1 (by decide) (hit l3))))
  have a4 : bits w 5 3 = x4 := by rw [he]; exact skip hg0 (by decide) (skip l5 (by decide) (hit l4))
  have a5 : bits w 3 2 = x5 := by rw [he]; exact skip hg0 (by decide) (hit l5)
  have c0 : bits w 26 5 = j := by rw [he]; exact skip hg0 (by decide) (skip l5 (by decide) (skip l4 (by decide) (skip hg1 (by decide) (skip l3 (by decide) (skip l2 (by decide) (skip l1 (by decide) (hit hj)))))))
  have c1 : bits w 0 3 = g0 := by rw [he]; exact hit hg0
  have c2 : bits w 8 3 = g1 := by rw [he]; exact skip hg0 (by decide) (skip l5 (by decide) (skip l4 (by decide) (hit hg1)))
  refine ⟨c0, c1, c2, ?_⟩
  rw [readMGran, a0, a1, a2, a3, a4, a5]

/-- The fields of a word that is laid out as `AAtom`. -/
theorem AAtom.laid (f : AAtom) (h : f.fits) (K w j g0 : Nat) (hw : w = K + f.place) (hK : K = j * 67108864 + g0 * 16) (hj : j < 32) (hg0 : g0 < 16) :
    bits w 26 5 = j ∧ bits w 4 4 = g0 ∧ readAAtom w = f := by
  obtain ⟨x0, x1, x2, x3, x4, x5, x6, x7⟩ := f
  simp only [AAtom.fits] at h
  simp only [AAtom.place] at hw
  subst hK
  obtain ⟨l0, l1, l2, l3, l4, l5, l6, l7⟩ := h
  have he : w = x7 + 2 ^ 1 * (x6 + 2 ^ 1 * (x5 + 2 ^ 2 * (g0 + 2 ^ 4 * (x4 + 2 ^ 3 * (x3 + 2 ^ 5 * (x2 + 2 ^ 5 * (x1 + 2 ^ 5 * (j + 2 ^ 5 * (x0))))))))) := by clear l0 l1 l2 l3 l4 l5 l6 l7 hg0 hj; simp only [Nat.mul_add, ← Nat.mul_assoc, Nat.reducePow, Nat.reduceMul]; omega
  have a0 : bits w 31 1 = x0 := by rw [he]; exact skip l7 (by decide) (skip l6 (by decide) (skip l5 (by decide) (skip hg0 (by decide) (skip l4 (by decide) (skip l3 (by decide) (skip l2 (by decide) (skip l1 (by decide) (skip hj (by decide) (whole l0)))))))))
  have a1 : bits w 21 5 = x1 := by rw [he]; exact skip l7 (by decide) (skip l6 (by decide) (skip l5 (by decide) (skip hg0 (by decide) (skip l4 (by decide) (skip l3 (by decide) (skip l2 (by decide) (hit l1)))))))
  have a2 : bits w 16 5 = x2 := by rw [he]; exact skip l7 (by decide) (skip l6 (by decide) (skip l5 (by decide) (skip hg0 (by decide) (skip l4 (by decide) (skip l3 (by decide) (hit l2))))))
  have a3 : bits w 11 5 = x3 := by rw [he]; exact skip l7 (by decide) (skip l6 (by decide) (skip l5 (by decide) (skip hg0 (by decide) (skip l4 (by decide) (hit l3)))))
  have a4 : bits w 8 3 = x4 := by rw [he]; exact skip l7 (by decide) (skip l6 (by decide) (skip l5 (by decide) (skip hg0 (by decide) (hit l4))))
  have a5 : bits w 2 2 = x5 := by rw [he]; exact skip l7 (by decide) (skip l6 (by decide) (hit l5))
  have a6 : bits w 1 1 = x6 := by rw [he]; exact skip l7 (by decide) (hit l6)
  have a7 : bits w 0 1 = x7 := by rw [he]; exact hit l7
  have c0 : bits w 26 5 = j := by rw [he]; exact skip l7 (by decide) (skip l6 (by decide) (skip l5 (by decide) (skip hg0 (by decide) (skip l4 (by decide) (skip l3 (by decide) (skip l2 (by decide) (skip l1 (by decide) (hit hj))))))))
  have c1 : bits w 4 4 = g0 := by rw [he]; exact skip l7 (by decide) (skip l6 (by decide) (skip l5 (by decide) (hit hg0)))
  refine ⟨c0, c1, ?_⟩
  rw [readAAtom, a0, a1, a2, a3, a4, a5, a6, a7]

/-- The fields of a word that is laid out as `TMma`. -/
theorem TMma.laid (f : TMma) (h : f.fits) (K w j g0 : Nat) (hw : w = K + f.place) (hK : K = j * 67108864 + g0 * 1) (hj : j < 32) (hg0 : g0 < 16384) :
    bits w 26 5 = j ∧ bits w 0 14 = g0 ∧ readTMma w = f := by
  obtain ⟨x0, x1, x2, x3, x4, x5, x6⟩ := f
  simp only [TMma.fits] at h
  simp only [TMma.place] at hw
  subst hK
  obtain ⟨l0, l1, l2, l3, l4, l5, l6⟩ := h
  have he : w = g0 + 2 ^ 14 * (x6 + 2 ^ 1 * (x5 + 2 ^ 1 * (x4 + 2 ^ 2 * (x3 + 2 ^ 3 * (x2 + 2 ^ 3 * (x1 + 2 ^ 2 * (j + 2 ^ 5 * (x0)))))))) := by clear l0 l1 l2 l3 l4 l5 l6 hg0 hj; simp only [Nat.mul_add, ← Nat.mul_assoc, Nat.reducePow, Nat.reduceMul]; omega
  have a0 : bits w 31 1 = x0 := by rw [he]; exact skip hg0 (by decide) (skip l6 (by decide) (skip l5 (by decide) (skip l4 (by decide) (skip l3 (by decide) (skip l2 (by decide) (skip l1 (by decide) (skip hj (by decide) (whole l0))))))))
  have a1 : bits w 24 2 = x1 := by rw [he]; exact skip hg0 (by decide) (skip l6 (by decide) (skip l5 (by decide) (skip l4 (by decide) (skip l3 (by decide) (skip l2 (by decide) (hit l1))))))
  have a2 : bits w 21 3 = x2 := by rw [he]; exact skip hg0 (by decide) (skip l6 (by decide) (skip l5 (by decide) (skip l4 (by decide) (skip l3 (by decide) (hit l2)))))
  have a3 : bits w 18 3 = x3 := by rw [he]; exact skip hg0 (by decide) (skip l6 (by decide) (skip l5 (by decide) (skip l4 (by decide) (hit l3))))
  have a4 : bits w 16 2 = x4 := by rw [he]; exact skip hg0 (by decide) (skip l6 (by decide) (skip l5 (by decide) (hit l4)))
  have a5 : bits w 15 1 = x5 := by rw [he]; exact skip hg0 (by decide) (skip l6 (by decide) (hit l5))
  have a6 : bits w 14 1 = x6 := by rw [he]; exact skip hg0 (by decide) (hit l6)
  have c0 : bits w 26 5 = j := by rw [he]; exact skip hg0 (by decide) (skip l6 (by decide) (skip l5 (by decide) (skip l4 (by decide) (skip l3 (by decide) (skip l2 (by decide) (skip l1 (by decide) (hit hj)))))))
  have c1 : bits w 0 14 = g0 := by rw [he]; exact hit hg0
  refine ⟨c0, c1, ?_⟩
  rw [readTMma, a0, a1, a2, a3, a4, a5, a6]

theorem RoundTrip.issueOpportunity (x0 : Nat) : RoundTrip.Statement (.issueOpportunity x0) :=
  fun h => Bool.noConfusion h

theorem RoundTrip.dutyChange (x0 : Nat) : RoundTrip.Statement (.dutyChange x0) :=
  fun h => Bool.noConfusion h

theorem RoundTrip.resultWriteback (x0 : Nat) (x1 : Nat) (x2 : Nat) (x3 : Nat) : RoundTrip.Statement (.resultWriteback x0 x1 x2 x3) :=
  fun h => Bool.noConfusion h

theorem RoundTrip.sleepExpiry (x0 : Nat) (x1 : Nat) (x2 : Nat) (x3 : Nat) : RoundTrip.Statement (.sleepExpiry x0 x1 x2 x3) :=
  fun h => Bool.noConfusion h

theorem RoundTrip.workgroupAdmission (x0 : Nat) : RoundTrip.Statement (.workgroupAdmission x0) :=
  fun h => Bool.noConfusion h

theorem RoundTrip.slotReturn (x0 : Nat) (x1 : Nat) : RoundTrip.Statement (.slotReturn x0 x1) :=
  fun h => Bool.noConfusion h

theorem RoundTrip.preempt (x0 : Nat) (x1 : Nat) : RoundTrip.Statement (.preempt x0 x1) :=
  fun h => Bool.noConfusion h

theorem RoundTrip.contextRestore (x0 : Nat) (x1 : Nat) : RoundTrip.Statement (.contextRestore x0 x1) :=
  fun h => Bool.noConfusion h

theorem RoundTrip.pushtRowPlaced (x0 : Nat) (x1 : Nat) : RoundTrip.Statement (.pushtRowPlaced x0 x1) :=
  fun h => Bool.noConfusion h

theorem RoundTrip.mmaExecute (x0 : Nat) (x1 : Nat) (x2 : Nat) : RoundTrip.Statement (.mmaExecute x0 x1 x2) :=
  fun h => Bool.noConfusion h

theorem RoundTrip.azeroExecute (x0 : Nat) (x1 : Nat) (x2 : Nat) : RoundTrip.Statement (.azeroExecute x0 x1 x2) :=
  fun h => Bool.noConfusion h

theorem RoundTrip.smxuExecute (x0 : Nat) (x1 : Nat) (x2 : Nat) : RoundTrip.Statement (.smxuExecute x0 x1 x2) :=
  fun h => Bool.noConfusion h

theorem RoundTrip.copyRow (x0 : Nat) (x1 : Nat) (x2 : Nat) : RoundTrip.Statement (.copyRow x0 x1 x2) :=
  fun h => Bool.noConfusion h

theorem RoundTrip.barwaitBoundExpiry (x0 : Nat) (x1 : Nat) (x2 : Nat) (x3 : Nat) : RoundTrip.Statement (.barwaitBoundExpiry x0 x1 x2 x3) :=
  fun h => Bool.noConfusion h

theorem RoundTrip.nbarwaitBoundExpiry (x0 : Nat) (x1 : Nat) (x2 : Nat) (x3 : Nat) : RoundTrip.Statement (.nbarwaitBoundExpiry x0 x1 x2 x3) :=
  fun h => Bool.noConfusion h

theorem RoundTrip.gets (x0 : Nat) (x1 : Nat) : RoundTrip.Statement (.gets x0 x1) :=
  fun h => Bool.noConfusion h

theorem RoundTrip.getm (x0 : Nat) (x1 : Nat) : RoundTrip.Statement (.getm x0 x1) :=
  fun h => Bool.noConfusion h

theorem RoundTrip.put (x0 : Nat) (x1 : Nat) : RoundTrip.Statement (.put x0 x1) :=
  fun h => Bool.noConfusion h

theorem RoundTrip.promotionDemand (x0 : Nat) (x1 : Nat) : RoundTrip.Statement (.promotionDemand x0 x1) :=
  fun h => Bool.noConfusion h

theorem RoundTrip.forward (x0 : Nat) (x1 : Nat) : RoundTrip.Statement (.forward x0 x1) :=
  fun h => Bool.noConfusion h

theorem RoundTrip.l2Eviction (x0 : Nat) : RoundTrip.Statement (.l2Eviction x0) :=
  fun h => Bool.noConfusion h

theorem RoundTrip.tlbWalkFill (x0 : Nat) (x1 : Nat) (x2 : Nat) (x3 : Nat) : RoundTrip.Statement (.tlbWalkFill x0 x1 x2 x3) :=
  fun h => Bool.noConfusion h

theorem RoundTrip.tlbInvalidation (x0 : Nat) (x1 : Nat) (x2 : Nat) (x3 : Nat) : RoundTrip.Statement (.tlbInvalidation x0 x1 x2 x3) :=
  fun h => Bool.noConfusion h

theorem RoundTrip.clusterAtomic (x0 : Nat) : RoundTrip.Statement (.clusterAtomic x0) :=
  fun h => Bool.noConfusion h

theorem RoundTrip.donationRequest (x0 : Nat) : RoundTrip.Statement (.donationRequest x0) :=
  fun h => Bool.noConfusion h

theorem RoundTrip.splitRegisterWrite (x0 : Nat) (x1 : Nat) (x2 : Nat) : RoundTrip.Statement (.splitRegisterWrite x0 x1 x2) :=
  fun h => Bool.noConfusion h

theorem RoundTrip.resizeComplete (x0 : Nat) (x1 : Nat) : RoundTrip.Statement (.resizeComplete x0 x1) :=
  fun h => Bool.noConfusion h

theorem RoundTrip.routerIdleGate (x0 : Nat) (x1 : Nat) : RoundTrip.Statement (.routerIdleGate x0 x1) :=
  fun h => Bool.noConfusion h

theorem RoundTrip.routerWake (x0 : Nat) (x1 : Nat) : RoundTrip.Statement (.routerWake x0 x1) :=
  fun h => Bool.noConfusion h

theorem RoundTrip.routerWakeComplete (x0 : Nat) (x1 : Nat) : RoundTrip.Statement (.routerWakeComplete x0 x1) :=
  fun h => Bool.noConfusion h

theorem RoundTrip.routerGatingWrite (x0 : Nat) (x1 : Nat) : RoundTrip.Statement (.routerGatingWrite x0 x1) :=
  fun h => Bool.noConfusion h

theorem RoundTrip.linkFlitRetry (x0 : Nat) (x1 : Nat) (x2 : Nat) : RoundTrip.Statement (.linkFlitRetry x0 x1 x2) :=
  fun h => Bool.noConfusion h

theorem RoundTrip.uncorrectableError (x0 : ErrSite) : RoundTrip.Statement (.uncorrectableError x0) :=
  fun h => Bool.noConfusion h

theorem RoundTrip.doorbell (x0 : Nat) (x1 : Nat) (x2 : Nat) : RoundTrip.Statement (.doorbell x0 x1 x2) :=
  fun h => Bool.noConfusion h

theorem RoundTrip.queueDestroy (x0 : Nat) (x1 : Nat) : RoundTrip.Statement (.queueDestroy x0 x1) :=
  fun h => Bool.noConfusion h

theorem RoundTrip.queueDestroyComplete (x0 : Nat) (x1 : Nat) : RoundTrip.Statement (.queueDestroyComplete x0 x1) :=
  fun h => Bool.noConfusion h

theorem RoundTrip.dispatchStep (x0 : Nat) : RoundTrip.Statement (.dispatchStep x0) :=
  fun h => Bool.noConfusion h

theorem RoundTrip.treeCounterUpdate (x0 : Nat) : RoundTrip.Statement (.treeCounterUpdate x0) :=
  fun h => Bool.noConfusion h

theorem RoundTrip.churnPassage (x0 : Nat) (x1 : Nat) : RoundTrip.Statement (.churnPassage x0 x1) :=
  fun h => Bool.noConfusion h

theorem RoundTrip.boardingReadReturn (x0 : Nat) (x1 : Nat) : RoundTrip.Statement (.boardingReadReturn x0 x1) :=
  fun h => Bool.noConfusion h

theorem RoundTrip.releasePacketEnqueue (x0 : Nat) (x1 : Nat) : RoundTrip.Statement (.releasePacketEnqueue x0 x1) :=
  fun h => Bool.noConfusion h

theorem RoundTrip.churnLimitWrite (x0 : Nat) (x1 : Nat) (x2 : Nat) : RoundTrip.Statement (.churnLimitWrite x0 x1 x2) :=
  fun h => Bool.noConfusion h

theorem RoundTrip.rasterTriangle (x0 : Nat) : RoundTrip.Statement (.rasterTriangle x0) :=
  fun h => Bool.noConfusion h

theorem RoundTrip.passSeal (x0 : Nat) (x1 : Nat) : RoundTrip.Statement (.passSeal x0 x1) :=
  fun h => Bool.noConfusion h

theorem RoundTrip.tileScan (x0 : Nat) : RoundTrip.Statement (.tileScan x0) :=
  fun h => Bool.noConfusion h

theorem RoundTrip.binTimeout (x0 : Nat) (x1 : Nat) : RoundTrip.Statement (.binTimeout x0 x1) :=
  fun h => Bool.noConfusion h

theorem RoundTrip.migrationGo (x0 : Nat) : RoundTrip.Statement (.migrationGo x0) :=
  fun h => Bool.noConfusion h

theorem RoundTrip.migrationComplete : RoundTrip.Statement (.migrationComplete) :=
  fun h => Bool.noConfusion h

theorem RoundTrip.biasFlip (x0 : Nat) (x1 : Nat) : RoundTrip.Statement (.biasFlip x0 x1) :=
  fun h => Bool.noConfusion h

theorem RoundTrip.biasFlipComplete (x0 : Nat) : RoundTrip.Statement (.biasFlipComplete x0) :=
  fun h => Bool.noConfusion h

theorem RoundTrip.hostReadShared (x0 : Nat) : RoundTrip.Statement (.hostReadShared x0) :=
  fun h => Bool.noConfusion h

theorem RoundTrip.hostReadOwned (x0 : Nat) : RoundTrip.Statement (.hostReadOwned x0) :=
  fun h => Bool.noConfusion h

theorem RoundTrip.hostWriteback (x0 : Nat) (x1 : List Byte) : RoundTrip.Statement (.hostWriteback x0 x1) :=
  fun h => Bool.noConfusion h

theorem RoundTrip.hostSnoop (x0 : Nat) (x1 : Nat) : RoundTrip.Statement (.hostSnoop x0 x1) :=
  fun h => Bool.noConfusion h

theorem RoundTrip.peerPostedWrite (x0 : Nat) (x1 : List Byte) : RoundTrip.Statement (.peerPostedWrite x0 x1) :=
  fun h => Bool.noConfusion h

theorem RoundTrip.peerRead (x0 : Nat) (x1 : Nat) : RoundTrip.Statement (.peerRead x0 x1) :=
  fun h => Bool.noConfusion h

theorem RoundTrip.mmioReadCompletion (x0 : Nat) (x1 : Nat) (x2 : Nat) : RoundTrip.Statement (.mmioReadCompletion x0 x1 x2) :=
  fun h => Bool.noConfusion h

theorem RoundTrip.mmioReadTimeout (x0 : Nat) : RoundTrip.Statement (.mmioReadTimeout x0) :=
  fun h => Bool.noConfusion h

theorem RoundTrip.partitionPowerInterval (x0 : Nat) : RoundTrip.Statement (.partitionPowerInterval x0) :=
  fun h => Bool.noConfusion h

theorem RoundTrip.powerCapWrite (x0 : Nat) (x1 : Nat) : RoundTrip.Statement (.powerCapWrite x0 x1) :=
  fun h => Bool.noConfusion h

theorem RoundTrip.currentDroop (x0 : Nat) : RoundTrip.Statement (.currentDroop x0) :=
  fun h => Bool.noConfusion h

theorem RoundTrip.limiterRestore (x0 : Nat) : RoundTrip.Statement (.limiterRestore x0) :=
  fun h => Bool.noConfusion h

theorem RoundTrip.thermalForecast (x0 : Nat) (x1 : List Int) : RoundTrip.Statement (.thermalForecast x0 x1) :=
  fun h => Bool.noConfusion h

theorem RoundTrip.thermalSensor (x0 : Nat) (x1 : Nat) (x2 : Int) : RoundTrip.Statement (.thermalSensor x0 x1 x2) :=
  fun h => Bool.noConfusion h

theorem RoundTrip.thermalTrip (x0 : Nat) : RoundTrip.Statement (.thermalTrip x0) :=
  fun h => Bool.noConfusion h

theorem RoundTrip.boot (x0 : List BootOutcome) : RoundTrip.Statement (.boot x0) :=
  fun h => Bool.noConfusion h

theorem RoundTrip.getVersion : RoundTrip.Statement (.getVersion) :=
  fun h => Bool.noConfusion h

theorem RoundTrip.getCapabilities : RoundTrip.Statement (.getCapabilities) :=
  fun h => Bool.noConfusion h

theorem RoundTrip.negotiateAlgorithms (x0 : Nat) (x1 : Nat) : RoundTrip.Statement (.negotiateAlgorithms x0 x1) :=
  fun h => Bool.noConfusion h

theorem RoundTrip.getDigests : RoundTrip.Statement (.getDigests) :=
  fun h => Bool.noConfusion h

theorem RoundTrip.getCertificate (x0 : Nat) (x1 : Nat) (x2 : Nat) : RoundTrip.Statement (.getCertificate x0 x1 x2) :=
  fun h => Bool.noConfusion h

theorem RoundTrip.challenge (x0 : Nat) (x1 : List Byte) : RoundTrip.Statement (.challenge x0 x1) :=
  fun h => Bool.noConfusion h

theorem RoundTrip.getMeasurements (x0 : Nat) (x1 : Nat) (x2 : List Byte) : RoundTrip.Statement (.getMeasurements x0 x1 x2) :=
  fun h => Bool.noConfusion h

theorem RoundTrip.spdmUnsupported (x0 : Nat) : RoundTrip.Statement (.spdmUnsupported x0) :=
  fun h => Bool.noConfusion h

theorem RoundTrip.scrubRead (x0 : Nat) (x1 : Nat) : RoundTrip.Statement (.scrubRead x0 x1) :=
  fun h => Bool.noConfusion h

theorem RoundTrip.lifetimeCounterUpdate (x0 : Nat) (x1 : Nat) : RoundTrip.Statement (.lifetimeCounterUpdate x0 x1) :=
  fun h => Bool.noConfusion h

theorem RoundTrip.flitReceive (x0 : Nat) (x1 : Flit) : RoundTrip.Statement (.flitReceive x0 x1) :=
  fun h => Bool.noConfusion h

theorem RoundTrip.flitRefusal (x0 : Nat) (x1 : Nat) (x2 : Nat) : RoundTrip.Statement (.flitRefusal x0 x1 x2) :=
  fun h => Bool.noConfusion h

theorem RoundTrip.portRetrain (x0 : Nat) (x1 : Nat) : RoundTrip.Statement (.portRetrain x0 x1) :=
  fun h => Bool.noConfusion h

theorem RoundTrip.inboundAccess (x0 : RemoteReq) : RoundTrip.Statement (.inboundAccess x0) :=
  fun h => Bool.noConfusion h

theorem RoundTrip.remoteAtomic (x0 : RemoteReq) : RoundTrip.Statement (.remoteAtomic x0) :=
  fun h => Bool.noConfusion h

theorem RoundTrip.remoteWriteAck (x0 : Nat) : RoundTrip.Statement (.remoteWriteAck x0) :=
  fun h => Bool.noConfusion h

theorem RoundTrip.peerReset (x0 : Nat) : RoundTrip.Statement (.peerReset x0) :=
  fun h => Bool.noConfusion h

theorem RoundTrip.registerWrite (x0 : Nat) (x1 : Nat) : RoundTrip.Statement (.registerWrite x0 x1) :=
  fun h => Bool.noConfusion h

theorem RoundTrip.partitionCreation (x0 : Nat) (x1 : PartSpec) : RoundTrip.Statement (.partitionCreation x0 x1) :=
  fun h => Bool.noConfusion h

theorem RoundTrip.partitionDestruction (x0 : Nat) : RoundTrip.Statement (.partitionDestruction x0) :=
  fun h => Bool.noConfusion h

theorem RoundTrip.queueEnable (x0 : Nat) (x1 : Nat) : RoundTrip.Statement (.queueEnable x0 x1) :=
  fun h => Bool.noConfusion h

theorem RoundTrip.routerGatingComplete (x0 : Nat) (x1 : Nat) : RoundTrip.Statement (.routerGatingComplete x0 x1) :=
  fun h => Bool.noConfusion h

theorem RoundTrip.memoryFillReturn (x0 : Nat) : RoundTrip.Statement (.memoryFillReturn x0) :=
  fun h => Bool.noConfusion h

theorem RoundTrip.invalidationAcknowledgement (x0 : Nat) (x1 : Nat) : RoundTrip.Statement (.invalidationAcknowledgement x0 x1) :=
  fun h => Bool.noConfusion h

theorem RoundTrip.hostMemoryWrite (x0 : Nat) (x1 : List Byte) : RoundTrip.Statement (.hostMemoryWrite x0 x1) :=
  fun h => Bool.noConfusion h

theorem RoundTrip.correctedSoftError (x0 : ErrSite) : RoundTrip.Statement (.correctedSoftError x0) :=
  fun h => Bool.noConfusion h

theorem RoundTrip.iadd (f : R3) : RoundTrip.Statement (.iadd f) := by
  intro _ hk
  have wf : Instr.WF (.iadd f) := of_decide_eq_true hk
  refine decode_of_row ?_ hk
  obtain ⟨m, b0, r⟩ := R3.laid f wf _ _ 2 0 rfl rfl (by decide) (by decide)
  change decodeRow (0x8000000 + f.place) = _
  rw [decodeRow_2 m]
  simp [decodeIarith, r, b0]

theorem RoundTrip.isub (f : R3) : RoundTrip.Statement (.isub f) := by
  intro _ hk
  have wf : Instr.WF (.isub f) := of_decide_eq_true hk
  refine decode_of_row ?_ hk
  obtain ⟨m, b0, r⟩ := R3.laid f wf _ _ 2 1 rfl rfl (by decide) (by decide)
  change decodeRow (0x8000001 + f.place) = _
  rw [decodeRow_2 m]
  simp [decodeIarith, r, b0]

theorem RoundTrip.imul (f : R3) : RoundTrip.Statement (.imul f) := by
  intro _ hk
  have wf : Instr.WF (.imul f) := of_decide_eq_true hk
  refine decode_of_row ?_ hk
  obtain ⟨m, b0, r⟩ := R3.laid f wf _ _ 2 2 rfl rfl (by decide) (by decide)
  change decodeRow (0x8000002 + f.place) = _
  rw [decodeRow_2 m]
  simp [decodeIarith, r, b0]

theorem RoundTrip.imulh (f : R3) : RoundTrip.Statement (.imulh f) := by
  intro _ hk
  have wf : Instr.WF (.imulh f) := of_decide_eq_true hk
  refine decode_of_row ?_ hk
  obtain ⟨m, b0, r⟩ := R3.laid f wf _ _ 2 3 rfl rfl (by decide) (by decide)
  change decodeRow (0x8000003 + f.place) = _
  rw [decodeRow_2 m]
  simp [decodeIarith, r, b0]

theorem RoundTrip.imulhn (f : R3) : RoundTrip.Statement (.imulhn f) := by
  intro _ hk
  have wf : Instr.WF (.imulhn f) := of_decide_eq_true hk
  refine decode_of_row ?_ hk
  obtain ⟨m, b0, r⟩ := R3.laid f wf _ _ 2 4 rfl rfl (by decide) (by decide)
  change decodeRow (0x8000004 + f.place) = _
  rw [decodeRow_2 m]
  simp [decodeIarith, r, b0]

theorem RoundTrip.imad (f : R3) : RoundTrip.Statement (.imad f) := by
  intro _ hk
  have wf : Instr.WF (.imad f) := of_decide_eq_true hk
  refine decode_of_row ?_ hk
  obtain ⟨m, b0, r⟩ := R3.laid f wf _ _ 2 5 rfl rfl (by decide) (by decide)
  change decodeRow (0x8000005 + f.place) = _
  rw [decodeRow_2 m]
  simp [decodeIarith, r, b0]

theorem RoundTrip.idiv (f : R3) : RoundTrip.Statement (.idiv f) := by
  intro _ hk
  have wf : Instr.WF (.idiv f) := of_decide_eq_true hk
  refine decode_of_row ?_ hk
  obtain ⟨m, b0, r⟩ := R3.laid f wf _ _ 2 6 rfl rfl (by decide) (by decide)
  change decodeRow (0x8000006 + f.place) = _
  rw [decodeRow_2 m]
  simp [decodeIarith, r, b0]

theorem RoundTrip.idivn (f : R3) : RoundTrip.Statement (.idivn f) := by
  intro _ hk
  have wf : Instr.WF (.idivn f) := of_decide_eq_true hk
  refine decode_of_row ?_ hk
  obtain ⟨m, b0, r⟩ := R3.laid f wf _ _ 2 7 rfl rfl (by decide) (by decide)
  change decodeRow (0x8000007 + f.place) = _
  rw [decodeRow_2 m]
  simp [decodeIarith, r, b0]

theorem RoundTrip.and (f : R3) : RoundTrip.Statement (.and f) := by
  intro _ hk
  have wf : Instr.WF (.and f) := of_decide_eq_true hk
  refine decode_of_row ?_ hk
  obtain ⟨m, b0, r⟩ := R3.laid f wf _ _ 3 0 rfl rfl (by decide) (by decide)
  change decodeRow (0xC000000 + f.place) = _
  rw [decodeRow_3 m]
  simp [decodeIlogic, r, b0]

theorem RoundTrip.or (f : R3) : RoundTrip.Statement (.or f) := by
  intro _ hk
  have wf : Instr.WF (.or f) := of_decide_eq_true hk
  refine decode_of_row ?_ hk
  obtain ⟨m, b0, r⟩ := R3.laid f wf _ _ 3 1 rfl rfl (by decide) (by decide)
  change decodeRow (0xC000001 + f.place) = _
  rw [decodeRow_3 m]
  simp [decodeIlogic, r, b0]

theorem RoundTrip.xor (f : R3) : RoundTrip.Statement (.xor f) := by
  intro _ hk
  have wf : Instr.WF (.xor f) := of_decide_eq_true hk
  refine decode_of_row ?_ hk
  obtain ⟨m, b0, r⟩ := R3.laid f wf _ _ 3 2 rfl rfl (by decide) (by decide)
  change decodeRow (0xC000002 + f.place) = _
  rw [decodeRow_3 m]
  simp [decodeIlogic, r, b0]

theorem RoundTrip.andn (f : R3) : RoundTrip.Statement (.andn f) := by
  intro _ hk
  have wf : Instr.WF (.andn f) := of_decide_eq_true hk
  refine decode_of_row ?_ hk
  obtain ⟨m, b0, r⟩ := R3.laid f wf _ _ 3 3 rfl rfl (by decide) (by decide)
  change decodeRow (0xC000003 + f.place) = _
  rw [decodeRow_3 m]
  simp [decodeIlogic, r, b0]

theorem RoundTrip.shl (f : R3) : RoundTrip.Statement (.shl f) := by
  intro _ hk
  have wf : Instr.WF (.shl f) := of_decide_eq_true hk
  refine decode_of_row ?_ hk
  obtain ⟨m, b0, r⟩ := R3.laid f wf _ _ 3 4 rfl rfl (by decide) (by decide)
  change decodeRow (0xC000004 + f.place) = _
  rw [decodeRow_3 m]
  simp [decodeIlogic, r, b0]

theorem RoundTrip.shr (f : R3) : RoundTrip.Statement (.shr f) := by
  intro _ hk
  have wf : Instr.WF (.shr f) := of_decide_eq_true hk
  refine decode_of_row ?_ hk
  obtain ⟨m, b0, r⟩ := R3.laid f wf _ _ 3 5 rfl rfl (by decide) (by decide)
  change decodeRow (0xC000005 + f.place) = _
  rw [decodeRow_3 m]
  simp [decodeIlogic, r, b0]

theorem RoundTrip.sar (f : R3) : RoundTrip.Statement (.sar f) := by
  intro _ hk
  have wf : Instr.WF (.sar f) := of_decide_eq_true hk
  refine decode_of_row ?_ hk
  obtain ⟨m, b0, r⟩ := R3.laid f wf _ _ 3 6 rfl rfl (by decide) (by decide)
  change decodeRow (0xC000006 + f.place) = _
  rw [decodeRow_3 m]
  simp [decodeIlogic, r, b0]

theorem RoundTrip.rotr (f : R3) : RoundTrip.Statement (.rotr f) := by
  intro _ hk
  have wf : Instr.WF (.rotr f) := of_decide_eq_true hk
  refine decode_of_row ?_ hk
  obtain ⟨m, b0, r⟩ := R3.laid f wf _ _ 3 7 rfl rfl (by decide) (by decide)
  change decodeRow (0xC000007 + f.place) = _
  rw [decodeRow_3 m]
  simp [decodeIlogic, r, b0]

theorem RoundTrip.imin (f : R3) : RoundTrip.Statement (.imin f) := by
  intro _ hk
  have wf : Instr.WF (.imin f) := of_decide_eq_true hk
  refine decode_of_row ?_ hk
  obtain ⟨m, b0, r⟩ := R3.laid f wf _ _ 4 0 rfl rfl (by decide) (by decide)
  change decodeRow (0x10000000 + f.place) = _
  rw [decodeRow_4 m]
  simp [decodeIbits, r, b0]

theorem RoundTrip.imax (f : R3) : RoundTrip.Statement (.imax f) := by
  intro _ hk
  have wf : Instr.WF (.imax f) := of_decide_eq_true hk
  refine decode_of_row ?_ hk
  obtain ⟨m, b0, r⟩ := R3.laid f wf _ _ 4 1 rfl rfl (by decide) (by decide)
  change decodeRow (0x10000001 + f.place) = _
  rw [decodeRow_4 m]
  simp [decodeIbits, r, b0]

theorem RoundTrip.nmin (f : R3) : RoundTrip.Statement (.nmin f) := by
  intro _ hk
  have wf : Instr.WF (.nmin f) := of_decide_eq_true hk
  refine decode_of_row ?_ hk
  obtain ⟨m, b0, r⟩ := R3.laid f wf _ _ 4 2 rfl rfl (by decide) (by decide)
  change decodeRow (0x10000002 + f.place) = _
  rw [decodeRow_4 m]
  simp [decodeIbits, r, b0]

theorem RoundTrip.nmax (f : R3) : RoundTrip.Statement (.nmax f) := by
  intro _ hk
  have wf : Instr.WF (.nmax f) := of_decide_eq_true hk
  refine decode_of_row ?_ hk
  obtain ⟨m, b0, r⟩ := R3.laid f wf _ _ 4 3 rfl rfl (by decide) (by decide)
  change decodeRow (0x10000003 + f.place) = _
  rw [decodeRow_4 m]
  simp [decodeIbits, r, b0]

theorem RoundTrip.popc (f : R1) : RoundTrip.Statement (.popc f) := by
  intro _ hk
  have wf : Instr.WF (.popc f) := of_decide_eq_true hk
  refine decode_of_row ?_ hk
  obtain ⟨m, b0, b1, b2, r⟩ := R1.laid f wf _ _ 4 4 0 0 rfl rfl (by decide) (by decide) (by decide) (by decide)
  change decodeRow (0x10000004 + f.place) = _
  rw [decodeRow_4 m]
  simp [decodeIbits, r, b0, b1, b2]

theorem RoundTrip.clz (f : R1) : RoundTrip.Statement (.clz f) := by
  intro _ hk
  have wf : Instr.WF (.clz f) := of_decide_eq_true hk
  refine decode_of_row ?_ hk
  obtain ⟨m, b0, b1, b2, r⟩ := R1.laid f wf _ _ 4 5 0 0 rfl rfl (by decide) (by decide) (by decide) (by decide)
  change decodeRow (0x10000005 + f.place) = _
  rw [decodeRow_4 m]
  simp [decodeIbits, r, b0, b1, b2]

theorem RoundTrip.brev (f : R1) : RoundTrip.Statement (.brev f) := by
  intro _ hk
  have wf : Instr.WF (.brev f) := of_decide_eq_true hk
  refine decode_of_row ?_ hk
  obtain ⟨m, b0, b1, b2, r⟩ := R1.laid f wf _ _ 4 6 0 0 rfl rfl (by decide) (by decide) (by decide) (by decide)
  change decodeRow (0x10000006 + f.place) = _
  rw [decodeRow_4 m]
  simp [decodeIbits, r, b0, b1, b2]

theorem RoundTrip.bfx (f : R3) : RoundTrip.Statement (.bfx f) := by
  intro _ hk
  have wf : Instr.WF (.bfx f) := of_decide_eq_true hk
  refine decode_of_row ?_ hk
  obtain ⟨m, b0, r⟩ := R3.laid f wf _ _ 4 7 rfl rfl (by decide) (by decide)
  change decodeRow (0x10000007 + f.place) = _
  rw [decodeRow_4 m]
  simp [decodeIbits, r, b0]

theorem RoundTrip.icmpEq (f : RCmp) : RoundTrip.Statement (.icmpEq f) := by
  intro _ hk
  have wf : Instr.WF (.icmpEq f) := of_decide_eq_true hk
  refine decode_of_row ?_ hk
  obtain ⟨m, b0, b1, r⟩ := RCmp.laid f wf _ _ 5 0 0 rfl rfl (by decide) (by decide) (by decide)
  change decodeRow (0x14000000 + f.place) = _
  rw [decodeRow_5 m]
  simp [decodeIcmp, r, b0, b1]

theorem RoundTrip.icmpNe (f : RCmp) : RoundTrip.Statement (.icmpNe f) := by
  intro _ hk
  have wf : Instr.WF (.icmpNe f) := of_decide_eq_true hk
  refine decode_of_row ?_ hk
  obtain ⟨m, b0, b1, r⟩ := RCmp.laid f wf _ _ 5 1 0 rfl rfl (by decide) (by decide) (by decide)
  change decodeRow (0x14000001 + f.place) = _
  rw [decodeRow_5 m]
  simp [decodeIcmp, r, b0, b1]

theorem RoundTrip.icmpLt (f : RCmp) : RoundTrip.Statement (.icmpLt f) := by
  intro _ hk
  have wf : Instr.WF (.icmpLt f) := of_decide_eq_true hk
  refine decode_of_row ?_ hk
  obtain ⟨m, b0, b1, r⟩ := RCmp.laid f wf _ _ 5 2 0 rfl rfl (by decide) (by decide) (by decide)
  change decodeRow (0x14000002 + f.place) = _
  rw [decodeRow_5 m]
  simp [decodeIcmp, r, b0, b1]

theorem RoundTrip.icmpLe (f : RCmp) : RoundTrip.Statement (.icmpLe f) := by
  intro _ hk
  have wf : Instr.WF (.icmpLe f) := of_decide_eq_true hk
  refine decode_of_row ?_ hk
  obtain ⟨m, b0, b1, r⟩ := RCmp.laid f wf _ _ 5 3 0 rfl rfl (by decide) (by decide) (by decide)
  change decodeRow (0x14000003 + f.place) = _
  rw [decodeRow_5 m]
  simp [decodeIcmp, r, b0, b1]

theorem RoundTrip.icmpLtn (f : RCmp) : RoundTrip.Statement (.icmpLtn f) := by
  intro _ hk
  have wf : Instr.WF (.icmpLtn f) := of_decide_eq_true hk
  refine decode_of_row ?_ hk
  obtain ⟨m, b0, b1, r⟩ := RCmp.laid f wf _ _ 5 4 0 rfl rfl (by decide) (by decide) (by decide)
  change decodeRow (0x14000004 + f.place) = _
  rw [decodeRow_5 m]
  simp [decodeIcmp, r, b0, b1]

theorem RoundTrip.icmpLen (f : RCmp) : RoundTrip.Statement (.icmpLen f) := by
  intro _ hk
  have wf : Instr.WF (.icmpLen f) := of_decide_eq_true hk
  refine decode_of_row ?_ hk
  obtain ⟨m, b0, b1, r⟩ := RCmp.laid f wf _ _ 5 5 0 rfl rfl (by decide) (by decide) (by decide)
  change decodeRow (0x14000005 + f.place) = _
  rw [decodeRow_5 m]
  simp [decodeIcmp, r, b0, b1]

theorem RoundTrip.icmpTst (f : RCmp) : RoundTrip.Statement (.icmpTst f) := by
  intro _ hk
  have wf : Instr.WF (.icmpTst f) := of_decide_eq_true hk
  refine decode_of_row ?_ hk
  obtain ⟨m, b0, b1, r⟩ := RCmp.laid f wf _ _ 5 6 0 rfl rfl (by decide) (by decide) (by decide)
  change decodeRow (0x14000006 + f.place) = _
  rw [decodeRow_5 m]
  simp [decodeIcmp, r, b0, b1]

theorem RoundTrip.sel (f : R3) : RoundTrip.Statement (.sel f) := by
  intro _ hk
  have wf : Instr.WF (.sel f) := of_decide_eq_true hk
  refine decode_of_row ?_ hk
  obtain ⟨m, b0, r⟩ := R3.laid f wf _ _ 5 7 rfl rfl (by decide) (by decide)
  change decodeRow (0x14000007 + f.place) = _
  rw [decodeRow_5 m]
  simp [decodeIcmp, r, b0]

theorem RoundTrip.iaddi (f : RImm) : RoundTrip.Statement (.iaddi f) := by
  intro _ hk
  have wf : Instr.WF (.iaddi f) := of_decide_eq_true hk
  refine decode_of_row ?_ hk
  obtain ⟨m, b0, r⟩ := RImm.laid f wf _ _ 6 0 rfl rfl (by decide) (by decide)
  change decodeRow (0x18000000 + f.place) = _
  rw [decodeRow_6 m]
  simp [decodeIimm, r, b0]

theorem RoundTrip.andi (f : RImm) : RoundTrip.Statement (.andi f) := by
  intro _ hk
  have wf : Instr.WF (.andi f) := of_decide_eq_true hk
  refine decode_of_row ?_ hk
  obtain ⟨m, b0, r⟩ := RImm.laid f wf _ _ 6 1 rfl rfl (by decide) (by decide)
  change decodeRow (0x18000001 + f.place) = _
  rw [decodeRow_6 m]
  simp [decodeIimm, r, b0]

theorem RoundTrip.ori (f : RImm) : RoundTrip.Statement (.ori f) := by
  intro _ hk
  have wf : Instr.WF (.ori f) := of_decide_eq_true hk
  refine decode_of_row ?_ hk
  obtain ⟨m, b0, r⟩ := RImm.laid f wf _ _ 6 2 rfl rfl (by decide) (by decide)
  change decodeRow (0x18000002 + f.place) = _
  rw [decodeRow_6 m]
  simp [decodeIimm, r, b0]

theorem RoundTrip.xori (f : RImm) : RoundTrip.Statement (.xori f) := by
  intro _ hk
  have wf : Instr.WF (.xori f) := of_decide_eq_true hk
  refine decode_of_row ?_ hk
  obtain ⟨m, b0, r⟩ := RImm.laid f wf _ _ 6 3 rfl rfl (by decide) (by decide)
  change decodeRow (0x18000003 + f.place) = _
  rw [decodeRow_6 m]
  simp [decodeIimm, r, b0]

theorem RoundTrip.shli (f : RImm) : RoundTrip.Statement (.shli f) := by
  intro _ hk
  have wf : Instr.WF (.shli f) := of_decide_eq_true hk
  refine decode_of_row ?_ hk
  obtain ⟨m, b0, r⟩ := RImm.laid f wf _ _ 6 4 rfl rfl (by decide) (by decide)
  change decodeRow (0x18000004 + f.place) = _
  rw [decodeRow_6 m]
  simp [decodeIimm, r, b0]

theorem RoundTrip.shri (f : RImm) : RoundTrip.Statement (.shri f) := by
  intro _ hk
  have wf : Instr.WF (.shri f) := of_decide_eq_true hk
  refine decode_of_row ?_ hk
  obtain ⟨m, b0, r⟩ := RImm.laid f wf _ _ 6 5 rfl rfl (by decide) (by decide)
  change decodeRow (0x18000005 + f.place) = _
  rw [decodeRow_6 m]
  simp [decodeIimm, r, b0]

theorem RoundTrip.sari (f : RImm) : RoundTrip.Statement (.sari f) := by
  intro _ hk
  have wf : Instr.WF (.sari f) := of_decide_eq_true hk
  refine decode_of_row ?_ hk
  obtain ⟨m, b0, r⟩ := RImm.laid f wf _ _ 6 6 rfl rfl (by decide) (by decide)
  change decodeRow (0x18000006 + f.place) = _
  rw [decodeRow_6 m]
  simp [decodeIimm, r, b0]

theorem RoundTrip.imuli (f : RImm) : RoundTrip.Statement (.imuli f) := by
  intro _ hk
  have wf : Instr.WF (.imuli f) := of_decide_eq_true hk
  refine decode_of_row ?_ hk
  obtain ⟨m, b0, r⟩ := RImm.laid f wf _ _ 6 7 rfl rfl (by decide) (by decide)
  change decodeRow (0x18000007 + f.place) = _
  rw [decodeRow_6 m]
  simp [decodeIimm, r, b0]

theorem RoundTrip.movi (f : RWide) : RoundTrip.Statement (.movi f) := by
  intro _ hk
  have wf : Instr.WF (.movi f) := of_decide_eq_true hk
  refine decode_of_row ?_ hk
  obtain ⟨m, r⟩ := RWide.laid f wf _ _ 7  rfl rfl (by decide) 
  change decodeRow (0x1C000000 + f.place) = _
  rw [decodeRow_7 m]
  simp [decodeMovi, r, ]

theorem RoundTrip.movhi (f : RWide) : RoundTrip.Statement (.movhi f) := by
  intro _ hk
  have wf : Instr.WF (.movhi f) := of_decide_eq_true hk
  refine decode_of_row ?_ hk
  obtain ⟨m, r⟩ := RWide.laid f wf _ _ 8  rfl rfl (by decide) 
  change decodeRow (0x20000000 + f.place) = _
  rw [decodeRow_8 m]
  simp [decodeMovhi, r, ]

theorem RoundTrip.fadd (f : R3) : RoundTrip.Statement (.fadd f) := by
  intro _ hk
  have wf : Instr.WF (.fadd f) := of_decide_eq_true hk
  refine decode_of_row ?_ hk
  obtain ⟨m, b0, r⟩ := R3.laid f wf _ _ 9 0 rfl rfl (by decide) (by decide)
  change decodeRow (0x24000000 + f.place) = _
  rw [decodeRow_9 m]
  simp [decodeFarith, r, b0]

theorem RoundTrip.fsub (f : R3) : RoundTrip.Statement (.fsub f) := by
  intro _ hk
  have wf : Instr.WF (.fsub f) := of_decide_eq_true hk
  refine decode_of_row ?_ hk
  obtain ⟨m, b0, r⟩ := R3.laid f wf _ _ 9 1 rfl rfl (by decide) (by decide)
  change decodeRow (0x24000001 + f.place) = _
  rw [decodeRow_9 m]
  simp [decodeFarith, r, b0]

theorem RoundTrip.fmul (f : R3) : RoundTrip.Statement (.fmul f) := by
  intro _ hk
  have wf : Instr.WF (.fmul f) := of_decide_eq_true hk
  refine decode_of_row ?_ hk
  obtain ⟨m, b0, r⟩ := R3.laid f wf _ _ 9 2 rfl rfl (by decide) (by decide)
  change decodeRow (0x24000002 + f.place) = _
  rw [decodeRow_9 m]
  simp [decodeFarith, r, b0]

theorem RoundTrip.fma (f : R3) : RoundTrip.Statement (.fma f) := by
  intro _ hk
  have wf : Instr.WF (.fma f) := of_decide_eq_true hk
  refine decode_of_row ?_ hk
  obtain ⟨m, b0, r⟩ := R3.laid f wf _ _ 9 3 rfl rfl (by decide) (by decide)
  change decodeRow (0x24000003 + f.place) = _
  rw [decodeRow_9 m]
  simp [decodeFarith, r, b0]

theorem RoundTrip.fms (f : R3) : RoundTrip.Statement (.fms f) := by
  intro _ hk
  have wf : Instr.WF (.fms f) := of_decide_eq_true hk
  refine decode_of_row ?_ hk
  obtain ⟨m, b0, r⟩ := R3.laid f wf _ _ 9 4 rfl rfl (by decide) (by decide)
  change decodeRow (0x24000004 + f.place) = _
  rw [decodeRow_9 m]
  simp [decodeFarith, r, b0]

theorem RoundTrip.fnma (f : R3) : RoundTrip.Statement (.fnma f) := by
  intro _ hk
  have wf : Instr.WF (.fnma f) := of_decide_eq_true hk
  refine decode_of_row ?_ hk
  obtain ⟨m, b0, r⟩ := R3.laid f wf _ _ 9 5 rfl rfl (by decide) (by decide)
  change decodeRow (0x24000005 + f.place) = _
  rw [decodeRow_9 m]
  simp [decodeFarith, r, b0]

theorem RoundTrip.fmin (f : R3) : RoundTrip.Statement (.fmin f) := by
  intro _ hk
  have wf : Instr.WF (.fmin f) := of_decide_eq_true hk
  refine decode_of_row ?_ hk
  obtain ⟨m, b0, r⟩ := R3.laid f wf _ _ 9 6 rfl rfl (by decide) (by decide)
  change decodeRow (0x24000006 + f.place) = _
  rw [decodeRow_9 m]
  simp [decodeFarith, r, b0]

theorem RoundTrip.fmax (f : R3) : RoundTrip.Statement (.fmax f) := by
  intro _ hk
  have wf : Instr.WF (.fmax f) := of_decide_eq_true hk
  refine decode_of_row ?_ hk
  obtain ⟨m, b0, r⟩ := R3.laid f wf _ _ 9 7 rfl rfl (by decide) (by decide)
  change decodeRow (0x24000007 + f.place) = _
  rw [decodeRow_9 m]
  simp [decodeFarith, r, b0]

theorem RoundTrip.fcmpLt (f : RCmp) : RoundTrip.Statement (.fcmpLt f) := by
  intro _ hk
  have wf : Instr.WF (.fcmpLt f) := of_decide_eq_true hk
  refine decode_of_row ?_ hk
  obtain ⟨m, b0, b1, r⟩ := RCmp.laid f wf _ _ 10 0 0 rfl rfl (by decide) (by decide) (by decide)
  change decodeRow (0x28000000 + f.place) = _
  rw [decodeRow_10 m]
  simp [decodeFcmp, r, b0, b1]

theorem RoundTrip.fcmpLe (f : RCmp) : RoundTrip.Statement (.fcmpLe f) := by
  intro _ hk
  have wf : Instr.WF (.fcmpLe f) := of_decide_eq_true hk
  refine decode_of_row ?_ hk
  obtain ⟨m, b0, b1, r⟩ := RCmp.laid f wf _ _ 10 1 0 rfl rfl (by decide) (by decide) (by decide)
  change decodeRow (0x28000001 + f.place) = _
  rw [decodeRow_10 m]
  simp [decodeFcmp, r, b0, b1]

theorem RoundTrip.fcmpEq (f : RCmp) : RoundTrip.Statement (.fcmpEq f) := by
  intro _ hk
  have wf : Instr.WF (.fcmpEq f) := of_decide_eq_true hk
  refine decode_of_row ?_ hk
  obtain ⟨m, b0, b1, r⟩ := RCmp.laid f wf _ _ 10 2 0 rfl rfl (by decide) (by decide) (by decide)
  change decodeRow (0x28000002 + f.place) = _
  rw [decodeRow_10 m]
  simp [decodeFcmp, r, b0, b1]

theorem RoundTrip.fcmpNe (f : RCmp) : RoundTrip.Statement (.fcmpNe f) := by
  intro _ hk
  have wf : Instr.WF (.fcmpNe f) := of_decide_eq_true hk
  refine decode_of_row ?_ hk
  obtain ⟨m, b0, b1, r⟩ := RCmp.laid f wf _ _ 10 3 0 rfl rfl (by decide) (by decide) (by decide)
  change decodeRow (0x28000003 + f.place) = _
  rw [decodeRow_10 m]
  simp [decodeFcmp, r, b0, b1]

theorem RoundTrip.fcmpGt (f : RCmp) : RoundTrip.Statement (.fcmpGt f) := by
  intro _ hk
  have wf : Instr.WF (.fcmpGt f) := of_decide_eq_true hk
  refine decode_of_row ?_ hk
  obtain ⟨m, b0, b1, r⟩ := RCmp.laid f wf _ _ 10 4 0 rfl rfl (by decide) (by decide) (by decide)
  change decodeRow (0x28000004 + f.place) = _
  rw [decodeRow_10 m]
  simp [decodeFcmp, r, b0, b1]

theorem RoundTrip.fcmpGe (f : RCmp) : RoundTrip.Statement (.fcmpGe f) := by
  intro _ hk
  have wf : Instr.WF (.fcmpGe f) := of_decide_eq_true hk
  refine decode_of_row ?_ hk
  obtain ⟨m, b0, b1, r⟩ := RCmp.laid f wf _ _ 10 5 0 rfl rfl (by decide) (by decide) (by decide)
  change decodeRow (0x28000005 + f.place) = _
  rw [decodeRow_10 m]
  simp [decodeFcmp, r, b0, b1]

theorem RoundTrip.fcmpUno (f : RCmp) : RoundTrip.Statement (.fcmpUno f) := by
  intro _ hk
  have wf : Instr.WF (.fcmpUno f) := of_decide_eq_true hk
  refine decode_of_row ?_ hk
  obtain ⟨m, b0, b1, r⟩ := RCmp.laid f wf _ _ 10 6 0 rfl rfl (by decide) (by decide) (by decide)
  change decodeRow (0x28000006 + f.place) = _
  rw [decodeRow_10 m]
  simp [decodeFcmp, r, b0, b1]

theorem RoundTrip.fabs (f : RRnd) : RoundTrip.Statement (.fabs f) := by
  intro _ hk
  have wf : Instr.WF (.fabs f) := of_decide_eq_true hk
  refine decode_of_row ?_ hk
  obtain ⟨m, b0, b1, r⟩ := RRnd.laid f wf.1 _ _ 11 0 0 rfl rfl (by decide) (by decide) (by decide)
  change decodeRow (0x2C000000 + f.place) = _
  rw [decodeRow_11 m]
  simp [decodeFunary, r, b0, b1]

theorem RoundTrip.fneg (f : RRnd) : RoundTrip.Statement (.fneg f) := by
  intro _ hk
  have wf : Instr.WF (.fneg f) := of_decide_eq_true hk
  refine decode_of_row ?_ hk
  obtain ⟨m, b0, b1, r⟩ := RRnd.laid f wf.1 _ _ 11 0 1 rfl rfl (by decide) (by decide) (by decide)
  change decodeRow (0x2C000800 + f.place) = _
  rw [decodeRow_11 m]
  simp [decodeFunary, r, b0, b1]

theorem RoundTrip.fsqrt (f : RRnd) : RoundTrip.Statement (.fsqrt f) := by
  intro _ hk
  have wf : Instr.WF (.fsqrt f) := of_decide_eq_true hk
  refine decode_of_row ?_ hk
  obtain ⟨m, b0, b1, r⟩ := RRnd.laid f wf.1 _ _ 11 0 2 rfl rfl (by decide) (by decide) (by decide)
  change decodeRow (0x2C001000 + f.place) = _
  rw [decodeRow_11 m]
  simp [decodeFunary, r, b0, b1]

theorem RoundTrip.frcp (f : RRnd) : RoundTrip.Statement (.frcp f) := by
  intro _ hk
  have wf : Instr.WF (.frcp f) := of_decide_eq_true hk
  refine decode_of_row ?_ hk
  obtain ⟨m, b0, b1, r⟩ := RRnd.laid f wf.1 _ _ 11 0 3 rfl rfl (by decide) (by decide) (by decide)
  change decodeRow (0x2C001800 + f.place) = _
  rw [decodeRow_11 m]
  simp [decodeFunary, r, b0, b1]

theorem RoundTrip.frsq (f : RRnd) : RoundTrip.Statement (.frsq f) := by
  intro _ hk
  have wf : Instr.WF (.frsq f) := of_decide_eq_true hk
  refine decode_of_row ?_ hk
  obtain ⟨m, b0, b1, r⟩ := RRnd.laid f wf.1 _ _ 11 0 4 rfl rfl (by decide) (by decide) (by decide)
  change decodeRow (0x2C002000 + f.place) = _
  rw [decodeRow_11 m]
  simp [decodeFunary, r, b0, b1]

theorem RoundTrip.fexp2 (f : RRnd) : RoundTrip.Statement (.fexp2 f) := by
  intro _ hk
  have wf : Instr.WF (.fexp2 f) := of_decide_eq_true hk
  refine decode_of_row ?_ hk
  obtain ⟨m, b0, b1, r⟩ := RRnd.laid f wf.1 _ _ 11 0 5 rfl rfl (by decide) (by decide) (by decide)
  change decodeRow (0x2C002800 + f.place) = _
  rw [decodeRow_11 m]
  simp [decodeFunary, r, b0, b1]

theorem RoundTrip.flog2 (f : RRnd) : RoundTrip.Statement (.flog2 f) := by
  intro _ hk
  have wf : Instr.WF (.flog2 f) := of_decide_eq_true hk
  refine decode_of_row ?_ hk
  obtain ⟨m, b0, b1, r⟩ := RRnd.laid f wf.1 _ _ 11 0 6 rfl rfl (by decide) (by decide) (by decide)
  change decodeRow (0x2C003000 + f.place) = _
  rw [decodeRow_11 m]
  simp [decodeFunary, r, b0, b1]

theorem RoundTrip.fsin (f : RRnd) : RoundTrip.Statement (.fsin f) := by
  intro _ hk
  have wf : Instr.WF (.fsin f) := of_decide_eq_true hk
  refine decode_of_row ?_ hk
  obtain ⟨m, b0, b1, r⟩ := RRnd.laid f wf.1 _ _ 11 0 7 rfl rfl (by decide) (by decide) (by decide)
  change decodeRow (0x2C003800 + f.place) = _
  rw [decodeRow_11 m]
  simp [decodeFunary, r, b0, b1]

theorem RoundTrip.fcos (f : RRnd) : RoundTrip.Statement (.fcos f) := by
  intro _ hk
  have wf : Instr.WF (.fcos f) := of_decide_eq_true hk
  refine decode_of_row ?_ hk
  obtain ⟨m, b0, b1, r⟩ := RRnd.laid f wf.1 _ _ 11 0 8 rfl rfl (by decide) (by decide) (by decide)
  change decodeRow (0x2C004000 + f.place) = _
  rw [decodeRow_11 m]
  simp [decodeFunary, r, b0, b1]

theorem RoundTrip.ffloor (f : RRnd) : RoundTrip.Statement (.ffloor f) := by
  intro _ hk
  have wf : Instr.WF (.ffloor f) := of_decide_eq_true hk
  refine decode_of_row ?_ hk
  obtain ⟨m, b0, b1, r⟩ := RRnd.laid f wf.1 _ _ 11 0 9 rfl rfl (by decide) (by decide) (by decide)
  change decodeRow (0x2C004800 + f.place) = _
  rw [decodeRow_11 m]
  simp [decodeFunary, r, b0, b1]

theorem RoundTrip.fceil (f : RRnd) : RoundTrip.Statement (.fceil f) := by
  intro _ hk
  have wf : Instr.WF (.fceil f) := of_decide_eq_true hk
  refine decode_of_row ?_ hk
  obtain ⟨m, b0, b1, r⟩ := RRnd.laid f wf.1 _ _ 11 0 10 rfl rfl (by decide) (by decide) (by decide)
  change decodeRow (0x2C005000 + f.place) = _
  rw [decodeRow_11 m]
  simp [decodeFunary, r, b0, b1]

theorem RoundTrip.frint (f : RRnd) : RoundTrip.Statement (.frint f) := by
  intro _ hk
  have wf : Instr.WF (.frint f) := of_decide_eq_true hk
  refine decode_of_row ?_ hk
  obtain ⟨m, b0, b1, r⟩ := RRnd.laid f wf.1 _ _ 11 0 11 rfl rfl (by decide) (by decide) (by decide)
  change decodeRow (0x2C005800 + f.place) = _
  rw [decodeRow_11 m]
  simp [decodeFunary, r, b0, b1]

theorem RoundTrip.fclass (f : RRnd) : RoundTrip.Statement (.fclass f) := by
  intro _ hk
  have wf : Instr.WF (.fclass f) := of_decide_eq_true hk
  refine decode_of_row ?_ hk
  obtain ⟨m, b0, b1, r⟩ := RRnd.laid f wf.1 _ _ 11 0 12 rfl rfl (by decide) (by decide) (by decide)
  change decodeRow (0x2C006000 + f.place) = _
  rw [decodeRow_11 m]
  simp [decodeFunary, r, b0, b1]

theorem RoundTrip.ivlo (f : RRnd) : RoundTrip.Statement (.ivlo f) := by
  intro _ hk
  have wf : Instr.WF (.ivlo f) := of_decide_eq_true hk
  refine decode_of_row ?_ hk
  obtain ⟨m, b0, b1, r⟩ := RRnd.laid f wf.1 _ _ 11 0 13 rfl rfl (by decide) (by decide) (by decide)
  change decodeRow (0x2C006800 + f.place) = _
  rw [decodeRow_11 m]
  simp [decodeFunary, r, b0, b1]

theorem RoundTrip.ivhi (f : RRnd) : RoundTrip.Statement (.ivhi f) := by
  intro _ hk
  have wf : Instr.WF (.ivhi f) := of_decide_eq_true hk
  refine decode_of_row ?_ hk
  obtain ⟨m, b0, b1, r⟩ := RRnd.laid f wf.1 _ _ 11 0 14 rfl rfl (by decide) (by decide) (by decide)
  change decodeRow (0x2C007000 + f.place) = _
  rw [decodeRow_11 m]
  simp [decodeFunary, r, b0, b1]

theorem RoundTrip.mov (f : R1) : RoundTrip.Statement (.mov f) := by
  intro _ hk
  have wf : Instr.WF (.mov f) := of_decide_eq_true hk
  refine decode_of_row ?_ hk
  obtain ⟨m, b0, b1, b2, r⟩ := R1.laid f wf _ _ 11 0 0 15 rfl rfl (by decide) (by decide) (by decide) (by decide)
  change decodeRow (0x2C007800 + f.place) = _
  rw [decodeRow_11 m]
  simp [decodeFunary, r, b0, b1, b2]

theorem RoundTrip.cvtF64F32 (f : RRnd) : RoundTrip.Statement (.cvtF64F32 f) := by
  intro _ hk
  have wf : Instr.WF (.cvtF64F32 f) := of_decide_eq_true hk
  refine decode_of_row ?_ hk
  obtain ⟨m, b0, b1, r⟩ := RRnd.laid f wf.1 _ _ 12 0 0 rfl rfl (by decide) (by decide) (by decide)
  change decodeRow (0x30000000 + f.place) = _
  rw [decodeRow_12 m]
  simp [decodeCvt, r, b0, b1]

theorem RoundTrip.cvtF32F64 (f : RRnd) : RoundTrip.Statement (.cvtF32F64 f) := by
  intro _ hk
  have wf : Instr.WF (.cvtF32F64 f) := of_decide_eq_true hk
  refine decode_of_row ?_ hk
  obtain ⟨m, b0, b1, r⟩ := RRnd.laid f wf.1 _ _ 12 0 1 rfl rfl (by decide) (by decide) (by decide)
  change decodeRow (0x30000800 + f.place) = _
  rw [decodeRow_12 m]
  simp [decodeCvt, r, b0, b1]

theorem RoundTrip.cvtF32I32 (f : RRnd) : RoundTrip.Statement (.cvtF32I32 f) := by
  intro _ hk
  have wf : Instr.WF (.cvtF32I32 f) := of_decide_eq_true hk
  refine decode_of_row ?_ hk
  obtain ⟨m, b0, b1, r⟩ := RRnd.laid f wf.1 _ _ 12 0 2 rfl rfl (by decide) (by decide) (by decide)
  change decodeRow (0x30001000 + f.place) = _
  rw [decodeRow_12 m]
  simp [decodeCvt, r, b0, b1]

theorem RoundTrip.cvtF32N32 (f : RRnd) : RoundTrip.Statement (.cvtF32N32 f) := by
  intro _ hk
  have wf : Instr.WF (.cvtF32N32 f) := of_decide_eq_true hk
  refine decode_of_row ?_ hk
  obtain ⟨m, b0, b1, r⟩ := RRnd.laid f wf.1 _ _ 12 0 3 rfl rfl (by decide) (by decide) (by decide)
  change decodeRow (0x30001800 + f.place) = _
  rw [decodeRow_12 m]
  simp [decodeCvt, r, b0, b1]

theorem RoundTrip.cvtI32F32 (f : RRnd) : RoundTrip.Statement (.cvtI32F32 f) := by
  intro _ hk
  have wf : Instr.WF (.cvtI32F32 f) := of_decide_eq_true hk
  refine decode_of_row ?_ hk
  obtain ⟨m, b0, b1, r⟩ := RRnd.laid f wf.1 _ _ 12 0 4 rfl rfl (by decide) (by decide) (by decide)
  change decodeRow (0x30002000 + f.place) = _
  rw [decodeRow_12 m]
  simp [decodeCvt, r, b0, b1]

theorem RoundTrip.cvtN32F32 (f : RRnd) : RoundTrip.Statement (.cvtN32F32 f) := by
  intro _ hk
  have wf : Instr.WF (.cvtN32F32 f) := of_decide_eq_true hk
  refine decode_of_row ?_ hk
  obtain ⟨m, b0, b1, r⟩ := RRnd.laid f wf.1 _ _ 12 0 5 rfl rfl (by decide) (by decide) (by decide)
  change decodeRow (0x30002800 + f.place) = _
  rw [decodeRow_12 m]
  simp [decodeCvt, r, b0, b1]

theorem RoundTrip.cvtF64I64 (f : RRnd) : RoundTrip.Statement (.cvtF64I64 f) := by
  intro _ hk
  have wf : Instr.WF (.cvtF64I64 f) := of_decide_eq_true hk
  refine decode_of_row ?_ hk
  obtain ⟨m, b0, b1, r⟩ := RRnd.laid f wf.1 _ _ 12 0 6 rfl rfl (by decide) (by decide) (by decide)
  change decodeRow (0x30003000 + f.place) = _
  rw [decodeRow_12 m]
  simp [decodeCvt, r, b0, b1]

theorem RoundTrip.cvtI64F64 (f : RRnd) : RoundTrip.Statement (.cvtI64F64 f) := by
  intro _ hk
  have wf : Instr.WF (.cvtI64F64 f) := of_decide_eq_true hk
  refine decode_of_row ?_ hk
  obtain ⟨m, b0, b1, r⟩ := RRnd.laid f wf.1 _ _ 12 0 7 rfl rfl (by decide) (by decide) (by decide)
  change decodeRow (0x30003800 + f.place) = _
  rw [decodeRow_12 m]
  simp [decodeCvt, r, b0, b1]

theorem RoundTrip.cvtF32F16l (f : RRnd) : RoundTrip.Statement (.cvtF32F16l f) := by
  intro _ hk
  have wf : Instr.WF (.cvtF32F16l f) := of_decide_eq_true hk
  refine decode_of_row ?_ hk
  obtain ⟨m, b0, b1, r⟩ := RRnd.laid f wf.1 _ _ 12 0 8 rfl rfl (by decide) (by decide) (by decide)
  change decodeRow (0x30004000 + f.place) = _
  rw [decodeRow_12 m]
  simp [decodeCvt, r, b0, b1]

theorem RoundTrip.cvtF32F16h (f : RRnd) : RoundTrip.Statement (.cvtF32F16h f) := by
  intro _ hk
  have wf : Instr.WF (.cvtF32F16h f) := of_decide_eq_true hk
  refine decode_of_row ?_ hk
  obtain ⟨m, b0, b1, r⟩ := RRnd.laid f wf.1 _ _ 12 0 9 rfl rfl (by decide) (by decide) (by decide)
  change decodeRow (0x30004800 + f.place) = _
  rw [decodeRow_12 m]
  simp [decodeCvt, r, b0, b1]

theorem RoundTrip.cvtF32Bf16l (f : RRnd) : RoundTrip.Statement (.cvtF32Bf16l f) := by
  intro _ hk
  have wf : Instr.WF (.cvtF32Bf16l f) := of_decide_eq_true hk
  refine decode_of_row ?_ hk
  obtain ⟨m, b0, b1, r⟩ := RRnd.laid f wf.1 _ _ 12 0 10 rfl rfl (by decide) (by decide) (by decide)
  change decodeRow (0x30005000 + f.place) = _
  rw [decodeRow_12 m]
  simp [decodeCvt, r, b0, b1]

theorem RoundTrip.cvtF32Bf16h (f : RRnd) : RoundTrip.Statement (.cvtF32Bf16h f) := by
  intro _ hk
  have wf : Instr.WF (.cvtF32Bf16h f) := of_decide_eq_true hk
  refine decode_of_row ?_ hk
  obtain ⟨m, b0, b1, r⟩ := RRnd.laid f wf.1 _ _ 12 0 11 rfl rfl (by decide) (by decide) (by decide)
  change decodeRow (0x30005800 + f.place) = _
  rw [decodeRow_12 m]
  simp [decodeCvt, r, b0, b1]

theorem RoundTrip.cvtPkF16 (f : RRnd) : RoundTrip.Statement (.cvtPkF16 f) := by
  intro _ hk
  have wf : Instr.WF (.cvtPkF16 f) := of_decide_eq_true hk
  refine decode_of_row ?_ hk
  obtain ⟨m, b0, b1, r⟩ := RRnd.laid f wf.1 _ _ 12 0 12 rfl rfl (by decide) (by decide) (by decide)
  change decodeRow (0x30006000 + f.place) = _
  rw [decodeRow_12 m]
  simp [decodeCvt, r, b0, b1]

theorem RoundTrip.cvtPkBf16 (f : RRnd) : RoundTrip.Statement (.cvtPkBf16 f) := by
  intro _ hk
  have wf : Instr.WF (.cvtPkBf16 f) := of_decide_eq_true hk
  refine decode_of_row ?_ hk
  obtain ⟨m, b0, b1, r⟩ := RRnd.laid f wf.1 _ _ 12 0 13 rfl rfl (by decide) (by decide) (by decide)
  change decodeRow (0x30006800 + f.place) = _
  rw [decodeRow_12 m]
  simp [decodeCvt, r, b0, b1]

theorem RoundTrip.cvtPkE4m3 (f : RRnd) : RoundTrip.Statement (.cvtPkE4m3 f) := by
  intro _ hk
  have wf : Instr.WF (.cvtPkE4m3 f) := of_decide_eq_true hk
  refine decode_of_row ?_ hk
  obtain ⟨m, b0, b1, r⟩ := RRnd.laid f wf.1 _ _ 12 0 14 rfl rfl (by decide) (by decide) (by decide)
  change decodeRow (0x30007000 + f.place) = _
  rw [decodeRow_12 m]
  simp [decodeCvt, r, b0, b1]

theorem RoundTrip.cvtPkE5m2 (f : RRnd) : RoundTrip.Statement (.cvtPkE5m2 f) := by
  intro _ hk
  have wf : Instr.WF (.cvtPkE5m2 f) := of_decide_eq_true hk
  refine decode_of_row ?_ hk
  obtain ⟨m, b0, b1, r⟩ := RRnd.laid f wf.1 _ _ 12 0 15 rfl rfl (by decide) (by decide) (by decide)
  change decodeRow (0x30007800 + f.place) = _
  rw [decodeRow_12 m]
  simp [decodeCvt, r, b0, b1]

theorem RoundTrip.cvtUpE4m3 (f : RRnd) : RoundTrip.Statement (.cvtUpE4m3 f) := by
  intro _ hk
  have wf : Instr.WF (.cvtUpE4m3 f) := of_decide_eq_true hk
  refine decode_of_row ?_ hk
  obtain ⟨m, b0, b1, r⟩ := RRnd.laid f wf.1 _ _ 12 0 16 rfl rfl (by decide) (by decide) (by decide)
  change decodeRow (0x30008000 + f.place) = _
  rw [decodeRow_12 m]
  simp [decodeCvt, r, b0, b1]

theorem RoundTrip.cvtUpE5m2 (f : RRnd) : RoundTrip.Statement (.cvtUpE5m2 f) := by
  intro _ hk
  have wf : Instr.WF (.cvtUpE5m2 f) := of_decide_eq_true hk
  refine decode_of_row ?_ hk
  obtain ⟨m, b0, b1, r⟩ := RRnd.laid f wf.1 _ _ 12 0 17 rfl rfl (by decide) (by decide) (by decide)
  change decodeRow (0x30008800 + f.place) = _
  rw [decodeRow_12 m]
  simp [decodeCvt, r, b0, b1]

theorem RoundTrip.cvtPkQ4n (f : RRnd) : RoundTrip.Statement (.cvtPkQ4n f) := by
  intro _ hk
  have wf : Instr.WF (.cvtPkQ4n f) := of_decide_eq_true hk
  refine decode_of_row ?_ hk
  obtain ⟨m, b0, b1, r⟩ := RRnd.laid f wf.1 _ _ 12 0 18 rfl rfl (by decide) (by decide) (by decide)
  change decodeRow (0x30009000 + f.place) = _
  rw [decodeRow_12 m]
  simp [decodeCvt, r, b0, b1]

theorem RoundTrip.cvtUpQ4n (f : RRnd) : RoundTrip.Statement (.cvtUpQ4n f) := by
  intro _ hk
  have wf : Instr.WF (.cvtUpQ4n f) := of_decide_eq_true hk
  refine decode_of_row ?_ hk
  obtain ⟨m, b0, b1, r⟩ := RRnd.laid f wf.1 _ _ 12 0 19 rfl rfl (by decide) (by decide) (by decide)
  change decodeRow (0x30009800 + f.place) = _
  rw [decodeRow_12 m]
  simp [decodeCvt, r, b0, b1]

theorem RoundTrip.cvtPkI8 (f : RRnd) : RoundTrip.Statement (.cvtPkI8 f) := by
  intro _ hk
  have wf : Instr.WF (.cvtPkI8 f) := of_decide_eq_true hk
  refine decode_of_row ?_ hk
  obtain ⟨m, b0, b1, r⟩ := RRnd.laid f wf.1 _ _ 12 0 20 rfl rfl (by decide) (by decide) (by decide)
  change decodeRow (0x3000A000 + f.place) = _
  rw [decodeRow_12 m]
  simp [decodeCvt, r, b0, b1]

theorem RoundTrip.cvtUpI8 (f : RRnd) : RoundTrip.Statement (.cvtUpI8 f) := by
  intro _ hk
  have wf : Instr.WF (.cvtUpI8 f) := of_decide_eq_true hk
  refine decode_of_row ?_ hk
  obtain ⟨m, b0, b1, r⟩ := RRnd.laid f wf.1 _ _ 12 0 21 rfl rfl (by decide) (by decide) (by decide)
  change decodeRow (0x3000A800 + f.place) = _
  rw [decodeRow_12 m]
  simp [decodeCvt, r, b0, b1]

theorem RoundTrip.cvtI64I32 (f : RRnd) : RoundTrip.Statement (.cvtI64I32 f) := by
  intro _ hk
  have wf : Instr.WF (.cvtI64I32 f) := of_decide_eq_true hk
  refine decode_of_row ?_ hk
  obtain ⟨m, b0, b1, r⟩ := RRnd.laid f wf.1 _ _ 12 0 22 rfl rfl (by decide) (by decide) (by decide)
  change decodeRow (0x3000B000 + f.place) = _
  rw [decodeRow_12 m]
  simp [decodeCvt, r, b0, b1]

theorem RoundTrip.cvtN64N32 (f : RRnd) : RoundTrip.Statement (.cvtN64N32 f) := by
  intro _ hk
  have wf : Instr.WF (.cvtN64N32 f) := of_decide_eq_true hk
  refine decode_of_row ?_ hk
  obtain ⟨m, b0, b1, r⟩ := RRnd.laid f wf.1 _ _ 12 0 23 rfl rfl (by decide) (by decide) (by decide)
  change decodeRow (0x3000B800 + f.place) = _
  rw [decodeRow_12 m]
  simp [decodeCvt, r, b0, b1]

theorem RoundTrip.cvtI32I64 (f : RRnd) : RoundTrip.Statement (.cvtI32I64 f) := by
  intro _ hk
  have wf : Instr.WF (.cvtI32I64 f) := of_decide_eq_true hk
  refine decode_of_row ?_ hk
  obtain ⟨m, b0, b1, r⟩ := RRnd.laid f wf.1 _ _ 12 0 24 rfl rfl (by decide) (by decide) (by decide)
  change decodeRow (0x3000C000 + f.place) = _
  rw [decodeRow_12 m]
  simp [decodeCvt, r, b0, b1]

theorem RoundTrip.sideGet (f : RRnd) : RoundTrip.Statement (.sideGet f) := by
  intro _ hk
  have wf : Instr.WF (.sideGet f) := of_decide_eq_true hk
  refine decode_of_row ?_ hk
  obtain ⟨m, b0, b1, r⟩ := RRnd.laid f wf.1 _ _ 12 0 25 rfl rfl (by decide) (by decide) (by decide)
  change decodeRow (0x3000C800 + f.place) = _
  rw [decodeRow_12 m]
  simp [decodeCvt, r, b0, b1]

theorem RoundTrip.sideSet (f : RRnd) : RoundTrip.Statement (.sideSet f) := by
  intro _ hk
  have wf : Instr.WF (.sideSet f) := of_decide_eq_true hk
  refine decode_of_row ?_ hk
  obtain ⟨m, b0, b1, r⟩ := RRnd.laid f wf.1 _ _ 12 0 26 rfl rfl (by decide) (by decide) (by decide)
  change decodeRow (0x3000D000 + f.place) = _
  rw [decodeRow_12 m]
  simp [decodeCvt, r, b0, b1]

theorem RoundTrip.ivmk (f : R3) : RoundTrip.Statement (.ivmk f) := by
  intro _ hk
  have wf : Instr.WF (.ivmk f) := of_decide_eq_true hk
  refine decode_of_row ?_ hk
  obtain ⟨m, b0, r⟩ := R3.laid f wf _ _ 13 0 rfl rfl (by decide) (by decide)
  change decodeRow (0x34000000 + f.place) = _
  rw [decodeRow_13 m]
  simp [decodeIval, r, b0]

theorem RoundTrip.ivhull (f : R3) : RoundTrip.Statement (.ivhull f) := by
  intro _ hk
  have wf : Instr.WF (.ivhull f) := of_decide_eq_true hk
  refine decode_of_row ?_ hk
  obtain ⟨m, b0, r⟩ := R3.laid f wf _ _ 13 1 rfl rfl (by decide) (by decide)
  change decodeRow (0x34000001 + f.place) = _
  rw [decodeRow_13 m]
  simp [decodeIval, r, b0]

theorem RoundTrip.ivmeet (f : R3) : RoundTrip.Statement (.ivmeet f) := by
  intro _ hk
  have wf : Instr.WF (.ivmeet f) := of_decide_eq_true hk
  refine decode_of_row ?_ hk
  obtain ⟨m, b0, r⟩ := R3.laid f wf _ _ 13 2 rfl rfl (by decide) (by decide)
  change decodeRow (0x34000002 + f.place) = _
  rw [decodeRow_13 m]
  simp [decodeIval, r, b0]

theorem RoundTrip.ivsqr (f : R1) : RoundTrip.Statement (.ivsqr f) := by
  intro _ hk
  have wf : Instr.WF (.ivsqr f) := of_decide_eq_true hk
  refine decode_of_row ?_ hk
  obtain ⟨m, b0, b1, b2, r⟩ := R1.laid f wf _ _ 13 3 0 0 rfl rfl (by decide) (by decide) (by decide) (by decide)
  change decodeRow (0x34000003 + f.place) = _
  rw [decodeRow_13 m]
  simp [decodeIval, r, b0, b1, b2]

theorem RoundTrip.ivmid (f : R1) : RoundTrip.Statement (.ivmid f) := by
  intro _ hk
  have wf : Instr.WF (.ivmid f) := of_decide_eq_true hk
  refine decode_of_row ?_ hk
  obtain ⟨m, b0, b1, b2, r⟩ := R1.laid f wf _ _ 13 4 0 0 rfl rfl (by decide) (by decide) (by decide) (by decide)
  change decodeRow (0x34000004 + f.place) = _
  rw [decodeRow_13 m]
  simp [decodeIval, r, b0, b1, b2]

theorem RoundTrip.ivrad (f : R1) : RoundTrip.Statement (.ivrad f) := by
  intro _ hk
  have wf : Instr.WF (.ivrad f) := of_decide_eq_true hk
  refine decode_of_row ?_ hk
  obtain ⟨m, b0, b1, b2, r⟩ := R1.laid f wf _ _ 13 5 0 0 rfl rfl (by decide) (by decide) (by decide) (by decide)
  change decodeRow (0x34000005 + f.place) = _
  rw [decodeRow_13 m]
  simp [decodeIval, r, b0, b1, b2]

theorem RoundTrip.ivsplit (f : R1) : RoundTrip.Statement (.ivsplit f) := by
  intro _ hk
  have wf : Instr.WF (.ivsplit f) := of_decide_eq_true hk
  refine decode_of_row ?_ hk
  obtain ⟨m, b0, b1, b2, r⟩ := R1.laid f wf _ _ 13 6 0 0 rfl rfl (by decide) (by decide) (by decide) (by decide)
  change decodeRow (0x34000006 + f.place) = _
  rw [decodeRow_13 m]
  simp [decodeIval, r, b0, b1, b2]

theorem RoundTrip.ivpown (f : R3) : RoundTrip.Statement (.ivpown f) := by
  intro _ hk
  have wf : Instr.WF (.ivpown f) := of_decide_eq_true hk
  refine decode_of_row ?_ hk
  obtain ⟨m, b0, r⟩ := R3.laid f wf _ _ 13 7 rfl rfl (by decide) (by decide)
  change decodeRow (0x34000007 + f.place) = _
  rw [decodeRow_13 m]
  simp [decodeIval, r, b0]

theorem RoundTrip.clt (f : RCmp) : RoundTrip.Statement (.clt f) := by
  intro _ hk
  have wf : Instr.WF (.clt f) := of_decide_eq_true hk
  refine decode_of_row ?_ hk
  obtain ⟨m, b0, b1, r⟩ := RCmp.laid f wf _ _ 14 0 0 rfl rfl (by decide) (by decide) (by decide)
  change decodeRow (0x38000000 + f.place) = _
  rw [decodeRow_14 m]
  simp [decodeIvcmp, r, b0, b1]

theorem RoundTrip.cle (f : RCmp) : RoundTrip.Statement (.cle f) := by
  intro _ hk
  have wf : Instr.WF (.cle f) := of_decide_eq_true hk
  refine decode_of_row ?_ hk
  obtain ⟨m, b0, b1, r⟩ := RCmp.laid f wf _ _ 14 1 0 rfl rfl (by decide) (by decide) (by decide)
  change decodeRow (0x38000001 + f.place) = _
  rw [decodeRow_14 m]
  simp [decodeIvcmp, r, b0, b1]

theorem RoundTrip.ceq (f : RCmp) : RoundTrip.Statement (.ceq f) := by
  intro _ hk
  have wf : Instr.WF (.ceq f) := of_decide_eq_true hk
  refine decode_of_row ?_ hk
  obtain ⟨m, b0, b1, r⟩ := RCmp.laid f wf _ _ 14 2 0 rfl rfl (by decide) (by decide) (by decide)
  change decodeRow (0x38000002 + f.place) = _
  rw [decodeRow_14 m]
  simp [decodeIvcmp, r, b0, b1]

theorem RoundTrip.subset (f : RCmp) : RoundTrip.Statement (.subset f) := by
  intro _ hk
  have wf : Instr.WF (.subset f) := of_decide_eq_true hk
  refine decode_of_row ?_ hk
  obtain ⟨m, b0, b1, r⟩ := RCmp.laid f wf _ _ 14 3 0 rfl rfl (by decide) (by decide) (by decide)
  change decodeRow (0x38000003 + f.place) = _
  rw [decodeRow_14 m]
  simp [decodeIvcmp, r, b0, b1]

theorem RoundTrip.contains (f : RCmp) : RoundTrip.Statement (.contains f) := by
  intro _ hk
  have wf : Instr.WF (.contains f) := of_decide_eq_true hk
  refine decode_of_row ?_ hk
  obtain ⟨m, b0, b1, r⟩ := RCmp.laid f wf _ _ 14 4 0 rfl rfl (by decide) (by decide) (by decide)
  change decodeRow (0x38000004 + f.place) = _
  rw [decodeRow_14 m]
  simp [decodeIvcmp, r, b0, b1]

theorem RoundTrip.disjoint (f : RCmp) : RoundTrip.Statement (.disjoint f) := by
  intro _ hk
  have wf : Instr.WF (.disjoint f) := of_decide_eq_true hk
  refine decode_of_row ?_ hk
  obtain ⟨m, b0, b1, r⟩ := RCmp.laid f wf _ _ 14 5 0 rfl rfl (by decide) (by decide) (by decide)
  change decodeRow (0x38000005 + f.place) = _
  rw [decodeRow_14 m]
  simp [decodeIvcmp, r, b0, b1]

theorem RoundTrip.zin (f : RCmp1) : RoundTrip.Statement (.zin f) := by
  intro _ hk
  have wf : Instr.WF (.zin f) := of_decide_eq_true hk
  refine decode_of_row ?_ hk
  obtain ⟨m, b0, b1, b2, b3, r⟩ := RCmp1.laid f wf _ _ 14 6 0 0 0 rfl rfl (by decide) (by decide) (by decide) (by decide) (by decide)
  change decodeRow (0x38000006 + f.place) = _
  rw [decodeRow_14 m]
  simp [decodeIvcmp, r, b0, b1, b2, b3]

theorem RoundTrip.qand (f : RQ2) : RoundTrip.Statement (.qand f) := by
  intro _ hk
  have wf : Instr.WF (.qand f) := of_decide_eq_true hk
  refine decode_of_row ?_ hk
  obtain ⟨m, b0, b1, b2, b3, b4, r⟩ := RQ2.laid f wf _ _ 15 0 0 0 0 0 rfl rfl (by decide) (by decide) (by decide) (by decide) (by decide) (by decide)
  change decodeRow (0x3C000000 + f.place) = _
  rw [decodeRow_15 m]
  simp [decodeQlogic, r, b0, b1, b2, b3, b4]

theorem RoundTrip.qor (f : RQ2) : RoundTrip.Statement (.qor f) := by
  intro _ hk
  have wf : Instr.WF (.qor f) := of_decide_eq_true hk
  refine decode_of_row ?_ hk
  obtain ⟨m, b0, b1, b2, b3, b4, r⟩ := RQ2.laid f wf _ _ 15 1 0 0 0 0 rfl rfl (by decide) (by decide) (by decide) (by decide) (by decide) (by decide)
  change decodeRow (0x3C000001 + f.place) = _
  rw [decodeRow_15 m]
  simp [decodeQlogic, r, b0, b1, b2, b3, b4]

theorem RoundTrip.qnot (f : RQ1) : RoundTrip.Statement (.qnot f) := by
  intro _ hk
  have wf : Instr.WF (.qnot f) := of_decide_eq_true hk
  refine decode_of_row ?_ hk
  obtain ⟨m, b0, b1, b2, b3, r⟩ := RQ1.laid f wf _ _ 15 2 0 0 0 rfl rfl (by decide) (by decide) (by decide) (by decide) (by decide)
  change decodeRow (0x3C000002 + f.place) = _
  rw [decodeRow_15 m]
  simp [decodeQlogic, r, b0, b1, b2, b3]

theorem RoundTrip.qxor (f : RQ2) : RoundTrip.Statement (.qxor f) := by
  intro _ hk
  have wf : Instr.WF (.qxor f) := of_decide_eq_true hk
  refine decode_of_row ?_ hk
  obtain ⟨m, b0, b1, b2, b3, b4, r⟩ := RQ2.laid f wf _ _ 15 3 0 0 0 0 rfl rfl (by decide) (by decide) (by decide) (by decide) (by decide) (by decide)
  change decodeRow (0x3C000003 + f.place) = _
  rw [decodeRow_15 m]
  simp [decodeQlogic, r, b0, b1, b2, b3, b4]

theorem RoundTrip.qmov (f : RQ1) : RoundTrip.Statement (.qmov f) := by
  intro _ hk
  have wf : Instr.WF (.qmov f) := of_decide_eq_true hk
  refine decode_of_row ?_ hk
  obtain ⟨m, b0, b1, b2, b3, r⟩ := RQ1.laid f wf _ _ 15 4 0 0 0 rfl rfl (by decide) (by decide) (by decide) (by decide) (by decide)
  change decodeRow (0x3C000004 + f.place) = _
  rw [decodeRow_15 m]
  simp [decodeQlogic, r, b0, b1, b2, b3]

theorem RoundTrip.qdef (f : RQ1) : RoundTrip.Statement (.qdef f) := by
  intro _ hk
  have wf : Instr.WF (.qdef f) := of_decide_eq_true hk
  refine decode_of_row ?_ hk
  obtain ⟨m, b0, b1, b2, b3, r⟩ := RQ1.laid f wf _ _ 15 5 0 0 0 rfl rfl (by decide) (by decide) (by decide) (by decide) (by decide)
  change decodeRow (0x3C000005 + f.place) = _
  rw [decodeRow_15 m]
  simp [decodeQlogic, r, b0, b1, b2, b3]

theorem RoundTrip.qcons (f : RQ2) : RoundTrip.Statement (.qcons f) := by
  intro _ hk
  have wf : Instr.WF (.qcons f) := of_decide_eq_true hk
  refine decode_of_row ?_ hk
  obtain ⟨m, b0, b1, b2, b3, b4, r⟩ := RQ2.laid f wf _ _ 15 6 0 0 0 0 rfl rfl (by decide) (by decide) (by decide) (by decide) (by decide) (by decide)
  change decodeRow (0x3C000006 + f.place) = _
  rw [decodeRow_15 m]
  simp [decodeQlogic, r, b0, b1, b2, b3, b4]

theorem RoundTrip.qset (f : RQSet) : RoundTrip.Statement (.qset f) := by
  intro _ hk
  have wf : Instr.WF (.qset f) := of_decide_eq_true hk
  refine decode_of_row ?_ hk
  obtain ⟨m, b0, b1, b2, b3, r⟩ := RQSet.laid f wf.1 _ _ 15 7 0 0 0 rfl rfl (by decide) (by decide) (by decide) (by decide) (by decide)
  change decodeRow (0x3C000007 + f.place) = _
  rw [decodeRow_15 m]
  simp [decodeQlogic, r, b0, b1, b2, b3]

theorem RoundTrip.br (c q k o : Nat) : RoundTrip.Statement (.br c q k o) := by
  intro _ hk
  have wf : Instr.WF (.br c q k o) := of_decide_eq_true hk
  refine decode_of_row ?_ hk
  change decodeRow (0x40000000 + c * 2147483648 + q * 8388608 + k * 2097152 + o) = _
  simp only [Instr.WF] at wf
  obtain ⟨l0, l1, l2, l3⟩ := wf
  obtain ⟨w, hw⟩ : ∃ w, w = o + 2 ^ 21 * (k + 2 ^ 2 * (q + 2 ^ 3 * (16 + 2 ^ 5 * (c)))) := ⟨_, rfl⟩
  have he : 0x40000000 + c * 2147483648 + q * 8388608 + k * 2097152 + o = w := by rw [hw]; simp only [Nat.mul_add, ← Nat.mul_assoc, Nat.reducePow, Nat.reduceMul]; omega
  rw [he]
  have e0 : bits w 0 21 = o := hw ▸ (hit l3)
  have e1 : bits w 21 2 = k := hw ▸ (skip l3 (by decide) (hit l2))
  have e2 : bits w 23 3 = q := hw ▸ (skip l3 (by decide) (skip l2 (by decide) (hit l1)))
  have e3 : bits w 26 5 = 16 := hw ▸ (skip l3 (by decide) (skip l2 (by decide) (skip l1 (by decide) (hit (by decide)))))
  have e4 : bits w 31 1 = c := hw ▸ (skip l3 (by decide) (skip l2 (by decide) (skip l1 (by decide) (skip (by decide) (by decide) (whole l0)))))
  rw [decodeRow_16 e3]
  simp [decodeBr, e0, e1, e2, e3, e4]

theorem RoundTrip.call (c d o : Nat) : RoundTrip.Statement (.call c d o) := by
  intro _ hk
  have wf : Instr.WF (.call c d o) := of_decide_eq_true hk
  refine decode_of_row ?_ hk
  change decodeRow (0x44000000 + c * 2147483648 + d * 32768 + o) = _
  simp only [Instr.WF] at wf
  obtain ⟨l0, l1, l2⟩ := wf
  obtain ⟨w, hw⟩ : ∃ w, w = o + 2 ^ 15 * (d + 2 ^ 5 * (0 + 2 ^ 6 * (17 + 2 ^ 5 * (c)))) := ⟨_, rfl⟩
  have he : 0x44000000 + c * 2147483648 + d * 32768 + o = w := by rw [hw]; simp only [Nat.mul_add, ← Nat.mul_assoc, Nat.reducePow, Nat.reduceMul]; omega
  rw [he]
  have e0 : bits w 0 15 = o := hw ▸ (hit l2)
  have e1 : bits w 15 5 = d := hw ▸ (skip l2 (by decide) (hit l1))
  have e2 : bits w 20 6 = 0 := hw ▸ (skip l2 (by decide) (skip l1 (by decide) (hit (by decide))))
  have e3 : bits w 26 5 = 17 := hw ▸ (skip l2 (by decide) (skip l1 (by decide) (skip (by decide) (by decide) (hit (by decide)))))
  have e4 : bits w 31 1 = c := hw ▸ (skip l2 (by decide) (skip l1 (by decide) (skip (by decide) (by decide) (skip (by decide) (by decide) (whole l0)))))
  rw [decodeRow_17 e3]
  simp [decodeCtl, e0, e1, e2, e3, e4]

theorem RoundTrip.ret (c a : Nat) : RoundTrip.Statement (.ret c a) := by
  intro _ hk
  have wf : Instr.WF (.ret c a) := of_decide_eq_true hk
  refine decode_of_row ?_ hk
  change decodeRow (0x44100000 + c * 2147483648 + a * 1024) = _
  simp only [Instr.WF] at wf
  obtain ⟨l0, l1⟩ := wf
  obtain ⟨w, hw⟩ : ∃ w, w = 0 + 2 ^ 3 * (0 + 2 ^ 2 * (0 + 2 ^ 5 * (a + 2 ^ 5 * (0 + 2 ^ 5 * (1 + 2 ^ 6 * (17 + 2 ^ 5 * (c))))))) := ⟨_, rfl⟩
  have he : 0x44100000 + c * 2147483648 + a * 1024 = w := by rw [hw]; simp only [Nat.mul_add, ← Nat.mul_assoc, Nat.reducePow, Nat.reduceMul]; omega
  rw [he]
  have e0 : bits w 0 3 = 0 := hw ▸ (hit (by decide))
  have e1 : bits w 3 2 = 0 := hw ▸ (skip (by decide) (by decide) (hit (by decide)))
  have e2 : bits w 5 5 = 0 := hw ▸ (skip (by decide) (by decide) (skip (by decide) (by decide) (hit (by decide))))
  have e3 : bits w 10 5 = a := hw ▸ (skip (by decide) (by decide) (skip (by decide) (by decide) (skip (by decide) (by decide) (hit l1))))
  have e4 : bits w 15 5 = 0 := hw ▸ (skip (by decide) (by decide) (skip (by decide) (by decide) (skip (by decide) (by decide) (skip l1 (by decide) (hit (by decide))))))
  have e5 : bits w 20 6 = 1 := hw ▸ (skip (by decide) (by decide) (skip (by decide) (by decide) (skip (by decide) (by decide) (skip l1 (by decide) (skip (by decide) (by decide) (hit (by decide)))))))
  have e6 : bits w 26 5 = 17 := hw ▸ (skip (by decide) (by decide) (skip (by decide) (by decide) (skip (by decide) (by decide) (skip l1 (by decide) (skip (by decide) (by decide) (skip (by decide) (by decide) (hit (by decide))))))))
  have e7 : bits w 31 1 = c := hw ▸ (skip (by decide) (by decide) (skip (by decide) (by decide) (skip (by decide) (by decide) (skip l1 (by decide) (skip (by decide) (by decide) (skip (by decide) (by decide) (skip (by decide) (by decide) (whole l0))))))))
  have e8 : bits w 0 10 = 0 := (bits_join e0 (bits_join e1 e2))
  have e9 : bits w 15 11 = 32 := (bits_join e4 e5)
  rw [decodeRow_17 e6]
  simp [decodeCtl, e0, e1, e2, e3, e4, e5, e6, e7, e8, e9]

theorem RoundTrip.jmpr (c d a l : Nat) : RoundTrip.Statement (.jmpr c d a l) := by
  intro _ hk
  have wf : Instr.WF (.jmpr c d a l) := of_decide_eq_true hk
  refine decode_of_row ?_ hk
  change decodeRow (0x44200000 + c * 2147483648 + d * 32768 + a * 1024 + l * 16) = _
  simp only [Instr.WF] at wf
  obtain ⟨l0, l1, l2, l3, _x0⟩ := wf
  obtain ⟨w, hw⟩ : ∃ w, w = 0 + 2 ^ 3 * (0 + 2 ^ 1 * (l + 2 ^ 1 * (0 + 2 ^ 5 * (a + 2 ^ 5 * (d + 2 ^ 5 * (2 + 2 ^ 6 * (17 + 2 ^ 5 * (c)))))))) := ⟨_, rfl⟩
  have he : 0x44200000 + c * 2147483648 + d * 32768 + a * 1024 + l * 16 = w := by rw [hw]; simp only [Nat.mul_add, ← Nat.mul_assoc, Nat.reducePow, Nat.reduceMul]; omega
  rw [he]
  have e0 : bits w 0 3 = 0 := hw ▸ (hit (by decide))
  have e1 : bits w 3 1 = 0 := hw ▸ (skip (by decide) (by decide) (hit (by decide)))
  have e2 : bits w 4 1 = l := hw ▸ (skip (by decide) (by decide) (skip (by decide) (by decide) (hit l3)))
  have e3 : bits w 5 5 = 0 := hw ▸ (skip (by decide) (by decide) (skip (by decide) (by decide) (skip l3 (by decide) (hit (by decide)))))
  have e4 : bits w 10 5 = a := hw ▸ (skip (by decide) (by decide) (skip (by decide) (by decide) (skip l3 (by decide) (skip (by decide) (by decide) (hit l2)))))
  have e5 : bits w 15 5 = d := hw ▸ (skip (by decide) (by decide) (skip (by decide) (by decide) (skip l3 (by decide) (skip (by decide) (by decide) (skip l2 (by decide) (hit l1))))))
  have e6 : bits w 20 6 = 2 := hw ▸ (skip (by decide) (by decide) (skip (by decide) (by decide) (skip l3 (by decide) (skip (by decide) (by decide) (skip l2 (by decide) (skip l1 (by decide) (hit (by decide))))))))
  have e7 : bits w 26 5 = 17 := hw ▸ (skip (by decide) (by decide) (skip (by decide) (by decide) (skip l3 (by decide) (skip (by decide) (by decide) (skip l2 (by decide) (skip l1 (by decide) (skip (by decide) (by decide) (hit (by decide)))))))))
  have e8 : bits w 31 1 = c := hw ▸ (skip (by decide) (by decide) (skip (by decide) (by decide) (skip l3 (by decide) (skip (by decide) (by decide) (skip l2 (by decide) (skip l1 (by decide) (skip (by decide) (by decide) (skip (by decide) (by decide) (whole l0)))))))))
  have e9 : bits w 15 11 ≠ 32 := apart (a := 5) (m := 6) (by decide) e6 (by decide)
  have e10 : bits w 0 4 = 0 := (bits_join e0 e1)
  rw [decodeRow_17 e7]
  simp [decodeCtl, e0, e1, e2, e3, e4, e5, e6, e7, e8, e9, e10]

theorem RoundTrip.splitj (c j : Nat) : RoundTrip.Statement (.splitj c j) := by
  intro _ hk
  have wf : Instr.WF (.splitj c j) := of_decide_eq_true hk
  refine decode_of_row ?_ hk
  change decodeRow (0x44300000 + c * 2147483648 + j * 32768) = _
  simp only [Instr.WF] at wf
  obtain ⟨l0, l1⟩ := wf
  obtain ⟨w, hw⟩ : ∃ w, w = 0 + 2 ^ 3 * (0 + 2 ^ 2 * (0 + 2 ^ 5 * (0 + 2 ^ 5 * (j + 2 ^ 4 * (0 + 2 ^ 1 * (3 + 2 ^ 6 * (17 + 2 ^ 5 * (c)))))))) := ⟨_, rfl⟩
  have he : 0x44300000 + c * 2147483648 + j * 32768 = w := by rw [hw]; simp only [Nat.mul_add, ← Nat.mul_assoc, Nat.reducePow, Nat.reduceMul]; omega
  rw [he]
  have e0 : bits w 0 3 = 0 := hw ▸ (hit (by decide))
  have e1 : bits w 3 2 = 0 := hw ▸ (skip (by decide) (by decide) (hit (by decide)))
  have e2 : bits w 5 5 = 0 := hw ▸ (skip (by decide) (by decide) (skip (by decide) (by decide) (hit (by decide))))
  have e3 : bits w 10 5 = 0 := hw ▸ (skip (by decide) (by decide) (skip (by decide) (by decide) (skip (by decide) (by decide) (hit (by decide)))))
  have e4 : bits w 15 4 = j := hw ▸ (skip (by decide) (by decide) (skip (by decide) (by decide) (skip (by decide) (by decide) (skip (by decide) (by decide) (hit l1)))))
  have e5 : bits w 19 1 = 0 := hw ▸ (skip (by decide) (by decide) (skip (by decide) (by decide) (skip (by decide) (by decide) (skip (by decide) (by decide) (skip l1 (by decide) (hit (by decide)))))))
  have e6 : bits w 20 6 = 3 := hw ▸ (skip (by decide) (by decide) (skip (by decide) (by decide) (skip (by decide) (by decide) (skip (by decide) (by decide) (skip l1 (by decide) (skip (by decide) (by decide) (hit (by decide))))))))
  have e7 : bits w 26 5 = 17 := hw ▸ (skip (by decide) (by decide) (skip (by decide) (by decide) (skip (by decide) (by decide) (skip (by decide) (by decide) (skip l1 (by decide) (skip (by decide) (by decide) (skip (by decide) (by decide) (hit (by decide)))))))))
  have e8 : bits w 31 1 = c := hw ▸ (skip (by decide) (by decide) (skip (by decide) (by decide) (skip (by decide) (by decide) (skip (by decide) (by decide) (skip l1 (by decide) (skip (by decide) (by decide) (skip (by decide) (by decide) (skip (by decide) (by decide) (whole l0)))))))))
  have e9 : bits w 15 11 ≠ 32 := apart (a := 5) (m := 6) (by decide) e6 (by decide)
  have e10 : bits w 0 15 = 0 := (bits_join e0 (bits_join e1 (bits_join e2 e3)))
  have e11 : bits w 19 7 = 6 := (bits_join e5 e6)
  rw [decodeRow_17 e7]
  simp [decodeCtl, e0, e1, e2, e3, e4, e5, e6, e7, e8, e9, e10, e11]

theorem RoundTrip.join (c j : Nat) : RoundTrip.Statement (.join c j) := by
  intro _ hk
  have wf : Instr.WF (.join c j) := of_decide_eq_true hk
  refine decode_of_row ?_ hk
  change decodeRow (0x44400000 + c * 2147483648 + j * 32768) = _
  simp only [Instr.WF] at wf
  obtain ⟨l0, l1⟩ := wf
  obtain ⟨w, hw⟩ : ∃ w, w = 0 + 2 ^ 3 * (0 + 2 ^ 2 * (0 + 2 ^ 5 * (0 + 2 ^ 5 * (j + 2 ^ 4 * (0 + 2 ^ 1 * (4 + 2 ^ 6 * (17 + 2 ^ 5 * (c)))))))) := ⟨_, rfl⟩
  have he : 0x44400000 + c * 2147483648 + j * 32768 = w := by rw [hw]; simp only [Nat.mul_add, ← Nat.mul_assoc, Nat.reducePow, Nat.reduceMul]; omega
  rw [he]
  have e0 : bits w 0 3 = 0 := hw ▸ (hit (by decide))
  have e1 : bits w 3 2 = 0 := hw ▸ (skip (by decide) (by decide) (hit (by decide)))
  have e2 : bits w 5 5 = 0 := hw ▸ (skip (by decide) (by decide) (skip (by decide) (by decide) (hit (by decide))))
  have e3 : bits w 10 5 = 0 := hw ▸ (skip (by decide) (by decide) (skip (by decide) (by decide) (skip (by decide) (by decide) (hit (by decide)))))
  have e4 : bits w 15 4 = j := hw ▸ (skip (by decide) (by decide) (skip (by decide) (by decide) (skip (by decide) (by decide) (skip (by decide) (by decide) (hit l1)))))
  have e5 : bits w 19 1 = 0 := hw ▸ (skip (by decide) (by decide) (skip (by decide) (by decide) (skip (by decide) (by decide) (skip (by decide) (by decide) (skip l1 (by decide) (hit (by decide)))))))
  have e6 : bits w 20 6 = 4 := hw ▸ (skip (by decide) (by decide) (skip (by decide) (by decide) (skip (by decide) (by decide) (skip (by decide) (by decide) (skip l1 (by decide) (skip (by decide) (by decide) (hit (by decide))))))))
  have e7 : bits w 26 5 = 17 := hw ▸ (skip (by decide) (by decide) (skip (by decide) (by decide) (skip (by decide) (by decide) (skip (by decide) (by decide) (skip l1 (by decide) (skip (by decide) (by decide) (skip (by decide) (by decide) (hit (by decide)))))))))
  have e8 : bits w 31 1 = c := hw ▸ (skip (by decide) (by decide) (skip (by decide) (by decide) (skip (by decide) (by decide) (skip (by decide) (by decide) (skip l1 (by decide) (skip (by decide) (by decide) (skip (by decide) (by decide) (skip (by decide) (by decide) (whole l0)))))))))
  have e9 : bits w 15 11 ≠ 32 := apart (a := 5) (m := 6) (by decide) e6 (by decide)
  have e10 : bits w 19 7 ≠ 6 := apart (a := 1) (m := 6) (by decide) e6 (by decide)
  have e11 : bits w 0 15 = 0 := (bits_join e0 (bits_join e1 (bits_join e2 e3)))
  have e12 : bits w 19 7 = 8 := (bits_join e5 e6)
  rw [decodeRow_17 e7]
  simp [decodeCtl, e0, e1, e2, e3, e4, e5, e6, e7, e8, e9, e10, e11, e12]

theorem RoundTrip.exit (c : Nat) : RoundTrip.Statement (.exit c) := by
  intro _ hk
  have wf : Instr.WF (.exit c) := of_decide_eq_true hk
  refine decode_of_row ?_ hk
  change decodeRow (0x44500000 + c * 2147483648) = _
  simp only [Instr.WF] at wf
  have l0 := wf
  obtain ⟨w, hw⟩ : ∃ w, w = 0 + 2 ^ 3 * (0 + 2 ^ 2 * (0 + 2 ^ 5 * (0 + 2 ^ 5 * (0 + 2 ^ 5 * (5 + 2 ^ 6 * (17 + 2 ^ 5 * (c))))))) := ⟨_, rfl⟩
  have he : 0x44500000 + c * 2147483648 = w := by rw [hw]; simp only [Nat.mul_add, ← Nat.mul_assoc, Nat.reducePow, Nat.reduceMul]; omega
  rw [he]
  have e0 : bits w 0 3 = 0 := hw ▸ (hit (by decide))
  have e1 : bits w 3 2 = 0 := hw ▸ (skip (by decide) (by decide) (hit (by decide)))
  have e2 : bits w 5 5 = 0 := hw ▸ (skip (by decide) (by decide) (skip (by decide) (by decide) (hit (by decide))))
  have e3 : bits w 10 5 = 0 := hw ▸ (skip (by decide) (by decide) (skip (by decide) (by decide) (skip (by decide) (by decide) (hit (by decide)))))
  have e4 : bits w 15 5 = 0 := hw ▸ (skip (by decide) (by decide) (skip (by decide) (by decide) (skip (by decide) (by decide) (skip (by decide) (by decide) (hit (by decide))))))
  have e5 : bits w 20 6 = 5 := hw ▸ (skip (by decide) (by decide) (skip (by decide) (by decide) (skip (by decide) (by decide) (skip (by decide) (by decide) (skip (by decide) (by decide) (hit (by decide)))))))
  have e6 : bits w 26 5 = 17 := hw ▸ (skip (by decide) (by decide) (skip (by decide) (by decide) (skip (by decide) (by decide) (skip (by decide) (by decide) (skip (by decide) (by decide) (skip (by decide) (by decide) (hit (by decide))))))))
  have e7 : bits w 31 1 = c := hw ▸ (skip (by decide) (by decide) (skip (by decide) (by decide) (skip (by decide) (by decide) (skip (by decide) (by decide) (skip (by decide) (by decide) (skip (by decide) (by decide) (skip (by decide) (by decide) (whole l0))))))))
  have e8 : bits w 15 11 ≠ 32 := apart (a := 5) (m := 6) (by decide) e5 (by decide)
  have e9 : bits w 19 7 ≠ 6 := apart (a := 1) (m := 6) (by decide) e5 (by decide)
  have e10 : bits w 19 7 ≠ 8 := apart (a := 1) (m := 6) (by decide) e5 (by decide)
  have e11 : bits w 0 26 = 5242880 := (bits_join e0 (bits_join e1 (bits_join e2 (bits_join e3 (bits_join e4 e5)))))
  rw [decodeRow_17 e6]
  simp [decodeCtl, e0, e1, e2, e3, e4, e5, e6, e7, e8, e9, e10, e11]

theorem RoundTrip.yield (c : Nat) : RoundTrip.Statement (.yield c) := by
  intro _ hk
  have wf : Instr.WF (.yield c) := of_decide_eq_true hk
  refine decode_of_row ?_ hk
  change decodeRow (0x44600000 + c * 2147483648) = _
  simp only [Instr.WF] at wf
  have l0 := wf
  obtain ⟨w, hw⟩ : ∃ w, w = 0 + 2 ^ 3 * (0 + 2 ^ 2 * (0 + 2 ^ 5 * (0 + 2 ^ 5 * (0 + 2 ^ 5 * (6 + 2 ^ 6 * (17 + 2 ^ 5 * (c))))))) := ⟨_, rfl⟩
  have he : 0x44600000 + c * 2147483648 = w := by rw [hw]; simp only [Nat.mul_add, ← Nat.mul_assoc, Nat.reducePow, Nat.reduceMul]; omega
  rw [he]
  have e0 : bits w 0 3 = 0 := hw ▸ (hit (by decide))
  have e1 : bits w 3 2 = 0 := hw ▸ (skip (by decide) (by decide) (hit (by decide)))
  have e2 : bits w 5 5 = 0 := hw ▸ (skip (by decide) (by decide) (skip (by decide) (by decide) (hit (by decide))))
  have e3 : bits w 10 5 = 0 := hw ▸ (skip (by decide) (by decide) (skip (by decide) (by decide) (skip (by decide) (by decide) (hit (by decide)))))
  have e4 : bits w 15 5 = 0 := hw ▸ (skip (by decide) (by decide) (skip (by decide) (by decide) (skip (by decide) (by decide) (skip (by decide) (by decide) (hit (by decide))))))
  have e5 : bits w 20 6 = 6 := hw ▸ (skip (by decide) (by decide) (skip (by decide) (by decide) (skip (by decide) (by decide) (skip (by decide) (by decide) (skip (by decide) (by decide) (hit (by decide)))))))
  have e6 : bits w 26 5 = 17 := hw ▸ (skip (by decide) (by decide) (skip (by decide) (by decide) (skip (by decide) (by decide) (skip (by decide) (by decide) (skip (by decide) (by decide) (skip (by decide) (by decide) (hit (by decide))))))))
  have e7 : bits w 31 1 = c := hw ▸ (skip (by decide) (by decide) (skip (by decide) (by decide) (skip (by decide) (by decide) (skip (by decide) (by decide) (skip (by decide) (by decide) (skip (by decide) (by decide) (skip (by decide) (by decide) (whole l0))))))))
  have e8 : bits w 15 11 ≠ 32 := apart (a := 5) (m := 6) (by decide) e5 (by decide)
  have e9 : bits w 19 7 ≠ 6 := apart (a := 1) (m := 6) (by decide) e5 (by decide)
  have e10 : bits w 19 7 ≠ 8 := apart (a := 1) (m := 6) (by decide) e5 (by decide)
  have e11 : bits w 0 26 ≠ 5242880 := apart (a := 20) (m := 6) (by decide) e5 (by decide)
  have e12 : bits w 0 26 = 6291456 := (bits_join e0 (bits_join e1 (bits_join e2 (bits_join e3 (bits_join e4 e5)))))
  rw [decodeRow_17 e6]
  simp [decodeCtl, e0, e1, e2, e3, e4, e5, e6, e7, e8, e9, e10, e11, e12]

theorem RoundTrip.jmaskGet (c j d : Nat) : RoundTrip.Statement (.jmaskGet c j d) := by
  intro _ hk
  have wf : Instr.WF (.jmaskGet c j d) := of_decide_eq_true hk
  refine decode_of_row ?_ hk
  change decodeRow (0x44700000 + c * 2147483648 + j * 32768 + d * 1024) = _
  simp only [Instr.WF] at wf
  obtain ⟨l0, l1, l2⟩ := wf
  obtain ⟨w, hw⟩ : ∃ w, w = 0 + 2 ^ 3 * (0 + 2 ^ 2 * (0 + 2 ^ 5 * (d + 2 ^ 5 * (j + 2 ^ 4 * (0 + 2 ^ 1 * (7 + 2 ^ 6 * (17 + 2 ^ 5 * (c)))))))) := ⟨_, rfl⟩
  have he : 0x44700000 + c * 2147483648 + j * 32768 + d * 1024 = w := by rw [hw]; simp only [Nat.mul_add, ← Nat.mul_assoc, Nat.reducePow, Nat.reduceMul]; omega
  rw [he]
  have e0 : bits w 0 3 = 0 := hw ▸ (hit (by decide))
  have e1 : bits w 3 2 = 0 := hw ▸ (skip (by decide) (by decide) (hit (by decide)))
  have e2 : bits w 5 5 = 0 := hw ▸ (skip (by decide) (by decide) (skip (by decide) (by decide) (hit (by decide))))
  have e3 : bits w 10 5 = d := hw ▸ (skip (by decide) (by decide) (skip (by decide) (by decide) (skip (by decide) (by decide) (hit l2))))
  have e4 : bits w 15 4 = j := hw ▸ (skip (by decide) (by decide) (skip (by decide) (by decide) (skip (by decide) (by decide) (skip l2 (by decide) (hit l1)))))
  have e5 : bits w 19 1 = 0 := hw ▸ (skip (by decide) (by decide) (skip (by decide) (by decide) (skip (by decide) (by decide) (skip l2 (by decide) (skip l1 (by decide) (hit (by decide)))))))
  have e6 : bits w 20 6 = 7 := hw ▸ (skip (by decide) (by decide) (skip (by decide) (by decide) (skip (by decide) (by decide) (skip l2 (by decide) (skip l1 (by decide) (skip (by decide) (by decide) (hit (by decide))))))))
  have e7 : bits w 26 5 = 17 := hw ▸ (skip (by decide) (by decide) (skip (by decide) (by decide) (skip (by decide) (by decide) (skip l2 (by decide) (skip l1 (by decide) (skip (by decide) (by decide) (skip (by decide) (by decide) (hit (by decide)))))))))
  have e8 : bits w 31 1 = c := hw ▸ (skip (by decide) (by decide) (skip (by decide) (by decide) (skip (by decide) (by decide) (skip l2 (by decide) (skip l1 (by decide) (skip (by decide) (by decide) (skip (by decide) (by decide) (skip (by decide) (by decide) (whole l0)))))))))
  have e9 : bits w 15 11 ≠ 32 := apart (a := 5) (m := 6) (by decide) e6 (by decide)
  have e10 : bits w 19 7 ≠ 6 := apart (a := 1) (m := 6) (by decide) e6 (by decide)
  have e11 : bits w 19 7 ≠ 8 := apart (a := 1) (m := 6) (by decide) e6 (by decide)
  have e12 : bits w 0 26 ≠ 5242880 := apart (a := 20) (m := 6) (by decide) e6 (by decide)
  have e13 : bits w 0 26 ≠ 6291456 := apart (a := 20) (m := 6) (by decide) e6 (by decide)
  have e14 : bits w 0 10 = 0 := (bits_join e0 (bits_join e1 e2))
  have e15 : bits w 19 7 = 14 := (bits_join e5 e6)
  rw [decodeRow_17 e7]
  simp [decodeCtl, e0, e1, e2, e3, e4, e5, e6, e7, e8, e9, e10, e11, e12, e13, e14, e15]

theorem RoundTrip.jmaskSet (c j a : Nat) : RoundTrip.Statement (.jmaskSet c j a) := by
  intro _ hk
  have wf : Instr.WF (.jmaskSet c j a) := of_decide_eq_true hk
  refine decode_of_row ?_ hk
  change decodeRow (0x44700001 + c * 2147483648 + j * 32768 + a * 1024) = _
  simp only [Instr.WF] at wf
  obtain ⟨l0, l1, l2⟩ := wf
  obtain ⟨w, hw⟩ : ∃ w, w = 1 + 2 ^ 3 * (0 + 2 ^ 2 * (0 + 2 ^ 5 * (a + 2 ^ 5 * (j + 2 ^ 4 * (0 + 2 ^ 1 * (7 + 2 ^ 6 * (17 + 2 ^ 5 * (c)))))))) := ⟨_, rfl⟩
  have he : 0x44700001 + c * 2147483648 + j * 32768 + a * 1024 = w := by rw [hw]; simp only [Nat.mul_add, ← Nat.mul_assoc, Nat.reducePow, Nat.reduceMul]; omega
  rw [he]
  have e0 : bits w 0 3 = 1 := hw ▸ (hit (by decide))
  have e1 : bits w 3 2 = 0 := hw ▸ (skip (by decide) (by decide) (hit (by decide)))
  have e2 : bits w 5 5 = 0 := hw ▸ (skip (by decide) (by decide) (skip (by decide) (by decide) (hit (by decide))))
  have e3 : bits w 10 5 = a := hw ▸ (skip (by decide) (by decide) (skip (by decide) (by decide) (skip (by decide) (by decide) (hit l2))))
  have e4 : bits w 15 4 = j := hw ▸ (skip (by decide) (by decide) (skip (by decide) (by decide) (skip (by decide) (by decide) (skip l2 (by decide) (hit l1)))))
  have e5 : bits w 19 1 = 0 := hw ▸ (skip (by decide) (by decide) (skip (by decide) (by decide) (skip (by decide) (by decide) (skip l2 (by decide) (skip l1 (by decide) (hit (by decide)))))))
  have e6 : bits w 20 6 = 7 := hw ▸ (skip (by decide) (by decide) (skip (by decide) (by decide) (skip (by decide) (by decide) (skip l2 (by decide) (skip l1 (by decide) (skip (by decide) (by decide) (hit (by decide))))))))
  have e7 : bits w 26 5 = 17 := hw ▸ (skip (by decide) (by decide) (skip (by decide) (by decide) (skip (by decide) (by decide) (skip l2 (by decide) (skip l1 (by decide) (skip (by decide) (by decide) (skip (by decide) (by decide) (hit (by decide)))))))))
  have e8 : bits w 31 1 = c := hw ▸ (skip (by decide) (by decide) (skip (by decide) (by decide) (skip (by decide) (by decide) (skip l2 (by decide) (skip l1 (by decide) (skip (by decide) (by decide) (skip (by decide) (by decide) (skip (by decide) (by decide) (whole l0)))))))))
  have e9 : bits w 0 10 ≠ 0 := apart (a := 0) (m := 3) (by decide) e0 (by decide)
  have e10 : bits w 0 4 ≠ 0 := apart (a := 0) (m := 3) (by decide) e0 (by decide)
  have e11 : bits w 0 15 ≠ 0 := apart (a := 0) (m := 3) (by decide) e0 (by decide)
  have e12 : bits w 0 26 ≠ 5242880 := apart (a := 0) (m := 3) (by decide) e0 (by decide)
  have e13 : bits w 0 26 ≠ 6291456 := apart (a := 0) (m := 3) (by decide) e0 (by decide)
  have e14 : bits w 0 10 = 1 := (bits_join e0 (bits_join e1 e2))
  have e15 : bits w 19 7 = 14 := (bits_join e5 e6)
  rw [decodeRow_17 e7]
  simp [decodeCtl, e0, e1, e2, e3, e4, e5, e6, e7, e8, e9, e10, e11, e12, e13, e14, e15]

theorem RoundTrip.jmaskAdd (c j : Nat) : RoundTrip.Statement (.jmaskAdd c j) := by
  intro _ hk
  have wf : Instr.WF (.jmaskAdd c j) := of_decide_eq_true hk
  refine decode_of_row ?_ hk
  change decodeRow (0x44700002 + c * 2147483648 + j * 32768) = _
  simp only [Instr.WF] at wf
  obtain ⟨l0, l1⟩ := wf
  obtain ⟨w, hw⟩ : ∃ w, w = 2 + 2 ^ 3 * (0 + 2 ^ 2 * (0 + 2 ^ 5 * (0 + 2 ^ 5 * (j + 2 ^ 4 * (0 + 2 ^ 1 * (7 + 2 ^ 6 * (17 + 2 ^ 5 * (c)))))))) := ⟨_, rfl⟩
  have he : 0x44700002 + c * 2147483648 + j * 32768 = w := by rw [hw]; simp only [Nat.mul_add, ← Nat.mul_assoc, Nat.reducePow, Nat.reduceMul]; omega
  rw [he]
  have e0 : bits w 0 3 = 2 := hw ▸ (hit (by decide))
  have e1 : bits w 3 2 = 0 := hw ▸ (skip (by decide) (by decide) (hit (by decide)))
  have e2 : bits w 5 5 = 0 := hw ▸ (skip (by decide) (by decide) (skip (by decide) (by decide) (hit (by decide))))
  have e3 : bits w 10 5 = 0 := hw ▸ (skip (by decide) (by decide) (skip (by decide) (by decide) (skip (by decide) (by decide) (hit (by decide)))))
  have e4 : bits w 15 4 = j := hw ▸ (skip (by decide) (by decide) (skip (by decide) (by decide) (skip (by decide) (by decide) (skip (by decide) (by decide) (hit l1)))))
  have e5 : bits w 19 1 = 0 := hw ▸ (skip (by decide) (by decide) (skip (by decide) (by decide) (skip (by decide) (by decide) (skip (by decide) (by decide) (skip l1 (by decide) (hit (by decide)))))))
  have e6 : bits w 20 6 = 7 := hw ▸ (skip (by decide) (by decide) (skip (by decide) (by decide) (skip (by decide) (by decide) (skip (by decide) (by decide) (skip l1 (by decide) (skip (by decide) (by decide) (hit (by decide))))))))
  have e7 : bits w 26 5 = 17 := hw ▸ (skip (by decide) (by decide) (skip (by decide) (by decide) (skip (by decide) (by decide) (skip (by decide) (by decide) (skip l1 (by decide) (skip (by decide) (by decide) (skip (by decide) (by decide) (hit (by decide)))))))))
  have e8 : bits w 31 1 = c := hw ▸ (skip (by decide) (by decide) (skip (by decide) (by decide) (skip (by decide) (by decide) (skip (by decide) (by decide) (skip l1 (by decide) (skip (by decide) (by decide) (skip (by decide) (by decide) (skip (by decide) (by decide) (whole l0)))))))))
  have e9 : bits w 0 10 ≠ 0 := apart (a := 0) (m := 3) (by decide) e0 (by decide)
  have e10 : bits w 0 4 ≠ 0 := apart (a := 0) (m := 3) (by decide) e0 (by decide)
  have e11 : bits w 0 15 ≠ 0 := apart (a := 0) (m := 3) (by decide) e0 (by decide)
  have e12 : bits w 0 26 ≠ 5242880 := apart (a := 0) (m := 3) (by decide) e0 (by decide)
  have e13 : bits w 0 26 ≠ 6291456 := apart (a := 0) (m := 3) (by decide) e0 (by decide)
  have e14 : bits w 0 10 ≠ 1 := apart (a := 0) (m := 3) (by decide) e0 (by decide)
  have e15 : bits w 0 15 = 2 := (bits_join e0 (bits_join e1 (bits_join e2 e3)))
  have e16 : bits w 19 7 = 14 := (bits_join e5 e6)
  rw [decodeRow_17 e7]
  simp [decodeCtl, e0, e1, e2, e3, e4, e5, e6, e7, e8, e9, e10, e11, e12, e13, e14, e15, e16]

theorem RoundTrip.jmaskDel (c j : Nat) : RoundTrip.Statement (.jmaskDel c j) := by
  intro _ hk
  have wf : Instr.WF (.jmaskDel c j) := of_decide_eq_true hk
  refine decode_of_row ?_ hk
  change decodeRow (0x44700003 + c * 2147483648 + j * 32768) = _
  simp only [Instr.WF] at wf
  obtain ⟨l0, l1⟩ := wf
  obtain ⟨w, hw⟩ : ∃ w, w = 3 + 2 ^ 3 * (0 + 2 ^ 2 * (0 + 2 ^ 5 * (0 + 2 ^ 5 * (j + 2 ^ 4 * (0 + 2 ^ 1 * (7 + 2 ^ 6 * (17 + 2 ^ 5 * (c)))))))) := ⟨_, rfl⟩
  have he : 0x44700003 + c * 2147483648 + j * 32768 = w := by rw [hw]; simp only [Nat.mul_add, ← Nat.mul_assoc, Nat.reducePow, Nat.reduceMul]; omega
  rw [he]
  have e0 : bits w 0 3 = 3 := hw ▸ (hit (by decide))
  have e1 : bits w 3 2 = 0 := hw ▸ (skip (by decide) (by decide) (hit (by decide)))
  have e2 : bits w 5 5 = 0 := hw ▸ (skip (by decide) (by decide) (skip (by decide) (by decide) (hit (by decide))))
  have e3 : bits w 10 5 = 0 := hw ▸ (skip (by decide) (by decide) (skip (by decide) (by decide) (skip (by decide) (by decide) (hit (by decide)))))
  have e4 : bits w 15 4 = j := hw ▸ (skip (by decide) (by decide) (skip (by decide) (by decide) (skip (by decide) (by decide) (skip (by decide) (by decide) (hit l1)))))
  have e5 : bits w 19 1 = 0 := hw ▸ (skip (by decide) (by decide) (skip (by decide) (by decide) (skip (by decide) (by decide) (skip (by decide) (by decide) (skip l1 (by decide) (hit (by decide)))))))
  have e6 : bits w 20 6 = 7 := hw ▸ (skip (by decide) (by decide) (skip (by decide) (by decide) (skip (by decide) (by decide) (skip (by decide) (by decide) (skip l1 (by decide) (skip (by decide) (by decide) (hit (by decide))))))))
  have e7 : bits w 26 5 = 17 := hw ▸ (skip (by decide) (by decide) (skip (by decide) (by decide) (skip (by decide) (by decide) (skip (by decide) (by decide) (skip l1 (by decide) (skip (by decide) (by decide) (skip (by decide) (by decide) (hit (by decide)))))))))
  have e8 : bits w 31 1 = c := hw ▸ (skip (by decide) (by decide) (skip (by decide) (by decide) (skip (by decide) (by decide) (skip (by decide) (by decide) (skip l1 (by decide) (skip (by decide) (by decide) (skip (by decide) (by decide) (skip (by decide) (by decide) (whole l0)))))))))
  have e9 : bits w 0 10 ≠ 0 := apart (a := 0) (m := 3) (by decide) e0 (by decide)
  have e10 : bits w 0 4 ≠ 0 := apart (a := 0) (m := 3) (by decide) e0 (by decide)
  have e11 : bits w 0 15 ≠ 0 := apart (a := 0) (m := 3) (by decide) e0 (by decide)
  have e12 : bits w 0 26 ≠ 5242880 := apart (a := 0) (m := 3) (by decide) e0 (by decide)
  have e13 : bits w 0 26 ≠ 6291456 := apart (a := 0) (m := 3) (by decide) e0 (by decide)
  have e14 : bits w 0 10 ≠ 1 := apart (a := 0) (m := 3) (by decide) e0 (by decide)
  have e15 : bits w 0 15 ≠ 2 := apart (a := 0) (m := 3) (by decide) e0 (by decide)
  have e16 : bits w 0 15 = 3 := (bits_join e0 (bits_join e1 (bits_join e2 e3)))
  have e17 : bits w 19 7 = 14 := (bits_join e5 e6)
  rw [decodeRow_17 e7]
  simp [decodeCtl, e0, e1, e2, e3, e4, e5, e6, e7, e8, e9, e10, e11, e12, e13, e14, e15, e16, e17]

theorem RoundTrip.jmaskClr (c j : Nat) : RoundTrip.Statement (.jmaskClr c j) := by
  intro _ hk
  have wf : Instr.WF (.jmaskClr c j) := of_decide_eq_true hk
  refine decode_of_row ?_ hk
  change decodeRow (0x44700004 + c * 2147483648 + j * 32768) = _
  simp only [Instr.WF] at wf
  obtain ⟨l0, l1⟩ := wf
  obtain ⟨w, hw⟩ : ∃ w, w = 4 + 2 ^ 3 * (0 + 2 ^ 2 * (0 + 2 ^ 5 * (0 + 2 ^ 5 * (j + 2 ^ 4 * (0 + 2 ^ 1 * (7 + 2 ^ 6 * (17 + 2 ^ 5 * (c)))))))) := ⟨_, rfl⟩
  have he : 0x44700004 + c * 2147483648 + j * 32768 = w := by rw [hw]; simp only [Nat.mul_add, ← Nat.mul_assoc, Nat.reducePow, Nat.reduceMul]; omega
  rw [he]
  have e0 : bits w 0 3 = 4 := hw ▸ (hit (by decide))
  have e1 : bits w 3 2 = 0 := hw ▸ (skip (by decide) (by decide) (hit (by decide)))
  have e2 : bits w 5 5 = 0 := hw ▸ (skip (by decide) (by decide) (skip (by decide) (by decide) (hit (by decide))))
  have e3 : bits w 10 5 = 0 := hw ▸ (skip (by decide) (by decide) (skip (by decide) (by decide) (skip (by decide) (by decide) (hit (by decide)))))
  have e4 : bits w 15 4 = j := hw ▸ (skip (by decide) (by decide) (skip (by decide) (by decide) (skip (by decide) (by decide) (skip (by decide) (by decide) (hit l1)))))
  have e5 : bits w 19 1 = 0 := hw ▸ (skip (by decide) (by decide) (skip (by decide) (by decide) (skip (by decide) (by decide) (skip (by decide) (by decide) (skip l1 (by decide) (hit (by decide)))))))
  have e6 : bits w 20 6 = 7 := hw ▸ (skip (by decide) (by decide) (skip (by decide) (by decide) (skip (by decide) (by decide) (skip (by decide) (by decide) (skip l1 (by decide) (skip (by decide) (by decide) (hit (by decide))))))))
  have e7 : bits w 26 5 = 17 := hw ▸ (skip (by decide) (by decide) (skip (by decide) (by decide) (skip (by decide) (by decide) (skip (by decide) (by decide) (skip l1 (by decide) (skip (by decide) (by decide) (skip (by decide) (by decide) (hit (by decide)))))))))
  have e8 : bits w 31 1 = c := hw ▸ (skip (by decide) (by decide) (skip (by decide) (by decide) (skip (by decide) (by decide) (skip (by decide) (by decide) (skip l1 (by decide) (skip (by decide) (by decide) (skip (by decide) (by decide) (skip (by decide) (by decide) (whole l0)))))))))
  have e9 : bits w 0 10 ≠ 0 := apart (a := 0) (m := 3) (by decide) e0 (by decide)
  have e10 : bits w 0 4 ≠ 0 := apart (a := 0) (m := 3) (by decide) e0 (by decide)
  have e11 : bits w 0 15 ≠ 0 := apart (a := 0) (m := 3) (by decide) e0 (by decide)
  have e12 : bits w 0 26 ≠ 5242880 := apart (a := 0) (m := 3) (by decide) e0 (by decide)
  have e13 : bits w 0 26 ≠ 6291456 := apart (a := 0) (m := 3) (by decide) e0 (by decide)
  have e14 : bits w 0 10 ≠ 1 := apart (a := 0) (m := 3) (by decide) e0 (by decide)
  have e15 : bits w 0 15 ≠ 2 := apart (a := 0) (m := 3) (by decide) e0 (by decide)
  have e16 : bits w 0 15 ≠ 3 := apart (a := 0) (m := 3) (by decide) e0 (by decide)
  have e17 : bits w 0 15 = 4 := (bits_join e0 (bits_join e1 (bits_join e2 e3)))
  have e18 : bits w 19 7 = 14 := (bits_join e5 e6)
  rw [decodeRow_17 e7]
  simp [decodeCtl, e0, e1, e2, e3, e4, e5, e6, e7, e8, e9, e10, e11, e12, e13, e14, e15, e16, e17, e18]

theorem RoundTrip.shfl (f : R3) : RoundTrip.Statement (.shfl f) := by
  intro _ hk
  have wf : Instr.WF (.shfl f) := of_decide_eq_true hk
  refine decode_of_row ?_ hk
  obtain ⟨m, b0, r⟩ := R3.laid f wf _ _ 18 0 rfl rfl (by decide) (by decide)
  change decodeRow (0x48000000 + f.place) = _
  rw [decodeRow_18 m]
  simp [decodeGroup, r, b0]

theorem RoundTrip.shflu (f : R3) : RoundTrip.Statement (.shflu f) := by
  intro _ hk
  have wf : Instr.WF (.shflu f) := of_decide_eq_true hk
  refine decode_of_row ?_ hk
  obtain ⟨m, b0, r⟩ := R3.laid f wf _ _ 18 1 rfl rfl (by decide) (by decide)
  change decodeRow (0x48000001 + f.place) = _
  rw [decodeRow_18 m]
  simp [decodeGroup, r, b0]

theorem RoundTrip.shfld (f : R3) : RoundTrip.Statement (.shfld f) := by
  intro _ hk
  have wf : Instr.WF (.shfld f) := of_decide_eq_true hk
  refine decode_of_row ?_ hk
  obtain ⟨m, b0, r⟩ := R3.laid f wf _ _ 18 2 rfl rfl (by decide) (by decide)
  change decodeRow (0x48000002 + f.place) = _
  rw [decodeRow_18 m]
  simp [decodeGroup, r, b0]

theorem RoundTrip.shflx (f : R3) : RoundTrip.Statement (.shflx f) := by
  intro _ hk
  have wf : Instr.WF (.shflx f) := of_decide_eq_true hk
  refine decode_of_row ?_ hk
  obtain ⟨m, b0, r⟩ := R3.laid f wf _ _ 18 3 rfl rfl (by decide) (by decide)
  change decodeRow (0x48000003 + f.place) = _
  rw [decodeRow_18 m]
  simp [decodeGroup, r, b0]

theorem RoundTrip.vote (c d q k g s : Nat) : RoundTrip.Statement (.vote c d q k g s) := by
  intro _ hk
  have wf : Instr.WF (.vote c d q k g s) := of_decide_eq_true hk
  refine decode_of_row ?_ hk
  change decodeRow (0x48000004 + c * 2147483648 + d * 2097152 + q * 65536 + k * 2048 + g * 64 + s * 8) = _
  simp only [Instr.WF] at wf
  obtain ⟨l0, l1, l2, l3, l4, l5⟩ := wf
  obtain ⟨w, hw⟩ : ∃ w, w = 4 + 2 ^ 3 * (s + 2 ^ 3 * (g + 2 ^ 3 * (0 + 2 ^ 1 * (0 + 2 ^ 1 * (k + 2 ^ 2 * (0 + 2 ^ 2 * (0 + 2 ^ 1 * (q + 2 ^ 3 * (0 + 2 ^ 1 * (0 + 2 ^ 1 * (d + 2 ^ 5 * (18 + 2 ^ 5 * (c))))))))))))) := ⟨_, rfl⟩
  have he : 0x48000004 + c * 2147483648 + d * 2097152 + q * 65536 + k * 2048 + g * 64 + s * 8 = w := by rw [hw]; simp only [Nat.mul_add, ← Nat.mul_assoc, Nat.reducePow, Nat.reduceMul]; omega
  rw [he]
  have e0 : bits w 0 3 = 4 := hw ▸ (hit (by decide))
  have e1 : bits w 3 3 = s := hw ▸ (skip (by decide) (by decide) (hit l5))
  have e2 : bits w 6 3 = g := hw ▸ (skip (by decide) (by decide) (skip l5 (by decide) (hit l4)))
  have e3 : bits w 9 1 = 0 := hw ▸ (skip (by decide) (by decide) (skip l5 (by decide) (skip l4 (by decide) (hit (by decide)))))
  have e4 : bits w 10 1 = 0 := hw ▸ (skip (by decide) (by decide) (skip l5 (by decide) (skip l4 (by decide) (skip (by decide) (by decide) (hit (by decide))))))
  have e5 : bits w 11 2 = k := hw ▸ (skip (by decide) (by decide) (skip l5 (by decide) (skip l4 (by decide) (skip (by decide) (by decide) (skip (by decide) (by decide) (hit l3))))))
  have e6 : bits w 13 2 = 0 := hw ▸ (skip (by decide) (by decide) (skip l5 (by decide) (skip l4 (by decide) (skip (by decide) (by decide) (skip (by decide) (by decide) (skip l3 (by decide) (hit (by decide))))))))
  have e7 : bits w 15 1 = 0 := hw ▸ (skip (by decide) (by decide) (skip l5 (by decide) (skip l4 (by decide) (skip (by decide) (by decide) (skip (by decide) (by decide) (skip l3 (by decide) (skip (by decide) (by decide) (hit (by decide)))))))))
  have e8 : bits w 16 3 = q := hw ▸ (skip (by decide) (by decide) (skip l5 (by decide) (skip l4 (by decide) (skip (by decide) (by decide) (skip (by decide) (by decide) (skip l3 (by decide) (skip (by decide) (by decide) (skip (by decide) (by decide) (hit l2)))))))))
  have e9 : bits w 19 1 = 0 := hw ▸ (skip (by decide) (by decide) (skip l5 (by decide) (skip l4 (by decide) (skip (by decide) (by decide) (skip (by decide) (by decide) (skip l3 (by decide) (skip (by decide) (by decide) (skip (by decide) (by decide) (skip l2 (by decide) (hit (by decide)))))))))))
  have e10 : bits w 20 1 = 0 := hw ▸ (skip (by decide) (by decide) (skip l5 (by decide) (skip l4 (by decide) (skip (by decide) (by decide) (skip (by decide) (by decide) (skip l3 (by decide) (skip (by decide) (by decide) (skip (by decide) (by decide) (skip l2 (by decide) (skip (by decide) (by decide) (hit (by decide))))))))))))
  have e11 : bits w 21 5 = d := hw ▸ (skip (by decide) (by decide) (skip l5 (by decide) (skip l4 (by decide) (skip (by decide) (by decide) (skip (by decide) (by decide) (skip l3 (by decide) (skip (by decide) (by decide) (skip (by decide) (by decide) (skip l2 (by decide) (skip (by decide) (by decide) (skip (by decide) (by decide) (hit l1))))))))))))
  have e12 : bits w 26 5 = 18 := hw ▸ (skip (by decide) (by decide) (skip l5 (by decide) (skip l4 (by decide) (skip (by decide) (by decide) (skip (by decide) (by decide) (skip l3 (by decide) (skip (by decide) (by decide) (skip (by decide) (by decide) (skip l2 (by decide) (skip (by decide) (by decide) (skip (by decide) (by decide) (skip l1 (by decide) (hit (by decide))))))))))))))
  have e13 : bits w 31 1 = c := hw ▸ (skip (by decide) (by decide) (skip l5 (by decide) (skip l4 (by decide) (skip (by decide) (by decide) (skip (by decide) (by decide) (skip l3 (by decide) (skip (by decide) (by decide) (skip (by decide) (by decide) (skip l2 (by decide) (skip (by decide) (by decide) (skip (by decide) (by decide) (skip l1 (by decide) (skip (by decide) (by decide) (whole l0))))))))))))))
  have e14 : bits w 9 2 = 0 := (bits_join e3 e4)
  have e15 : bits w 13 3 = 0 := (bits_join e6 e7)
  have e16 : bits w 19 2 = 0 := (bits_join e9 e10)
  rw [decodeRow_18 e12]
  simp [decodeGroup, e0, e1, e2, e3, e4, e5, e6, e7, e8, e9, e10, e11, e12, e13, e14, e15, e16]

theorem RoundTrip.gredIadd (f : R1) : RoundTrip.Statement (.gredIadd f) := by
  intro _ hk
  have wf : Instr.WF (.gredIadd f) := of_decide_eq_true hk
  refine decode_of_row ?_ hk
  obtain ⟨m, b0, b1, b2, r⟩ := R1.laid f wf _ _ 18 5 0 0 rfl rfl (by decide) (by decide) (by decide) (by decide)
  change decodeRow (0x48000005 + f.place) = _
  rw [decodeRow_18 m]
  simp [decodeGroup, r, b0, b1, b2]

theorem RoundTrip.gredImin (f : R1) : RoundTrip.Statement (.gredImin f) := by
  intro _ hk
  have wf : Instr.WF (.gredImin f) := of_decide_eq_true hk
  refine decode_of_row ?_ hk
  obtain ⟨m, b0, b1, b2, r⟩ := R1.laid f wf _ _ 18 5 0 1 rfl rfl (by decide) (by decide) (by decide) (by decide)
  change decodeRow (0x48000805 + f.place) = _
  rw [decodeRow_18 m]
  simp [decodeGroup, r, b0, b1, b2]

theorem RoundTrip.gredImax (f : R1) : RoundTrip.Statement (.gredImax f) := by
  intro _ hk
  have wf : Instr.WF (.gredImax f) := of_decide_eq_true hk
  refine decode_of_row ?_ hk
  obtain ⟨m, b0, b1, b2, r⟩ := R1.laid f wf _ _ 18 5 0 2 rfl rfl (by decide) (by decide) (by decide) (by decide)
  change decodeRow (0x48001005 + f.place) = _
  rw [decodeRow_18 m]
  simp [decodeGroup, r, b0, b1, b2]

theorem RoundTrip.gredNmin (f : R1) : RoundTrip.Statement (.gredNmin f) := by
  intro _ hk
  have wf : Instr.WF (.gredNmin f) := of_decide_eq_true hk
  refine decode_of_row ?_ hk
  obtain ⟨m, b0, b1, b2, r⟩ := R1.laid f wf _ _ 18 5 0 3 rfl rfl (by decide) (by decide) (by decide) (by decide)
  change decodeRow (0x48001805 + f.place) = _
  rw [decodeRow_18 m]
  simp [decodeGroup, r, b0, b1, b2]

theorem RoundTrip.gredNmax (f : R1) : RoundTrip.Statement (.gredNmax f) := by
  intro _ hk
  have wf : Instr.WF (.gredNmax f) := of_decide_eq_true hk
  refine decode_of_row ?_ hk
  obtain ⟨m, b0, b1, b2, r⟩ := R1.laid f wf _ _ 18 5 0 4 rfl rfl (by decide) (by decide) (by decide) (by decide)
  change decodeRow (0x48002005 + f.place) = _
  rw [decodeRow_18 m]
  simp [decodeGroup, r, b0, b1, b2]

theorem RoundTrip.gredAnd (f : R1) : RoundTrip.Statement (.gredAnd f) := by
  intro _ hk
  have wf : Instr.WF (.gredAnd f) := of_decide_eq_true hk
  refine decode_of_row ?_ hk
  obtain ⟨m, b0, b1, b2, r⟩ := R1.laid f wf _ _ 18 5 0 5 rfl rfl (by decide) (by decide) (by decide) (by decide)
  change decodeRow (0x48002805 + f.place) = _
  rw [decodeRow_18 m]
  simp [decodeGroup, r, b0, b1, b2]

theorem RoundTrip.gredOr (f : R1) : RoundTrip.Statement (.gredOr f) := by
  intro _ hk
  have wf : Instr.WF (.gredOr f) := of_decide_eq_true hk
  refine decode_of_row ?_ hk
  obtain ⟨m, b0, b1, b2, r⟩ := R1.laid f wf _ _ 18 5 0 6 rfl rfl (by decide) (by decide) (by decide) (by decide)
  change decodeRow (0x48003005 + f.place) = _
  rw [decodeRow_18 m]
  simp [decodeGroup, r, b0, b1, b2]

theorem RoundTrip.gredXor (f : R1) : RoundTrip.Statement (.gredXor f) := by
  intro _ hk
  have wf : Instr.WF (.gredXor f) := of_decide_eq_true hk
  refine decode_of_row ?_ hk
  obtain ⟨m, b0, b1, b2, r⟩ := R1.laid f wf _ _ 18 5 0 7 rfl rfl (by decide) (by decide) (by decide) (by decide)
  change decodeRow (0x48003805 + f.place) = _
  rw [decodeRow_18 m]
  simp [decodeGroup, r, b0, b1, b2]

theorem RoundTrip.gredFadd (f : R1) : RoundTrip.Statement (.gredFadd f) := by
  intro _ hk
  have wf : Instr.WF (.gredFadd f) := of_decide_eq_true hk
  refine decode_of_row ?_ hk
  obtain ⟨m, b0, b1, b2, r⟩ := R1.laid f wf _ _ 18 5 0 8 rfl rfl (by decide) (by decide) (by decide) (by decide)
  change decodeRow (0x48004005 + f.place) = _
  rw [decodeRow_18 m]
  simp [decodeGroup, r, b0, b1, b2]

theorem RoundTrip.gredFmin (f : R1) : RoundTrip.Statement (.gredFmin f) := by
  intro _ hk
  have wf : Instr.WF (.gredFmin f) := of_decide_eq_true hk
  refine decode_of_row ?_ hk
  obtain ⟨m, b0, b1, b2, r⟩ := R1.laid f wf _ _ 18 5 0 9 rfl rfl (by decide) (by decide) (by decide) (by decide)
  change decodeRow (0x48004805 + f.place) = _
  rw [decodeRow_18 m]
  simp [decodeGroup, r, b0, b1, b2]

theorem RoundTrip.gredFmax (f : R1) : RoundTrip.Statement (.gredFmax f) := by
  intro _ hk
  have wf : Instr.WF (.gredFmax f) := of_decide_eq_true hk
  refine decode_of_row ?_ hk
  obtain ⟨m, b0, b1, b2, r⟩ := R1.laid f wf _ _ 18 5 0 10 rfl rfl (by decide) (by decide) (by decide) (by decide)
  change decodeRow (0x48005005 + f.place) = _
  rw [decodeRow_18 m]
  simp [decodeGroup, r, b0, b1, b2]

theorem RoundTrip.matchLanes (f : R1) : RoundTrip.Statement (.matchLanes f) := by
  intro _ hk
  have wf : Instr.WF (.matchLanes f) := of_decide_eq_true hk
  refine decode_of_row ?_ hk
  obtain ⟨m, b0, b1, b2, r⟩ := R1.laid f wf _ _ 18 6 0 0 rfl rfl (by decide) (by decide) (by decide) (by decide)
  change decodeRow (0x48000006 + f.place) = _
  rw [decodeRow_18 m]
  simp [decodeGroup, r, b0, b1, b2]

theorem RoundTrip.gfence (c l g s : Nat) : RoundTrip.Statement (.gfence c l g s) := by
  intro _ hk
  have wf : Instr.WF (.gfence c l g s) := of_decide_eq_true hk
  refine decode_of_row ?_ hk
  change decodeRow (0x48000007 + c * 2147483648 + l * 1024 + g * 64 + s * 8) = _
  simp only [Instr.WF] at wf
  obtain ⟨l0, l1, l2, l3⟩ := wf
  obtain ⟨w, hw⟩ : ∃ w, w = 7 + 2 ^ 3 * (s + 2 ^ 3 * (g + 2 ^ 3 * (0 + 2 ^ 1 * (l + 2 ^ 1 * (0 + 2 ^ 4 * (0 + 2 ^ 5 * (0 + 2 ^ 6 * (18 + 2 ^ 5 * (c))))))))) := ⟨_, rfl⟩
  have he : 0x48000007 + c * 2147483648 + l * 1024 + g * 64 + s * 8 = w := by rw [hw]; simp only [Nat.mul_add, ← Nat.mul_assoc, Nat.reducePow, Nat.reduceMul]; omega
  rw [he]
  have e0 : bits w 0 3 = 7 := hw ▸ (hit (by decide))
  have e1 : bits w 3 3 = s := hw ▸ (skip (by decide) (by decide) (hit l3))
  have e2 : bits w 6 3 = g := hw ▸ (skip (by decide) (by decide) (skip l3 (by decide) (hit l2)))
  have e3 : bits w 9 1 = 0 := hw ▸ (skip (by decide) (by decide) (skip l3 (by decide) (skip l2 (by decide) (hit (by decide)))))
  have e4 : bits w 10 1 = l := hw ▸ (skip (by decide) (by decide) (skip l3 (by decide) (skip l2 (by decide) (skip (by decide) (by decide) (hit l1)))))
  have e5 : bits w 11 4 = 0 := hw ▸ (skip (by decide) (by decide) (skip l3 (by decide) (skip l2 (by decide) (skip (by decide) (by decide) (skip l1 (by decide) (hit (by decide)))))))
  have e6 : bits w 15 5 = 0 := hw ▸ (skip (by decide) (by decide) (skip l3 (by decide) (skip l2 (by decide) (skip (by decide) (by decide) (skip l1 (by decide) (skip (by decide) (by decide) (hit (by decide))))))))
  have e7 : bits w 20 6 = 0 := hw ▸ (skip (by decide) (by decide) (skip l3 (by decide) (skip l2 (by decide) (skip (by decide) (by decide) (skip l1 (by decide) (skip (by decide) (by decide) (skip (by decide) (by decide) (hit (by decide)))))))))
  have e8 : bits w 26 5 = 18 := hw ▸ (skip (by decide) (by decide) (skip l3 (by decide) (skip l2 (by decide) (skip (by decide) (by decide) (skip l1 (by decide) (skip (by decide) (by decide) (skip (by decide) (by decide) (skip (by decide) (by decide) (hit (by decide))))))))))
  have e9 : bits w 31 1 = c := hw ▸ (skip (by decide) (by decide) (skip l3 (by decide) (skip l2 (by decide) (skip (by decide) (by decide) (skip l1 (by decide) (skip (by decide) (by decide) (skip (by decide) (by decide) (skip (by decide) (by decide) (skip (by decide) (by decide) (whole l0))))))))))
  have e10 : bits w 11 15 = 0 := (bits_join e5 (bits_join e6 e7))
  rw [decodeRow_18 e8]
  simp [decodeGroup, e0, e1, e2, e3, e4, e5, e6, e7, e8, e9, e10]

theorem RoundTrip.qxh (f : R1) : RoundTrip.Statement (.qxh f) := by
  intro _ hk
  have wf : Instr.WF (.qxh f) := of_decide_eq_true hk
  refine decode_of_row ?_ hk
  obtain ⟨m, b0, b1, b2, r⟩ := R1.laid f wf _ _ 19 0 0 0 rfl rfl (by decide) (by decide) (by decide) (by decide)
  change decodeRow (0x4C000000 + f.place) = _
  rw [decodeRow_19 m]
  simp [decodeQuad, r, b0, b1, b2]

theorem RoundTrip.qxv (f : R1) : RoundTrip.Statement (.qxv f) := by
  intro _ hk
  have wf : Instr.WF (.qxv f) := of_decide_eq_true hk
  refine decode_of_row ?_ hk
  obtain ⟨m, b0, b1, b2, r⟩ := R1.laid f wf _ _ 19 1 0 0 rfl rfl (by decide) (by decide) (by decide) (by decide)
  change decodeRow (0x4C000001 + f.place) = _
  rw [decodeRow_19 m]
  simp [decodeQuad, r, b0, b1, b2]

theorem RoundTrip.qxd (f : R1) : RoundTrip.Statement (.qxd f) := by
  intro _ hk
  have wf : Instr.WF (.qxd f) := of_decide_eq_true hk
  refine decode_of_row ?_ hk
  obtain ⟨m, b0, b1, b2, r⟩ := R1.laid f wf _ _ 19 2 0 0 rfl rfl (by decide) (by decide) (by decide) (by decide)
  change decodeRow (0x4C000002 + f.place) = _
  rw [decodeRow_19 m]
  simp [decodeQuad, r, b0, b1, b2]

theorem RoundTrip.ddxc (f : R1) : RoundTrip.Statement (.ddxc f) := by
  intro _ hk
  have wf : Instr.WF (.ddxc f) := of_decide_eq_true hk
  refine decode_of_row ?_ hk
  obtain ⟨m, b0, b1, b2, r⟩ := R1.laid f wf _ _ 19 3 0 0 rfl rfl (by decide) (by decide) (by decide) (by decide)
  change decodeRow (0x4C000003 + f.place) = _
  rw [decodeRow_19 m]
  simp [decodeQuad, r, b0, b1, b2]

theorem RoundTrip.ddyc (f : R1) : RoundTrip.Statement (.ddyc f) := by
  intro _ hk
  have wf : Instr.WF (.ddyc f) := of_decide_eq_true hk
  refine decode_of_row ?_ hk
  obtain ⟨m, b0, b1, b2, r⟩ := R1.laid f wf _ _ 19 4 0 0 rfl rfl (by decide) (by decide) (by decide) (by decide)
  change decodeRow (0x4C000004 + f.place) = _
  rw [decodeRow_19 m]
  simp [decodeQuad, r, b0, b1, b2]

theorem RoundTrip.ddxf (f : R1) : RoundTrip.Statement (.ddxf f) := by
  intro _ hk
  have wf : Instr.WF (.ddxf f) := of_decide_eq_true hk
  refine decode_of_row ?_ hk
  obtain ⟨m, b0, b1, b2, r⟩ := R1.laid f wf _ _ 19 5 0 0 rfl rfl (by decide) (by decide) (by decide) (by decide)
  change decodeRow (0x4C000005 + f.place) = _
  rw [decodeRow_19 m]
  simp [decodeQuad, r, b0, b1, b2]

theorem RoundTrip.ddyf (f : R1) : RoundTrip.Statement (.ddyf f) := by
  intro _ hk
  have wf : Instr.WF (.ddyf f) := of_decide_eq_true hk
  refine decode_of_row ?_ hk
  obtain ⟨m, b0, b1, b2, r⟩ := R1.laid f wf _ _ 19 6 0 0 rfl rfl (by decide) (by decide) (by decide) (by decide)
  change decodeRow (0x4C000006 + f.place) = _
  rw [decodeRow_19 m]
  simp [decodeQuad, r, b0, b1, b2]

theorem RoundTrip.helpq (c d g s : Nat) : RoundTrip.Statement (.helpq c d g s) := by
  intro _ hk
  have wf : Instr.WF (.helpq c d g s) := of_decide_eq_true hk
  refine decode_of_row ?_ hk
  change decodeRow (0x4C000007 + c * 2147483648 + d * 2097152 + g * 64 + s * 8) = _
  simp only [Instr.WF] at wf
  obtain ⟨l0, l1, l2, l3⟩ := wf
  obtain ⟨w, hw⟩ : ∃ w, w = 7 + 2 ^ 3 * (s + 2 ^ 3 * (g + 2 ^ 3 * (0 + 2 ^ 1 * (0 + 2 ^ 5 * (0 + 2 ^ 5 * (0 + 2 ^ 1 * (d + 2 ^ 5 * (19 + 2 ^ 5 * (c))))))))) := ⟨_, rfl⟩
  have he : 0x4C000007 + c * 2147483648 + d * 2097152 + g * 64 + s * 8 = w := by rw [hw]; simp only [Nat.mul_add, ← Nat.mul_assoc, Nat.reducePow, Nat.reduceMul]; omega
  rw [he]
  have e0 : bits w 0 3 = 7 := hw ▸ (hit (by decide))
  have e1 : bits w 3 3 = s := hw ▸ (skip (by decide) (by decide) (hit l3))
  have e2 : bits w 6 3 = g := hw ▸ (skip (by decide) (by decide) (skip l3 (by decide) (hit l2)))
  have e3 : bits w 9 1 = 0 := hw ▸ (skip (by decide) (by decide) (skip l3 (by decide) (skip l2 (by decide) (hit (by decide)))))
  have e4 : bits w 10 5 = 0 := hw ▸ (skip (by decide) (by decide) (skip l3 (by decide) (skip l2 (by decide) (skip (by decide) (by decide) (hit (by decide))))))
  have e5 : bits w 15 5 = 0 := hw ▸ (skip (by decide) (by decide) (skip l3 (by decide) (skip l2 (by decide) (skip (by decide) (by decide) (skip (by decide) (by decide) (hit (by decide)))))))
  have e6 : bits w 20 1 = 0 := hw ▸ (skip (by decide) (by decide) (skip l3 (by decide) (skip l2 (by decide) (skip (by decide) (by decide) (skip (by decide) (by decide) (skip (by decide) (by decide) (hit (by decide))))))))
  have e7 : bits w 21 5 = d := hw ▸ (skip (by decide) (by decide) (skip l3 (by decide) (skip l2 (by decide) (skip (by decide) (by decide) (skip (by decide) (by decide) (skip (by decide) (by decide) (skip (by decide) (by decide) (hit l1))))))))
  have e8 : bits w 26 5 = 19 := hw ▸ (skip (by decide) (by decide) (skip l3 (by decide) (skip l2 (by decide) (skip (by decide) (by decide) (skip (by decide) (by decide) (skip (by decide) (by decide) (skip (by decide) (by decide) (skip l1 (by decide) (hit (by decide))))))))))
  have e9 : bits w 31 1 = c := hw ▸ (skip (by decide) (by decide) (skip l3 (by decide) (skip l2 (by decide) (skip (by decide) (by decide) (skip (by decide) (by decide) (skip (by decide) (by decide) (skip (by decide) (by decide) (skip l1 (by decide) (skip (by decide) (by decide) (whole l0))))))))))
  have e10 : bits w 9 12 = 0 := (bits_join e3 (bits_join e4 (bits_join e5 e6)))
  rw [decodeRow_19 e8]
  simp [decodeQuad, e0, e1, e2, e3, e4, e5, e6, e7, e8, e9, e10]

theorem RoundTrip.ld (f : MMem) : RoundTrip.Statement (.ld f) := by
  intro _ hk
  have wf : Instr.WF (.ld f) := of_decide_eq_true hk
  refine decode_of_row ?_ hk
  obtain ⟨m, b0, r⟩ := MMem.laid f wf.1 _ _ 20 0 rfl rfl (by decide) (by decide)
  change decodeRow (0x50000000 + f.place) = _
  rw [decodeRow_20 m]
  simp [decodeMem, r, b0]

theorem RoundTrip.st (f : MMem) : RoundTrip.Statement (.st f) := by
  intro _ hk
  have wf : Instr.WF (.st f) := of_decide_eq_true hk
  refine decode_of_row ?_ hk
  obtain ⟨m, b0, r⟩ := MMem.laid f wf.1 _ _ 20 1 rfl rfl (by decide) (by decide)
  change decodeRow (0x50000001 + f.place) = _
  rw [decodeRow_20 m]
  simp [decodeMem, r, b0]

theorem RoundTrip.lda (f : MMem) : RoundTrip.Statement (.lda f) := by
  intro _ hk
  have wf : Instr.WF (.lda f) := of_decide_eq_true hk
  refine decode_of_row ?_ hk
  obtain ⟨m, b0, r⟩ := MMem.laid f wf.1 _ _ 20 2 rfl rfl (by decide) (by decide)
  change decodeRow (0x50000002 + f.place) = _
  rw [decodeRow_20 m]
  simp [decodeMem, r, b0]

theorem RoundTrip.stl (f : MMem) : RoundTrip.Statement (.stl f) := by
  intro _ hk
  have wf : Instr.WF (.stl f) := of_decide_eq_true hk
  refine decode_of_row ?_ hk
  obtain ⟨m, b0, r⟩ := MMem.laid f wf.1 _ _ 20 3 rfl rfl (by decide) (by decide)
  change decodeRow (0x50000003 + f.place) = _
  rw [decodeRow_20 m]
  simp [decodeMem, r, b0]

theorem RoundTrip.ldg (f : MGran) : RoundTrip.Statement (.ldg f) := by
  intro _ hk
  have wf : Instr.WF (.ldg f) := of_decide_eq_true hk
  refine decode_of_row ?_ hk
  obtain ⟨m, b0, b1, r⟩ := MGran.laid f wf.1 _ _ 20 4 4 rfl rfl (by decide) (by decide) (by decide)
  change decodeRow (0x50000404 + f.place) = _
  rw [decodeRow_20 m]
  simp [decodeMem, r, b0, b1]

theorem RoundTrip.stg (f : MGran) : RoundTrip.Statement (.stg f) := by
  intro _ hk
  have wf : Instr.WF (.stg f) := of_decide_eq_true hk
  refine decode_of_row ?_ hk
  obtain ⟨m, b0, b1, r⟩ := MGran.laid f wf.1 _ _ 20 5 4 rfl rfl (by decide) (by decide) (by decide)
  change decodeRow (0x50000405 + f.place) = _
  rw [decodeRow_20 m]
  simp [decodeMem, r, b0, b1]

theorem RoundTrip.pref (c a o s h : Nat) : RoundTrip.Statement (.pref c a o s h) := by
  intro _ hk
  have wf : Instr.WF (.pref c a o s h) := of_decide_eq_true hk
  refine decode_of_row ?_ hk
  change decodeRow (0x50000006 + c * 2147483648 + a * 65536 + o * 2048 + s * 32 + h * 8) = _
  simp only [Instr.WF] at wf
  obtain ⟨l0, l1, l2, l3, l4, _x0⟩ := wf
  obtain ⟨w, hw⟩ : ∃ w, w = 6 + 2 ^ 3 * (h + 2 ^ 2 * (s + 2 ^ 3 * (0 + 2 ^ 2 * (0 + 2 ^ 1 * (o + 2 ^ 5 * (a + 2 ^ 5 * (0 + 2 ^ 5 * (20 + 2 ^ 5 * (c))))))))) := ⟨_, rfl⟩
  have he : 0x50000006 + c * 2147483648 + a * 65536 + o * 2048 + s * 32 + h * 8 = w := by rw [hw]; simp only [Nat.mul_add, ← Nat.mul_assoc, Nat.reducePow, Nat.reduceMul]; omega
  rw [he]
  have e0 : bits w 0 3 = 6 := hw ▸ (hit (by decide))
  have e1 : bits w 3 2 = h := hw ▸ (skip (by decide) (by decide) (hit l4))
  have e2 : bits w 5 3 = s := hw ▸ (skip (by decide) (by decide) (skip l4 (by decide) (hit l3)))
  have e3 : bits w 8 2 = 0 := hw ▸ (skip (by decide) (by decide) (skip l4 (by decide) (skip l3 (by decide) (hit (by decide)))))
  have e4 : bits w 10 1 = 0 := hw ▸ (skip (by decide) (by decide) (skip l4 (by decide) (skip l3 (by decide) (skip (by decide) (by decide) (hit (by decide))))))
  have e5 : bits w 11 5 = o := hw ▸ (skip (by decide) (by decide) (skip l4 (by decide) (skip l3 (by decide) (skip (by decide) (by decide) (skip (by decide) (by decide) (hit l2))))))
  have e6 : bits w 16 5 = a := hw ▸ (skip (by decide) (by decide) (skip l4 (by decide) (skip l3 (by decide) (skip (by decide) (by decide) (skip (by decide) (by decide) (skip l2 (by decide) (hit l1)))))))
  have e7 : bits w 21 5 = 0 := hw ▸ (skip (by decide) (by decide) (skip l4 (by decide) (skip l3 (by decide) (skip (by decide) (by decide) (skip (by decide) (by decide) (skip l2 (by decide) (skip l1 (by decide) (hit (by decide)))))))))
  have e8 : bits w 26 5 = 20 := hw ▸ (skip (by decide) (by decide) (skip l4 (by decide) (skip l3 (by decide) (skip (by decide) (by decide) (skip (by decide) (by decide) (skip l2 (by decide) (skip l1 (by decide) (skip (by decide) (by decide) (hit (by decide))))))))))
  have e9 : bits w 31 1 = c := hw ▸ (skip (by decide) (by decide) (skip l4 (by decide) (skip l3 (by decide) (skip (by decide) (by decide) (skip (by decide) (by decide) (skip l2 (by decide) (skip l1 (by decide) (skip (by decide) (by decide) (skip (by decide) (by decide) (whole l0))))))))))
  have e10 : bits w 8 3 = 0 := (bits_join e3 e4)
  rw [decodeRow_20 e8]
  simp [decodeMem, e0, e1, e2, e3, e4, e5, e6, e7, e8, e9, e10]

theorem RoundTrip.lineWb (c a o s : Nat) : RoundTrip.Statement (.lineWb c a o s) := by
  intro _ hk
  have wf : Instr.WF (.lineWb c a o s) := of_decide_eq_true hk
  refine decode_of_row ?_ hk
  change decodeRow (0x50000007 + c * 2147483648 + a * 65536 + o * 2048 + s * 32) = _
  simp only [Instr.WF] at wf
  obtain ⟨l0, l1, l2, l3, _x0⟩ := wf
  obtain ⟨w, hw⟩ : ∃ w, w = 7 + 2 ^ 3 * (0 + 2 ^ 2 * (s + 2 ^ 3 * (0 + 2 ^ 2 * (0 + 2 ^ 1 * (o + 2 ^ 5 * (a + 2 ^ 5 * (0 + 2 ^ 5 * (20 + 2 ^ 5 * (c))))))))) := ⟨_, rfl⟩
  have he : 0x50000007 + c * 2147483648 + a * 65536 + o * 2048 + s * 32 = w := by rw [hw]; simp only [Nat.mul_add, ← Nat.mul_assoc, Nat.reducePow, Nat.reduceMul]; omega
  rw [he]
  have e0 : bits w 0 3 = 7 := hw ▸ (hit (by decide))
  have e1 : bits w 3 2 = 0 := hw ▸ (skip (by decide) (by decide) (hit (by decide)))
  have e2 : bits w 5 3 = s := hw ▸ (skip (by decide) (by decide) (skip (by decide) (by decide) (hit l3)))
  have e3 : bits w 8 2 = 0 := hw ▸ (skip (by decide) (by decide) (skip (by decide) (by decide) (skip l3 (by decide) (hit (by decide)))))
  have e4 : bits w 10 1 = 0 := hw ▸ (skip (by decide) (by decide) (skip (by decide) (by decide) (skip l3 (by decide) (skip (by decide) (by decide) (hit (by decide))))))
  have e5 : bits w 11 5 = o := hw ▸ (skip (by decide) (by decide) (skip (by decide) (by decide) (skip l3 (by decide) (skip (by decide) (by decide) (skip (by decide) (by decide) (hit l2))))))
  have e6 : bits w 16 5 = a := hw ▸ (skip (by decide) (by decide) (skip (by decide) (by decide) (skip l3 (by decide) (skip (by decide) (by decide) (skip (by decide) (by decide) (skip l2 (by decide) (hit l1)))))))
  have e7 : bits w 21 5 = 0 := hw ▸ (skip (by decide) (by decide) (skip (by decide) (by decide) (skip l3 (by decide) (skip (by decide) (by decide) (skip (by decide) (by decide) (skip l2 (by decide) (skip l1 (by decide) (hit (by decide)))))))))
  have e8 : bits w 26 5 = 20 := hw ▸ (skip (by decide) (by decide) (skip (by decide) (by decide) (skip l3 (by decide) (skip (by decide) (by decide) (skip (by decide) (by decide) (skip l2 (by decide) (skip l1 (by decide) (skip (by decide) (by decide) (hit (by decide))))))))))
  have e9 : bits w 31 1 = c := hw ▸ (skip (by decide) (by decide) (skip (by decide) (by decide) (skip l3 (by decide) (skip (by decide) (by decide) (skip (by decide) (by decide) (skip l2 (by decide) (skip l1 (by decide) (skip (by decide) (by decide) (skip (by decide) (by decide) (whole l0))))))))))
  have e10 : bits w 0 5 = 7 := (bits_join e0 e1)
  have e11 : bits w 8 3 = 0 := (bits_join e3 e4)
  rw [decodeRow_20 e8]
  simp [decodeMem, e0, e1, e2, e3, e4, e5, e6, e7, e8, e9, e10, e11]

theorem RoundTrip.lineInv (c a o s : Nat) : RoundTrip.Statement (.lineInv c a o s) := by
  intro _ hk
  have wf : Instr.WF (.lineInv c a o s) := of_decide_eq_true hk
  refine decode_of_row ?_ hk
  change decodeRow (0x50000107 + c * 2147483648 + a * 65536 + o * 2048 + s * 32) = _
  simp only [Instr.WF] at wf
  obtain ⟨l0, l1, l2, l3, _x0⟩ := wf
  obtain ⟨w, hw⟩ : ∃ w, w = 7 + 2 ^ 3 * (0 + 2 ^ 2 * (s + 2 ^ 3 * (1 + 2 ^ 2 * (0 + 2 ^ 1 * (o + 2 ^ 5 * (a + 2 ^ 5 * (0 + 2 ^ 5 * (20 + 2 ^ 5 * (c))))))))) := ⟨_, rfl⟩
  have he : 0x50000107 + c * 2147483648 + a * 65536 + o * 2048 + s * 32 = w := by rw [hw]; simp only [Nat.mul_add, ← Nat.mul_assoc, Nat.reducePow, Nat.reduceMul]; omega
  rw [he]
  have e0 : bits w 0 3 = 7 := hw ▸ (hit (by decide))
  have e1 : bits w 3 2 = 0 := hw ▸ (skip (by decide) (by decide) (hit (by decide)))
  have e2 : bits w 5 3 = s := hw ▸ (skip (by decide) (by decide) (skip (by decide) (by decide) (hit l3)))
  have e3 : bits w 8 2 = 1 := hw ▸ (skip (by decide) (by decide) (skip (by decide) (by decide) (skip l3 (by decide) (hit (by decide)))))
  have e4 : bits w 10 1 = 0 := hw ▸ (skip (by decide) (by decide) (skip (by decide) (by decide) (skip l3 (by decide) (skip (by decide) (by decide) (hit (by decide))))))
  have e5 : bits w 11 5 = o := hw ▸ (skip (by decide) (by decide) (skip (by decide) (by decide) (skip l3 (by decide) (skip (by decide) (by decide) (skip (by decide) (by decide) (hit l2))))))
  have e6 : bits w 16 5 = a := hw ▸ (skip (by decide) (by decide) (skip (by decide) (by decide) (skip l3 (by decide) (skip (by decide) (by decide) (skip (by decide) (by decide) (skip l2 (by decide) (hit l1)))))))
  have e7 : bits w 21 5 = 0 := hw ▸ (skip (by decide) (by decide) (skip (by decide) (by decide) (skip l3 (by decide) (skip (by decide) (by decide) (skip (by decide) (by decide) (skip l2 (by decide) (skip l1 (by decide) (hit (by decide)))))))))
  have e8 : bits w 26 5 = 20 := hw ▸ (skip (by decide) (by decide) (skip (by decide) (by decide) (skip l3 (by decide) (skip (by decide) (by decide) (skip (by decide) (by decide) (skip l2 (by decide) (skip l1 (by decide) (skip (by decide) (by decide) (hit (by decide))))))))))
  have e9 : bits w 31 1 = c := hw ▸ (skip (by decide) (by decide) (skip (by decide) (by decide) (skip l3 (by decide) (skip (by decide) (by decide) (skip (by decide) (by decide) (skip l2 (by decide) (skip l1 (by decide) (skip (by decide) (by decide) (skip (by decide) (by decide) (whole l0))))))))))
  have e10 : bits w 8 3 ≠ 0 := apart (a := 0) (m := 2) (by decide) e3 (by decide)
  have e11 : bits w 0 5 = 7 := (bits_join e0 e1)
  have e12 : bits w 8 3 = 1 := (bits_join e3 e4)
  rw [decodeRow_20 e8]
  simp [decodeMem, e0, e1, e2, e3, e4, e5, e6, e7, e8, e9, e10, e11, e12]

theorem RoundTrip.lineWbinv (c a o s : Nat) : RoundTrip.Statement (.lineWbinv c a o s) := by
  intro _ hk
  have wf : Instr.WF (.lineWbinv c a o s) := of_decide_eq_true hk
  refine decode_of_row ?_ hk
  change decodeRow (0x50000207 + c * 2147483648 + a * 65536 + o * 2048 + s * 32) = _
  simp only [Instr.WF] at wf
  obtain ⟨l0, l1, l2, l3, _x0⟩ := wf
  obtain ⟨w, hw⟩ : ∃ w, w = 7 + 2 ^ 3 * (0 + 2 ^ 2 * (s + 2 ^ 3 * (2 + 2 ^ 2 * (0 + 2 ^ 1 * (o + 2 ^ 5 * (a + 2 ^ 5 * (0 + 2 ^ 5 * (20 + 2 ^ 5 * (c))))))))) := ⟨_, rfl⟩
  have he : 0x50000207 + c * 2147483648 + a * 65536 + o * 2048 + s * 32 = w := by rw [hw]; simp only [Nat.mul_add, ← Nat.mul_assoc, Nat.reducePow, Nat.reduceMul]; omega
  rw [he]
  have e0 : bits w 0 3 = 7 := hw ▸ (hit (by decide))
  have e1 : bits w 3 2 = 0 := hw ▸ (skip (by decide) (by decide) (hit (by decide)))
  have e2 : bits w 5 3 = s := hw ▸ (skip (by decide) (by decide) (skip (by decide) (by decide) (hit l3)))
  have e3 : bits w 8 2 = 2 := hw ▸ (skip (by decide) (by decide) (skip (by decide) (by decide) (skip l3 (by decide) (hit (by decide)))))
  have e4 : bits w 10 1 = 0 := hw ▸ (skip (by decide) (by decide) (skip (by decide) (by decide) (skip l3 (by decide) (skip (by decide) (by decide) (hit (by decide))))))
  have e5 : bits w 11 5 = o := hw ▸ (skip (by decide) (by decide) (skip (by decide) (by decide) (skip l3 (by decide) (skip (by decide) (by decide) (skip (by decide) (by decide) (hit l2))))))
  have e6 : bits w 16 5 = a := hw ▸ (skip (by decide) (by decide) (skip (by decide) (by decide) (skip l3 (by decide) (skip (by decide) (by decide) (skip (by decide) (by decide) (skip l2 (by decide) (hit l1)))))))
  have e7 : bits w 21 5 = 0 := hw ▸ (skip (by decide) (by decide) (skip (by decide) (by decide) (skip l3 (by decide) (skip (by decide) (by decide) (skip (by decide) (by decide) (skip l2 (by decide) (skip l1 (by decide) (hit (by decide)))))))))
  have e8 : bits w 26 5 = 20 := hw ▸ (skip (by decide) (by decide) (skip (by decide) (by decide) (skip l3 (by decide) (skip (by decide) (by decide) (skip (by decide) (by decide) (skip l2 (by decide) (skip l1 (by decide) (skip (by decide) (by decide) (hit (by decide))))))))))
  have e9 : bits w 31 1 = c := hw ▸ (skip (by decide) (by decide) (skip (by decide) (by decide) (skip l3 (by decide) (skip (by decide) (by decide) (skip (by decide) (by decide) (skip l2 (by decide) (skip l1 (by decide) (skip (by decide) (by decide) (skip (by decide) (by decide) (whole l0))))))))))
  have e10 : bits w 8 3 ≠ 0 := apart (a := 0) (m := 2) (by decide) e3 (by decide)
  have e11 : bits w 8 3 ≠ 1 := apart (a := 0) (m := 2) (by decide) e3 (by decide)
  have e12 : bits w 0 5 = 7 := (bits_join e0 e1)
  have e13 : bits w 8 3 = 2 := (bits_join e3 e4)
  rw [decodeRow_20 e8]
  simp [decodeMem, e0, e1, e2, e3, e4, e5, e6, e7, e8, e9, e10, e11, e12, e13]

theorem RoundTrip.lineZero (c a o s : Nat) : RoundTrip.Statement (.lineZero c a o s) := by
  intro _ hk
  have wf : Instr.WF (.lineZero c a o s) := of_decide_eq_true hk
  refine decode_of_row ?_ hk
  change decodeRow (0x50000307 + c * 2147483648 + a * 65536 + o * 2048 + s * 32) = _
  simp only [Instr.WF] at wf
  obtain ⟨l0, l1, l2, l3, _x0⟩ := wf
  obtain ⟨w, hw⟩ : ∃ w, w = 7 + 2 ^ 3 * (0 + 2 ^ 2 * (s + 2 ^ 3 * (3 + 2 ^ 2 * (0 + 2 ^ 1 * (o + 2 ^ 5 * (a + 2 ^ 5 * (0 + 2 ^ 5 * (20 + 2 ^ 5 * (c))))))))) := ⟨_, rfl⟩
  have he : 0x50000307 + c * 2147483648 + a * 65536 + o * 2048 + s * 32 = w := by rw [hw]; simp only [Nat.mul_add, ← Nat.mul_assoc, Nat.reducePow, Nat.reduceMul]; omega
  rw [he]
  have e0 : bits w 0 3 = 7 := hw ▸ (hit (by decide))
  have e1 : bits w 3 2 = 0 := hw ▸ (skip (by decide) (by decide) (hit (by decide)))
  have e2 : bits w 5 3 = s := hw ▸ (skip (by decide) (by decide) (skip (by decide) (by decide) (hit l3)))
  have e3 : bits w 8 2 = 3 := hw ▸ (skip (by decide) (by decide) (skip (by decide) (by decide) (skip l3 (by decide) (hit (by decide)))))
  have e4 : bits w 10 1 = 0 := hw ▸ (skip (by decide) (by decide) (skip (by decide) (by decide) (skip l3 (by decide) (skip (by decide) (by decide) (hit (by decide))))))
  have e5 : bits w 11 5 = o := hw ▸ (skip (by decide) (by decide) (skip (by decide) (by decide) (skip l3 (by decide) (skip (by decide) (by decide) (skip (by decide) (by decide) (hit l2))))))
  have e6 : bits w 16 5 = a := hw ▸ (skip (by decide) (by decide) (skip (by decide) (by decide) (skip l3 (by decide) (skip (by decide) (by decide) (skip (by decide) (by decide) (skip l2 (by decide) (hit l1)))))))
  have e7 : bits w 21 5 = 0 := hw ▸ (skip (by decide) (by decide) (skip (by decide) (by decide) (skip l3 (by decide) (skip (by decide) (by decide) (skip (by decide) (by decide) (skip l2 (by decide) (skip l1 (by decide) (hit (by decide)))))))))
  have e8 : bits w 26 5 = 20 := hw ▸ (skip (by decide) (by decide) (skip (by decide) (by decide) (skip l3 (by decide) (skip (by decide) (by decide) (skip (by decide) (by decide) (skip l2 (by decide) (skip l1 (by decide) (skip (by decide) (by decide) (hit (by decide))))))))))
  have e9 : bits w 31 1 = c := hw ▸ (skip (by decide) (by decide) (skip (by decide) (by decide) (skip l3 (by decide) (skip (by decide) (by decide) (skip (by decide) (by decide) (skip l2 (by decide) (skip l1 (by decide) (skip (by decide) (by decide) (skip (by decide) (by decide) (whole l0))))))))))
  have e10 : bits w 8 3 ≠ 0 := apart (a := 0) (m := 2) (by decide) e3 (by decide)
  have e11 : bits w 8 3 ≠ 1 := apart (a := 0) (m := 2) (by decide) e3 (by decide)
  have e12 : bits w 8 3 ≠ 2 := apart (a := 0) (m := 2) (by decide) e3 (by decide)
  have e13 : bits w 0 5 = 7 := (bits_join e0 e1)
  have e14 : bits w 8 3 = 3 := (bits_join e3 e4)
  rw [decodeRow_20 e8]
  simp [decodeMem, e0, e1, e2, e3, e4, e5, e6, e7, e8, e9, e10, e11, e12, e13, e14]

theorem RoundTrip.atomAdd (f : AAtom) : RoundTrip.Statement (.atomAdd f) := by
  intro _ hk
  have wf : Instr.WF (.atomAdd f) := of_decide_eq_true hk
  refine decode_of_row ?_ hk
  obtain ⟨m, b0, r⟩ := AAtom.laid f wf.1 _ _ 21 0 rfl rfl (by decide) (by decide)
  change decodeRow (0x54000000 + f.place) = _
  rw [decodeRow_21 m]
  simp [decodeAtom, r, b0]

theorem RoundTrip.atomMin (f : AAtom) : RoundTrip.Statement (.atomMin f) := by
  intro _ hk
  have wf : Instr.WF (.atomMin f) := of_decide_eq_true hk
  refine decode_of_row ?_ hk
  obtain ⟨m, b0, r⟩ := AAtom.laid f wf.1 _ _ 21 1 rfl rfl (by decide) (by decide)
  change decodeRow (0x54000010 + f.place) = _
  rw [decodeRow_21 m]
  simp [decodeAtom, r, b0]

theorem RoundTrip.atomMax (f : AAtom) : RoundTrip.Statement (.atomMax f) := by
  intro _ hk
  have wf : Instr.WF (.atomMax f) := of_decide_eq_true hk
  refine decode_of_row ?_ hk
  obtain ⟨m, b0, r⟩ := AAtom.laid f wf.1 _ _ 21 2 rfl rfl (by decide) (by decide)
  change decodeRow (0x54000020 + f.place) = _
  rw [decodeRow_21 m]
  simp [decodeAtom, r, b0]

theorem RoundTrip.atomNmin (f : AAtom) : RoundTrip.Statement (.atomNmin f) := by
  intro _ hk
  have wf : Instr.WF (.atomNmin f) := of_decide_eq_true hk
  refine decode_of_row ?_ hk
  obtain ⟨m, b0, r⟩ := AAtom.laid f wf.1 _ _ 21 3 rfl rfl (by decide) (by decide)
  change decodeRow (0x54000030 + f.place) = _
  rw [decodeRow_21 m]
  simp [decodeAtom, r, b0]

theorem RoundTrip.atomNmax (f : AAtom) : RoundTrip.Statement (.atomNmax f) := by
  intro _ hk
  have wf : Instr.WF (.atomNmax f) := of_decide_eq_true hk
  refine decode_of_row ?_ hk
  obtain ⟨m, b0, r⟩ := AAtom.laid f wf.1 _ _ 21 4 rfl rfl (by decide) (by decide)
  change decodeRow (0x54000040 + f.place) = _
  rw [decodeRow_21 m]
  simp [decodeAtom, r, b0]

theorem RoundTrip.atomAnd (f : AAtom) : RoundTrip.Statement (.atomAnd f) := by
  intro _ hk
  have wf : Instr.WF (.atomAnd f) := of_decide_eq_true hk
  refine decode_of_row ?_ hk
  obtain ⟨m, b0, r⟩ := AAtom.laid f wf.1 _ _ 21 5 rfl rfl (by decide) (by decide)
  change decodeRow (0x54000050 + f.place) = _
  rw [decodeRow_21 m]
  simp [decodeAtom, r, b0]

theorem RoundTrip.atomOr (f : AAtom) : RoundTrip.Statement (.atomOr f) := by
  intro _ hk
  have wf : Instr.WF (.atomOr f) := of_decide_eq_true hk
  refine decode_of_row ?_ hk
  obtain ⟨m, b0, r⟩ := AAtom.laid f wf.1 _ _ 21 6 rfl rfl (by decide) (by decide)
  change decodeRow (0x54000060 + f.place) = _
  rw [decodeRow_21 m]
  simp [decodeAtom, r, b0]

theorem RoundTrip.atomXor (f : AAtom) : RoundTrip.Statement (.atomXor f) := by
  intro _ hk
  have wf : Instr.WF (.atomXor f) := of_decide_eq_true hk
  refine decode_of_row ?_ hk
  obtain ⟨m, b0, r⟩ := AAtom.laid f wf.1 _ _ 21 7 rfl rfl (by decide) (by decide)
  change decodeRow (0x54000070 + f.place) = _
  rw [decodeRow_21 m]
  simp [decodeAtom, r, b0]

theorem RoundTrip.atomXchg (f : AAtom) : RoundTrip.Statement (.atomXchg f) := by
  intro _ hk
  have wf : Instr.WF (.atomXchg f) := of_decide_eq_true hk
  refine decode_of_row ?_ hk
  obtain ⟨m, b0, r⟩ := AAtom.laid f wf.1 _ _ 21 8 rfl rfl (by decide) (by decide)
  change decodeRow (0x54000080 + f.place) = _
  rw [decodeRow_21 m]
  simp [decodeAtom, r, b0]

theorem RoundTrip.atomCas (f : AAtom) : RoundTrip.Statement (.atomCas f) := by
  intro _ hk
  have wf : Instr.WF (.atomCas f) := of_decide_eq_true hk
  refine decode_of_row ?_ hk
  obtain ⟨m, b0, r⟩ := AAtom.laid f wf.1 _ _ 21 9 rfl rfl (by decide) (by decide)
  change decodeRow (0x54000090 + f.place) = _
  rw [decodeRow_21 m]
  simp [decodeAtom, r, b0]

theorem RoundTrip.atomFadd (f : AAtom) : RoundTrip.Statement (.atomFadd f) := by
  intro _ hk
  have wf : Instr.WF (.atomFadd f) := of_decide_eq_true hk
  refine decode_of_row ?_ hk
  obtain ⟨m, b0, r⟩ := AAtom.laid f wf.1 _ _ 21 10 rfl rfl (by decide) (by decide)
  change decodeRow (0x540000A0 + f.place) = _
  rw [decodeRow_21 m]
  simp [decodeAtom, r, b0]

theorem RoundTrip.atomFmin (f : AAtom) : RoundTrip.Statement (.atomFmin f) := by
  intro _ hk
  have wf : Instr.WF (.atomFmin f) := of_decide_eq_true hk
  refine decode_of_row ?_ hk
  obtain ⟨m, b0, r⟩ := AAtom.laid f wf.1 _ _ 21 11 rfl rfl (by decide) (by decide)
  change decodeRow (0x540000B0 + f.place) = _
  rw [decodeRow_21 m]
  simp [decodeAtom, r, b0]

theorem RoundTrip.atomFmax (f : AAtom) : RoundTrip.Statement (.atomFmax f) := by
  intro _ hk
  have wf : Instr.WF (.atomFmax f) := of_decide_eq_true hk
  refine decode_of_row ?_ hk
  obtain ⟨m, b0, r⟩ := AAtom.laid f wf.1 _ _ 21 12 rfl rfl (by decide) (by decide)
  change decodeRow (0x540000C0 + f.place) = _
  rw [decodeRow_21 m]
  simp [decodeAtom, r, b0]

theorem RoundTrip.atomIncw (f : AAtom) : RoundTrip.Statement (.atomIncw f) := by
  intro _ hk
  have wf : Instr.WF (.atomIncw f) := of_decide_eq_true hk
  refine decode_of_row ?_ hk
  obtain ⟨m, b0, r⟩ := AAtom.laid f wf.1 _ _ 21 13 rfl rfl (by decide) (by decide)
  change decodeRow (0x540000D0 + f.place) = _
  rw [decodeRow_21 m]
  simp [decodeAtom, r, b0]

theorem RoundTrip.atomDecw (f : AAtom) : RoundTrip.Statement (.atomDecw f) := by
  intro _ hk
  have wf : Instr.WF (.atomDecw f) := of_decide_eq_true hk
  refine decode_of_row ?_ hk
  obtain ⟨m, b0, r⟩ := AAtom.laid f wf.1 _ _ 21 14 rfl rfl (by decide) (by decide)
  change decodeRow (0x540000E0 + f.place) = _
  rw [decodeRow_21 m]
  simp [decodeAtom, r, b0]

theorem RoundTrip.nop (c : Nat) : RoundTrip.Statement (.nop c) := by
  intro _ hk
  have wf : Instr.WF (.nop c) := of_decide_eq_true hk
  refine decode_of_row ?_ hk
  change decodeRow (c * 2147483648) = _
  simp only [Instr.WF] at wf
  have l0 := wf
  obtain ⟨w, hw⟩ : ∃ w, w = 0 + 2 ^ 3 * (0 + 2 ^ 2 * (0 + 2 ^ 5 * (0 + 2 ^ 5 * (0 + 2 ^ 5 * (0 + 2 ^ 6 * (0 + 2 ^ 5 * (c))))))) := ⟨_, rfl⟩
  have he : c * 2147483648 = w := by rw [hw]; simp only [Nat.mul_add, ← Nat.mul_assoc, Nat.reducePow, Nat.reduceMul]; omega
  rw [he]
  have e0 : bits w 0 3 = 0 := hw ▸ (hit (by decide))
  have e1 : bits w 3 2 = 0 := hw ▸ (skip (by decide) (by decide) (hit (by decide)))
  have e2 : bits w 5 5 = 0 := hw ▸ (skip (by decide) (by decide) (skip (by decide) (by decide) (hit (by decide))))
  have e3 : bits w 10 5 = 0 := hw ▸ (skip (by decide) (by decide) (skip (by decide) (by decide) (skip (by decide) (by decide) (hit (by decide)))))
  have e4 : bits w 15 5 = 0 := hw ▸ (skip (by decide) (by decide) (skip (by decide) (by decide) (skip (by decide) (by decide) (skip (by decide) (by decide) (hit (by decide))))))
  have e5 : bits w 20 6 = 0 := hw ▸ (skip (by decide) (by decide) (skip (by decide) (by decide) (skip (by decide) (by decide) (skip (by decide) (by decide) (skip (by decide) (by decide) (hit (by decide)))))))
  have e6 : bits w 26 5 = 0 := hw ▸ (skip (by decide) (by decide) (skip (by decide) (by decide) (skip (by decide) (by decide) (skip (by decide) (by decide) (skip (by decide) (by decide) (skip (by decide) (by decide) (hit (by decide))))))))
  have e7 : bits w 31 1 = c := hw ▸ (skip (by decide) (by decide) (skip (by decide) (by decide) (skip (by decide) (by decide) (skip (by decide) (by decide) (skip (by decide) (by decide) (skip (by decide) (by decide) (skip (by decide) (by decide) (whole l0))))))))
  have e8 : bits w 0 26 = 0 := (bits_join e0 (bits_join e1 (bits_join e2 (bits_join e3 (bits_join e4 e5)))))
  rw [decodeRow_0 e6]
  simp [decodeSys, e0, e1, e2, e3, e4, e5, e6, e7, e8]

theorem RoundTrip.trap (c k : Nat) : RoundTrip.Statement (.trap c k) := by
  intro _ hk
  have wf : Instr.WF (.trap c k) := of_decide_eq_true hk
  refine decode_of_row ?_ hk
  change decodeRow (0x100000 + c * 2147483648 + k) = _
  simp only [Instr.WF] at wf
  obtain ⟨l0, l1⟩ := wf
  obtain ⟨w, hw⟩ : ∃ w, w = k + 2 ^ 10 * (0 + 2 ^ 5 * (0 + 2 ^ 5 * (1 + 2 ^ 6 * (0 + 2 ^ 5 * (c))))) := ⟨_, rfl⟩
  have he : 0x100000 + c * 2147483648 + k = w := by rw [hw]; simp only [Nat.mul_add, ← Nat.mul_assoc, Nat.reducePow, Nat.reduceMul]; omega
  rw [he]
  have e0 : bits w 0 10 = k := hw ▸ (hit l1)
  have e1 : bits w 10 5 = 0 := hw ▸ (skip l1 (by decide) (hit (by decide)))
  have e2 : bits w 15 5 = 0 := hw ▸ (skip l1 (by decide) (skip (by decide) (by decide) (hit (by decide))))
  have e3 : bits w 20 6 = 1 := hw ▸ (skip l1 (by decide) (skip (by decide) (by decide) (skip (by decide) (by decide) (hit (by decide)))))
  have e4 : bits w 26 5 = 0 := hw ▸ (skip l1 (by decide) (skip (by decide) (by decide) (skip (by decide) (by decide) (skip (by decide) (by decide) (hit (by decide))))))
  have e5 : bits w 31 1 = c := hw ▸ (skip l1 (by decide) (skip (by decide) (by decide) (skip (by decide) (by decide) (skip (by decide) (by decide) (skip (by decide) (by decide) (whole l0))))))
  have e6 : bits w 0 26 ≠ 0 := apart (a := 20) (m := 6) (by decide) e3 (by decide)
  have e7 : bits w 10 16 = 1024 := (bits_join e1 (bits_join e2 e3))
  rw [decodeRow_0 e4]
  simp [decodeSys, e0, e1, e2, e3, e4, e5, e6, e7]

theorem RoundTrip.eret (c : Nat) : RoundTrip.Statement (.eret c) := by
  intro _ hk
  have wf : Instr.WF (.eret c) := of_decide_eq_true hk
  refine decode_of_row ?_ hk
  change decodeRow (0x200000 + c * 2147483648) = _
  simp only [Instr.WF] at wf
  have l0 := wf
  obtain ⟨w, hw⟩ : ∃ w, w = 0 + 2 ^ 3 * (0 + 2 ^ 2 * (0 + 2 ^ 5 * (0 + 2 ^ 5 * (0 + 2 ^ 5 * (2 + 2 ^ 6 * (0 + 2 ^ 5 * (c))))))) := ⟨_, rfl⟩
  have he : 0x200000 + c * 2147483648 = w := by rw [hw]; simp only [Nat.mul_add, ← Nat.mul_assoc, Nat.reducePow, Nat.reduceMul]; omega
  rw [he]
  have e0 : bits w 0 3 = 0 := hw ▸ (hit (by decide))
  have e1 : bits w 3 2 = 0 := hw ▸ (skip (by decide) (by decide) (hit (by decide)))
  have e2 : bits w 5 5 = 0 := hw ▸ (skip (by decide) (by decide) (skip (by decide) (by decide) (hit (by decide))))
  have e3 : bits w 10 5 = 0 := hw ▸ (skip (by decide) (by decide) (skip (by decide) (by decide) (skip (by decide) (by decide) (hit (by decide)))))
  have e4 : bits w 15 5 = 0 := hw ▸ (skip (by decide) (by decide) (skip (by decide) (by decide) (skip (by decide) (by decide) (skip (by decide) (by decide) (hit (by decide))))))
  have e5 : bits w 20 6 = 2 := hw ▸ (skip (by decide) (by decide) (skip (by decide) (by decide) (skip (by decide) (by decide) (skip (by decide) (by decide) (skip (by decide) (by decide) (hit (by decide)))))))
  have e6 : bits w 26 5 = 0 := hw ▸ (skip (by decide) (by decide) (skip (by decide) (by decide) (skip (by decide) (by decide) (skip (by decide) (by decide) (skip (by decide) (by decide) (skip (by decide) (by decide) (hit (by decide))))))))
  have e7 : bits w 31 1 = c := hw ▸ (skip (by decide) (by decide) (skip (by decide) (by decide) (skip (by decide) (by decide) (skip (by decide) (by decide) (skip (by decide) (by decide) (skip (by decide) (by decide) (skip (by decide) (by decide) (whole l0))))))))
  have e8 : bits w 0 26 ≠ 0 := apart (a := 20) (m := 6) (by decide) e5 (by decide)
  have e9 : bits w 10 16 ≠ 1024 := apart (a := 10) (m := 6) (by decide) e5 (by decide)
  have e10 : bits w 0 26 = 2097152 := (bits_join e0 (bits_join e1 (bits_join e2 (bits_join e3 (bits_join e4 e5)))))
  rw [decodeRow_0 e6]
  simp [decodeSys, e0, e1, e2, e3, e4, e5, e6, e7, e8, e9, e10]

theorem RoundTrip.crr (c d r : Nat) : RoundTrip.Statement (.crr c d r) := by
  intro _ hk
  have wf : Instr.WF (.crr c d r) := of_decide_eq_true hk
  refine decode_of_row ?_ hk
  change decodeRow (0x300000 + c * 2147483648 + d * 32768 + r) = _
  simp only [Instr.WF] at wf
  obtain ⟨l0, l1, l2, _x0⟩ := wf
  obtain ⟨w, hw⟩ : ∃ w, w = r + 2 ^ 12 * (0 + 2 ^ 3 * (d + 2 ^ 5 * (3 + 2 ^ 6 * (0 + 2 ^ 5 * (c))))) := ⟨_, rfl⟩
  have he : 0x300000 + c * 2147483648 + d * 32768 + r = w := by rw [hw]; simp only [Nat.mul_add, ← Nat.mul_assoc, Nat.reducePow, Nat.reduceMul]; omega
  rw [he]
  have e0 : bits w 0 12 = r := hw ▸ (hit l2)
  have e1 : bits w 12 3 = 0 := hw ▸ (skip l2 (by decide) (hit (by decide)))
  have e2 : bits w 15 5 = d := hw ▸ (skip l2 (by decide) (skip (by decide) (by decide) (hit l1)))
  have e3 : bits w 20 6 = 3 := hw ▸ (skip l2 (by decide) (skip (by decide) (by decide) (skip l1 (by decide) (hit (by decide)))))
  have e4 : bits w 26 5 = 0 := hw ▸ (skip l2 (by decide) (skip (by decide) (by decide) (skip l1 (by decide) (skip (by decide) (by decide) (hit (by decide))))))
  have e5 : bits w 31 1 = c := hw ▸ (skip l2 (by decide) (skip (by decide) (by decide) (skip l1 (by decide) (skip (by decide) (by decide) (skip (by decide) (by decide) (whole l0))))))
  have e6 : bits w 0 26 ≠ 0 := apart (a := 20) (m := 6) (by decide) e3 (by decide)
  have e7 : bits w 10 16 ≠ 1024 := apart (a := 10) (m := 6) (by decide) e3 (by decide)
  have e8 : bits w 0 26 ≠ 2097152 := apart (a := 20) (m := 6) (by decide) e3 (by decide)
  rw [decodeRow_0 e4]
  simp [decodeSys, e0, e1, e2, e3, e4, e5, e6, e7, e8]

theorem RoundTrip.crw (c a r : Nat) : RoundTrip.Statement (.crw c a r) := by
  intro _ hk
  have wf : Instr.WF (.crw c a r) := of_decide_eq_true hk
  refine decode_of_row ?_ hk
  change decodeRow (0x400000 + c * 2147483648 + a * 32768 + r) = _
  simp only [Instr.WF] at wf
  obtain ⟨l0, l1, l2, _x0⟩ := wf
  obtain ⟨w, hw⟩ : ∃ w, w = r + 2 ^ 12 * (0 + 2 ^ 3 * (a + 2 ^ 5 * (4 + 2 ^ 6 * (0 + 2 ^ 5 * (c))))) := ⟨_, rfl⟩
  have he : 0x400000 + c * 2147483648 + a * 32768 + r = w := by rw [hw]; simp only [Nat.mul_add, ← Nat.mul_assoc, Nat.reducePow, Nat.reduceMul]; omega
  rw [he]
  have e0 : bits w 0 12 = r := hw ▸ (hit l2)
  have e1 : bits w 12 3 = 0 := hw ▸ (skip l2 (by decide) (hit (by decide)))
  have e2 : bits w 15 5 = a := hw ▸ (skip l2 (by decide) (skip (by decide) (by decide) (hit l1)))
  have e3 : bits w 20 6 = 4 := hw ▸ (skip l2 (by decide) (skip (by decide) (by decide) (skip l1 (by decide) (hit (by decide)))))
  have e4 : bits w 26 5 = 0 := hw ▸ (skip l2 (by decide) (skip (by decide) (by decide) (skip l1 (by decide) (skip (by decide) (by decide) (hit (by decide))))))
  have e5 : bits w 31 1 = c := hw ▸ (skip l2 (by decide) (skip (by decide) (by decide) (skip l1 (by decide) (skip (by decide) (by decide) (skip (by decide) (by decide) (whole l0))))))
  have e6 : bits w 0 26 ≠ 0 := apart (a := 20) (m := 6) (by decide) e3 (by decide)
  have e7 : bits w 10 16 ≠ 1024 := apart (a := 10) (m := 6) (by decide) e3 (by decide)
  have e8 : bits w 0 26 ≠ 2097152 := apart (a := 20) (m := 6) (by decide) e3 (by decide)
  rw [decodeRow_0 e4]
  simp [decodeSys, e0, e1, e2, e3, e4, e5, e6, e7, e8]

theorem RoundTrip.crset (c a r : Nat) : RoundTrip.Statement (.crset c a r) := by
  intro _ hk
  have wf : Instr.WF (.crset c a r) := of_decide_eq_true hk
  refine decode_of_row ?_ hk
  change decodeRow (0x500000 + c * 2147483648 + a * 32768 + r) = _
  simp only [Instr.WF] at wf
  obtain ⟨l0, l1, l2, _x0⟩ := wf
  obtain ⟨w, hw⟩ : ∃ w, w = r + 2 ^ 12 * (0 + 2 ^ 3 * (a + 2 ^ 5 * (5 + 2 ^ 6 * (0 + 2 ^ 5 * (c))))) := ⟨_, rfl⟩
  have he : 0x500000 + c * 2147483648 + a * 32768 + r = w := by rw [hw]; simp only [Nat.mul_add, ← Nat.mul_assoc, Nat.reducePow, Nat.reduceMul]; omega
  rw [he]
  have e0 : bits w 0 12 = r := hw ▸ (hit l2)
  have e1 : bits w 12 3 = 0 := hw ▸ (skip l2 (by decide) (hit (by decide)))
  have e2 : bits w 15 5 = a := hw ▸ (skip l2 (by decide) (skip (by decide) (by decide) (hit l1)))
  have e3 : bits w 20 6 = 5 := hw ▸ (skip l2 (by decide) (skip (by decide) (by decide) (skip l1 (by decide) (hit (by decide)))))
  have e4 : bits w 26 5 = 0 := hw ▸ (skip l2 (by decide) (skip (by decide) (by decide) (skip l1 (by decide) (skip (by decide) (by decide) (hit (by decide))))))
  have e5 : bits w 31 1 = c := hw ▸ (skip l2 (by decide) (skip (by decide) (by decide) (skip l1 (by decide) (skip (by decide) (by decide) (skip (by decide) (by decide) (whole l0))))))
  have e6 : bits w 0 26 ≠ 0 := apart (a := 20) (m := 6) (by decide) e3 (by decide)
  have e7 : bits w 10 16 ≠ 1024 := apart (a := 10) (m := 6) (by decide) e3 (by decide)
  have e8 : bits w 0 26 ≠ 2097152 := apart (a := 20) (m := 6) (by decide) e3 (by decide)
  rw [decodeRow_0 e4]
  simp [decodeSys, e0, e1, e2, e3, e4, e5, e6, e7, e8]

theorem RoundTrip.crclr (c a r : Nat) : RoundTrip.Statement (.crclr c a r) := by
  intro _ hk
  have wf : Instr.WF (.crclr c a r) := of_decide_eq_true hk
  refine decode_of_row ?_ hk
  change decodeRow (0x600000 + c * 2147483648 + a * 32768 + r) = _
  simp only [Instr.WF] at wf
  obtain ⟨l0, l1, l2, _x0⟩ := wf
  obtain ⟨w, hw⟩ : ∃ w, w = r + 2 ^ 12 * (0 + 2 ^ 3 * (a + 2 ^ 5 * (6 + 2 ^ 6 * (0 + 2 ^ 5 * (c))))) := ⟨_, rfl⟩
  have he : 0x600000 + c * 2147483648 + a * 32768 + r = w := by rw [hw]; simp only [Nat.mul_add, ← Nat.mul_assoc, Nat.reducePow, Nat.reduceMul]; omega
  rw [he]
  have e0 : bits w 0 12 = r := hw ▸ (hit l2)
  have e1 : bits w 12 3 = 0 := hw ▸ (skip l2 (by decide) (hit (by decide)))
  have e2 : bits w 15 5 = a := hw ▸ (skip l2 (by decide) (skip (by decide) (by decide) (hit l1)))
  have e3 : bits w 20 6 = 6 := hw ▸ (skip l2 (by decide) (skip (by decide) (by decide) (skip l1 (by decide) (hit (by decide)))))
  have e4 : bits w 26 5 = 0 := hw ▸ (skip l2 (by decide) (skip (by decide) (by decide) (skip l1 (by decide) (skip (by decide) (by decide) (hit (by decide))))))
  have e5 : bits w 31 1 = c := hw ▸ (skip l2 (by decide) (skip (by decide) (by decide) (skip l1 (by decide) (skip (by decide) (by decide) (skip (by decide) (by decide) (whole l0))))))
  have e6 : bits w 0 26 ≠ 0 := apart (a := 20) (m := 6) (by decide) e3 (by decide)
  have e7 : bits w 10 16 ≠ 1024 := apart (a := 10) (m := 6) (by decide) e3 (by decide)
  have e8 : bits w 0 26 ≠ 2097152 := apart (a := 20) (m := 6) (by decide) e3 (by decide)
  rw [decodeRow_0 e4]
  simp [decodeSys, e0, e1, e2, e3, e4, e5, e6, e7, e8]

theorem RoundTrip.fence (c s : Nat) : RoundTrip.Statement (.fence c s) := by
  intro _ hk
  have wf : Instr.WF (.fence c s) := of_decide_eq_true hk
  refine decode_of_row ?_ hk
  change decodeRow (0x700000 + c * 2147483648 + s) = _
  simp only [Instr.WF] at wf
  obtain ⟨l0, l1, _x0⟩ := wf
  obtain ⟨w, hw⟩ : ∃ w, w = s + 2 ^ 3 * (0 + 2 ^ 2 * (0 + 2 ^ 5 * (0 + 2 ^ 5 * (0 + 2 ^ 5 * (7 + 2 ^ 6 * (0 + 2 ^ 5 * (c))))))) := ⟨_, rfl⟩
  have he : 0x700000 + c * 2147483648 + s = w := by rw [hw]; simp only [Nat.mul_add, ← Nat.mul_assoc, Nat.reducePow, Nat.reduceMul]; omega
  rw [he]
  have e0 : bits w 0 3 = s := hw ▸ (hit l1)
  have e1 : bits w 3 2 = 0 := hw ▸ (skip l1 (by decide) (hit (by decide)))
  have e2 : bits w 5 5 = 0 := hw ▸ (skip l1 (by decide) (skip (by decide) (by decide) (hit (by decide))))
  have e3 : bits w 10 5 = 0 := hw ▸ (skip l1 (by decide) (skip (by decide) (by decide) (skip (by decide) (by decide) (hit (by decide)))))
  have e4 : bits w 15 5 = 0 := hw ▸ (skip l1 (by decide) (skip (by decide) (by decide) (skip (by decide) (by decide) (skip (by decide) (by decide) (hit (by decide))))))
  have e5 : bits w 20 6 = 7 := hw ▸ (skip l1 (by decide) (skip (by decide) (by decide) (skip (by decide) (by decide) (skip (by decide) (by decide) (skip (by decide) (by decide) (hit (by decide)))))))
  have e6 : bits w 26 5 = 0 := hw ▸ (skip l1 (by decide) (skip (by decide) (by decide) (skip (by decide) (by decide) (skip (by decide) (by decide) (skip (by decide) (by decide) (skip (by decide) (by decide) (hit (by decide))))))))
  have e7 : bits w 31 1 = c := hw ▸ (skip l1 (by decide) (skip (by decide) (by decide) (skip (by decide) (by decide) (skip (by decide) (by decide) (skip (by decide) (by decide) (skip (by decide) (by decide) (skip (by decide) (by decide) (whole l0))))))))
  have e8 : bits w 0 26 ≠ 0 := apart (a := 20) (m := 6) (by decide) e5 (by decide)
  have e9 : bits w 10 16 ≠ 1024 := apart (a := 10) (m := 6) (by decide) e5 (by decide)
  have e10 : bits w 0 26 ≠ 2097152 := apart (a := 20) (m := 6) (by decide) e5 (by decide)
  have e11 : bits w 3 23 = 917504 := (bits_join e1 (bits_join e2 (bits_join e3 (bits_join e4 e5))))
  rw [decodeRow_0 e6]
  simp [decodeSys, e0, e1, e2, e3, e4, e5, e6, e7, e8, e9, e10, e11]

theorem RoundTrip.fenceAcq (c s : Nat) : RoundTrip.Statement (.fenceAcq c s) := by
  intro _ hk
  have wf : Instr.WF (.fenceAcq c s) := of_decide_eq_true hk
  refine decode_of_row ?_ hk
  change decodeRow (0x700010 + c * 2147483648 + s) = _
  simp only [Instr.WF] at wf
  obtain ⟨l0, l1, _x0⟩ := wf
  obtain ⟨w, hw⟩ : ∃ w, w = s + 2 ^ 3 * (2 + 2 ^ 2 * (0 + 2 ^ 5 * (0 + 2 ^ 5 * (0 + 2 ^ 5 * (7 + 2 ^ 6 * (0 + 2 ^ 5 * (c))))))) := ⟨_, rfl⟩
  have he : 0x700010 + c * 2147483648 + s = w := by rw [hw]; simp only [Nat.mul_add, ← Nat.mul_assoc, Nat.reducePow, Nat.reduceMul]; omega
  rw [he]
  have e0 : bits w 0 3 = s := hw ▸ (hit l1)
  have e1 : bits w 3 2 = 2 := hw ▸ (skip l1 (by decide) (hit (by decide)))
  have e2 : bits w 5 5 = 0 := hw ▸ (skip l1 (by decide) (skip (by decide) (by decide) (hit (by decide))))
  have e3 : bits w 10 5 = 0 := hw ▸ (skip l1 (by decide) (skip (by decide) (by decide) (skip (by decide) (by decide) (hit (by decide)))))
  have e4 : bits w 15 5 = 0 := hw ▸ (skip l1 (by decide) (skip (by decide) (by decide) (skip (by decide) (by decide) (skip (by decide) (by decide) (hit (by decide))))))
  have e5 : bits w 20 6 = 7 := hw ▸ (skip l1 (by decide) (skip (by decide) (by decide) (skip (by decide) (by decide) (skip (by decide) (by decide) (skip (by decide) (by decide) (hit (by decide)))))))
  have e6 : bits w 26 5 = 0 := hw ▸ (skip l1 (by decide) (skip (by decide) (by decide) (skip (by decide) (by decide) (skip (by decide) (by decide) (skip (by decide) (by decide) (skip (by decide) (by decide) (hit (by decide))))))))
  have e7 : bits w 31 1 = c := hw ▸ (skip l1 (by decide) (skip (by decide) (by decide) (skip (by decide) (by decide) (skip (by decide) (by decide) (skip (by decide) (by decide) (skip (by decide) (by decide) (skip (by decide) (by decide) (whole l0))))))))
  have e8 : bits w 0 26 ≠ 0 := apart (a := 3) (m := 2) (by decide) e1 (by decide)
  have e9 : bits w 10 16 ≠ 1024 := apart (a := 10) (m := 6) (by decide) e5 (by decide)
  have e10 : bits w 0 26 ≠ 2097152 := apart (a := 3) (m := 2) (by decide) e1 (by decide)
  have e11 : bits w 3 23 ≠ 917504 := apart (a := 0) (m := 2) (by decide) e1 (by decide)
  have e12 : bits w 3 23 = 917506 := (bits_join e1 (bits_join e2 (bits_join e3 (bits_join e4 e5))))
  rw [decodeRow_0 e6]
  simp [decodeSys, e0, e1, e2, e3, e4, e5, e6, e7, e8, e9, e10, e11, e12]

theorem RoundTrip.fenceRel (c s : Nat) : RoundTrip.Statement (.fenceRel c s) := by
  intro _ hk
  have wf : Instr.WF (.fenceRel c s) := of_decide_eq_true hk
  refine decode_of_row ?_ hk
  change decodeRow (0x700020 + c * 2147483648 + s) = _
  simp only [Instr.WF] at wf
  obtain ⟨l0, l1, _x0⟩ := wf
  obtain ⟨w, hw⟩ : ∃ w, w = s + 2 ^ 3 * (0 + 2 ^ 2 * (1 + 2 ^ 5 * (0 + 2 ^ 5 * (0 + 2 ^ 5 * (7 + 2 ^ 6 * (0 + 2 ^ 5 * (c))))))) := ⟨_, rfl⟩
  have he : 0x700020 + c * 2147483648 + s = w := by rw [hw]; simp only [Nat.mul_add, ← Nat.mul_assoc, Nat.reducePow, Nat.reduceMul]; omega
  rw [he]
  have e0 : bits w 0 3 = s := hw ▸ (hit l1)
  have e1 : bits w 3 2 = 0 := hw ▸ (skip l1 (by decide) (hit (by decide)))
  have e2 : bits w 5 5 = 1 := hw ▸ (skip l1 (by decide) (skip (by decide) (by decide) (hit (by decide))))
  have e3 : bits w 10 5 = 0 := hw ▸ (skip l1 (by decide) (skip (by decide) (by decide) (skip (by decide) (by decide) (hit (by decide)))))
  have e4 : bits w 15 5 = 0 := hw ▸ (skip l1 (by decide) (skip (by decide) (by decide) (skip (by decide) (by decide) (skip (by decide) (by decide) (hit (by decide))))))
  have e5 : bits w 20 6 = 7 := hw ▸ (skip l1 (by decide) (skip (by decide) (by decide) (skip (by decide) (by decide) (skip (by decide) (by decide) (skip (by decide) (by decide) (hit (by decide)))))))
  have e6 : bits w 26 5 = 0 := hw ▸ (skip l1 (by decide) (skip (by decide) (by decide) (skip (by decide) (by decide) (skip (by decide) (by decide) (skip (by decide) (by decide) (skip (by decide) (by decide) (hit (by decide))))))))
  have e7 : bits w 31 1 = c := hw ▸ (skip l1 (by decide) (skip (by decide) (by decide) (skip (by decide) (by decide) (skip (by decide) (by decide) (skip (by decide) (by decide) (skip (by decide) (by decide) (skip (by decide) (by decide) (whole l0))))))))
  have e8 : bits w 0 26 ≠ 0 := apart (a := 5) (m := 5) (by decide) e2 (by decide)
  have e9 : bits w 10 16 ≠ 1024 := apart (a := 10) (m := 6) (by decide) e5 (by decide)
  have e10 : bits w 0 26 ≠ 2097152 := apart (a := 5) (m := 5) (by decide) e2 (by decide)
  have e11 : bits w 3 23 ≠ 917504 := apart (a := 2) (m := 5) (by decide) e2 (by decide)
  have e12 : bits w 3 23 ≠ 917506 := apart (a := 0) (m := 2) (by decide) e1 (by decide)
  have e13 : bits w 3 23 = 917508 := (bits_join e1 (bits_join e2 (bits_join e3 (bits_join e4 e5))))
  rw [decodeRow_0 e6]
  simp [decodeSys, e0, e1, e2, e3, e4, e5, e6, e7, e8, e9, e10, e11, e12, e13]

theorem RoundTrip.fenceLayer (c : Nat) : RoundTrip.Statement (.fenceLayer c) := by
  intro _ hk
  have wf : Instr.WF (.fenceLayer c) := of_decide_eq_true hk
  refine decode_of_row ?_ hk
  change decodeRow (0x70000B + c * 2147483648) = _
  simp only [Instr.WF] at wf
  have l0 := wf
  obtain ⟨w, hw⟩ : ∃ w, w = 3 + 2 ^ 3 * (1 + 2 ^ 2 * (0 + 2 ^ 5 * (0 + 2 ^ 5 * (0 + 2 ^ 5 * (7 + 2 ^ 6 * (0 + 2 ^ 5 * (c))))))) := ⟨_, rfl⟩
  have he : 0x70000B + c * 2147483648 = w := by rw [hw]; simp only [Nat.mul_add, ← Nat.mul_assoc, Nat.reducePow, Nat.reduceMul]; omega
  rw [he]
  have e0 : bits w 0 3 = 3 := hw ▸ (hit (by decide))
  have e1 : bits w 3 2 = 1 := hw ▸ (skip (by decide) (by decide) (hit (by decide)))
  have e2 : bits w 5 5 = 0 := hw ▸ (skip (by decide) (by decide) (skip (by decide) (by decide) (hit (by decide))))
  have e3 : bits w 10 5 = 0 := hw ▸ (skip (by decide) (by decide) (skip (by decide) (by decide) (skip (by decide) (by decide) (hit (by decide)))))
  have e4 : bits w 15 5 = 0 := hw ▸ (skip (by decide) (by decide) (skip (by decide) (by decide) (skip (by decide) (by decide) (skip (by decide) (by decide) (hit (by decide))))))
  have e5 : bits w 20 6 = 7 := hw ▸ (skip (by decide) (by decide) (skip (by decide) (by decide) (skip (by decide) (by decide) (skip (by decide) (by decide) (skip (by decide) (by decide) (hit (by decide)))))))
  have e6 : bits w 26 5 = 0 := hw ▸ (skip (by decide) (by decide) (skip (by decide) (by decide) (skip (by decide) (by decide) (skip (by decide) (by decide) (skip (by decide) (by decide) (skip (by decide) (by decide) (hit (by decide))))))))
  have e7 : bits w 31 1 = c := hw ▸ (skip (by decide) (by decide) (skip (by decide) (by decide) (skip (by decide) (by decide) (skip (by decide) (by decide) (skip (by decide) (by decide) (skip (by decide) (by decide) (skip (by decide) (by decide) (whole l0))))))))
  have e8 : bits w 0 26 ≠ 0 := apart (a := 0) (m := 3) (by decide) e0 (by decide)
  have e9 : bits w 10 16 ≠ 1024 := apart (a := 10) (m := 6) (by decide) e5 (by decide)
  have e10 : bits w 0 26 ≠ 2097152 := apart (a := 0) (m := 3) (by decide) e0 (by decide)
  have e11 : bits w 3 23 ≠ 917504 := apart (a := 0) (m := 2) (by decide) e1 (by decide)
  have e12 : bits w 3 23 ≠ 917506 := apart (a := 0) (m := 2) (by decide) e1 (by decide)
  have e13 : bits w 3 23 ≠ 917508 := apart (a := 0) (m := 2) (by decide) e1 (by decide)
  have e14 : bits w 0 26 = 7340043 := (bits_join e0 (bits_join e1 (bits_join e2 (bits_join e3 (bits_join e4 e5)))))
  rw [decodeRow_0 e6]
  simp [decodeSys, e0, e1, e2, e3, e4, e5, e6, e7, e8, e9, e10, e11, e12, e13, e14]

theorem RoundTrip.quota (c q a b : Nat) : RoundTrip.Statement (.quota c q a b) := by
  intro _ hk
  have wf : Instr.WF (.quota c q a b) := of_decide_eq_true hk
  refine decode_of_row ?_ hk
  change decodeRow (0x800000 + c * 2147483648 + q * 32768 + a * 1024 + b * 32) = _
  simp only [Instr.WF] at wf
  obtain ⟨l0, l1, l2, l3⟩ := wf
  obtain ⟨w, hw⟩ : ∃ w, w = 0 + 2 ^ 3 * (0 + 2 ^ 2 * (b + 2 ^ 5 * (a + 2 ^ 5 * (q + 2 ^ 3 * (0 + 2 ^ 2 * (8 + 2 ^ 6 * (0 + 2 ^ 5 * (c)))))))) := ⟨_, rfl⟩
  have he : 0x800000 + c * 2147483648 + q * 32768 + a * 1024 + b * 32 = w := by rw [hw]; simp only [Nat.mul_add, ← Nat.mul_assoc, Nat.reducePow, Nat.reduceMul]; omega
  rw [he]
  have e0 : bits w 0 3 = 0 := hw ▸ (hit (by decide))
  have e1 : bits w 3 2 = 0 := hw ▸ (skip (by decide) (by decide) (hit (by decide)))
  have e2 : bits w 5 5 = b := hw ▸ (skip (by decide) (by decide) (skip (by decide) (by decide) (hit l3)))
  have e3 : bits w 10 5 = a := hw ▸ (skip (by decide) (by decide) (skip (by decide) (by decide) (skip l3 (by decide) (hit l2))))
  have e4 : bits w 15 3 = q := hw ▸ (skip (by decide) (by decide) (skip (by decide) (by decide) (skip l3 (by decide) (skip l2 (by decide) (hit l1)))))
  have e5 : bits w 18 2 = 0 := hw ▸ (skip (by decide) (by decide) (skip (by decide) (by decide) (skip l3 (by decide) (skip l2 (by decide) (skip l1 (by decide) (hit (by decide)))))))
  have e6 : bits w 20 6 = 8 := hw ▸ (skip (by decide) (by decide) (skip (by decide) (by decide) (skip l3 (by decide) (skip l2 (by decide) (skip l1 (by decide) (skip (by decide) (by decide) (hit (by decide))))))))
  have e7 : bits w 26 5 = 0 := hw ▸ (skip (by decide) (by decide) (skip (by decide) (by decide) (skip l3 (by decide) (skip l2 (by decide) (skip l1 (by decide) (skip (by decide) (by decide) (skip (by decide) (by decide) (hit (by decide)))))))))
  have e8 : bits w 31 1 = c := hw ▸ (skip (by decide) (by decide) (skip (by decide) (by decide) (skip l3 (by decide) (skip l2 (by decide) (skip l1 (by decide) (skip (by decide) (by decide) (skip (by decide) (by decide) (skip (by decide) (by decide) (whole l0)))))))))
  have e9 : bits w 0 26 ≠ 0 := apart (a := 20) (m := 6) (by decide) e6 (by decide)
  have e10 : bits w 10 16 ≠ 1024 := apart (a := 10) (m := 6) (by decide) e6 (by decide)
  have e11 : bits w 0 26 ≠ 2097152 := apart (a := 20) (m := 6) (by decide) e6 (by decide)
  have e12 : bits w 3 23 ≠ 917504 := apart (a := 17) (m := 6) (by decide) e6 (by decide)
  have e13 : bits w 3 23 ≠ 917506 := apart (a := 0) (m := 2) (by decide) e1 (by decide)
  have e14 : bits w 3 23 ≠ 917508 := apart (a := 17) (m := 6) (by decide) e6 (by decide)
  have e15 : bits w 0 26 ≠ 7340043 := apart (a := 0) (m := 3) (by decide) e0 (by decide)
  have e16 : bits w 0 5 = 0 := (bits_join e0 e1)
  have e17 : bits w 18 8 = 32 := (bits_join e5 e6)
  rw [decodeRow_0 e7]
  simp [decodeSys, e0, e1, e2, e3, e4, e5, e6, e7, e8, e9, e10, e11, e12, e13, e14, e15, e16, e17]

theorem RoundTrip.sleep (c n : Nat) : RoundTrip.Statement (.sleep c n) := by
  intro _ hk
  have wf : Instr.WF (.sleep c n) := of_decide_eq_true hk
  refine decode_of_row ?_ hk
  change decodeRow (0x900000 + c * 2147483648 + n) = _
  simp only [Instr.WF] at wf
  obtain ⟨l0, l1⟩ := wf
  obtain ⟨w, hw⟩ : ∃ w, w = n + 2 ^ 16 * (0 + 2 ^ 4 * (9 + 2 ^ 6 * (0 + 2 ^ 5 * (c)))) := ⟨_, rfl⟩
  have he : 0x900000 + c * 2147483648 + n = w := by rw [hw]; simp only [Nat.mul_add, ← Nat.mul_assoc, Nat.reducePow, Nat.reduceMul]; omega
  rw [he]
  have e0 : bits w 0 16 = n := hw ▸ (hit l1)
  have e1 : bits w 16 4 = 0 := hw ▸ (skip l1 (by decide) (hit (by decide)))
  have e2 : bits w 20 6 = 9 := hw ▸ (skip l1 (by decide) (skip (by decide) (by decide) (hit (by decide))))
  have e3 : bits w 26 5 = 0 := hw ▸ (skip l1 (by decide) (skip (by decide) (by decide) (skip (by decide) (by decide) (hit (by decide)))))
  have e4 : bits w 31 1 = c := hw ▸ (skip l1 (by decide) (skip (by decide) (by decide) (skip (by decide) (by decide) (skip (by decide) (by decide) (whole l0)))))
  have e5 : bits w 0 26 ≠ 0 := apart (a := 20) (m := 6) (by decide) e2 (by decide)
  have e6 : bits w 10 16 ≠ 1024 := apart (a := 10) (m := 6) (by decide) e2 (by decide)
  have e7 : bits w 0 26 ≠ 2097152 := apart (a := 20) (m := 6) (by decide) e2 (by decide)
  have e8 : bits w 3 23 ≠ 917504 := apart (a := 17) (m := 6) (by decide) e2 (by decide)
  have e9 : bits w 3 23 ≠ 917506 := apart (a := 17) (m := 6) (by decide) e2 (by decide)
  have e10 : bits w 3 23 ≠ 917508 := apart (a := 17) (m := 6) (by decide) e2 (by decide)
  have e11 : bits w 0 26 ≠ 7340043 := apart (a := 20) (m := 6) (by decide) e2 (by decide)
  have e12 : bits w 18 8 ≠ 32 := apart (a := 2) (m := 6) (by decide) e2 (by decide)
  have e13 : bits w 16 10 = 144 := (bits_join e1 e2)
  rw [decodeRow_0 e3]
  simp [decodeSys, e0, e1, e2, e3, e4, e5, e6, e7, e8, e9, e10, e11, e12, e13]

theorem RoundTrip.tlbinvPage (c a : Nat) : RoundTrip.Statement (.tlbinvPage c a) := by
  intro _ hk
  have wf : Instr.WF (.tlbinvPage c a) := of_decide_eq_true hk
  refine decode_of_row ?_ hk
  change decodeRow (0xA00000 + c * 2147483648 + a * 1024) = _
  simp only [Instr.WF] at wf
  obtain ⟨l0, l1⟩ := wf
  obtain ⟨w, hw⟩ : ∃ w, w = 0 + 2 ^ 3 * (0 + 2 ^ 2 * (0 + 2 ^ 5 * (a + 2 ^ 5 * (0 + 2 ^ 5 * (10 + 2 ^ 6 * (0 + 2 ^ 5 * (c))))))) := ⟨_, rfl⟩
  have he : 0xA00000 + c * 2147483648 + a * 1024 = w := by rw [hw]; simp only [Nat.mul_add, ← Nat.mul_assoc, Nat.reducePow, Nat.reduceMul]; omega
  rw [he]
  have e0 : bits w 0 3 = 0 := hw ▸ (hit (by decide))
  have e1 : bits w 3 2 = 0 := hw ▸ (skip (by decide) (by decide) (hit (by decide)))
  have e2 : bits w 5 5 = 0 := hw ▸ (skip (by decide) (by decide) (skip (by decide) (by decide) (hit (by decide))))
  have e3 : bits w 10 5 = a := hw ▸ (skip (by decide) (by decide) (skip (by decide) (by decide) (skip (by decide) (by decide) (hit l1))))
  have e4 : bits w 15 5 = 0 := hw ▸ (skip (by decide) (by decide) (skip (by decide) (by decide) (skip (by decide) (by decide) (skip l1 (by decide) (hit (by decide))))))
  have e5 : bits w 20 6 = 10 := hw ▸ (skip (by decide) (by decide) (skip (by decide) (by decide) (skip (by decide) (by decide) (skip l1 (by decide) (skip (by decide) (by decide) (hit (by decide)))))))
  have e6 : bits w 26 5 = 0 := hw ▸ (skip (by decide) (by decide) (skip (by decide) (by decide) (skip (by decide) (by decide) (skip l1 (by decide) (skip (by decide) (by decide) (skip (by decide) (by decide) (hit (by decide))))))))
  have e7 : bits w 31 1 = c := hw ▸ (skip (by decide) (by decide) (skip (by decide) (by decide) (skip (by decide) (by decide) (skip l1 (by decide) (skip (by decide) (by decide) (skip (by decide) (by decide) (skip (by decide) (by decide) (whole l0))))))))
  have e8 : bits w 0 26 ≠ 0 := apart (a := 20) (m := 6) (by decide) e5 (by decide)
  have e9 : bits w 10 16 ≠ 1024 := apart (a := 10) (m := 6) (by decide) e5 (by decide)
  have e10 : bits w 0 26 ≠ 2097152 := apart (a := 20) (m := 6) (by decide) e5 (by decide)
  have e11 : bits w 3 23 ≠ 917504 := apart (a := 17) (m := 6) (by decide) e5 (by decide)
  have e12 : bits w 3 23 ≠ 917506 := apart (a := 0) (m := 2) (by decide) e1 (by decide)
  have e13 : bits w 3 23 ≠ 917508 := apart (a := 2) (m := 5) (by decide) e2 (by decide)
  have e14 : bits w 0 26 ≠ 7340043 := apart (a := 0) (m := 3) (by decide) e0 (by decide)
  have e15 : bits w 18 8 ≠ 32 := apart (a := 2) (m := 6) (by decide) e5 (by decide)
  have e16 : bits w 16 10 ≠ 144 := apart (a := 4) (m := 6) (by decide) e5 (by decide)
  have e17 : bits w 0 10 = 0 := (bits_join e0 (bits_join e1 e2))
  have e18 : bits w 15 11 = 320 := (bits_join e4 e5)
  rw [decodeRow_0 e6]
  simp [decodeSys, e0, e1, e2, e3, e4, e5, e6, e7, e8, e9, e10, e11, e12, e13, e14, e15, e16, e17, e18]

theorem RoundTrip.tlbinvAsid (c : Nat) : RoundTrip.Statement (.tlbinvAsid c) := by
  intro _ hk
  have wf : Instr.WF (.tlbinvAsid c) := of_decide_eq_true hk
  refine decode_of_row ?_ hk
  change decodeRow (0xA00001 + c * 2147483648) = _
  simp only [Instr.WF] at wf
  have l0 := wf
  obtain ⟨w, hw⟩ : ∃ w, w = 1 + 2 ^ 3 * (0 + 2 ^ 2 * (0 + 2 ^ 5 * (0 + 2 ^ 5 * (0 + 2 ^ 5 * (10 + 2 ^ 6 * (0 + 2 ^ 5 * (c))))))) := ⟨_, rfl⟩
  have he : 0xA00001 + c * 2147483648 = w := by rw [hw]; simp only [Nat.mul_add, ← Nat.mul_assoc, Nat.reducePow, Nat.reduceMul]; omega
  rw [he]
  have e0 : bits w 0 3 = 1 := hw ▸ (hit (by decide))
  have e1 : bits w 3 2 = 0 := hw ▸ (skip (by decide) (by decide) (hit (by decide)))
  have e2 : bits w 5 5 = 0 := hw ▸ (skip (by decide) (by decide) (skip (by decide) (by decide) (hit (by decide))))
  have e3 : bits w 10 5 = 0 := hw ▸ (skip (by decide) (by decide) (skip (by decide) (by decide) (skip (by decide) (by decide) (hit (by decide)))))
  have e4 : bits w 15 5 = 0 := hw ▸ (skip (by decide) (by decide) (skip (by decide) (by decide) (skip (by decide) (by decide) (skip (by decide) (by decide) (hit (by decide))))))
  have e5 : bits w 20 6 = 10 := hw ▸ (skip (by decide) (by decide) (skip (by decide) (by decide) (skip (by decide) (by decide) (skip (by decide) (by decide) (skip (by decide) (by decide) (hit (by decide)))))))
  have e6 : bits w 26 5 = 0 := hw ▸ (skip (by decide) (by decide) (skip (by decide) (by decide) (skip (by decide) (by decide) (skip (by decide) (by decide) (skip (by decide) (by decide) (skip (by decide) (by decide) (hit (by decide))))))))
  have e7 : bits w 31 1 = c := hw ▸ (skip (by decide) (by decide) (skip (by decide) (by decide) (skip (by decide) (by decide) (skip (by decide) (by decide) (skip (by decide) (by decide) (skip (by decide) (by decide) (skip (by decide) (by decide) (whole l0))))))))
  have e8 : bits w 0 26 ≠ 0 := apart (a := 0) (m := 3) (by decide) e0 (by decide)
  have e9 : bits w 10 16 ≠ 1024 := apart (a := 10) (m := 6) (by decide) e5 (by decide)
  have e10 : bits w 0 26 ≠ 2097152 := apart (a := 0) (m := 3) (by decide) e0 (by decide)
  have e11 : bits w 3 23 ≠ 917504 := apart (a := 17) (m := 6) (by decide) e5 (by decide)
  have e12 : bits w 3 23 ≠ 917506 := apart (a := 0) (m := 2) (by decide) e1 (by decide)
  have e13 : bits w 3 23 ≠ 917508 := apart (a := 2) (m := 5) (by decide) e2 (by decide)
  have e14 : bits w 0 26 ≠ 7340043 := apart (a := 0) (m := 3) (by decide) e0 (by decide)
  have e15 : bits w 0 5 ≠ 0 := apart (a := 0) (m := 3) (by decide) e0 (by decide)
  have e16 : bits w 16 10 ≠ 144 := apart (a := 4) (m := 6) (by decide) e5 (by decide)
  have e17 : bits w 0 10 ≠ 0 := apart (a := 0) (m := 3) (by decide) e0 (by decide)
  have e18 : bits w 0 26 = 10485761 := (bits_join e0 (bits_join e1 (bits_join e2 (bits_join e3 (bits_join e4 e5)))))
  rw [decodeRow_0 e6]
  simp [decodeSys, e0, e1, e2, e3, e4, e5, e6, e7, e8, e9, e10, e11, e12, e13, e14, e15, e16, e17, e18]

theorem RoundTrip.tlbinvAll (c : Nat) : RoundTrip.Statement (.tlbinvAll c) := by
  intro _ hk
  have wf : Instr.WF (.tlbinvAll c) := of_decide_eq_true hk
  refine decode_of_row ?_ hk
  change decodeRow (0xA00002 + c * 2147483648) = _
  simp only [Instr.WF] at wf
  have l0 := wf
  obtain ⟨w, hw⟩ : ∃ w, w = 2 + 2 ^ 3 * (0 + 2 ^ 2 * (0 + 2 ^ 5 * (0 + 2 ^ 5 * (0 + 2 ^ 5 * (10 + 2 ^ 6 * (0 + 2 ^ 5 * (c))))))) := ⟨_, rfl⟩
  have he : 0xA00002 + c * 2147483648 = w := by rw [hw]; simp only [Nat.mul_add, ← Nat.mul_assoc, Nat.reducePow, Nat.reduceMul]; omega
  rw [he]
  have e0 : bits w 0 3 = 2 := hw ▸ (hit (by decide))
  have e1 : bits w 3 2 = 0 := hw ▸ (skip (by decide) (by decide) (hit (by decide)))
  have e2 : bits w 5 5 = 0 := hw ▸ (skip (by decide) (by decide) (skip (by decide) (by decide) (hit (by decide))))
  have e3 : bits w 10 5 = 0 := hw ▸ (skip (by decide) (by decide) (skip (by decide) (by decide) (skip (by decide) (by decide) (hit (by decide)))))
  have e4 : bits w 15 5 = 0 := hw ▸ (skip (by decide) (by decide) (skip (by decide) (by decide) (skip (by decide) (by decide) (skip (by decide) (by decide) (hit (by decide))))))
  have e5 : bits w 20 6 = 10 := hw ▸ (skip (by decide) (by decide) (skip (by decide) (by decide) (skip (by decide) (by decide) (skip (by decide) (by decide) (skip (by decide) (by decide) (hit (by decide)))))))
  have e6 : bits w 26 5 = 0 := hw ▸ (skip (by decide) (by decide) (skip (by decide) (by decide) (skip (by decide) (by decide) (skip (by decide) (by decide) (skip (by decide) (by decide) (skip (by decide) (by decide) (hit (by decide))))))))
  have e7 : bits w 31 1 = c := hw ▸ (skip (by decide) (by decide) (skip (by decide) (by decide) (skip (by decide) (by decide) (skip (by decide) (by decide) (skip (by decide) (by decide) (skip (by decide) (by decide) (skip (by decide) (by decide) (whole l0))))))))
  have e8 : bits w 0 26 ≠ 0 := apart (a := 0) (m := 3) (by decide) e0 (by decide)
  have e9 : bits w 10 16 ≠ 1024 := apart (a := 10) (m := 6) (by decide) e5 (by decide)
  have e10 : bits w 0 26 ≠ 2097152 := apart (a := 0) (m := 3) (by decide) e0 (by decide)
  have e11 : bits w 3 23 ≠ 917504 := apart (a := 17) (m := 6) (by decide) e5 (by decide)
  have e12 : bits w 3 23 ≠ 917506 := apart (a := 0) (m := 2) (by decide) e1 (by decide)
  have e13 : bits w 3 23 ≠ 917508 := apart (a := 2) (m := 5) (by decide) e2 (by decide)
  have e14 : bits w 0 26 ≠ 7340043 := apart (a := 0) (m := 3) (by decide) e0 (by decide)
  have e15 : bits w 0 5 ≠ 0 := apart (a := 0) (m := 3) (by decide) e0 (by decide)
  have e16 : bits w 16 10 ≠ 144 := apart (a := 4) (m := 6) (by decide) e5 (by decide)
  have e17 : bits w 0 10 ≠ 0 := apart (a := 0) (m := 3) (by decide) e0 (by decide)
  have e18 : bits w 0 26 ≠ 10485761 := apart (a := 0) (m := 3) (by decide) e0 (by decide)
  have e19 : bits w 0 26 = 10485762 := (bits_join e0 (bits_join e1 (bits_join e2 (bits_join e3 (bits_join e4 e5)))))
  rw [decodeRow_0 e6]
  simp [decodeSys, e0, e1, e2, e3, e4, e5, e6, e7, e8, e9, e10, e11, e12, e13, e14, e15, e16, e17, e18, e19]

theorem RoundTrip.fwcallVersion (c d a : Nat) : RoundTrip.Statement (.fwcallVersion c d a) := by
  intro _ hk
  have wf : Instr.WF (.fwcallVersion c d a) := of_decide_eq_true hk
  refine decode_of_row ?_ hk
  change decodeRow (0xB00000 + c * 2147483648 + d * 32768 + a * 1024) = _
  simp only [Instr.WF] at wf
  obtain ⟨l0, l1, l2⟩ := wf
  obtain ⟨w, hw⟩ : ∃ w, w = 0 + 2 ^ 3 * (0 + 2 ^ 2 * (0 + 2 ^ 5 * (a + 2 ^ 5 * (d + 2 ^ 5 * (11 + 2 ^ 6 * (0 + 2 ^ 5 * (c))))))) := ⟨_, rfl⟩
  have he : 0xB00000 + c * 2147483648 + d * 32768 + a * 1024 = w := by rw [hw]; simp only [Nat.mul_add, ← Nat.mul_assoc, Nat.reducePow, Nat.reduceMul]; omega
  rw [he]
  have e0 : bits w 0 3 = 0 := hw ▸ (hit (by decide))
  have e1 : bits w 3 2 = 0 := hw ▸ (skip (by decide) (by decide) (hit (by decide)))
  have e2 : bits w 5 5 = 0 := hw ▸ (skip (by decide) (by decide) (skip (by decide) (by decide) (hit (by decide))))
  have e3 : bits w 10 5 = a := hw ▸ (skip (by decide) (by decide) (skip (by decide) (by decide) (skip (by decide) (by decide) (hit l2))))
  have e4 : bits w 15 5 = d := hw ▸ (skip (by decide) (by decide) (skip (by decide) (by decide) (skip (by decide) (by decide) (skip l2 (by decide) (hit l1)))))
  have e5 : bits w 20 6 = 11 := hw ▸ (skip (by decide) (by decide) (skip (by decide) (by decide) (skip (by decide) (by decide) (skip l2 (by decide) (skip l1 (by decide) (hit (by decide)))))))
  have e6 : bits w 26 5 = 0 := hw ▸ (skip (by decide) (by decide) (skip (by decide) (by decide) (skip (by decide) (by decide) (skip l2 (by decide) (skip l1 (by decide) (skip (by decide) (by decide) (hit (by decide))))))))
  have e7 : bits w 31 1 = c := hw ▸ (skip (by decide) (by decide) (skip (by decide) (by decide) (skip (by decide) (by decide) (skip l2 (by decide) (skip l1 (by decide) (skip (by decide) (by decide) (skip (by decide) (by decide) (whole l0))))))))
  have e8 : bits w 0 26 ≠ 0 := apart (a := 20) (m := 6) (by decide) e5 (by decide)
  have e9 : bits w 10 16 ≠ 1024 := apart (a := 10) (m := 6) (by decide) e5 (by decide)
  have e10 : bits w 0 26 ≠ 2097152 := apart (a := 20) (m := 6) (by decide) e5 (by decide)
  have e11 : bits w 3 23 ≠ 917504 := apart (a := 17) (m := 6) (by decide) e5 (by decide)
  have e12 : bits w 3 23 ≠ 917506 := apart (a := 0) (m := 2) (by decide) e1 (by decide)
  have e13 : bits w 3 23 ≠ 917508 := apart (a := 2) (m := 5) (by decide) e2 (by decide)
  have e14 : bits w 0 26 ≠ 7340043 := apart (a := 0) (m := 3) (by decide) e0 (by decide)
  have e15 : bits w 18 8 ≠ 32 := apart (a := 2) (m := 6) (by decide) e5 (by decide)
  have e16 : bits w 16 10 ≠ 144 := apart (a := 4) (m := 6) (by decide) e5 (by decide)
  have e17 : bits w 15 11 ≠ 320 := apart (a := 5) (m := 6) (by decide) e5 (by decide)
  have e18 : bits w 0 26 ≠ 10485761 := apart (a := 0) (m := 3) (by decide) e0 (by decide)
  have e19 : bits w 0 26 ≠ 10485762 := apart (a := 0) (m := 3) (by decide) e0 (by decide)
  have e20 : bits w 0 10 = 0 := (bits_join e0 (bits_join e1 e2))
  rw [decodeRow_0 e6]
  simp [decodeSys, e0, e1, e2, e3, e4, e5, e6, e7, e8, e9, e10, e11, e12, e13, e14, e15, e16, e17, e18, e19, e20]

theorem RoundTrip.fwcallTemperature (c d a : Nat) : RoundTrip.Statement (.fwcallTemperature c d a) := by
  intro _ hk
  have wf : Instr.WF (.fwcallTemperature c d a) := of_decide_eq_true hk
  refine decode_of_row ?_ hk
  change decodeRow (0xB00001 + c * 2147483648 + d * 32768 + a * 1024) = _
  simp only [Instr.WF] at wf
  obtain ⟨l0, l1, l2⟩ := wf
  obtain ⟨w, hw⟩ : ∃ w, w = 1 + 2 ^ 3 * (0 + 2 ^ 2 * (0 + 2 ^ 5 * (a + 2 ^ 5 * (d + 2 ^ 5 * (11 + 2 ^ 6 * (0 + 2 ^ 5 * (c))))))) := ⟨_, rfl⟩
  have he : 0xB00001 + c * 2147483648 + d * 32768 + a * 1024 = w := by rw [hw]; simp only [Nat.mul_add, ← Nat.mul_assoc, Nat.reducePow, Nat.reduceMul]; omega
  rw [he]
  have e0 : bits w 0 3 = 1 := hw ▸ (hit (by decide))
  have e1 : bits w 3 2 = 0 := hw ▸ (skip (by decide) (by decide) (hit (by decide)))
  have e2 : bits w 5 5 = 0 := hw ▸ (skip (by decide) (by decide) (skip (by decide) (by decide) (hit (by decide))))
  have e3 : bits w 10 5 = a := hw ▸ (skip (by decide) (by decide) (skip (by decide) (by decide) (skip (by decide) (by decide) (hit l2))))
  have e4 : bits w 15 5 = d := hw ▸ (skip (by decide) (by decide) (skip (by decide) (by decide) (skip (by decide) (by decide) (skip l2 (by decide) (hit l1)))))
  have e5 : bits w 20 6 = 11 := hw ▸ (skip (by decide) (by decide) (skip (by decide) (by decide) (skip (by decide) (by decide) (skip l2 (by decide) (skip l1 (by decide) (hit (by decide)))))))
  have e6 : bits w 26 5 = 0 := hw ▸ (skip (by decide) (by decide) (skip (by decide) (by decide) (skip (by decide) (by decide) (skip l2 (by decide) (skip l1 (by decide) (skip (by decide) (by decide) (hit (by decide))))))))
  have e7 : bits w 31 1 = c := hw ▸ (skip (by decide) (by decide) (skip (by decide) (by decide) (skip (by decide) (by decide) (skip l2 (by decide) (skip l1 (by decide) (skip (by decide) (by decide) (skip (by decide) (by decide) (whole l0))))))))
  have e8 : bits w 0 26 ≠ 0 := apart (a := 0) (m := 3) (by decide) e0 (by decide)
  have e9 : bits w 10 16 ≠ 1024 := apart (a := 10) (m := 6) (by decide) e5 (by decide)
  have e10 : bits w 0 26 ≠ 2097152 := apart (a := 0) (m := 3) (by decide) e0 (by decide)
  have e11 : bits w 3 23 ≠ 917504 := apart (a := 17) (m := 6) (by decide) e5 (by decide)
  have e12 : bits w 3 23 ≠ 917506 := apart (a := 0) (m := 2) (by decide) e1 (by decide)
  have e13 : bits w 3 23 ≠ 917508 := apart (a := 2) (m := 5) (by decide) e2 (by decide)
  have e14 : bits w 0 26 ≠ 7340043 := apart (a := 0) (m := 3) (by decide) e0 (by decide)
  have e15 : bits w 0 5 ≠ 0 := apart (a := 0) (m := 3) (by decide) e0 (by decide)
  have e16 : bits w 16 10 ≠ 144 := apart (a := 4) (m := 6) (by decide) e5 (by decide)
  have e17 : bits w 0 10 ≠ 0 := apart (a := 0) (m := 3) (by decide) e0 (by decide)
  have e18 : bits w 0 26 ≠ 10485761 := apart (a := 20) (m := 6) (by decide) e5 (by decide)
  have e19 : bits w 0 26 ≠ 10485762 := apart (a := 0) (m := 3) (by decide) e0 (by decide)
  have e20 : bits w 0 10 = 1 := (bits_join e0 (bits_join e1 e2))
  rw [decodeRow_0 e6]
  simp [decodeSys, e0, e1, e2, e3, e4, e5, e6, e7, e8, e9, e10, e11, e12, e13, e14, e15, e16, e17, e18, e19, e20]

theorem RoundTrip.fwcallForecast (c d a : Nat) : RoundTrip.Statement (.fwcallForecast c d a) := by
  intro _ hk
  have wf : Instr.WF (.fwcallForecast c d a) := of_decide_eq_true hk
  refine decode_of_row ?_ hk
  change decodeRow (0xB00002 + c * 2147483648 + d * 32768 + a * 1024) = _
  simp only [Instr.WF] at wf
  obtain ⟨l0, l1, l2⟩ := wf
  obtain ⟨w, hw⟩ : ∃ w, w = 2 + 2 ^ 3 * (0 + 2 ^ 2 * (0 + 2 ^ 5 * (a + 2 ^ 5 * (d + 2 ^ 5 * (11 + 2 ^ 6 * (0 + 2 ^ 5 * (c))))))) := ⟨_, rfl⟩
  have he : 0xB00002 + c * 2147483648 + d * 32768 + a * 1024 = w := by rw [hw]; simp only [Nat.mul_add, ← Nat.mul_assoc, Nat.reducePow, Nat.reduceMul]; omega
  rw [he]
  have e0 : bits w 0 3 = 2 := hw ▸ (hit (by decide))
  have e1 : bits w 3 2 = 0 := hw ▸ (skip (by decide) (by decide) (hit (by decide)))
  have e2 : bits w 5 5 = 0 := hw ▸ (skip (by decide) (by decide) (skip (by decide) (by decide) (hit (by decide))))
  have e3 : bits w 10 5 = a := hw ▸ (skip (by decide) (by decide) (skip (by decide) (by decide) (skip (by decide) (by decide) (hit l2))))
  have e4 : bits w 15 5 = d := hw ▸ (skip (by decide) (by decide) (skip (by decide) (by decide) (skip (by decide) (by decide) (skip l2 (by decide) (hit l1)))))
  have e5 : bits w 20 6 = 11 := hw ▸ (skip (by decide) (by decide) (skip (by decide) (by decide) (skip (by decide) (by decide) (skip l2 (by decide) (skip l1 (by decide) (hit (by decide)))))))
  have e6 : bits w 26 5 = 0 := hw ▸ (skip (by decide) (by decide) (skip (by decide) (by decide) (skip (by decide) (by decide) (skip l2 (by decide) (skip l1 (by decide) (skip (by decide) (by decide) (hit (by decide))))))))
  have e7 : bits w 31 1 = c := hw ▸ (skip (by decide) (by decide) (skip (by decide) (by decide) (skip (by decide) (by decide) (skip l2 (by decide) (skip l1 (by decide) (skip (by decide) (by decide) (skip (by decide) (by decide) (whole l0))))))))
  have e8 : bits w 0 26 ≠ 0 := apart (a := 0) (m := 3) (by decide) e0 (by decide)
  have e9 : bits w 10 16 ≠ 1024 := apart (a := 10) (m := 6) (by decide) e5 (by decide)
  have e10 : bits w 0 26 ≠ 2097152 := apart (a := 0) (m := 3) (by decide) e0 (by decide)
  have e11 : bits w 3 23 ≠ 917504 := apart (a := 17) (m := 6) (by decide) e5 (by decide)
  have e12 : bits w 3 23 ≠ 917506 := apart (a := 0) (m := 2) (by decide) e1 (by decide)
  have e13 : bits w 3 23 ≠ 917508 := apart (a := 2) (m := 5) (by decide) e2 (by decide)
  have e14 : bits w 0 26 ≠ 7340043 := apart (a := 0) (m := 3) (by decide) e0 (by decide)
  have e15 : bits w 0 5 ≠ 0 := apart (a := 0) (m := 3) (by decide) e0 (by decide)
  have e16 : bits w 16 10 ≠ 144 := apart (a := 4) (m := 6) (by decide) e5 (by decide)
  have e17 : bits w 0 10 ≠ 0 := apart (a := 0) (m := 3) (by decide) e0 (by decide)
  have e18 : bits w 0 26 ≠ 10485761 := apart (a := 0) (m := 3) (by decide) e0 (by decide)
  have e19 : bits w 0 26 ≠ 10485762 := apart (a := 20) (m := 6) (by decide) e5 (by decide)
  have e20 : bits w 0 10 ≠ 1 := apart (a := 0) (m := 3) (by decide) e0 (by decide)
  have e21 : bits w 0 10 = 2 := (bits_join e0 (bits_join e1 e2))
  rw [decodeRow_0 e6]
  simp [decodeSys, e0, e1, e2, e3, e4, e5, e6, e7, e8, e9, e10, e11, e12, e13, e14, e15, e16, e17, e18, e19, e20, e21]

theorem RoundTrip.fwcallCap (c d a : Nat) : RoundTrip.Statement (.fwcallCap c d a) := by
  intro _ hk
  have wf : Instr.WF (.fwcallCap c d a) := of_decide_eq_true hk
  refine decode_of_row ?_ hk
  change decodeRow (0xB00003 + c * 2147483648 + d * 32768 + a * 1024) = _
  simp only [Instr.WF] at wf
  obtain ⟨l0, l1, l2⟩ := wf
  obtain ⟨w, hw⟩ : ∃ w, w = 3 + 2 ^ 3 * (0 + 2 ^ 2 * (0 + 2 ^ 5 * (a + 2 ^ 5 * (d + 2 ^ 5 * (11 + 2 ^ 6 * (0 + 2 ^ 5 * (c))))))) := ⟨_, rfl⟩
  have he : 0xB00003 + c * 2147483648 + d * 32768 + a * 1024 = w := by rw [hw]; simp only [Nat.mul_add, ← Nat.mul_assoc, Nat.reducePow, Nat.reduceMul]; omega
  rw [he]
  have e0 : bits w 0 3 = 3 := hw ▸ (hit (by decide))
  have e1 : bits w 3 2 = 0 := hw ▸ (skip (by decide) (by decide) (hit (by decide)))
  have e2 : bits w 5 5 = 0 := hw ▸ (skip (by decide) (by decide) (skip (by decide) (by decide) (hit (by decide))))
  have e3 : bits w 10 5 = a := hw ▸ (skip (by decide) (by decide) (skip (by decide) (by decide) (skip (by decide) (by decide) (hit l2))))
  have e4 : bits w 15 5 = d := hw ▸ (skip (by decide) (by decide) (skip (by decide) (by decide) (skip (by decide) (by decide) (skip l2 (by decide) (hit l1)))))
  have e5 : bits w 20 6 = 11 := hw ▸ (skip (by decide) (by decide) (skip (by decide) (by decide) (skip (by decide) (by decide) (skip l2 (by decide) (skip l1 (by decide) (hit (by decide)))))))
  have e6 : bits w 26 5 = 0 := hw ▸ (skip (by decide) (by decide) (skip (by decide) (by decide) (skip (by decide) (by decide) (skip l2 (by decide) (skip l1 (by decide) (skip (by decide) (by decide) (hit (by decide))))))))
  have e7 : bits w 31 1 = c := hw ▸ (skip (by decide) (by decide) (skip (by decide) (by decide) (skip (by decide) (by decide) (skip l2 (by decide) (skip l1 (by decide) (skip (by decide) (by decide) (skip (by decide) (by decide) (whole l0))))))))
  have e8 : bits w 0 26 ≠ 0 := apart (a := 0) (m := 3) (by decide) e0 (by decide)
  have e9 : bits w 10 16 ≠ 1024 := apart (a := 10) (m := 6) (by decide) e5 (by decide)
  have e10 : bits w 0 26 ≠ 2097152 := apart (a := 0) (m := 3) (by decide) e0 (by decide)
  have e11 : bits w 3 23 ≠ 917504 := apart (a := 17) (m := 6) (by decide) e5 (by decide)
  have e12 : bits w 3 23 ≠ 917506 := apart (a := 0) (m := 2) (by decide) e1 (by decide)
  have e13 : bits w 3 23 ≠ 917508 := apart (a := 2) (m := 5) (by decide) e2 (by decide)
  have e14 : bits w 0 26 ≠ 7340043 := apart (a := 3) (m := 2) (by decide) e1 (by decide)
  have e15 : bits w 0 5 ≠ 0 := apart (a := 0) (m := 3) (by decide) e0 (by decide)
  have e16 : bits w 16 10 ≠ 144 := apart (a := 4) (m := 6) (by decide) e5 (by decide)
  have e17 : bits w 0 10 ≠ 0 := apart (a := 0) (m := 3) (by decide) e0 (by decide)
  have e18 : bits w 0 26 ≠ 10485761 := apart (a := 0) (m := 3) (by decide) e0 (by decide)
  have e19 : bits w 0 26 ≠ 10485762 := apart (a := 0) (m := 3) (by decide) e0 (by decide)
  have e20 : bits w 0 10 ≠ 1 := apart (a := 0) (m := 3) (by decide) e0 (by decide)
  have e21 : bits w 0 10 ≠ 2 := apart (a := 0) (m := 3) (by decide) e0 (by decide)
  have e22 : bits w 0 10 = 3 := (bits_join e0 (bits_join e1 e2))
  rw [decodeRow_0 e6]
  simp [decodeSys, e0, e1, e2, e3, e4, e5, e6, e7, e8, e9, e10, e11, e12, e13, e14, e15, e16, e17, e18, e19, e20, e21, e22]

theorem RoundTrip.fwcallCounter (c d a : Nat) : RoundTrip.Statement (.fwcallCounter c d a) := by
  intro _ hk
  have wf : Instr.WF (.fwcallCounter c d a) := of_decide_eq_true hk
  refine decode_of_row ?_ hk
  change decodeRow (0xB00004 + c * 2147483648 + d * 32768 + a * 1024) = _
  simp only [Instr.WF] at wf
  obtain ⟨l0, l1, l2⟩ := wf
  obtain ⟨w, hw⟩ : ∃ w, w = 4 + 2 ^ 3 * (0 + 2 ^ 2 * (0 + 2 ^ 5 * (a + 2 ^ 5 * (d + 2 ^ 5 * (11 + 2 ^ 6 * (0 + 2 ^ 5 * (c))))))) := ⟨_, rfl⟩
  have he : 0xB00004 + c * 2147483648 + d * 32768 + a * 1024 = w := by rw [hw]; simp only [Nat.mul_add, ← Nat.mul_assoc, Nat.reducePow, Nat.reduceMul]; omega
  rw [he]
  have e0 : bits w 0 3 = 4 := hw ▸ (hit (by decide))
  have e1 : bits w 3 2 = 0 := hw ▸ (skip (by decide) (by decide) (hit (by decide)))
  have e2 : bits w 5 5 = 0 := hw ▸ (skip (by decide) (by decide) (skip (by decide) (by decide) (hit (by decide))))
  have e3 : bits w 10 5 = a := hw ▸ (skip (by decide) (by decide) (skip (by decide) (by decide) (skip (by decide) (by decide) (hit l2))))
  have e4 : bits w 15 5 = d := hw ▸ (skip (by decide) (by decide) (skip (by decide) (by decide) (skip (by decide) (by decide) (skip l2 (by decide) (hit l1)))))
  have e5 : bits w 20 6 = 11 := hw ▸ (skip (by decide) (by decide) (skip (by decide) (by decide) (skip (by decide) (by decide) (skip l2 (by decide) (skip l1 (by decide) (hit (by decide)))))))
  have e6 : bits w 26 5 = 0 := hw ▸ (skip (by decide) (by decide) (skip (by decide) (by decide) (skip (by decide) (by decide) (skip l2 (by decide) (skip l1 (by decide) (skip (by decide) (by decide) (hit (by decide))))))))
  have e7 : bits w 31 1 = c := hw ▸ (skip (by decide) (by decide) (skip (by decide) (by decide) (skip (by decide) (by decide) (skip l2 (by decide) (skip l1 (by decide) (skip (by decide) (by decide) (skip (by decide) (by decide) (whole l0))))))))
  have e8 : bits w 0 26 ≠ 0 := apart (a := 0) (m := 3) (by decide) e0 (by decide)
  have e9 : bits w 10 16 ≠ 1024 := apart (a := 10) (m := 6) (by decide) e5 (by decide)
  have e10 : bits w 0 26 ≠ 2097152 := apart (a := 0) (m := 3) (by decide) e0 (by decide)
  have e11 : bits w 3 23 ≠ 917504 := apart (a := 17) (m := 6) (by decide) e5 (by decide)
  have e12 : bits w 3 23 ≠ 917506 := apart (a := 0) (m := 2) (by decide) e1 (by decide)
  have e13 : bits w 3 23 ≠ 917508 := apart (a := 2) (m := 5) (by decide) e2 (by decide)
  have e14 : bits w 0 26 ≠ 7340043 := apart (a := 0) (m := 3) (by decide) e0 (by decide)
  have e15 : bits w 0 5 ≠ 0 := apart (a := 0) (m := 3) (by decide) e0 (by decide)
  have e16 : bits w 16 10 ≠ 144 := apart (a := 4) (m := 6) (by decide) e5 (by decide)
  have e17 : bits w 0 10 ≠ 0 := apart (a := 0) (m := 3) (by decide) e0 (by decide)
  have e18 : bits w 0 26 ≠ 10485761 := apart (a := 0) (m := 3) (by decide) e0 (by decide)
  have e19 : bits w 0 26 ≠ 10485762 := apart (a := 0) (m := 3) (by decide) e0 (by decide)
  have e20 : bits w 0 10 ≠ 1 := apart (a := 0) (m := 3) (by decide) e0 (by decide)
  have e21 : bits w 0 10 ≠ 2 := apart (a := 0) (m := 3) (by decide) e0 (by decide)
  have e22 : bits w 0 10 ≠ 3 := apart (a := 0) (m := 3) (by decide) e0 (by decide)
  have e23 : bits w 0 10 = 4 := (bits_join e0 (bits_join e1 e2))
  rw [decodeRow_0 e6]
  simp [decodeSys, e0, e1, e2, e3, e4, e5, e6, e7, e8, e9, e10, e11, e12, e13, e14, e15, e16, e17, e18, e19, e20, e21, e22, e23]

theorem RoundTrip.fwcallHalfRow (c d a : Nat) : RoundTrip.Statement (.fwcallHalfRow c d a) := by
  intro _ hk
  have wf : Instr.WF (.fwcallHalfRow c d a) := of_decide_eq_true hk
  refine decode_of_row ?_ hk
  change decodeRow (0xB00005 + c * 2147483648 + d * 32768 + a * 1024) = _
  simp only [Instr.WF] at wf
  obtain ⟨l0, l1, l2⟩ := wf
  obtain ⟨w, hw⟩ : ∃ w, w = 5 + 2 ^ 3 * (0 + 2 ^ 2 * (0 + 2 ^ 5 * (a + 2 ^ 5 * (d + 2 ^ 5 * (11 + 2 ^ 6 * (0 + 2 ^ 5 * (c))))))) := ⟨_, rfl⟩
  have he : 0xB00005 + c * 2147483648 + d * 32768 + a * 1024 = w := by rw [hw]; simp only [Nat.mul_add, ← Nat.mul_assoc, Nat.reducePow, Nat.reduceMul]; omega
  rw [he]
  have e0 : bits w 0 3 = 5 := hw ▸ (hit (by decide))
  have e1 : bits w 3 2 = 0 := hw ▸ (skip (by decide) (by decide) (hit (by decide)))
  have e2 : bits w 5 5 = 0 := hw ▸ (skip (by decide) (by decide) (skip (by decide) (by decide) (hit (by decide))))
  have e3 : bits w 10 5 = a := hw ▸ (skip (by decide) (by decide) (skip (by decide) (by decide) (skip (by decide) (by decide) (hit l2))))
  have e4 : bits w 15 5 = d := hw ▸ (skip (by decide) (by decide) (skip (by decide) (by decide) (skip (by decide) (by decide) (skip l2 (by decide) (hit l1)))))
  have e5 : bits w 20 6 = 11 := hw ▸ (skip (by decide) (by decide) (skip (by decide) (by decide) (skip (by decide) (by decide) (skip l2 (by decide) (skip l1 (by decide) (hit (by decide)))))))
  have e6 : bits w 26 5 = 0 := hw ▸ (skip (by decide) (by decide) (skip (by decide) (by decide) (skip (by decide) (by decide) (skip l2 (by decide) (skip l1 (by decide) (skip (by decide) (by decide) (hit (by decide))))))))
  have e7 : bits w 31 1 = c := hw ▸ (skip (by decide) (by decide) (skip (by decide) (by decide) (skip (by decide) (by decide) (skip l2 (by decide) (skip l1 (by decide) (skip (by decide) (by decide) (skip (by decide) (by decide) (whole l0))))))))
  have e8 : bits w 0 26 ≠ 0 := apart (a := 0) (m := 3) (by decide) e0 (by decide)
  have e9 : bits w 10 16 ≠ 1024 := apart (a := 10) (m := 6) (by decide) e5 (by decide)
  have e10 : bits w 0 26 ≠ 2097152 := apart (a := 0) (m := 3) (by decide) e0 (by decide)
  have e11 : bits w 3 23 ≠ 917504 := apart (a := 17) (m := 6) (by decide) e5 (by decide)
  have e12 : bits w 3 23 ≠ 917506 := apart (a := 0) (m := 2) (by decide) e1 (by decide)
  have e13 : bits w 3 23 ≠ 917508 := apart (a := 2) (m := 5) (by decide) e2 (by decide)
  have e14 : bits w 0 26 ≠ 7340043 := apart (a := 0) (m := 3) (by decide) e0 (by decide)
  have e15 : bits w 0 5 ≠ 0 := apart (a := 0) (m := 3) (by decide) e0 (by decide)
  have e16 : bits w 16 10 ≠ 144 := apart (a := 4) (m := 6) (by decide) e5 (by decide)
  have e17 : bits w 0 10 ≠ 0 := apart (a := 0) (m := 3) (by decide) e0 (by decide)
  have e18 : bits w 0 26 ≠ 10485761 := apart (a := 0) (m := 3) (by decide) e0 (by decide)
  have e19 : bits w 0 26 ≠ 10485762 := apart (a := 0) (m := 3) (by decide) e0 (by decide)
  have e20 : bits w 0 10 ≠ 1 := apart (a := 0) (m := 3) (by decide) e0 (by decide)
  have e21 : bits w 0 10 ≠ 2 := apart (a := 0) (m := 3) (by decide) e0 (by decide)
  have e22 : bits w 0 10 ≠ 3 := apart (a := 0) (m := 3) (by decide) e0 (by decide)
  have e23 : bits w 0 10 ≠ 4 := apart (a := 0) (m := 3) (by decide) e0 (by decide)
  have e24 : bits w 0 10 = 5 := (bits_join e0 (bits_join e1 e2))
  rw [decodeRow_0 e6]
  simp [decodeSys, e0, e1, e2, e3, e4, e5, e6, e7, e8, e9, e10, e11, e12, e13, e14, e15, e16, e17, e18, e19, e20, e21, e22, e23, e24]

theorem RoundTrip.fwcallUnlisted (c d a s : Nat) : RoundTrip.Statement (.fwcallUnlisted c d a s) := by
  intro _ hk
  have wf : Instr.WF (.fwcallUnlisted c d a s) := of_decide_eq_true hk
  refine decode_of_row ?_ hk
  change decodeRow (0xB00000 + c * 2147483648 + d * 32768 + a * 1024 + s) = _
  simp only [Instr.WF] at wf
  obtain ⟨l0, l1, l2, l3, _x0⟩ := wf
  obtain ⟨w, hw⟩ : ∃ w, w = s + 2 ^ 8 * (0 + 2 ^ 2 * (a + 2 ^ 5 * (d + 2 ^ 5 * (11 + 2 ^ 6 * (0 + 2 ^ 5 * (c)))))) := ⟨_, rfl⟩
  have he : 0xB00000 + c * 2147483648 + d * 32768 + a * 1024 + s = w := by rw [hw]; simp only [Nat.mul_add, ← Nat.mul_assoc, Nat.reducePow, Nat.reduceMul]; omega
  rw [he]
  have e0 : bits w 0 8 = s := hw ▸ (hit l3)
  have e1 : bits w 8 2 = 0 := hw ▸ (skip l3 (by decide) (hit (by decide)))
  have e2 : bits w 10 5 = a := hw ▸ (skip l3 (by decide) (skip (by decide) (by decide) (hit l2)))
  have e3 : bits w 15 5 = d := hw ▸ (skip l3 (by decide) (skip (by decide) (by decide) (skip l2 (by decide) (hit l1))))
  have e4 : bits w 20 6 = 11 := hw ▸ (skip l3 (by decide) (skip (by decide) (by decide) (skip l2 (by decide) (skip l1 (by decide) (hit (by decide))))))
  have e5 : bits w 26 5 = 0 := hw ▸ (skip l3 (by decide) (skip (by decide) (by decide) (skip l2 (by decide) (skip l1 (by decide) (skip (by decide) (by decide) (hit (by decide)))))))
  have e6 : bits w 31 1 = c := hw ▸ (skip l3 (by decide) (skip (by decide) (by decide) (skip l2 (by decide) (skip l1 (by decide) (skip (by decide) (by decide) (skip (by decide) (by decide) (whole l0)))))))
  have e7 : bits w 0 26 ≠ 0 := apart (a := 20) (m := 6) (by decide) e4 (by decide)
  have e8 : bits w 10 16 ≠ 1024 := apart (a := 10) (m := 6) (by decide) e4 (by decide)
  have e9 : bits w 0 26 ≠ 2097152 := apart (a := 20) (m := 6) (by decide) e4 (by decide)
  have e10 : bits w 3 23 ≠ 917504 := apart (a := 17) (m := 6) (by decide) e4 (by decide)
  have e11 : bits w 3 23 ≠ 917506 := apart (a := 17) (m := 6) (by decide) e4 (by decide)
  have e12 : bits w 3 23 ≠ 917508 := apart (a := 17) (m := 6) (by decide) e4 (by decide)
  have e13 : bits w 0 26 ≠ 7340043 := apart (a := 20) (m := 6) (by decide) e4 (by decide)
  have e14 : bits w 18 8 ≠ 32 := apart (a := 2) (m := 6) (by decide) e4 (by decide)
  have e15 : bits w 16 10 ≠ 144 := apart (a := 4) (m := 6) (by decide) e4 (by decide)
  have e16 : bits w 15 11 ≠ 320 := apart (a := 5) (m := 6) (by decide) e4 (by decide)
  have e17 : bits w 0 26 ≠ 10485761 := apart (a := 20) (m := 6) (by decide) e4 (by decide)
  have e18 : bits w 0 26 ≠ 10485762 := apart (a := 20) (m := 6) (by decide) e4 (by decide)
  have e19 : bits w 0 10 ≠ 0 := apart (a := 0) (m := 8) (by decide) e0 (by omega)
  have e20 : bits w 0 10 ≠ 1 := apart (a := 0) (m := 8) (by decide) e0 (by omega)
  have e21 : bits w 0 10 ≠ 2 := apart (a := 0) (m := 8) (by decide) e0 (by omega)
  have e22 : bits w 0 10 ≠ 3 := apart (a := 0) (m := 8) (by decide) e0 (by omega)
  have e23 : bits w 0 10 ≠ 4 := apart (a := 0) (m := 8) (by decide) e0 (by omega)
  have e24 : bits w 0 10 ≠ 5 := apart (a := 0) (m := 8) (by decide) e0 (by omega)
  have e25 : bits w 0 26 ≠ 12582912 := apart (a := 20) (m := 6) (by decide) e4 (by decide)
  have e26 : bits w 0 26 ≠ 12582913 := apart (a := 20) (m := 6) (by decide) e4 (by decide)
  have e27 : bits w 0 26 ≠ 12582914 := apart (a := 20) (m := 6) (by decide) e4 (by decide)
  rw [decodeRow_0 e5]
  simp [decodeSys, e0, e1, e2, e3, e4, e5, e6, e7, e8, e9, e10, e11, e12, e13, e14, e15, e16, e17, e18, e19, e20, e21, e22, e23, e24, e25, e26, e27]

theorem RoundTrip.cacheIfetch (c : Nat) : RoundTrip.Statement (.cacheIfetch c) := by
  intro _ hk
  have wf : Instr.WF (.cacheIfetch c) := of_decide_eq_true hk
  refine decode_of_row ?_ hk
  change decodeRow (0xC00000 + c * 2147483648) = _
  simp only [Instr.WF] at wf
  have l0 := wf
  obtain ⟨w, hw⟩ : ∃ w, w = 0 + 2 ^ 3 * (0 + 2 ^ 2 * (0 + 2 ^ 5 * (0 + 2 ^ 5 * (0 + 2 ^ 5 * (12 + 2 ^ 6 * (0 + 2 ^ 5 * (c))))))) := ⟨_, rfl⟩
  have he : 0xC00000 + c * 2147483648 = w := by rw [hw]; simp only [Nat.mul_add, ← Nat.mul_assoc, Nat.reducePow, Nat.reduceMul]; omega
  rw [he]
  have e0 : bits w 0 3 = 0 := hw ▸ (hit (by decide))
  have e1 : bits w 3 2 = 0 := hw ▸ (skip (by decide) (by decide) (hit (by decide)))
  have e2 : bits w 5 5 = 0 := hw ▸ (skip (by decide) (by decide) (skip (by decide) (by decide) (hit (by decide))))
  have e3 : bits w 10 5 = 0 := hw ▸ (skip (by decide) (by decide) (skip (by decide) (by decide) (skip (by decide) (by decide) (hit (by decide)))))
  have e4 : bits w 15 5 = 0 := hw ▸ (skip (by decide) (by decide) (skip (by decide) (by decide) (skip (by decide) (by decide) (skip (by decide) (by decide) (hit (by decide))))))
  have e5 : bits w 20 6 = 12 := hw ▸ (skip (by decide) (by decide) (skip (by decide) (by decide) (skip (by decide) (by decide) (skip (by decide) (by decide) (skip (by decide) (by decide) (hit (by decide)))))))
  have e6 : bits w 26 5 = 0 := hw ▸ (skip (by decide) (by decide) (skip (by decide) (by decide) (skip (by decide) (by decide) (skip (by decide) (by decide) (skip (by decide) (by decide) (skip (by decide) (by decide) (hit (by decide))))))))
  have e7 : bits w 31 1 = c := hw ▸ (skip (by decide) (by decide) (skip (by decide) (by decide) (skip (by decide) (by decide) (skip (by decide) (by decide) (skip (by decide) (by decide) (skip (by decide) (by decide) (skip (by decide) (by decide) (whole l0))))))))
  have e8 : bits w 0 26 ≠ 0 := apart (a := 20) (m := 6) (by decide) e5 (by decide)
  have e9 : bits w 10 16 ≠ 1024 := apart (a := 10) (m := 6) (by decide) e5 (by decide)
  have e10 : bits w 0 26 ≠ 2097152 := apart (a := 20) (m := 6) (by decide) e5 (by decide)
  have e11 : bits w 3 23 ≠ 917504 := apart (a := 17) (m := 6) (by decide) e5 (by decide)
  have e12 : bits w 3 23 ≠ 917506 := apart (a := 0) (m := 2) (by decide) e1 (by decide)
  have e13 : bits w 3 23 ≠ 917508 := apart (a := 2) (m := 5) (by decide) e2 (by decide)
  have e14 : bits w 0 26 ≠ 7340043 := apart (a := 0) (m := 3) (by decide) e0 (by decide)
  have e15 : bits w 18 8 ≠ 32 := apart (a := 2) (m := 6) (by decide) e5 (by decide)
  have e16 : bits w 16 10 ≠ 144 := apart (a := 4) (m := 6) (by decide) e5 (by decide)
  have e17 : bits w 15 11 ≠ 320 := apart (a := 5) (m := 6) (by decide) e5 (by decide)
  have e18 : bits w 0 26 ≠ 10485761 := apart (a := 0) (m := 3) (by decide) e0 (by decide)
  have e19 : bits w 0 26 ≠ 10485762 := apart (a := 0) (m := 3) (by decide) e0 (by decide)
  have e20 : bits w 0 10 ≠ 1 := apart (a := 0) (m := 3) (by decide) e0 (by decide)
  have e21 : bits w 0 10 ≠ 2 := apart (a := 0) (m := 3) (by decide) e0 (by decide)
  have e22 : bits w 0 10 ≠ 3 := apart (a := 0) (m := 3) (by decide) e0 (by decide)
  have e23 : bits w 0 10 ≠ 4 := apart (a := 0) (m := 3) (by decide) e0 (by decide)
  have e24 : bits w 0 10 ≠ 5 := apart (a := 0) (m := 3) (by decide) e0 (by decide)
  have e25 : bits w 0 26 = 12582912 := (bits_join e0 (bits_join e1 (bits_join e2 (bits_join e3 (bits_join e4 e5)))))
  rw [decodeRow_0 e6]
  simp [decodeSys, e0, e1, e2, e3, e4, e5, e6, e7, e8, e9, e10, e11, e12, e13, e14, e15, e16, e17, e18, e19, e20, e21, e22, e23, e24, e25]

theorem RoundTrip.cacheWb (c : Nat) : RoundTrip.Statement (.cacheWb c) := by
  intro _ hk
  have wf : Instr.WF (.cacheWb c) := of_decide_eq_true hk
  refine decode_of_row ?_ hk
  change decodeRow (0xC00001 + c * 2147483648) = _
  simp only [Instr.WF] at wf
  have l0 := wf
  obtain ⟨w, hw⟩ : ∃ w, w = 1 + 2 ^ 3 * (0 + 2 ^ 2 * (0 + 2 ^ 5 * (0 + 2 ^ 5 * (0 + 2 ^ 5 * (12 + 2 ^ 6 * (0 + 2 ^ 5 * (c))))))) := ⟨_, rfl⟩
  have he : 0xC00001 + c * 2147483648 = w := by rw [hw]; simp only [Nat.mul_add, ← Nat.mul_assoc, Nat.reducePow, Nat.reduceMul]; omega
  rw [he]
  have e0 : bits w 0 3 = 1 := hw ▸ (hit (by decide))
  have e1 : bits w 3 2 = 0 := hw ▸ (skip (by decide) (by decide) (hit (by decide)))
  have e2 : bits w 5 5 = 0 := hw ▸ (skip (by decide) (by decide) (skip (by decide) (by decide) (hit (by decide))))
  have e3 : bits w 10 5 = 0 := hw ▸ (skip (by decide) (by decide) (skip (by decide) (by decide) (skip (by decide) (by decide) (hit (by decide)))))
  have e4 : bits w 15 5 = 0 := hw ▸ (skip (by decide) (by decide) (skip (by decide) (by decide) (skip (by decide) (by decide) (skip (by decide) (by decide) (hit (by decide))))))
  have e5 : bits w 20 6 = 12 := hw ▸ (skip (by decide) (by decide) (skip (by decide) (by decide) (skip (by decide) (by decide) (skip (by decide) (by decide) (skip (by decide) (by decide) (hit (by decide)))))))
  have e6 : bits w 26 5 = 0 := hw ▸ (skip (by decide) (by decide) (skip (by decide) (by decide) (skip (by decide) (by decide) (skip (by decide) (by decide) (skip (by decide) (by decide) (skip (by decide) (by decide) (hit (by decide))))))))
  have e7 : bits w 31 1 = c := hw ▸ (skip (by decide) (by decide) (skip (by decide) (by decide) (skip (by decide) (by decide) (skip (by decide) (by decide) (skip (by decide) (by decide) (skip (by decide) (by decide) (skip (by decide) (by decide) (whole l0))))))))
  have e8 : bits w 0 26 ≠ 0 := apart (a := 0) (m := 3) (by decide) e0 (by decide)
  have e9 : bits w 10 16 ≠ 1024 := apart (a := 10) (m := 6) (by decide) e5 (by decide)
  have e10 : bits w 0 26 ≠ 2097152 := apart (a := 0) (m := 3) (by decide) e0 (by decide)
  have e11 : bits w 3 23 ≠ 917504 := apart (a := 17) (m := 6) (by decide) e5 (by decide)
  have e12 : bits w 3 23 ≠ 917506 := apart (a := 0) (m := 2) (by decide) e1 (by decide)
  have e13 : bits w 3 23 ≠ 917508 := apart (a := 2) (m := 5) (by decide) e2 (by decide)
  have e14 : bits w 0 26 ≠ 7340043 := apart (a := 0) (m := 3) (by decide) e0 (by decide)
  have e15 : bits w 0 5 ≠ 0 := apart (a := 0) (m := 3) (by decide) e0 (by decide)
  have e16 : bits w 16 10 ≠ 144 := apart (a := 4) (m := 6) (by decide) e5 (by decide)
  have e17 : bits w 0 10 ≠ 0 := apart (a := 0) (m := 3) (by decide) e0 (by decide)
  have e18 : bits w 0 26 ≠ 10485761 := apart (a := 20) (m := 6) (by decide) e5 (by decide)
  have e19 : bits w 0 26 ≠ 10485762 := apart (a := 0) (m := 3) (by decide) e0 (by decide)
  have e20 : bits w 0 10 ≠ 2 := apart (a := 0) (m := 3) (by decide) e0 (by decide)
  have e21 : bits w 0 10 ≠ 3 := apart (a := 0) (m := 3) (by decide) e0 (by decide)
  have e22 : bits w 0 10 ≠ 4 := apart (a := 0) (m := 3) (by decide) e0 (by decide)
  have e23 : bits w 0 10 ≠ 5 := apart (a := 0) (m := 3) (by decide) e0 (by decide)
  have e24 : bits w 0 26 ≠ 12582912 := apart (a := 0) (m := 3) (by decide) e0 (by decide)
  have e25 : bits w 0 26 = 12582913 := (bits_join e0 (bits_join e1 (bits_join e2 (bits_join e3 (bits_join e4 e5)))))
  rw [decodeRow_0 e6]
  simp [decodeSys, e0, e1, e2, e3, e4, e5, e6, e7, e8, e9, e10, e11, e12, e13, e14, e15, e16, e17, e18, e19, e20, e21, e22, e23, e24, e25]

theorem RoundTrip.cacheWbinv (c : Nat) : RoundTrip.Statement (.cacheWbinv c) := by
  intro _ hk
  have wf : Instr.WF (.cacheWbinv c) := of_decide_eq_true hk
  refine decode_of_row ?_ hk
  change decodeRow (0xC00002 + c * 2147483648) = _
  simp only [Instr.WF] at wf
  have l0 := wf
  obtain ⟨w, hw⟩ : ∃ w, w = 2 + 2 ^ 3 * (0 + 2 ^ 2 * (0 + 2 ^ 5 * (0 + 2 ^ 5 * (0 + 2 ^ 5 * (12 + 2 ^ 6 * (0 + 2 ^ 5 * (c))))))) := ⟨_, rfl⟩
  have he : 0xC00002 + c * 2147483648 = w := by rw [hw]; simp only [Nat.mul_add, ← Nat.mul_assoc, Nat.reducePow, Nat.reduceMul]; omega
  rw [he]
  have e0 : bits w 0 3 = 2 := hw ▸ (hit (by decide))
  have e1 : bits w 3 2 = 0 := hw ▸ (skip (by decide) (by decide) (hit (by decide)))
  have e2 : bits w 5 5 = 0 := hw ▸ (skip (by decide) (by decide) (skip (by decide) (by decide) (hit (by decide))))
  have e3 : bits w 10 5 = 0 := hw ▸ (skip (by decide) (by decide) (skip (by decide) (by decide) (skip (by decide) (by decide) (hit (by decide)))))
  have e4 : bits w 15 5 = 0 := hw ▸ (skip (by decide) (by decide) (skip (by decide) (by decide) (skip (by decide) (by decide) (skip (by decide) (by decide) (hit (by decide))))))
  have e5 : bits w 20 6 = 12 := hw ▸ (skip (by decide) (by decide) (skip (by decide) (by decide) (skip (by decide) (by decide) (skip (by decide) (by decide) (skip (by decide) (by decide) (hit (by decide)))))))
  have e6 : bits w 26 5 = 0 := hw ▸ (skip (by decide) (by decide) (skip (by decide) (by decide) (skip (by decide) (by decide) (skip (by decide) (by decide) (skip (by decide) (by decide) (skip (by decide) (by decide) (hit (by decide))))))))
  have e7 : bits w 31 1 = c := hw ▸ (skip (by decide) (by decide) (skip (by decide) (by decide) (skip (by decide) (by decide) (skip (by decide) (by decide) (skip (by decide) (by decide) (skip (by decide) (by decide) (skip (by decide) (by decide) (whole l0))))))))
  have e8 : bits w 0 26 ≠ 0 := apart (a := 0) (m := 3) (by decide) e0 (by decide)
  have e9 : bits w 10 16 ≠ 1024 := apart (a := 10) (m := 6) (by decide) e5 (by decide)
  have e10 : bits w 0 26 ≠ 2097152 := apart (a := 0) (m := 3) (by decide) e0 (by decide)
  have e11 : bits w 3 23 ≠ 917504 := apart (a := 17) (m := 6) (by decide) e5 (by decide)
  have e12 : bits w 3 23 ≠ 917506 := apart (a := 0) (m := 2) (by decide) e1 (by decide)
  have e13 : bits w 3 23 ≠ 917508 := apart (a := 2) (m := 5) (by decide) e2 (by decide)
  have e14 : bits w 0 26 ≠ 7340043 := apart (a := 0) (m := 3) (by decide) e0 (by decide)
  have e15 : bits w 0 5 ≠ 0 := apart (a := 0) (m := 3) (by decide) e0 (by decide)
  have e16 : bits w 16 10 ≠ 144 := apart (a := 4) (m := 6) (by decide) e5 (by decide)
  have e17 : bits w 0 10 ≠ 0 := apart (a := 0) (m := 3) (by decide) e0 (by decide)
  have e18 : bits w 0 26 ≠ 10485761 := apart (a := 0) (m := 3) (by decide) e0 (by decide)
  have e19 : bits w 0 26 ≠ 10485762 := apart (a := 20) (m := 6) (by decide) e5 (by decide)
  have e20 : bits w 0 10 ≠ 1 := apart (a := 0) (m := 3) (by decide) e0 (by decide)
  have e21 : bits w 0 10 ≠ 3 := apart (a := 0) (m := 3) (by decide) e0 (by decide)
  have e22 : bits w 0 10 ≠ 4 := apart (a := 0) (m := 3) (by decide) e0 (by decide)
  have e23 : bits w 0 10 ≠ 5 := apart (a := 0) (m := 3) (by decide) e0 (by decide)
  have e24 : bits w 0 26 ≠ 12582912 := apart (a := 0) (m := 3) (by decide) e0 (by decide)
  have e25 : bits w 0 26 ≠ 12582913 := apart (a := 0) (m := 3) (by decide) e0 (by decide)
  have e26 : bits w 0 26 = 12582914 := (bits_join e0 (bits_join e1 (bits_join e2 (bits_join e3 (bits_join e4 e5)))))
  rw [decodeRow_0 e6]
  simp [decodeSys, e0, e1, e2, e3, e4, e5, e6, e7, e8, e9, e10, e11, e12, e13, e14, e15, e16, e17, e18, e19, e20, e21, e22, e23, e24, e25, e26]

theorem RoundTrip.rep (n d a b : Nat) : RoundTrip.Statement (.rep n d a b) := by
  intro _ hk
  have wf : Instr.WF (.rep n d a b) := of_decide_eq_true hk
  refine decode_of_row ?_ hk
  change decodeRow (0x4000000 + n * 1048576 + d * 131072 + a * 16384 + b * 2048) = _
  simp only [Instr.WF] at wf
  obtain ⟨l0, l1, l2, l3⟩ := wf
  obtain ⟨w, hw⟩ : ∃ w, w = 0 + 2 ^ 3 * (0 + 2 ^ 2 * (0 + 2 ^ 5 * (0 + 2 ^ 1 * (b + 2 ^ 3 * (a + 2 ^ 3 * (d + 2 ^ 3 * (n + 2 ^ 6 * (1 + 2 ^ 5 * (0))))))))) := ⟨_, rfl⟩
  have he : 0x4000000 + n * 1048576 + d * 131072 + a * 16384 + b * 2048 = w := by rw [hw]; simp only [Nat.mul_add, ← Nat.mul_assoc, Nat.reducePow, Nat.reduceMul]; omega
  rw [he]
  have e0 : bits w 0 3 = 0 := hw ▸ (hit (by decide))
  have e1 : bits w 3 2 = 0 := hw ▸ (skip (by decide) (by decide) (hit (by decide)))
  have e2 : bits w 5 5 = 0 := hw ▸ (skip (by decide) (by decide) (skip (by decide) (by decide) (hit (by decide))))
  have e3 : bits w 10 1 = 0 := hw ▸ (skip (by decide) (by decide) (skip (by decide) (by decide) (skip (by decide) (by decide) (hit (by decide)))))
  have e4 : bits w 11 3 = b := hw ▸ (skip (by decide) (by decide) (skip (by decide) (by decide) (skip (by decide) (by decide) (skip (by decide) (by decide) (hit l3)))))
  have e5 : bits w 14 3 = a := hw ▸ (skip (by decide) (by decide) (skip (by decide) (by decide) (skip (by decide) (by decide) (skip (by decide) (by decide) (skip l3 (by decide) (hit l2))))))
  have e6 : bits w 17 3 = d := hw ▸ (skip (by decide) (by decide) (skip (by decide) (by decide) (skip (by decide) (by decide) (skip (by decide) (by decide) (skip l3 (by decide) (skip l2 (by decide) (hit l1)))))))
  have e7 : bits w 20 6 = n := hw ▸ (skip (by decide) (by decide) (skip (by decide) (by decide) (skip (by decide) (by decide) (skip (by decide) (by decide) (skip l3 (by decide) (skip l2 (by decide) (skip l1 (by decide) (hit l0))))))))
  have e8 : bits w 26 5 = 1 := hw ▸ (skip (by decide) (by decide) (skip (by decide) (by decide) (skip (by decide) (by decide) (skip (by decide) (by decide) (skip l3 (by decide) (skip l2 (by decide) (skip l1 (by decide) (skip l0 (by decide) (hit (by decide))))))))))
  have e9 : bits w 31 1 = 0 := hw ▸ (skip (by decide) (by decide) (skip (by decide) (by decide) (skip (by decide) (by decide) (skip (by decide) (by decide) (skip l3 (by decide) (skip l2 (by decide) (skip l1 (by decide) (skip l0 (by decide) (skip (by decide) (by decide) (whole (by decide)))))))))))
  have e10 : bits w 0 11 = 0 := (bits_join e0 (bits_join e1 (bits_join e2 e3)))
  rw [decodeRow_1 e8]
  simp [decodeRep, e0, e1, e2, e3, e4, e5, e6, e7, e8, e9, e10]

theorem RoundTrip.aslice (c q a b : Nat) : RoundTrip.Statement (.aslice c q a b) := by
  intro _ hk
  have wf : Instr.WF (.aslice c q a b) := of_decide_eq_true hk
  refine decode_of_row ?_ hk
  change decodeRow (0x58000000 + c * 2147483648 + q * 32768 + a * 1024 + b * 32) = _
  simp only [Instr.WF] at wf
  obtain ⟨l0, l1, l2, l3⟩ := wf
  obtain ⟨w, hw⟩ : ∃ w, w = 0 + 2 ^ 3 * (0 + 2 ^ 2 * (b + 2 ^ 5 * (a + 2 ^ 5 * (q + 2 ^ 3 * (0 + 2 ^ 2 * (0 + 2 ^ 6 * (22 + 2 ^ 5 * (c)))))))) := ⟨_, rfl⟩
  have he : 0x58000000 + c * 2147483648 + q * 32768 + a * 1024 + b * 32 = w := by rw [hw]; simp only [Nat.mul_add, ← Nat.mul_assoc, Nat.reducePow, Nat.reduceMul]; omega
  rw [he]
  have e0 : bits w 0 3 = 0 := hw ▸ (hit (by decide))
  have e1 : bits w 3 2 = 0 := hw ▸ (skip (by decide) (by decide) (hit (by decide)))
  have e2 : bits w 5 5 = b := hw ▸ (skip (by decide) (by decide) (skip (by decide) (by decide) (hit l3)))
  have e3 : bits w 10 5 = a := hw ▸ (skip (by decide) (by decide) (skip (by decide) (by decide) (skip l3 (by decide) (hit l2))))
  have e4 : bits w 15 3 = q := hw ▸ (skip (by decide) (by decide) (skip (by decide) (by decide) (skip l3 (by decide) (skip l2 (by decide) (hit l1)))))
  have e5 : bits w 18 2 = 0 := hw ▸ (skip (by decide) (by decide) (skip (by decide) (by decide) (skip l3 (by decide) (skip l2 (by decide) (skip l1 (by decide) (hit (by decide)))))))
  have e6 : bits w 20 6 = 0 := hw ▸ (skip (by decide) (by decide) (skip (by decide) (by decide) (skip l3 (by decide) (skip l2 (by decide) (skip l1 (by decide) (skip (by decide) (by decide) (hit (by decide))))))))
  have e7 : bits w 26 5 = 22 := hw ▸ (skip (by decide) (by decide) (skip (by decide) (by decide) (skip l3 (by decide) (skip l2 (by decide) (skip l1 (by decide) (skip (by decide) (by decide) (skip (by decide) (by decide) (hit (by decide)))))))))
  have e8 : bits w 31 1 = c := hw ▸ (skip (by decide) (by decide) (skip (by decide) (by decide) (skip l3 (by decide) (skip l2 (by decide) (skip l1 (by decide) (skip (by decide) (by decide) (skip (by decide) (by decide) (skip (by decide) (by decide) (whole l0)))))))))
  have e9 : bits w 0 5 = 0 := (bits_join e0 e1)
  have e10 : bits w 18 8 = 0 := (bits_join e5 e6)
  rw [decodeRow_22 e7]
  simp [decodeAsync, e0, e1, e2, e3, e4, e5, e6, e7, e8, e9, e10]

theorem RoundTrip.pusht (c f t x n : Nat) : RoundTrip.Statement (.pusht c f t x n) := by
  intro _ hk
  have wf : Instr.WF (.pusht c f t x n) := of_decide_eq_true hk
  refine decode_of_row ?_ hk
  change decodeRow (0x58100000 + c * 2147483648 + f * 131072 + t * 512 + x * 32 + n) = _
  simp only [Instr.WF] at wf
  obtain ⟨l0, l1, l2, l3, l4, _x0⟩ := wf
  obtain ⟨w, hw⟩ : ∃ w, w = n + 2 ^ 5 * (x + 2 ^ 4 * (t + 2 ^ 8 * (f + 2 ^ 3 * (1 + 2 ^ 6 * (22 + 2 ^ 5 * (c)))))) := ⟨_, rfl⟩
  have he : 0x58100000 + c * 2147483648 + f * 131072 + t * 512 + x * 32 + n = w := by rw [hw]; simp only [Nat.mul_add, ← Nat.mul_assoc, Nat.reducePow, Nat.reduceMul]; omega
  rw [he]
  have e0 : bits w 0 5 = n := hw ▸ (hit l4)
  have e1 : bits w 5 4 = x := hw ▸ (skip l4 (by decide) (hit l3))
  have e2 : bits w 9 8 = t := hw ▸ (skip l4 (by decide) (skip l3 (by decide) (hit l2)))
  have e3 : bits w 17 3 = f := hw ▸ (skip l4 (by decide) (skip l3 (by decide) (skip l2 (by decide) (hit l1))))
  have e4 : bits w 20 6 = 1 := hw ▸ (skip l4 (by decide) (skip l3 (by decide) (skip l2 (by decide) (skip l1 (by decide) (hit (by decide))))))
  have e5 : bits w 26 5 = 22 := hw ▸ (skip l4 (by decide) (skip l3 (by decide) (skip l2 (by decide) (skip l1 (by decide) (skip (by decide) (by decide) (hit (by decide)))))))
  have e6 : bits w 31 1 = c := hw ▸ (skip l4 (by decide) (skip l3 (by decide) (skip l2 (by decide) (skip l1 (by decide) (skip (by decide) (by decide) (skip (by decide) (by decide) (whole l0)))))))
  have e7 : bits w 18 8 ≠ 0 := apart (a := 2) (m := 6) (by decide) e4 (by decide)
  rw [decodeRow_22 e5]
  simp [decodeAsync, e0, e1, e2, e3, e4, e5, e6, e7]

theorem RoundTrip.copy (c a b m : Nat) : RoundTrip.Statement (.copy c a b m) := by
  intro _ hk
  have wf : Instr.WF (.copy c a b m) := of_decide_eq_true hk
  refine decode_of_row ?_ hk
  change decodeRow (0x58200000 + c * 2147483648 + a * 32768 + b * 1024 + m * 4) = _
  simp only [Instr.WF] at wf
  obtain ⟨l0, l1, l2, l3⟩ := wf
  obtain ⟨w, hw⟩ : ∃ w, w = 0 + 2 ^ 2 * (m + 2 ^ 8 * (b + 2 ^ 5 * (a + 2 ^ 5 * (2 + 2 ^ 6 * (22 + 2 ^ 5 * (c)))))) := ⟨_, rfl⟩
  have he : 0x58200000 + c * 2147483648 + a * 32768 + b * 1024 + m * 4 = w := by rw [hw]; simp only [Nat.mul_add, ← Nat.mul_assoc, Nat.reducePow, Nat.reduceMul]; omega
  rw [he]
  have e0 : bits w 0 2 = 0 := hw ▸ (hit (by decide))
  have e1 : bits w 2 8 = m := hw ▸ (skip (by decide) (by decide) (hit l3))
  have e2 : bits w 10 5 = b := hw ▸ (skip (by decide) (by decide) (skip l3 (by decide) (hit l2)))
  have e3 : bits w 15 5 = a := hw ▸ (skip (by decide) (by decide) (skip l3 (by decide) (skip l2 (by decide) (hit l1))))
  have e4 : bits w 20 6 = 2 := hw ▸ (skip (by decide) (by decide) (skip l3 (by decide) (skip l2 (by decide) (skip l1 (by decide) (hit (by decide))))))
  have e5 : bits w 26 5 = 22 := hw ▸ (skip (by decide) (by decide) (skip l3 (by decide) (skip l2 (by decide) (skip l1 (by decide) (skip (by decide) (by decide) (hit (by decide)))))))
  have e6 : bits w 31 1 = c := hw ▸ (skip (by decide) (by decide) (skip l3 (by decide) (skip l2 (by decide) (skip l1 (by decide) (skip (by decide) (by decide) (skip (by decide) (by decide) (whole l0)))))))
  have e7 : bits w 18 8 ≠ 0 := apart (a := 2) (m := 6) (by decide) e4 (by decide)
  rw [decodeRow_22 e5]
  simp [decodeAsync, e0, e1, e2, e3, e4, e5, e6, e7]

theorem RoundTrip.tidset (c a i : Nat) : RoundTrip.Statement (.tidset c a i) := by
  intro _ hk
  have wf : Instr.WF (.tidset c a i) := of_decide_eq_true hk
  refine decode_of_row ?_ hk
  change decodeRow (0x58300000 + c * 2147483648 + a * 1024 + i * 4) = _
  simp only [Instr.WF] at wf
  obtain ⟨l0, l1, l2⟩ := wf
  obtain ⟨w, hw⟩ : ∃ w, w = 0 + 2 ^ 2 * (i + 2 ^ 8 * (a + 2 ^ 5 * (0 + 2 ^ 5 * (3 + 2 ^ 6 * (22 + 2 ^ 5 * (c)))))) := ⟨_, rfl⟩
  have he : 0x58300000 + c * 2147483648 + a * 1024 + i * 4 = w := by rw [hw]; simp only [Nat.mul_add, ← Nat.mul_assoc, Nat.reducePow, Nat.reduceMul]; omega
  rw [he]
  have e0 : bits w 0 2 = 0 := hw ▸ (hit (by decide))
  have e1 : bits w 2 8 = i := hw ▸ (skip (by decide) (by decide) (hit l2))
  have e2 : bits w 10 5 = a := hw ▸ (skip (by decide) (by decide) (skip l2 (by decide) (hit l1)))
  have e3 : bits w 15 5 = 0 := hw ▸ (skip (by decide) (by decide) (skip l2 (by decide) (skip l1 (by decide) (hit (by decide)))))
  have e4 : bits w 20 6 = 3 := hw ▸ (skip (by decide) (by decide) (skip l2 (by decide) (skip l1 (by decide) (skip (by decide) (by decide) (hit (by decide))))))
  have e5 : bits w 26 5 = 22 := hw ▸ (skip (by decide) (by decide) (skip l2 (by decide) (skip l1 (by decide) (skip (by decide) (by decide) (skip (by decide) (by decide) (hit (by decide)))))))
  have e6 : bits w 31 1 = c := hw ▸ (skip (by decide) (by decide) (skip l2 (by decide) (skip l1 (by decide) (skip (by decide) (by decide) (skip (by decide) (by decide) (skip (by decide) (by decide) (whole l0)))))))
  have e7 : bits w 18 8 ≠ 0 := apart (a := 2) (m := 6) (by decide) e4 (by decide)
  have e8 : bits w 15 11 = 96 := (bits_join e3 e4)
  rw [decodeRow_22 e5]
  simp [decodeAsync, e0, e1, e2, e3, e4, e5, e6, e7, e8]

theorem RoundTrip.tidget (c a i : Nat) : RoundTrip.Statement (.tidget c a i) := by
  intro _ hk
  have wf : Instr.WF (.tidget c a i) := of_decide_eq_true hk
  refine decode_of_row ?_ hk
  change decodeRow (0x58400000 + c * 2147483648 + a * 1024 + i * 4) = _
  simp only [Instr.WF] at wf
  obtain ⟨l0, l1, l2⟩ := wf
  obtain ⟨w, hw⟩ : ∃ w, w = 0 + 2 ^ 2 * (i + 2 ^ 8 * (a + 2 ^ 5 * (0 + 2 ^ 5 * (4 + 2 ^ 6 * (22 + 2 ^ 5 * (c)))))) := ⟨_, rfl⟩
  have he : 0x58400000 + c * 2147483648 + a * 1024 + i * 4 = w := by rw [hw]; simp only [Nat.mul_add, ← Nat.mul_assoc, Nat.reducePow, Nat.reduceMul]; omega
  rw [he]
  have e0 : bits w 0 2 = 0 := hw ▸ (hit (by decide))
  have e1 : bits w 2 8 = i := hw ▸ (skip (by decide) (by decide) (hit l2))
  have e2 : bits w 10 5 = a := hw ▸ (skip (by decide) (by decide) (skip l2 (by decide) (hit l1)))
  have e3 : bits w 15 5 = 0 := hw ▸ (skip (by decide) (by decide) (skip l2 (by decide) (skip l1 (by decide) (hit (by decide)))))
  have e4 : bits w 20 6 = 4 := hw ▸ (skip (by decide) (by decide) (skip l2 (by decide) (skip l1 (by decide) (skip (by decide) (by decide) (hit (by decide))))))
  have e5 : bits w 26 5 = 22 := hw ▸ (skip (by decide) (by decide) (skip l2 (by decide) (skip l1 (by decide) (skip (by decide) (by decide) (skip (by decide) (by decide) (hit (by decide)))))))
  have e6 : bits w 31 1 = c := hw ▸ (skip (by decide) (by decide) (skip l2 (by decide) (skip l1 (by decide) (skip (by decide) (by decide) (skip (by decide) (by decide) (skip (by decide) (by decide) (whole l0)))))))
  have e7 : bits w 18 8 ≠ 0 := apart (a := 2) (m := 6) (by decide) e4 (by decide)
  have e8 : bits w 15 11 ≠ 96 := apart (a := 5) (m := 6) (by decide) e4 (by decide)
  have e9 : bits w 15 11 = 128 := (bits_join e3 e4)
  rw [decodeRow_22 e5]
  simp [decodeAsync, e0, e1, e2, e3, e4, e5, e6, e7, e8, e9]

theorem RoundTrip.await (c q : Nat) : RoundTrip.Statement (.await c q) := by
  intro _ hk
  have wf : Instr.WF (.await c q) := of_decide_eq_true hk
  refine decode_of_row ?_ hk
  change decodeRow (0x58500000 + c * 2147483648 + q * 32768) = _
  simp only [Instr.WF] at wf
  obtain ⟨l0, l1⟩ := wf
  obtain ⟨w, hw⟩ : ∃ w, w = 0 + 2 ^ 3 * (0 + 2 ^ 2 * (0 + 2 ^ 5 * (0 + 2 ^ 5 * (q + 2 ^ 3 * (0 + 2 ^ 2 * (5 + 2 ^ 6 * (22 + 2 ^ 5 * (c)))))))) := ⟨_, rfl⟩
  have he : 0x58500000 + c * 2147483648 + q * 32768 = w := by rw [hw]; simp only [Nat.mul_add, ← Nat.mul_assoc, Nat.reducePow, Nat.reduceMul]; omega
  rw [he]
  have e0 : bits w 0 3 = 0 := hw ▸ (hit (by decide))
  have e1 : bits w 3 2 = 0 := hw ▸ (skip (by decide) (by decide) (hit (by decide)))
  have e2 : bits w 5 5 = 0 := hw ▸ (skip (by decide) (by decide) (skip (by decide) (by decide) (hit (by decide))))
  have e3 : bits w 10 5 = 0 := hw ▸ (skip (by decide) (by decide) (skip (by decide) (by decide) (skip (by decide) (by decide) (hit (by decide)))))
  have e4 : bits w 15 3 = q := hw ▸ (skip (by decide) (by decide) (skip (by decide) (by decide) (skip (by decide) (by decide) (skip (by decide) (by decide) (hit l1)))))
  have e5 : bits w 18 2 = 0 := hw ▸ (skip (by decide) (by decide) (skip (by decide) (by decide) (skip (by decide) (by decide) (skip (by decide) (by decide) (skip l1 (by decide) (hit (by decide)))))))
  have e6 : bits w 20 6 = 5 := hw ▸ (skip (by decide) (by decide) (skip (by decide) (by decide) (skip (by decide) (by decide) (skip (by decide) (by decide) (skip l1 (by decide) (skip (by decide) (by decide) (hit (by decide))))))))
  have e7 : bits w 26 5 = 22 := hw ▸ (skip (by decide) (by decide) (skip (by decide) (by decide) (skip (by decide) (by decide) (skip (by decide) (by decide) (skip l1 (by decide) (skip (by decide) (by decide) (skip (by decide) (by decide) (hit (by decide)))))))))
  have e8 : bits w 31 1 = c := hw ▸ (skip (by decide) (by decide) (skip (by decide) (by decide) (skip (by decide) (by decide) (skip (by decide) (by decide) (skip l1 (by decide) (skip (by decide) (by decide) (skip (by decide) (by decide) (skip (by decide) (by decide) (whole l0)))))))))
  have e9 : bits w 18 8 ≠ 0 := apart (a := 2) (m := 6) (by decide) e6 (by decide)
  have e10 : bits w 15 11 ≠ 96 := apart (a := 5) (m := 6) (by decide) e6 (by decide)
  have e11 : bits w 15 11 ≠ 128 := apart (a := 5) (m := 6) (by decide) e6 (by decide)
  have e12 : bits w 0 15 = 0 := (bits_join e0 (bits_join e1 (bits_join e2 e3)))
  have e13 : bits w 18 8 = 20 := (bits_join e5 e6)
  rw [decodeRow_22 e7]
  simp [decodeAsync, e0, e1, e2, e3, e4, e5, e6, e7, e8, e9, e10, e11, e12, e13]

theorem RoundTrip.qpush (c a n : Nat) : RoundTrip.Statement (.qpush c a n) := by
  intro _ hk
  have wf : Instr.WF (.qpush c a n) := of_decide_eq_true hk
  refine decode_of_row ?_ hk
  change decodeRow (0x5C000000 + c * 2147483648 + a * 1024 + n) = _
  simp only [Instr.WF] at wf
  obtain ⟨l0, l1, l2⟩ := wf
  obtain ⟨w, hw⟩ : ∃ w, w = n + 2 ^ 4 * (0 + 2 ^ 1 * (0 + 2 ^ 5 * (a + 2 ^ 5 * (0 + 2 ^ 5 * (0 + 2 ^ 6 * (23 + 2 ^ 5 * (c))))))) := ⟨_, rfl⟩
  have he : 0x5C000000 + c * 2147483648 + a * 1024 + n = w := by rw [hw]; simp only [Nat.mul_add, ← Nat.mul_assoc, Nat.reducePow, Nat.reduceMul]; omega
  rw [he]
  have e0 : bits w 0 4 = n := hw ▸ (hit l2)
  have e1 : bits w 4 1 = 0 := hw ▸ (skip l2 (by decide) (hit (by decide)))
  have e2 : bits w 5 5 = 0 := hw ▸ (skip l2 (by decide) (skip (by decide) (by decide) (hit (by decide))))
  have e3 : bits w 10 5 = a := hw ▸ (skip l2 (by decide) (skip (by decide) (by decide) (skip (by decide) (by decide) (hit l1))))
  have e4 : bits w 15 5 = 0 := hw ▸ (skip l2 (by decide) (skip (by decide) (by decide) (skip (by decide) (by decide) (skip l1 (by decide) (hit (by decide))))))
  have e5 : bits w 20 6 = 0 := hw ▸ (skip l2 (by decide) (skip (by decide) (by decide) (skip (by decide) (by decide) (skip l1 (by decide) (skip (by decide) (by decide) (hit (by decide)))))))
  have e6 : bits w 26 5 = 23 := hw ▸ (skip l2 (by decide) (skip (by decide) (by decide) (skip (by decide) (by decide) (skip l1 (by decide) (skip (by decide) (by decide) (skip (by decide) (by decide) (hit (by decide))))))))
  have e7 : bits w 31 1 = c := hw ▸ (skip l2 (by decide) (skip (by decide) (by decide) (skip (by decide) (by decide) (skip l1 (by decide) (skip (by decide) (by decide) (skip (by decide) (by decide) (skip (by decide) (by decide) (whole l0))))))))
  have e8 : bits w 4 6 = 0 := (bits_join e1 e2)
  have e9 : bits w 15 11 = 0 := (bits_join e4 e5)
  rw [decodeRow_23 e6]
  simp [decodeSync, e0, e1, e2, e3, e4, e5, e6, e7, e8, e9]

theorem RoundTrip.qpop (c d n : Nat) : RoundTrip.Statement (.qpop c d n) := by
  intro _ hk
  have wf : Instr.WF (.qpop c d n) := of_decide_eq_true hk
  refine decode_of_row ?_ hk
  change decodeRow (0x5C100000 + c * 2147483648 + d * 32768 + n) = _
  simp only [Instr.WF] at wf
  obtain ⟨l0, l1, l2⟩ := wf
  obtain ⟨w, hw⟩ : ∃ w, w = n + 2 ^ 4 * (0 + 2 ^ 1 * (0 + 2 ^ 5 * (0 + 2 ^ 5 * (d + 2 ^ 5 * (1 + 2 ^ 6 * (23 + 2 ^ 5 * (c))))))) := ⟨_, rfl⟩
  have he : 0x5C100000 + c * 2147483648 + d * 32768 + n = w := by rw [hw]; simp only [Nat.mul_add, ← Nat.mul_assoc, Nat.reducePow, Nat.reduceMul]; omega
  rw [he]
  have e0 : bits w 0 4 = n := hw ▸ (hit l2)
  have e1 : bits w 4 1 = 0 := hw ▸ (skip l2 (by decide) (hit (by decide)))
  have e2 : bits w 5 5 = 0 := hw ▸ (skip l2 (by decide) (skip (by decide) (by decide) (hit (by decide))))
  have e3 : bits w 10 5 = 0 := hw ▸ (skip l2 (by decide) (skip (by decide) (by decide) (skip (by decide) (by decide) (hit (by decide)))))
  have e4 : bits w 15 5 = d := hw ▸ (skip l2 (by decide) (skip (by decide) (by decide) (skip (by decide) (by decide) (skip (by decide) (by decide) (hit l1)))))
  have e5 : bits w 20 6 = 1 := hw ▸ (skip l2 (by decide) (skip (by decide) (by decide) (skip (by decide) (by decide) (skip (by decide) (by decide) (skip l1 (by decide) (hit (by decide)))))))
  have e6 : bits w 26 5 = 23 := hw ▸ (skip l2 (by decide) (skip (by decide) (by decide) (skip (by decide) (by decide) (skip (by decide) (by decide) (skip l1 (by decide) (skip (by decide) (by decide) (hit (by decide))))))))
  have e7 : bits w 31 1 = c := hw ▸ (skip l2 (by decide) (skip (by decide) (by decide) (skip (by decide) (by decide) (skip (by decide) (by decide) (skip l1 (by decide) (skip (by decide) (by decide) (skip (by decide) (by decide) (whole l0))))))))
  have e8 : bits w 15 11 ≠ 0 := apart (a := 5) (m := 6) (by decide) e5 (by decide)
  have e9 : bits w 4 11 = 0 := (bits_join e1 (bits_join e2 e3))
  rw [decodeRow_23 e6]
  simp [decodeSync, e0, e1, e2, e3, e4, e5, e6, e7, e8, e9]

theorem RoundTrip.qtry (c d q n : Nat) : RoundTrip.Statement (.qtry c d q n) := by
  intro _ hk
  have wf : Instr.WF (.qtry c d q n) := of_decide_eq_true hk
  refine decode_of_row ?_ hk
  change decodeRow (0x5C200000 + c * 2147483648 + d * 32768 + q * 32 + n) = _
  simp only [Instr.WF] at wf
  obtain ⟨l0, l1, l2, l3⟩ := wf
  obtain ⟨w, hw⟩ : ∃ w, w = n + 2 ^ 4 * (0 + 2 ^ 1 * (q + 2 ^ 3 * (0 + 2 ^ 2 * (0 + 2 ^ 5 * (d + 2 ^ 5 * (2 + 2 ^ 6 * (23 + 2 ^ 5 * (c)))))))) := ⟨_, rfl⟩
  have he : 0x5C200000 + c * 2147483648 + d * 32768 + q * 32 + n = w := by rw [hw]; simp only [Nat.mul_add, ← Nat.mul_assoc, Nat.reducePow, Nat.reduceMul]; omega
  rw [he]
  have e0 : bits w 0 4 = n := hw ▸ (hit l3)
  have e1 : bits w 4 1 = 0 := hw ▸ (skip l3 (by decide) (hit (by decide)))
  have e2 : bits w 5 3 = q := hw ▸ (skip l3 (by decide) (skip (by decide) (by decide) (hit l2)))
  have e3 : bits w 8 2 = 0 := hw ▸ (skip l3 (by decide) (skip (by decide) (by decide) (skip l2 (by decide) (hit (by decide)))))
  have e4 : bits w 10 5 = 0 := hw ▸ (skip l3 (by decide) (skip (by decide) (by decide) (skip l2 (by decide) (skip (by decide) (by decide) (hit (by decide))))))
  have e5 : bits w 15 5 = d := hw ▸ (skip l3 (by decide) (skip (by decide) (by decide) (skip l2 (by decide) (skip (by decide) (by decide) (skip (by decide) (by decide) (hit l1))))))
  have e6 : bits w 20 6 = 2 := hw ▸ (skip l3 (by decide) (skip (by decide) (by decide) (skip l2 (by decide) (skip (by decide) (by decide) (skip (by decide) (by decide) (skip l1 (by decide) (hit (by decide))))))))
  have e7 : bits w 26 5 = 23 := hw ▸ (skip l3 (by decide) (skip (by decide) (by decide) (skip l2 (by decide) (skip (by decide) (by decide) (skip (by decide) (by decide) (skip l1 (by decide) (skip (by decide) (by decide) (hit (by decide)))))))))
  have e8 : bits w 31 1 = c := hw ▸ (skip l3 (by decide) (skip (by decide) (by decide) (skip l2 (by decide) (skip (by decide) (by decide) (skip (by decide) (by decide) (skip l1 (by decide) (skip (by decide) (by decide) (skip (by decide) (by decide) (whole l0)))))))))
  have e9 : bits w 15 11 ≠ 0 := apart (a := 5) (m := 6) (by decide) e6 (by decide)
  have e10 : bits w 8 7 = 0 := (bits_join e3 e4)
  rw [decodeRow_23 e7]
  simp [decodeSync, e0, e1, e2, e3, e4, e5, e6, e7, e8, e9, e10]

theorem RoundTrip.swinit (c a b : Nat) : RoundTrip.Statement (.swinit c a b) := by
  intro _ hk
  have wf : Instr.WF (.swinit c a b) := of_decide_eq_true hk
  refine decode_of_row ?_ hk
  change decodeRow (0x5C300000 + c * 2147483648 + a * 1024 + b * 32) = _
  simp only [Instr.WF] at wf
  obtain ⟨l0, l1, l2⟩ := wf
  obtain ⟨w, hw⟩ : ∃ w, w = 0 + 2 ^ 3 * (0 + 2 ^ 2 * (b + 2 ^ 5 * (a + 2 ^ 5 * (0 + 2 ^ 5 * (3 + 2 ^ 6 * (23 + 2 ^ 5 * (c))))))) := ⟨_, rfl⟩
  have he : 0x5C300000 + c * 2147483648 + a * 1024 + b * 32 = w := by rw [hw]; simp only [Nat.mul_add, ← Nat.mul_assoc, Nat.reducePow, Nat.reduceMul]; omega
  rw [he]
  have e0 : bits w 0 3 = 0 := hw ▸ (hit (by decide))
  have e1 : bits w 3 2 = 0 := hw ▸ (skip (by decide) (by decide) (hit (by decide)))
  have e2 : bits w 5 5 = b := hw ▸ (skip (by decide) (by decide) (skip (by decide) (by decide) (hit l2)))
  have e3 : bits w 10 5 = a := hw ▸ (skip (by decide) (by decide) (skip (by decide) (by decide) (skip l2 (by decide) (hit l1))))
  have e4 : bits w 15 5 = 0 := hw ▸ (skip (by decide) (by decide) (skip (by decide) (by decide) (skip l2 (by decide) (skip l1 (by decide) (hit (by decide))))))
  have e5 : bits w 20 6 = 3 := hw ▸ (skip (by decide) (by decide) (skip (by decide) (by decide) (skip l2 (by decide) (skip l1 (by decide) (skip (by decide) (by decide) (hit (by decide)))))))
  have e6 : bits w 26 5 = 23 := hw ▸ (skip (by decide) (by decide) (skip (by decide) (by decide) (skip l2 (by decide) (skip l1 (by decide) (skip (by decide) (by decide) (skip (by decide) (by decide) (hit (by decide))))))))
  have e7 : bits w 31 1 = c := hw ▸ (skip (by decide) (by decide) (skip (by decide) (by decide) (skip l2 (by decide) (skip l1 (by decide) (skip (by decide) (by decide) (skip (by decide) (by decide) (skip (by decide) (by decide) (whole l0))))))))
  have e8 : bits w 15 11 ≠ 0 := apart (a := 5) (m := 6) (by decide) e5 (by decide)
  have e9 : bits w 0 5 = 0 := (bits_join e0 e1)
  have e10 : bits w 15 11 = 96 := (bits_join e4 e5)
  rw [decodeRow_23 e6]
  simp [decodeSync, e0, e1, e2, e3, e4, e5, e6, e7, e8, e9, e10]

theorem RoundTrip.swadd (c a b : Nat) : RoundTrip.Statement (.swadd c a b) := by
  intro _ hk
  have wf : Instr.WF (.swadd c a b) := of_decide_eq_true hk
  refine decode_of_row ?_ hk
  change decodeRow (0x5C400000 + c * 2147483648 + a * 1024 + b * 32) = _
  simp only [Instr.WF] at wf
  obtain ⟨l0, l1, l2⟩ := wf
  obtain ⟨w, hw⟩ : ∃ w, w = 0 + 2 ^ 3 * (0 + 2 ^ 2 * (b + 2 ^ 5 * (a + 2 ^ 5 * (0 + 2 ^ 5 * (4 + 2 ^ 6 * (23 + 2 ^ 5 * (c))))))) := ⟨_, rfl⟩
  have he : 0x5C400000 + c * 2147483648 + a * 1024 + b * 32 = w := by rw [hw]; simp only [Nat.mul_add, ← Nat.mul_assoc, Nat.reducePow, Nat.reduceMul]; omega
  rw [he]
  have e0 : bits w 0 3 = 0 := hw ▸ (hit (by decide))
  have e1 : bits w 3 2 = 0 := hw ▸ (skip (by decide) (by decide) (hit (by decide)))
  have e2 : bits w 5 5 = b := hw ▸ (skip (by decide) (by decide) (skip (by decide) (by decide) (hit l2)))
  have e3 : bits w 10 5 = a := hw ▸ (skip (by decide) (by decide) (skip (by decide) (by decide) (skip l2 (by decide) (hit l1))))
  have e4 : bits w 15 5 = 0 := hw ▸ (skip (by decide) (by decide) (skip (by decide) (by decide) (skip l2 (by decide) (skip l1 (by decide) (hit (by decide))))))
  have e5 : bits w 20 6 = 4 := hw ▸ (skip (by decide) (by decide) (skip (by decide) (by decide) (skip l2 (by decide) (skip l1 (by decide) (skip (by decide) (by decide) (hit (by decide)))))))
  have e6 : bits w 26 5 = 23 := hw ▸ (skip (by decide) (by decide) (skip (by decide) (by decide) (skip l2 (by decide) (skip l1 (by decide) (skip (by decide) (by decide) (skip (by decide) (by decide) (hit (by decide))))))))
  have e7 : bits w 31 1 = c := hw ▸ (skip (by decide) (by decide) (skip (by decide) (by decide) (skip l2 (by decide) (skip l1 (by decide) (skip (by decide) (by decide) (skip (by decide) (by decide) (skip (by decide) (by decide) (whole l0))))))))
  have e8 : bits w 15 11 ≠ 0 := apart (a := 5) (m := 6) (by decide) e5 (by decide)
  have e9 : bits w 15 11 ≠ 96 := apart (a := 5) (m := 6) (by decide) e5 (by decide)
  have e10 : bits w 0 5 = 0 := (bits_join e0 e1)
  have e11 : bits w 15 11 = 128 := (bits_join e4 e5)
  rw [decodeRow_23 e6]
  simp [decodeSync, e0, e1, e2, e3, e4, e5, e6, e7, e8, e9, e10, e11]

theorem RoundTrip.swwait (c a b : Nat) : RoundTrip.Statement (.swwait c a b) := by
  intro _ hk
  have wf : Instr.WF (.swwait c a b) := of_decide_eq_true hk
  refine decode_of_row ?_ hk
  change decodeRow (0x5C500000 + c * 2147483648 + a * 1024 + b * 32) = _
  simp only [Instr.WF] at wf
  obtain ⟨l0, l1, l2⟩ := wf
  obtain ⟨w, hw⟩ : ∃ w, w = 0 + 2 ^ 3 * (0 + 2 ^ 2 * (b + 2 ^ 5 * (a + 2 ^ 5 * (0 + 2 ^ 5 * (5 + 2 ^ 6 * (23 + 2 ^ 5 * (c))))))) := ⟨_, rfl⟩
  have he : 0x5C500000 + c * 2147483648 + a * 1024 + b * 32 = w := by rw [hw]; simp only [Nat.mul_add, ← Nat.mul_assoc, Nat.reducePow, Nat.reduceMul]; omega
  rw [he]
  have e0 : bits w 0 3 = 0 := hw ▸ (hit (by decide))
  have e1 : bits w 3 2 = 0 := hw ▸ (skip (by decide) (by decide) (hit (by decide)))
  have e2 : bits w 5 5 = b := hw ▸ (skip (by decide) (by decide) (skip (by decide) (by decide) (hit l2)))
  have e3 : bits w 10 5 = a := hw ▸ (skip (by decide) (by decide) (skip (by decide) (by decide) (skip l2 (by decide) (hit l1))))
  have e4 : bits w 15 5 = 0 := hw ▸ (skip (by decide) (by decide) (skip (by decide) (by decide) (skip l2 (by decide) (skip l1 (by decide) (hit (by decide))))))
  have e5 : bits w 20 6 = 5 := hw ▸ (skip (by decide) (by decide) (skip (by decide) (by decide) (skip l2 (by decide) (skip l1 (by decide) (skip (by decide) (by decide) (hit (by decide)))))))
  have e6 : bits w 26 5 = 23 := hw ▸ (skip (by decide) (by decide) (skip (by decide) (by decide) (skip l2 (by decide) (skip l1 (by decide) (skip (by decide) (by decide) (skip (by decide) (by decide) (hit (by decide))))))))
  have e7 : bits w 31 1 = c := hw ▸ (skip (by decide) (by decide) (skip (by decide) (by decide) (skip l2 (by decide) (skip l1 (by decide) (skip (by decide) (by decide) (skip (by decide) (by decide) (skip (by decide) (by decide) (whole l0))))))))
  have e8 : bits w 15 11 ≠ 0 := apart (a := 5) (m := 6) (by decide) e5 (by decide)
  have e9 : bits w 15 11 ≠ 96 := apart (a := 5) (m := 6) (by decide) e5 (by decide)
  have e10 : bits w 15 11 ≠ 128 := apart (a := 5) (m := 6) (by decide) e5 (by decide)
  have e11 : bits w 0 5 = 0 := (bits_join e0 e1)
  have e12 : bits w 15 11 = 160 := (bits_join e4 e5)
  rw [decodeRow_23 e6]
  simp [decodeSync, e0, e1, e2, e3, e4, e5, e6, e7, e8, e9, e10, e11, e12]

theorem RoundTrip.barinit (c a b : Nat) : RoundTrip.Statement (.barinit c a b) := by
  intro _ hk
  have wf : Instr.WF (.barinit c a b) := of_decide_eq_true hk
  refine decode_of_row ?_ hk
  change decodeRow (0x5C600000 + c * 2147483648 + a * 1024 + b * 32) = _
  simp only [Instr.WF] at wf
  obtain ⟨l0, l1, l2⟩ := wf
  obtain ⟨w, hw⟩ : ∃ w, w = 0 + 2 ^ 3 * (0 + 2 ^ 2 * (b + 2 ^ 5 * (a + 2 ^ 5 * (0 + 2 ^ 5 * (6 + 2 ^ 6 * (23 + 2 ^ 5 * (c))))))) := ⟨_, rfl⟩
  have he : 0x5C600000 + c * 2147483648 + a * 1024 + b * 32 = w := by rw [hw]; simp only [Nat.mul_add, ← Nat.mul_assoc, Nat.reducePow, Nat.reduceMul]; omega
  rw [he]
  have e0 : bits w 0 3 = 0 := hw ▸ (hit (by decide))
  have e1 : bits w 3 2 = 0 := hw ▸ (skip (by decide) (by decide) (hit (by decide)))
  have e2 : bits w 5 5 = b := hw ▸ (skip (by decide) (by decide) (skip (by decide) (by decide) (hit l2)))
  have e3 : bits w 10 5 = a := hw ▸ (skip (by decide) (by decide) (skip (by decide) (by decide) (skip l2 (by decide) (hit l1))))
  have e4 : bits w 15 5 = 0 := hw ▸ (skip (by decide) (by decide) (skip (by decide) (by decide) (skip l2 (by decide) (skip l1 (by decide) (hit (by decide))))))
  have e5 : bits w 20 6 = 6 := hw ▸ (skip (by decide) (by decide) (skip (by decide) (by decide) (skip l2 (by decide) (skip l1 (by decide) (skip (by decide) (by decide) (hit (by decide)))))))
  have e6 : bits w 26 5 = 23 := hw ▸ (skip (by decide) (by decide) (skip (by decide) (by decide) (skip l2 (by decide) (skip l1 (by decide) (skip (by decide) (by decide) (skip (by decide) (by decide) (hit (by decide))))))))
  have e7 : bits w 31 1 = c := hw ▸ (skip (by decide) (by decide) (skip (by decide) (by decide) (skip l2 (by decide) (skip l1 (by decide) (skip (by decide) (by decide) (skip (by decide) (by decide) (skip (by decide) (by decide) (whole l0))))))))
  have e8 : bits w 15 11 ≠ 0 := apart (a := 5) (m := 6) (by decide) e5 (by decide)
  have e9 : bits w 15 11 ≠ 96 := apart (a := 5) (m := 6) (by decide) e5 (by decide)
  have e10 : bits w 15 11 ≠ 128 := apart (a := 5) (m := 6) (by decide) e5 (by decide)
  have e11 : bits w 15 11 ≠ 160 := apart (a := 5) (m := 6) (by decide) e5 (by decide)
  have e12 : bits w 0 5 = 0 := (bits_join e0 e1)
  have e13 : bits w 15 11 = 192 := (bits_join e4 e5)
  rw [decodeRow_23 e6]
  simp [decodeSync, e0, e1, e2, e3, e4, e5, e6, e7, e8, e9, e10, e11, e12, e13]

theorem RoundTrip.barrive (c d a b : Nat) : RoundTrip.Statement (.barrive c d a b) := by
  intro _ hk
  have wf : Instr.WF (.barrive c d a b) := of_decide_eq_true hk
  refine decode_of_row ?_ hk
  change decodeRow (0x5C700000 + c * 2147483648 + d * 32768 + a * 1024 + b * 32) = _
  simp only [Instr.WF] at wf
  obtain ⟨l0, l1, l2, l3⟩ := wf
  obtain ⟨w, hw⟩ : ∃ w, w = 0 + 2 ^ 3 * (0 + 2 ^ 2 * (b + 2 ^ 5 * (a + 2 ^ 5 * (d + 2 ^ 5 * (7 + 2 ^ 6 * (23 + 2 ^ 5 * (c))))))) := ⟨_, rfl⟩
  have he : 0x5C700000 + c * 2147483648 + d * 32768 + a * 1024 + b * 32 = w := by rw [hw]; simp only [Nat.mul_add, ← Nat.mul_assoc, Nat.reducePow, Nat.reduceMul]; omega
  rw [he]
  have e0 : bits w 0 3 = 0 := hw ▸ (hit (by decide))
  have e1 : bits w 3 2 = 0 := hw ▸ (skip (by decide) (by decide) (hit (by decide)))
  have e2 : bits w 5 5 = b := hw ▸ (skip (by decide) (by decide) (skip (by decide) (by decide) (hit l3)))
  have e3 : bits w 10 5 = a := hw ▸ (skip (by decide) (by decide) (skip (by decide) (by decide) (skip l3 (by decide) (hit l2))))
  have e4 : bits w 15 5 = d := hw ▸ (skip (by decide) (by decide) (skip (by decide) (by decide) (skip l3 (by decide) (skip l2 (by decide) (hit l1)))))
  have e5 : bits w 20 6 = 7 := hw ▸ (skip (by decide) (by decide) (skip (by decide) (by decide) (skip l3 (by decide) (skip l2 (by decide) (skip l1 (by decide) (hit (by decide)))))))
  have e6 : bits w 26 5 = 23 := hw ▸ (skip (by decide) (by decide) (skip (by decide) (by decide) (skip l3 (by decide) (skip l2 (by decide) (skip l1 (by decide) (skip (by decide) (by decide) (hit (by decide))))))))
  have e7 : bits w 31 1 = c := hw ▸ (skip (by decide) (by decide) (skip (by decide) (by decide) (skip l3 (by decide) (skip l2 (by decide) (skip l1 (by decide) (skip (by decide) (by decide) (skip (by decide) (by decide) (whole l0))))))))
  have e8 : bits w 15 11 ≠ 0 := apart (a := 5) (m := 6) (by decide) e5 (by decide)
  have e9 : bits w 15 11 ≠ 96 := apart (a := 5) (m := 6) (by decide) e5 (by decide)
  have e10 : bits w 15 11 ≠ 128 := apart (a := 5) (m := 6) (by decide) e5 (by decide)
  have e11 : bits w 15 11 ≠ 160 := apart (a := 5) (m := 6) (by decide) e5 (by decide)
  have e12 : bits w 15 11 ≠ 192 := apart (a := 5) (m := 6) (by decide) e5 (by decide)
  have e13 : bits w 0 5 = 0 := (bits_join e0 e1)
  rw [decodeRow_23 e6]
  simp [decodeSync, e0, e1, e2, e3, e4, e5, e6, e7, e8, e9, e10, e11, e12, e13]

theorem RoundTrip.bardrop (c d a b : Nat) : RoundTrip.Statement (.bardrop c d a b) := by
  intro _ hk
  have wf : Instr.WF (.bardrop c d a b) := of_decide_eq_true hk
  refine decode_of_row ?_ hk
  change decodeRow (0x5C800000 + c * 2147483648 + d * 32768 + a * 1024 + b * 32) = _
  simp only [Instr.WF] at wf
  obtain ⟨l0, l1, l2, l3⟩ := wf
  obtain ⟨w, hw⟩ : ∃ w, w = 0 + 2 ^ 3 * (0 + 2 ^ 2 * (b + 2 ^ 5 * (a + 2 ^ 5 * (d + 2 ^ 5 * (8 + 2 ^ 6 * (23 + 2 ^ 5 * (c))))))) := ⟨_, rfl⟩
  have he : 0x5C800000 + c * 2147483648 + d * 32768 + a * 1024 + b * 32 = w := by rw [hw]; simp only [Nat.mul_add, ← Nat.mul_assoc, Nat.reducePow, Nat.reduceMul]; omega
  rw [he]
  have e0 : bits w 0 3 = 0 := hw ▸ (hit (by decide))
  have e1 : bits w 3 2 = 0 := hw ▸ (skip (by decide) (by decide) (hit (by decide)))
  have e2 : bits w 5 5 = b := hw ▸ (skip (by decide) (by decide) (skip (by decide) (by decide) (hit l3)))
  have e3 : bits w 10 5 = a := hw ▸ (skip (by decide) (by decide) (skip (by decide) (by decide) (skip l3 (by decide) (hit l2))))
  have e4 : bits w 15 5 = d := hw ▸ (skip (by decide) (by decide) (skip (by decide) (by decide) (skip l3 (by decide) (skip l2 (by decide) (hit l1)))))
  have e5 : bits w 20 6 = 8 := hw ▸ (skip (by decide) (by decide) (skip (by decide) (by decide) (skip l3 (by decide) (skip l2 (by decide) (skip l1 (by decide) (hit (by decide)))))))
  have e6 : bits w 26 5 = 23 := hw ▸ (skip (by decide) (by decide) (skip (by decide) (by decide) (skip l3 (by decide) (skip l2 (by decide) (skip l1 (by decide) (skip (by decide) (by decide) (hit (by decide))))))))
  have e7 : bits w 31 1 = c := hw ▸ (skip (by decide) (by decide) (skip (by decide) (by decide) (skip l3 (by decide) (skip l2 (by decide) (skip l1 (by decide) (skip (by decide) (by decide) (skip (by decide) (by decide) (whole l0))))))))
  have e8 : bits w 15 11 ≠ 0 := apart (a := 5) (m := 6) (by decide) e5 (by decide)
  have e9 : bits w 15 11 ≠ 96 := apart (a := 5) (m := 6) (by decide) e5 (by decide)
  have e10 : bits w 15 11 ≠ 128 := apart (a := 5) (m := 6) (by decide) e5 (by decide)
  have e11 : bits w 15 11 ≠ 160 := apart (a := 5) (m := 6) (by decide) e5 (by decide)
  have e12 : bits w 15 11 ≠ 192 := apart (a := 5) (m := 6) (by decide) e5 (by decide)
  have e13 : bits w 0 5 = 0 := (bits_join e0 e1)
  rw [decodeRow_23 e6]
  simp [decodeSync, e0, e1, e2, e3, e4, e5, e6, e7, e8, e9, e10, e11, e12, e13]

theorem RoundTrip.barwait (c q a b e : Nat) : RoundTrip.Statement (.barwait c q a b e) := by
  intro _ hk
  have wf : Instr.WF (.barwait c q a b e) := of_decide_eq_true hk
  refine decode_of_row ?_ hk
  change decodeRow (0x5C900000 + c * 2147483648 + q * 32768 + a * 1024 + b * 32 + e) = _
  simp only [Instr.WF] at wf
  obtain ⟨l0, l1, l2, l3, l4⟩ := wf
  obtain ⟨w, hw⟩ : ∃ w, w = e + 2 ^ 5 * (b + 2 ^ 5 * (a + 2 ^ 5 * (q + 2 ^ 3 * (0 + 2 ^ 2 * (9 + 2 ^ 6 * (23 + 2 ^ 5 * (c))))))) := ⟨_, rfl⟩
  have he : 0x5C900000 + c * 2147483648 + q * 32768 + a * 1024 + b * 32 + e = w := by rw [hw]; simp only [Nat.mul_add, ← Nat.mul_assoc, Nat.reducePow, Nat.reduceMul]; omega
  rw [he]
  have e0 : bits w 0 5 = e := hw ▸ (hit l4)
  have e1 : bits w 5 5 = b := hw ▸ (skip l4 (by decide) (hit l3))
  have e2 : bits w 10 5 = a := hw ▸ (skip l4 (by decide) (skip l3 (by decide) (hit l2)))
  have e3 : bits w 15 3 = q := hw ▸ (skip l4 (by decide) (skip l3 (by decide) (skip l2 (by decide) (hit l1))))
  have e4 : bits w 18 2 = 0 := hw ▸ (skip l4 (by decide) (skip l3 (by decide) (skip l2 (by decide) (skip l1 (by decide) (hit (by decide))))))
  have e5 : bits w 20 6 = 9 := hw ▸ (skip l4 (by decide) (skip l3 (by decide) (skip l2 (by decide) (skip l1 (by decide) (skip (by decide) (by decide) (hit (by decide)))))))
  have e6 : bits w 26 5 = 23 := hw ▸ (skip l4 (by decide) (skip l3 (by decide) (skip l2 (by decide) (skip l1 (by decide) (skip (by decide) (by decide) (skip (by decide) (by decide) (hit (by decide))))))))
  have e7 : bits w 31 1 = c := hw ▸ (skip l4 (by decide) (skip l3 (by decide) (skip l2 (by decide) (skip l1 (by decide) (skip (by decide) (by decide) (skip (by decide) (by decide) (skip (by decide) (by decide) (whole l0))))))))
  have e8 : bits w 15 11 ≠ 0 := apart (a := 5) (m := 6) (by decide) e5 (by decide)
  have e9 : bits w 15 11 ≠ 96 := apart (a := 5) (m := 6) (by decide) e5 (by decide)
  have e10 : bits w 15 11 ≠ 128 := apart (a := 5) (m := 6) (by decide) e5 (by decide)
  have e11 : bits w 15 11 ≠ 160 := apart (a := 5) (m := 6) (by decide) e5 (by decide)
  have e12 : bits w 15 11 ≠ 192 := apart (a := 5) (m := 6) (by decide) e5 (by decide)
  have e13 : bits w 18 8 = 36 := (bits_join e4 e5)
  rw [decodeRow_23 e6]
  simp [decodeSync, e0, e1, e2, e3, e4, e5, e6, e7, e8, e9, e10, e11, e12, e13]

theorem RoundTrip.nbarrive (c d a k : Nat) : RoundTrip.Statement (.nbarrive c d a k) := by
  intro _ hk
  have wf : Instr.WF (.nbarrive c d a k) := of_decide_eq_true hk
  refine decode_of_row ?_ hk
  change decodeRow (0x5CA00000 + c * 2147483648 + d * 32768 + a * 1024 + k) = _
  simp only [Instr.WF] at wf
  obtain ⟨l0, l1, l2, l3⟩ := wf
  obtain ⟨w, hw⟩ : ∃ w, w = k + 2 ^ 3 * (0 + 2 ^ 2 * (0 + 2 ^ 5 * (a + 2 ^ 5 * (d + 2 ^ 5 * (10 + 2 ^ 6 * (23 + 2 ^ 5 * (c))))))) := ⟨_, rfl⟩
  have he : 0x5CA00000 + c * 2147483648 + d * 32768 + a * 1024 + k = w := by rw [hw]; simp only [Nat.mul_add, ← Nat.mul_assoc, Nat.reducePow, Nat.reduceMul]; omega
  rw [he]
  have e0 : bits w 0 3 = k := hw ▸ (hit l3)
  have e1 : bits w 3 2 = 0 := hw ▸ (skip l3 (by decide) (hit (by decide)))
  have e2 : bits w 5 5 = 0 := hw ▸ (skip l3 (by decide) (skip (by decide) (by decide) (hit (by decide))))
  have e3 : bits w 10 5 = a := hw ▸ (skip l3 (by decide) (skip (by decide) (by decide) (skip (by decide) (by decide) (hit l2))))
  have e4 : bits w 15 5 = d := hw ▸ (skip l3 (by decide) (skip (by decide) (by decide) (skip (by decide) (by decide) (skip l2 (by decide) (hit l1)))))
  have e5 : bits w 20 6 = 10 := hw ▸ (skip l3 (by decide) (skip (by decide) (by decide) (skip (by decide) (by decide) (skip l2 (by decide) (skip l1 (by decide) (hit (by decide)))))))
  have e6 : bits w 26 5 = 23 := hw ▸ (skip l3 (by decide) (skip (by decide) (by decide) (skip (by decide) (by decide) (skip l2 (by decide) (skip l1 (by decide) (skip (by decide) (by decide) (hit (by decide))))))))
  have e7 : bits w 31 1 = c := hw ▸ (skip l3 (by decide) (skip (by decide) (by decide) (skip (by decide) (by decide) (skip l2 (by decide) (skip l1 (by decide) (skip (by decide) (by decide) (skip (by decide) (by decide) (whole l0))))))))
  have e8 : bits w 15 11 ≠ 0 := apart (a := 5) (m := 6) (by decide) e5 (by decide)
  have e9 : bits w 15 11 ≠ 96 := apart (a := 5) (m := 6) (by decide) e5 (by decide)
  have e10 : bits w 15 11 ≠ 128 := apart (a := 5) (m := 6) (by decide) e5 (by decide)
  have e11 : bits w 15 11 ≠ 160 := apart (a := 5) (m := 6) (by decide) e5 (by decide)
  have e12 : bits w 15 11 ≠ 192 := apart (a := 5) (m := 6) (by decide) e5 (by decide)
  have e13 : bits w 18 8 ≠ 36 := apart (a := 2) (m := 6) (by decide) e5 (by decide)
  have e14 : bits w 3 7 = 0 := (bits_join e1 e2)
  rw [decodeRow_23 e6]
  simp [decodeSync, e0, e1, e2, e3, e4, e5, e6, e7, e8, e9, e10, e11, e12, e13, e14]

theorem RoundTrip.nbarriveDrop (c d a k : Nat) : RoundTrip.Statement (.nbarriveDrop c d a k) := by
  intro _ hk
  have wf : Instr.WF (.nbarriveDrop c d a k) := of_decide_eq_true hk
  refine decode_of_row ?_ hk
  change decodeRow (0x5CA00200 + c * 2147483648 + d * 32768 + a * 1024 + k) = _
  simp only [Instr.WF] at wf
  obtain ⟨l0, l1, l2, l3⟩ := wf
  obtain ⟨w, hw⟩ : ∃ w, w = k + 2 ^ 3 * (0 + 2 ^ 2 * (16 + 2 ^ 5 * (a + 2 ^ 5 * (d + 2 ^ 5 * (10 + 2 ^ 6 * (23 + 2 ^ 5 * (c))))))) := ⟨_, rfl⟩
  have he : 0x5CA00200 + c * 2147483648 + d * 32768 + a * 1024 + k = w := by rw [hw]; simp only [Nat.mul_add, ← Nat.mul_assoc, Nat.reducePow, Nat.reduceMul]; omega
  rw [he]
  have e0 : bits w 0 3 = k := hw ▸ (hit l3)
  have e1 : bits w 3 2 = 0 := hw ▸ (skip l3 (by decide) (hit (by decide)))
  have e2 : bits w 5 5 = 16 := hw ▸ (skip l3 (by decide) (skip (by decide) (by decide) (hit (by decide))))
  have e3 : bits w 10 5 = a := hw ▸ (skip l3 (by decide) (skip (by decide) (by decide) (skip (by decide) (by decide) (hit l2))))
  have e4 : bits w 15 5 = d := hw ▸ (skip l3 (by decide) (skip (by decide) (by decide) (skip (by decide) (by decide) (skip l2 (by decide) (hit l1)))))
  have e5 : bits w 20 6 = 10 := hw ▸ (skip l3 (by decide) (skip (by decide) (by decide) (skip (by decide) (by decide) (skip l2 (by decide) (skip l1 (by decide) (hit (by decide)))))))
  have e6 : bits w 26 5 = 23 := hw ▸ (skip l3 (by decide) (skip (by decide) (by decide) (skip (by decide) (by decide) (skip l2 (by decide) (skip l1 (by decide) (skip (by decide) (by decide) (hit (by decide))))))))
  have e7 : bits w 31 1 = c := hw ▸ (skip l3 (by decide) (skip (by decide) (by decide) (skip (by decide) (by decide) (skip l2 (by decide) (skip l1 (by decide) (skip (by decide) (by decide) (skip (by decide) (by decide) (whole l0))))))))
  have e8 : bits w 4 6 ≠ 0 := apart (a := 1) (m := 5) (by decide) e2 (by decide)
  have e9 : bits w 4 11 ≠ 0 := apart (a := 1) (m := 5) (by decide) e2 (by decide)
  have e10 : bits w 15 11 ≠ 96 := apart (a := 5) (m := 6) (by decide) e5 (by decide)
  have e11 : bits w 15 11 ≠ 128 := apart (a := 5) (m := 6) (by decide) e5 (by decide)
  have e12 : bits w 15 11 ≠ 160 := apart (a := 5) (m := 6) (by decide) e5 (by decide)
  have e13 : bits w 15 11 ≠ 192 := apart (a := 5) (m := 6) (by decide) e5 (by decide)
  have e14 : bits w 18 8 ≠ 36 := apart (a := 2) (m := 6) (by decide) e5 (by decide)
  have e15 : bits w 3 7 ≠ 0 := apart (a := 2) (m := 5) (by decide) e2 (by decide)
  have e16 : bits w 3 7 = 64 := (bits_join e1 e2)
  rw [decodeRow_23 e6]
  simp [decodeSync, e0, e1, e2, e3, e4, e5, e6, e7, e8, e9, e10, e11, e12, e13, e14, e15, e16]

theorem RoundTrip.nbarwait (c q a e k : Nat) : RoundTrip.Statement (.nbarwait c q a e k) := by
  intro _ hk
  have wf : Instr.WF (.nbarwait c q a e k) := of_decide_eq_true hk
  refine decode_of_row ?_ hk
  change decodeRow (0x5CB00000 + c * 2147483648 + q * 32768 + a * 1024 + e * 32 + k) = _
  simp only [Instr.WF] at wf
  obtain ⟨l0, l1, l2, l3, l4⟩ := wf
  obtain ⟨w, hw⟩ : ∃ w, w = k + 2 ^ 3 * (0 + 2 ^ 2 * (e + 2 ^ 5 * (a + 2 ^ 5 * (q + 2 ^ 3 * (0 + 2 ^ 2 * (11 + 2 ^ 6 * (23 + 2 ^ 5 * (c)))))))) := ⟨_, rfl⟩
  have he : 0x5CB00000 + c * 2147483648 + q * 32768 + a * 1024 + e * 32 + k = w := by rw [hw]; simp only [Nat.mul_add, ← Nat.mul_assoc, Nat.reducePow, Nat.reduceMul]; omega
  rw [he]
  have e0 : bits w 0 3 = k := hw ▸ (hit l4)
  have e1 : bits w 3 2 = 0 := hw ▸ (skip l4 (by decide) (hit (by decide)))
  have e2 : bits w 5 5 = e := hw ▸ (skip l4 (by decide) (skip (by decide) (by decide) (hit l3)))
  have e3 : bits w 10 5 = a := hw ▸ (skip l4 (by decide) (skip (by decide) (by decide) (skip l3 (by decide) (hit l2))))
  have e4 : bits w 15 3 = q := hw ▸ (skip l4 (by decide) (skip (by decide) (by decide) (skip l3 (by decide) (skip l2 (by decide) (hit l1)))))
  have e5 : bits w 18 2 = 0 := hw ▸ (skip l4 (by decide) (skip (by decide) (by decide) (skip l3 (by decide) (skip l2 (by decide) (skip l1 (by decide) (hit (by decide)))))))
  have e6 : bits w 20 6 = 11 := hw ▸ (skip l4 (by decide) (skip (by decide) (by decide) (skip l3 (by decide) (skip l2 (by decide) (skip l1 (by decide) (skip (by decide) (by decide) (hit (by decide))))))))
  have e7 : bits w 26 5 = 23 := hw ▸ (skip l4 (by decide) (skip (by decide) (by decide) (skip l3 (by decide) (skip l2 (by decide) (skip l1 (by decide) (skip (by decide) (by decide) (skip (by decide) (by decide) (hit (by decide)))))))))
  have e8 : bits w 31 1 = c := hw ▸ (skip l4 (by decide) (skip (by decide) (by decide) (skip l3 (by decide) (skip l2 (by decide) (skip l1 (by decide) (skip (by decide) (by decide) (skip (by decide) (by decide) (skip (by decide) (by decide) (whole l0)))))))))
  have e9 : bits w 15 11 ≠ 0 := apart (a := 5) (m := 6) (by decide) e6 (by decide)
  have e10 : bits w 15 11 ≠ 96 := apart (a := 5) (m := 6) (by decide) e6 (by decide)
  have e11 : bits w 15 11 ≠ 128 := apart (a := 5) (m := 6) (by decide) e6 (by decide)
  have e12 : bits w 15 11 ≠ 160 := apart (a := 5) (m := 6) (by decide) e6 (by decide)
  have e13 : bits w 15 11 ≠ 192 := apart (a := 5) (m := 6) (by decide) e6 (by decide)
  have e14 : bits w 18 8 ≠ 36 := apart (a := 2) (m := 6) (by decide) e6 (by decide)
  have e15 : bits w 18 8 = 44 := (bits_join e5 e6)
  rw [decodeRow_23 e7]
  simp [decodeSync, e0, e1, e2, e3, e4, e5, e6, e7, e8, e9, e10, e11, e12, e13, e14, e15]

theorem RoundTrip.nbarset (c q a b k : Nat) : RoundTrip.Statement (.nbarset c q a b k) := by
  intro _ hk
  have wf : Instr.WF (.nbarset c q a b k) := of_decide_eq_true hk
  refine decode_of_row ?_ hk
  change decodeRow (0x5CC00000 + c * 2147483648 + q * 32768 + a * 1024 + b * 32 + k) = _
  simp only [Instr.WF] at wf
  obtain ⟨l0, l1, l2, l3, l4⟩ := wf
  obtain ⟨w, hw⟩ : ∃ w, w = k + 2 ^ 3 * (0 + 2 ^ 2 * (b + 2 ^ 5 * (a + 2 ^ 5 * (q + 2 ^ 3 * (0 + 2 ^ 2 * (12 + 2 ^ 6 * (23 + 2 ^ 5 * (c)))))))) := ⟨_, rfl⟩
  have he : 0x5CC00000 + c * 2147483648 + q * 32768 + a * 1024 + b * 32 + k = w := by rw [hw]; simp only [Nat.mul_add, ← Nat.mul_assoc, Nat.reducePow, Nat.reduceMul]; omega
  rw [he]
  have e0 : bits w 0 3 = k := hw ▸ (hit l4)
  have e1 : bits w 3 2 = 0 := hw ▸ (skip l4 (by decide) (hit (by decide)))
  have e2 : bits w 5 5 = b := hw ▸ (skip l4 (by decide) (skip (by decide) (by decide) (hit l3)))
  have e3 : bits w 10 5 = a := hw ▸ (skip l4 (by decide) (skip (by decide) (by decide) (skip l3 (by decide) (hit l2))))
  have e4 : bits w 15 3 = q := hw ▸ (skip l4 (by decide) (skip (by decide) (by decide) (skip l3 (by decide) (skip l2 (by decide) (hit l1)))))
  have e5 : bits w 18 2 = 0 := hw ▸ (skip l4 (by decide) (skip (by decide) (by decide) (skip l3 (by decide) (skip l2 (by decide) (skip l1 (by decide) (hit (by decide)))))))
  have e6 : bits w 20 6 = 12 := hw ▸ (skip l4 (by decide) (skip (by decide) (by decide) (skip l3 (by decide) (skip l2 (by decide) (skip l1 (by decide) (skip (by decide) (by decide) (hit (by decide))))))))
  have e7 : bits w 26 5 = 23 := hw ▸ (skip l4 (by decide) (skip (by decide) (by decide) (skip l3 (by decide) (skip l2 (by decide) (skip l1 (by decide) (skip (by decide) (by decide) (skip (by decide) (by decide) (hit (by decide)))))))))
  have e8 : bits w 31 1 = c := hw ▸ (skip l4 (by decide) (skip (by decide) (by decide) (skip l3 (by decide) (skip l2 (by decide) (skip l1 (by decide) (skip (by decide) (by decide) (skip (by decide) (by decide) (skip (by decide) (by decide) (whole l0)))))))))
  have e9 : bits w 15 11 ≠ 0 := apart (a := 5) (m := 6) (by decide) e6 (by decide)
  have e10 : bits w 15 11 ≠ 96 := apart (a := 5) (m := 6) (by decide) e6 (by decide)
  have e11 : bits w 15 11 ≠ 128 := apart (a := 5) (m := 6) (by decide) e6 (by decide)
  have e12 : bits w 15 11 ≠ 160 := apart (a := 5) (m := 6) (by decide) e6 (by decide)
  have e13 : bits w 15 11 ≠ 192 := apart (a := 5) (m := 6) (by decide) e6 (by decide)
  have e14 : bits w 18 8 ≠ 36 := apart (a := 2) (m := 6) (by decide) e6 (by decide)
  have e15 : bits w 18 8 ≠ 44 := apart (a := 2) (m := 6) (by decide) e6 (by decide)
  have e16 : bits w 18 8 = 48 := (bits_join e5 e6)
  rw [decodeRow_23 e7]
  simp [decodeSync, e0, e1, e2, e3, e4, e5, e6, e7, e8, e9, e10, e11, e12, e13, e14, e15, e16]

theorem RoundTrip.acqp (c d a z : Nat) : RoundTrip.Statement (.acqp c d a z) := by
  intro _ hk
  have wf : Instr.WF (.acqp c d a z) := of_decide_eq_true hk
  refine decode_of_row ?_ hk
  change decodeRow (0x5CD00000 + c * 2147483648 + d * 32768 + a * 1024 + z) = _
  simp only [Instr.WF] at wf
  obtain ⟨l0, l1, l2, l3⟩ := wf
  obtain ⟨w, hw⟩ : ∃ w, w = z + 2 ^ 1 * (0 + 2 ^ 2 * (0 + 2 ^ 2 * (0 + 2 ^ 5 * (a + 2 ^ 5 * (d + 2 ^ 5 * (13 + 2 ^ 6 * (23 + 2 ^ 5 * (c)))))))) := ⟨_, rfl⟩
  have he : 0x5CD00000 + c * 2147483648 + d * 32768 + a * 1024 + z = w := by rw [hw]; simp only [Nat.mul_add, ← Nat.mul_assoc, Nat.reducePow, Nat.reduceMul]; omega
  rw [he]
  have e0 : bits w 0 1 = z := hw ▸ (hit l3)
  have e1 : bits w 1 2 = 0 := hw ▸ (skip l3 (by decide) (hit (by decide)))
  have e2 : bits w 3 2 = 0 := hw ▸ (skip l3 (by decide) (skip (by decide) (by decide) (hit (by decide))))
  have e3 : bits w 5 5 = 0 := hw ▸ (skip l3 (by decide) (skip (by decide) (by decide) (skip (by decide) (by decide) (hit (by decide)))))
  have e4 : bits w 10 5 = a := hw ▸ (skip l3 (by decide) (skip (by decide) (by decide) (skip (by decide) (by decide) (skip (by decide) (by decide) (hit l2)))))
  have e5 : bits w 15 5 = d := hw ▸ (skip l3 (by decide) (skip (by decide) (by decide) (skip (by decide) (by decide) (skip (by decide) (by decide) (skip l2 (by decide) (hit l1))))))
  have e6 : bits w 20 6 = 13 := hw ▸ (skip l3 (by decide) (skip (by decide) (by decide) (skip (by decide) (by decide) (skip (by decide) (by decide) (skip l2 (by decide) (skip l1 (by decide) (hit (by decide))))))))
  have e7 : bits w 26 5 = 23 := hw ▸ (skip l3 (by decide) (skip (by decide) (by decide) (skip (by decide) (by decide) (skip (by decide) (by decide) (skip l2 (by decide) (skip l1 (by decide) (skip (by decide) (by decide) (hit (by decide)))))))))
  have e8 : bits w 31 1 = c := hw ▸ (skip l3 (by decide) (skip (by decide) (by decide) (skip (by decide) (by decide) (skip (by decide) (by decide) (skip l2 (by decide) (skip l1 (by decide) (skip (by decide) (by decide) (skip (by decide) (by decide) (whole l0)))))))))
  have e9 : bits w 15 11 ≠ 0 := apart (a := 5) (m := 6) (by decide) e6 (by decide)
  have e10 : bits w 15 11 ≠ 96 := apart (a := 5) (m := 6) (by decide) e6 (by decide)
  have e11 : bits w 15 11 ≠ 128 := apart (a := 5) (m := 6) (by decide) e6 (by decide)
  have e12 : bits w 15 11 ≠ 160 := apart (a := 5) (m := 6) (by decide) e6 (by decide)
  have e13 : bits w 15 11 ≠ 192 := apart (a := 5) (m := 6) (by decide) e6 (by decide)
  have e14 : bits w 18 8 ≠ 36 := apart (a := 2) (m := 6) (by decide) e6 (by decide)
  have e15 : bits w 3 7 ≠ 64 := apart (a := 2) (m := 5) (by decide) e3 (by decide)
  have e16 : bits w 18 8 ≠ 44 := apart (a := 2) (m := 6) (by decide) e6 (by decide)
  have e17 : bits w 18 8 ≠ 48 := apart (a := 2) (m := 6) (by decide) e6 (by decide)
  have e18 : bits w 1 9 = 0 := (bits_join e1 (bits_join e2 e3))
  rw [decodeRow_23 e7]
  simp [decodeSync, e0, e1, e2, e3, e4, e5, e6, e7, e8, e9, e10, e11, e12, e13, e14, e15, e16, e17, e18]

theorem RoundTrip.mma (f : TMma) : RoundTrip.Statement (.mma f) := by
  intro _ hk
  have wf : Instr.WF (.mma f) := of_decide_eq_true hk
  refine decode_of_row ?_ hk
  obtain ⟨m, b0, r⟩ := TMma.laid f wf _ _ 24 0 rfl rfl (by decide) (by decide)
  change decodeRow (0x60000000 + f.place) = _
  rw [decodeRow_24 m]
  simp [decodeMat, r, b0]

theorem RoundTrip.azero (c a : Nat) : RoundTrip.Statement (.azero c a) := by
  intro _ hk
  have wf : Instr.WF (.azero c a) := of_decide_eq_true hk
  refine decode_of_row ?_ hk
  change decodeRow (0x60000001 + c * 2147483648 + a * 16777216) = _
  simp only [Instr.WF] at wf
  obtain ⟨l0, l1⟩ := wf
  obtain ⟨w, hw⟩ : ∃ w, w = 1 + 2 ^ 3 * (0 + 2 ^ 2 * (0 + 2 ^ 5 * (0 + 2 ^ 5 * (0 + 2 ^ 5 * (0 + 2 ^ 4 * (a + 2 ^ 2 * (24 + 2 ^ 5 * (c)))))))) := ⟨_, rfl⟩
  have he : 0x60000001 + c * 2147483648 + a * 16777216 = w := by rw [hw]; simp only [Nat.mul_add, ← Nat.mul_assoc, Nat.reducePow, Nat.reduceMul]; omega
  rw [he]
  have e0 : bits w 0 3 = 1 := hw ▸ (hit (by decide))
  have e1 : bits w 3 2 = 0 := hw ▸ (skip (by decide) (by decide) (hit (by decide)))
  have e2 : bits w 5 5 = 0 := hw ▸ (skip (by decide) (by decide) (skip (by decide) (by decide) (hit (by decide))))
  have e3 : bits w 10 5 = 0 := hw ▸ (skip (by decide) (by decide) (skip (by decide) (by decide) (skip (by decide) (by decide) (hit (by decide)))))
  have e4 : bits w 15 5 = 0 := hw ▸ (skip (by decide) (by decide) (skip (by decide) (by decide) (skip (by decide) (by decide) (skip (by decide) (by decide) (hit (by decide))))))
  have e5 : bits w 20 4 = 0 := hw ▸ (skip (by decide) (by decide) (skip (by decide) (by decide) (skip (by decide) (by decide) (skip (by decide) (by decide) (skip (by decide) (by decide) (hit (by decide)))))))
  have e6 : bits w 24 2 = a := hw ▸ (skip (by decide) (by decide) (skip (by decide) (by decide) (skip (by decide) (by decide) (skip (by decide) (by decide) (skip (by decide) (by decide) (skip (by decide) (by decide) (hit l1)))))))
  have e7 : bits w 26 5 = 24 := hw ▸ (skip (by decide) (by decide) (skip (by decide) (by decide) (skip (by decide) (by decide) (skip (by decide) (by decide) (skip (by decide) (by decide) (skip (by decide) (by decide) (skip l1 (by decide) (hit (by decide)))))))))
  have e8 : bits w 31 1 = c := hw ▸ (skip (by decide) (by decide) (skip (by decide) (by decide) (skip (by decide) (by decide) (skip (by decide) (by decide) (skip (by decide) (by decide) (skip (by decide) (by decide) (skip l1 (by decide) (skip (by decide) (by decide) (whole l0)))))))))
  have e9 : bits w 0 14 ≠ 0 := apart (a := 0) (m := 3) (by decide) e0 (by decide)
  have e10 : bits w 0 24 = 1 := (bits_join e0 (bits_join e1 (bits_join e2 (bits_join e3 (bits_join e4 e5)))))
  rw [decodeRow_24 e7]
  simp [decodeMat, e0, e1, e2, e3, e4, e5, e6, e7, e8, e9, e10]

theorem RoundTrip.areadF32 (c a d k : Nat) : RoundTrip.Statement (.areadF32 c a d k) := by
  intro _ hk
  have wf : Instr.WF (.areadF32 c a d k) := of_decide_eq_true hk
  refine decode_of_row ?_ hk
  change decodeRow (0x60000002 + c * 2147483648 + a * 16777216 + d * 524288 + k * 32768) = _
  simp only [Instr.WF] at wf
  obtain ⟨l0, l1, l2, l3⟩ := wf
  obtain ⟨w, hw⟩ : ∃ w, w = 2 + 2 ^ 3 * (0 + 2 ^ 2 * (0 + 2 ^ 5 * (0 + 2 ^ 5 * (k + 2 ^ 4 * (d + 2 ^ 5 * (a + 2 ^ 2 * (24 + 2 ^ 5 * (c)))))))) := ⟨_, rfl⟩
  have he : 0x60000002 + c * 2147483648 + a * 16777216 + d * 524288 + k * 32768 = w := by rw [hw]; simp only [Nat.mul_add, ← Nat.mul_assoc, Nat.reducePow, Nat.reduceMul]; omega
  rw [he]
  have e0 : bits w 0 3 = 2 := hw ▸ (hit (by decide))
  have e1 : bits w 3 2 = 0 := hw ▸ (skip (by decide) (by decide) (hit (by decide)))
  have e2 : bits w 5 5 = 0 := hw ▸ (skip (by decide) (by decide) (skip (by decide) (by decide) (hit (by decide))))
  have e3 : bits w 10 5 = 0 := hw ▸ (skip (by decide) (by decide) (skip (by decide) (by decide) (skip (by decide) (by decide) (hit (by decide)))))
  have e4 : bits w 15 4 = k := hw ▸ (skip (by decide) (by decide) (skip (by decide) (by decide) (skip (by decide) (by decide) (skip (by decide) (by decide) (hit l3)))))
  have e5 : bits w 19 5 = d := hw ▸ (skip (by decide) (by decide) (skip (by decide) (by decide) (skip (by decide) (by decide) (skip (by decide) (by decide) (skip l3 (by decide) (hit l2))))))
  have e6 : bits w 24 2 = a := hw ▸ (skip (by decide) (by decide) (skip (by decide) (by decide) (skip (by decide) (by decide) (skip (by decide) (by decide) (skip l3 (by decide) (skip l2 (by decide) (hit l1)))))))
  have e7 : bits w 26 5 = 24 := hw ▸ (skip (by decide) (by decide) (skip (by decide) (by decide) (skip (by decide) (by decide) (skip (by decide) (by decide) (skip l3 (by decide) (skip l2 (by decide) (skip l1 (by decide) (hit (by decide)))))))))
  have e8 : bits w 31 1 = c := hw ▸ (skip (by decide) (by decide) (skip (by decide) (by decide) (skip (by decide) (by decide) (skip (by decide) (by decide) (skip l3 (by decide) (skip l2 (by decide) (skip l1 (by decide) (skip (by decide) (by decide) (whole l0)))))))))
  have e9 : bits w 0 14 ≠ 0 := apart (a := 0) (m := 3) (by decide) e0 (by decide)
  have e10 : bits w 0 24 ≠ 1 := apart (a := 0) (m := 3) (by decide) e0 (by decide)
  have e11 : bits w 0 15 = 2 := (bits_join e0 (bits_join e1 (bits_join e2 e3)))
  rw [decodeRow_24 e7]
  simp [decodeMat, e0, e1, e2, e3, e4, e5, e6, e7, e8, e9, e10, e11]

theorem RoundTrip.areadF64 (c a d k : Nat) : RoundTrip.Statement (.areadF64 c a d k) := by
  intro _ hk
  have wf : Instr.WF (.areadF64 c a d k) := of_decide_eq_true hk
  refine decode_of_row ?_ hk
  change decodeRow (0x60002002 + c * 2147483648 + a * 16777216 + d * 524288 + k * 32768) = _
  simp only [Instr.WF] at wf
  obtain ⟨l0, l1, l2, l3⟩ := wf
  obtain ⟨w, hw⟩ : ∃ w, w = 2 + 2 ^ 3 * (0 + 2 ^ 2 * (0 + 2 ^ 5 * (8 + 2 ^ 5 * (k + 2 ^ 4 * (d + 2 ^ 5 * (a + 2 ^ 2 * (24 + 2 ^ 5 * (c)))))))) := ⟨_, rfl⟩
  have he : 0x60002002 + c * 2147483648 + a * 16777216 + d * 524288 + k * 32768 = w := by rw [hw]; simp only [Nat.mul_add, ← Nat.mul_assoc, Nat.reducePow, Nat.reduceMul]; omega
  rw [he]
  have e0 : bits w 0 3 = 2 := hw ▸ (hit (by decide))
  have e1 : bits w 3 2 = 0 := hw ▸ (skip (by decide) (by decide) (hit (by decide)))
  have e2 : bits w 5 5 = 0 := hw ▸ (skip (by decide) (by decide) (skip (by decide) (by decide) (hit (by decide))))
  have e3 : bits w 10 5 = 8 := hw ▸ (skip (by decide) (by decide) (skip (by decide) (by decide) (skip (by decide) (by decide) (hit (by decide)))))
  have e4 : bits w 15 4 = k := hw ▸ (skip (by decide) (by decide) (skip (by decide) (by decide) (skip (by decide) (by decide) (skip (by decide) (by decide) (hit l3)))))
  have e5 : bits w 19 5 = d := hw ▸ (skip (by decide) (by decide) (skip (by decide) (by decide) (skip (by decide) (by decide) (skip (by decide) (by decide) (skip l3 (by decide) (hit l2))))))
  have e6 : bits w 24 2 = a := hw ▸ (skip (by decide) (by decide) (skip (by decide) (by decide) (skip (by decide) (by decide) (skip (by decide) (by decide) (skip l3 (by decide) (skip l2 (by decide) (hit l1)))))))
  have e7 : bits w 26 5 = 24 := hw ▸ (skip (by decide) (by decide) (skip (by decide) (by decide) (skip (by decide) (by decide) (skip (by decide) (by decide) (skip l3 (by decide) (skip l2 (by decide) (skip l1 (by decide) (hit (by decide)))))))))
  have e8 : bits w 31 1 = c := hw ▸ (skip (by decide) (by decide) (skip (by decide) (by decide) (skip (by decide) (by decide) (skip (by decide) (by decide) (skip l3 (by decide) (skip l2 (by decide) (skip l1 (by decide) (skip (by decide) (by decide) (whole l0)))))))))
  have e9 : bits w 0 14 ≠ 0 := apart (a := 0) (m := 3) (by decide) e0 (by decide)
  have e10 : bits w 0 24 ≠ 1 := apart (a := 0) (m := 3) (by decide) e0 (by decide)
  have e11 : bits w 0 15 ≠ 2 := apart (a := 10) (m := 5) (by decide) e3 (by decide)
  have e12 : bits w 0 15 = 8194 := (bits_join e0 (bits_join e1 (bits_join e2 e3)))
  rw [decodeRow_24 e7]
  simp [decodeMat, e0, e1, e2, e3, e4, e5, e6, e7, e8, e9, e10, e11, e12]

theorem RoundTrip.areadI32 (c a d k : Nat) : RoundTrip.Statement (.areadI32 c a d k) := by
  intro _ hk
  have wf : Instr.WF (.areadI32 c a d k) := of_decide_eq_true hk
  refine decode_of_row ?_ hk
  change decodeRow (0x60004002 + c * 2147483648 + a * 16777216 + d * 524288 + k * 32768) = _
  simp only [Instr.WF] at wf
  obtain ⟨l0, l1, l2, l3⟩ := wf
  obtain ⟨w, hw⟩ : ∃ w, w = 2 + 2 ^ 3 * (0 + 2 ^ 2 * (0 + 2 ^ 5 * (16 + 2 ^ 5 * (k + 2 ^ 4 * (d + 2 ^ 5 * (a + 2 ^ 2 * (24 + 2 ^ 5 * (c)))))))) := ⟨_, rfl⟩
  have he : 0x60004002 + c * 2147483648 + a * 16777216 + d * 524288 + k * 32768 = w := by rw [hw]; simp only [Nat.mul_add, ← Nat.mul_assoc, Nat.reducePow, Nat.reduceMul]; omega
  rw [he]
  have e0 : bits w 0 3 = 2 := hw ▸ (hit (by decide))
  have e1 : bits w 3 2 = 0 := hw ▸ (skip (by decide) (by decide) (hit (by decide)))
  have e2 : bits w 5 5 = 0 := hw ▸ (skip (by decide) (by decide) (skip (by decide) (by decide) (hit (by decide))))
  have e3 : bits w 10 5 = 16 := hw ▸ (skip (by decide) (by decide) (skip (by decide) (by decide) (skip (by decide) (by decide) (hit (by decide)))))
  have e4 : bits w 15 4 = k := hw ▸ (skip (by decide) (by decide) (skip (by decide) (by decide) (skip (by decide) (by decide) (skip (by decide) (by decide) (hit l3)))))
  have e5 : bits w 19 5 = d := hw ▸ (skip (by decide) (by decide) (skip (by decide) (by decide) (skip (by decide) (by decide) (skip (by decide) (by decide) (skip l3 (by decide) (hit l2))))))
  have e6 : bits w 24 2 = a := hw ▸ (skip (by decide) (by decide) (skip (by decide) (by decide) (skip (by decide) (by decide) (skip (by decide) (by decide) (skip l3 (by decide) (skip l2 (by decide) (hit l1)))))))
  have e7 : bits w 26 5 = 24 := hw ▸ (skip (by decide) (by decide) (skip (by decide) (by decide) (skip (by decide) (by decide) (skip (by decide) (by decide) (skip l3 (by decide) (skip l2 (by decide) (skip l1 (by decide) (hit (by decide)))))))))
  have e8 : bits w 31 1 = c := hw ▸ (skip (by decide) (by decide) (skip (by decide) (by decide) (skip (by decide) (by decide) (skip (by decide) (by decide) (skip l3 (by decide) (skip l2 (by decide) (skip l1 (by decide) (skip (by decide) (by decide) (whole l0)))))))))
  have e9 : bits w 0 14 ≠ 0 := apart (a := 0) (m := 3) (by decide) e0 (by decide)
  have e10 : bits w 0 24 ≠ 1 := apart (a := 0) (m := 3) (by decide) e0 (by decide)
  have e11 : bits w 0 15 ≠ 2 := apart (a := 10) (m := 5) (by decide) e3 (by decide)
  have e12 : bits w 0 15 ≠ 8194 := apart (a := 10) (m := 5) (by decide) e3 (by decide)
  have e13 : bits w 0 15 = 16386 := (bits_join e0 (bits_join e1 (bits_join e2 e3)))
  rw [decodeRow_24 e7]
  simp [decodeMat, e0, e1, e2, e3, e4, e5, e6, e7, e8, e9, e10, e11, e12, e13]

theorem RoundTrip.areadRaw (c a d k : Nat) : RoundTrip.Statement (.areadRaw c a d k) := by
  intro _ hk
  have wf : Instr.WF (.areadRaw c a d k) := of_decide_eq_true hk
  refine decode_of_row ?_ hk
  change decodeRow (0x60006002 + c * 2147483648 + a * 16777216 + d * 524288 + k * 32768) = _
  simp only [Instr.WF] at wf
  obtain ⟨l0, l1, l2, l3⟩ := wf
  obtain ⟨w, hw⟩ : ∃ w, w = 2 + 2 ^ 3 * (0 + 2 ^ 2 * (0 + 2 ^ 5 * (24 + 2 ^ 5 * (k + 2 ^ 4 * (d + 2 ^ 5 * (a + 2 ^ 2 * (24 + 2 ^ 5 * (c)))))))) := ⟨_, rfl⟩
  have he : 0x60006002 + c * 2147483648 + a * 16777216 + d * 524288 + k * 32768 = w := by rw [hw]; simp only [Nat.mul_add, ← Nat.mul_assoc, Nat.reducePow, Nat.reduceMul]; omega
  rw [he]
  have e0 : bits w 0 3 = 2 := hw ▸ (hit (by decide))
  have e1 : bits w 3 2 = 0 := hw ▸ (skip (by decide) (by decide) (hit (by decide)))
  have e2 : bits w 5 5 = 0 := hw ▸ (skip (by decide) (by decide) (skip (by decide) (by decide) (hit (by decide))))
  have e3 : bits w 10 5 = 24 := hw ▸ (skip (by decide) (by decide) (skip (by decide) (by decide) (skip (by decide) (by decide) (hit (by decide)))))
  have e4 : bits w 15 4 = k := hw ▸ (skip (by decide) (by decide) (skip (by decide) (by decide) (skip (by decide) (by decide) (skip (by decide) (by decide) (hit l3)))))
  have e5 : bits w 19 5 = d := hw ▸ (skip (by decide) (by decide) (skip (by decide) (by decide) (skip (by decide) (by decide) (skip (by decide) (by decide) (skip l3 (by decide) (hit l2))))))
  have e6 : bits w 24 2 = a := hw ▸ (skip (by decide) (by decide) (skip (by decide) (by decide) (skip (by decide) (by decide) (skip (by decide) (by decide) (skip l3 (by decide) (skip l2 (by decide) (hit l1)))))))
  have e7 : bits w 26 5 = 24 := hw ▸ (skip (by decide) (by decide) (skip (by decide) (by decide) (skip (by decide) (by decide) (skip (by decide) (by decide) (skip l3 (by decide) (skip l2 (by decide) (skip l1 (by decide) (hit (by decide)))))))))
  have e8 : bits w 31 1 = c := hw ▸ (skip (by decide) (by decide) (skip (by decide) (by decide) (skip (by decide) (by decide) (skip (by decide) (by decide) (skip l3 (by decide) (skip l2 (by decide) (skip l1 (by decide) (skip (by decide) (by decide) (whole l0)))))))))
  have e9 : bits w 0 14 ≠ 0 := apart (a := 0) (m := 3) (by decide) e0 (by decide)
  have e10 : bits w 0 24 ≠ 1 := apart (a := 0) (m := 3) (by decide) e0 (by decide)
  have e11 : bits w 0 15 ≠ 2 := apart (a := 10) (m := 5) (by decide) e3 (by decide)
  have e12 : bits w 0 15 ≠ 8194 := apart (a := 10) (m := 5) (by decide) e3 (by decide)
  have e13 : bits w 0 15 ≠ 16386 := apart (a := 10) (m := 5) (by decide) e3 (by decide)
  have e14 : bits w 0 15 = 24578 := (bits_join e0 (bits_join e1 (bits_join e2 e3)))
  rw [decodeRow_24 e7]
  simp [decodeMat, e0, e1, e2, e3, e4, e5, e6, e7, e8, e9, e10, e11, e12, e13, e14]

theorem RoundTrip.awriteF32 (c a v k : Nat) : RoundTrip.Statement (.awriteF32 c a v k) := by
  intro _ hk
  have wf : Instr.WF (.awriteF32 c a v k) := of_decide_eq_true hk
  refine decode_of_row ?_ hk
  change decodeRow (0x60000003 + c * 2147483648 + a * 16777216 + v * 524288 + k * 32768) = _
  simp only [Instr.WF] at wf
  obtain ⟨l0, l1, l2, l3⟩ := wf
  obtain ⟨w, hw⟩ : ∃ w, w = 3 + 2 ^ 3 * (0 + 2 ^ 2 * (0 + 2 ^ 5 * (0 + 2 ^ 5 * (k + 2 ^ 4 * (v + 2 ^ 5 * (a + 2 ^ 2 * (24 + 2 ^ 5 * (c)))))))) := ⟨_, rfl⟩
  have he : 0x60000003 + c * 2147483648 + a * 16777216 + v * 524288 + k * 32768 = w := by rw [hw]; simp only [Nat.mul_add, ← Nat.mul_assoc, Nat.reducePow, Nat.reduceMul]; omega
  rw [he]
  have e0 : bits w 0 3 = 3 := hw ▸ (hit (by decide))
  have e1 : bits w 3 2 = 0 := hw ▸ (skip (by decide) (by decide) (hit (by decide)))
  have e2 : bits w 5 5 = 0 := hw ▸ (skip (by decide) (by decide) (skip (by decide) (by decide) (hit (by decide))))
  have e3 : bits w 10 5 = 0 := hw ▸ (skip (by decide) (by decide) (skip (by decide) (by decide) (skip (by decide) (by decide) (hit (by decide)))))
  have e4 : bits w 15 4 = k := hw ▸ (skip (by decide) (by decide) (skip (by decide) (by decide) (skip (by decide) (by decide) (skip (by decide) (by decide) (hit l3)))))
  have e5 : bits w 19 5 = v := hw ▸ (skip (by decide) (by decide) (skip (by decide) (by decide) (skip (by decide) (by decide) (skip (by decide) (by decide) (skip l3 (by decide) (hit l2))))))
  have e6 : bits w 24 2 = a := hw ▸ (skip (by decide) (by decide) (skip (by decide) (by decide) (skip (by decide) (by decide) (skip (by decide) (by decide) (skip l3 (by decide) (skip l2 (by decide) (hit l1)))))))
  have e7 : bits w 26 5 = 24 := hw ▸ (skip (by decide) (by decide) (skip (by decide) (by decide) (skip (by decide) (by decide) (skip (by decide) (by decide) (skip l3 (by decide) (skip l2 (by decide) (skip l1 (by decide) (hit (by decide)))))))))
  have e8 : bits w 31 1 = c := hw ▸ (skip (by decide) (by decide) (skip (by decide) (by decide) (skip (by decide) (by decide) (skip (by decide) (by decide) (skip l3 (by decide) (skip l2 (by decide) (skip l1 (by decide) (skip (by decide) (by decide) (whole l0)))))))))
  have e9 : bits w 0 14 ≠ 0 := apart (a := 0) (m := 3) (by decide) e0 (by decide)
  have e10 : bits w 0 24 ≠ 1 := apart (a := 0) (m := 3) (by decide) e0 (by decide)
  have e11 : bits w 0 15 ≠ 2 := apart (a := 0) (m := 3) (by decide) e0 (by decide)
  have e12 : bits w 0 15 ≠ 8194 := apart (a := 0) (m := 3) (by decide) e0 (by decide)
  have e13 : bits w 0 15 ≠ 16386 := apart (a := 0) (m := 3) (by decide) e0 (by decide)
  have e14 : bits w 0 15 ≠ 24578 := apart (a := 0) (m := 3) (by decide) e0 (by decide)
  have e15 : bits w 0 15 = 3 := (bits_join e0 (bits_join e1 (bits_join e2 e3)))
  rw [decodeRow_24 e7]
  simp [decodeMat, e0, e1, e2, e3, e4, e5, e6, e7, e8, e9, e10, e11, e12, e13, e14, e15]

theorem RoundTrip.awriteF64 (c a v k : Nat) : RoundTrip.Statement (.awriteF64 c a v k) := by
  intro _ hk
  have wf : Instr.WF (.awriteF64 c a v k) := of_decide_eq_true hk
  refine decode_of_row ?_ hk
  change decodeRow (0x60002003 + c * 2147483648 + a * 16777216 + v * 524288 + k * 32768) = _
  simp only [Instr.WF] at wf
  obtain ⟨l0, l1, l2, l3, _x0⟩ := wf
  obtain ⟨w, hw⟩ : ∃ w, w = 3 + 2 ^ 3 * (0 + 2 ^ 2 * (0 + 2 ^ 5 * (8 + 2 ^ 5 * (k + 2 ^ 4 * (v + 2 ^ 5 * (a + 2 ^ 2 * (24 + 2 ^ 5 * (c)))))))) := ⟨_, rfl⟩
  have he : 0x60002003 + c * 2147483648 + a * 16777216 + v * 524288 + k * 32768 = w := by rw [hw]; simp only [Nat.mul_add, ← Nat.mul_assoc, Nat.reducePow, Nat.reduceMul]; omega
  rw [he]
  have e0 : bits w 0 3 = 3 := hw ▸ (hit (by decide))
  have e1 : bits w 3 2 = 0 := hw ▸ (skip (by decide) (by decide) (hit (by decide)))
  have e2 : bits w 5 5 = 0 := hw ▸ (skip (by decide) (by decide) (skip (by decide) (by decide) (hit (by decide))))
  have e3 : bits w 10 5 = 8 := hw ▸ (skip (by decide) (by decide) (skip (by decide) (by decide) (skip (by decide) (by decide) (hit (by decide)))))
  have e4 : bits w 15 4 = k := hw ▸ (skip (by decide) (by decide) (skip (by decide) (by decide) (skip (by decide) (by decide) (skip (by decide) (by decide) (hit l3)))))
  have e5 : bits w 19 5 = v := hw ▸ (skip (by decide) (by decide) (skip (by decide) (by decide) (skip (by decide) (by decide) (skip (by decide) (by decide) (skip l3 (by decide) (hit l2))))))
  have e6 : bits w 24 2 = a := hw ▸ (skip (by decide) (by decide) (skip (by decide) (by decide) (skip (by decide) (by decide) (skip (by decide) (by decide) (skip l3 (by decide) (skip l2 (by decide) (hit l1)))))))
  have e7 : bits w 26 5 = 24 := hw ▸ (skip (by decide) (by decide) (skip (by decide) (by decide) (skip (by decide) (by decide) (skip (by decide) (by decide) (skip l3 (by decide) (skip l2 (by decide) (skip l1 (by decide) (hit (by decide)))))))))
  have e8 : bits w 31 1 = c := hw ▸ (skip (by decide) (by decide) (skip (by decide) (by decide) (skip (by decide) (by decide) (skip (by decide) (by decide) (skip l3 (by decide) (skip l2 (by decide) (skip l1 (by decide) (skip (by decide) (by decide) (whole l0)))))))))
  have e9 : bits w 0 14 ≠ 0 := apart (a := 0) (m := 3) (by decide) e0 (by decide)
  have e10 : bits w 0 24 ≠ 1 := apart (a := 0) (m := 3) (by decide) e0 (by decide)
  have e11 : bits w 0 15 ≠ 2 := apart (a := 0) (m := 3) (by decide) e0 (by decide)
  have e12 : bits w 0 15 ≠ 8194 := apart (a := 0) (m := 3) (by decide) e0 (by decide)
  have e13 : bits w 0 15 ≠ 16386 := apart (a := 0) (m := 3) (by decide) e0 (by decide)
  have e14 : bits w 0 15 ≠ 24578 := apart (a := 0) (m := 3) (by decide) e0 (by decide)
  have e15 : bits w 0 15 ≠ 3 := apart (a := 10) (m := 5) (by decide) e3 (by decide)
  have e16 : bits w 0 15 = 8195 := (bits_join e0 (bits_join e1 (bits_join e2 e3)))
  rw [decodeRow_24 e7]
  simp [decodeMat, e0, e1, e2, e3, e4, e5, e6, e7, e8, e9, e10, e11, e12, e13, e14, e15, e16]

theorem RoundTrip.awriteI32 (c a v k : Nat) : RoundTrip.Statement (.awriteI32 c a v k) := by
  intro _ hk
  have wf : Instr.WF (.awriteI32 c a v k) := of_decide_eq_true hk
  refine decode_of_row ?_ hk
  change decodeRow (0x60004003 + c * 2147483648 + a * 16777216 + v * 524288 + k * 32768) = _
  simp only [Instr.WF] at wf
  obtain ⟨l0, l1, l2, l3⟩ := wf
  obtain ⟨w, hw⟩ : ∃ w, w = 3 + 2 ^ 3 * (0 + 2 ^ 2 * (0 + 2 ^ 5 * (16 + 2 ^ 5 * (k + 2 ^ 4 * (v + 2 ^ 5 * (a + 2 ^ 2 * (24 + 2 ^ 5 * (c)))))))) := ⟨_, rfl⟩
  have he : 0x60004003 + c * 2147483648 + a * 16777216 + v * 524288 + k * 32768 = w := by rw [hw]; simp only [Nat.mul_add, ← Nat.mul_assoc, Nat.reducePow, Nat.reduceMul]; omega
  rw [he]
  have e0 : bits w 0 3 = 3 := hw ▸ (hit (by decide))
  have e1 : bits w 3 2 = 0 := hw ▸ (skip (by decide) (by decide) (hit (by decide)))
  have e2 : bits w 5 5 = 0 := hw ▸ (skip (by decide) (by decide) (skip (by decide) (by decide) (hit (by decide))))
  have e3 : bits w 10 5 = 16 := hw ▸ (skip (by decide) (by decide) (skip (by decide) (by decide) (skip (by decide) (by decide) (hit (by decide)))))
  have e4 : bits w 15 4 = k := hw ▸ (skip (by decide) (by decide) (skip (by decide) (by decide) (skip (by decide) (by decide) (skip (by decide) (by decide) (hit l3)))))
  have e5 : bits w 19 5 = v := hw ▸ (skip (by decide) (by decide) (skip (by decide) (by decide) (skip (by decide) (by decide) (skip (by decide) (by decide) (skip l3 (by decide) (hit l2))))))
  have e6 : bits w 24 2 = a := hw ▸ (skip (by decide) (by decide) (skip (by decide) (by decide) (skip (by decide) (by decide) (skip (by decide) (by decide) (skip l3 (by decide) (skip l2 (by decide) (hit l1)))))))
  have e7 : bits w 26 5 = 24 := hw ▸ (skip (by decide) (by decide) (skip (by decide) (by decide) (skip (by decide) (by decide) (skip (by decide) (by decide) (skip l3 (by decide) (skip l2 (by decide) (skip l1 (by decide) (hit (by decide)))))))))
  have e8 : bits w 31 1 = c := hw ▸ (skip (by decide) (by decide) (skip (by decide) (by decide) (skip (by decide) (by decide) (skip (by decide) (by decide) (skip l3 (by decide) (skip l2 (by decide) (skip l1 (by decide) (skip (by decide) (by decide) (whole l0)))))))))
  have e9 : bits w 0 14 ≠ 0 := apart (a := 0) (m := 3) (by decide) e0 (by decide)
  have e10 : bits w 0 24 ≠ 1 := apart (a := 0) (m := 3) (by decide) e0 (by decide)
  have e11 : bits w 0 15 ≠ 2 := apart (a := 0) (m := 3) (by decide) e0 (by decide)
  have e12 : bits w 0 15 ≠ 8194 := apart (a := 0) (m := 3) (by decide) e0 (by decide)
  have e13 : bits w 0 15 ≠ 16386 := apart (a := 0) (m := 3) (by decide) e0 (by decide)
  have e14 : bits w 0 15 ≠ 24578 := apart (a := 0) (m := 3) (by decide) e0 (by decide)
  have e15 : bits w 0 15 ≠ 3 := apart (a := 10) (m := 5) (by decide) e3 (by decide)
  have e16 : bits w 0 15 ≠ 8195 := apart (a := 10) (m := 5) (by decide) e3 (by decide)
  have e17 : bits w 0 15 = 16387 := (bits_join e0 (bits_join e1 (bits_join e2 e3)))
  rw [decodeRow_24 e7]
  simp [decodeMat, e0, e1, e2, e3, e4, e5, e6, e7, e8, e9, e10, e11, e12, e13, e14, e15, e16, e17]

theorem RoundTrip.awriteRaw (c a v k : Nat) : RoundTrip.Statement (.awriteRaw c a v k) := by
  intro _ hk
  have wf : Instr.WF (.awriteRaw c a v k) := of_decide_eq_true hk
  refine decode_of_row ?_ hk
  change decodeRow (0x60006003 + c * 2147483648 + a * 16777216 + v * 524288 + k * 32768) = _
  simp only [Instr.WF] at wf
  obtain ⟨l0, l1, l2, l3⟩ := wf
  obtain ⟨w, hw⟩ : ∃ w, w = 3 + 2 ^ 3 * (0 + 2 ^ 2 * (0 + 2 ^ 5 * (24 + 2 ^ 5 * (k + 2 ^ 4 * (v + 2 ^ 5 * (a + 2 ^ 2 * (24 + 2 ^ 5 * (c)))))))) := ⟨_, rfl⟩
  have he : 0x60006003 + c * 2147483648 + a * 16777216 + v * 524288 + k * 32768 = w := by rw [hw]; simp only [Nat.mul_add, ← Nat.mul_assoc, Nat.reducePow, Nat.reduceMul]; omega
  rw [he]
  have e0 : bits w 0 3 = 3 := hw ▸ (hit (by decide))
  have e1 : bits w 3 2 = 0 := hw ▸ (skip (by decide) (by decide) (hit (by decide)))
  have e2 : bits w 5 5 = 0 := hw ▸ (skip (by decide) (by decide) (skip (by decide) (by decide) (hit (by decide))))
  have e3 : bits w 10 5 = 24 := hw ▸ (skip (by decide) (by decide) (skip (by decide) (by decide) (skip (by decide) (by decide) (hit (by decide)))))
  have e4 : bits w 15 4 = k := hw ▸ (skip (by decide) (by decide) (skip (by decide) (by decide) (skip (by decide) (by decide) (skip (by decide) (by decide) (hit l3)))))
  have e5 : bits w 19 5 = v := hw ▸ (skip (by decide) (by decide) (skip (by decide) (by decide) (skip (by decide) (by decide) (skip (by decide) (by decide) (skip l3 (by decide) (hit l2))))))
  have e6 : bits w 24 2 = a := hw ▸ (skip (by decide) (by decide) (skip (by decide) (by decide) (skip (by decide) (by decide) (skip (by decide) (by decide) (skip l3 (by decide) (skip l2 (by decide) (hit l1)))))))
  have e7 : bits w 26 5 = 24 := hw ▸ (skip (by decide) (by decide) (skip (by decide) (by decide) (skip (by decide) (by decide) (skip (by decide) (by decide) (skip l3 (by decide) (skip l2 (by decide) (skip l1 (by decide) (hit (by decide)))))))))
  have e8 : bits w 31 1 = c := hw ▸ (skip (by decide) (by decide) (skip (by decide) (by decide) (skip (by decide) (by decide) (skip (by decide) (by decide) (skip l3 (by decide) (skip l2 (by decide) (skip l1 (by decide) (skip (by decide) (by decide) (whole l0)))))))))
  have e9 : bits w 0 14 ≠ 0 := apart (a := 0) (m := 3) (by decide) e0 (by decide)
  have e10 : bits w 0 24 ≠ 1 := apart (a := 0) (m := 3) (by decide) e0 (by decide)
  have e11 : bits w 0 15 ≠ 2 := apart (a := 0) (m := 3) (by decide) e0 (by decide)
  have e12 : bits w 0 15 ≠ 8194 := apart (a := 0) (m := 3) (by decide) e0 (by decide)
  have e13 : bits w 0 15 ≠ 16386 := apart (a := 0) (m := 3) (by decide) e0 (by decide)
  have e14 : bits w 0 15 ≠ 24578 := apart (a := 0) (m := 3) (by decide) e0 (by decide)
  have e15 : bits w 0 15 ≠ 3 := apart (a := 10) (m := 5) (by decide) e3 (by decide)
  have e16 : bits w 0 15 ≠ 8195 := apart (a := 10) (m := 5) (by decide) e3 (by decide)
  have e17 : bits w 0 15 ≠ 16387 := apart (a := 10) (m := 5) (by decide) e3 (by decide)
  have e18 : bits w 0 15 = 24579 := (bits_join e0 (bits_join e1 (bits_join e2 e3)))
  rw [decodeRow_24 e7]
  simp [decodeMat, e0, e1, e2, e3, e4, e5, e6, e7, e8, e9, e10, e11, e12, e13, e14, e15, e16, e17, e18]

theorem RoundTrip.smxu (c a f v p : Nat) : RoundTrip.Statement (.smxu c a f v p) := by
  intro _ hk
  have wf : Instr.WF (.smxu c a f v p) := of_decide_eq_true hk
  refine decode_of_row ?_ hk
  change decodeRow (0x60000004 + c * 2147483648 + a * 16777216 + f * 2097152 + v * 65536 + p * 16384) = _
  simp only [Instr.WF] at wf
  obtain ⟨l0, l1, l2, l3, l4⟩ := wf
  obtain ⟨w, hw⟩ : ∃ w, w = 4 + 2 ^ 3 * (0 + 2 ^ 2 * (0 + 2 ^ 5 * (0 + 2 ^ 4 * (p + 2 ^ 2 * (v + 2 ^ 5 * (f + 2 ^ 3 * (a + 2 ^ 2 * (24 + 2 ^ 5 * (c))))))))) := ⟨_, rfl⟩
  have he : 0x60000004 + c * 2147483648 + a * 16777216 + f * 2097152 + v * 65536 + p * 16384 = w := by rw [hw]; simp only [Nat.mul_add, ← Nat.mul_assoc, Nat.reducePow, Nat.reduceMul]; omega
  rw [he]
  have e0 : bits w 0 3 = 4 := hw ▸ (hit (by decide))
  have e1 : bits w 3 2 = 0 := hw ▸ (skip (by decide) (by decide) (hit (by decide)))
  have e2 : bits w 5 5 = 0 := hw ▸ (skip (by decide) (by decide) (skip (by decide) (by decide) (hit (by decide))))
  have e3 : bits w 10 4 = 0 := hw ▸ (skip (by decide) (by decide) (skip (by decide) (by decide) (skip (by decide) (by decide) (hit (by decide)))))
  have e4 : bits w 14 2 = p := hw ▸ (skip (by decide) (by decide) (skip (by decide) (by decide) (skip (by decide) (by decide) (skip (by decide) (by decide) (hit l4)))))
  have e5 : bits w 16 5 = v := hw ▸ (skip (by decide) (by decide) (skip (by decide) (by decide) (skip (by decide) (by decide) (skip (by decide) (by decide) (skip l4 (by decide) (hit l3))))))
  have e6 : bits w 21 3 = f := hw ▸ (skip (by decide) (by decide) (skip (by decide) (by decide) (skip (by decide) (by decide) (skip (by decide) (by decide) (skip l4 (by decide) (skip l3 (by decide) (hit l2)))))))
  have e7 : bits w 24 2 = a := hw ▸ (skip (by decide) (by decide) (skip (by decide) (by decide) (skip (by decide) (by decide) (skip (by decide) (by decide) (skip l4 (by decide) (skip l3 (by decide) (skip l2 (by decide) (hit l1))))))))
  have e8 : bits w 26 5 = 24 := hw ▸ (skip (by decide) (by decide) (skip (by decide) (by decide) (skip (by decide) (by decide) (skip (by decide) (by decide) (skip l4 (by decide) (skip l3 (by decide) (skip l2 (by decide) (skip l1 (by decide) (hit (by decide))))))))))
  have e9 : bits w 31 1 = c := hw ▸ (skip (by decide) (by decide) (skip (by decide) (by decide) (skip (by decide) (by decide) (skip (by decide) (by decide) (skip l4 (by decide) (skip l3 (by decide) (skip l2 (by decide) (skip l1 (by decide) (skip (by decide) (by decide) (whole l0))))))))))
  have e10 : bits w 0 14 ≠ 0 := apart (a := 0) (m := 3) (by decide) e0 (by decide)
  have e11 : bits w 0 24 ≠ 1 := apart (a := 0) (m := 3) (by decide) e0 (by decide)
  have e12 : bits w 0 15 ≠ 2 := apart (a := 0) (m := 3) (by decide) e0 (by decide)
  have e13 : bits w 0 15 ≠ 8194 := apart (a := 0) (m := 3) (by decide) e0 (by decide)
  have e14 : bits w 0 15 ≠ 16386 := apart (a := 0) (m := 3) (by decide) e0 (by decide)
  have e15 : bits w 0 15 ≠ 24578 := apart (a := 0) (m := 3) (by decide) e0 (by decide)
  have e16 : bits w 0 15 ≠ 3 := apart (a := 0) (m := 3) (by decide) e0 (by decide)
  have e17 : bits w 0 15 ≠ 8195 := apart (a := 0) (m := 3) (by decide) e0 (by decide)
  have e18 : bits w 0 15 ≠ 16387 := apart (a := 0) (m := 3) (by decide) e0 (by decide)
  have e19 : bits w 0 15 ≠ 24579 := apart (a := 0) (m := 3) (by decide) e0 (by decide)
  have e20 : bits w 0 14 = 4 := (bits_join e0 (bits_join e1 (bits_join e2 e3)))
  rw [decodeRow_24 e8]
  simp [decodeMat, e0, e1, e2, e3, e4, e5, e6, e7, e8, e9, e10, e11, e12, e13, e14, e15, e16, e17, e18, e19, e20]

theorem RoundTrip.smxrM (c a d : Nat) : RoundTrip.Statement (.smxrM c a d) := by
  intro _ hk
  have wf : Instr.WF (.smxrM c a d) := of_decide_eq_true hk
  refine decode_of_row ?_ hk
  change decodeRow (0x60000005 + c * 2147483648 + a * 16777216 + d * 524288) = _
  simp only [Instr.WF] at wf
  obtain ⟨l0, l1, l2⟩ := wf
  obtain ⟨w, hw⟩ : ∃ w, w = 5 + 2 ^ 3 * (0 + 2 ^ 2 * (0 + 2 ^ 5 * (0 + 2 ^ 5 * (0 + 2 ^ 4 * (d + 2 ^ 5 * (a + 2 ^ 2 * (24 + 2 ^ 5 * (c)))))))) := ⟨_, rfl⟩
  have he : 0x60000005 + c * 2147483648 + a * 16777216 + d * 524288 = w := by rw [hw]; simp only [Nat.mul_add, ← Nat.mul_assoc, Nat.reducePow, Nat.reduceMul]; omega
  rw [he]
  have e0 : bits w 0 3 = 5 := hw ▸ (hit (by decide))
  have e1 : bits w 3 2 = 0 := hw ▸ (skip (by decide) (by decide) (hit (by decide)))
  have e2 : bits w 5 5 = 0 := hw ▸ (skip (by decide) (by decide) (skip (by decide) (by decide) (hit (by decide))))
  have e3 : bits w 10 5 = 0 := hw ▸ (skip (by decide) (by decide) (skip (by decide) (by decide) (skip (by decide) (by decide) (hit (by decide)))))
  have e4 : bits w 15 4 = 0 := hw ▸ (skip (by decide) (by decide) (skip (by decide) (by decide) (skip (by decide) (by decide) (skip (by decide) (by decide) (hit (by decide))))))
  have e5 : bits w 19 5 = d := hw ▸ (skip (by decide) (by decide) (skip (by decide) (by decide) (skip (by decide) (by decide) (skip (by decide) (by decide) (skip (by decide) (by decide) (hit l2))))))
  have e6 : bits w 24 2 = a := hw ▸ (skip (by decide) (by decide) (skip (by decide) (by decide) (skip (by decide) (by decide) (skip (by decide) (by decide) (skip (by decide) (by decide) (skip l2 (by decide) (hit l1)))))))
  have e7 : bits w 26 5 = 24 := hw ▸ (skip (by decide) (by decide) (skip (by decide) (by decide) (skip (by decide) (by decide) (skip (by decide) (by decide) (skip (by decide) (by decide) (skip l2 (by decide) (skip l1 (by decide) (hit (by decide)))))))))
  have e8 : bits w 31 1 = c := hw ▸ (skip (by decide) (by decide) (skip (by decide) (by decide) (skip (by decide) (by decide) (skip (by decide) (by decide) (skip (by decide) (by decide) (skip l2 (by decide) (skip l1 (by decide) (skip (by decide) (by decide) (whole l0)))))))))
  have e9 : bits w 0 14 ≠ 0 := apart (a := 0) (m := 3) (by decide) e0 (by decide)
  have e10 : bits w 0 24 ≠ 1 := apart (a := 0) (m := 3) (by decide) e0 (by decide)
  have e11 : bits w 0 15 ≠ 2 := apart (a := 0) (m := 3) (by decide) e0 (by decide)
  have e12 : bits w 0 15 ≠ 8194 := apart (a := 0) (m := 3) (by decide) e0 (by decide)
  have e13 : bits w 0 15 ≠ 16386 := apart (a := 0) (m := 3) (by decide) e0 (by decide)
  have e14 : bits w 0 15 ≠ 24578 := apart (a := 0) (m := 3) (by decide) e0 (by decide)
  have e15 : bits w 0 15 ≠ 3 := apart (a := 0) (m := 3) (by decide) e0 (by decide)
  have e16 : bits w 0 15 ≠ 8195 := apart (a := 0) (m := 3) (by decide) e0 (by decide)
  have e17 : bits w 0 15 ≠ 16387 := apart (a := 0) (m := 3) (by decide) e0 (by decide)
  have e18 : bits w 0 15 ≠ 24579 := apart (a := 0) (m := 3) (by decide) e0 (by decide)
  have e19 : bits w 0 14 ≠ 4 := apart (a := 0) (m := 3) (by decide) e0 (by decide)
  have e20 : bits w 0 19 = 5 := (bits_join e0 (bits_join e1 (bits_join e2 (bits_join e3 e4))))
  rw [decodeRow_24 e7]
  simp [decodeMat, e0, e1, e2, e3, e4, e5, e6, e7, e8, e9, e10, e11, e12, e13, e14, e15, e16, e17, e18, e19, e20]

theorem RoundTrip.smxrL (c a d : Nat) : RoundTrip.Statement (.smxrL c a d) := by
  intro _ hk
  have wf : Instr.WF (.smxrL c a d) := of_decide_eq_true hk
  refine decode_of_row ?_ hk
  change decodeRow (0x60040005 + c * 2147483648 + a * 16777216 + d * 524288) = _
  simp only [Instr.WF] at wf
  obtain ⟨l0, l1, l2⟩ := wf
  obtain ⟨w, hw⟩ : ∃ w, w = 5 + 2 ^ 3 * (0 + 2 ^ 2 * (0 + 2 ^ 5 * (0 + 2 ^ 5 * (8 + 2 ^ 4 * (d + 2 ^ 5 * (a + 2 ^ 2 * (24 + 2 ^ 5 * (c)))))))) := ⟨_, rfl⟩
  have he : 0x60040005 + c * 2147483648 + a * 16777216 + d * 524288 = w := by rw [hw]; simp only [Nat.mul_add, ← Nat.mul_assoc, Nat.reducePow, Nat.reduceMul]; omega
  rw [he]
  have e0 : bits w 0 3 = 5 := hw ▸ (hit (by decide))
  have e1 : bits w 3 2 = 0 := hw ▸ (skip (by decide) (by decide) (hit (by decide)))
  have e2 : bits w 5 5 = 0 := hw ▸ (skip (by decide) (by decide) (skip (by decide) (by decide) (hit (by decide))))
  have e3 : bits w 10 5 = 0 := hw ▸ (skip (by decide) (by decide) (skip (by decide) (by decide) (skip (by decide) (by decide) (hit (by decide)))))
  have e4 : bits w 15 4 = 8 := hw ▸ (skip (by decide) (by decide) (skip (by decide) (by decide) (skip (by decide) (by decide) (skip (by decide) (by decide) (hit (by decide))))))
  have e5 : bits w 19 5 = d := hw ▸ (skip (by decide) (by decide) (skip (by decide) (by decide) (skip (by decide) (by decide) (skip (by decide) (by decide) (skip (by decide) (by decide) (hit l2))))))
  have e6 : bits w 24 2 = a := hw ▸ (skip (by decide) (by decide) (skip (by decide) (by decide) (skip (by decide) (by decide) (skip (by decide) (by decide) (skip (by decide) (by decide) (skip l2 (by decide) (hit l1)))))))
  have e7 : bits w 26 5 = 24 := hw ▸ (skip (by decide) (by decide) (skip (by decide) (by decide) (skip (by decide) (by decide) (skip (by decide) (by decide) (skip (by decide) (by decide) (skip l2 (by decide) (skip l1 (by decide) (hit (by decide)))))))))
  have e8 : bits w 31 1 = c := hw ▸ (skip (by decide) (by decide) (skip (by decide) (by decide) (skip (by decide) (by decide) (skip (by decide) (by decide) (skip (by decide) (by decide) (skip l2 (by decide) (skip l1 (by decide) (skip (by decide) (by decide) (whole l0)))))))))
  have e9 : bits w 0 14 ≠ 0 := apart (a := 0) (m := 3) (by decide) e0 (by decide)
  have e10 : bits w 0 24 ≠ 1 := apart (a := 0) (m := 3) (by decide) e0 (by decide)
  have e11 : bits w 0 15 ≠ 2 := apart (a := 0) (m := 3) (by decide) e0 (by decide)
  have e12 : bits w 0 15 ≠ 8194 := apart (a := 0) (m := 3) (by decide) e0 (by decide)
  have e13 : bits w 0 15 ≠ 16386 := apart (a := 0) (m := 3) (by decide) e0 (by decide)
  have e14 : bits w 0 15 ≠ 24578 := apart (a := 0) (m := 3) (by decide) e0 (by decide)
  have e15 : bits w 0 15 ≠ 3 := apart (a := 0) (m := 3) (by decide) e0 (by decide)
  have e16 : bits w 0 15 ≠ 8195 := apart (a := 0) (m := 3) (by decide) e0 (by decide)
  have e17 : bits w 0 15 ≠ 16387 := apart (a := 0) (m := 3) (by decide) e0 (by decide)
  have e18 : bits w 0 15 ≠ 24579 := apart (a := 0) (m := 3) (by decide) e0 (by decide)
  have e19 : bits w 0 14 ≠ 4 := apart (a := 0) (m := 3) (by decide) e0 (by decide)
  have e20 : bits w 0 19 ≠ 5 := apart (a := 15) (m := 4) (by decide) e4 (by decide)
  have e21 : bits w 0 19 = 262149 := (bits_join e0 (bits_join e1 (bits_join e2 (bits_join e3 e4))))
  rw [decodeRow_24 e7]
  simp [decodeMat, e0, e1, e2, e3, e4, e5, e6, e7, e8, e9, e10, e11, e12, e13, e14, e15, e16, e17, e18, e19, e20, e21]

theorem RoundTrip.smxrSt (c a d : Nat) : RoundTrip.Statement (.smxrSt c a d) := by
  intro _ hk
  have wf : Instr.WF (.smxrSt c a d) := of_decide_eq_true hk
  refine decode_of_row ?_ hk
  change decodeRow (0x60020005 + c * 2147483648 + a * 16777216 + d * 524288) = _
  simp only [Instr.WF] at wf
  obtain ⟨l0, l1, l2⟩ := wf
  obtain ⟨w, hw⟩ : ∃ w, w = 5 + 2 ^ 3 * (0 + 2 ^ 2 * (0 + 2 ^ 5 * (0 + 2 ^ 5 * (4 + 2 ^ 4 * (d + 2 ^ 5 * (a + 2 ^ 2 * (24 + 2 ^ 5 * (c)))))))) := ⟨_, rfl⟩
  have he : 0x60020005 + c * 2147483648 + a * 16777216 + d * 524288 = w := by rw [hw]; simp only [Nat.mul_add, ← Nat.mul_assoc, Nat.reducePow, Nat.reduceMul]; omega
  rw [he]
  have e0 : bits w 0 3 = 5 := hw ▸ (hit (by decide))
  have e1 : bits w 3 2 = 0 := hw ▸ (skip (by decide) (by decide) (hit (by decide)))
  have e2 : bits w 5 5 = 0 := hw ▸ (skip (by decide) (by decide) (skip (by decide) (by decide) (hit (by decide))))
  have e3 : bits w 10 5 = 0 := hw ▸ (skip (by decide) (by decide) (skip (by decide) (by decide) (skip (by decide) (by decide) (hit (by decide)))))
  have e4 : bits w 15 4 = 4 := hw ▸ (skip (by decide) (by decide) (skip (by decide) (by decide) (skip (by decide) (by decide) (skip (by decide) (by decide) (hit (by decide))))))
  have e5 : bits w 19 5 = d := hw ▸ (skip (by decide) (by decide) (skip (by decide) (by decide) (skip (by decide) (by decide) (skip (by decide) (by decide) (skip (by decide) (by decide) (hit l2))))))
  have e6 : bits w 24 2 = a := hw ▸ (skip (by decide) (by decide) (skip (by decide) (by decide) (skip (by decide) (by decide) (skip (by decide) (by decide) (skip (by decide) (by decide) (skip l2 (by decide) (hit l1)))))))
  have e7 : bits w 26 5 = 24 := hw ▸ (skip (by decide) (by decide) (skip (by decide) (by decide) (skip (by decide) (by decide) (skip (by decide) (by decide) (skip (by decide) (by decide) (skip l2 (by decide) (skip l1 (by decide) (hit (by decide)))))))))
  have e8 : bits w 31 1 = c := hw ▸ (skip (by decide) (by decide) (skip (by decide) (by decide) (skip (by decide) (by decide) (skip (by decide) (by decide) (skip (by decide) (by decide) (skip l2 (by decide) (skip l1 (by decide) (skip (by decide) (by decide) (whole l0)))))))))
  have e9 : bits w 0 14 ≠ 0 := apart (a := 0) (m := 3) (by decide) e0 (by decide)
  have e10 : bits w 0 24 ≠ 1 := apart (a := 0) (m := 3) (by decide) e0 (by decide)
  have e11 : bits w 0 15 ≠ 2 := apart (a := 0) (m := 3) (by decide) e0 (by decide)
  have e12 : bits w 0 15 ≠ 8194 := apart (a := 0) (m := 3) (by decide) e0 (by decide)
  have e13 : bits w 0 15 ≠ 16386 := apart (a := 0) (m := 3) (by decide) e0 (by decide)
  have e14 : bits w 0 15 ≠ 24578 := apart (a := 0) (m := 3) (by decide) e0 (by decide)
  have e15 : bits w 0 15 ≠ 3 := apart (a := 0) (m := 3) (by decide) e0 (by decide)
  have e16 : bits w 0 15 ≠ 8195 := apart (a := 0) (m := 3) (by decide) e0 (by decide)
  have e17 : bits w 0 15 ≠ 16387 := apart (a := 0) (m := 3) (by decide) e0 (by decide)
  have e18 : bits w 0 15 ≠ 24579 := apart (a := 0) (m := 3) (by decide) e0 (by decide)
  have e19 : bits w 0 14 ≠ 4 := apart (a := 0) (m := 3) (by decide) e0 (by decide)
  have e20 : bits w 0 19 ≠ 5 := apart (a := 15) (m := 4) (by decide) e4 (by decide)
  have e21 : bits w 0 19 ≠ 262149 := apart (a := 15) (m := 4) (by decide) e4 (by decide)
  have e22 : bits w 0 19 = 131077 := (bits_join e0 (bits_join e1 (bits_join e2 (bits_join e3 e4))))
  rw [decodeRow_24 e7]
  simp [decodeMat, e0, e1, e2, e3, e4, e5, e6, e7, e8, e9, e10, e11, e12, e13, e14, e15, e16, e17, e18, e19, e20, e21, e22]

theorem RoundTrip.mfence (c : Nat) : RoundTrip.Statement (.mfence c) := by
  intro _ hk
  have wf : Instr.WF (.mfence c) := of_decide_eq_true hk
  refine decode_of_row ?_ hk
  change decodeRow (0x60000006 + c * 2147483648) = _
  simp only [Instr.WF] at wf
  have l0 := wf
  obtain ⟨w, hw⟩ : ∃ w, w = 6 + 2 ^ 3 * (0 + 2 ^ 2 * (0 + 2 ^ 5 * (0 + 2 ^ 5 * (0 + 2 ^ 5 * (0 + 2 ^ 6 * (24 + 2 ^ 5 * (c))))))) := ⟨_, rfl⟩
  have he : 0x60000006 + c * 2147483648 = w := by rw [hw]; simp only [Nat.mul_add, ← Nat.mul_assoc, Nat.reducePow, Nat.reduceMul]; omega
  rw [he]
  have e0 : bits w 0 3 = 6 := hw ▸ (hit (by decide))
  have e1 : bits w 3 2 = 0 := hw ▸ (skip (by decide) (by decide) (hit (by decide)))
  have e2 : bits w 5 5 = 0 := hw ▸ (skip (by decide) (by decide) (skip (by decide) (by decide) (hit (by decide))))
  have e3 : bits w 10 5 = 0 := hw ▸ (skip (by decide) (by decide) (skip (by decide) (by decide) (skip (by decide) (by decide) (hit (by decide)))))
  have e4 : bits w 15 5 = 0 := hw ▸ (skip (by decide) (by decide) (skip (by decide) (by decide) (skip (by decide) (by decide) (skip (by decide) (by decide) (hit (by decide))))))
  have e5 : bits w 20 6 = 0 := hw ▸ (skip (by decide) (by decide) (skip (by decide) (by decide) (skip (by decide) (by decide) (skip (by decide) (by decide) (skip (by decide) (by decide) (hit (by decide)))))))
  have e6 : bits w 26 5 = 24 := hw ▸ (skip (by decide) (by decide) (skip (by decide) (by decide) (skip (by decide) (by decide) (skip (by decide) (by decide) (skip (by decide) (by decide) (skip (by decide) (by decide) (hit (by decide))))))))
  have e7 : bits w 31 1 = c := hw ▸ (skip (by decide) (by decide) (skip (by decide) (by decide) (skip (by decide) (by decide) (skip (by decide) (by decide) (skip (by decide) (by decide) (skip (by decide) (by decide) (skip (by decide) (by decide) (whole l0))))))))
  have e8 : bits w 0 14 ≠ 0 := apart (a := 0) (m := 3) (by decide) e0 (by decide)
  have e9 : bits w 0 24 ≠ 1 := apart (a := 0) (m := 3) (by decide) e0 (by decide)
  have e10 : bits w 0 15 ≠ 2 := apart (a := 0) (m := 3) (by decide) e0 (by decide)
  have e11 : bits w 0 15 ≠ 8194 := apart (a := 0) (m := 3) (by decide) e0 (by decide)
  have e12 : bits w 0 15 ≠ 16386 := apart (a := 0) (m := 3) (by decide) e0 (by decide)
  have e13 : bits w 0 15 ≠ 24578 := apart (a := 0) (m := 3) (by decide) e0 (by decide)
  have e14 : bits w 0 15 ≠ 3 := apart (a := 0) (m := 3) (by decide) e0 (by decide)
  have e15 : bits w 0 15 ≠ 8195 := apart (a := 0) (m := 3) (by decide) e0 (by decide)
  have e16 : bits w 0 15 ≠ 16387 := apart (a := 0) (m := 3) (by decide) e0 (by decide)
  have e17 : bits w 0 15 ≠ 24579 := apart (a := 0) (m := 3) (by decide) e0 (by decide)
  have e18 : bits w 0 14 ≠ 4 := apart (a := 0) (m := 3) (by decide) e0 (by decide)
  have e19 : bits w 0 19 ≠ 5 := apart (a := 0) (m := 3) (by decide) e0 (by decide)
  have e20 : bits w 0 19 ≠ 262149 := apart (a := 0) (m := 3) (by decide) e0 (by decide)
  have e21 : bits w 0 19 ≠ 131077 := apart (a := 0) (m := 3) (by decide) e0 (by decide)
  have e22 : bits w 0 26 = 6 := (bits_join e0 (bits_join e1 (bits_join e2 (bits_join e3 (bits_join e4 e5)))))
  rw [decodeRow_24 e6]
  simp [decodeMat, e0, e1, e2, e3, e4, e5, e6, e7, e8, e9, e10, e11, e12, e13, e14, e15, e16, e17, e18, e19, e20, e21, e22]

theorem RoundTrip.mwait (c a : Nat) : RoundTrip.Statement (.mwait c a) := by
  intro _ hk
  have wf : Instr.WF (.mwait c a) := of_decide_eq_true hk
  refine decode_of_row ?_ hk
  change decodeRow (0x60000007 + c * 2147483648 + a * 16777216) = _
  simp only [Instr.WF] at wf
  obtain ⟨l0, l1⟩ := wf
  obtain ⟨w, hw⟩ : ∃ w, w = 7 + 2 ^ 3 * (0 + 2 ^ 2 * (0 + 2 ^ 5 * (0 + 2 ^ 5 * (0 + 2 ^ 5 * (0 + 2 ^ 4 * (a + 2 ^ 2 * (24 + 2 ^ 5 * (c)))))))) := ⟨_, rfl⟩
  have he : 0x60000007 + c * 2147483648 + a * 16777216 = w := by rw [hw]; simp only [Nat.mul_add, ← Nat.mul_assoc, Nat.reducePow, Nat.reduceMul]; omega
  rw [he]
  have e0 : bits w 0 3 = 7 := hw ▸ (hit (by decide))
  have e1 : bits w 3 2 = 0 := hw ▸ (skip (by decide) (by decide) (hit (by decide)))
  have e2 : bits w 5 5 = 0 := hw ▸ (skip (by decide) (by decide) (skip (by decide) (by decide) (hit (by decide))))
  have e3 : bits w 10 5 = 0 := hw ▸ (skip (by decide) (by decide) (skip (by decide) (by decide) (skip (by decide) (by decide) (hit (by decide)))))
  have e4 : bits w 15 5 = 0 := hw ▸ (skip (by decide) (by decide) (skip (by decide) (by decide) (skip (by decide) (by decide) (skip (by decide) (by decide) (hit (by decide))))))
  have e5 : bits w 20 4 = 0 := hw ▸ (skip (by decide) (by decide) (skip (by decide) (by decide) (skip (by decide) (by decide) (skip (by decide) (by decide) (skip (by decide) (by decide) (hit (by decide)))))))
  have e6 : bits w 24 2 = a := hw ▸ (skip (by decide) (by decide) (skip (by decide) (by decide) (skip (by decide) (by decide) (skip (by decide) (by decide) (skip (by decide) (by decide) (skip (by decide) (by decide) (hit l1)))))))
  have e7 : bits w 26 5 = 24 := hw ▸ (skip (by decide) (by decide) (skip (by decide) (by decide) (skip (by decide) (by decide) (skip (by decide) (by decide) (skip (by decide) (by decide) (skip (by decide) (by decide) (skip l1 (by decide) (hit (by decide)))))))))
  have e8 : bits w 31 1 = c := hw ▸ (skip (by decide) (by decide) (skip (by decide) (by decide) (skip (by decide) (by decide) (skip (by decide) (by decide) (skip (by decide) (by decide) (skip (by decide) (by decide) (skip l1 (by decide) (skip (by decide) (by decide) (whole l0)))))))))
  have e9 : bits w 0 14 ≠ 0 := apart (a := 0) (m := 3) (by decide) e0 (by decide)
  have e10 : bits w 0 24 ≠ 1 := apart (a := 0) (m := 3) (by decide) e0 (by decide)
  have e11 : bits w 0 15 ≠ 2 := apart (a := 0) (m := 3) (by decide) e0 (by decide)
  have e12 : bits w 0 15 ≠ 8194 := apart (a := 0) (m := 3) (by decide) e0 (by decide)
  have e13 : bits w 0 15 ≠ 16386 := apart (a := 0) (m := 3) (by decide) e0 (by decide)
  have e14 : bits w 0 15 ≠ 24578 := apart (a := 0) (m := 3) (by decide) e0 (by decide)
  have e15 : bits w 0 15 ≠ 3 := apart (a := 0) (m := 3) (by decide) e0 (by decide)
  have e16 : bits w 0 15 ≠ 8195 := apart (a := 0) (m := 3) (by decide) e0 (by decide)
  have e17 : bits w 0 15 ≠ 16387 := apart (a := 0) (m := 3) (by decide) e0 (by decide)
  have e18 : bits w 0 15 ≠ 24579 := apart (a := 0) (m := 3) (by decide) e0 (by decide)
  have e19 : bits w 0 14 ≠ 4 := apart (a := 0) (m := 3) (by decide) e0 (by decide)
  have e20 : bits w 0 19 ≠ 5 := apart (a := 0) (m := 3) (by decide) e0 (by decide)
  have e21 : bits w 0 19 ≠ 262149 := apart (a := 0) (m := 3) (by decide) e0 (by decide)
  have e22 : bits w 0 19 ≠ 131077 := apart (a := 0) (m := 3) (by decide) e0 (by decide)
  have e23 : bits w 0 26 ≠ 6 := apart (a := 0) (m := 3) (by decide) e0 (by decide)
  have e24 : bits w 0 24 = 7 := (bits_join e0 (bits_join e1 (bits_join e2 (bits_join e3 (bits_join e4 e5)))))
  rw [decodeRow_24 e7]
  simp [decodeMat, e0, e1, e2, e3, e4, e5, e6, e7, e8, e9, e10, e11, e12, e13, e14, e15, e16, e17, e18, e19, e20, e21, e22, e23, e24]

theorem RoundTrip.cboard (c q a : Nat) : RoundTrip.Statement (.cboard c q a) := by
  intro _ hk
  have wf : Instr.WF (.cboard c q a) := of_decide_eq_true hk
  refine decode_of_row ?_ hk
  change decodeRow (0x64000000 + c * 2147483648 + q * 32768 + a * 1024) = _
  simp only [Instr.WF] at wf
  obtain ⟨l0, l1, l2⟩ := wf
  obtain ⟨w, hw⟩ : ∃ w, w = 0 + 2 ^ 3 * (0 + 2 ^ 2 * (0 + 2 ^ 5 * (a + 2 ^ 5 * (q + 2 ^ 3 * (0 + 2 ^ 2 * (0 + 2 ^ 6 * (25 + 2 ^ 5 * (c)))))))) := ⟨_, rfl⟩
  have he : 0x64000000 + c * 2147483648 + q * 32768 + a * 1024 = w := by rw [hw]; simp only [Nat.mul_add, ← Nat.mul_assoc, Nat.reducePow, Nat.reduceMul]; omega
  rw [he]
  have e0 : bits w 0 3 = 0 := hw ▸ (hit (by decide))
  have e1 : bits w 3 2 = 0 := hw ▸ (skip (by decide) (by decide) (hit (by decide)))
  have e2 : bits w 5 5 = 0 := hw ▸ (skip (by decide) (by decide) (skip (by decide) (by decide) (hit (by decide))))
  have e3 : bits w 10 5 = a := hw ▸ (skip (by decide) (by decide) (skip (by decide) (by decide) (skip (by decide) (by decide) (hit l2))))
  have e4 : bits w 15 3 = q := hw ▸ (skip (by decide) (by decide) (skip (by decide) (by decide) (skip (by decide) (by decide) (skip l2 (by decide) (hit l1)))))
  have e5 : bits w 18 2 = 0 := hw ▸ (skip (by decide) (by decide) (skip (by decide) (by decide) (skip (by decide) (by decide) (skip l2 (by decide) (skip l1 (by decide) (hit (by decide)))))))
  have e6 : bits w 20 6 = 0 := hw ▸ (skip (by decide) (by decide) (skip (by decide) (by decide) (skip (by decide) (by decide) (skip l2 (by decide) (skip l1 (by decide) (skip (by decide) (by decide) (hit (by decide))))))))
  have e7 : bits w 26 5 = 25 := hw ▸ (skip (by decide) (by decide) (skip (by decide) (by decide) (skip (by decide) (by decide) (skip l2 (by decide) (skip l1 (by decide) (skip (by decide) (by decide) (skip (by decide) (by decide) (hit (by decide)))))))))
  have e8 : bits w 31 1 = c := hw ▸ (skip (by decide) (by decide) (skip (by decide) (by decide) (skip (by decide) (by decide) (skip l2 (by decide) (skip l1 (by decide) (skip (by decide) (by decide) (skip (by decide) (by decide) (skip (by decide) (by decide) (whole l0)))))))))
  have e9 : bits w 0 10 = 0 := (bits_join e0 (bits_join e1 e2))
  have e10 : bits w 18 8 = 0 := (bits_join e5 e6)
  rw [decodeRow_25 e7]
  simp [decodeChurn, e0, e1, e2, e3, e4, e5, e6, e7, e8, e9, e10]

theorem RoundTrip.cboardr (c q a b e : Nat) : RoundTrip.Statement (.cboardr c q a b e) := by
  intro _ hk
  have wf : Instr.WF (.cboardr c q a b e) := of_decide_eq_true hk
  refine decode_of_row ?_ hk
  change decodeRow (0x64100000 + c * 2147483648 + q * 32768 + a * 1024 + b * 32 + e) = _
  simp only [Instr.WF] at wf
  obtain ⟨l0, l1, l2, l3, l4⟩ := wf
  obtain ⟨w, hw⟩ : ∃ w, w = e + 2 ^ 5 * (b + 2 ^ 5 * (a + 2 ^ 5 * (q + 2 ^ 3 * (0 + 2 ^ 2 * (1 + 2 ^ 6 * (25 + 2 ^ 5 * (c))))))) := ⟨_, rfl⟩
  have he : 0x64100000 + c * 2147483648 + q * 32768 + a * 1024 + b * 32 + e = w := by rw [hw]; simp only [Nat.mul_add, ← Nat.mul_assoc, Nat.reducePow, Nat.reduceMul]; omega
  rw [he]
  have e0 : bits w 0 5 = e := hw ▸ (hit l4)
  have e1 : bits w 5 5 = b := hw ▸ (skip l4 (by decide) (hit l3))
  have e2 : bits w 10 5 = a := hw ▸ (skip l4 (by decide) (skip l3 (by decide) (hit l2)))
  have e3 : bits w 15 3 = q := hw ▸ (skip l4 (by decide) (skip l3 (by decide) (skip l2 (by decide) (hit l1))))
  have e4 : bits w 18 2 = 0 := hw ▸ (skip l4 (by decide) (skip l3 (by decide) (skip l2 (by decide) (skip l1 (by decide) (hit (by decide))))))
  have e5 : bits w 20 6 = 1 := hw ▸ (skip l4 (by decide) (skip l3 (by decide) (skip l2 (by decide) (skip l1 (by decide) (skip (by decide) (by decide) (hit (by decide)))))))
  have e6 : bits w 26 5 = 25 := hw ▸ (skip l4 (by decide) (skip l3 (by decide) (skip l2 (by decide) (skip l1 (by decide) (skip (by decide) (by decide) (skip (by decide) (by decide) (hit (by decide))))))))
  have e7 : bits w 31 1 = c := hw ▸ (skip l4 (by decide) (skip l3 (by decide) (skip l2 (by decide) (skip l1 (by decide) (skip (by decide) (by decide) (skip (by decide) (by decide) (skip (by decide) (by decide) (whole l0))))))))
  have e8 : bits w 18 8 ≠ 0 := apart (a := 2) (m := 6) (by decide) e5 (by decide)
  have e9 : bits w 18 8 = 4 := (bits_join e4 e5)
  rw [decodeRow_25 e6]
  simp [decodeChurn, e0, e1, e2, e3, e4, e5, e6, e7, e8, e9]

theorem RoundTrip.calight (c d a : Nat) : RoundTrip.Statement (.calight c d a) := by
  intro _ hk
  have wf : Instr.WF (.calight c d a) := of_decide_eq_true hk
  refine decode_of_row ?_ hk
  change decodeRow (0x64200000 + c * 2147483648 + d * 32768 + a * 1024) = _
  simp only [Instr.WF] at wf
  obtain ⟨l0, l1, l2⟩ := wf
  obtain ⟨w, hw⟩ : ∃ w, w = 0 + 2 ^ 3 * (0 + 2 ^ 2 * (0 + 2 ^ 5 * (a + 2 ^ 5 * (d + 2 ^ 5 * (2 + 2 ^ 6 * (25 + 2 ^ 5 * (c))))))) := ⟨_, rfl⟩
  have he : 0x64200000 + c * 2147483648 + d * 32768 + a * 1024 = w := by rw [hw]; simp only [Nat.mul_add, ← Nat.mul_assoc, Nat.reducePow, Nat.reduceMul]; omega
  rw [he]
  have e0 : bits w 0 3 = 0 := hw ▸ (hit (by decide))
  have e1 : bits w 3 2 = 0 := hw ▸ (skip (by decide) (by decide) (hit (by decide)))
  have e2 : bits w 5 5 = 0 := hw ▸ (skip (by decide) (by decide) (skip (by decide) (by decide) (hit (by decide))))
  have e3 : bits w 10 5 = a := hw ▸ (skip (by decide) (by decide) (skip (by decide) (by decide) (skip (by decide) (by decide) (hit l2))))
  have e4 : bits w 15 5 = d := hw ▸ (skip (by decide) (by decide) (skip (by decide) (by decide) (skip (by decide) (by decide) (skip l2 (by decide) (hit l1)))))
  have e5 : bits w 20 6 = 2 := hw ▸ (skip (by decide) (by decide) (skip (by decide) (by decide) (skip (by decide) (by decide) (skip l2 (by decide) (skip l1 (by decide) (hit (by decide)))))))
  have e6 : bits w 26 5 = 25 := hw ▸ (skip (by decide) (by decide) (skip (by decide) (by decide) (skip (by decide) (by decide) (skip l2 (by decide) (skip l1 (by decide) (skip (by decide) (by decide) (hit (by decide))))))))
  have e7 : bits w 31 1 = c := hw ▸ (skip (by decide) (by decide) (skip (by decide) (by decide) (skip (by decide) (by decide) (skip l2 (by decide) (skip l1 (by decide) (skip (by decide) (by decide) (skip (by decide) (by decide) (whole l0))))))))
  have e8 : bits w 18 8 ≠ 0 := apart (a := 2) (m := 6) (by decide) e5 (by decide)
  have e9 : bits w 18 8 ≠ 4 := apart (a := 2) (m := 6) (by decide) e5 (by decide)
  have e10 : bits w 0 10 = 0 := (bits_join e0 (bits_join e1 e2))
  rw [decodeRow_25 e6]
  simp [decodeChurn, e0, e1, e2, e3, e4, e5, e6, e7, e8, e9, e10]

theorem RoundTrip.ccapAdd (c d a b : Nat) : RoundTrip.Statement (.ccapAdd c d a b) := by
  intro _ hk
  have wf : Instr.WF (.ccapAdd c d a b) := of_decide_eq_true hk
  refine decode_of_row ?_ hk
  change decodeRow (0x64300000 + c * 2147483648 + d * 32768 + a * 1024 + b * 32) = _
  simp only [Instr.WF] at wf
  obtain ⟨l0, l1, l2, l3⟩ := wf
  obtain ⟨w, hw⟩ : ∃ w, w = 0 + 2 ^ 3 * (0 + 2 ^ 2 * (b + 2 ^ 5 * (a + 2 ^ 5 * (d + 2 ^ 5 * (3 + 2 ^ 6 * (25 + 2 ^ 5 * (c))))))) := ⟨_, rfl⟩
  have he : 0x64300000 + c * 2147483648 + d * 32768 + a * 1024 + b * 32 = w := by rw [hw]; simp only [Nat.mul_add, ← Nat.mul_assoc, Nat.reducePow, Nat.reduceMul]; omega
  rw [he]
  have e0 : bits w 0 3 = 0 := hw ▸ (hit (by decide))
  have e1 : bits w 3 2 = 0 := hw ▸ (skip (by decide) (by decide) (hit (by decide)))
  have e2 : bits w 5 5 = b := hw ▸ (skip (by decide) (by decide) (skip (by decide) (by decide) (hit l3)))
  have e3 : bits w 10 5 = a := hw ▸ (skip (by decide) (by decide) (skip (by decide) (by decide) (skip l3 (by decide) (hit l2))))
  have e4 : bits w 15 5 = d := hw ▸ (skip (by decide) (by decide) (skip (by decide) (by decide) (skip l3 (by decide) (skip l2 (by decide) (hit l1)))))
  have e5 : bits w 20 6 = 3 := hw ▸ (skip (by decide) (by decide) (skip (by decide) (by decide) (skip l3 (by decide) (skip l2 (by decide) (skip l1 (by decide) (hit (by decide)))))))
  have e6 : bits w 26 5 = 25 := hw ▸ (skip (by decide) (by decide) (skip (by decide) (by decide) (skip l3 (by decide) (skip l2 (by decide) (skip l1 (by decide) (skip (by decide) (by decide) (hit (by decide))))))))
  have e7 : bits w 31 1 = c := hw ▸ (skip (by decide) (by decide) (skip (by decide) (by decide) (skip l3 (by decide) (skip l2 (by decide) (skip l1 (by decide) (skip (by decide) (by decide) (skip (by decide) (by decide) (whole l0))))))))
  have e8 : bits w 18 8 ≠ 0 := apart (a := 2) (m := 6) (by decide) e5 (by decide)
  have e9 : bits w 18 8 ≠ 4 := apart (a := 2) (m := 6) (by decide) e5 (by decide)
  have e10 : bits w 0 5 = 0 := (bits_join e0 e1)
  rw [decodeRow_25 e6]
  simp [decodeChurn, e0, e1, e2, e3, e4, e5, e6, e7, e8, e9, e10]

theorem RoundTrip.ccapSub (c d a b : Nat) : RoundTrip.Statement (.ccapSub c d a b) := by
  intro _ hk
  have wf : Instr.WF (.ccapSub c d a b) := of_decide_eq_true hk
  refine decode_of_row ?_ hk
  change decodeRow (0x64300001 + c * 2147483648 + d * 32768 + a * 1024 + b * 32) = _
  simp only [Instr.WF] at wf
  obtain ⟨l0, l1, l2, l3⟩ := wf
  obtain ⟨w, hw⟩ : ∃ w, w = 1 + 2 ^ 3 * (0 + 2 ^ 2 * (b + 2 ^ 5 * (a + 2 ^ 5 * (d + 2 ^ 5 * (3 + 2 ^ 6 * (25 + 2 ^ 5 * (c))))))) := ⟨_, rfl⟩
  have he : 0x64300001 + c * 2147483648 + d * 32768 + a * 1024 + b * 32 = w := by rw [hw]; simp only [Nat.mul_add, ← Nat.mul_assoc, Nat.reducePow, Nat.reduceMul]; omega
  rw [he]
  have e0 : bits w 0 3 = 1 := hw ▸ (hit (by decide))
  have e1 : bits w 3 2 = 0 := hw ▸ (skip (by decide) (by decide) (hit (by decide)))
  have e2 : bits w 5 5 = b := hw ▸ (skip (by decide) (by decide) (skip (by decide) (by decide) (hit l3)))
  have e3 : bits w 10 5 = a := hw ▸ (skip (by decide) (by decide) (skip (by decide) (by decide) (skip l3 (by decide) (hit l2))))
  have e4 : bits w 15 5 = d := hw ▸ (skip (by decide) (by decide) (skip (by decide) (by decide) (skip l3 (by decide) (skip l2 (by decide) (hit l1)))))
  have e5 : bits w 20 6 = 3 := hw ▸ (skip (by decide) (by decide) (skip (by decide) (by decide) (skip l3 (by decide) (skip l2 (by decide) (skip l1 (by decide) (hit (by decide)))))))
  have e6 : bits w 26 5 = 25 := hw ▸ (skip (by decide) (by decide) (skip (by decide) (by decide) (skip l3 (by decide) (skip l2 (by decide) (skip l1 (by decide) (skip (by decide) (by decide) (hit (by decide))))))))
  have e7 : bits w 31 1 = c := hw ▸ (skip (by decide) (by decide) (skip (by decide) (by decide) (skip l3 (by decide) (skip l2 (by decide) (skip l1 (by decide) (skip (by decide) (by decide) (skip (by decide) (by decide) (whole l0))))))))
  have e8 : bits w 0 10 ≠ 0 := apart (a := 0) (m := 3) (by decide) e0 (by decide)
  have e9 : bits w 18 8 ≠ 4 := apart (a := 2) (m := 6) (by decide) e5 (by decide)
  have e10 : bits w 0 5 ≠ 0 := apart (a := 0) (m := 3) (by decide) e0 (by decide)
  have e11 : bits w 0 5 = 1 := (bits_join e0 e1)
  rw [decodeRow_25 e6]
  simp [decodeChurn, e0, e1, e2, e3, e4, e5, e6, e7, e8, e9, e10, e11]

theorem RoundTrip.ccapMin (c d a b : Nat) : RoundTrip.Statement (.ccapMin c d a b) := by
  intro _ hk
  have wf : Instr.WF (.ccapMin c d a b) := of_decide_eq_true hk
  refine decode_of_row ?_ hk
  change decodeRow (0x64300002 + c * 2147483648 + d * 32768 + a * 1024 + b * 32) = _
  simp only [Instr.WF] at wf
  obtain ⟨l0, l1, l2, l3⟩ := wf
  obtain ⟨w, hw⟩ : ∃ w, w = 2 + 2 ^ 3 * (0 + 2 ^ 2 * (b + 2 ^ 5 * (a + 2 ^ 5 * (d + 2 ^ 5 * (3 + 2 ^ 6 * (25 + 2 ^ 5 * (c))))))) := ⟨_, rfl⟩
  have he : 0x64300002 + c * 2147483648 + d * 32768 + a * 1024 + b * 32 = w := by rw [hw]; simp only [Nat.mul_add, ← Nat.mul_assoc, Nat.reducePow, Nat.reduceMul]; omega
  rw [he]
  have e0 : bits w 0 3 = 2 := hw ▸ (hit (by decide))
  have e1 : bits w 3 2 = 0 := hw ▸ (skip (by decide) (by decide) (hit (by decide)))
  have e2 : bits w 5 5 = b := hw ▸ (skip (by decide) (by decide) (skip (by decide) (by decide) (hit l3)))
  have e3 : bits w 10 5 = a := hw ▸ (skip (by decide) (by decide) (skip (by decide) (by decide) (skip l3 (by decide) (hit l2))))
  have e4 : bits w 15 5 = d := hw ▸ (skip (by decide) (by decide) (skip (by decide) (by decide) (skip l3 (by decide) (skip l2 (by decide) (hit l1)))))
  have e5 : bits w 20 6 = 3 := hw ▸ (skip (by decide) (by decide) (skip (by decide) (by decide) (skip l3 (by decide) (skip l2 (by decide) (skip l1 (by decide) (hit (by decide)))))))
  have e6 : bits w 26 5 = 25 := hw ▸ (skip (by decide) (by decide) (skip (by decide) (by decide) (skip l3 (by decide) (skip l2 (by decide) (skip l1 (by decide) (skip (by decide) (by decide) (hit (by decide))))))))
  have e7 : bits w 31 1 = c := hw ▸ (skip (by decide) (by decide) (skip (by decide) (by decide) (skip l3 (by decide) (skip l2 (by decide) (skip l1 (by decide) (skip (by decide) (by decide) (skip (by decide) (by decide) (whole l0))))))))
  have e8 : bits w 0 10 ≠ 0 := apart (a := 0) (m := 3) (by decide) e0 (by decide)
  have e9 : bits w 18 8 ≠ 4 := apart (a := 2) (m := 6) (by decide) e5 (by decide)
  have e10 : bits w 0 5 ≠ 0 := apart (a := 0) (m := 3) (by decide) e0 (by decide)
  have e11 : bits w 0 5 ≠ 1 := apart (a := 0) (m := 3) (by decide) e0 (by decide)
  have e12 : bits w 0 5 = 2 := (bits_join e0 e1)
  rw [decodeRow_25 e6]
  simp [decodeChurn, e0, e1, e2, e3, e4, e5, e6, e7, e8, e9, e10, e11, e12]

theorem RoundTrip.ccapMax (c d a b : Nat) : RoundTrip.Statement (.ccapMax c d a b) := by
  intro _ hk
  have wf : Instr.WF (.ccapMax c d a b) := of_decide_eq_true hk
  refine decode_of_row ?_ hk
  change decodeRow (0x64300003 + c * 2147483648 + d * 32768 + a * 1024 + b * 32) = _
  simp only [Instr.WF] at wf
  obtain ⟨l0, l1, l2, l3⟩ := wf
  obtain ⟨w, hw⟩ : ∃ w, w = 3 + 2 ^ 3 * (0 + 2 ^ 2 * (b + 2 ^ 5 * (a + 2 ^ 5 * (d + 2 ^ 5 * (3 + 2 ^ 6 * (25 + 2 ^ 5 * (c))))))) := ⟨_, rfl⟩
  have he : 0x64300003 + c * 2147483648 + d * 32768 + a * 1024 + b * 32 = w := by rw [hw]; simp only [Nat.mul_add, ← Nat.mul_assoc, Nat.reducePow, Nat.reduceMul]; omega
  rw [he]
  have e0 : bits w 0 3 = 3 := hw ▸ (hit (by decide))
  have e1 : bits w 3 2 = 0 := hw ▸ (skip (by decide) (by decide) (hit (by decide)))
  have e2 : bits w 5 5 = b := hw ▸ (skip (by decide) (by decide) (skip (by decide) (by decide) (hit l3)))
  have e3 : bits w 10 5 = a := hw ▸ (skip (by decide) (by decide) (skip (by decide) (by decide) (skip l3 (by decide) (hit l2))))
  have e4 : bits w 15 5 = d := hw ▸ (skip (by decide) (by decide) (skip (by decide) (by decide) (skip l3 (by decide) (skip l2 (by decide) (hit l1)))))
  have e5 : bits w 20 6 = 3 := hw ▸ (skip (by decide) (by decide) (skip (by decide) (by decide) (skip l3 (by decide) (skip l2 (by decide) (skip l1 (by decide) (hit (by decide)))))))
  have e6 : bits w 26 5 = 25 := hw ▸ (skip (by decide) (by decide) (skip (by decide) (by decide) (skip l3 (by decide) (skip l2 (by decide) (skip l1 (by decide) (skip (by decide) (by decide) (hit (by decide))))))))
  have e7 : bits w 31 1 = c := hw ▸ (skip (by decide) (by decide) (skip (by decide) (by decide) (skip l3 (by decide) (skip l2 (by decide) (skip l1 (by decide) (skip (by decide) (by decide) (skip (by decide) (by decide) (whole l0))))))))
  have e8 : bits w 0 10 ≠ 0 := apart (a := 0) (m := 3) (by decide) e0 (by decide)
  have e9 : bits w 18 8 ≠ 4 := apart (a := 2) (m := 6) (by decide) e5 (by decide)
  have e10 : bits w 0 5 ≠ 0 := apart (a := 0) (m := 3) (by decide) e0 (by decide)
  have e11 : bits w 0 5 ≠ 1 := apart (a := 0) (m := 3) (by decide) e0 (by decide)
  have e12 : bits w 0 5 ≠ 2 := apart (a := 0) (m := 3) (by decide) e0 (by decide)
  have e13 : bits w 0 5 = 3 := (bits_join e0 e1)
  rw [decodeRow_25 e6]
  simp [decodeChurn, e0, e1, e2, e3, e4, e5, e6, e7, e8, e9, e10, e11, e12, e13]

theorem RoundTrip.ccapAnd (c d a b : Nat) : RoundTrip.Statement (.ccapAnd c d a b) := by
  intro _ hk
  have wf : Instr.WF (.ccapAnd c d a b) := of_decide_eq_true hk
  refine decode_of_row ?_ hk
  change decodeRow (0x64300004 + c * 2147483648 + d * 32768 + a * 1024 + b * 32) = _
  simp only [Instr.WF] at wf
  obtain ⟨l0, l1, l2, l3⟩ := wf
  obtain ⟨w, hw⟩ : ∃ w, w = 4 + 2 ^ 3 * (0 + 2 ^ 2 * (b + 2 ^ 5 * (a + 2 ^ 5 * (d + 2 ^ 5 * (3 + 2 ^ 6 * (25 + 2 ^ 5 * (c))))))) := ⟨_, rfl⟩
  have he : 0x64300004 + c * 2147483648 + d * 32768 + a * 1024 + b * 32 = w := by rw [hw]; simp only [Nat.mul_add, ← Nat.mul_assoc, Nat.reducePow, Nat.reduceMul]; omega
  rw [he]
  have e0 : bits w 0 3 = 4 := hw ▸ (hit (by decide))
  have e1 : bits w 3 2 = 0 := hw ▸ (skip (by decide) (by decide) (hit (by decide)))
  have e2 : bits w 5 5 = b := hw ▸ (skip (by decide) (by decide) (skip (by decide) (by decide) (hit l3)))
  have e3 : bits w 10 5 = a := hw ▸ (skip (by decide) (by decide) (skip (by decide) (by decide) (skip l3 (by decide) (hit l2))))
  have e4 : bits w 15 5 = d := hw ▸ (skip (by decide) (by decide) (skip (by decide) (by decide) (skip l3 (by decide) (skip l2 (by decide) (hit l1)))))
  have e5 : bits w 20 6 = 3 := hw ▸ (skip (by decide) (by decide) (skip (by decide) (by decide) (skip l3 (by decide) (skip l2 (by decide) (skip l1 (by decide) (hit (by decide)))))))
  have e6 : bits w 26 5 = 25 := hw ▸ (skip (by decide) (by decide) (skip (by decide) (by decide) (skip l3 (by decide) (skip l2 (by decide) (skip l1 (by decide) (skip (by decide) (by decide) (hit (by decide))))))))
  have e7 : bits w 31 1 = c := hw ▸ (skip (by decide) (by decide) (skip (by decide) (by decide) (skip l3 (by decide) (skip l2 (by decide) (skip l1 (by decide) (skip (by decide) (by decide) (skip (by decide) (by decide) (whole l0))))))))
  have e8 : bits w 0 10 ≠ 0 := apart (a := 0) (m := 3) (by decide) e0 (by decide)
  have e9 : bits w 18 8 ≠ 4 := apart (a := 2) (m := 6) (by decide) e5 (by decide)
  have e10 : bits w 0 5 ≠ 0 := apart (a := 0) (m := 3) (by decide) e0 (by decide)
  have e11 : bits w 0 5 ≠ 1 := apart (a := 0) (m := 3) (by decide) e0 (by decide)
  have e12 : bits w 0 5 ≠ 2 := apart (a := 0) (m := 3) (by decide) e0 (by decide)
  have e13 : bits w 0 5 ≠ 3 := apart (a := 0) (m := 3) (by decide) e0 (by decide)
  have e14 : bits w 0 5 = 4 := (bits_join e0 e1)
  rw [decodeRow_25 e6]
  simp [decodeChurn, e0, e1, e2, e3, e4, e5, e6, e7, e8, e9, e10, e11, e12, e13, e14]

theorem RoundTrip.ccapOr (c d a b : Nat) : RoundTrip.Statement (.ccapOr c d a b) := by
  intro _ hk
  have wf : Instr.WF (.ccapOr c d a b) := of_decide_eq_true hk
  refine decode_of_row ?_ hk
  change decodeRow (0x64300005 + c * 2147483648 + d * 32768 + a * 1024 + b * 32) = _
  simp only [Instr.WF] at wf
  obtain ⟨l0, l1, l2, l3⟩ := wf
  obtain ⟨w, hw⟩ : ∃ w, w = 5 + 2 ^ 3 * (0 + 2 ^ 2 * (b + 2 ^ 5 * (a + 2 ^ 5 * (d + 2 ^ 5 * (3 + 2 ^ 6 * (25 + 2 ^ 5 * (c))))))) := ⟨_, rfl⟩
  have he : 0x64300005 + c * 2147483648 + d * 32768 + a * 1024 + b * 32 = w := by rw [hw]; simp only [Nat.mul_add, ← Nat.mul_assoc, Nat.reducePow, Nat.reduceMul]; omega
  rw [he]
  have e0 : bits w 0 3 = 5 := hw ▸ (hit (by decide))
  have e1 : bits w 3 2 = 0 := hw ▸ (skip (by decide) (by decide) (hit (by decide)))
  have e2 : bits w 5 5 = b := hw ▸ (skip (by decide) (by decide) (skip (by decide) (by decide) (hit l3)))
  have e3 : bits w 10 5 = a := hw ▸ (skip (by decide) (by decide) (skip (by decide) (by decide) (skip l3 (by decide) (hit l2))))
  have e4 : bits w 15 5 = d := hw ▸ (skip (by decide) (by decide) (skip (by decide) (by decide) (skip l3 (by decide) (skip l2 (by decide) (hit l1)))))
  have e5 : bits w 20 6 = 3 := hw ▸ (skip (by decide) (by decide) (skip (by decide) (by decide) (skip l3 (by decide) (skip l2 (by decide) (skip l1 (by decide) (hit (by decide)))))))
  have e6 : bits w 26 5 = 25 := hw ▸ (skip (by decide) (by decide) (skip (by decide) (by decide) (skip l3 (by decide) (skip l2 (by decide) (skip l1 (by decide) (skip (by decide) (by decide) (hit (by decide))))))))
  have e7 : bits w 31 1 = c := hw ▸ (skip (by decide) (by decide) (skip (by decide) (by decide) (skip l3 (by decide) (skip l2 (by decide) (skip l1 (by decide) (skip (by decide) (by decide) (skip (by decide) (by decide) (whole l0))))))))
  have e8 : bits w 0 10 ≠ 0 := apart (a := 0) (m := 3) (by decide) e0 (by decide)
  have e9 : bits w 18 8 ≠ 4 := apart (a := 2) (m := 6) (by decide) e5 (by decide)
  have e10 : bits w 0 5 ≠ 0 := apart (a := 0) (m := 3) (by decide) e0 (by decide)
  have e11 : bits w 0 5 ≠ 1 := apart (a := 0) (m := 3) (by decide) e0 (by decide)
  have e12 : bits w 0 5 ≠ 2 := apart (a := 0) (m := 3) (by decide) e0 (by decide)
  have e13 : bits w 0 5 ≠ 3 := apart (a := 0) (m := 3) (by decide) e0 (by decide)
  have e14 : bits w 0 5 ≠ 4 := apart (a := 0) (m := 3) (by decide) e0 (by decide)
  have e15 : bits w 0 5 = 5 := (bits_join e0 e1)
  rw [decodeRow_25 e6]
  simp [decodeChurn, e0, e1, e2, e3, e4, e5, e6, e7, e8, e9, e10, e11, e12, e13, e14, e15]

theorem RoundTrip.ccapXchg (c d a b : Nat) : RoundTrip.Statement (.ccapXchg c d a b) := by
  intro _ hk
  have wf : Instr.WF (.ccapXchg c d a b) := of_decide_eq_true hk
  refine decode_of_row ?_ hk
  change decodeRow (0x64300006 + c * 2147483648 + d * 32768 + a * 1024 + b * 32) = _
  simp only [Instr.WF] at wf
  obtain ⟨l0, l1, l2, l3⟩ := wf
  obtain ⟨w, hw⟩ : ∃ w, w = 6 + 2 ^ 3 * (0 + 2 ^ 2 * (b + 2 ^ 5 * (a + 2 ^ 5 * (d + 2 ^ 5 * (3 + 2 ^ 6 * (25 + 2 ^ 5 * (c))))))) := ⟨_, rfl⟩
  have he : 0x64300006 + c * 2147483648 + d * 32768 + a * 1024 + b * 32 = w := by rw [hw]; simp only [Nat.mul_add, ← Nat.mul_assoc, Nat.reducePow, Nat.reduceMul]; omega
  rw [he]
  have e0 : bits w 0 3 = 6 := hw ▸ (hit (by decide))
  have e1 : bits w 3 2 = 0 := hw ▸ (skip (by decide) (by decide) (hit (by decide)))
  have e2 : bits w 5 5 = b := hw ▸ (skip (by decide) (by decide) (skip (by decide) (by decide) (hit l3)))
  have e3 : bits w 10 5 = a := hw ▸ (skip (by decide) (by decide) (skip (by decide) (by decide) (skip l3 (by decide) (hit l2))))
  have e4 : bits w 15 5 = d := hw ▸ (skip (by decide) (by decide) (skip (by decide) (by decide) (skip l3 (by decide) (skip l2 (by decide) (hit l1)))))
  have e5 : bits w 20 6 = 3 := hw ▸ (skip (by decide) (by decide) (skip (by decide) (by decide) (skip l3 (by decide) (skip l2 (by decide) (skip l1 (by decide) (hit (by decide)))))))
  have e6 : bits w 26 5 = 25 := hw ▸ (skip (by decide) (by decide) (skip (by decide) (by decide) (skip l3 (by decide) (skip l2 (by decide) (skip l1 (by decide) (skip (by decide) (by decide) (hit (by decide))))))))
  have e7 : bits w 31 1 = c := hw ▸ (skip (by decide) (by decide) (skip (by decide) (by decide) (skip l3 (by decide) (skip l2 (by decide) (skip l1 (by decide) (skip (by decide) (by decide) (skip (by decide) (by decide) (whole l0))))))))
  have e8 : bits w 0 10 ≠ 0 := apart (a := 0) (m := 3) (by decide) e0 (by decide)
  have e9 : bits w 18 8 ≠ 4 := apart (a := 2) (m := 6) (by decide) e5 (by decide)
  have e10 : bits w 0 5 ≠ 0 := apart (a := 0) (m := 3) (by decide) e0 (by decide)
  have e11 : bits w 0 5 ≠ 1 := apart (a := 0) (m := 3) (by decide) e0 (by decide)
  have e12 : bits w 0 5 ≠ 2 := apart (a := 0) (m := 3) (by decide) e0 (by decide)
  have e13 : bits w 0 5 ≠ 3 := apart (a := 0) (m := 3) (by decide) e0 (by decide)
  have e14 : bits w 0 5 ≠ 4 := apart (a := 0) (m := 3) (by decide) e0 (by decide)
  have e15 : bits w 0 5 ≠ 5 := apart (a := 0) (m := 3) (by decide) e0 (by decide)
  have e16 : bits w 0 5 = 6 := (bits_join e0 e1)
  rw [decodeRow_25 e6]
  simp [decodeChurn, e0, e1, e2, e3, e4, e5, e6, e7, e8, e9, e10, e11, e12, e13, e14, e15, e16]

theorem RoundTrip.ccapCas (c d a b : Nat) : RoundTrip.Statement (.ccapCas c d a b) := by
  intro _ hk
  have wf : Instr.WF (.ccapCas c d a b) := of_decide_eq_true hk
  refine decode_of_row ?_ hk
  change decodeRow (0x64300007 + c * 2147483648 + d * 32768 + a * 1024 + b * 32) = _
  simp only [Instr.WF] at wf
  obtain ⟨l0, l1, l2, l3⟩ := wf
  obtain ⟨w, hw⟩ : ∃ w, w = 7 + 2 ^ 3 * (0 + 2 ^ 2 * (b + 2 ^ 5 * (a + 2 ^ 5 * (d + 2 ^ 5 * (3 + 2 ^ 6 * (25 + 2 ^ 5 * (c))))))) := ⟨_, rfl⟩
  have he : 0x64300007 + c * 2147483648 + d * 32768 + a * 1024 + b * 32 = w := by rw [hw]; simp only [Nat.mul_add, ← Nat.mul_assoc, Nat.reducePow, Nat.reduceMul]; omega
  rw [he]
  have e0 : bits w 0 3 = 7 := hw ▸ (hit (by decide))
  have e1 : bits w 3 2 = 0 := hw ▸ (skip (by decide) (by decide) (hit (by decide)))
  have e2 : bits w 5 5 = b := hw ▸ (skip (by decide) (by decide) (skip (by decide) (by decide) (hit l3)))
  have e3 : bits w 10 5 = a := hw ▸ (skip (by decide) (by decide) (skip (by decide) (by decide) (skip l3 (by decide) (hit l2))))
  have e4 : bits w 15 5 = d := hw ▸ (skip (by decide) (by decide) (skip (by decide) (by decide) (skip l3 (by decide) (skip l2 (by decide) (hit l1)))))
  have e5 : bits w 20 6 = 3 := hw ▸ (skip (by decide) (by decide) (skip (by decide) (by decide) (skip l3 (by decide) (skip l2 (by decide) (skip l1 (by decide) (hit (by decide)))))))
  have e6 : bits w 26 5 = 25 := hw ▸ (skip (by decide) (by decide) (skip (by decide) (by decide) (skip l3 (by decide) (skip l2 (by decide) (skip l1 (by decide) (skip (by decide) (by decide) (hit (by decide))))))))
  have e7 : bits w 31 1 = c := hw ▸ (skip (by decide) (by decide) (skip (by decide) (by decide) (skip l3 (by decide) (skip l2 (by decide) (skip l1 (by decide) (skip (by decide) (by decide) (skip (by decide) (by decide) (whole l0))))))))
  have e8 : bits w 0 10 ≠ 0 := apart (a := 0) (m := 3) (by decide) e0 (by decide)
  have e9 : bits w 18 8 ≠ 4 := apart (a := 2) (m := 6) (by decide) e5 (by decide)
  have e10 : bits w 0 5 ≠ 0 := apart (a := 0) (m := 3) (by decide) e0 (by decide)
  have e11 : bits w 0 5 ≠ 1 := apart (a := 0) (m := 3) (by decide) e0 (by decide)
  have e12 : bits w 0 5 ≠ 2 := apart (a := 0) (m := 3) (by decide) e0 (by decide)
  have e13 : bits w 0 5 ≠ 3 := apart (a := 0) (m := 3) (by decide) e0 (by decide)
  have e14 : bits w 0 5 ≠ 4 := apart (a := 0) (m := 3) (by decide) e0 (by decide)
  have e15 : bits w 0 5 ≠ 5 := apart (a := 0) (m := 3) (by decide) e0 (by decide)
  have e16 : bits w 0 5 ≠ 6 := apart (a := 0) (m := 3) (by decide) e0 (by decide)
  have e17 : bits w 0 5 = 7 := (bits_join e0 e1)
  rw [decodeRow_25 e6]
  simp [decodeChurn, e0, e1, e2, e3, e4, e5, e6, e7, e8, e9, e10, e11, e12, e13, e14, e15, e16, e17]

theorem RoundTrip.ccapDec (c d a : Nat) : RoundTrip.Statement (.ccapDec c d a) := by
  intro _ hk
  have wf : Instr.WF (.ccapDec c d a) := of_decide_eq_true hk
  refine decode_of_row ?_ hk
  change decodeRow (0x64300008 + c * 2147483648 + d * 32768 + a * 1024) = _
  simp only [Instr.WF] at wf
  obtain ⟨l0, l1, l2⟩ := wf
  obtain ⟨w, hw⟩ : ∃ w, w = 0 + 2 ^ 3 * (1 + 2 ^ 2 * (0 + 2 ^ 5 * (a + 2 ^ 5 * (d + 2 ^ 5 * (3 + 2 ^ 6 * (25 + 2 ^ 5 * (c))))))) := ⟨_, rfl⟩
  have he : 0x64300008 + c * 2147483648 + d * 32768 + a * 1024 = w := by rw [hw]; simp only [Nat.mul_add, ← Nat.mul_assoc, Nat.reducePow, Nat.reduceMul]; omega
  rw [he]
  have e0 : bits w 0 3 = 0 := hw ▸ (hit (by decide))
  have e1 : bits w 3 2 = 1 := hw ▸ (skip (by decide) (by decide) (hit (by decide)))
  have e2 : bits w 5 5 = 0 := hw ▸ (skip (by decide) (by decide) (skip (by decide) (by decide) (hit (by decide))))
  have e3 : bits w 10 5 = a := hw ▸ (skip (by decide) (by decide) (skip (by decide) (by decide) (skip (by decide) (by decide) (hit l2))))
  have e4 : bits w 15 5 = d := hw ▸ (skip (by decide) (by decide) (skip (by decide) (by decide) (skip (by decide) (by decide) (skip l2 (by decide) (hit l1)))))
  have e5 : bits w 20 6 = 3 := hw ▸ (skip (by decide) (by decide) (skip (by decide) (by decide) (skip (by decide) (by decide) (skip l2 (by decide) (skip l1 (by decide) (hit (by decide)))))))
  have e6 : bits w 26 5 = 25 := hw ▸ (skip (by decide) (by decide) (skip (by decide) (by decide) (skip (by decide) (by decide) (skip l2 (by decide) (skip l1 (by decide) (skip (by decide) (by decide) (hit (by decide))))))))
  have e7 : bits w 31 1 = c := hw ▸ (skip (by decide) (by decide) (skip (by decide) (by decide) (skip (by decide) (by decide) (skip l2 (by decide) (skip l1 (by decide) (skip (by decide) (by decide) (skip (by decide) (by decide) (whole l0))))))))
  have e8 : bits w 0 10 ≠ 0 := apart (a := 3) (m := 2) (by decide) e1 (by decide)
  have e9 : bits w 18 8 ≠ 4 := apart (a := 2) (m := 6) (by decide) e5 (by decide)
  have e10 : bits w 0 5 ≠ 0 := apart (a := 3) (m := 2) (by decide) e1 (by decide)
  have e11 : bits w 0 5 ≠ 1 := apart (a := 0) (m := 3) (by decide) e0 (by decide)
  have e12 : bits w 0 5 ≠ 2 := apart (a := 0) (m := 3) (by decide) e0 (by decide)
  have e13 : bits w 0 5 ≠ 3 := apart (a := 0) (m := 3) (by decide) e0 (by decide)
  have e14 : bits w 0 5 ≠ 4 := apart (a := 0) (m := 3) (by decide) e0 (by decide)
  have e15 : bits w 0 5 ≠ 5 := apart (a := 0) (m := 3) (by decide) e0 (by decide)
  have e16 : bits w 0 5 ≠ 6 := apart (a := 0) (m := 3) (by decide) e0 (by decide)
  have e17 : bits w 0 5 ≠ 7 := apart (a := 0) (m := 3) (by decide) e0 (by decide)
  have e18 : bits w 0 10 = 8 := (bits_join e0 (bits_join e1 e2))
  rw [decodeRow_25 e6]
  simp [decodeChurn, e0, e1, e2, e3, e4, e5, e6, e7, e8, e9, e10, e11, e12, e13, e14, e15, e16, e17, e18]

theorem RoundTrip.cpeek (c d a : Nat) : RoundTrip.Statement (.cpeek c d a) := by
  intro _ hk
  have wf : Instr.WF (.cpeek c d a) := of_decide_eq_true hk
  refine decode_of_row ?_ hk
  change decodeRow (0x64400000 + c * 2147483648 + d * 32768 + a * 1024) = _
  simp only [Instr.WF] at wf
  obtain ⟨l0, l1, l2⟩ := wf
  obtain ⟨w, hw⟩ : ∃ w, w = 0 + 2 ^ 3 * (0 + 2 ^ 2 * (0 + 2 ^ 5 * (a + 2 ^ 5 * (d + 2 ^ 5 * (4 + 2 ^ 6 * (25 + 2 ^ 5 * (c))))))) := ⟨_, rfl⟩
  have he : 0x64400000 + c * 2147483648 + d * 32768 + a * 1024 = w := by rw [hw]; simp only [Nat.mul_add, ← Nat.mul_assoc, Nat.reducePow, Nat.reduceMul]; omega
  rw [he]
  have e0 : bits w 0 3 = 0 := hw ▸ (hit (by decide))
  have e1 : bits w 3 2 = 0 := hw ▸ (skip (by decide) (by decide) (hit (by decide)))
  have e2 : bits w 5 5 = 0 := hw ▸ (skip (by decide) (by decide) (skip (by decide) (by decide) (hit (by decide))))
  have e3 : bits w 10 5 = a := hw ▸ (skip (by decide) (by decide) (skip (by decide) (by decide) (skip (by decide) (by decide) (hit l2))))
  have e4 : bits w 15 5 = d := hw ▸ (skip (by decide) (by decide) (skip (by decide) (by decide) (skip (by decide) (by decide) (skip l2 (by decide) (hit l1)))))
  have e5 : bits w 20 6 = 4 := hw ▸ (skip (by decide) (by decide) (skip (by decide) (by decide) (skip (by decide) (by decide) (skip l2 (by decide) (skip l1 (by decide) (hit (by decide)))))))
  have e6 : bits w 26 5 = 25 := hw ▸ (skip (by decide) (by decide) (skip (by decide) (by decide) (skip (by decide) (by decide) (skip l2 (by decide) (skip l1 (by decide) (skip (by decide) (by decide) (hit (by decide))))))))
  have e7 : bits w 31 1 = c := hw ▸ (skip (by decide) (by decide) (skip (by decide) (by decide) (skip (by decide) (by decide) (skip l2 (by decide) (skip l1 (by decide) (skip (by decide) (by decide) (skip (by decide) (by decide) (whole l0))))))))
  have e8 : bits w 18 8 ≠ 0 := apart (a := 2) (m := 6) (by decide) e5 (by decide)
  have e9 : bits w 18 8 ≠ 4 := apart (a := 2) (m := 6) (by decide) e5 (by decide)
  have e10 : bits w 0 5 ≠ 1 := apart (a := 0) (m := 3) (by decide) e0 (by decide)
  have e11 : bits w 0 5 ≠ 2 := apart (a := 0) (m := 3) (by decide) e0 (by decide)
  have e12 : bits w 0 5 ≠ 3 := apart (a := 0) (m := 3) (by decide) e0 (by decide)
  have e13 : bits w 0 5 ≠ 4 := apart (a := 0) (m := 3) (by decide) e0 (by decide)
  have e14 : bits w 0 5 ≠ 5 := apart (a := 0) (m := 3) (by decide) e0 (by decide)
  have e15 : bits w 0 5 ≠ 6 := apart (a := 0) (m := 3) (by decide) e0 (by decide)
  have e16 : bits w 0 5 ≠ 7 := apart (a := 0) (m := 3) (by decide) e0 (by decide)
  have e17 : bits w 0 10 ≠ 8 := apart (a := 3) (m := 2) (by decide) e1 (by decide)
  have e18 : bits w 0 10 = 0 := (bits_join e0 (bits_join e1 e2))
  rw [decodeRow_25 e6]
  simp [decodeChurn, e0, e1, e2, e3, e4, e5, e6, e7, e8, e9, e10, e11, e12, e13, e14, e15, e16, e17, e18]

theorem RoundTrip.cwait (c d a b k : Nat) : RoundTrip.Statement (.cwait c d a b k) := by
  intro _ hk
  have wf : Instr.WF (.cwait c d a b k) := of_decide_eq_true hk
  refine decode_of_row ?_ hk
  change decodeRow (0x64500000 + c * 2147483648 + d * 32768 + a * 1024 + b * 32 + k) = _
  simp only [Instr.WF] at wf
  obtain ⟨l0, l1, l2, l3, l4⟩ := wf
  obtain ⟨w, hw⟩ : ∃ w, w = k + 2 ^ 2 * (0 + 2 ^ 1 * (0 + 2 ^ 2 * (b + 2 ^ 5 * (a + 2 ^ 5 * (d + 2 ^ 5 * (5 + 2 ^ 6 * (25 + 2 ^ 5 * (c)))))))) := ⟨_, rfl⟩
  have he : 0x64500000 + c * 2147483648 + d * 32768 + a * 1024 + b * 32 + k = w := by rw [hw]; simp only [Nat.mul_add, ← Nat.mul_assoc, Nat.reducePow, Nat.reduceMul]; omega
  rw [he]
  have e0 : bits w 0 2 = k := hw ▸ (hit l4)
  have e1 : bits w 2 1 = 0 := hw ▸ (skip l4 (by decide) (hit (by decide)))
  have e2 : bits w 3 2 = 0 := hw ▸ (skip l4 (by decide) (skip (by decide) (by decide) (hit (by decide))))
  have e3 : bits w 5 5 = b := hw ▸ (skip l4 (by decide) (skip (by decide) (by decide) (skip (by decide) (by decide) (hit l3))))
  have e4 : bits w 10 5 = a := hw ▸ (skip l4 (by decide) (skip (by decide) (by decide) (skip (by decide) (by decide) (skip l3 (by decide) (hit l2)))))
  have e5 : bits w 15 5 = d := hw ▸ (skip l4 (by decide) (skip (by decide) (by decide) (skip (by decide) (by decide) (skip l3 (by decide) (skip l2 (by decide) (hit l1))))))
  have e6 : bits w 20 6 = 5 := hw ▸ (skip l4 (by decide) (skip (by decide) (by decide) (skip (by decide) (by decide) (skip l3 (by decide) (skip l2 (by decide) (skip l1 (by decide) (hit (by decide))))))))
  have e7 : bits w 26 5 = 25 := hw ▸ (skip l4 (by decide) (skip (by decide) (by decide) (skip (by decide) (by decide) (skip l3 (by decide) (skip l2 (by decide) (skip l1 (by decide) (skip (by decide) (by decide) (hit (by decide)))))))))
  have e8 : bits w 31 1 = c := hw ▸ (skip l4 (by decide) (skip (by decide) (by decide) (skip (by decide) (by decide) (skip l3 (by decide) (skip l2 (by decide) (skip l1 (by decide) (skip (by decide) (by decide) (skip (by decide) (by decide) (whole l0)))))))))
  have e9 : bits w 18 8 ≠ 0 := apart (a := 2) (m := 6) (by decide) e6 (by decide)
  have e10 : bits w 18 8 ≠ 4 := apart (a := 2) (m := 6) (by decide) e6 (by decide)
  have e11 : bits w 0 5 ≠ 4 := apart (a := 2) (m := 1) (by decide) e1 (by decide)
  have e12 : bits w 0 5 ≠ 5 := apart (a := 2) (m := 1) (by decide) e1 (by decide)
  have e13 : bits w 0 5 ≠ 6 := apart (a := 2) (m := 1) (by decide) e1 (by decide)
  have e14 : bits w 0 5 ≠ 7 := apart (a := 2) (m := 1) (by decide) e1 (by decide)
  have e15 : bits w 0 10 ≠ 8 := apart (a := 3) (m := 2) (by decide) e2 (by decide)
  have e16 : bits w 2 3 = 0 := (bits_join e1 e2)
  rw [decodeRow_25 e7]
  simp [decodeChurn, e0, e1, e2, e3, e4, e5, e6, e7, e8, e9, e10, e11, e12, e13, e14, e15, e16]

theorem RoundTrip.rast (c a b e : Nat) : RoundTrip.Statement (.rast c a b e) := by
  intro _ hk
  have wf : Instr.WF (.rast c a b e) := of_decide_eq_true hk
  refine decode_of_row ?_ hk
  change decodeRow (0x68000000 + c * 2147483648 + a * 1024 + b * 32 + e) = _
  simp only [Instr.WF] at wf
  obtain ⟨l0, l1, l2, l3⟩ := wf
  obtain ⟨w, hw⟩ : ∃ w, w = e + 2 ^ 5 * (b + 2 ^ 5 * (a + 2 ^ 5 * (0 + 2 ^ 5 * (0 + 2 ^ 6 * (26 + 2 ^ 5 * (c)))))) := ⟨_, rfl⟩
  have he : 0x68000000 + c * 2147483648 + a * 1024 + b * 32 + e = w := by rw [hw]; simp only [Nat.mul_add, ← Nat.mul_assoc, Nat.reducePow, Nat.reduceMul]; omega
  rw [he]
  have e0 : bits w 0 5 = e := hw ▸ (hit l3)
  have e1 : bits w 5 5 = b := hw ▸ (skip l3 (by decide) (hit l2))
  have e2 : bits w 10 5 = a := hw ▸ (skip l3 (by decide) (skip l2 (by decide) (hit l1)))
  have e3 : bits w 15 5 = 0 := hw ▸ (skip l3 (by decide) (skip l2 (by decide) (skip l1 (by decide) (hit (by decide)))))
  have e4 : bits w 20 6 = 0 := hw ▸ (skip l3 (by decide) (skip l2 (by decide) (skip l1 (by decide) (skip (by decide) (by decide) (hit (by decide))))))
  have e5 : bits w 26 5 = 26 := hw ▸ (skip l3 (by decide) (skip l2 (by decide) (skip l1 (by decide) (skip (by decide) (by decide) (skip (by decide) (by decide) (hit (by decide)))))))
  have e6 : bits w 31 1 = c := hw ▸ (skip l3 (by decide) (skip l2 (by decide) (skip l1 (by decide) (skip (by decide) (by decide) (skip (by decide) (by decide) (skip (by decide) (by decide) (whole l0)))))))
  have e7 : bits w 15 11 = 0 := (bits_join e3 e4)
  rw [decodeRow_26 e5]
  simp [decodeGfx, e0, e1, e2, e3, e4, e5, e6, e7]

theorem RoundTrip.rseal (c a : Nat) : RoundTrip.Statement (.rseal c a) := by
  intro _ hk
  have wf : Instr.WF (.rseal c a) := of_decide_eq_true hk
  refine decode_of_row ?_ hk
  change decodeRow (0x68100000 + c * 2147483648 + a * 1024) = _
  simp only [Instr.WF] at wf
  obtain ⟨l0, l1⟩ := wf
  obtain ⟨w, hw⟩ : ∃ w, w = 0 + 2 ^ 3 * (0 + 2 ^ 2 * (0 + 2 ^ 5 * (a + 2 ^ 5 * (0 + 2 ^ 5 * (1 + 2 ^ 6 * (26 + 2 ^ 5 * (c))))))) := ⟨_, rfl⟩
  have he : 0x68100000 + c * 2147483648 + a * 1024 = w := by rw [hw]; simp only [Nat.mul_add, ← Nat.mul_assoc, Nat.reducePow, Nat.reduceMul]; omega
  rw [he]
  have e0 : bits w 0 3 = 0 := hw ▸ (hit (by decide))
  have e1 : bits w 3 2 = 0 := hw ▸ (skip (by decide) (by decide) (hit (by decide)))
  have e2 : bits w 5 5 = 0 := hw ▸ (skip (by decide) (by decide) (skip (by decide) (by decide) (hit (by decide))))
  have e3 : bits w 10 5 = a := hw ▸ (skip (by decide) (by decide) (skip (by decide) (by decide) (skip (by decide) (by decide) (hit l1))))
  have e4 : bits w 15 5 = 0 := hw ▸ (skip (by decide) (by decide) (skip (by decide) (by decide) (skip (by decide) (by decide) (skip l1 (by decide) (hit (by decide))))))
  have e5 : bits w 20 6 = 1 := hw ▸ (skip (by decide) (by decide) (skip (by decide) (by decide) (skip (by decide) (by decide) (skip l1 (by decide) (skip (by decide) (by decide) (hit (by decide)))))))
  have e6 : bits w 26 5 = 26 := hw ▸ (skip (by decide) (by decide) (skip (by decide) (by decide) (skip (by decide) (by decide) (skip l1 (by decide) (skip (by decide) (by decide) (skip (by decide) (by decide) (hit (by decide))))))))
  have e7 : bits w 31 1 = c := hw ▸ (skip (by decide) (by decide) (skip (by decide) (by decide) (skip (by decide) (by decide) (skip l1 (by decide) (skip (by decide) (by decide) (skip (by decide) (by decide) (skip (by decide) (by decide) (whole l0))))))))
  have e8 : bits w 15 11 ≠ 0 := apart (a := 5) (m := 6) (by decide) e5 (by decide)
  have e9 : bits w 0 10 = 0 := (bits_join e0 (bits_join e1 e2))
  have e10 : bits w 15 11 = 32 := (bits_join e4 e5)
  rw [decodeRow_26 e6]
  simp [decodeGfx, e0, e1, e2, e3, e4, e5, e6, e7, e8, e9, e10]

theorem RoundTrip.bpush (c k q a b : Nat) : RoundTrip.Statement (.bpush c k q a b) := by
  intro _ hk
  have wf : Instr.WF (.bpush c k q a b) := of_decide_eq_true hk
  refine decode_of_row ?_ hk
  change decodeRow (0x68200000 + c * 2147483648 + k * 262144 + q * 32768 + a * 1024 + b * 32) = _
  simp only [Instr.WF] at wf
  obtain ⟨l0, l1, l2, l3, l4⟩ := wf
  obtain ⟨w, hw⟩ : ∃ w, w = 0 + 2 ^ 3 * (0 + 2 ^ 2 * (b + 2 ^ 5 * (a + 2 ^ 5 * (q + 2 ^ 3 * (k + 2 ^ 2 * (2 + 2 ^ 6 * (26 + 2 ^ 5 * (c)))))))) := ⟨_, rfl⟩
  have he : 0x68200000 + c * 2147483648 + k * 262144 + q * 32768 + a * 1024 + b * 32 = w := by rw [hw]; simp only [Nat.mul_add, ← Nat.mul_assoc, Nat.reducePow, Nat.reduceMul]; omega
  rw [he]
  have e0 : bits w 0 3 = 0 := hw ▸ (hit (by decide))
  have e1 : bits w 3 2 = 0 := hw ▸ (skip (by decide) (by decide) (hit (by decide)))
  have e2 : bits w 5 5 = b := hw ▸ (skip (by decide) (by decide) (skip (by decide) (by decide) (hit l4)))
  have e3 : bits w 10 5 = a := hw ▸ (skip (by decide) (by decide) (skip (by decide) (by decide) (skip l4 (by decide) (hit l3))))
  have e4 : bits w 15 3 = q := hw ▸ (skip (by decide) (by decide) (skip (by decide) (by decide) (skip l4 (by decide) (skip l3 (by decide) (hit l2)))))
  have e5 : bits w 18 2 = k := hw ▸ (skip (by decide) (by decide) (skip (by decide) (by decide) (skip l4 (by decide) (skip l3 (by decide) (skip l2 (by decide) (hit l1))))))
  have e6 : bits w 20 6 = 2 := hw ▸ (skip (by decide) (by decide) (skip (by decide) (by decide) (skip l4 (by decide) (skip l3 (by decide) (skip l2 (by decide) (skip l1 (by decide) (hit (by decide))))))))
  have e7 : bits w 26 5 = 26 := hw ▸ (skip (by decide) (by decide) (skip (by decide) (by decide) (skip l4 (by decide) (skip l3 (by decide) (skip l2 (by decide) (skip l1 (by decide) (skip (by decide) (by decide) (hit (by decide)))))))))
  have e8 : bits w 31 1 = c := hw ▸ (skip (by decide) (by decide) (skip (by decide) (by decide) (skip l4 (by decide) (skip l3 (by decide) (skip l2 (by decide) (skip l1 (by decide) (skip (by decide) (by decide) (skip (by decide) (by decide) (whole l0)))))))))
  have e9 : bits w 15 11 ≠ 0 := apart (a := 5) (m := 6) (by decide) e6 (by decide)
  have e10 : bits w 15 11 ≠ 32 := apart (a := 5) (m := 6) (by decide) e6 (by decide)
  have e11 : bits w 0 5 = 0 := (bits_join e0 e1)
  rw [decodeRow_26 e7]
  simp [decodeGfx, e0, e1, e2, e3, e4, e5, e6, e7, e8, e9, e10, e11]

theorem RoundTrip.bpushHit (c k q a b : Nat) : RoundTrip.Statement (.bpushHit c k q a b) := by
  intro _ hk
  have wf : Instr.WF (.bpushHit c k q a b) := of_decide_eq_true hk
  refine decode_of_row ?_ hk
  change decodeRow (0x68200001 + c * 2147483648 + k * 262144 + q * 32768 + a * 1024 + b * 32) = _
  simp only [Instr.WF] at wf
  obtain ⟨l0, l1, l2, l3, l4⟩ := wf
  obtain ⟨w, hw⟩ : ∃ w, w = 1 + 2 ^ 3 * (0 + 2 ^ 2 * (b + 2 ^ 5 * (a + 2 ^ 5 * (q + 2 ^ 3 * (k + 2 ^ 2 * (2 + 2 ^ 6 * (26 + 2 ^ 5 * (c)))))))) := ⟨_, rfl⟩
  have he : 0x68200001 + c * 2147483648 + k * 262144 + q * 32768 + a * 1024 + b * 32 = w := by rw [hw]; simp only [Nat.mul_add, ← Nat.mul_assoc, Nat.reducePow, Nat.reduceMul]; omega
  rw [he]
  have e0 : bits w 0 3 = 1 := hw ▸ (hit (by decide))
  have e1 : bits w 3 2 = 0 := hw ▸ (skip (by decide) (by decide) (hit (by decide)))
  have e2 : bits w 5 5 = b := hw ▸ (skip (by decide) (by decide) (skip (by decide) (by decide) (hit l4)))
  have e3 : bits w 10 5 = a := hw ▸ (skip (by decide) (by decide) (skip (by decide) (by decide) (skip l4 (by decide) (hit l3))))
  have e4 : bits w 15 3 = q := hw ▸ (skip (by decide) (by decide) (skip (by decide) (by decide) (skip l4 (by decide) (skip l3 (by decide) (hit l2)))))
  have e5 : bits w 18 2 = k := hw ▸ (skip (by decide) (by decide) (skip (by decide) (by decide) (skip l4 (by decide) (skip l3 (by decide) (skip l2 (by decide) (hit l1))))))
  have e6 : bits w 20 6 = 2 := hw ▸ (skip (by decide) (by decide) (skip (by decide) (by decide) (skip l4 (by decide) (skip l3 (by decide) (skip l2 (by decide) (skip l1 (by decide) (hit (by decide))))))))
  have e7 : bits w 26 5 = 26 := hw ▸ (skip (by decide) (by decide) (skip (by decide) (by decide) (skip l4 (by decide) (skip l3 (by decide) (skip l2 (by decide) (skip l1 (by decide) (skip (by decide) (by decide) (hit (by decide)))))))))
  have e8 : bits w 31 1 = c := hw ▸ (skip (by decide) (by decide) (skip (by decide) (by decide) (skip l4 (by decide) (skip l3 (by decide) (skip l2 (by decide) (skip l1 (by decide) (skip (by decide) (by decide) (skip (by decide) (by decide) (whole l0)))))))))
  have e9 : bits w 15 11 ≠ 0 := apart (a := 5) (m := 6) (by decide) e6 (by decide)
  have e10 : bits w 0 10 ≠ 0 := apart (a := 0) (m := 3) (by decide) e0 (by decide)
  have e11 : bits w 0 5 ≠ 0 := apart (a := 0) (m := 3) (by decide) e0 (by decide)
  have e12 : bits w 0 5 = 1 := (bits_join e0 e1)
  rw [decodeRow_26 e7]
  simp [decodeGfx, e0, e1, e2, e3, e4, e5, e6, e7, e8, e9, e10, e11, e12]

theorem RoundTrip.bisect (c q a b e : Nat) : RoundTrip.Statement (.bisect c q a b e) := by
  intro _ hk
  have wf : Instr.WF (.bisect c q a b e) := of_decide_eq_true hk
  refine decode_of_row ?_ hk
  change decodeRow (0x68300000 + c * 2147483648 + q * 32768 + a * 1024 + b * 32 + e) = _
  simp only [Instr.WF] at wf
  obtain ⟨l0, l1, l2, l3, l4⟩ := wf
  obtain ⟨w, hw⟩ : ∃ w, w = e + 2 ^ 5 * (b + 2 ^ 5 * (a + 2 ^ 5 * (q + 2 ^ 3 * (0 + 2 ^ 2 * (3 + 2 ^ 6 * (26 + 2 ^ 5 * (c))))))) := ⟨_, rfl⟩
  have he : 0x68300000 + c * 2147483648 + q * 32768 + a * 1024 + b * 32 + e = w := by rw [hw]; simp only [Nat.mul_add, ← Nat.mul_assoc, Nat.reducePow, Nat.reduceMul]; omega
  rw [he]
  have e0 : bits w 0 5 = e := hw ▸ (hit l4)
  have e1 : bits w 5 5 = b := hw ▸ (skip l4 (by decide) (hit l3))
  have e2 : bits w 10 5 = a := hw ▸ (skip l4 (by decide) (skip l3 (by decide) (hit l2)))
  have e3 : bits w 15 3 = q := hw ▸ (skip l4 (by decide) (skip l3 (by decide) (skip l2 (by decide) (hit l1))))
  have e4 : bits w 18 2 = 0 := hw ▸ (skip l4 (by decide) (skip l3 (by decide) (skip l2 (by decide) (skip l1 (by decide) (hit (by decide))))))
  have e5 : bits w 20 6 = 3 := hw ▸ (skip l4 (by decide) (skip l3 (by decide) (skip l2 (by decide) (skip l1 (by decide) (skip (by decide) (by decide) (hit (by decide)))))))
  have e6 : bits w 26 5 = 26 := hw ▸ (skip l4 (by decide) (skip l3 (by decide) (skip l2 (by decide) (skip l1 (by decide) (skip (by decide) (by decide) (skip (by decide) (by decide) (hit (by decide))))))))
  have e7 : bits w 31 1 = c := hw ▸ (skip l4 (by decide) (skip l3 (by decide) (skip l2 (by decide) (skip l1 (by decide) (skip (by decide) (by decide) (skip (by decide) (by decide) (skip (by decide) (by decide) (whole l0))))))))
  have e8 : bits w 15 11 ≠ 0 := apart (a := 5) (m := 6) (by decide) e5 (by decide)
  have e9 : bits w 15 11 ≠ 32 := apart (a := 5) (m := 6) (by decide) e5 (by decide)
  have e10 : bits w 18 8 = 12 := (bits_join e4 e5)
  rw [decodeRow_26 e6]
  simp [decodeGfx, e0, e1, e2, e3, e4, e5, e6, e7, e8, e9, e10]

theorem RoundTrip.attr (c d a b j : Nat) : RoundTrip.Statement (.attr c d a b j) := by
  intro _ hk
  have wf : Instr.WF (.attr c d a b j) := of_decide_eq_true hk
  refine decode_of_row ?_ hk
  change decodeRow (0x68400000 + c * 2147483648 + d * 32768 + a * 1024 + b * 32 + j) = _
  simp only [Instr.WF] at wf
  obtain ⟨l0, l1, l2, l3, l4⟩ := wf
  obtain ⟨w, hw⟩ : ∃ w, w = j + 2 ^ 4 * (0 + 2 ^ 1 * (b + 2 ^ 5 * (a + 2 ^ 5 * (d + 2 ^ 5 * (4 + 2 ^ 6 * (26 + 2 ^ 5 * (c))))))) := ⟨_, rfl⟩
  have he : 0x68400000 + c * 2147483648 + d * 32768 + a * 1024 + b * 32 + j = w := by rw [hw]; simp only [Nat.mul_add, ← Nat.mul_assoc, Nat.reducePow, Nat.reduceMul]; omega
  rw [he]
  have e0 : bits w 0 4 = j := hw ▸ (hit l4)
  have e1 : bits w 4 1 = 0 := hw ▸ (skip l4 (by decide) (hit (by decide)))
  have e2 : bits w 5 5 = b := hw ▸ (skip l4 (by decide) (skip (by decide) (by decide) (hit l3)))
  have e3 : bits w 10 5 = a := hw ▸ (skip l4 (by decide) (skip (by decide) (by decide) (skip l3 (by decide) (hit l2))))
  have e4 : bits w 15 5 = d := hw ▸ (skip l4 (by decide) (skip (by decide) (by decide) (skip l3 (by decide) (skip l2 (by decide) (hit l1)))))
  have e5 : bits w 20 6 = 4 := hw ▸ (skip l4 (by decide) (skip (by decide) (by decide) (skip l3 (by decide) (skip l2 (by decide) (skip l1 (by decide) (hit (by decide)))))))
  have e6 : bits w 26 5 = 26 := hw ▸ (skip l4 (by decide) (skip (by decide) (by decide) (skip l3 (by decide) (skip l2 (by decide) (skip l1 (by decide) (skip (by decide) (by decide) (hit (by decide))))))))
  have e7 : bits w 31 1 = c := hw ▸ (skip l4 (by decide) (skip (by decide) (by decide) (skip l3 (by decide) (skip l2 (by decide) (skip l1 (by decide) (skip (by decide) (by decide) (skip (by decide) (by decide) (whole l0))))))))
  have e8 : bits w 15 11 ≠ 0 := apart (a := 5) (m := 6) (by decide) e5 (by decide)
  have e9 : bits w 15 11 ≠ 32 := apart (a := 5) (m := 6) (by decide) e5 (by decide)
  have e10 : bits w 18 8 ≠ 12 := apart (a := 2) (m := 6) (by decide) e5 (by decide)
  rw [decodeRow_26 e6]
  simp [decodeGfx, e0, e1, e2, e3, e4, e5, e6, e7, e8, e9, e10]

theorem RoundTrip.tex (c d a t : Nat) : RoundTrip.Statement (.tex c d a t) := by
  intro _ hk
  have wf : Instr.WF (.tex c d a t) := of_decide_eq_true hk
  refine decode_of_row ?_ hk
  change decodeRow (0x68500000 + c * 2147483648 + d * 32768 + a * 1024 + t * 4) = _
  simp only [Instr.WF] at wf
  obtain ⟨l0, l1, l2, l3⟩ := wf
  obtain ⟨w, hw⟩ : ∃ w, w = 0 + 2 ^ 2 * (t + 2 ^ 8 * (a + 2 ^ 5 * (d + 2 ^ 5 * (5 + 2 ^ 6 * (26 + 2 ^ 5 * (c)))))) := ⟨_, rfl⟩
  have he : 0x68500000 + c * 2147483648 + d * 32768 + a * 1024 + t * 4 = w := by rw [hw]; simp only [Nat.mul_add, ← Nat.mul_assoc, Nat.reducePow, Nat.reduceMul]; omega
  rw [he]
  have e0 : bits w 0 2 = 0 := hw ▸ (hit (by decide))
  have e1 : bits w 2 8 = t := hw ▸ (skip (by decide) (by decide) (hit l3))
  have e2 : bits w 10 5 = a := hw ▸ (skip (by decide) (by decide) (skip l3 (by decide) (hit l2)))
  have e3 : bits w 15 5 = d := hw ▸ (skip (by decide) (by decide) (skip l3 (by decide) (skip l2 (by decide) (hit l1))))
  have e4 : bits w 20 6 = 5 := hw ▸ (skip (by decide) (by decide) (skip l3 (by decide) (skip l2 (by decide) (skip l1 (by decide) (hit (by decide))))))
  have e5 : bits w 26 5 = 26 := hw ▸ (skip (by decide) (by decide) (skip l3 (by decide) (skip l2 (by decide) (skip l1 (by decide) (skip (by decide) (by decide) (hit (by decide)))))))
  have e6 : bits w 31 1 = c := hw ▸ (skip (by decide) (by decide) (skip l3 (by decide) (skip l2 (by decide) (skip l1 (by decide) (skip (by decide) (by decide) (skip (by decide) (by decide) (whole l0)))))))
  have e7 : bits w 15 11 ≠ 0 := apart (a := 5) (m := 6) (by decide) e4 (by decide)
  have e8 : bits w 15 11 ≠ 32 := apart (a := 5) (m := 6) (by decide) e4 (by decide)
  have e9 : bits w 0 5 ≠ 1 := apart (a := 0) (m := 2) (by decide) e0 (by decide)
  have e10 : bits w 18 8 ≠ 12 := apart (a := 2) (m := 6) (by decide) e4 (by decide)
  rw [decodeRow_26 e5]
  simp [decodeGfx, e0, e1, e2, e3, e4, e5, e6, e7, e8, e9, e10]

theorem RoundTrip.texl (c d a t : Nat) : RoundTrip.Statement (.texl c d a t) := by
  intro _ hk
  have wf : Instr.WF (.texl c d a t) := of_decide_eq_true hk
  refine decode_of_row ?_ hk
  change decodeRow (0x68600000 + c * 2147483648 + d * 32768 + a * 1024 + t * 4) = _
  simp only [Instr.WF] at wf
  obtain ⟨l0, l1, l2, l3⟩ := wf
  obtain ⟨w, hw⟩ : ∃ w, w = 0 + 2 ^ 2 * (t + 2 ^ 8 * (a + 2 ^ 5 * (d + 2 ^ 5 * (6 + 2 ^ 6 * (26 + 2 ^ 5 * (c)))))) := ⟨_, rfl⟩
  have he : 0x68600000 + c * 2147483648 + d * 32768 + a * 1024 + t * 4 = w := by rw [hw]; simp only [Nat.mul_add, ← Nat.mul_assoc, Nat.reducePow, Nat.reduceMul]; omega
  rw [he]
  have e0 : bits w 0 2 = 0 := hw ▸ (hit (by decide))
  have e1 : bits w 2 8 = t := hw ▸ (skip (by decide) (by decide) (hit l3))
  have e2 : bits w 10 5 = a := hw ▸ (skip (by decide) (by decide) (skip l3 (by decide) (hit l2)))
  have e3 : bits w 15 5 = d := hw ▸ (skip (by decide) (by decide) (skip l3 (by decide) (skip l2 (by decide) (hit l1))))
  have e4 : bits w 20 6 = 6 := hw ▸ (skip (by decide) (by decide) (skip l3 (by decide) (skip l2 (by decide) (skip l1 (by decide) (hit (by decide))))))
  have e5 : bits w 26 5 = 26 := hw ▸ (skip (by decide) (by decide) (skip l3 (by decide) (skip l2 (by decide) (skip l1 (by decide) (skip (by decide) (by decide) (hit (by decide)))))))
  have e6 : bits w 31 1 = c := hw ▸ (skip (by decide) (by decide) (skip l3 (by decide) (skip l2 (by decide) (skip l1 (by decide) (skip (by decide) (by decide) (skip (by decide) (by decide) (whole l0)))))))
  have e7 : bits w 15 11 ≠ 0 := apart (a := 5) (m := 6) (by decide) e4 (by decide)
  have e8 : bits w 15 11 ≠ 32 := apart (a := 5) (m := 6) (by decide) e4 (by decide)
  have e9 : bits w 0 5 ≠ 1 := apart (a := 0) (m := 2) (by decide) e0 (by decide)
  have e10 : bits w 18 8 ≠ 12 := apart (a := 2) (m := 6) (by decide) e4 (by decide)
  rw [decodeRow_26 e5]
  simp [decodeGfx, e0, e1, e2, e3, e4, e5, e6, e7, e8, e9, e10]

theorem RoundTrip.texg (c d a t : Nat) : RoundTrip.Statement (.texg c d a t) := by
  intro _ hk
  have wf : Instr.WF (.texg c d a t) := of_decide_eq_true hk
  refine decode_of_row ?_ hk
  change decodeRow (0x68700000 + c * 2147483648 + d * 32768 + a * 1024 + t * 4) = _
  simp only [Instr.WF] at wf
  obtain ⟨l0, l1, l2, l3⟩ := wf
  obtain ⟨w, hw⟩ : ∃ w, w = 0 + 2 ^ 2 * (t + 2 ^ 8 * (a + 2 ^ 5 * (d + 2 ^ 5 * (7 + 2 ^ 6 * (26 + 2 ^ 5 * (c)))))) := ⟨_, rfl⟩
  have he : 0x68700000 + c * 2147483648 + d * 32768 + a * 1024 + t * 4 = w := by rw [hw]; simp only [Nat.mul_add, ← Nat.mul_assoc, Nat.reducePow, Nat.reduceMul]; omega
  rw [he]
  have e0 : bits w 0 2 = 0 := hw ▸ (hit (by decide))
  have e1 : bits w 2 8 = t := hw ▸ (skip (by decide) (by decide) (hit l3))
  have e2 : bits w 10 5 = a := hw ▸ (skip (by decide) (by decide) (skip l3 (by decide) (hit l2)))
  have e3 : bits w 15 5 = d := hw ▸ (skip (by decide) (by decide) (skip l3 (by decide) (skip l2 (by decide) (hit l1))))
  have e4 : bits w 20 6 = 7 := hw ▸ (skip (by decide) (by decide) (skip l3 (by decide) (skip l2 (by decide) (skip l1 (by decide) (hit (by decide))))))
  have e5 : bits w 26 5 = 26 := hw ▸ (skip (by decide) (by decide) (skip l3 (by decide) (skip l2 (by decide) (skip l1 (by decide) (skip (by decide) (by decide) (hit (by decide)))))))
  have e6 : bits w 31 1 = c := hw ▸ (skip (by decide) (by decide) (skip l3 (by decide) (skip l2 (by decide) (skip l1 (by decide) (skip (by decide) (by decide) (skip (by decide) (by decide) (whole l0)))))))
  have e7 : bits w 15 11 ≠ 0 := apart (a := 5) (m := 6) (by decide) e4 (by decide)
  have e8 : bits w 15 11 ≠ 32 := apart (a := 5) (m := 6) (by decide) e4 (by decide)
  have e9 : bits w 0 5 ≠ 1 := apart (a := 0) (m := 2) (by decide) e0 (by decide)
  have e10 : bits w 18 8 ≠ 12 := apart (a := 2) (m := 6) (by decide) e4 (by decide)
  rw [decodeRow_26 e5]
  simp [decodeGfx, e0, e1, e2, e3, e4, e5, e6, e7, e8, e9, e10]

theorem RoundTrip.bflush (c a : Nat) : RoundTrip.Statement (.bflush c a) := by
  intro _ hk
  have wf : Instr.WF (.bflush c a) := of_decide_eq_true hk
  refine decode_of_row ?_ hk
  change decodeRow (0x68800000 + c * 2147483648 + a * 1024) = _
  simp only [Instr.WF] at wf
  obtain ⟨l0, l1⟩ := wf
  obtain ⟨w, hw⟩ : ∃ w, w = 0 + 2 ^ 3 * (0 + 2 ^ 2 * (0 + 2 ^ 5 * (a + 2 ^ 5 * (0 + 2 ^ 5 * (8 + 2 ^ 6 * (26 + 2 ^ 5 * (c))))))) := ⟨_, rfl⟩
  have he : 0x68800000 + c * 2147483648 + a * 1024 = w := by rw [hw]; simp only [Nat.mul_add, ← Nat.mul_assoc, Nat.reducePow, Nat.reduceMul]; omega
  rw [he]
  have e0 : bits w 0 3 = 0 := hw ▸ (hit (by decide))
  have e1 : bits w 3 2 = 0 := hw ▸ (skip (by decide) (by decide) (hit (by decide)))
  have e2 : bits w 5 5 = 0 := hw ▸ (skip (by decide) (by decide) (skip (by decide) (by decide) (hit (by decide))))
  have e3 : bits w 10 5 = a := hw ▸ (skip (by decide) (by decide) (skip (by decide) (by decide) (skip (by decide) (by decide) (hit l1))))
  have e4 : bits w 15 5 = 0 := hw ▸ (skip (by decide) (by decide) (skip (by decide) (by decide) (skip (by decide) (by decide) (skip l1 (by decide) (hit (by decide))))))
  have e5 : bits w 20 6 = 8 := hw ▸ (skip (by decide) (by decide) (skip (by decide) (by decide) (skip (by decide) (by decide) (skip l1 (by decide) (skip (by decide) (by decide) (hit (by decide)))))))
  have e6 : bits w 26 5 = 26 := hw ▸ (skip (by decide) (by decide) (skip (by decide) (by decide) (skip (by decide) (by decide) (skip l1 (by decide) (skip (by decide) (by decide) (skip (by decide) (by decide) (hit (by decide))))))))
  have e7 : bits w 31 1 = c := hw ▸ (skip (by decide) (by decide) (skip (by decide) (by decide) (skip (by decide) (by decide) (skip l1 (by decide) (skip (by decide) (by decide) (skip (by decide) (by decide) (skip (by decide) (by decide) (whole l0))))))))
  have e8 : bits w 15 11 ≠ 0 := apart (a := 5) (m := 6) (by decide) e5 (by decide)
  have e9 : bits w 15 11 ≠ 32 := apart (a := 5) (m := 6) (by decide) e5 (by decide)
  have e10 : bits w 0 5 ≠ 1 := apart (a := 0) (m := 3) (by decide) e0 (by decide)
  have e11 : bits w 18 8 ≠ 12 := apart (a := 2) (m := 6) (by decide) e5 (by decide)
  have e12 : bits w 0 10 = 0 := (bits_join e0 (bits_join e1 e2))
  have e13 : bits w 15 11 = 256 := (bits_join e4 e5)
  rw [decodeRow_26 e6]
  simp [decodeGfx, e0, e1, e2, e3, e4, e5, e6, e7, e8, e9, e10, e11, e12, e13]

theorem RoundTrip.bflushAll (c : Nat) : RoundTrip.Statement (.bflushAll c) := by
  intro _ hk
  have wf : Instr.WF (.bflushAll c) := of_decide_eq_true hk
  refine decode_of_row ?_ hk
  change decodeRow (0x68800001 + c * 2147483648) = _
  simp only [Instr.WF] at wf
  have l0 := wf
  obtain ⟨w, hw⟩ : ∃ w, w = 1 + 2 ^ 3 * (0 + 2 ^ 2 * (0 + 2 ^ 5 * (0 + 2 ^ 5 * (0 + 2 ^ 5 * (8 + 2 ^ 6 * (26 + 2 ^ 5 * (c))))))) := ⟨_, rfl⟩
  have he : 0x68800001 + c * 2147483648 = w := by rw [hw]; simp only [Nat.mul_add, ← Nat.mul_assoc, Nat.reducePow, Nat.reduceMul]; omega
  rw [he]
  have e0 : bits w 0 3 = 1 := hw ▸ (hit (by decide))
  have e1 : bits w 3 2 = 0 := hw ▸ (skip (by decide) (by decide) (hit (by decide)))
  have e2 : bits w 5 5 = 0 := hw ▸ (skip (by decide) (by decide) (skip (by decide) (by decide) (hit (by decide))))
  have e3 : bits w 10 5 = 0 := hw ▸ (skip (by decide) (by decide) (skip (by decide) (by decide) (skip (by decide) (by decide) (hit (by decide)))))
  have e4 : bits w 15 5 = 0 := hw ▸ (skip (by decide) (by decide) (skip (by decide) (by decide) (skip (by decide) (by decide) (skip (by decide) (by decide) (hit (by decide))))))
  have e5 : bits w 20 6 = 8 := hw ▸ (skip (by decide) (by decide) (skip (by decide) (by decide) (skip (by decide) (by decide) (skip (by decide) (by decide) (skip (by decide) (by decide) (hit (by decide)))))))
  have e6 : bits w 26 5 = 26 := hw ▸ (skip (by decide) (by decide) (skip (by decide) (by decide) (skip (by decide) (by decide) (skip (by decide) (by decide) (skip (by decide) (by decide) (skip (by decide) (by decide) (hit (by decide))))))))
  have e7 : bits w 31 1 = c := hw ▸ (skip (by decide) (by decide) (skip (by decide) (by decide) (skip (by decide) (by decide) (skip (by decide) (by decide) (skip (by decide) (by decide) (skip (by decide) (by decide) (skip (by decide) (by decide) (whole l0))))))))
  have e8 : bits w 15 11 ≠ 0 := apart (a := 5) (m := 6) (by decide) e5 (by decide)
  have e9 : bits w 0 10 ≠ 0 := apart (a := 0) (m := 3) (by decide) e0 (by decide)
  have e10 : bits w 0 5 ≠ 0 := apart (a := 0) (m := 3) (by decide) e0 (by decide)
  have e11 : bits w 18 8 ≠ 12 := apart (a := 2) (m := 6) (by decide) e5 (by decide)
  have e12 : bits w 0 26 = 8388609 := (bits_join e0 (bits_join e1 (bits_join e2 (bits_join e3 (bits_join e4 e5)))))
  rw [decodeRow_26 e6]
  simp [decodeGfx, e0, e1, e2, e3, e4, e5, e6, e7, e8, e9, e10, e11, e12]

theorem RoundTrip.enq (c q a b : Nat) : RoundTrip.Statement (.enq c q a b) := by
  intro _ hk
  have wf : Instr.WF (.enq c q a b) := of_decide_eq_true hk
  refine decode_of_row ?_ hk
  change decodeRow (0x6C000000 + c * 2147483648 + q * 32768 + a * 1024 + b * 32) = _
  simp only [Instr.WF] at wf
  obtain ⟨l0, l1, l2, l3⟩ := wf
  obtain ⟨w, hw⟩ : ∃ w, w = 0 + 2 ^ 3 * (0 + 2 ^ 2 * (b + 2 ^ 5 * (a + 2 ^ 5 * (q + 2 ^ 3 * (0 + 2 ^ 2 * (0 + 2 ^ 6 * (27 + 2 ^ 5 * (c)))))))) := ⟨_, rfl⟩
  have he : 0x6C000000 + c * 2147483648 + q * 32768 + a * 1024 + b * 32 = w := by rw [hw]; simp only [Nat.mul_add, ← Nat.mul_assoc, Nat.reducePow, Nat.reduceMul]; omega
  rw [he]
  have e0 : bits w 0 3 = 0 := hw ▸ (hit (by decide))
  have e1 : bits w 3 2 = 0 := hw ▸ (skip (by decide) (by decide) (hit (by decide)))
  have e2 : bits w 5 5 = b := hw ▸ (skip (by decide) (by decide) (skip (by decide) (by decide) (hit l3)))
  have e3 : bits w 10 5 = a := hw ▸ (skip (by decide) (by decide) (skip (by decide) (by decide) (skip l3 (by decide) (hit l2))))
  have e4 : bits w 15 3 = q := hw ▸ (skip (by decide) (by decide) (skip (by decide) (by decide) (skip l3 (by decide) (skip l2 (by decide) (hit l1)))))
  have e5 : bits w 18 2 = 0 := hw ▸ (skip (by decide) (by decide) (skip (by decide) (by decide) (skip l3 (by decide) (skip l2 (by decide) (skip l1 (by decide) (hit (by decide)))))))
  have e6 : bits w 20 6 = 0 := hw ▸ (skip (by decide) (by decide) (skip (by decide) (by decide) (skip l3 (by decide) (skip l2 (by decide) (skip l1 (by decide) (skip (by decide) (by decide) (hit (by decide))))))))
  have e7 : bits w 26 5 = 27 := hw ▸ (skip (by decide) (by decide) (skip (by decide) (by decide) (skip l3 (by decide) (skip l2 (by decide) (skip l1 (by decide) (skip (by decide) (by decide) (skip (by decide) (by decide) (hit (by decide)))))))))
  have e8 : bits w 31 1 = c := hw ▸ (skip (by decide) (by decide) (skip (by decide) (by decide) (skip l3 (by decide) (skip l2 (by decide) (skip l1 (by decide) (skip (by decide) (by decide) (skip (by decide) (by decide) (skip (by decide) (by decide) (whole l0)))))))))
  have e9 : bits w 0 5 = 0 := (bits_join e0 e1)
  have e10 : bits w 18 8 = 0 := (bits_join e5 e6)
  rw [decodeRow_27 e7]
  simp [decodeLaunch, e0, e1, e2, e3, e4, e5, e6, e7, e8, e9, e10]

theorem RoundTrip.rgrab (c d i : Nat) : RoundTrip.Statement (.rgrab c d i) := by
  intro _ hk
  have wf : Instr.WF (.rgrab c d i) := of_decide_eq_true hk
  refine decode_of_row ?_ hk
  change decodeRow (0x6C100000 + c * 2147483648 + d * 32768 + i) = _
  simp only [Instr.WF] at wf
  obtain ⟨l0, l1, l2⟩ := wf
  obtain ⟨w, hw⟩ : ∃ w, w = i + 2 ^ 4 * (0 + 2 ^ 1 * (0 + 2 ^ 5 * (0 + 2 ^ 5 * (d + 2 ^ 5 * (1 + 2 ^ 6 * (27 + 2 ^ 5 * (c))))))) := ⟨_, rfl⟩
  have he : 0x6C100000 + c * 2147483648 + d * 32768 + i = w := by rw [hw]; simp only [Nat.mul_add, ← Nat.mul_assoc, Nat.reducePow, Nat.reduceMul]; omega
  rw [he]
  have e0 : bits w 0 4 = i := hw ▸ (hit l2)
  have e1 : bits w 4 1 = 0 := hw ▸ (skip l2 (by decide) (hit (by decide)))
  have e2 : bits w 5 5 = 0 := hw ▸ (skip l2 (by decide) (skip (by decide) (by decide) (hit (by decide))))
  have e3 : bits w 10 5 = 0 := hw ▸ (skip l2 (by decide) (skip (by decide) (by decide) (skip (by decide) (by decide) (hit (by decide)))))
  have e4 : bits w 15 5 = d := hw ▸ (skip l2 (by decide) (skip (by decide) (by decide) (skip (by decide) (by decide) (skip (by decide) (by decide) (hit l1)))))
  have e5 : bits w 20 6 = 1 := hw ▸ (skip l2 (by decide) (skip (by decide) (by decide) (skip (by decide) (by decide) (skip (by decide) (by decide) (skip l1 (by decide) (hit (by decide)))))))
  have e6 : bits w 26 5 = 27 := hw ▸ (skip l2 (by decide) (skip (by decide) (by decide) (skip (by decide) (by decide) (skip (by decide) (by decide) (skip l1 (by decide) (skip (by decide) (by decide) (hit (by decide))))))))
  have e7 : bits w 31 1 = c := hw ▸ (skip l2 (by decide) (skip (by decide) (by decide) (skip (by decide) (by decide) (skip (by decide) (by decide) (skip l1 (by decide) (skip (by decide) (by decide) (skip (by decide) (by decide) (whole l0))))))))
  have e8 : bits w 18 8 ≠ 0 := apart (a := 2) (m := 6) (by decide) e5 (by decide)
  have e9 : bits w 4 11 = 0 := (bits_join e1 (bits_join e2 e3))
  rw [decodeRow_27 e6]
  simp [decodeLaunch, e0, e1, e2, e3, e4, e5, e6, e7, e8, e9]

theorem RoundTrip.rgrabSet (c a b i : Nat) : RoundTrip.Statement (.rgrabSet c a b i) := by
  intro _ hk
  have wf : Instr.WF (.rgrabSet c a b i) := of_decide_eq_true hk
  refine decode_of_row ?_ hk
  change decodeRow (0x6C100010 + c * 2147483648 + a * 1024 + b * 32 + i) = _
  simp only [Instr.WF] at wf
  obtain ⟨l0, l1, l2, l3⟩ := wf
  obtain ⟨w, hw⟩ : ∃ w, w = i + 2 ^ 4 * (1 + 2 ^ 1 * (b + 2 ^ 5 * (a + 2 ^ 5 * (0 + 2 ^ 5 * (1 + 2 ^ 6 * (27 + 2 ^ 5 * (c))))))) := ⟨_, rfl⟩
  have he : 0x6C100010 + c * 2147483648 + a * 1024 + b * 32 + i = w := by rw [hw]; simp only [Nat.mul_add, ← Nat.mul_assoc, Nat.reducePow, Nat.reduceMul]; omega
  rw [he]
  have e0 : bits w 0 4 = i := hw ▸ (hit l3)
  have e1 : bits w 4 1 = 1 := hw ▸ (skip l3 (by decide) (hit (by decide)))
  have e2 : bits w 5 5 = b := hw ▸ (skip l3 (by decide) (skip (by decide) (by decide) (hit l2)))
  have e3 : bits w 10 5 = a := hw ▸ (skip l3 (by decide) (skip (by decide) (by decide) (skip l2 (by decide) (hit l1))))
  have e4 : bits w 15 5 = 0 := hw ▸ (skip l3 (by decide) (skip (by decide) (by decide) (skip l2 (by decide) (skip l1 (by decide) (hit (by decide))))))
  have e5 : bits w 20 6 = 1 := hw ▸ (skip l3 (by decide) (skip (by decide) (by decide) (skip l2 (by decide) (skip l1 (by decide) (skip (by decide) (by decide) (hit (by decide)))))))
  have e6 : bits w 26 5 = 27 := hw ▸ (skip l3 (by decide) (skip (by decide) (by decide) (skip l2 (by decide) (skip l1 (by decide) (skip (by decide) (by decide) (skip (by decide) (by decide) (hit (by decide))))))))
  have e7 : bits w 31 1 = c := hw ▸ (skip l3 (by decide) (skip (by decide) (by decide) (skip l2 (by decide) (skip l1 (by decide) (skip (by decide) (by decide) (skip (by decide) (by decide) (skip (by decide) (by decide) (whole l0))))))))
  have e8 : bits w 0 5 ≠ 0 := apart (a := 4) (m := 1) (by decide) e1 (by decide)
  have e9 : bits w 4 11 ≠ 0 := apart (a := 0) (m := 1) (by decide) e1 (by decide)
  have e10 : bits w 15 11 = 32 := (bits_join e4 e5)
  rw [decodeRow_27 e6]
  simp [decodeLaunch, e0, e1, e2, e3, e4, e5, e6, e7, e8, e9, e10]

theorem RoundTrip.sread (c d k : Nat) : RoundTrip.Statement (.sread c d k) := by
  intro _ hk
  have wf : Instr.WF (.sread c d k) := of_decide_eq_true hk
  refine decode_of_row ?_ hk
  change decodeRow (0x6C200000 + c * 2147483648 + d * 32768 + k) = _
  simp only [Instr.WF] at wf
  obtain ⟨l0, l1, l2, _x0⟩ := wf
  obtain ⟨w, hw⟩ : ∃ w, w = k + 2 ^ 5 * (0 + 2 ^ 5 * (0 + 2 ^ 5 * (d + 2 ^ 5 * (2 + 2 ^ 6 * (27 + 2 ^ 5 * (c)))))) := ⟨_, rfl⟩
  have he : 0x6C200000 + c * 2147483648 + d * 32768 + k = w := by rw [hw]; simp only [Nat.mul_add, ← Nat.mul_assoc, Nat.reducePow, Nat.reduceMul]; omega
  rw [he]
  have e0 : bits w 0 5 = k := hw ▸ (hit l2)
  have e1 : bits w 5 5 = 0 := hw ▸ (skip l2 (by decide) (hit (by decide)))
  have e2 : bits w 10 5 = 0 := hw ▸ (skip l2 (by decide) (skip (by decide) (by decide) (hit (by decide))))
  have e3 : bits w 15 5 = d := hw ▸ (skip l2 (by decide) (skip (by decide) (by decide) (skip (by decide) (by decide) (hit l1))))
  have e4 : bits w 20 6 = 2 := hw ▸ (skip l2 (by decide) (skip (by decide) (by decide) (skip (by decide) (by decide) (skip l1 (by decide) (hit (by decide))))))
  have e5 : bits w 26 5 = 27 := hw ▸ (skip l2 (by decide) (skip (by decide) (by decide) (skip (by decide) (by decide) (skip l1 (by decide) (skip (by decide) (by decide) (hit (by decide)))))))
  have e6 : bits w 31 1 = c := hw ▸ (skip l2 (by decide) (skip (by decide) (by decide) (skip (by decide) (by decide) (skip l1 (by decide) (skip (by decide) (by decide) (skip (by decide) (by decide) (whole l0)))))))
  have e7 : bits w 18 8 ≠ 0 := apart (a := 2) (m := 6) (by decide) e4 (by decide)
  have e8 : bits w 15 11 ≠ 32 := apart (a := 5) (m := 6) (by decide) e4 (by decide)
  have e9 : bits w 5 10 = 0 := (bits_join e1 e2)
  rw [decodeRow_27 e5]
  simp [decodeLaunch, e0, e1, e2, e3, e4, e5, e6, e7, e8, e9]

theorem RoundTrip.time (c d : Nat) : RoundTrip.Statement (.time c d) := by
  intro _ hk
  have wf : Instr.WF (.time c d) := of_decide_eq_true hk
  refine decode_of_row ?_ hk
  change decodeRow (0x6C300000 + c * 2147483648 + d * 32768) = _
  simp only [Instr.WF] at wf
  obtain ⟨l0, l1⟩ := wf
  obtain ⟨w, hw⟩ : ∃ w, w = 0 + 2 ^ 3 * (0 + 2 ^ 2 * (0 + 2 ^ 5 * (0 + 2 ^ 5 * (d + 2 ^ 5 * (3 + 2 ^ 6 * (27 + 2 ^ 5 * (c))))))) := ⟨_, rfl⟩
  have he : 0x6C300000 + c * 2147483648 + d * 32768 = w := by rw [hw]; simp only [Nat.mul_add, ← Nat.mul_assoc, Nat.reducePow, Nat.reduceMul]; omega
  rw [he]
  have e0 : bits w 0 3 = 0 := hw ▸ (hit (by decide))
  have e1 : bits w 3 2 = 0 := hw ▸ (skip (by decide) (by decide) (hit (by decide)))
  have e2 : bits w 5 5 = 0 := hw ▸ (skip (by decide) (by decide) (skip (by decide) (by decide) (hit (by decide))))
  have e3 : bits w 10 5 = 0 := hw ▸ (skip (by decide) (by decide) (skip (by decide) (by decide) (skip (by decide) (by decide) (hit (by decide)))))
  have e4 : bits w 15 5 = d := hw ▸ (skip (by decide) (by decide) (skip (by decide) (by decide) (skip (by decide) (by decide) (skip (by decide) (by decide) (hit l1)))))
  have e5 : bits w 20 6 = 3 := hw ▸ (skip (by decide) (by decide) (skip (by decide) (by decide) (skip (by decide) (by decide) (skip (by decide) (by decide) (skip l1 (by decide) (hit (by decide)))))))
  have e6 : bits w 26 5 = 27 := hw ▸ (skip (by decide) (by decide) (skip (by decide) (by decide) (skip (by decide) (by decide) (skip (by decide) (by decide) (skip l1 (by decide) (skip (by decide) (by decide) (hit (by decide))))))))
  have e7 : bits w 31 1 = c := hw ▸ (skip (by decide) (by decide) (skip (by decide) (by decide) (skip (by decide) (by decide) (skip (by decide) (by decide) (skip l1 (by decide) (skip (by decide) (by decide) (skip (by decide) (by decide) (whole l0))))))))
  have e8 : bits w 18 8 ≠ 0 := apart (a := 2) (m := 6) (by decide) e5 (by decide)
  have e9 : bits w 15 11 ≠ 32 := apart (a := 5) (m := 6) (by decide) e5 (by decide)
  have e10 : bits w 0 15 = 0 := (bits_join e0 (bits_join e1 (bits_join e2 e3)))
  rw [decodeRow_27 e6]
  simp [decodeLaunch, e0, e1, e2, e3, e4, e5, e6, e7, e8, e9, e10]

theorem RoundTrip.energy (c d : Nat) : RoundTrip.Statement (.energy c d) := by
  intro _ hk
  have wf : Instr.WF (.energy c d) := of_decide_eq_true hk
  refine decode_of_row ?_ hk
  change decodeRow (0x6C400000 + c * 2147483648 + d * 32768) = _
  simp only [Instr.WF] at wf
  obtain ⟨l0, l1⟩ := wf
  obtain ⟨w, hw⟩ : ∃ w, w = 0 + 2 ^ 3 * (0 + 2 ^ 2 * (0 + 2 ^ 5 * (0 + 2 ^ 5 * (d + 2 ^ 5 * (4 + 2 ^ 6 * (27 + 2 ^ 5 * (c))))))) := ⟨_, rfl⟩
  have he : 0x6C400000 + c * 2147483648 + d * 32768 = w := by rw [hw]; simp only [Nat.mul_add, ← Nat.mul_assoc, Nat.reducePow, Nat.reduceMul]; omega
  rw [he]
  have e0 : bits w 0 3 = 0 := hw ▸ (hit (by decide))
  have e1 : bits w 3 2 = 0 := hw ▸ (skip (by decide) (by decide) (hit (by decide)))
  have e2 : bits w 5 5 = 0 := hw ▸ (skip (by decide) (by decide) (skip (by decide) (by decide) (hit (by decide))))
  have e3 : bits w 10 5 = 0 := hw ▸ (skip (by decide) (by decide) (skip (by decide) (by decide) (skip (by decide) (by decide) (hit (by decide)))))
  have e4 : bits w 15 5 = d := hw ▸ (skip (by decide) (by decide) (skip (by decide) (by decide) (skip (by decide) (by decide) (skip (by decide) (by decide) (hit l1)))))
  have e5 : bits w 20 6 = 4 := hw ▸ (skip (by decide) (by decide) (skip (by decide) (by decide) (skip (by decide) (by decide) (skip (by decide) (by decide) (skip l1 (by decide) (hit (by decide)))))))
  have e6 : bits w 26 5 = 27 := hw ▸ (skip (by decide) (by decide) (skip (by decide) (by decide) (skip (by decide) (by decide) (skip (by decide) (by decide) (skip l1 (by decide) (skip (by decide) (by decide) (hit (by decide))))))))
  have e7 : bits w 31 1 = c := hw ▸ (skip (by decide) (by decide) (skip (by decide) (by decide) (skip (by decide) (by decide) (skip (by decide) (by decide) (skip l1 (by decide) (skip (by decide) (by decide) (skip (by decide) (by decide) (whole l0))))))))
  have e8 : bits w 18 8 ≠ 0 := apart (a := 2) (m := 6) (by decide) e5 (by decide)
  have e9 : bits w 15 11 ≠ 32 := apart (a := 5) (m := 6) (by decide) e5 (by decide)
  have e10 : bits w 0 15 = 0 := (bits_join e0 (bits_join e1 (bits_join e2 e3)))
  rw [decodeRow_27 e6]
  simp [decodeLaunch, e0, e1, e2, e3, e4, e5, e6, e7, e8, e9, e10]

theorem RoundTrip.energyQ (c d a : Nat) : RoundTrip.Statement (.energyQ c d a) := by
  intro _ hk
  have wf : Instr.WF (.energyQ c d a) := of_decide_eq_true hk
  refine decode_of_row ?_ hk
  change decodeRow (0x6C400010 + c * 2147483648 + d * 32768 + a * 1024) = _
  simp only [Instr.WF] at wf
  obtain ⟨l0, l1, l2⟩ := wf
  obtain ⟨w, hw⟩ : ∃ w, w = 0 + 2 ^ 3 * (2 + 2 ^ 2 * (0 + 2 ^ 5 * (a + 2 ^ 5 * (d + 2 ^ 5 * (4 + 2 ^ 6 * (27 + 2 ^ 5 * (c))))))) := ⟨_, rfl⟩
  have he : 0x6C400010 + c * 2147483648 + d * 32768 + a * 1024 = w := by rw [hw]; simp only [Nat.mul_add, ← Nat.mul_assoc, Nat.reducePow, Nat.reduceMul]; omega
  rw [he]
  have e0 : bits w 0 3 = 0 := hw ▸ (hit (by decide))
  have e1 : bits w 3 2 = 2 := hw ▸ (skip (by decide) (by decide) (hit (by decide)))
  have e2 : bits w 5 5 = 0 := hw ▸ (skip (by decide) (by decide) (skip (by decide) (by decide) (hit (by decide))))
  have e3 : bits w 10 5 = a := hw ▸ (skip (by decide) (by decide) (skip (by decide) (by decide) (skip (by decide) (by decide) (hit l2))))
  have e4 : bits w 15 5 = d := hw ▸ (skip (by decide) (by decide) (skip (by decide) (by decide) (skip (by decide) (by decide) (skip l2 (by decide) (hit l1)))))
  have e5 : bits w 20 6 = 4 := hw ▸ (skip (by decide) (by decide) (skip (by decide) (by decide) (skip (by decide) (by decide) (skip l2 (by decide) (skip l1 (by decide) (hit (by decide)))))))
  have e6 : bits w 26 5 = 27 := hw ▸ (skip (by decide) (by decide) (skip (by decide) (by decide) (skip (by decide) (by decide) (skip l2 (by decide) (skip l1 (by decide) (skip (by decide) (by decide) (hit (by decide))))))))
  have e7 : bits w 31 1 = c := hw ▸ (skip (by decide) (by decide) (skip (by decide) (by decide) (skip (by decide) (by decide) (skip l2 (by decide) (skip l1 (by decide) (skip (by decide) (by decide) (skip (by decide) (by decide) (whole l0))))))))
  have e8 : bits w 0 5 ≠ 0 := apart (a := 3) (m := 2) (by decide) e1 (by decide)
  have e9 : bits w 15 11 ≠ 32 := apart (a := 5) (m := 6) (by decide) e5 (by decide)
  have e10 : bits w 0 15 ≠ 0 := apart (a := 3) (m := 2) (by decide) e1 (by decide)
  have e11 : bits w 0 10 = 16 := (bits_join e0 (bits_join e1 e2))
  rw [decodeRow_27 e6]
  simp [decodeLaunch, e0, e1, e2, e3, e4, e5, e6, e7, e8, e9, e10, e11]

end Sys2Proof.Laws
end

