-- ==== Sys2Proof/Machine/RegisterReads.lean ====
section
/-!
DEFINITION. What the host and firmware read at the offsets of a die control block (R12, R13, R396, R476). A read changes nothing and no
row of the opcode table stands for one; these are the values that the registers of the maps hold.
-/
namespace Sys2Proof.Machine

/-- A one-bit field at its place. -/
def flag (b : Bool) (n : Nat) : Nat := if b then 2 ^ n else 0

/-- The words of a queue's registers (R394). -/
def Queue.readWord (q : Queue) (word : Nat) : Nat :=
  if word = 0 then flag q.enable 63 + flag q.pq 62 + flag q.enq 61 + q.lgsize.toNat * 2 ^ 56 + q.base.toNat
  else if word = 1 then q.read.toNat * 2 ^ 32 + q.write.toNat
  else if word = 2 then
    q.asid.toNat * 2 ^ 48 + q.vector.toNat * 2 ^ 40 + flag q.error 34 + flag q.destroying 33 + flag q.destroy 32 + q.part.toNat
  else 0

/-- A split register (R356). -/
def Split.read (x : Split) : Nat := flag x.busy 31 + flag x.refused 30 + x.ways.toNat * 2 ^ 16 + x.request.toNat

/-- The router gating register (R367). -/
def Die.gatingRead (d : Die) : Nat :=
  ((upto 0 24).map (fun r => flag (match (d.router r).state with
    | .gating => true
    | .gated => true
    | _ => false) (32 + r))).sum + d.forbid.toNat

/-- An entry of the tile table (R447). -/
def Die.tileRead (d : Die) (e : Nat) : Nat :=
  match tget d.tiles e with
  | none => 0
  | some t => match t.state with
    | .free => 0
    | .opened => t.refs * 2 ^ 16 + t.pass * 8 + 1
    | .sealed => t.refs * 2 ^ 16 + t.pass * 8 + 2
    | .scanning => t.refs * 2 ^ 16 + t.pass * 8 + 3
    | .binned => t.refs * 2 ^ 16 + t.pass * 8 + 4

/-- A bin's register (R448). -/
def Bin.read (b : Bin) : Nat := flag b.enable 63 + b.part.toNat * 2 ^ 60 + flag b.error 59 + flag b.pq 58 + b.template.toNat

/-- The bias flip register (R494). -/
def BiasReg.read (b : BiasReg) : Nat := flag b.busy 63 + flag b.refused 62 + flag b.target 61 + b.page.toNat

/-- The words of a port's registers (R521). -/
def Port.readWord (p : Port) (word : Nat) : Nat :=
  if word = 0 then
    flag p.enable 63 + flag p.up 62 + flag p.failed 61 + p.peer.toNat * 2 ^ 40 + p.farport.toNat * 2 ^ 32 + p.retrains.toNat
  else p.refused.toNat * 2 ^ 32 + p.resent.toNat

/-- A controller's lost-line status register (R369). -/
def LostTable.read (t : LostTable) : Nat := t.entered.toNat * 2 ^ 32 + flag t.overflow 31 + t.lines.length

/-- The package register block (R485): `go` reads 0 once the request is taken. -/
def PkgRegs.read (r : PkgRegs) (off : Nat) : Nat :=
  if off = 0x00 then r.asidbase
  else if off = 0x08 then r.ringbase + r.lgrec
  else if off = 0x10 then r.dropped.toNat * 2 ^ 32 + r.rwrite.toNat
  else if off = 0x18 then r.rread.toNat
  else if off = 0x20 then r.pte
  else if off = 0x28 then r.dest
  else if off = 0x30 then r.asid * 2 ^ 48 + r.vpn
  else if off = 0x38 then flag r.busy 63 + flag r.error 62 + r.code * 2
  else 0

/-- The words of a partition's power registers (R507). -/
def Partition.readWord (p : Partition) (word : Nat) : Nat :=
  if word = 0 then p.cap.toNat * 2 ^ 32 + p.k else (p.energy + p.charged) / 1000 % 2 ^ 32 * 2 ^ 32 + p.power.toNat

/-- Registers of die 0's block only (R476, R507, R522). -/
def State.readDie0 (s : State) (off : Nat) : Nat :=
  if 0x80000 ≤ off ∧ off < 0x80040 then s.pkg.regs.read (off - 0x80000)
  else if 0x90000 ≤ off ∧ off < 0x90080 then (s.part ((off - 0x90000) / 16)).readWord (off / 8 % 2)
  else if 0xB0000 ≤ off ∧ off < 0xB03F0 then
    let e := tgetD s.pkg.routes ((off - 0xB0000) / 8) (false, 0)
    flag e.1 63 + e.2.toNat
  else if off = 0xB0400 then s.pkg.self.toNat
  else 0

/-- An 8-byte read at an offset of a die's control block; where no register stands it reads zero (R13). -/
def State.readRegister (s : State) (d off : Nat) : Nat :=
  let x := s.die d
  if off % 8 ≠ 0 then 0
  else if off = 0 then x.fwcore.toNat * 2 ^ 32 + x.clusters.toNat
  else if 0x10000 ≤ off ∧ off < 0x12000 then (x.queue ((off - 0x10000) / 32)).readWord (off / 8 % 4)
  else if 0x20000 ≤ off ∧ off < 0x20040 then (tgetD x.split ((off - 0x20000) / 8) ⟨false, false, 0, 0⟩).read
  else if off = 0x20100 then x.gatingRead
  else if 0x30000 ≤ off ∧ off < 0x30040 then
    let p := (off - 0x30000) / 8
    x.inuse p * 2 ^ 32 + x.limitOf p
  else if 0x40000 ≤ off ∧ off < 0x48000 then x.tileRead ((off - 0x40000) / 8)
  else if 0x50000 ≤ off ∧ off < 0x58000 then (s.bin d ((off - 0x50000) / 8)).read
  else if 0x58000 ≤ off ∧ off < 0x58040 then (tgetD x.binAsid ((off - 0x58000) / 8) 0).toNat
  else if off = 0x60000 then x.bias.read
  else if 0x70000 ≤ off ∧ off < 0x70800 then (tgetD x.queueEnergy ((off - 0x70000) / 8) 0).toNat
  else if 0x70800 ≤ off ∧ off < 0x70840 then (tgetD x.binEnergy ((off - 0x70800) / 8) 0).toNat
  else if off = 0x70C00 then Config.energyCalibration.toNat
  else if 0xA0000 ≤ off ∧ off < 0xA0240 then (s.port (36 * d + (off - 0xA0000) / 16)).readWord (off / 8 % 2)
  else if 0x100000 ≤ off ∧ off < 0x114000 ∧ off % 0x1000 = 0x100 then (tgetD x.lost ((off - 0x100000) / 0x1000) ⟨[], [], 0, false⟩).read
  else if d = 0 then s.readDie0 off
  else 0

end Sys2Proof.Machine
end

