-- ==== Sys2Proof/Tests/Slice0.lean ====
section
/-!
SUPPORT. Tests: the checks on operand fields refuse ill-formed terms; words written out from the spec's encodings decode; a few results of
the spec's own tables and examples; and for each statement with hypotheses, states and operands that meet them.
-/
namespace Sys2Proof.Tests
open Sys2Proof Sys2Proof.Machine Sys2Proof.Safety

-- one theorem after another: the kernel's evaluations need no more threads
set_option Elab.async false

/-! ## Small states -/

/-- The low 8 lanes of a register of shape k with v l in lane l. -/
def vec (k : Shape) (v : Nat → Nat) : VReg :=
  { VReg.zero k 8 with lanes := (upto 0 8).map (fun l => elemN (v l)) }

/-- The bits of the FP32 interval from lo to hi. -/
def iv32 (lo hi : Nat) : Nat := lo + hi * 2 ^ 32

/-- Registers of the laboratory: v0 the lane numbers, v1 7, v2 the FP32 1.5 and v3 12, all P32; v8 a scratch address, v9 0x300000, v10
0x7F00_0000_0100 plus 128 for each lane, v11 7 and v12 12, all P64; v16 the interval [1, 2] and v17 [2, 4] of FP32; v20 an I64. -/
def labRegs : Tab VReg :=
  [(0, vec .p32 id), (1, vec .p32 (fun _ => 7)), (2, vec .p32 (fun _ => 0x3FC00000)), (3, vec .p32 (fun _ => 12)),
   (4, vec .p32 (fun _ => 0)), (8, vec .p64 (fun _ => scratchBase)), (9, vec .p64 (fun _ => 0x300000)),
   (10, vec .p64 (fun l => 0x200000 + 128 * l)), (11, vec .p64 (fun _ => 7)), (12, vec .p64 (fun _ => 12)),
   (16, vec .i32 (fun _ => iv32 0x3F800000 0x40000000)), (17, vec .i32 (fun _ => iv32 0x40000000 0x40800000)),
   (20, vec .i64 (fun _ => 0))]

/-- The laboratory: one workgroup of one group of 8 lanes, privileged, about to issue a word, whose tables map every address to itself. -/
def base : State := State.reset.placeWord 0

/-- The laboratory with its group and its workgroup changed. -/
def labWith (f : Group → Group) (h : Workgroup → Workgroup) : State :=
  (base.modGroup 0 0 0 (fun g => f { g with regs := labRegs })).modWg 0 0
    (fun w => h { w with scratchBytes := 1024, tiles := [Tile.zero], fifos := (upto 0 8).map (fun n => ⟨if n = 7 then 0 else 64, []⟩),
                         context := true })

/-- The laboratory. -/
def lab : State := labWith id id

/-- The access slice of the laboratory issues, with the registers x. -/
def labSlice (x : List W64) : State :=
  let s := labWith id (fun w => { w with slice := { w.slice with live := true, x := x } })
  { s with cur := { s.cur with who := { s.cur.who with grp := 16 }, mask := 0, pc := 0x300000 / 4 } }

/-! ## What a witness is -/

/-- The context that issues i at s. -/
def ctxOf (i : Instr) (s : State) : Ctx :=
  (s.ctx (s.uses i).guard).getD ⟨s.cur.who, Workgroup.start 0 0 0 0 none 0 0 0 0 0 0 [] [], Group.start 0 0 0 [], Group.start 0 0 0 [], [], [], 0, []⟩

/-- Every part of `Ready`, decided. -/
def readyB (i : Instr) (s : State) : Bool :=
  let u := s.uses i
  let c := ctxOf i s
  !s.isSlice && (s.ctx u.guard).isSome && (!u.priv || c.wg.priv) && !c.busy u && !c.freeHeld u &&
    (!(decide (u.cls = .m) || decide (u.cls = .x)) || !s.acqHeld c) && decide (c.earlyGuard u s.cycle = [] ∧ c.earlyReads u s.cycle = []) &&
    (c.failedRead u).isNone && decide (c.act ≠ [])

theorem ready_of {i : Instr} {s : State} (h : readyB i s = true) : Ready i (ctxOf i s) s := by
  simp only [readyB, Bool.and_eq_true, Bool.not_eq_true', Bool.or_eq_true, decide_eq_true_eq, Option.isNone_iff_eq_none] at h
  obtain ⟨⟨⟨⟨⟨⟨⟨⟨h1, h2⟩, h3⟩, h4⟩, h5⟩, h6⟩, h7⟩, h8⟩, h9⟩ := h
  refine ⟨h1, ?_, ?_, h4, h5, ?_, h7, h8, h9⟩
  · obtain ⟨c, hc⟩ := Option.isSome_iff_exists.mp h2
    simp [ctxOf, hc]
  · intro hp
    rcases h3 with h3 | h3
    · simp [hp] at h3
    · exact h3
  · intro hp
    rcases h6 with h6 | h6
    · rcases hp with hp | hp <;> simp [hp] at h6
    · exact h6

/-- At s some context issues i, meets no check at issue, and has the property p. -/
def Meets (i : Instr) (s : State) (p : Ctx → Prop) : Prop := ∃ c, Ready i c s ∧ p c

theorem meets {i : Instr} {s : State} {p : Ctx → Prop} (h : readyB i s = true) (hp : p (ctxOf i s)) : Meets i s p := ⟨_, ready_of h, hp⟩

/-- Sources that are points of neither width are points of none. -/
theorem not_points {c : Ctx} {regs : List Nat} (h : ¬ Points c regs 32 ∧ ¬ Points c regs 64) : ¬ ∃ w, Points c regs w := by
  rintro ⟨w, hw⟩
  rcases hw.1 with rfl | rfl
  · exact h.1 hw
  · exact h.2 hw

/-- The slice that issues at s. -/
def sliceOf (s : State) : Slice := (s.curWg.map (·.slice)).getD Slice.start

/-- Every part of `SliceReady`, decided. -/
def sliceB (i : Instr) (s : State) : Bool :=
  let u := s.uses i
  s.isSlice && s.curWg.isSome && decide (u.chain = 0) && (u.reads ++ u.writes).all (fun r => match r with
    | .v n => decide (n < 16)
    | _ => true) && (sliceOf s).guard u.guard

theorem slice_of {i : Instr} {s : State} (h : sliceB i s = true) : SliceReady i (sliceOf s) s := by
  simp only [sliceB, Bool.and_eq_true, decide_eq_true_eq, List.all_eq_true] at h
  obtain ⟨⟨⟨⟨h1, h2⟩, h3⟩, h4⟩, h5⟩ := h
  refine ⟨h1, ?_, h3, ?_, h5⟩
  · obtain ⟨w, hw⟩ := Option.isSome_iff_exists.mp h2
    exact ⟨w, hw, by simp [sliceOf, hw]⟩
  · intro n hn
    simpa using h4 _ hn

/-- At s a slice issues i, and has the property p. -/
def SliceMeets (i : Instr) (s : State) (p : Slice → Prop) : Prop := ∃ x, SliceReady i x s ∧ p x

theorem slice_meets {i : Instr} {s : State} {p : Slice → Prop} (h : sliceB i s = true) (hp : p (sliceOf s)) : SliceMeets i s p :=
  ⟨_, slice_of h, hp⟩

/-- `Meets` and `SliceMeets`, decided. -/
theorem meetsD {i : Instr} {s : State} {p : Ctx → Prop} [∀ c, Decidable (p c)] (h : (readyB i s && decide (p (ctxOf i s))) = true) :
    Meets i s p := by
  simp only [Bool.and_eq_true, decide_eq_true_eq] at h
  exact meets h.1 h.2

theorem sliceD {i : Instr} {s : State} {p : Slice → Prop} [∀ x, Decidable (p x)] (h : (sliceB i s && decide (p (sliceOf s))) = true) :
    SliceMeets i s p := by
  simp only [Bool.and_eq_true, decide_eq_true_eq] at h
  exact slice_meets h.1 h.2

/-- Sources of two widths are of none. -/
theorem not_widths {c : Ctx} {regs : List Nat} (h : ¬ Widths c regs 32 ∧ ¬ Widths c regs 64) : ¬ ∃ w, Widths c regs w := by
  rintro ⟨w, hw⟩
  match regs, hw with
  | [], _ => exact h.1 (by simp [Widths])
  | a :: t, hw =>
    have ha := hw a (by simp)
    rcases hs : c.src.shape a <;> rw [hs] at ha <;> simp only [Shape.width] at ha <;> subst ha
    all_goals first
      | exact h.1 hw
      | exact h.2 hw

theorem meets_nowidth {i : Instr} {s : State} {regs : List Nat} (h : Meets i s (fun c => ¬ Widths c regs 32 ∧ ¬ Widths c regs 64)) :
    Meets i s (fun c => ¬ ∃ w, Widths c regs w) := h.imp (fun _ hc => ⟨hc.1, not_widths hc.2⟩)

theorem meets_nopoints {i : Instr} {s : State} {regs : List Nat} (h : Meets i s (fun c => ¬ Points c regs 32 ∧ ¬ Points c regs 64)) :
    Meets i s (fun c => ¬ ∃ w, Points c regs w) := h.imp (fun _ hc => ⟨hc.1, not_points hc.2⟩)

/-- At s some context issues i and has the property p; the checks accept every lane of its list, each at its place; and the state after them
has the property q. -/
def MeetsAt (i : Instr) (s : State) (k : Acc) (ls : Ctx → List Nat) (addr : Ctx → Nat → W64) (at_ : Nat → Place) (p : Ctx → Prop)
    (q : Ctx → State → Prop) : Prop :=
  ∃ c t, Ready i c s ∧ p c ∧ Accepted s c k (ls c) (addr c) at_ t ∧ q c t

/-- The places of a list of lanes, where the checks accept them. -/
def spots (s : State) (c : Ctx) (k : Acc) (ls : List Nat) (addr : Nat → W64) : List (Nat × Option Place) :=
  (s.places c.core c.wg k (ls.map (fun l => (l, addr l)))).1.map (fun r => (r.1, r.2.toOption))

theorem accepted_of {s : State} {c : Ctx} {k : Acc} {ls : List Nat} {addr : Nat → W64} {p : Nat → Place}
    (h : spots s c k ls addr = ls.map (fun l => (l, some (p l)))) :
    Accepted s c k ls addr p (s.places c.core c.wg k (ls.map (fun l => (l, addr l)))).2 := by
  have hm : ∀ (xs : List (Nat × Except Cause Place)) (ls : List Nat),
      xs.map (fun r => (r.1, r.2.toOption)) = ls.map (fun l => (l, some (p l))) → xs = ls.map (fun l => (l, .ok (p l))) := by
    intro xs
    induction xs with
    | nil => intro ls h; cases ls with
      | nil => rfl
      | cons a t => simp at h
    | cons x xs ih => intro ls h; cases ls with
      | nil => simp at h
      | cons a t =>
        simp only [List.map_cons, List.cons.injEq, Prod.mk.injEq] at h
        obtain ⟨⟨h1, h2⟩, h3⟩ := h
        obtain ⟨x1, x2⟩ := x
        cases x2 with
        | error e => simp [Except.toOption] at h2
        | ok v =>
          simp only [Except.toOption, Option.some.injEq] at h2
          dsimp only at h1 h2
          subst h1
          rw [h2, ih t h3]
          rfl
  exact Prod.ext (hm _ _ h) rfl

theorem meetsAtD {i : Instr} {s : State} {k : Acc} {ls : Ctx → List Nat} {addr : Ctx → Nat → W64} {at_ : Nat → Place} {p : Ctx → Prop}
    {q : Ctx → State → Prop} [∀ c, Decidable (p c)] [∀ c t, Decidable (q c t)]
    (h : (let c := ctxOf i s
      readyB i s && decide (p c) && decide (spots s c k (ls c) (addr c) = (ls c).map (fun l => (l, some (at_ l)))) &&
        decide (q c (s.places c.core c.wg k ((ls c).map (fun l => (l, addr c l)))).2)) = true) :
    MeetsAt i s k ls addr at_ p q := by
  simp only [Bool.and_eq_true, decide_eq_true_eq] at h
  exact ⟨_, _, ready_of h.1.1.1, h.1.1.2, accepted_of h.1.2, h.2⟩

/-- At s some context issues i and has the property p, and the checks refuse its lanes. -/
def MeetsRefused (i : Instr) (s : State) (k : Acc) (ls : Ctx → List Nat) (addr : Ctx → Nat → W64) (p : Ctx → Prop) : Prop :=
  ∃ c x t, Ready i c s ∧ p c ∧ Refused s c k (ls c) (addr c) x t

theorem meetsRefusedD {i : Instr} {s : State} {k : Acc} {ls : Ctx → List Nat} {addr : Ctx → Nat → W64} {p : Ctx → Prop} [∀ c, Decidable (p c)]
    (h : (let c := ctxOf i s
      readyB i s && decide (p c) && (accTrap (s.places c.core c.wg k ((ls c).map (fun l => (l, addr c l)))).1 (addr c)).isSome) = true) :
    MeetsRefused i s k ls addr p := by
  simp only [Bool.and_eq_true, decide_eq_true_eq] at h
  obtain ⟨x, hx⟩ := Option.isSome_iff_exists.mp h.2
  exact ⟨_, x, _, ready_of h.1.1, h.1.2, _, rfl, hx⟩

/-- A list of places that the checks gave, from what each lane has. -/
theorem places_eq {α : Type} : ∀ (xs : List (α × Except Cause Place)) (ys : List (α × Place)),
    xs.map (fun r => (r.1, r.2.toOption)) = ys.map (fun y => (y.1, some y.2)) → xs = ys.map (fun y => (y.1, .ok y.2)) := by
  intro xs
  induction xs with
  | nil => intro ys h; cases ys with
    | nil => rfl
    | cons a t => simp at h
  | cons x xs ih => intro ys h; cases ys with
    | nil => simp at h
    | cons a t =>
      simp only [List.map_cons, List.cons.injEq, Prod.mk.injEq] at h
      obtain ⟨⟨h1, h2⟩, h3⟩ := h
      obtain ⟨x1, x2⟩ := x
      obtain ⟨a1, a2⟩ := a
      cases x2 with
      | error e => simp [Except.toOption] at h2
      | ok v =>
        simp only [Except.toOption, Option.some.injEq] at h1 h2
        subst h1 h2
        rw [ih t h3]
        rfl

/-- The same of the records of granules. -/
theorem granules_eq {α β : Type} : ∀ (xs : List (β × List (α × Except Cause Place))) (ys : List (β × List (α × Place))),
    xs.map (fun x => (x.1, x.2.map (fun r => (r.1, r.2.toOption)))) = ys.map (fun y => (y.1, y.2.map (fun r => (r.1, some r.2)))) →
    xs = ys.map (fun y => (y.1, y.2.map (fun r => (r.1, .ok r.2)))) := by
  intro xs
  induction xs with
  | nil => intro ys h; cases ys with
    | nil => rfl
    | cons a t => simp at h
  | cons x xs ih => intro ys h; cases ys with
    | nil => simp at h
    | cons a t =>
      simp only [List.map_cons, List.cons.injEq, Prod.mk.injEq] at h
      obtain ⟨⟨h1, h2⟩, h3⟩ := h
      rw [ih t h3, List.map_cons, ← places_eq x.2 a.2 h2, ← h1]

/-- At s some context issues a granule word i and has the property p; the checks accept every record of its granules, each at its place. -/
def MeetsGran (i : Instr) (s : State) (k : AccKind) (o a d h : Nat) (gs : Ctx → List (Nat × Nat × Bool))
    (at_ : (Nat × Nat × Bool) → Nat → Place) (p : Ctx → Prop) (q : Ctx → State → Prop) : Prop :=
  ∃ c t, Ready i c s ∧ p c ∧ s.allGranPlaces c (Acc.plain k 1 33 false h) (addrOf a o 33 c) (c.src.shape d).rows (gs c) =
    ((gs c).map (fun g => (g, (upto 0 (c.src.shape d).rows).map (fun r => (g.2.1, .ok (at_ g r))))), t) ∧ q c t

theorem meetsGranD {i : Instr} {s : State} {k : AccKind} {o a d x : Nat} {gs : Ctx → List (Nat × Nat × Bool)}
    {at_ : (Nat × Nat × Bool) → Nat → Place}
    {p : Ctx → Prop} {q : Ctx → State → Prop} [∀ c, Decidable (p c)] [∀ c t, Decidable (q c t)]
    (h : (let c := ctxOf i s
      let r := s.allGranPlaces c (Acc.plain k 1 33 false x) (addrOf a o 33 c) (c.src.shape d).rows (gs c)
      readyB i s && decide (p c) && decide (r.1.map (fun x => (x.1, x.2.map (fun y => (y.1, y.2.toOption)))) =
          ((gs c).map (fun g => (g, (upto 0 (c.src.shape d).rows).map (fun n => (g.2.1, at_ g n))))).map (fun y => (y.1, y.2.map (fun z => (z.1, some z.2))))) &&
        decide (q c r.2)) = true) : MeetsGran i s k o a d x gs at_ p q := by
  simp only [Bool.and_eq_true, decide_eq_true_eq] at h
  obtain ⟨⟨⟨h1, h2⟩, h3⟩, h4⟩ := h
  refine ⟨_, _, ready_of h1, h2, ?_, h4⟩
  refine Prod.ext ?_ rfl
  refine (granules_eq _ _ h3).trans ?_
  simp only [List.map_map, Function.comp_def]

/-- At s some context issues word i and has the property p. -/
def MeetsIssue (i : Instr) (s : State) (p : Uses → Ctx → Prop) : Prop :=
  ∃ c, i.isWord = true ∧ s.isSlice = false ∧ s.ctx (s.uses i).guard = some c ∧ p (s.uses i) c

theorem meetsIssueD {i : Instr} {s : State} {p : Uses → Ctx → Prop} [∀ u c, Decidable (p u c)]
    (h : (i.isWord && !s.isSlice && (s.ctx (s.uses i).guard).isSome && decide (p (s.uses i) (ctxOf i s))) = true) : MeetsIssue i s p := by
  simp only [Bool.and_eq_true, Bool.not_eq_true', decide_eq_true_eq] at h
  obtain ⟨c, hc⟩ := Option.isSome_iff_exists.mp h.1.2
  have hx : ctxOf i s = c := by simp [ctxOf, hc]
  exact ⟨c, h.1.1.1, h.1.1.2, hc, hx ▸ h.2⟩

/-! ## Ill-formed terms are refused: one for each check -/

/-- No instruction of the list is well formed. -/
abbrev Refuses (is : List Instr) : Prop := is.all (fun i => !i.wf) = true

theorem test_wf_formats_0 :
    Refuses
      [.iadd ⟨2, 0, 0, 0, 0, 0, 0, 0⟩, .iadd ⟨0, 32, 0, 0, 0, 0, 0, 0⟩, .iadd ⟨0, 0, 32, 0, 0, 0, 0, 0⟩, .iadd ⟨0, 0, 0, 32, 0, 0, 0, 0⟩,
       .iadd ⟨0, 0, 0, 0, 2, 0, 0, 0⟩, .iadd ⟨0, 0, 0, 0, 0, 2, 0, 0⟩, .iadd ⟨0, 0, 0, 0, 0, 0, 8, 0⟩, .iadd ⟨0, 0, 0, 0, 0, 0, 0, 8⟩,
       .popc ⟨2, 0, 0, 0, 0, 0⟩, .popc ⟨0, 32, 0, 0, 0, 0⟩, .popc ⟨0, 0, 32, 0, 0, 0⟩, .popc ⟨0, 0, 0, 2, 0, 0⟩, .popc ⟨0, 0, 0, 0, 8, 0⟩,
       .popc ⟨0, 0, 0, 0, 0, 8⟩, .icmpEq ⟨2, 0, 0, 0, 0, 0, 0, 0⟩, .icmpEq ⟨0, 8, 0, 0, 0, 0, 0, 0⟩, .icmpEq ⟨0, 0, 32, 0, 0, 0, 0, 0⟩,
       .icmpEq ⟨0, 0, 0, 32, 0, 0, 0, 0⟩, .icmpEq ⟨0, 0, 0, 0, 2, 0, 0, 0⟩, .icmpEq ⟨0, 0, 0, 0, 0, 2, 0, 0⟩,
       .icmpEq ⟨0, 0, 0, 0, 0, 0, 8, 0⟩, .icmpEq ⟨0, 0, 0, 0, 0, 0, 0, 8⟩, .iaddi ⟨2, 0, 0, 0, 0, 0⟩, .iaddi ⟨0, 32, 0, 0, 0, 0⟩,
       .iaddi ⟨0, 0, 32, 0, 0, 0⟩, .iaddi ⟨0, 0, 0, 512, 0, 0⟩, .iaddi ⟨0, 0, 0, 0, 2, 0⟩, .iaddi ⟨0, 0, 0, 0, 0, 8⟩, .movi ⟨2, 0, 0, 0⟩,
       .movi ⟨0, 32, 0, 0⟩, .movi ⟨0, 0, 262144, 0⟩, .movi ⟨0, 0, 0, 8⟩, .fabs ⟨2, 0, 0, 0, 0, 0, 0⟩, .fabs ⟨0, 32, 0, 0, 0, 0, 0⟩,
       .fabs ⟨0, 0, 32, 0, 0, 0, 0⟩, .fabs ⟨0, 0, 0, 2, 0, 0, 0⟩, .fabs ⟨0, 0, 0, 0, 8, 0, 0⟩, .fabs ⟨0, 0, 0, 0, 0, 8, 0⟩,
       .fabs ⟨0, 0, 0, 0, 0, 0, 8⟩, .fabs ⟨0, 0, 0, 0, 0, 0, 7⟩, .fneg ⟨0, 0, 0, 0, 0, 0, 7⟩, .fsqrt ⟨0, 0, 0, 0, 0, 0, 7⟩,
       .frcp ⟨0, 0, 0, 0, 0, 0, 7⟩, .frsq ⟨0, 0, 0, 0, 0, 0, 7⟩, .fexp2 ⟨0, 0, 0, 0, 0, 0, 7⟩, .flog2 ⟨0, 0, 0, 0, 0, 0, 7⟩,
       .fsin ⟨0, 0, 0, 0, 0, 0, 7⟩, .fcos ⟨0, 0, 0, 0, 0, 0, 7⟩, .ffloor ⟨0, 0, 0, 0, 0, 0, 7⟩, .fceil ⟨0, 0, 0, 0, 0, 0, 7⟩,
       .frint ⟨0, 0, 0, 0, 0, 0, 7⟩, .fclass ⟨0, 0, 0, 0, 0, 0, 7⟩, .ivlo ⟨0, 0, 0, 0, 0, 0, 7⟩, .ivhi ⟨0, 0, 0, 0, 0, 0, 7⟩,
       .cvtF64F32 ⟨0, 0, 0, 0, 0, 0, 7⟩, .cvtF32F64 ⟨0, 0, 0, 0, 0, 0, 7⟩, .cvtF32I32 ⟨0, 0, 0, 0, 0, 0, 7⟩,
       .cvtF32N32 ⟨0, 0, 0, 0, 0, 0, 7⟩, .cvtI32F32 ⟨0, 0, 0, 0, 0, 0, 7⟩, .cvtN32F32 ⟨0, 0, 0, 0, 0, 0, 7⟩,
       .cvtF64I64 ⟨0, 0, 0, 0, 0, 0, 7⟩, .cvtI64F64 ⟨0, 0, 0, 0, 0, 0, 7⟩, .cvtF32F16l ⟨0, 0, 0, 0, 0, 0, 7⟩,
       .cvtF32F16h ⟨0, 0, 0, 0, 0, 0, 7⟩, .cvtF32Bf16l ⟨0, 0, 0, 0, 0, 0, 7⟩, .cvtF32Bf16h ⟨0, 0, 0, 0, 0, 0, 7⟩,
       .cvtPkF16 ⟨0, 0, 0, 0, 0, 0, 7⟩, .cvtPkBf16 ⟨0, 0, 0, 0, 0, 0, 7⟩, .cvtPkE4m3 ⟨0, 0, 0, 0, 0, 0, 7⟩, .cvtPkE5m2 ⟨0, 0, 0, 0, 0, 0, 7⟩,
       .cvtUpE4m3 ⟨0, 0, 0, 0, 0, 0, 7⟩, .cvtUpE5m2 ⟨0, 0, 0, 0, 0, 0, 7⟩, .cvtPkQ4n ⟨0, 0, 0, 0, 0, 0, 7⟩, .cvtUpQ4n ⟨0, 0, 0, 0, 0, 0, 7⟩,
       .cvtPkI8 ⟨0, 0, 0, 0, 0, 0, 7⟩, .cvtUpI8 ⟨0, 0, 0, 0, 0, 0, 7⟩, .cvtI64I32 ⟨0, 0, 0, 0, 0, 0, 7⟩, .cvtN64N32 ⟨0, 0, 0, 0, 0, 0, 7⟩,
       .cvtI32I64 ⟨0, 0, 0, 0, 0, 0, 7⟩, .sideGet ⟨0, 0, 0, 0, 0, 0, 7⟩] := by
  decide +kernel
theorem test_wf_formats_1 :
    Refuses
      [.sideSet ⟨0, 0, 0, 0, 0, 0, 7⟩, .zin ⟨2, 0, 0, 0, 0, 0⟩, .zin ⟨0, 8, 0, 0, 0, 0⟩, .zin ⟨0, 0, 32, 0, 0, 0⟩, .zin ⟨0, 0, 0, 2, 0, 0⟩,
       .zin ⟨0, 0, 0, 0, 8, 0⟩, .zin ⟨0, 0, 0, 0, 0, 8⟩, .qand ⟨2, 0, 0, 0, 0, 0⟩, .qand ⟨0, 8, 0, 0, 0, 0⟩, .qand ⟨0, 0, 8, 0, 0, 0⟩,
       .qand ⟨0, 0, 0, 8, 0, 0⟩, .qand ⟨0, 0, 0, 0, 8, 0⟩, .qand ⟨0, 0, 0, 0, 0, 8⟩, .qnot ⟨2, 0, 0, 0, 0⟩, .qnot ⟨0, 8, 0, 0, 0⟩,
       .qnot ⟨0, 0, 8, 0, 0⟩, .qnot ⟨0, 0, 0, 8, 0⟩, .qnot ⟨0, 0, 0, 0, 8⟩, .qset ⟨2, 0, 0, 0, 0⟩, .qset ⟨0, 8, 0, 0, 0⟩,
       .qset ⟨0, 0, 4, 0, 0⟩, .qset ⟨0, 0, 0, 8, 0⟩, .qset ⟨0, 0, 0, 0, 8⟩, .qset ⟨0, 0, 3, 0, 0⟩, .ld ⟨2, 0, 0, 0, 0, 0, 0⟩,
       .ld ⟨0, 32, 0, 0, 0, 0, 0⟩, .ld ⟨0, 0, 32, 0, 0, 0, 0⟩, .ld ⟨0, 0, 0, 32, 0, 0, 0⟩, .ld ⟨0, 0, 0, 0, 8, 0, 0⟩,
       .ld ⟨0, 0, 0, 0, 0, 8, 0⟩, .ld ⟨0, 0, 0, 0, 0, 0, 4⟩, .ld ⟨0, 0, 0, 0, 0, 6, 0⟩, .st ⟨0, 0, 0, 0, 0, 6, 0⟩, .st ⟨0, 0, 0, 0, 1, 0, 0⟩,
       .st ⟨0, 0, 0, 0, 3, 0, 0⟩, .lda ⟨0, 0, 0, 0, 0, 6, 0⟩, .stl ⟨0, 0, 0, 0, 0, 6, 0⟩, .stl ⟨0, 0, 0, 0, 1, 0, 0⟩,
       .stl ⟨0, 0, 0, 0, 3, 0, 0⟩, .ldg ⟨2, 0, 0, 0, 0, 0⟩, .ldg ⟨0, 32, 0, 0, 0, 0⟩, .ldg ⟨0, 0, 32, 0, 0, 0⟩, .ldg ⟨0, 0, 0, 32, 0, 0⟩,
       .ldg ⟨0, 0, 0, 0, 8, 0⟩, .ldg ⟨0, 0, 0, 0, 0, 4⟩, .ldg ⟨0, 0, 0, 0, 6, 0⟩, .stg ⟨0, 0, 0, 0, 6, 0⟩, .atomAdd ⟨2, 0, 0, 0, 0, 0, 0, 0⟩,
       .atomAdd ⟨0, 32, 0, 0, 0, 0, 0, 1⟩, .atomAdd ⟨0, 0, 32, 0, 0, 0, 0, 0⟩, .atomAdd ⟨0, 0, 0, 32, 0, 0, 0, 0⟩,
       .atomAdd ⟨0, 0, 0, 0, 8, 0, 0, 0⟩, .atomAdd ⟨0, 0, 0, 0, 0, 4, 0, 0⟩, .atomAdd ⟨0, 0, 0, 0, 0, 0, 2, 0⟩,
       .atomAdd ⟨0, 0, 0, 0, 0, 0, 0, 2⟩, .atomAdd ⟨0, 0, 0, 0, 6, 0, 0, 0⟩, .atomAdd ⟨0, 1, 0, 0, 0, 0, 0, 0⟩,
       .atomMin ⟨0, 0, 0, 0, 6, 0, 0, 0⟩, .atomMin ⟨0, 1, 0, 0, 0, 0, 0, 0⟩, .atomMax ⟨0, 0, 0, 0, 6, 0, 0, 0⟩,
       .atomMax ⟨0, 1, 0, 0, 0, 0, 0, 0⟩, .atomNmin ⟨0, 0, 0, 0, 6, 0, 0, 0⟩, .atomNmin ⟨0, 1, 0, 0, 0, 0, 0, 0⟩,
       .atomNmax ⟨0, 0, 0, 0, 6, 0, 0, 0⟩, .atomNmax ⟨0, 1, 0, 0, 0, 0, 0, 0⟩, .atomAnd ⟨0, 0, 0, 0, 6, 0, 0, 0⟩,
       .atomAnd ⟨0, 1, 0, 0, 0, 0, 0, 0⟩, .atomOr ⟨0, 0, 0, 0, 6, 0, 0, 0⟩, .atomOr ⟨0, 1, 0, 0, 0, 0, 0, 0⟩,
       .atomXor ⟨0, 0, 0, 0, 6, 0, 0, 0⟩, .atomXor ⟨0, 1, 0, 0, 0, 0, 0, 0⟩, .atomXchg ⟨0, 0, 0, 0, 6, 0, 0, 0⟩,
       .atomXchg ⟨0, 1, 0, 0, 0, 0, 0, 0⟩, .atomCas ⟨0, 0, 0, 0, 6, 0, 0, 0⟩, .atomFadd ⟨0, 0, 0, 0, 6, 0, 0, 0⟩,
       .atomFadd ⟨0, 1, 0, 0, 0, 0, 0, 0⟩, .atomFmin ⟨0, 0, 0, 0, 6, 0, 0, 0⟩, .atomFmin ⟨0, 1, 0, 0, 0, 0, 0, 0⟩,
       .atomFmax ⟨0, 0, 0, 0, 6, 0, 0, 0⟩, .atomFmax ⟨0, 1, 0, 0, 0, 0, 0, 0⟩] := by
  decide +kernel
theorem test_wf_formats_2 :
    Refuses
      [.atomIncw ⟨0, 0, 0, 0, 6, 0, 0, 0⟩, .atomIncw ⟨0, 1, 0, 0, 0, 0, 0, 0⟩, .atomDecw ⟨0, 0, 0, 0, 6, 0, 0, 0⟩,
       .atomDecw ⟨0, 1, 0, 0, 0, 0, 0, 0⟩, .mma ⟨2, 0, 0, 0, 0, 0, 0⟩, .mma ⟨0, 4, 0, 0, 0, 0, 0⟩, .mma ⟨0, 0, 8, 0, 0, 0, 0⟩,
       .mma ⟨0, 0, 0, 8, 0, 0, 0⟩, .mma ⟨0, 0, 0, 0, 4, 0, 0⟩, .mma ⟨0, 0, 0, 0, 0, 2, 0⟩, .mma ⟨0, 0, 0, 0, 0, 0, 2⟩] := by
  decide +kernel
theorem test_wf_operands_0 :
    Refuses
      [.br 2 0 0 0, .br 0 8 0 0, .br 0 0 4 0, .br 0 0 0 2097152, .call 2 0 0, .call 0 32 0, .call 0 0 32768, .ret 2 0, .ret 0 32,
       .jmpr 2 0 0 0, .jmpr 0 32 0 1, .jmpr 0 0 32 0, .jmpr 0 0 0 2, .jmpr 0 1 0 0, .splitj 2 0, .splitj 0 16, .join 2 0, .join 0 16,
       .exit 2, .yield 2, .jmaskGet 2 0 0, .jmaskGet 0 16 0, .jmaskGet 0 0 32, .jmaskSet 2 0 0, .jmaskSet 0 16 0, .jmaskSet 0 0 32,
       .jmaskAdd 2 0, .jmaskAdd 0 16, .jmaskDel 2 0, .jmaskDel 0 16, .jmaskClr 2 0, .jmaskClr 0 16, .vote 2 0 0 0 0 0, .vote 0 32 0 0 0 0,
       .vote 0 0 8 0 0 0, .vote 0 0 0 4 0 0, .vote 0 0 0 0 8 0, .vote 0 0 0 0 0 8, .gfence 2 0 0 0, .gfence 0 2 0 0, .gfence 0 0 8 0,
       .gfence 0 0 0 8, .helpq 2 0 0 0, .helpq 0 32 0 0, .helpq 0 0 8 0, .helpq 0 0 0 8, .pref 2 0 0 0 0, .pref 0 32 0 0 0, .pref 0 0 32 0 0,
       .pref 0 0 0 6 0, .pref 0 0 0 8 0, .pref 0 0 0 0 4, .lineWb 2 0 0 0, .lineWb 0 32 0 0, .lineWb 0 0 32 0, .lineWb 0 0 0 6,
       .lineWb 0 0 0 8, .lineInv 2 0 0 0, .lineInv 0 32 0 0, .lineInv 0 0 32 0, .lineInv 0 0 0 6, .lineInv 0 0 0 8, .lineWbinv 2 0 0 0,
       .lineWbinv 0 32 0 0, .lineWbinv 0 0 32 0, .lineWbinv 0 0 0 6, .lineWbinv 0 0 0 8, .lineZero 2 0 0 0, .lineZero 0 32 0 0,
       .lineZero 0 0 32 0, .lineZero 0 0 0 6, .lineZero 0 0 0 8, .nop 2, .trap 2 0, .trap 0 1024, .eret 2, .crr 2 0 0, .crr 0 32 0,
       .crr 0 0 16, .crr 0 0 255] := by
  decide +kernel
theorem test_wf_operands_1 :
    Refuses
      [.crr 0 0 262, .crr 0 0 4096, .crw 2 0 0, .crw 0 32 0, .crw 0 0 16, .crw 0 0 255, .crw 0 0 262, .crw 0 0 4096, .crset 2 0 0,
       .crset 0 32 0, .crset 0 0 16, .crset 0 0 255, .crset 0 0 262, .crset 0 0 4096, .crclr 2 0 0, .crclr 0 32 0, .crclr 0 0 16,
       .crclr 0 0 255, .crclr 0 0 262, .crclr 0 0 4096, .fence 2 0, .fence 0 6, .fence 0 8, .fenceAcq 2 0, .fenceAcq 0 6, .fenceAcq 0 8,
       .fenceRel 2 0, .fenceRel 0 6, .fenceRel 0 8, .fenceLayer 2, .quota 2 0 0 0, .quota 0 8 0 0, .quota 0 0 32 0, .quota 0 0 0 32,
       .sleep 2 0, .sleep 0 65536, .tlbinvPage 2 0, .tlbinvPage 0 32, .tlbinvAsid 2, .tlbinvAll 2, .fwcallVersion 2 0 0,
       .fwcallVersion 0 32 0, .fwcallVersion 0 0 32, .fwcallTemperature 2 0 0, .fwcallTemperature 0 32 0, .fwcallTemperature 0 0 32,
       .fwcallForecast 2 0 0, .fwcallForecast 0 32 0, .fwcallForecast 0 0 32, .fwcallCap 2 0 0, .fwcallCap 0 32 0, .fwcallCap 0 0 32,
       .fwcallCounter 2 0 0, .fwcallCounter 0 32 0, .fwcallCounter 0 0 32, .fwcallHalfRow 2 0 0, .fwcallHalfRow 0 32 0,
       .fwcallHalfRow 0 0 32, .fwcallUnlisted 2 0 0 6, .fwcallUnlisted 0 32 0 6, .fwcallUnlisted 0 0 32 6, .fwcallUnlisted 0 0 0 256,
       .fwcallUnlisted 0 0 0 5, .cacheIfetch 2, .cacheWb 2, .cacheWbinv 2, .rep 64 0 0 0, .rep 0 8 0 0, .rep 0 0 8 0, .rep 0 0 0 8,
       .aslice 2 0 0 0, .aslice 0 8 0 0, .aslice 0 0 32 0, .aslice 0 0 0 32, .pusht 2 0 0 0 0, .pusht 0 8 0 0 0, .pusht 0 0 256 0 0,
       .pusht 0 0 0 13 0, .pusht 0 0 0 16 0, .pusht 0 0 0 0 32] := by
  decide +kernel
theorem test_wf_operands_2 :
    Refuses
      [.copy 2 0 0 0, .copy 0 32 0 0, .copy 0 0 32 0, .copy 0 0 0 256, .tidset 2 0 0, .tidset 0 32 0, .tidset 0 0 256, .tidget 2 0 0,
       .tidget 0 32 0, .tidget 0 0 256, .await 2 0, .await 0 8, .qpush 2 0 0, .qpush 0 32 0, .qpush 0 0 16, .qpop 2 0 0, .qpop 0 32 0,
       .qpop 0 0 16, .qtry 2 0 0 0, .qtry 0 32 0 0, .qtry 0 0 8 0, .qtry 0 0 0 16, .swinit 2 0 0, .swinit 0 32 0, .swinit 0 0 32,
       .swadd 2 0 0, .swadd 0 32 0, .swadd 0 0 32, .swwait 2 0 0, .swwait 0 32 0, .swwait 0 0 32, .barinit 2 0 0, .barinit 0 32 0,
       .barinit 0 0 32, .barrive 2 0 0 0, .barrive 0 32 0 0, .barrive 0 0 32 0, .barrive 0 0 0 32, .bardrop 2 0 0 0, .bardrop 0 32 0 0,
       .bardrop 0 0 32 0, .bardrop 0 0 0 32, .barwait 2 0 0 0 0, .barwait 0 8 0 0 0, .barwait 0 0 32 0 0, .barwait 0 0 0 32 0,
       .barwait 0 0 0 0 32, .nbarrive 2 0 0 0, .nbarrive 0 32 0 0, .nbarrive 0 0 32 0, .nbarrive 0 0 0 8, .nbarriveDrop 2 0 0 0,
       .nbarriveDrop 0 32 0 0, .nbarriveDrop 0 0 32 0, .nbarriveDrop 0 0 0 8, .nbarwait 2 0 0 0 0, .nbarwait 0 8 0 0 0, .nbarwait 0 0 32 0 0,
       .nbarwait 0 0 0 32 0, .nbarwait 0 0 0 0 8, .nbarset 2 0 0 0 0, .nbarset 0 8 0 0 0, .nbarset 0 0 32 0 0, .nbarset 0 0 0 32 0,
       .nbarset 0 0 0 0 8, .acqp 2 0 0 0, .acqp 0 32 0 0, .acqp 0 0 32 0, .acqp 0 0 0 2, .azero 2 0, .azero 0 4, .areadF32 2 0 0 0,
       .areadF32 0 4 0 0, .areadF32 0 0 32 0, .areadF32 0 0 0 16, .areadF64 2 0 0 0, .areadF64 0 4 0 0, .areadF64 0 0 32 0,
       .areadF64 0 0 0 16, .areadI32 2 0 0 0] := by
  decide +kernel
theorem test_wf_operands_3 :
    Refuses
      [.areadI32 0 4 0 0, .areadI32 0 0 32 0, .areadI32 0 0 0 16, .areadRaw 2 0 0 0, .areadRaw 0 4 0 0, .areadRaw 0 0 32 0,
       .areadRaw 0 0 0 16, .awriteF32 2 0 0 0, .awriteF32 0 4 0 0, .awriteF32 0 0 32 0, .awriteF32 0 0 0 16, .awriteF64 2 0 0 0,
       .awriteF64 0 4 0 0, .awriteF64 0 0 32 0, .awriteF64 0 0 0 8, .awriteF64 0 0 0 16, .awriteI32 2 0 0 0, .awriteI32 0 4 0 0,
       .awriteI32 0 0 32 0, .awriteI32 0 0 0 16, .awriteRaw 2 0 0 0, .awriteRaw 0 4 0 0, .awriteRaw 0 0 32 0, .awriteRaw 0 0 0 16,
       .smxu 2 0 0 0 0, .smxu 0 4 0 0 0, .smxu 0 0 8 0 0, .smxu 0 0 0 32 0, .smxu 0 0 0 0 4, .smxrM 2 0 0, .smxrM 0 4 0, .smxrM 0 0 32,
       .smxrL 2 0 0, .smxrL 0 4 0, .smxrL 0 0 32, .smxrSt 2 0 0, .smxrSt 0 4 0, .smxrSt 0 0 32, .mfence 2, .mwait 2 0, .mwait 0 4,
       .cboard 2 0 0, .cboard 0 8 0, .cboard 0 0 32, .cboardr 2 0 0 0 0, .cboardr 0 8 0 0 0, .cboardr 0 0 32 0 0, .cboardr 0 0 0 32 0,
       .cboardr 0 0 0 0 32, .calight 2 0 0, .calight 0 32 0, .calight 0 0 32, .ccapAdd 2 0 0 0, .ccapAdd 0 32 0 0, .ccapAdd 0 0 32 0,
       .ccapAdd 0 0 0 32, .ccapSub 2 0 0 0, .ccapSub 0 32 0 0, .ccapSub 0 0 32 0, .ccapSub 0 0 0 32, .ccapMin 2 0 0 0, .ccapMin 0 32 0 0,
       .ccapMin 0 0 32 0, .ccapMin 0 0 0 32, .ccapMax 2 0 0 0, .ccapMax 0 32 0 0, .ccapMax 0 0 32 0, .ccapMax 0 0 0 32, .ccapAnd 2 0 0 0,
       .ccapAnd 0 32 0 0, .ccapAnd 0 0 32 0, .ccapAnd 0 0 0 32, .ccapOr 2 0 0 0, .ccapOr 0 32 0 0, .ccapOr 0 0 32 0, .ccapOr 0 0 0 32,
       .ccapXchg 2 0 0 0, .ccapXchg 0 32 0 0, .ccapXchg 0 0 32 0, .ccapXchg 0 0 0 32] := by
  decide +kernel
theorem test_wf_operands_4 :
    Refuses
      [.ccapCas 2 0 0 0, .ccapCas 0 32 0 0, .ccapCas 0 0 32 0, .ccapCas 0 0 0 32, .ccapDec 2 0 0, .ccapDec 0 32 0, .ccapDec 0 0 32,
       .cpeek 2 0 0, .cpeek 0 32 0, .cpeek 0 0 32, .cwait 2 0 0 0 0, .cwait 0 32 0 0 0, .cwait 0 0 32 0 0, .cwait 0 0 0 32 0,
       .cwait 0 0 0 0 4, .rast 2 0 0 0, .rast 0 32 0 0, .rast 0 0 32 0, .rast 0 0 0 32, .rseal 2 0, .rseal 0 32, .bpush 2 0 0 0 0,
       .bpush 0 4 0 0 0, .bpush 0 0 8 0 0, .bpush 0 0 0 32 0, .bpush 0 0 0 0 32, .bpushHit 2 0 0 0 0, .bpushHit 0 4 0 0 0,
       .bpushHit 0 0 8 0 0, .bpushHit 0 0 0 32 0, .bpushHit 0 0 0 0 32, .bisect 2 0 0 0 0, .bisect 0 8 0 0 0, .bisect 0 0 32 0 0,
       .bisect 0 0 0 32 0, .bisect 0 0 0 0 32, .attr 2 0 0 0 0, .attr 0 32 0 0 0, .attr 0 0 32 0 0, .attr 0 0 0 32 0, .attr 0 0 0 0 16,
       .tex 2 0 0 0, .tex 0 32 0 0, .tex 0 0 32 0, .tex 0 0 0 256, .texl 2 0 0 0, .texl 0 32 0 0, .texl 0 0 32 0, .texl 0 0 0 256,
       .texg 2 0 0 0, .texg 0 32 0 0, .texg 0 0 32 0, .texg 0 0 0 256, .bflush 2 0, .bflush 0 32, .bflushAll 2, .enq 2 0 0 0, .enq 0 8 0 0,
       .enq 0 0 32 0, .enq 0 0 0 32, .rgrab 2 0 0, .rgrab 0 32 0, .rgrab 0 0 16, .rgrabSet 2 0 0 0, .rgrabSet 0 32 0 0, .rgrabSet 0 0 32 0,
       .rgrabSet 0 0 0 16, .sread 2 0 0, .sread 0 32 0, .sread 0 0 23, .sread 0 0 32, .time 2 0, .time 0 32, .energy 2 0, .energy 0 32,
       .energyQ 2 0 0, .energyQ 0 32 0, .energyQ 0 0 32, .jmpr 0 1 0 0] := by
  decide +kernel

/-! ## Words of every family, written out from the formats of R34 and the codes of R38 -/

/-- Format R (R34). -/
def fR (c major d a b l m g s fn : Nat) : Nat :=
  c * 2 ^ 31 + major * 2 ^ 26 + d * 2 ^ 21 + a * 2 ^ 16 + b * 2 ^ 11 + l * 2 ^ 10 + m * 2 ^ 9 + g * 2 ^ 6 + s * 2 ^ 3 + fn
/-- Format I (R34). -/
def fI (c major d a i l s fn : Nat) : Nat := c * 2 ^ 31 + major * 2 ^ 26 + d * 2 ^ 21 + a * 2 ^ 16 + i * 2 ^ 7 + l * 2 ^ 6 + s * 2 ^ 3 + fn
/-- Format W (R34). -/
def fW (c major d i s : Nat) : Nat := c * 2 ^ 31 + major * 2 ^ 26 + d * 2 ^ 21 + i * 2 ^ 3 + s
/-- Format M (R34). -/
def fM (c major d a o z s h fn : Nat) : Nat :=
  c * 2 ^ 31 + major * 2 ^ 26 + d * 2 ^ 21 + a * 2 ^ 16 + o * 2 ^ 11 + z * 2 ^ 8 + s * 2 ^ 5 + h * 2 ^ 3 + fn
/-- Format A (R34). -/
def fA (c major d a b s op o w r : Nat) : Nat :=
  c * 2 ^ 31 + major * 2 ^ 26 + d * 2 ^ 21 + a * 2 ^ 16 + b * 2 ^ 11 + s * 2 ^ 8 + op * 2 ^ 4 + o * 2 ^ 2 + w * 2 + r
/-- Format T (R34): the accumulator, then the fields of [23:3] as values with their lowest bits. -/
def fT (c major a fn : Nat) (fs : List (Nat × Nat)) : Nat :=
  c * 2 ^ 31 + major * 2 ^ 26 + a * 2 ^ 24 + (fs.map (fun f => f.1 * 2 ^ f.2)).sum + fn
/-- Format X (R34): SUB, then the operands of [19:0] as values with their lowest bits. -/
def fX (c major sub : Nat) (fs : List (Nat × Nat)) : Nat :=
  c * 2 ^ 31 + major * 2 ^ 26 + sub * 2 ^ 20 + (fs.map (fun f => f.1 * 2 ^ f.2)).sum

/-- Every word of the first list decodes to the instruction at its place in the second. -/
abbrev Decodes (ws : List Nat) (is : List Instr) : Prop := ws.map (fun w => (decode w).toOption) = is.map some

theorem test_decode_iarith :
    Decodes ((upto 0 8).map (fR 1 2 21 10 19 1 0 5 6)) ([Instr.iadd, .isub, .imul, .imulh, .imulhn, .imad, .idiv, .idivn].map (· ⟨1, 21, 10, 19, 1, 0, 5, 6⟩)) := by
  decide +kernel
theorem test_decode_ilogic :
    Decodes ((upto 0 8).map (fR 0 3 21 10 19 0 1 5 6)) ([Instr.and, .or, .xor, .andn, .shl, .shr, .sar, .rotr].map (· ⟨0, 21, 10, 19, 0, 1, 5, 6⟩)) := by
  decide +kernel
theorem test_decode_ibits :
    Decodes ((upto 0 4).map (fR 0 4 21 10 19 0 1 5 6) ++ (upto 4 3).map (fR 0 4 21 10 0 1 0 5 6) ++ [fR 0 4 21 10 19 0 1 5 6 7])
      ([Instr.imin, .imax, .nmin, .nmax].map (· ⟨0, 21, 10, 19, 0, 1, 5, 6⟩) ++ [Instr.popc, .clz, .brev].map (· ⟨0, 21, 10, 1, 5, 6⟩) ++
       [.bfx ⟨0, 21, 10, 19, 0, 1, 5, 6⟩]) := by
  decide +kernel
theorem test_decode_icmp :
    Decodes ((upto 0 7).map (fR 1 5 6 10 19 0 1 5 6) ++ [fR 1 5 21 10 19 0 1 5 6 7])
      ([Instr.icmpEq, .icmpNe, .icmpLt, .icmpLe, .icmpLtn, .icmpLen, .icmpTst].map (· ⟨1, 6, 10, 19, 0, 1, 5, 6⟩) ++
       [.sel ⟨1, 21, 10, 19, 0, 1, 5, 6⟩]) := by
  decide +kernel
theorem test_decode_immediates :
    Decodes ((upto 0 8).map (fI 1 6 21 10 300 1 6) ++ [fW 0 7 21 200000 3, fW 0 8 21 200000 3])
      ([Instr.iaddi, .andi, .ori, .xori, .shli, .shri, .sari, .imuli].map (· ⟨1, 21, 10, 300, 1, 6⟩) ++
       [.movi ⟨0, 21, 200000, 3⟩, .movhi ⟨0, 21, 200000, 3⟩]) := by
  decide +kernel
theorem test_decode_farith :
    Decodes ((upto 0 8).map (fR 1 9 21 10 19 1 0 5 6)) ([Instr.fadd, .fsub, .fmul, .fma, .fms, .fnma, .fmin, .fmax].map (· ⟨1, 21, 10, 19, 1, 0, 5, 6⟩)) := by
  decide +kernel
theorem test_decode_fcmp :
    Decodes ((upto 0 7).map (fR 0 10 6 10 19 1 0 5 2))
      ([Instr.fcmpLt, .fcmpLe, .fcmpEq, .fcmpNe, .fcmpGt, .fcmpGe, .fcmpUno].map (· ⟨0, 6, 10, 19, 1, 0, 5, 2⟩)) := by
  decide +kernel
theorem test_decode_funary :
    Decodes ((upto 0 15).map (fun b => fR 0 11 21 10 b 1 0 5 2 6) ++ [fR 0 11 21 10 15 1 0 5 2 0])
      ([Instr.fabs, .fneg, .fsqrt, .frcp, .frsq, .fexp2, .flog2, .fsin, .fcos, .ffloor, .fceil, .frint, .fclass, .ivlo, .ivhi].map
        (· ⟨0, 21, 10, 1, 5, 2, 6⟩) ++ [.mov ⟨0, 21, 10, 1, 5, 2⟩]) := by
  decide +kernel
theorem test_decode_cvt :
    Decodes ((upto 0 27).map (fun b => fR 0 12 21 10 b 1 0 5 2 3))
      ([Instr.cvtF64F32, .cvtF32F64, .cvtF32I32, .cvtF32N32, .cvtI32F32, .cvtN32F32, .cvtF64I64, .cvtI64F64, .cvtF32F16l, .cvtF32F16h,
        .cvtF32Bf16l, .cvtF32Bf16h, .cvtPkF16, .cvtPkBf16, .cvtPkE4m3, .cvtPkE5m2, .cvtUpE4m3, .cvtUpE5m2, .cvtPkQ4n, .cvtUpQ4n, .cvtPkI8,
        .cvtUpI8, .cvtI64I32, .cvtN64N32, .cvtI32I64, .sideGet, .sideSet].map (· ⟨0, 21, 10, 1, 5, 2, 3⟩)) := by
  decide +kernel
theorem test_decode_intervals :
    Decodes ((upto 0 3).map (fR 0 13 21 10 19 1 0 5 6) ++ (upto 3 4).map (fR 0 13 21 10 0 1 0 5 6) ++ [fR 0 13 21 10 19 1 0 5 6 7] ++
        (upto 0 6).map (fR 0 14 6 10 19 1 0 5 2) ++ [fR 0 14 6 10 0 1 0 5 2 6])
      ([Instr.ivmk, .ivhull, .ivmeet].map (· ⟨0, 21, 10, 19, 1, 0, 5, 6⟩) ++ [Instr.ivsqr, .ivmid, .ivrad, .ivsplit].map (· ⟨0, 21, 10, 1, 5, 6⟩) ++
       [.ivpown ⟨0, 21, 10, 19, 1, 0, 5, 6⟩] ++ [Instr.clt, .cle, .ceq, .subset, .contains, .disjoint].map (· ⟨0, 6, 10, 19, 1, 0, 5, 2⟩) ++
       [.zin ⟨0, 6, 10, 1, 5, 2⟩]) := by
  decide +kernel
theorem test_decode_qlogic :
    Decodes ([0, 1, 3, 6].map (fR 1 15 6 5 3 0 0 7 6) ++ [2, 4, 5].map (fR 1 15 6 5 0 0 0 7 6) ++ [fR 1 15 6 0 2 0 0 7 6 7])
      ([Instr.qand, .qor, .qxor, .qcons].map (· ⟨1, 6, 5, 3, 7, 6⟩) ++ [Instr.qnot, .qmov, .qdef].map (· ⟨1, 6, 5, 7, 6⟩) ++
       [.qset ⟨1, 6, 2, 7, 6⟩]) := by
  decide +kernel
theorem test_decode_control :
    Decodes [1 * 2 ^ 31 + 16 * 2 ^ 26 + 6 * 2 ^ 23 + 2 * 2 ^ 21 + 0x1FFFFE, fX 0 17 0 [(21, 15), (0x7FFE, 0)], fX 0 17 1 [(10, 10)],
        fX 0 17 2 [(21, 15), (10, 10), (1, 4)], fX 0 17 3 [(13, 15)], fX 0 17 4 [(13, 15)], fX 1 17 5 [], fX 0 17 6 [],
        fX 0 17 7 [(13, 15), (10, 10), (0, 0)], fX 0 17 7 [(13, 15), (10, 10), (1, 0)], fX 0 17 7 [(13, 15), (2, 0)], fX 0 17 7 [(13, 15), (3, 0)],
        fX 0 17 7 [(13, 15), (4, 0)]]
      [.br 1 6 2 0x1FFFFE, .call 0 21 0x7FFE, .ret 0 10, .jmpr 0 21 10 1, .splitj 0 13, .join 0 13, .exit 1, .yield 0, .jmaskGet 0 13 10,
       .jmaskSet 0 13 10, .jmaskAdd 0 13, .jmaskDel 0 13, .jmaskClr 0 13] := by
  decide +kernel
theorem test_decode_group :
    Decodes ((upto 0 4).map (fR 0 18 21 10 19 1 0 5 6) ++ [fR 0 18 21 5 2 0 0 5 6 4] ++ (upto 0 11).map (fun b => fR 0 18 21 10 b 1 0 5 6 5) ++
        [fR 0 18 21 10 0 1 0 5 6 6, fR 0 18 0 0 0 1 0 5 6 7])
      ([Instr.shfl, .shflu, .shfld, .shflx].map (· ⟨0, 21, 10, 19, 1, 0, 5, 6⟩) ++ [.vote 0 21 5 2 5 6] ++
       [Instr.gredIadd, .gredImin, .gredImax, .gredNmin, .gredNmax, .gredAnd, .gredOr, .gredXor, .gredFadd, .gredFmin, .gredFmax, .matchLanes].map
         (· ⟨0, 21, 10, 1, 5, 6⟩) ++ [.gfence 0 1 5 6]) := by
  decide +kernel
theorem test_decode_quad :
    Decodes ((upto 0 7).map (fR 0 19 21 10 0 1 0 5 6) ++ [fR 0 19 21 0 0 0 0 5 6 7])
      ([Instr.qxh, .qxv, .qxd, .ddxc, .ddyc, .ddxf, .ddyf].map (· ⟨0, 21, 10, 1, 5, 6⟩) ++ [.helpq 0 21 5 6]) := by
  decide +kernel
theorem test_decode_memory :
    Decodes ((upto 0 4).map (fM 0 20 21 10 30 4 5 2) ++ [fM 0 20 21 10 30 4 5 2 4, fM 0 20 21 10 30 4 5 2 5, fM 0 20 0 10 30 0 5 2 6] ++
        (upto 0 4).map (fun n => fM 0 20 0 10 30 n 5 0 7))
      ([Instr.ld, .st, .lda, .stl].map (· ⟨0, 21, 10, 30, 4, 5, 2⟩) ++ [.ldg ⟨0, 21, 10, 30, 5, 2⟩, .stg ⟨0, 21, 10, 30, 5, 2⟩, .pref 0 10 30 5 2,
       .lineWb 0 10 30 5, .lineInv 0 10 30 5, .lineWbinv 0 10 30 5, .lineZero 0 10 30 5]) := by
  decide +kernel
theorem test_decode_atomics :
    Decodes ((upto 0 15).map (fun op => fA 0 21 21 10 19 5 op 2 1 1))
      ([Instr.atomAdd, .atomMin, .atomMax, .atomNmin, .atomNmax, .atomAnd, .atomOr, .atomXor, .atomXchg, .atomCas, .atomFadd, .atomFmin, .atomFmax,
        .atomIncw, .atomDecw].map (· ⟨0, 21, 10, 19, 5, 2, 1, 1⟩)) := by
  decide +kernel
theorem test_decode_system :
    Decodes [fX 0 0 0 [], fX 0 0 1 [(1000, 0)], fX 0 0 2 [], fX 0 0 3 [(21, 15), (0x105, 0)], fX 0 0 4 [(21, 15), (0x105, 0)],
        fX 0 0 5 [(21, 15), (0x105, 0)], fX 0 0 6 [(21, 15), (0x105, 0)], fX 0 0 7 [(5, 0)], fX 0 0 7 [(1, 4), (5, 0)], fX 0 0 7 [(2, 4), (5, 0)],
        fX 0 0 7 [(1, 3), (3, 0)], fX 0 0 8 [(6, 15), (10, 10), (19, 5)], fX 0 0 9 [(40000, 0)], fX 0 0 10 [(10, 10), (0, 0)], fX 0 0 10 [(1, 0)],
        fX 0 0 10 [(2, 0)]]
      [.nop 0, .trap 0 1000, .eret 0, .crr 0 21 0x105, .crw 0 21 0x105, .crset 0 21 0x105, .crclr 0 21 0x105, .fence 0 5, .fenceAcq 0 5,
       .fenceRel 0 5, .fenceLayer 0, .quota 0 6 10 19, .sleep 0 40000, .tlbinvPage 0 10, .tlbinvAsid 0, .tlbinvAll 0] := by
  decide +kernel
theorem test_decode_firmware :
    Decodes [fX 0 0 11 [(21, 15), (10, 10), (0, 0)], fX 0 0 11 [(21, 15), (10, 10), (1, 0)], fX 0 0 11 [(21, 15), (10, 10), (2, 0)],
        fX 0 0 11 [(21, 15), (10, 10), (3, 0)], fX 0 0 11 [(21, 15), (10, 10), (4, 0)], fX 0 0 11 [(21, 15), (10, 10), (5, 0)],
        fX 0 0 11 [(21, 15), (10, 10), (6, 0)], fX 1 0 12 [(0, 0)], fX 1 0 12 [(1, 0)], fX 1 0 12 [(2, 0)],
        1 * 2 ^ 26 + 63 * 2 ^ 20 + 4 * 2 ^ 17 + 3 * 2 ^ 14 + 7 * 2 ^ 11]
      [.fwcallVersion 0 21 10, .fwcallTemperature 0 21 10, .fwcallForecast 0 21 10, .fwcallCap 0 21 10, .fwcallCounter 0 21 10,
       .fwcallHalfRow 0 21 10, .fwcallUnlisted 0 21 10 6, .cacheIfetch 1, .cacheWb 1, .cacheWbinv 1, .rep 63 4 3 7] := by
  decide +kernel
theorem test_decode_async :
    Decodes [fX 0 22 0 [(6, 15), (10, 10), (19, 5)], fX 0 22 1 [(7, 17), (200, 9), (12, 5), (31, 0)], fX 0 22 2 [(10, 15), (19, 10), (200, 2)],
        fX 0 22 3 [(10, 10), (200, 2)], fX 0 22 4 [(10, 10), (200, 2)], fX 0 22 5 [(6, 15)]]
      [.aslice 0 6 10 19, .pusht 0 7 200 12 31, .copy 0 10 19 200, .tidset 0 10 200, .tidget 0 10 200, .await 0 6] := by
  decide +kernel
theorem test_decode_sync :
    Decodes [fX 0 23 0 [(10, 10), (13, 0)], fX 0 23 1 [(21, 15), (13, 0)], fX 0 23 2 [(21, 15), (6, 5), (13, 0)], fX 0 23 3 [(10, 10), (19, 5)],
        fX 0 23 4 [(10, 10), (19, 5)], fX 0 23 5 [(10, 10), (19, 5)], fX 0 23 6 [(10, 10), (19, 5)], fX 0 23 7 [(21, 15), (10, 10), (19, 5)],
        fX 0 23 8 [(21, 15), (10, 10), (19, 5)], fX 0 23 9 [(6, 15), (10, 10), (19, 5), (30, 0)], fX 0 23 10 [(21, 15), (10, 10), (7, 0)],
        fX 0 23 10 [(21, 15), (10, 10), (1, 9), (7, 0)], fX 0 23 11 [(6, 15), (10, 10), (19, 5), (7, 0)], fX 0 23 12 [(6, 15), (10, 10), (19, 5), (7, 0)],
        fX 0 23 13 [(21, 15), (10, 10), (1, 0)]]
      [.qpush 0 10 13, .qpop 0 21 13, .qtry 0 21 6 13, .swinit 0 10 19, .swadd 0 10 19, .swwait 0 10 19, .barinit 0 10 19, .barrive 0 21 10 19,
       .bardrop 0 21 10 19, .barwait 0 6 10 19 30, .nbarrive 0 21 10 7, .nbarriveDrop 0 21 10 7, .nbarwait 0 6 10 19 7, .nbarset 0 6 10 19 7,
       .acqp 0 21 10 1] := by
  decide +kernel
theorem test_decode_tiles :
    Decodes [fT 0 24 2 2 [(21, 19), (7, 15), (0, 13)], fT 0 24 2 2 [(21, 19), (7, 15), (1, 13)], fT 0 24 2 2 [(21, 19), (7, 15), (2, 13)],
        fT 0 24 2 2 [(21, 19), (7, 15), (3, 13)], fT 0 24 2 3 [(21, 19), (7, 15), (0, 13)], fT 0 24 2 3 [(21, 19), (7, 15), (1, 13)],
        fT 0 24 2 3 [(21, 19), (7, 15), (2, 13)], fT 0 24 2 3 [(21, 19), (7, 15), (3, 13)]]
      [.areadF32 0 2 21 7, .areadF64 0 2 21 7, .areadI32 0 2 21 7, .areadRaw 0 2 21 7, .awriteF32 0 2 21 7, .awriteF64 0 2 21 7,
       .awriteI32 0 2 21 7, .awriteRaw 0 2 21 7] := by
  decide +kernel
theorem test_decode_matrix :
    Decodes [fT 0 24 2 0 [(5, 21), (6, 18), (3, 16), (0, 15), (1, 14)], fT 0 24 2 1 [], fT 0 24 2 4 [(5, 21), (19, 16), (3, 14)],
        fT 0 24 2 5 [(21, 19)], fT 0 24 2 5 [(21, 19), (1, 18)], fT 0 24 2 5 [(21, 19), (1, 17)], fT 0 24 0 6 [], fT 0 24 2 7 []]
      [.mma ⟨0, 2, 5, 6, 3, 0, 1⟩, .azero 0 2, .smxu 0 2 5 19 3, .smxrM 0 2 21, .smxrL 0 2 21, .smxrSt 0 2 21, .mfence 0, .mwait 0 2] := by
  decide +kernel
theorem test_decode_churn :
    Decodes [fX 0 25 0 [(6, 15), (10, 10)], fX 0 25 1 [(6, 15), (10, 10), (19, 5), (30, 0)], fX 0 25 2 [(21, 15), (10, 10)],
        fX 0 25 4 [(21, 15), (10, 10)], fX 0 25 5 [(21, 15), (10, 10), (19, 5), (3, 0)]]
      [.cboard 0 6 10, .cboardr 0 6 10 19 30, .calight 0 21 10, .cpeek 0 21 10, .cwait 0 21 10 19 3] := by
  decide +kernel
theorem test_decode_captures :
    Decodes ((upto 0 8).map (fun n => fX 0 25 3 [(21, 15), (10, 10), (19, 5), (n, 0)]) ++ [fX 0 25 3 [(21, 15), (10, 10), (8, 0)]])
      ([Instr.ccapAdd, .ccapSub, .ccapMin, .ccapMax, .ccapAnd, .ccapOr, .ccapXchg, .ccapCas].map (· 0 21 10 19) ++ [.ccapDec 0 21 10]) := by
  decide +kernel
theorem test_decode_graphics :
    Decodes [fX 0 26 0 [(10, 10), (19, 5), (30, 0)], fX 0 26 1 [(10, 10)], fX 0 26 2 [(2, 18), (6, 15), (10, 10), (19, 5), (0, 0)],
        fX 0 26 2 [(2, 18), (6, 15), (10, 10), (19, 5), (1, 0)], fX 0 26 3 [(6, 15), (10, 10), (19, 5), (30, 0)],
        fX 0 26 4 [(21, 15), (10, 10), (19, 5), (13, 0)], fX 0 26 5 [(21, 15), (10, 10), (200, 2)], fX 0 26 6 [(21, 15), (10, 10), (200, 2)],
        fX 0 26 7 [(21, 15), (10, 10), (200, 2)], fX 0 26 8 [(10, 10)], fX 0 26 8 [(1, 0)]]
      [.rast 0 10 19 30, .rseal 0 10, .bpush 0 2 6 10 19, .bpushHit 0 2 6 10 19, .bisect 0 6 10 19 30, .attr 0 21 10 19 13, .tex 0 21 10 200,
       .texl 0 21 10 200, .texg 0 21 10 200, .bflush 0 10, .bflushAll 0] := by
  decide +kernel
theorem test_decode_launch :
    Decodes [fX 0 27 0 [(6, 15), (10, 10), (19, 5)], fX 0 27 1 [(21, 15), (13, 0)], fX 0 27 1 [(10, 10), (19, 5), (1, 4), (13, 0)],
        fX 0 27 2 [(21, 15), (22, 0)], fX 0 27 3 [(21, 15)], fX 0 27 4 [(21, 15)], fX 0 27 4 [(21, 15), (10, 10), (1, 4)]]
      [.enq 0 6 10 19, .rgrab 0 21 13, .rgrabSet 0 10 19 13, .sread 0 21 22, .time 0 21, .energy 0 21, .energyQ 0 21 10] := by
  decide +kernel
/-- R38, R40: unassigned majors, codes and rounding fields, reserved scopes and sizes, and must-be-zero fields are no instructions. -/
theorem test_decode_refuses :
    [28 * 2 ^ 26, 31 * 2 ^ 26, fR 0 10 6 10 19 1 0 5 2 7, fR 0 11 21 10 16 1 0 5 2 0, fR 0 11 21 10 0 1 0 5 2 7, fR 0 12 21 10 27 1 0 5 2 0,
     fR 0 14 6 10 19 1 0 5 2 7, fX 0 0 13 [], fX 0 17 8 [], fX 0 22 6 [], fX 0 23 14 [], fX 0 25 6 [], fX 0 26 9 [], fX 0 27 5 [],
     fA 0 21 21 10 19 5 15 2 1 1, fA 0 21 21 10 19 6 0 2 1 1, fM 0 20 21 10 30 4 7 2 0, fM 0 20 21 10 30 1 5 2 1, fM 0 20 0 10 30 4 5 0 7, fX 0 0 3 [(21, 15), (0x10, 0)],
     fX 0 27 2 [(21, 15), (23, 0)], fX 0 22 1 [(7, 17), (200, 9), (13, 5), (31, 0)], fX 0 17 5 [(1, 0)], 2 ^ 26 + 1,
     fA 0 21 21 10 19 5 0 2 1 0, fT 0 24 2 3 [(21, 19), (8, 15), (1, 13)]].all (fun w => (decode w).toOption.isNone) = true := by
  decide +kernel

/-! ## A few results of the spec's own tables and examples -/

/-- The machine after instruction i; the reset state where it stops. -/
noncomputable def after (i : Instr) (s : State) : State :=
  match exec i s with
  | .next t => t
  | _ => State.reset

/-- The group of the laboratory. -/
def grpOf (s : State) : Group := (s.group 0 0 0).getD (Group.start 0 0 0 [])
/-- What lane l of register d holds. -/
def got (s : State) (d l : Nat) : Nat := ((grpOf s).read d l).toNat
/-- The laboratory with registers d, … holding the P32 values v l in lane l. -/
def with32 (vs : List (Nat × (Nat → Nat))) : State :=
  labWith (fun g => { g with regs := vs.foldl (fun t v => tset t v.1 (vec .p32 v.2)) labRegs }) id
/-- The laboratory with registers holding FP32 intervals. -/
def withIv (vs : List (Nat × Nat × Nat)) : State :=
  labWith (fun g => { g with regs := vs.foldl (fun t v => tset t v.1 (vec .i32 (fun _ => iv32 v.2.1 v.2.2))) labRegs }) id

/-- R103: 2^31 + 2^31 wraps to 0; R104: x / 0 is all ones, and the least value over −1 wraps. -/
theorem test_iadd_wraps : got (after (.iadd ⟨0, 5, 1, 1, 0, 0, 0, 0⟩) (with32 [(1, fun _ => 0x80000000)])) 5 7 = 0 := by decide +kernel
theorem test_idiv_corners :
    got (after (.idiv ⟨0, 5, 1, 2, 0, 0, 0, 0⟩) (with32 [(1, fun _ => 0x80000000), (2, fun l => if l = 0 then 0 else 0xFFFFFFFF)])) 5 0 = 0xFFFFFFFF ∧
    got (after (.idiv ⟨0, 5, 1, 2, 0, 0, 0, 0⟩) (with32 [(1, fun _ => 0x80000000), (2, fun l => if l = 0 then 0 else 0xFFFFFFFF)])) 5 1 = 0x80000000 := by
  decide +kernel
/-- R103: the high half of −1 × 3 is all ones, and of 0xFFFFFFFF × 3 without sign it is 2. -/
theorem test_imulh : got (after (.imulh ⟨0, 5, 1, 2, 0, 0, 0, 0⟩) (with32 [(1, fun _ => 0xFFFFFFFF), (2, fun _ => 3)])) 5 0 = 0xFFFFFFFF := by
  decide +kernel
theorem test_imulhn : got (after (.imulhn ⟨0, 5, 1, 2, 0, 0, 0, 0⟩) (with32 [(1, fun _ => 0xFFFFFFFF), (2, fun _ => 3)])) 5 0 = 2 := by
  decide +kernel
/-- R105: a count is taken modulo W: 33 shifts by 1, with the sign. -/
theorem test_sar_count : got (after (.sar ⟨0, 5, 1, 2, 0, 0, 0, 0⟩) (with32 [(1, fun _ => 0x80000002), (2, fun _ => 33)])) 5 0 = 0xC0000001 := by
  decide +kernel
/-- The example after R107: fields at pos 4 and at pos 12 of length 8, sign-extended. -/
theorem test_bfx_example :
    let s := with32 [(1, fun _ => 0xF0A0), (2, fun l => if l = 0 then 0x8804 else 0x880C)]
    got (after (.bfx ⟨0, 5, 1, 2, 0, 0, 0, 0⟩) s) 5 0 = 0x0A ∧ got (after (.bfx ⟨0, 5, 1, 2, 0, 0, 0, 0⟩) s) 5 1 = 0x0F := by decide +kernel
/-- R110: SHRI by −1 shifts a P32 value by 31. -/
theorem test_shri_negative : got (after (.shri ⟨0, 5, 1, 511, 0, 0⟩) (with32 [(1, fun _ => 0x80000000)])) 5 0 = 1 := by decide +kernel
/-- The example after R116: 0.5, 2.0, NaN and −0.0 against 1.0 give T, F, U and T. -/
theorem test_fcmp_example :
    let s := after (.fcmpLt ⟨0, 2, 3, 4, 0, 0, 0, 4⟩) (with32 [(3, fun l => [0x3F000000, 0x40000000, 0x7FC00000, 0x80000000].getD l 0), (4, fun _ => 0x3F800000)])
    (upto 0 4).map (fun l => ((grpOf s).lane l).pred 2) = [.t, .f, .u, .t] := by decide +kernel
/-- R125: −0.5 rounded down saturates to 0 in N32. -/
theorem test_cvt_n32_saturates : got (after (.cvtN32F32 ⟨0, 5, 1, 0, 0, 0, 3⟩) (with32 [(1, fun _ => 0xBF000000)])) 5 0 = 0 := by decide +kernel
/-- The worked conversion after R135: 100.0, 3.0, −0.01 and 0.0 pack to 0x0092547C under the scale 0x7D. -/
theorem test_pack_e4m3_example :
    let one := 0x3F800000
    let s := after (.cvtPkE4m3 ⟨0, 8, 0, 0, 0, 0, 1⟩) (with32 [(0, fun l => if l = 0 then 0x42C80000 else one), (1, fun l => if l = 0 then 0x40400000 else one),
      (2, fun l => if l = 0 then 0xBC23D70A else one), (3, fun l => if l = 0 then 0 else one)])
    got s 8 0 = 0x0092547C ∧ got s 8 7 = 0x48484848 ∧ ((grpOf s).vreg 8).side.head? = some 0x7D := by decide +kernel
/-- The example after R92: 1 + 2^−8 + 2^−20 packs to the BF16 0x3F81 to nearest and 0x3F80 toward zero. -/
theorem test_bf16_rounding_example :
    let s := with32 [(1, fun _ => 0x3F808008), (2, fun _ => 0xBF808008)]
    got (after (.cvtPkBf16 ⟨0, 5, 1, 0, 0, 0, 1⟩) s) 5 0 = 0xBF813F81 ∧ got (after (.cvtPkBf16 ⟨0, 5, 1, 0, 0, 0, 2⟩) s) 5 0 = 0xBF803F80 := by
  decide +kernel
/-- The interval examples after R148: [−2, 3] × [−1, 4], 1 / [3, 3], the square of [−2, 3], and the root of [−4, 2]. -/
theorem test_interval_examples :
    let s := withIv [(1, 0xC0000000, 0x40400000), (2, 0xBF800000, 0x40800000), (3, 0x40400000, 0x40400000), (4, 0xC0800000, 0x40000000)]
    got (after (.fmul ⟨0, 5, 1, 2, 0, 0, 0, 0⟩) s) 5 0 = iv32 0xC1000000 0x41400000 ∧
    got (after (.frcp ⟨0, 5, 3, 0, 0, 0, 0⟩) s) 5 0 = iv32 0x3EAAAAAA 0x3EAAAAAB ∧
    got (after (.ivsqr ⟨0, 5, 1, 0, 0, 0⟩) s) 5 0 = iv32 0 0x41100000 ∧
    got (after (.fsqrt ⟨0, 5, 4, 0, 0, 0, 0⟩) s) 5 0 = iv32 0 0x3FB504F4 := by decide +kernel
/-- R159: T and U is U; T or U is T. -/
theorem test_kleene :
    let s := labWith (fun g => g.modLanes (upto 0 8) (fun y => { y with q := [.t, .t, .u, .f, .f, .f, .f, .f] })) id
    ((grpOf (after (.qand ⟨0, 4, 1, 2, 0, 0⟩) s)).lane 3).pred 4 = .u ∧ ((grpOf (after (.qor ⟨0, 4, 1, 2, 0, 0⟩) s)).lane 3).pred 4 = .t := by
  decide +kernel
/-- R188: the sum of the lane numbers 0 to 7; R187: the mask of the lanes that are not F. -/
theorem test_gred : got (after (.gredIadd ⟨0, 5, 0, 0, 0, 0⟩) lab) 5 3 = 28 := by decide +kernel
theorem test_shflx : got (after (.shflx ⟨0, 5, 0, 1, 0, 0, 0, 0⟩) lab) 5 2 = 5 := by decide +kernel
theorem test_qxd : got (after (.qxd ⟨0, 5, 0, 0, 0, 0⟩) lab) 5 5 = 6 := by decide +kernel
/-- The example at the end of the memory chapter: eight combined adds of 1.0 to 2^24 leave 2^24. -/
theorem test_atom_fadd_example :
    let s := labWith (fun g => { g with regs := tset labRegs 1 (vec .p32 (fun _ => 0x3F800000)) }) (fun w => { w with scratch := [(3, 0x4B), (2, 0x80)].reverse })
    let t := after (.atomFadd ⟨0, 5, 8, 1, 1, 0, 0, 1⟩) s
    got t 5 0 = 0x4B800000 ∧ got t 5 7 = 0x4B800000 ∧ (t.wg 0 0).map (fun w => leNat (memGetList w.scratch 0 4)) = some 0x4B800000 := by decide +kernel
/-- The example after R315: a drop then an arrival complete phase 3, and leave the words 0x0000_0004_0003_0003 and 3. -/
theorem test_barrier_example :
    let s := labWith (fun g => { g with regs := tset labRegs 1 (vec .p32 (fun _ => 1)) })
      (fun w => w.setBar 0 { overrun := false, phase := 3, remaining := 2, expected := 4, nextCount := 4, waiters := 0 })
    let t := after (.bardrop 0 5 8 1) s
    let u := after (.barrive 0 6 8 1) { t with cur := s.cur }
    got t 5 0 = 3 ∧ got u 6 0 = 3 ∧ (u.wg 0 0).map (fun w => (w.word 0, w.word 8)) = some (0x0000000400030003, 3) := by decide +kernel
/-- The example after R342: the first grab of 100 indices with div 4 and min 4 takes 25 from 0. -/
theorem test_rgrab_example :
    let s := lab.modCluster 0 (fun y => { y with ranges := [(2, { fin := 100, next := 0, asid := 1, min := 4, div := 4 })] })
    got (after (.rgrab 0 6 2) s) 6 0 = 0x0000001900000000 := by decide +kernel
/-- R259, R260: TRAP 5 saves the cause, the mask and the address of the word, and its lanes go to the handler. -/
theorem test_trap_entry :
    let s := labWith (fun g => { g with ctrl := { g.ctrl with trapbase := 0x600 } }) id
    let g := grpOf (after (.trap 0 5) s)
    (g.ctrl.trapH, g.ctrl.trapcause.toNat, g.ctrl.trappc.toNat, g.ctrl.trapmask.toNat, g.ctrl.trapaddr.toNat, (g.lane 0).pc, (g.lane 0).handler) =
      (true, 0x16, 0x300000, 0xFF, 5, 0x180, true) := by decide +kernel
/-- The example after R221: an FP32 accumulator of 1.0 takes 0.75 and −0.25 units in the last place, chunk by chunk, in two of the modes. -/
theorem test_mma_example :
    let row : TileRow := { TileRow.zero with cells := 0x3FF00000000000#56 :: List.replicate 15 0 }
    let entry : List (Nat × Nat) → FifoEntry := fun es =>
      { data := BitVec.ofNat 2048 (es.map (fun e => e.2 * 2 ^ (16 * e.1))).sum, side := 0, tag := 0, fmt := 3, smxu := false, bad := false }
    let s := fun (rm : Nat) => labWith id (fun w => { w with
      tiles := [{ mode := .float, rows := row :: List.replicate 63 TileRow.zero, clean := false }],
      fifos := [⟨64, [entry [(0, 0x3400), (16, 0x3400)]]⟩, ⟨64, entry [(0, 0x34C0), (16, 0xB400)] :: List.replicate 15 (entry [])⟩] ++ List.replicate 6 ⟨0, []⟩,
      ops := [{ id := 9, grp := 0, tile := 0, work := .mma 0 1 rm false false, mask := 1, unfenced := false, addr := 0, done := false }] })
    let cell := fun (rm : Nat) => ((after (.mmaExecute 0 0 9) (s rm)).wg 0 0).bind (fun w => (w.tile 0).map (fun t => ((t.row 0).cells.getD 0 0).toNat))
    cell 1 = some 0x3FF00000000001 ∧ cell 3 = some 0x3FEFFFFFFFFFFF := by decide +kernel
/-- The examples after R349 and R484: the home slices of two lines, and the walk to physical address 0x20_0004_3400. -/
theorem test_home_slices : homeSlice 0x123480 = 58 ∧ homeSlice 0x2000043400 = 8 := by decide +kernel
theorem test_walk_example :
    let s := { State.reset with mem := memPutList (memPutList (memPutList (memPutList [] 0x50 (leBytes 8 (2 ^ 63 + 0x100000000))) 0x100000000 (leBytes 8 0x100010001))
      0x100011000 (leBytes 8 0x100020001)) 0x100020000 (leBytes 8 0x2000040033) }
    (s.walk 5 0x4000003400).toOption.map (fun e => e.pbase + (0x4000003400 - e.vbase)) = some 0x2000043400 := by decide +kernel
/-- MOVI v1, 3 placed at the program counter: the next step writes it (R111), and leaves the other registers unallocated. -/
theorem test_step_runs_movi :
    (match step (State.reset.withFetchWord 32 0x1C20001C) with
      | .next t => (got t 1 0, (grpOf t).regs.map (·.1))
      | _ => (0, [])) = (3, [1]) := by decide +kernel

/-! ## Witnesses: for each statement with hypotheses, states and operands that meet them, clause by clause -/

/-- A slice of the laboratory whose x1 is the address of the code, x2 is 1, x3 the start of scratch and x4 an address of memory. -/
def labX : State := labSlice [0, 0x300000, 1, BitVec.ofNat 64 scratchBase, 0x340000]

theorem witness_IntegerArithmeticComputes :
    Meets (.iadd ⟨0, 5, 1, 3, 0, 0, 0, 0⟩) lab (fun c => Points c [1, 3] 32) ∧ Meets (.iadd ⟨0, 5, 11, 12, 0, 0, 0, 0⟩) lab (fun c => Points c [11, 12] 64) ∧
    Meets (.imad ⟨0, 0, 1, 3, 0, 0, 0, 0⟩) lab (fun c => Points c [1, 3, 0] 32) ∧
    Meets (.iadd ⟨0, 5, 1, 12, 0, 0, 0, 0⟩) lab (fun c => ¬ ∃ w, Points c [1, 12] w) ∧ SliceMeets (.iadd ⟨0, 15, 1, 3, 0, 0, 0, 0⟩) labX (fun _ => True) := by
  refine ⟨meetsD ?_, meetsD ?_, meetsD ?_, meets_nopoints (meetsD ?_), sliceD ?_⟩ <;> decide +kernel

theorem witness_LogicAndShiftsCompute :
    Meets (.shl ⟨0, 31, 1, 3, 0, 0, 0, 0⟩) lab (fun c => Points c [1, 3] 32) ∧ Meets (.rotr ⟨0, 5, 11, 12, 0, 0, 0, 0⟩) lab (fun c => Points c [11, 12] 64) ∧
    Meets (.and ⟨0, 5, 16, 17, 0, 0, 0, 0⟩) lab (fun c => ¬ ∃ w, Points c [16, 17] w) ∧ SliceMeets (.xor ⟨0, 15, 1, 3, 0, 0, 0, 0⟩) labX (fun _ => True) := by
  refine ⟨meetsD ?_, meetsD ?_, meets_nopoints (meetsD ?_), sliceD ?_⟩ <;> decide +kernel

theorem witness_BitOperationsCompute :
    Meets (.bfx ⟨0, 5, 1, 3, 0, 0, 0, 0⟩) lab (fun c => Points c [1, 3] 32) ∧ Meets (.imin ⟨0, 5, 1, 11, 0, 0, 0, 0⟩) lab (fun c => ¬ ∃ w, Points c [1, 11] w) ∧
    SliceMeets (.nmax ⟨0, 15, 1, 3, 0, 0, 0, 0⟩) labX (fun _ => True) ∧ Meets (.popc ⟨0, 5, 11, 0, 0, 0⟩) lab (fun c => Points c [11] 64) ∧
    Meets (.brev ⟨0, 5, 16, 0, 0, 0⟩) lab (fun c => ¬ ∃ w, Points c [16] w) ∧ SliceMeets (.clz ⟨0, 15, 1, 0, 0, 0⟩) labX (fun _ => True) := by
  refine ⟨meetsD ?_, meets_nopoints (meetsD ?_), sliceD ?_, meetsD ?_, meets_nopoints (meetsD ?_), sliceD ?_⟩ <;> decide +kernel

theorem witness_IntegerComparesDecide :
    Meets (.icmpLt ⟨0, 7, 1, 3, 0, 0, 0, 0⟩) lab (fun c => Points c [1, 3] 32) ∧ Meets (.icmpTst ⟨0, 0, 11, 12, 0, 0, 0, 0⟩) lab (fun c => Points c [11, 12] 64) ∧
    Meets (.icmpEq ⟨0, 1, 1, 20, 0, 0, 0, 0⟩) lab (fun c => ¬ ∃ w, Points c [1, 20] w) ∧ SliceMeets (.icmpLen ⟨0, 7, 1, 15, 0, 0, 0, 0⟩) labX (fun _ => True) := by
  refine ⟨meetsD ?_, meetsD ?_, meets_nopoints (meetsD ?_), sliceD ?_⟩ <;> decide +kernel

theorem witness_ImmediatesAndSelectCompute :
    Meets (.iaddi ⟨0, 5, 1, 511, 0, 0⟩) lab (fun c => Points c [1] 32) ∧ Meets (.shli ⟨0, 5, 11, 0, 0, 0⟩) lab (fun c => Points c [11] 64) ∧
    Meets (.andi ⟨0, 5, 16, 0, 0, 0⟩) lab (fun c => ¬ ∃ w, Points c [16] w) ∧ SliceMeets (.imuli ⟨0, 15, 1, 511, 0, 0⟩) labX (fun _ => True) ∧
    Meets (.movi ⟨0, 5, 2 ^ 18 - 1, 0⟩) lab (fun _ => True) ∧ SliceMeets (.movi ⟨0, 15, 2 ^ 18 - 1, 0⟩) labX (fun _ => True) ∧
    Meets (.movhi ⟨0, 1, 2 ^ 18 - 1, 0⟩) lab (fun c => c.src.shape 1 = .p32) ∧ Meets (.movhi ⟨0, 11, 0, 0⟩) lab (fun c => c.src.shape 11 ≠ .p32) ∧
    SliceMeets (.movhi ⟨0, 15, 0, 0⟩) labX (fun _ => True) ∧
    Meets (.sel ⟨0, 5, 1, 16, 0, 0, 1, 0⟩) (labWith (fun g => g.modLanes [3] (fun y => { y with q := [.t, .t, .f, .f, .f, .f, .f, .f] })) id)
      (fun c => (c.src.shape 1).width = (c.src.shape 16).width) ∧
    Meets (.sel ⟨0, 5, 1, 12, 0, 0, 0, 0⟩) lab (fun c => (c.src.shape 1).width ≠ (c.src.shape 12).width) ∧
    SliceMeets (.sel ⟨0, 15, 1, 3, 0, 0, 0, 0⟩) labX (fun _ => True) := by
  refine ⟨meetsD ?_, meetsD ?_, meets_nopoints (meetsD ?_), sliceD ?_, meetsD ?_, sliceD ?_, meetsD ?_, meetsD ?_, sliceD ?_, meetsD ?_, meetsD ?_,
    sliceD ?_⟩ <;> decide +kernel

theorem witness_FloatArithmeticRounds :
    Meets (.fadd ⟨0, 5, 1, 3, 0, 0, 0, 0⟩) lab (fun c => Points c [1, 3] 32) ∧ Meets (.fmul ⟨0, 5, 11, 12, 0, 0, 0, 0⟩) lab (fun c => Points c [11, 12] 64) ∧
    Meets (.fma ⟨0, 0, 1, 3, 0, 0, 0, 0⟩) lab (fun c => Points c [1, 3, 0] 32) ∧
    Meets (.fsub ⟨0, 5, 16, 2, 0, 0, 0, 0⟩) lab (fun c => Widths c [16, 2] 32 ∧ ∃ r ∈ [16, 2], (c.src.shape r).isIv = true) ∧
    Meets (.fmin ⟨0, 5, 20, 11, 0, 0, 0, 0⟩) lab (fun c => Widths c [20, 11] 64 ∧ ∃ r ∈ [20, 11], (c.src.shape r).isIv = true) ∧
    Meets (.fmax ⟨0, 5, 1, 11, 0, 0, 0, 0⟩) lab (fun c => ¬ ∃ w, Widths c [1, 11] w) := by
  refine ⟨meetsD ?_, meetsD ?_, meetsD ?_, meetsD ?_, meetsD ?_, meets_nowidth (meetsD ?_)⟩ <;> decide +kernel

theorem witness_FloatComparesDecide :
    Meets (.fcmpLt ⟨0, 7, 1, 3, 0, 0, 0, 0⟩) lab (fun c => Points c [1, 3] 32) ∧ Meets (.fcmpUno ⟨0, 1, 11, 12, 0, 0, 0, 0⟩) lab (fun c => Points c [11, 12] 64) ∧
    Meets (.fcmpGe ⟨0, 1, 16, 2, 0, 0, 0, 0⟩) lab (fun c => Widths c [16, 2] 32 ∧ ((c.src.shape 16).isIv = true ∨ (c.src.shape 2).isIv = true)) ∧
    Meets (.fcmpEq ⟨0, 1, 1, 11, 0, 0, 0, 0⟩) lab (fun c => (c.src.shape 1).width ≠ (c.src.shape 11).width) := by
  refine ⟨meetsD ?_, meetsD ?_, meetsD ?_, meetsD ?_⟩ <;> decide +kernel

theorem witness_FloatUnaryComputes :
    Meets (.fsqrt ⟨0, 5, 2, 0, 0, 0, 0⟩) lab (fun c => Points c [2] 32) ∧ Meets (.frint ⟨0, 5, 11, 0, 0, 0, 6⟩) lab (fun c => Points c [11] 64) ∧
    Meets (.fsin ⟨0, 5, 16, 0, 0, 0, 5⟩) lab (fun c => Widths c [16] 32 ∧ ∃ r ∈ [16], (c.src.shape r).isIv = true) ∧
    Meets (.fclass ⟨0, 5, 16, 0, 0, 0, 0⟩) lab (fun c => (c.src.shape 16).isIv = true) ∧ Meets (.fclass ⟨0, 5, 2, 0, 0, 0, 0⟩) lab (fun c => Points c [2] 32) ∧
    Meets (.ivlo ⟨0, 5, 2, 0, 0, 0, 0⟩) lab (fun c => Points c [2] 32) ∧ Meets (.ivhi ⟨0, 5, 20, 0, 0, 0, 0⟩) lab (fun c => (c.src.shape 20).isIv = true) ∧
    Meets (.mov ⟨0, 5, 20, 0, 0, 0⟩) lab (fun _ => True) := by
  refine ⟨meetsD ?_, meetsD ?_, meetsD ?_, meetsD ?_, meetsD ?_, meetsD ?_, meetsD ?_, meetsD ?_⟩ <;> decide +kernel

theorem witness_IntervalWordsCompute :
    Meets (.ivhull ⟨0, 5, 16, 2, 0, 0, 0, 0⟩) lab (fun c => Widths c [16, 2] 32) ∧ Meets (.ivmeet ⟨0, 5, 16, 20, 0, 0, 0, 0⟩) lab (fun c => ¬ ∃ w, Widths c [16, 20] w) ∧
    Meets (.ivmk ⟨0, 5, 11, 12, 0, 0, 0, 0⟩) lab (fun c => Points c [11, 12] 64) ∧ Meets (.ivmk ⟨0, 5, 16, 2, 0, 0, 0, 0⟩) lab (fun c => ¬ ∃ w, Points c [16, 2] w) ∧
    Meets (.ivpown ⟨0, 5, 16, 1, 0, 0, 0, 0⟩) lab (fun c => c.src.shape 1 = pointShape (c.src.shape 16).width) ∧
    Meets (.ivpown ⟨0, 5, 16, 11, 0, 0, 0, 0⟩) lab (fun c => c.src.shape 11 ≠ pointShape (c.src.shape 16).width) ∧
    Meets (.ivsplit ⟨0, 31, 16, 0, 0, 0⟩) lab (fun _ => True) ∧ Meets (.ivsqr ⟨0, 5, 16, 0, 0, 0⟩) lab (fun c => Widths c [16] 32) ∧
    Meets (.disjoint ⟨0, 7, 16, 17, 0, 0, 0, 0⟩) lab (fun c => Widths c [16, 17] 32) ∧
    Meets (.subset ⟨0, 7, 16, 20, 0, 0, 0, 0⟩) lab (fun c => (c.src.shape 16).width ≠ (c.src.shape 20).width) ∧
    Meets (.zin ⟨0, 7, 16, 0, 0, 0⟩) lab (fun _ => True) := by
  refine ⟨meetsD ?_, meets_nowidth (meetsD ?_), meetsD ?_, meets_nopoints (meetsD ?_), meetsD ?_, meetsD ?_, meetsD ?_, meetsD ?_, meetsD ?_, meetsD ?_,
    meetsD ?_⟩ <;> decide +kernel

theorem witness_PredicateLogicComputes :
    Meets (.qand ⟨0, 0, 7, 1, 0, 0⟩) lab (fun _ => True) ∧ Meets (.qnot ⟨0, 7, 0, 0, 0⟩) lab (fun _ => True) ∧ Meets (.qset ⟨0, 7, 2, 0, 0⟩) lab (fun _ => True) := by
  refine ⟨meetsD ?_, meetsD ?_, meetsD ?_⟩ <;> decide +kernel

theorem witness_ConversionsConvert :
    Meets (.cvtF64F32 ⟨0, 31, 2, 0, 0, 0, 0⟩) lab (fun c => c.src.shape 2 = .p32) ∧ Meets (.cvtI64F64 ⟨0, 5, 11, 0, 0, 0, 6⟩) lab (fun c => c.src.shape 11 = .p64) ∧
    Meets (.cvtF32I32 ⟨0, 5, 16, 0, 0, 0, 1⟩) lab (fun c => c.src.shape 16 ≠ .p32) ∧ Meets (.cvtI32I64 ⟨0, 5, 2, 0, 0, 0, 1⟩) lab (fun c => c.src.shape 2 ≠ .p64) := by
  refine ⟨meetsD ?_, meetsD ?_, meetsD ?_, meetsD ?_⟩ <;> decide +kernel

theorem witness_PackedConversionsConvert :
    Meets (.cvtPkE4m3 ⟨0, 5, 0, 0, 0, 0, 1⟩) lab (fun c => ∀ q ∈ regRun 0 4, c.src.shape q = .p32) ∧
    Meets (.cvtPkF16 ⟨0, 5, 1, 0, 0, 0, 5⟩) lab (fun c => ∀ q ∈ regRun 1 2, c.src.shape q = .p32) ∧
    Meets (.cvtPkQ4n ⟨0, 5, 1, 0, 0, 0, 1⟩) lab (fun c => ¬ ∀ q ∈ regRun 1 8, c.src.shape q = .p32) ∧
    Meets (.cvtUpQ4n ⟨0, 28, 1, 0, 0, 0, 1⟩) lab (fun c => c.src.shape 1 = .p32) ∧ Meets (.cvtUpI8 ⟨0, 5, 11, 0, 0, 0, 1⟩) lab (fun c => c.src.shape 11 ≠ .p32) ∧
    Meets (.sideGet ⟨0, 5, 20, 0, 0, 0, 0⟩) lab (fun _ => True) ∧ Meets (.sideSet ⟨0, 20, 1, 0, 0, 0, 0⟩) lab (fun c => c.src.shape 1 = .p32) ∧
    Meets (.sideSet ⟨0, 20, 11, 0, 0, 0, 0⟩) lab (fun c => c.src.shape 11 ≠ .p32) := by
  refine ⟨meetsD ?_, meetsD ?_, meetsD ?_, meetsD ?_, meetsD ?_, meetsD ?_, meetsD ?_, meetsD ?_⟩ <;> decide +kernel

theorem witness_ShufflesAndVotesDeliver :
    Meets (.shflu ⟨0, 5, 20, 1, 0, 0, 0, 0⟩) lab (fun c => c.src.shape 1 = .p32) ∧ Meets (.shfl ⟨0, 5, 20, 11, 0, 0, 0, 0⟩) lab (fun c => c.src.shape 11 ≠ .p32) ∧
    Meets (.vote 0 5 7 3 0 0) lab (fun _ => True) ∧ Meets (.matchLanes ⟨0, 5, 0, 0, 0, 0⟩) lab (fun _ => True) := by
  refine ⟨meetsD ?_, meetsD ?_, meetsD ?_, meetsD ?_⟩ <;> decide +kernel

theorem witness_ReductionsCombine :
    Meets (.gredIadd ⟨0, 5, 0, 0, 0, 0⟩) lab (fun c => (!(c.src.shape 0).isIv) = true) ∧ Meets (.gredXor ⟨0, 5, 16, 0, 0, 0⟩) lab (fun c => (!(c.src.shape 16).isIv) = false) ∧
    Meets (.gredFadd ⟨0, 5, 16, 0, 0, 0⟩) lab (fun _ => True) := by
  refine ⟨meetsD ?_, meetsD ?_, meetsD ?_⟩ <;> decide +kernel

theorem witness_QuadWordsDeliver :
    Meets (.qxd ⟨0, 5, 20, 0, 0, 0⟩) lab (fun _ => True) ∧ Meets (.ddxf ⟨0, 5, 2, 0, 0, 0⟩) lab (fun c => c.src.shape 2 = pointShape (c.src.shape 2).width) ∧
    Meets (.ddyc ⟨0, 5, 20, 0, 0, 0⟩) lab (fun c => c.src.shape 20 = ivShape (c.src.shape 20).width) ∧ Meets (.helpq 0 5 0 0) lab (fun _ => True) := by
  refine ⟨meetsD ?_, meetsD ?_, meetsD ?_, meetsD ?_⟩ <;> decide +kernel

theorem witness_TransfersGoToTheirTargets :
    Meets (.br 0 0 3 0x1FFFFF) lab (fun _ => True) ∧ SliceMeets (.br 0 7 3 0) labX (fun _ => True) ∧ Meets (.call 0 31 0x7FFF) lab (fun _ => True) ∧
    SliceMeets (.call 0 15 0) labX (fun _ => True) ∧ Meets (.ret 0 11) lab (fun c => c.src.shape 11 = .p64) ∧
    Meets (.jmpr 0 5 12 1) lab (fun c => c.src.shape 12 = .p64) ∧ Meets (.jmpr 0 0 1 0) lab (fun c => c.src.shape 1 ≠ .p64) ∧
    SliceMeets (.ret 0 1) labX (fun x => (x.reg 1).toNat % 12 = 0) ∧ SliceMeets (.jmpr 0 15 2 1) labX (fun x => (x.reg 2).toNat % 12 ≠ 0) := by
  refine ⟨meetsD ?_, sliceD ?_, meetsD ?_, sliceD ?_, meetsD ?_, meetsD ?_, meetsD ?_, sliceD ?_, sliceD ?_⟩ <;> decide +kernel

theorem witness_PathsEndYieldAndJoin :
    Meets (.exit 0) (labWith (fun g => { g with tileFault := some ⟨0, .matFifo, 0, 1⟩ }) id) (fun c => c.grp.tileFault = some ⟨0, .matFifo, 0, 1⟩) ∧
    Meets (.exit 0) (labWith (fun g => { g with copyFault := some ⟨.access, 0, 0, 1⟩ }) id)
      (fun c => c.grp.tileFault = none ∧ c.grp.copyFault = some ⟨.access, 0, 0, 1⟩) ∧
    Meets (.exit 0) lab (fun c => c.grp.tileFault = none ∧ c.grp.copyFault = none) ∧ SliceMeets (.exit 0) labX (fun _ => True) ∧
    Meets (.yield 0) lab (fun _ => True) ∧ Meets (.splitj 0 15) lab (fun _ => True) ∧ Meets (.join 0 15) lab (fun _ => True) ∧
    Meets (.jmaskGet 0 15 31) lab (fun _ => True) ∧ Meets (.jmaskSet 0 15 11) lab (fun c => c.src.shape 11 = .p64) ∧
    Meets (.jmaskSet 0 0 1) lab (fun c => c.src.shape 1 ≠ .p64) ∧ Meets (.jmaskAdd 0 0) lab (fun _ => True) ∧ Meets (.jmaskDel 0 0) lab (fun _ => True) ∧
    Meets (.jmaskClr 0 0) lab (fun _ => True) := by
  refine ⟨meetsD ?_, meetsD ?_, meetsD ?_, sliceD ?_, meetsD ?_, meetsD ?_, meetsD ?_, meetsD ?_, meetsD ?_, meetsD ?_, meetsD ?_, meetsD ?_, meetsD ?_⟩ <;>
    decide +kernel

/-- The laboratory over a memory whose second 4 TiB are a window to package 0, with v13 an address there in each lane; a record on `outside`. -/
def labPeer : State :=
  (labWith (fun g => { g with regs := tset g.regs 13 (vec .p64 (fun l => 2 ^ 42 + 8 * l)) }) id).modPkg (fun p =>
    { p with routes := [(0, true, 1)] }) |> fun s => { s with mem := memPutList s.mem 0x200008 (leBytes 8 (0x400000000000 + 115)) }

/-- An access of lane 0 of the laboratory's group that is outstanding at package 0. -/
def sentOut (w : OutsideWork) : Outside :=
  { id := 0, batch := 0, who := lab.cur.who, lanes := [(0, 0, 0)], pc := 0, step := none, sent := 0, package := 0, pa := 0x400000000000, va := 0, data := [],
    aop := 0, acq := false, packet := 0, work := w }
/-- The laboratory with an access outstanding. -/
def labOut (w : OutsideWork) : State := lab.modPkg (fun p => { p with outside := [sentOut w] })
/-- The laboratory whose lanes are helpers. -/
def labHelp : State := labWith (fun g => g.modLanes (upto 0 8) (fun y => { y with helper := true })) id
/-- The laboratory with v14 an address that no table maps and v15 one line of memory for each lane. -/
def labMap : State := labWith (fun g => { g with regs := tset (tset g.regs 14 (vec .p64 (fun _ => 2 ^ 45))) 15 (vec .p64 (fun l => 0x340000 + 128 * l)) }) id

/-- A state in which every slice of die 0 has stopped. -/
def stopAll (s : State) : State := s.modDie 0 (fun d => { d with deadSlices := upto 0 64 })

theorem witness_LoadsLoad :
    let k := Acc.plain .read 4 4 true 0
    MeetsAt (.ld ⟨0, 5, 8, 0, 4, 1, 0⟩) lab k (·.act) (addrOf 8 0 4) (fun _ => .scratch 0) (fun c => c.src.shape 8 = .p64) (fun c t => ∀ l ∈ c.act, Readable t (.scratch 0)) ∧
    MeetsAt (.lda ⟨0, 5, 9, 31, 4, 5, 3⟩) lab k (·.act) (addrOf 9 31 4) (fun _ => .global [⟨0x2FFFFC, 0x2FFFFC, 115, 42, 4⟩]) (fun c => c.src.shape 9 = .p64)
      (fun c t => ∀ l ∈ c.act, Readable t (.global [⟨0x2FFFFC, 0x2FFFFC, 115, 42, 4⟩])) ∧
    MeetsAt (.ld ⟨0, 5, 9, 0, 4, 1, 0⟩) (lab.modPkg (fun p => { p with poisoned := [0x300000 / 8] })) k (·.act) (addrOf 9 0 4)
      (fun _ => .global [⟨0x300000, 0x300000, 115, 42, 4⟩]) (fun c => c.src.shape 9 = .p64)
      (fun c t => ∀ l ∈ c.act, t.outsidePlace (.global [⟨0x300000, 0x300000, 115, 42, 4⟩]) = false ∧ t.badPlace (.global [⟨0x300000, 0x300000, 115, 42, 4⟩]) = true) ∧
    MeetsAt (.ld ⟨0, 5, 13, 0, 4, 5, 0⟩) labPeer k (·.act) (addrOf 13 0 4) (fun l => .global [⟨0x400000000000 + 8 * l, 2 ^ 42 + 8 * l, 115, 42, 4⟩])
      (fun c => c.src.shape 13 = .p64) (fun c t => ∀ l ∈ c.act, t.outsidePlace (.global [⟨0x400000000000 + 8 * l, 2 ^ 42 + 8 * l, 115, 42, 4⟩]) = true) ∧
    Meets (.ld ⟨0, 5, 14, 0, 4, 5, 0⟩) labMap (fun c => c.src.shape 14 = .p64 ∧ c.badReshape (Out.v 5 .p32 []).vs = false ∧
      c.overQuota (labMap.uses (.ld ⟨0, 5, 14, 0, 4, 5, 0⟩)) (Out.v 5 .p32 []) = false ∧
      (accTrap ((labMap.places c.core c.wg k (c.act.map (fun l => (l, addrOf 14 0 4 c l)))).1.filter (fun r => !c.helperZero r)) (addrOf 14 0 4 c)).isSome = true) ∧
    Meets (.ld ⟨0, 5, 1, 0, 4, 5, 0⟩) lab (fun c => c.src.shape 1 ≠ .p64) ∧
    MeetsAt (.acqp 0 5 9 1) lab ⟨.read, 8, 8, false, none, true, true, false, false⟩ (·.act) (fun c l => (c.src.read 9 l).setWidth 64)
      (fun _ => .global [⟨0x300000, 0x300000, 115, 42, 8⟩]) (fun c => c.src.shape 9 = .p64) (fun c t => ∀ l ∈ c.act, Readable t (.global [⟨0x300000, 0x300000, 115, 42, 8⟩])) ∧
    SliceMeets (.ld ⟨0, 15, 3, 0, 6, 1, 0⟩) labX (fun _ => 6 ≤ 6) ∧
    SliceMeets (.ld ⟨0, 15, 3, 0, 5, 1, 0⟩) labX (fun x => ∃ w ∈ labX.curWg, ∃ p ∈ (labX.place 0 w true (Acc.plain .read 8 8 true 0) (x.reg 3)).1.toOption,
      Readable (labX.place 0 w true (Acc.plain .read 8 8 true 0) (x.reg 3)).2 p) ∧
    SliceMeets (.ld ⟨0, 15, 1, 1, 0, 1, 0⟩) (labSlice [0, 2 ^ 45]) (fun x => ∃ w ∈ (labSlice [0, 2 ^ 45]).curWg,
      ((labSlice [0, 2 ^ 45]).place 0 w true (Acc.plain .read 1 1 true 0) (x.reg 1 + 1)).1.toOption = none) := by
  refine ⟨meetsAtD ?_, meetsAtD ?_, meetsAtD ?_, meetsAtD ?_, meetsD ?_, meetsD ?_, meetsAtD ?_, sliceD ?_, sliceD ?_, sliceD ?_⟩ <;> decide +kernel

theorem witness_StoresStore :
    let k := Acc.plain .write 4 4 true 0
    Meets (.st ⟨0, 1, 8, 0, 4, 1, 0⟩) labHelp (fun c => c.doers = []) ∧
    MeetsAt (.st ⟨0, 1, 15, 0, 4, 1, 0⟩) labMap k (·.doers) (addrOf 15 0 4) (fun l => .global [⟨0x340000 + 128 * l, 0x340000 + 128 * l, 115, 42, 4⟩])
      (fun c => c.doers ≠ [] ∧ c.src.shape 15 = .p64 ∧ c.src.shape 1 = szShape 4) (fun _ _ => True) ∧
    MeetsRefused (.stl ⟨0, 1, 14, 0, 4, 1, 0⟩) labMap k (·.doers) (addrOf 14 0 4) (fun c => c.doers ≠ [] ∧ c.src.shape 14 = .p64 ∧ c.src.shape 1 = szShape 4) ∧
    Meets (.st ⟨0, 11, 8, 0, 4, 1, 0⟩) lab (fun c => c.doers ≠ [] ∧ (c.src.shape 8 ≠ .p64 ∨ c.src.shape 11 ≠ szShape 4)) ∧
    Meets (.stl ⟨0, 1, 8, 0, 4, 5, 0⟩) (labOut .store) (fun c => c.doers ≠ [] ∧ c.src.shape 8 = .p64 ∧ c.src.shape 1 = szShape 4 ∧ (labOut .store).writesOut c = true) ∧
    MeetsAt (.stl ⟨0, 1, 8, 0, 4, 5, 0⟩) lab k (·.doers) (addrOf 8 0 4) (fun _ => .scratch 0)
      (fun c => c.doers ≠ [] ∧ c.src.shape 8 = .p64 ∧ c.src.shape 1 = szShape 4 ∧ lab.writesOut c = false) (fun _ _ => True) := by
  refine ⟨meetsD ?_, meetsAtD ?_, meetsRefusedD ?_, meetsD ?_, meetsD ?_, meetsAtD ?_⟩ <;> decide +kernel

theorem witness_GranulesMove :
    let at_ : (Nat × Nat × Bool) → Nat → Place := fun _ r => .scratch (33 * r)
    MeetsGran (.ldg ⟨0, 11, 8, 0, 1, 0⟩) lab .read 0 8 11 0 (·.granLanes) at_ (fun c => c.src.shape 8 = .p64 ∧ ∀ g ∈ c.granLanes, g.2.2 = false)
      (fun c t => ∀ g ∈ c.granLanes, ∀ r < (c.src.shape 11).rows, Readable t (at_ g r)) ∧
    MeetsGran (.stg ⟨0, 20, 8, 0, 1, 0⟩) lab .write 0 8 20 0 (fun c => c.granLanes.filter (fun g => !g.2.2)) at_
      (fun c => c.src.shape 8 = .p64 ∧ c.granLanes.filter (fun g => !g.2.2) ≠ []) (fun _ _ => True) ∧
    Meets (.stg ⟨0, 20, 8, 0, 1, 0⟩) labHelp (fun c => c.granLanes.filter (fun g => !g.2.2) = []) ∧
    Meets (.ldg ⟨0, 20, 1, 0, 1, 0⟩) lab (fun c => c.src.shape 1 ≠ .p64) ∧
    Meets (.stg ⟨0, 20, 1, 0, 1, 0⟩) lab (fun c => c.granLanes.filter (fun g => !g.2.2) ≠ [] ∧ c.src.shape 1 ≠ .p64) := by
  refine ⟨meetsGranD ?_, meetsGranD ?_, meetsD ?_, meetsD ?_, meetsD ?_⟩ <;> decide +kernel

/-- The access of LINE.WB, INV and WBINV to one byte, and of LINE.ZERO to a line. -/
def linePlain (zero : Bool) : Acc := { Acc.plain .write 1 (if zero then 128 else 1) false 2 with boardOk := !zero }

theorem witness_LinesAreMoved :
    let line : Ctx → Nat → W64 := fun c l => BitVec.ofNat 64 ((addrOf 15 0 128 c l).toNat / 128 * 128)
    let q : Nat → Piece := fun l => ⟨0x340000 + 128 * l, 0x340000 + 128 * l, 115, 42, 128⟩
    Meets (.pref 0 1 0 1 0) lab (fun c => c.src.shape 1 ≠ .p64) ∧ Meets (.pref 0 9 0 2 3) lab (fun c => c.src.shape 9 = .p64) ∧
    Meets (.lineInv 0 9 0 1) labHelp (fun c => c.doers = []) ∧
    MeetsAt (.lineWb 0 15 0 4) labMap (linePlain false) (·.doers) (addrOf 15 0 128) (fun l => .global [{ q l with len := 1 }])
      (fun c => c.doers ≠ [] ∧ c.src.shape 15 = .p64) (fun _ _ => True) ∧
    Meets (.lineWbinv 0 1 0 1) lab (fun c => c.doers ≠ [] ∧ c.src.shape 1 ≠ .p64) ∧ Meets (.lineZero 0 9 0 1) labHelp (fun c => c.doers = []) ∧
    Meets (.lineZero 0 1 0 1) lab (fun c => c.doers ≠ [] ∧ c.src.shape 1 ≠ .p64) ∧
    MeetsAt (.lineZero 0 8 0 1) lab (linePlain true) (·.doers) (fun c l => BitVec.ofNat 64 ((addrOf 8 0 128 c l).toNat / 128 * 128)) (fun _ => .scratch 0)
      (fun c => c.doers ≠ [] ∧ c.src.shape 8 = .p64) (fun _ t => t.outsidePlace (.scratch 0) = false) ∧
    MeetsAt (.lineZero 0 15 0 1) labMap (linePlain true) (·.doers) line (fun l => .global [q l])
      (fun c => c.doers ≠ [] ∧ c.src.shape 15 = .p64) (fun _ _ => True) := by
  refine ⟨meetsD ?_, meetsD ?_, meetsD ?_, meetsAtD ?_, meetsD ?_, meetsD ?_, meetsD ?_, meetsAtD ?_, meetsAtD ?_⟩ <;> decide +kernel

theorem witness_FencesAndCacheAct :
    Meets (.fenceRel 0 5) (labOut .store) (fun c => (labOut .store).writesOut c = true) ∧
    Meets (.fenceAcq 0 0) (labOut (.load 5 .p32 false 4)) (fun c => (labOut (.load 5 .p32 false 4)).readsOut c = true) ∧
    Meets (.fence 0 5) lab (fun c => ¬ ((5 = 5 ∧ lab.writesOut c = true) ∨ lab.readsOut c = true)) ∧ Meets (.cacheWbinv 0) lab (fun _ => True) ∧
    Meets (.gfence 0 0 0 0) (labOut (.load 5 .p32 false 4)) (fun c => (labOut (.load 5 .p32 false 4)).pkg.outside.any (fun o => decide (o.who = c.who) && o.lanes.any (fun y => c.act.contains y.1) &&
      (match o.work with
        | .load _ _ _ _ => true
        | .atomic _ _ _ => true
        | _ => false)) = true) ∧
    Meets (.gfence 0 1 7 7) (labWith (fun g => g.modLanes [7] (fun y => { y with q := [.t, .f, .f, .f, .f, .f, .f, .t] })) id) (fun _ => lab.pkg.outside = []) := by
  refine ⟨meetsD ?_, meetsD ?_, meetsD ?_, meetsD ?_, meetsD ?_, meetsD ?_⟩ <;> decide +kernel

theorem witness_AtomicsPerform :
    let addr : Nat → Ctx → Nat → W64 := fun a c l => (c.src.read a l).setWidth 64
    Meets (.atomAdd ⟨0, 5, 1, 1, 1, 0, 0, 1⟩) lab (fun c => ¬ (c.src.shape 1 = .p64 ∧ c.src.shape 1 = .p32)) ∧
    Meets (.atomCas ⟨0, 11, 8, 1, 1, 0, 0, 1⟩) lab (fun c => ¬ (c.src.shape 8 = .p64 ∧ c.src.shape 1 = .p32 ∧ c.src.shape 11 = .p32)) ∧
    Meets (.atomOr ⟨0, 5, 9, 1, 5, 2, 0, 1⟩) (labOut .store) (fun c => c.src.shape 9 = .p64 ∧ c.src.shape 1 = .p32 ∧ 2 ≤ 2 ∧ (labOut .store).writesOut c = true) ∧
    MeetsRefused (.atomXchg ⟨0, 5, 14, 1, 5, 0, 0, 1⟩) labMap (atomAcc 8 32 5) (·.doers) (addr 14) (fun c => c.src.shape 14 = .p64 ∧ c.src.shape 1 = .p32) ∧
    MeetsAt (.atomFadd ⟨0, 5, 8, 1, 1, 0, 0, 1⟩) lab (atomAcc 10 32 1) (·.doers) (addr 8) (fun _ => .scratch 0)
      (fun c => c.src.shape 8 = .p64 ∧ c.src.shape 1 = .p32) (fun _ _ => True) ∧
    MeetsAt (.atomDecw ⟨0, 0, 9, 11, 5, 3, 1, 0⟩) lab (atomAcc 14 64 5) (·.doers) (addr 9) (fun _ => .global [⟨0x300000, 0x300000, 115, 42, 8⟩])
      (fun c => c.src.shape 9 = .p64 ∧ c.src.shape 11 = .p64 ∧ lab.writesOut c = false) (fun _ _ => True) := by
  refine ⟨meetsD ?_, meetsD ?_, meetsD ?_, meetsRefusedD ?_, meetsAtD ?_, meetsAtD ?_⟩ <;> decide +kernel

theorem witness_AtomicValuesAreThoseOfTheTable : ∃ w : Nat, w = 32 ∨ w = 64 := ⟨32, .inl rfl⟩

/-- The laboratory with a word stored after the one at the program counter. -/
def labNext (w : Nat) : State := { lab with mem := memPutList lab.mem 0x300004 (leBytes 4 w) }
/-- The laboratory with nothing mapped. -/
def labEnd : State := { lab with mem := memPutList lab.mem 0x200000 (leBytes 8 0) }
/-- A running handler that returns to word address 0x180 plus n bytes. -/
def labHandler (n : Nat) : State := labWith (fun g => { g with ctrl := { g.ctrl with trapH := true, trappc := BitVec.ofNat 55 (0x600 + n) } }) id

theorem witness_TrapReturnSleepAndRepeatAct :
    Meets (.nop 0) lab (fun _ => True) ∧ SliceMeets (.nop 0) labX (fun _ => True) ∧ Meets (.trap 0 1023) lab (fun _ => True) ∧
    Meets (.eret 0) lab (fun c => c.grp.ctrl.trapH = false) ∧
    Meets (.eret 0) (labHandler 2) (fun c => c.grp.ctrl.trapH = true ∧ c.grp.ctrl.trappc.toNat % 4 ≠ 0) ∧
    Meets (.eret 0) (labHandler 0) (fun c => c.grp.ctrl.trapH = true ∧ c.grp.ctrl.trappc.toNat % 4 = 0) ∧
    Meets (.sleep 0 0) lab (fun _ => True) ∧ Meets (.sleep 0 65535) lab (fun _ => 65535 ≠ 0) ∧
    Meets (.rep 63 4 3 7) labEnd (fun c => (labEnd.fetchCur (c.pc + 1)).1.toOption = none) ∧
    Meets (.rep 2 1 1 0) (labNext 0x08811820) (fun c => ((labNext 0x08811820).fetchCur (c.pc + 1)).1.toOption = some 0x08811820 ∧ chainBit 0x08811820 = false ∧ repForbids 0x08811820 = false ∧ repBadInc 0x08811820 1 1 0 = false) ∧
    Meets (.rep 2 1 1 0) (labNext 0x44500000) (fun c => ((labNext 0x44500000).fetchCur (c.pc + 1)).1.toOption = some 0x44500000 ∧ chainBit 0x44500000 = false ∧ repForbids 0x44500000 = true) ∧
    Meets (.rep 2 1 1 1) (labNext 0x1C20001C) (fun c => ((labNext 0x1C20001C).fetchCur (c.pc + 1)).1.toOption = some 0x1C20001C ∧ chainBit 0x1C20001C = false ∧ repBadInc 0x1C20001C 1 1 1 = true) ∧
    Meets (.rep 2 1 1 0) (labNext 0x9841FF80) (fun c => ((labNext 0x9841FF80).fetchCur (c.pc + 1)).1.toOption = some 0x9841FF80 ∧ chainBit 0x9841FF80 = true) := by
  refine ⟨meetsD ?_, sliceD ?_, meetsD ?_, meetsD ?_, meetsD ?_, meetsD ?_, meetsD ?_, meetsD ?_, meetsD ?_, meetsD ?_, meetsD ?_, meetsD ?_, meetsD ?_⟩ <;>
    decide +kernel

theorem witness_ControlRegisterWordsAct :
    Meets (.crr 0 5 0x010) lab (fun c => lab.controlReg c 0x010 = none) ∧ Meets (.crr 0 5 0x105) lab (fun c => (lab.controlReg c 0x105).isSome = true) ∧
    Meets (.crw 0 1 0xFFF) lab (fun c => lab.controlReg c 0xFFF = none) ∧
    Meets (.crset 0 11 0) lab (fun c => (lab.controlReg c 0).isSome = true ∧ c.src.shape 11 ≠ .p32) ∧
    Meets (.crclr 0 1 0xF) lab (fun c => (lab.controlReg c 0xF).isSome = true ∧ c.src.shape 1 = .p32) := by
  refine ⟨meetsD ?_, meetsD ?_, meetsD ?_, meetsD ?_, meetsD ?_⟩ <;> decide +kernel

theorem witness_ControlRegisterMapReads :
    ∀ r ∈ [0x010, 0x0FF, 0x106, 0xFFF], (0x010 ≤ r ∧ r ≤ 0x0FF) ∨ 0x106 ≤ r := by decide

theorem witness_ControlRegisterWritesKeepReservedBits : ∀ r ∈ [0x010, 0xFFF], 0x010 ≤ r := by decide

/-- The laboratory with a second group like the first. -/
def labTwo (f : Group → Group) : State := labWith f (fun w => { w with groups := w.groups ++ w.groups })

theorem witness_QuotaMovesAndTranslationsGo :
    let g : Ctx → Nat := fun c => ((c.src.read 3 c.low).setWidth 32 : W32).toNat
    let n : Ctx → Nat := fun c => ((c.src.read 1 c.low).setWidth 32 : W32).toNat
    let one : Group → Group := fun g => { g with regs := tset labRegs 3 (vec .p32 (fun _ => 1)) }
    Meets (.quota 0 1 11 1) lab (fun c => c.src.shape 11 ≠ .p32 ∨ c.src.shape 1 ≠ .p32) ∧
    Meets (.quota 0 1 3 1) lab (fun c => c.src.shape 3 = .p32 ∧ c.src.shape 1 = .p32 ∧ c.wg.group (g c) = none) ∧
    Meets (.quota 0 1 3 1) (labTwo one) (fun c => c.src.shape 3 = .p32 ∧ c.src.shape 1 = .p32 ∧ g c ≠ c.who.grp ∧ (∃ y ∈ c.wg.group (g c), y.retired = false) ∧
      n c ≤ c.grp.quota - c.grp.used) ∧
    Meets (.quota 0 1 3 1) (labTwo (fun x => { one x with quota := 0, frees := [⟨0, []⟩] })) (fun c => c.src.shape 3 = .p32 ∧ c.src.shape 1 = .p32 ∧
      g c ≠ c.who.grp ∧ (∃ y ∈ c.wg.group (g c), y.retired = false) ∧ c.grp.quota - c.grp.used < n c ∧ c.grp.frees ≠ []) ∧
    Meets (.quota 0 1 3 1) (labTwo (fun x => { one x with quota := 0 })) (fun c => c.src.shape 3 = .p32 ∧ c.src.shape 1 = .p32 ∧
      g c ≠ c.who.grp ∧ (∃ y ∈ c.wg.group (g c), y.retired = false) ∧ c.grp.quota - c.grp.used < n c ∧ c.grp.frees = []) ∧
    Meets (.tlbinvPage 0 1) lab (fun c => c.src.shape 1 ≠ .p64) ∧
    Meets (.tlbinvPage 0 9) lab (fun c => c.src.shape 9 = .p64 ∧ lab.invPending (lab.partClusters c.wg.part (coreCluster c.core)) 0 c.wg.asid 0x300000 = false) ∧
    Meets (.tlbinvAsid 0) lab (fun c => lab.invPending (lab.partClusters c.wg.part (coreCluster c.core)) 1 c.wg.asid 0 = false) ∧
    Meets (.tlbinvAll 0) (labOut .store) (fun c => (labOut .store).invPending ((labOut .store).partClusters c.wg.part (coreCluster c.core)) 2 c.wg.asid 0 = true) := by
  refine ⟨meetsD ?_, meetsD ?_, meetsD ?_, meetsD ?_, meetsD ?_, meetsD ?_, meetsD ?_, meetsD ?_, meetsD ?_⟩ <;> decide +kernel

theorem witness_FirmwareCallsReply :
    Meets (.fwcallVersion 0 5 1) lab (fun c => c.src.shape 1 ≠ .p64) ∧
    Meets (.fwcallCounter 0 5 11) (labOut (.load 5 .p32 false 4)) (fun c => c.src.shape 11 = .p64 ∧ (labOut (.load 5 .p32 false 4)).readsOut c = true) ∧
    Meets (.fwcallHalfRow 0 5 11) lab (fun c => c.src.shape 11 = .p64 ∧ lab.readsOut c = false) ∧
    Meets (.fwcallUnlisted 0 5 11 6) lab (fun c => c.src.shape 11 = .p64 ∧ lab.readsOut c = false) := by
  refine ⟨meetsD ?_, meetsD ?_, meetsD ?_, meetsD ?_⟩ <;> decide +kernel

/-- Registers holding one value in every lane. -/
def put64 (vs : List (Nat × Nat)) (g : Group) : Group := { g with regs := vs.foldl (fun t v => tset t v.1 (vec .p64 (fun _ => v.2))) g.regs }
def put32 (vs : List (Nat × Nat)) (g : Group) : Group := { g with regs := vs.foldl (fun t v => tset t v.1 (vec .p32 (fun _ => v.2))) g.regs }

theorem witness_SyncWordsAct :
    let bad := labWith (put64 [(8, scratchBase + 4), (9, scratchBase + 1024), (10, scratchBase + 1016)]) id
    Meets (.swinit 0 1 1) lab (fun c => c.src.shape 1 ≠ .p64 ∨ c.src.shape 1 ≠ .p32) ∧
    Meets (.swadd 0 8 1) bad (fun c => c.src.shape 8 = .p64 ∧ c.src.shape 1 = .p32 ∧ (low64 c 8).toNat % 8 ≠ 0) ∧
    Meets (.swadd 0 9 1) bad (fun c => c.src.shape 9 = .p64 ∧ c.src.shape 1 = .p32 ∧ (low64 c 9).toNat % 8 = 0 ∧
      ¬ (scratchBase ≤ (low64 c 9).toNat ∧ (low64 c 9).toNat + 8 ≤ scratchBase + c.wg.scratchBytes)) ∧
    Meets (.swinit 0 10 1) bad (fun c => c.src.shape 10 = .p64 ∧ c.src.shape 1 = .p32 ∧ (low64 c 10).toNat = scratchBase + 1016 ∧ 1016 + 8 ≤ c.wg.scratchBytes) ∧
    Meets (.swwait 0 8 4) (labWith (fun g => { g with copyFault := some ⟨.access, 0, 0, 1⟩ }) id)
      (fun c => (low64 c 8).toNat = scratchBase + 0 ∧ c.grp.copyFault = some ⟨.access, 0, 0, 1⟩) ∧
    Meets (.swwait 0 8 1) lab (fun c => (low64 c 8).toNat = scratchBase + 0 ∧ c.grp.copyFault = none ∧ c.wg.word 0 % 2 ^ 16 ≠ (low32 c 1).toNat % 2 ^ 16) ∧
    Meets (.swwait 0 8 4) lab (fun c => (low64 c 8).toNat = scratchBase + 0 ∧ c.grp.copyFault = none ∧ c.wg.word 0 % 2 ^ 16 = (low32 c 4).toNat % 2 ^ 16) := by
  refine ⟨meetsD ?_, meetsD ?_, meetsD ?_, meetsD ?_, meetsD ?_, meetsD ?_, meetsD ?_⟩ <;> decide +kernel

theorem witness_BarrierObjectsAct :
    let bad := labWith (put64 [(9, scratchBase + 8), (10, scratchBase + 1024)]) id
    let s := labWith (put64 [(8, scratchBase + 1008)]) (fun w => w.setBar 1008 { overrun := false, phase := 3, remaining := 7, expected := 9, nextCount := 6, waiters := 0 })
    Meets (.barinit 0 8 1) lab (fun c => (low64 c 8).toNat = scratchBase + 0 ∧ (low64 c 8).toNat % 16 = 0 ∧ c.src.shape 8 = .p64 ∧ c.src.shape 1 = .p32) ∧
    Meets (.barrive 0 5 8 1) s (fun c => (low64 c 8).toNat = scratchBase + 1008 ∧ (c.wg.bar 1008).remaining = (low32 c 1).toNat % 2 ^ 16) ∧
    Meets (.bardrop 0 5 8 1) s (fun c => (low64 c 8).toNat = scratchBase + 1008 ∧ (c.wg.bar 1008).nextCount < (low32 c 1).toNat % 2 ^ 16 ∧
      c.badReshape (Out.v 5 .p32 []).vs = false ∧ c.overQuota (s.uses (.bardrop 0 5 8 1)) (Out.v 5 .p32 (lanes c (fun _ => elemN 3))) = false) ∧
    Meets (.barwait 0 1 8 1 3) s (fun c => (low64 c 8).toNat = scratchBase + 1008 ∧ c.src.shape 3 = .p32 ∧ (c.wg.bar 1008).phase ≠ (low32 c 1).toNat % 16) ∧
    Meets (.barwait 0 1 8 4 3) lab (fun c => (low64 c 8).toNat = scratchBase + 0 ∧ c.src.shape 3 = .p32 ∧ (c.wg.bar 0).phase = (low32 c 4).toNat % 16 ∧
      (low32 c 3).toNat ≠ 0) ∧
    Meets (.barwait 0 1 8 4 4) lab (fun c => (low64 c 8).toNat = scratchBase + 0 ∧ (c.wg.bar 0).phase = (low32 c 4).toNat % 16 ∧ (low32 c 4).toNat = 0) ∧
    Meets (.barwait 0 1 8 4 8) lab (fun c => ¬ ((c.src.shape 8 = .p64 ∧ c.src.shape 4 = .p32) ∧ c.src.shape 8 = .p32)) ∧
    Meets (.barwait 0 1 9 4 3) bad (fun c => c.src.shape 9 = .p64 ∧ (low64 c 9).toNat % 16 ≠ 0 ∧ c.badReshape Out.none.vs = false ∧
      c.overQuota (bad.uses (.barwait 0 1 9 4 3)) Out.none = false) ∧
    Meets (.barrive 0 5 10 1) bad (fun c => c.src.shape 10 = .p64 ∧ (low64 c 10).toNat % 16 = 0 ∧
      ¬ (scratchBase ≤ (low64 c 10).toNat ∧ (low64 c 10).toNat + 16 ≤ scratchBase + c.wg.scratchBytes) ∧ c.badReshape (Out.v 5 .p32 []).vs = false ∧
      c.overQuota (bad.uses (.barrive 0 5 10 1)) (Out.v 5 .p32 []) = false) := by
  refine ⟨meetsD ?_, meetsD ?_, meetsD ?_, meetsD ?_, meetsD ?_, meetsD ?_, meetsD ?_, meetsD ?_, meetsD ?_⟩ <;> decide +kernel

/-- A workgroup whose queue 15 holds n values in a ring of 4 entries at 512. -/
def queued (n : Nat) (w : Workgroup) : Workgroup := (w.setWord 480 (512 + 2 * 2 ^ 19)).setWord 488 (n * 2 ^ 32)

theorem witness_QueuesMoveValues :
    let lq : Nat → State := fun n => labWith id (queued n)
    let sq : Nat → State := fun n => labX.modWg 0 0 (queued n)
    Meets (.qpush 0 1 0) lab (fun c => (c.src.shape 1).isIv = false ∧ queueOk c.wg 0 = false) ∧
    Meets (.qpush 0 11 15) (lq 3) (fun c => (c.src.shape 11).isIv = false ∧ queueOk c.wg 15 = true ∧ queueLen c.wg 15 ≠ queueCap c.wg 15) ∧
    Meets (.qpush 0 11 15) (lq 4) (fun c => (c.src.shape 11).isIv = false ∧ queueOk c.wg 15 = true ∧ queueLen c.wg 15 = queueCap c.wg 15) ∧
    Meets (.qpush 0 16 15) lab (fun c => (c.src.shape 16).isIv = true) ∧
    Meets (.qpop 0 5 15) (lq 1) (fun c => queueOk c.wg 15 = true ∧ queueLen c.wg 15 ≠ 0) ∧
    Meets (.qpop 0 5 15) (lq 0) (fun c => queueOk c.wg 15 = true ∧ queueLen c.wg 15 = 0) ∧
    Meets (.qpop 0 5 0) lab (fun c => queueOk c.wg 0 = false ∧ c.badReshape (Out.v 5 .p64 []).vs = false ∧
      c.overQuota (lab.uses (.qpop 0 5 0)) (Out.v 5 .p64 []) = false) ∧
    Meets (.qtry 0 5 1 15) (lq 0) (fun c => queueOk c.wg 15 = true ∧ queueLen c.wg 15 = 0) ∧
    Meets (.qtry 0 5 1 15) (lq 4) (fun c => queueOk c.wg 15 = true ∧ queueLen c.wg 15 ≠ 0) ∧
    Meets (.qtry 0 5 1 0) lab (fun c => queueOk c.wg 0 = false) ∧
    SliceMeets (.qpush 0 4 0) labX (fun _ => (labX.curWg.map (fun w => queueOk w 0)) = some false) ∧
    SliceMeets (.qpush 0 4 15) (sq 3) (fun _ => ((sq 3).curWg.map (fun w => (queueOk w 15, decide (queueLen w 15 = queueCap w 15)))) = some (true, false)) ∧
    SliceMeets (.qpop 0 4 15) (sq 1) (fun _ => ((sq 1).curWg.map (fun w => (queueOk w 15, queueLen w 15))) = some (true, 1)) ∧
    SliceMeets (.qtry 0 4 1 15) (sq 0) (fun _ => ((sq 0).curWg.map (fun w => (queueOk w 15, queueLen w 15))) = some (true, 0)) ∧
    SliceMeets (.qpop 0 4 15) (sq 0) (fun _ => ((sq 0).curWg.map (fun w => (queueOk w 15, queueLen w 15))) = some (true, 0)) ∧
    SliceMeets (.qpush 0 4 15) (sq 4) (fun _ => ((sq 4).curWg.map (fun w => (queueOk w 15, decide (queueLen w 15 = queueCap w 15)))) = some (true, true)) := by
  refine ⟨meetsD ?_, meetsD ?_, meetsD ?_, meetsD ?_, meetsD ?_, meetsD ?_, meetsD ?_, meetsD ?_, meetsD ?_, meetsD ?_, sliceD ?_, sliceD ?_, sliceD ?_,
    sliceD ?_, sliceD ?_, sliceD ?_⟩ <;> decide +kernel

/-- The laboratory's packet, with one network barrier. -/
def netPacket (x : NetBar) : Packet :=
  { bits := placePacket, source := 0, asid := 1, tree := none, command := true, depth := 0, assigned := 1, dispatched := 1, ended := 0, cause := none,
    cancelled := false, gridDone := false, records := [], nbars := [x], binCharged := false }
/-- The laboratory with that barrier bound. -/
def labNet (x : NetBar) : State := (labWith id (fun w => { w with nbar := 1 })).modDie 0 (fun d => { d with packets := [(0, netPacket x)] })

theorem witness_NetworkBarriersAct :
    let x : NetBar := { gen := 7, expected := 9, arrived := 2, next := 9, joins := [] }
    let y : NetBar := { x with expected := 8, next := 6, joins := (upto 20 8).map (fun k => (k, 1)) }
    Meets (.nbarrive 0 5 1 1) (labNet x) (fun c => c.src.shape 1 = .p32 ∧ (labNet x).netBar c.core c.wg 1 = none ∧ c.badReshape (Out.v 5 .p32 []).vs = false ∧
      c.overQuota ((labNet x).uses (.nbarrive 0 5 1 1)) (Out.v 5 .p32 []) = false) ∧
    Meets (.nbarrive 0 5 1 0) (labNet x) (fun c => c.src.shape 1 = .p32 ∧ (labNet x).netBar c.core c.wg 0 = some x ∧ x.arrived + (low32 c 1).toNat % 2 ^ 16 = x.expected) ∧
    Meets (.nbarriveDrop 0 5 1 0) (labNet y) (fun c => c.src.shape 1 = .p32 ∧ (labNet y).netBar c.core c.wg 0 = some y ∧ y.next < (low32 c 1).toNat % 2 ^ 16) ∧
    Meets (.nbarwait 0 1 3 1 0) (labNet x) (fun c => c.src.shape 3 = .p32 ∧ (labNet x).netBar c.core c.wg 0 = some x ∧ x.gen.toNat ≠ (low32 c 3).toNat % 2 ^ 16) ∧
    Meets (.nbarwait 0 1 1 3 0) (labNet x) (fun c => (labNet x).netBar c.core c.wg 0 = some x ∧ x.gen.toNat = (low32 c 1).toNat % 2 ^ 16 ∧ (low32 c 3).toNat ≠ 0) ∧
    Meets (.nbarwait 0 1 1 3 7) (labNet x) (fun c => (labNet x).netBar c.core c.wg 7 = none) ∧
    Meets (.nbarset 0 1 1 1 7) (labNet x) (fun c => (labNet x).netBar c.core c.wg 7 = none) ∧
    Meets (.nbarset 0 1 3 3 0) (labNet y) (fun c => (labNet y).netBar c.core c.wg 0 = some y ∧ y.joins.length = 8 ∧ tget y.joins ((low32 c 3).toNat % 2 ^ 16) = none) ∧
    Meets (.nbarset 0 1 3 1 0) (labNet x) (fun c => (labNet x).netBar c.core c.wg 0 = some x ∧ (low32 c 1).toNat = x.gen.toNat) ∧
    Meets (.nbarset 0 1 1 3 0) (labNet x) (fun c => (labNet x).netBar c.core c.wg 0 = some x ∧ ((low32 c 3).toNat + 2 ^ 16 - x.gen.toNat) % 2 ^ 16 = 5) ∧
    Meets (.nbarrive 0 5 8 0) (labNet x) (fun c => c.src.shape 8 ≠ .p32) ∧
    Meets (.nbarwait 0 1 1 8 0) (labNet x) (fun c => ¬ (c.src.shape 1 = .p32 ∧ c.src.shape 8 = .p32)) ∧
    Meets (.nbarset 0 1 8 3 0) (labNet x) (fun c => ¬ (c.src.shape 8 = .p32 ∧ c.src.shape 3 = .p32)) ∧
    Meets (.nbarwait 0 1 1 4 0) (labNet x) (fun c => (labNet x).netBar c.core c.wg 0 = some x ∧ x.gen.toNat = (low32 c 1).toNat % 2 ^ 16 ∧ (low32 c 4).toNat = 0) := by
  refine ⟨meetsD ?_, meetsD ?_, meetsD ?_, meetsD ?_, meetsD ?_, meetsD ?_, meetsD ?_, meetsD ?_, meetsD ?_, meetsD ?_, meetsD ?_, meetsD ?_, meetsD ?_, meetsD ?_⟩ <;> decide +kernel

/-- The laboratory with queue 5 enabled for ENQ, its ring in a page of memory, and a packet for each lane of v15. -/
def labEnq (kind : Nat) : State :=
  let s := labMap.modDie 0 (fun d => d.modQueue 5 (fun q => { q with enable := true, enq := true, lgsize := 4, base := 0x350000, asid := 1, pq := true }))
  { s with mem := (upto 0 8).foldl (fun m l => memPutList m (0x340000 + 128 * l) (leBytes 64 kind)) s.mem }

theorem witness_LaunchWordsReply :
    let five : State → State := fun s => s.modGroup 0 0 0 (put32 [(5, 5)])
    let addr : Ctx → Nat → W64 := fun c l => (c.src.read 15 l).setWidth 64
    let p : Nat → Place := fun l => .global [⟨0x340000 + 128 * l, 0x340000 + 128 * l, 115, 42, 64⟩]
    let xs : State → Ctx → List EnqLane := fun t c => c.act.map (fun l => (l, c.src.readN 5 l, BitVec.ofNat 512 (leNat (t.readPlace c.wg c.who.grp l 64 (p l)))))
    Meets (.rgrab 0 5 15) lab (fun _ => True) ∧ Meets (.rgrabSet 0 1 1 0) lab (fun c => c.src.shape 1 ≠ .p64) ∧
    Meets (.rgrabSet 0 11 1 15) lab (fun c => c.src.shape 11 = .p64 ∧ c.src.shape 1 = .p32) ∧
    Meets (.sread 0 5 23) lab (fun _ => 23 ≤ 23) ∧ Meets (.sread 0 5 22) lab (fun _ => 22 < 23) ∧ Meets (.time 0 5) lab (fun _ => True) ∧
    Meets (.energyQ 0 5 1) lab (fun c => c.src.shape 1 = .p32 ∧ (low32 c 1).toNat ≤ 0x3FF ∧
      ((lab.die ((low32 c 1).toNat / 256)).queue ((low32 c 1).toNat % 256)).part.toNat = c.wg.part) ∧
    Meets (.energyQ 0 5 1) (labWith (put32 [(1, 0x400)]) id) (fun c => c.src.shape 1 = .p32 ∧ ¬ (low32 c 1).toNat ≤ 0x3FF) ∧
    Meets (.enq 0 1 15 11) (labEnq 1) (fun c => c.src.shape 15 ≠ .p64 ∨ c.src.shape 11 ≠ .p32) ∧
    MeetsAt (.enq 0 1 15 5) (five (labEnq 1)) (Acc.plain .read 64 64 false 0) (·.act) addr p (fun c => c.src.shape 15 = .p64 ∧ c.src.shape 5 = .p32)
      (fun c t => (∀ l ∈ c.act, t.badPlace (p l) = false) ∧ (xs t c).filter (fun y => t.enqBad c y (enqBefore c (xs t c) y.1 y.2.1)) = []) ∧
    MeetsAt (.enq 0 1 15 5) (five (labEnq 0)) (Acc.plain .read 64 64 false 0) (·.act) addr p (fun c => c.src.shape 15 = .p64 ∧ c.src.shape 5 = .p32)
      (fun c t => (∀ l ∈ c.act, t.badPlace (p l) = false) ∧ (xs t c).filter (fun y => t.enqBad c y (enqBefore c (xs t c) y.1 y.2.1)) ≠ []) := by
  refine ⟨meetsD ?_, meetsD ?_, meetsD ?_, meetsD ?_, meetsD ?_, meetsD ?_, meetsD ?_, meetsD ?_, meetsD ?_, meetsAtD ?_, meetsAtD ?_⟩ <;> decide +kernel

/-- An entry of the view: 64 BF16 elements from 0x340000. -/
def bf16Entry : BitVec 512 := BitVec.ofNat 512 (3 * 2 ^ 60 + 0x340000 + 64 * 2 ^ 64)
/-- The laboratory with a good entry 255 and a malformed entry 254 in its view. -/
def viewed (w : Workgroup) : Workgroup := { w with view := [(254, ⟨BitVec.ofNat 512 (15 * 2 ^ 60), false⟩), (255, ⟨bf16Entry, false⟩)] }

theorem witness_SliceAndCopyStart :
    let running : State := labWith id (fun w => { w with slice := { w.slice with live := true } })
    let ended : SliceEnd → State := fun e => labWith id (fun w => { w with slice := { w.slice with ended := e } })
    let sv : State := labX.modWg 0 0 viewed
    let lv : State := labWith (put64 [(22, 0), (23, 0), (24, 0)]) viewed
    Meets (.aslice 0 1 11 12) lab (fun c => c.src.shape 11 = .p64 ∧ c.src.shape 12 = .p64 ∧ (low64 c 11).toNat % 12 ≠ 0) ∧
    Meets (.aslice 0 1 12 12) running (fun c => c.src.shape 12 = .p64 ∧ (low64 c 12).toNat % 12 = 0 ∧ c.wg.slice.running = true) ∧
    Meets (.aslice 0 1 12 12) lab (fun c => c.src.shape 12 = .p64 ∧ (low64 c 12).toNat % 12 = 0 ∧ c.wg.context = true ∧ c.wg.slice.running = false ∧ c.wg.slice.owes = false) ∧
    Meets (.await 0 1) running (fun c => c.wg.slice.running = true) ∧
    Meets (.await 0 1) (ended (.faulted .access 5 false)) (fun c => c.wg.slice.running = false ∧ c.wg.slice.ended = .faulted .access 5 false) ∧
    Meets (.await 0 1) (ended (.faulted .access 5 true)) (fun c => c.wg.slice.running = false ∧ c.wg.slice.ended = .faulted .access 5 true) ∧
    Meets (.await 0 1) (ended .exited) (fun c => c.wg.slice.running = false ∧ (c.wg.slice.ended = .exited ∨ c.wg.slice.ended = .never)) ∧
    SliceMeets (.pusht 0 0 255 12 31) sv (fun _ => (sv.curWg.bind (fun w => (sv.viewEntry w 255).toOption)) = some bf16Entry ∧ tidOk bf16Entry = true ∧
      fmtMatrix (tidFormat bf16Entry) = true ∧ (sv.curWg.map (fun w => (w.fifo 0).cap)) = some 64) ∧
    SliceMeets (.pusht 0 0 254 0 0) sv (fun _ => (sv.curWg.bind (fun w => (sv.viewEntry w 254).toOption)) = some (BitVec.ofNat 512 (15 * 2 ^ 60)) ∧
      tidOk (BitVec.ofNat 512 (15 * 2 ^ 60)) = false) ∧
    SliceMeets (.pusht 0 7 255 0 0) sv (fun _ => (sv.curWg.map (fun w => (w.fifo 7).cap)) = some 0) ∧
    Meets (.tidset 0 9 255) lab (fun c => c.src.shape 9 = .p64 ∧
      (lab.place c.core c.wg false (Acc.plain .read 64 64 false 0) (low64 c 9)).1.toOption = some (.global [⟨0x300000, 0x300000, 115, 42, 64⟩]) ∧
      tidOk (BitVec.ofNat 512 (leNat (lab.readPlace c.wg c.who.grp c.low 64 (.global [⟨0x300000, 0x300000, 115, 42, 64⟩])))) = true ∧ c.wg.view.length < 32) ∧
    Meets (.tidget 0 9 255) lv (fun c => c.src.shape 9 = .p64 ∧
      (lv.place c.core c.wg false (Acc.plain .write 64 64 false 0) (low64 c 9)).1.toOption = some (.global [⟨0x300000, 0x300000, 115, 42, 64⟩]) ∧
      (lv.viewEntry c.wg 255).toOption = some bf16Entry) ∧
    Meets (.copy 0 22 24 255) lv (fun c => c.src.shape 22 = .p64 ∧ c.src.shape 23 = .p64 ∧ c.src.shape 24 = .p64 ∧ low64 c 24 = 0 ∧ low64 c 22 = 0 ∧
      0 + 1 * 4 ≤ c.wg.scratchBytes ∧ (lv.viewEntry c.wg 255).toOption = some bf16Entry ∧ tidOk bf16Entry = true) := by
  refine ⟨meetsD ?_, meetsD ?_, meetsD ?_, meetsD ?_, meetsD ?_, meetsD ?_, meetsD ?_, sliceD ?_, sliceD ?_, sliceD ?_, meetsD ?_, meetsD ?_, meetsD ?_⟩ <;>
    decide +kernel

/-- The laboratory with its tile in a mode. -/
def labTile (m : TileMode) : State := labWith id (fun w => { w with tiles := [{ Tile.zero with mode := m }] })

theorem witness_TilesAreReadAndWritten :
    Meets (.areadF32 0 0 5 15) lab (fun c => c.wg.tile 0 = some Tile.zero ∧ c.wg.pendingOn 0 = false ∧ Tile.zero.mode ≠ .fp64) ∧
    Meets (.areadF32 0 0 5 15) (labTile .fp64) (fun c => c.wg.tile 0 = some { Tile.zero with mode := .fp64 } ∧ c.wg.pendingOn 0 = false) ∧
    Meets (.areadF64 0 0 5 7) (labTile .fp64) (fun c => c.wg.pendingOn 0 = false ∧ 7 < 8) ∧ Meets (.areadF64 0 0 5 8) (labTile .fp64) (fun c => c.wg.pendingOn 0 = false ∧ ¬ 8 < 8) ∧
    Meets (.smxrL 0 0 5) lab (fun c => c.wg.tile 0 = some Tile.zero ∧ c.wg.pendingOn 0 = false) ∧
    Meets (.awriteF32 0 0 11 0) lab (fun c => c.wg.pendingOn 0 = false ∧ c.src.shape 11 ≠ .p32) ∧
    Meets (.awriteF32 0 0 2 15) lab (fun c => c.wg.pendingOn 0 = false ∧ c.src.shape 2 = .p32 ∧ Tile.zero.mode = .empty) ∧
    Meets (.awriteI32 0 0 2 15) (labTile .float) (fun c => c.wg.pendingOn 0 = false ∧ c.src.shape 2 = .p32 ∧ TileMode.float ≠ .empty ∧ TileMode.int ≠ .float) := by
  refine ⟨meetsD ?_, meetsD ?_, meetsD ?_, meetsD ?_, meetsD ?_, meetsD ?_, meetsD ?_, meetsD ?_⟩ <;> decide +kernel

theorem witness_TileOperationsIssue :
    let op : TileOp := { id := 0, grp := 0, tile := 0, work := .azero, mask := 1, unfenced := false, addr := 0, done := false }
    Meets (.mma ⟨0, 3, 0, 1, 0, 0, 0⟩) lab (fun c => c.wg.tile 3 = none) ∧
    Meets (.mma ⟨0, 0, 0, 7, 0, 0, 0⟩) lab (fun c => c.wg.tile 0 ≠ none ∧ (c.wg.fifo 7).cap < 8) ∧
    Meets (.mma ⟨0, 0, 0, 0, 3, 1, 1⟩) lab (fun c => c.wg.tile 0 ≠ none ∧ c.act.length ≤ (c.wg.fifo 0).cap ∧ 8 + c.act.length ≤ (c.wg.fifo 0).cap) ∧
    Meets (.azero 0 3) lab (fun c => c.wg.tile 3 = none) ∧ Meets (.azero 0 0) lab (fun c => c.wg.tile 0 ≠ none) ∧
    Meets (.smxu 0 0 6 11 3) lab (fun c => c.wg.tile 0 ≠ none ∧ (c.wg.fifo 6).cap ≠ 0 ∧ c.act.length ≤ (c.wg.fifo 6).cap ∧ c.src.shape 11 ≠ .p32) ∧
    Meets (.smxu 0 0 6 1 3) lab (fun c => c.wg.tile 0 ≠ none ∧ (c.wg.fifo 6).cap ≠ 0 ∧ c.act.length ≤ (c.wg.fifo 6).cap ∧ c.src.shape 1 = .p32) ∧
    Meets (.mfence 0) lab (fun _ => True) ∧ Meets (.mwait 0 3) lab (fun c => c.wg.tile 3 = none) ∧
    Meets (.mwait 0 0) (labWith (fun g => { g with tileFault := some ⟨0, .matFifo, 0, 1⟩ }) id) (fun c => c.wg.tile 0 ≠ none ∧ c.grp.tileFault = some ⟨0, .matFifo, 0, 1⟩) ∧
    Meets (.mwait 0 0) lab (fun c => c.wg.tile 0 ≠ none ∧ c.grp.tileFault = none ∧ c.wg.ops = []) ∧
    Meets (.mwait 0 0) (labWith id (fun w => { w with ops := [op] }))
      (fun c => c.wg.tile 0 ≠ none ∧ c.grp.tileFault = none ∧ op ∈ c.wg.ops ∧ op.tile = 0 ∧ op.id < lab.nextId ∧ op.done = false) := by
  refine ⟨meetsD ?_, meetsD ?_, meetsD ?_, meetsD ?_, meetsD ?_, meetsD ?_, meetsD ?_, meetsD ?_, meetsD ?_, meetsD ?_, meetsD ?_, meetsD ?_⟩ <;>
    decide +kernel

/-- A slot of the Churn that carries the word 0x300000 of ASID 1. -/
def labSlot : Slot :=
  { state := .aboard, value := 0, key := 0x300000, asid := 1, part := 0, priv := true, armed := false, packet := 0, queue := 0, fire := false, poison := false,
    home := 0x300000, use := .word, loaded := true, written := false, leaving := false }
/-- The laboratory on a die whose Churn may carry 10 words of its partition. -/
def labChurn : State := lab.modDie 0 (fun d => { d with churnLimit := [(0, 10)] })

theorem witness_ChurnWordsAct :
    let full : State := labChurn.modDie 0 (fun d => { d with slots := [(399, labSlot)] })
    let once : State := labChurn.modPkg (fun p => { p with boarded := [⟨0x300000 / 8, 0, 0, some 0⟩] })
    Meets (.cboard 0 1 9) once (fun c => c.doers.head? = some 0 ∧ c.src.shape 9 = .p64 ∧ (once.boardPlace c 0x300000).1.toOption = some 0x300000 ∧
      once.boardedAt 0x300000 ≠ none) ∧
    Meets (.cboard 0 1 9) lab (fun c => (lab.boardPlace c 0x300000).1.toOption = some 0x300000 ∧ lab.boardedAt 0x300000 = none ∧ (lab.die 0).slotLeft c.wg.part = false) ∧
    Meets (.cboard 0 1 9) labChurn (fun c => (labChurn.boardPlace c 0x300000).1.toOption = some 0x300000 ∧ labChurn.boardedAt 0x300000 = none ∧
      (labChurn.die 0).slotLeft c.wg.part = true) ∧
    Meets (.cboard 0 1 9) labHelp (fun c => c.doers = []) ∧
    Meets (.cboardr 0 1 9 9 1) labChurn (fun c => c.src.shape 9 = .p64 ∧ c.src.shape 1 = .p32 ∧ ((c.src.read 9 0).setWidth 64 : W64).toNat % 64 = 0 ∧ c.src.readN 1 0 ≤ 255) ∧
    Meets (.calight 0 5 9) full (fun c => c.doers.head? = some 0 ∧ c.src.shape 9 = .p64 ∧ (full.die 0).keySlot 0x300000 c.wg.asid = some 399) ∧
    Meets (.cpeek 0 5 9) labChurn (fun c => c.doers.head? = some 0 ∧ c.src.shape 9 = .p64 ∧ (labChurn.die 0).keySlot 0x300000 c.wg.asid = none ∧
      c.badReshape (Out.v 5 .p64 []).vs = false ∧ c.overQuota (labChurn.uses (.cpeek 0 5 9)) (Out.v 5 .p64 []) = false) ∧
    Meets (.cwait 0 5 9 11 3) full (fun c => c.src.shape 11 = .p64 ∧ (full.die 0).keySlot 0x300000 c.wg.asid = some 399) ∧
    Meets (.ccapCas 0 11 9 12) full (fun c => c.src.shape 12 = .p64 ∧ c.src.shape 11 = .p64 ∧ (full.die 0).keySlot 0x300000 c.wg.asid = some 399) ∧
    Meets (.ccapDec 0 5 9) full (fun c => (full.die 0).keySlot 0x300000 c.wg.asid = some 399) := by
  refine ⟨meetsD ?_, meetsD ?_, meetsD ?_, meetsD ?_, meetsD ?_, meetsD ?_, meetsD ?_, meetsD ?_, meetsD ?_, meetsD ?_⟩ <;> decide +kernel

/-- A pass of ASID 1 whose descriptor lies at 0x300000. -/
def labPass (sealed : Bool) : Pass :=
  { addr := 0x300000, desc := 0, asid := 1, priv := true, part := 0, sealed := sealed, sealing := none, records := 0, dropped := false, cause := none }
/-- The laboratory with a pass in slot 7, bin 4095 enabled, and v21 to v29 P32. -/
def labGfx (sealed : Bool) : State :=
  let ent : BitVec 512 := BitVec.ofNat 512 (9 * 2 ^ 60 + 0x340000 + (1 + 2 ^ 32) * 2 ^ 64 + (2 ^ 52 + 2 ^ 48 + 64) * 2 ^ 192)
  let bin : Bin := { enable := true, part := 0, error := false, pq := true, template := 0, copy := none, tail := none, quads := [], singles := [], last := 0 }
  (labWith (fun g => put64 [(30, 0x340000)] (put32 ((upto 21 9).map (fun r => (r, if r = 21 then 4095 else 0))) g)) (fun w => { w with view := [(7, ⟨ent, false⟩)] })).modDie 0
    (fun d => { d with passes := [(7, labPass sealed)], bins := [(4095, bin)] })

/-- What a lane samples, when it samples values. -/
def valsOf : GfxLane → Option (List W32)
  | .vals v => some v
  | _ => none

/-- At s some context issues i and has the property p, and every active lane samples the values v. -/
def MeetsLanes (i : Instr) (s t0 : State) (f : Ctx → State → Nat → GfxLane × State) (v : List W32) (p : Ctx → Prop) : Prop :=
  ∃ c u, Ready i c s ∧ p c ∧ t0.eachLane (f c) c.act = (c.act.map (fun l => (l, .vals v)), u)

theorem meetsLanesD {i : Instr} {s t0 : State} {f : Ctx → State → Nat → GfxLane × State} {v : List W32} {p : Ctx → Prop} [∀ c, Decidable (p c)]
    (h : (readyB i s && decide (p (ctxOf i s)) && decide ((t0.eachLane (f (ctxOf i s)) (ctxOf i s).act).1.map (fun x => (x.1, valsOf x.2)) =
      (ctxOf i s).act.map (fun l => (l, some v)))) = true) : MeetsLanes i s t0 f v p := by
  simp only [Bool.and_eq_true, decide_eq_true_eq] at h
  have hm : ∀ (xs : List (Nat × GfxLane)) (ls : List Nat), xs.map (fun x => (x.1, valsOf x.2)) = ls.map (fun l => (l, some v)) →
      xs = ls.map (fun l => (l, .vals v)) := by
    intro xs
    induction xs with
    | nil => intro ls h; cases ls with
      | nil => rfl
      | cons a t => simp at h
    | cons x xs ih => intro ls h; cases ls with
      | nil => simp at h
      | cons a t =>
        simp only [List.map_cons, List.cons.injEq, Prod.mk.injEq] at h
        obtain ⟨⟨h1, h2⟩, h3⟩ := h
        obtain ⟨x1, x2⟩ := x
        cases x2 with
        | vals w =>
          simp only [valsOf, Option.some.injEq] at h2
          dsimp only at h1
          subst h1 h2
          rw [ih t h3]
          rfl
        | fault _ _ => simp [valsOf] at h2
        | bad _ => simp [valsOf] at h2
        | wait => simp [valsOf] at h2
  exact ⟨_, _, ready_of h.1.1, h.1.2, Prod.ext (hm _ _ h.2) rfl⟩

theorem witness_GraphicsWordsAct :
    let s := labGfx false
    let ent : BitVec 512 := BitVec.ofNat 512 (9 * 2 ^ 60 + 0x340000 + (1 + 2 ^ 32) * 2 ^ 64 + (2 ^ 52 + 2 ^ 48 + 64) * 2 ^ 192)
    let geo : State := { s with mem := memPutList (memPutList s.mem 0x340000 (leBytes 8 (3 + 2 ^ 16 + 2 ^ 32))) (0x340000 + 64 + 36) [0, 1, 2] }
    Meets (.rast 0 11 21 12) s (fun c => c.doers.head? = some 0 ∧ c.src.shape 11 = .p64 ∧ c.src.shape 12 = .p64 ∧ (∀ r ∈ regRun 21 9, c.src.shape r = .p32) ∧
      (low64 c 11).toNat % 64 ≠ 0) ∧
    Meets (.rast 0 9 21 12) s (fun c => (∀ r ∈ regRun 21 9, c.src.shape r = .p32) ∧ s.passAt 0 c.wg.asid 0x300000 = some (7, labPass false)) ∧
    Meets (.rast 0 9 21 12) (labGfx true) (fun c => (labGfx true).passAt 0 c.wg.asid 0x300000 = some (7, labPass true) ∧ (labPass true).sealed = true) ∧
    Meets (.rseal 0 9) lab (fun c => c.doers.head? = some 0 ∧ c.src.shape 9 = .p64 ∧ lab.passAt 0 c.wg.asid 0x300000 = none) ∧
    Meets (.rseal 0 9) s (fun c => s.passAt 0 c.wg.asid 0x300000 = some (7, labPass false) ∧ (labPass false).sealing = none) ∧
    Meets (.bpush 0 0 0 21 21) s (fun c => c.src.shape 21 = .p32 ∧ (∀ r ∈ regRun 21 3, c.src.shape r = .p32) ∧ s.badKey c (c.src.readN 21 0 % 2 ^ 16) = false ∧
      c.doers.filter (fun l => kMatch 0 ((c.src.lane l).pred 0)) ≠ []) ∧
    Meets (.bpushHit 0 1 0 21 21) s (fun c => c.doers.filter (fun l => kMatch 1 ((c.src.lane l).pred 0)) = []) ∧
    Meets (.bisect 0 1 21 16 22) (s.modGroup 0 0 0 (fun g => g.modLanes [5] (fun y => { y with q := [.t, .u, .f, .f, .f, .f, .f, .f] })))
      (fun c => c.src.shape 21 = .p32 ∧ c.src.shape 22 = .p32 ∧ c.src.shape 16 = .i32 ∧ c.doers.filter (fun l => decide ((c.src.lane l).pred 1 = .u)) = [5] ∧
        (c.iv 32 16 5).toOption.isSome = true) ∧
    Meets (.bflush 0 21) s (fun c => c.src.shape 21 = .p32 ∧ c.src.readN 21 0 = 4095 ∧ (s.bin 0 4095).part.toNat = c.wg.part) ∧
    Meets (.bflush 0 1) (labWith (put32 [(1, 4096)]) id) (fun c => c.src.shape 1 = .p32 ∧ ¬ c.src.readN 1 0 ≤ 4095) ∧ Meets (.bflushAll 0) s (fun _ => True) ∧
    MeetsLanes (.attr 0 5 30 22 0) geo geo (fun c => attrLane c 30 22 0) [0, 0, 0] (fun c => c.src.shape 30 = .p64 ∧ (∀ l ∈ c.act, c.pixelRec l = none) ∧
      ∀ r ∈ regRun 22 3, c.src.shape r = .p32) ∧
    MeetsLanes (.texl 0 5 22 7) s s (fun c => texLane .given ent 22 c) [0] (fun c => (∀ r ∈ regRun 22 3, c.src.shape r = .p32) ∧
      (s.viewEntry c.wg 7).toOption = some ent ∧ texOk ent = true) := by
  refine ⟨meetsD ?_, meetsD ?_, meetsD ?_, meetsD ?_, meetsD ?_, meetsD ?_, meetsD ?_, meetsD ?_, meetsD ?_, meetsD ?_, meetsD ?_, meetsLanesD ?_,
    meetsLanesD ?_⟩ <;> decide +kernel

/-- A sleeping word of the laboratory's group. -/
def waitOn (k : WaitKind) : Wait := { id := 3, mask := 1, pc := 0x300000 / 4, kind := k, dv := none, dshape := .p32, dq := some 1, rest := none }
/-- The laboratory with that word asleep. -/
def labWait (k : WaitKind) : State := labWith (fun g => { g with waits := [waitOn k] }) id

theorem witness_IssueEventsAct :
    let net := (labNet { gen := 7, expected := 9, arrived := 2, next := 9, joins := [] }).modGroup 0 0 0 (fun g => { g with waits := [waitOn (.nbar 0 7 (some 5))] })
    let slow := lab.modCore 0 (fun c => { c with duty := 1 })
    (0 * (lab.core 383).duty / 16 < (0 + 1) * (lab.core 383).duty / 16 ∧ lab.cycle % 16 = 0) ∧
    ¬ slow.cycle % 16 * (slow.core 0).duty / 16 < (slow.cycle % 16 + 1) * (slow.core 0).duty / 16 ∧ (lab.group 0 0 0).isSome = true ∧
    (labWait (.sleep 9)).waitReady 0 0 0 3 = some (waitOn (.sleep 9)) ∧
    ((labWait (.bar 0 0 (some 5))).waitReady 0 0 0 3 = some (waitOn (.bar 0 0 (some 5))) ∧ ((labWait (.bar 0 0 (some 5))).wg 0 0).isSome = true) ∧
    (net.waitReady 0 0 0 3 = some (waitOn (.nbar 0 7 (some 5))) ∧ ((net.wg 0 0).bind (fun w => net.netBar 0 w 0)).isSome = true) ∧ State.reset.wg 0 15 = none := by
  decide +kernel

/-- The laboratory whose slice pushes rows of entry e into FIFO 0, which holds n entries, and whose engine copies rows of it. -/
def labRows (e : BitVec 512) (n : Nat) : State :=
  let f : FifoEntry := { data := 0, side := 0, tag := 0, fmt := 3, smxu := false, bad := false }
  let p : Push := { fifo := 0, entry := e, i0 := 0, i1 := 0, i2 := 0, i3 := 0, k := 0, n := 1, pc := 0 }
  let y : Copy := { id := 7, grp := 0, mask := 1, entry := e, i0 := 0, i1 := 0, i2 := 0, i3 := 0, dest := 0, sync := 8, rows := 1, len := 4, k := 0 }
  labWith id (fun w => { w with slice := { w.slice with live := true, push := some p }, fifos := [⟨64, List.replicate n f⟩], copies := [y] })
/-- An entry whose elements no table maps. -/
def farEntry : BitVec 512 := BitVec.ofNat 512 (3 * 2 ^ 60 + 2 ^ 45 + 64 * 2 ^ 64)
/-- The laboratory with a tile operation on its tile. -/
def labOp (work : TileWork) (w : Workgroup) : Workgroup :=
  { w with ops := [{ id := 4, grp := 0, tile := 0, work := work, mask := 1, unfenced := false, addr := 0, done := false }] }
/-- A core of partition 0, and a context saved on its die. -/
def labSaved : State :=
  let p : Partition := { live := true, clusters := 1, scratchKiB := 448, cap := 500, k := 16, nextK := 16, energy := 0, power := 0, charged := 0 }
  State.reset.modPkg (fun k => { k with parts := [(0, p)], saved := [⟨0, none, Workgroup.start 9 0 placePacket 0 none 0 1 0 0 0 0 [0] []⟩] })

theorem witness_WorkgroupEventsAct :
    let push := fun (s : State) => (s.wg 0 0).bind (fun w => w.slice.push.map (fun p =>
      (decide ((w.fifo p.fifo).entries.length < (w.fifo p.fifo).cap), s.pushWaits w p, (s.pushRow 0 w p).1.toOption.isSome)))
    let copy := fun (s : State) => (s.wg 0 0).bind (fun w => (w.copies.find? (fun y => y.id = 7)).map (fun p => (s.engineWaits w p.span.1 p.span.2, (s.copyBytes 0 w p).1.toOption.isSome)))
    let op := fun (s : State) => (s.wg 0 0).bind (fun w => (w.ops.find? (fun o => o.id = 4)).map w.opReady)
    push (labRows bf16Entry 63) = some (true, false, true) ∧ push (labRows farEntry 0) = some (true, false, false) ∧
    (push (stopAll (labRows bf16Entry 0))).map (·.2.1) = some true ∧ copy (labRows bf16Entry 0) = some (false, true) ∧
    copy (labRows farEntry 0) = some (false, false) ∧ (copy (stopAll (labRows bf16Entry 0))).map (·.1) = some true ∧
    op (labWith id (labOp .azero)) = some .go ∧
    op (labWith id (fun w => { labOp (.mma 0 1 1 false false) w with slice := { w.slice with live := true } })) = some .wait ∧
    op (labWith id (fun w => { labOp (.mma 0 1 1 false false) w with groups := w.groups.map (fun g => { g with retired := true }) })) = some .stuck ∧ op (labWith id (labOp (.smxu 0 1 1 0))) = some .go ∧
    ((lab.wg 0 0).map (·.ended)) = some false ∧ (((lab.modGroup 0 0 0 (fun g => { g with retired := true })).wg 0 0).map (·.ended)) = some true ∧
    ((labWith id (fun w => { w with aborted := some 4 })).wg 0 0).map (·.aborted) = some (some 4) ∧ ((lab.wg 0 0).map (·.aborted)) = some none ∧
    ((labSaved.pkg.saved[0]?).map (labSaved.fitsSaved 0)) = some true := by
  refine ⟨?_, ?_, ?_, ?_, ?_, ?_, ?_, ?_, ?_, ?_, ?_, ?_, ?_⟩ <;> decide +kernel

theorem witness_FrontEndEventsAct :
    let on := State.reset.modDie 0 (fun d => d.modQueue 255 (fun q => { q with enable := true, lgsize := 15, destroying := true, released := [0] }))
    let fed := State.reset.modDie 0 (fun d => { (d.modQueue 5 (fun q => { q with enable := true, serving := some 3 })) with
      packets := [(3, netPacket { gen := 0, expected := 1, arrived := 0, next := 1, joins := [] })] })
    let given := (labSaved.modCluster 0 (fun c => { c with queue := [⟨3, 0, 1, false⟩] }))
    (0 < 4 ∧ 255 < 256 ∧ 95 < 96) ∧ (State.reset.die 0).queue 0 = Queue.reset ∧ ((on.die 0).queue 255).destroying = true ∧
    ((on.die 0).queue 255).released = [0] ∧ (((on.die 0).queue 255).write - ((on.die 0).queue 255).read).toNat < 2 ^ 15 ∧
    State.reset.chooseSource 0 = none ∧ (fed.chooseSource 0).map (·.1) = some 5 ∧
    ((fed.modDie 0 (fun d => { (d.modQueue 5 (fun q => { q with enable := false })) with launches := [⟨0, 1, []⟩] })).chooseSource 0).map (·.1) = some 256 ∧
    (State.reset.cluster 95).queue = [] ∧ (given.cluster 0).queue = [⟨3, 0, 1, false⟩] ∧ (tget (fed.die 0).packets 3).isSome = true ∧ State.reset.donor 95 = none := by
  decide +kernel

/-- Its packet. -/
def labDonorPacket : Packet := netPacket { gen := 0, expected := 1, arrived := 0, next := 1, joins := [] }

/-- A die whose cluster 0 holds a workgroup that cluster 1 of its partition may take. -/
def labDonor : State :=
  ((labSaved.modPkg (fun k => { k with parts := [(0, { live := true, clusters := 3, scratchKiB := 448, cap := 0, k := 16, nextK := 16, energy := 0, power := 0, charged := 0 })] })).modCluster 0
    (fun c => { c with queue := [⟨3, 0, 1, false⟩] })).modDie 0 (fun d => { d with packets := [(3, labDonorPacket)] })

/-- A cluster admits a workgroup that some core of it fits, whichever of its cores are hot. -/
theorem coreFor_isSome (s : State) (k : Nat) (b : BitVec 512) (h : (clusterCores k).any (fun c => s.fits c b) = true) : (s.coreFor k b).isSome = true := by
  have hl : (clusterCores k).filter (fun c => s.fits c b) ≠ [] := by
    obtain ⟨c, hc, hf⟩ := List.any_eq_true.mp h
    exact List.ne_nil_of_mem (List.mem_filter.mpr ⟨hc, hf⟩)
  simp only [State.coreFor, prefer]
  split
  · exact List.isSome_head?.mpr hl
  · rename_i h2
    exact List.isSome_head?.mpr (fun h3 => h2 (List.isEmpty_iff.mpr h3))

theorem admissible_isSome {s : State} {k : Nat} {a : Assigned} {l : List Assigned} {p : Packet} (hp : tget (s.die (k / 24)).packets a.packet = some p)
    (h : (clusterCores k).any (fun c => s.fits c p.bits) = true) : (s.admissible k (a :: l)).isSome = true := by
  obtain ⟨c, hc⟩ := Option.isSome_iff_exists.mp (coreFor_isSome s k p.bits h)
  simp [State.admissible, hp, hc]

theorem donor_first {s : State} {k j : Nat} {t : List Nat} {g : List Assigned} (h : askOrder k = j :: t)
    (hg : (donated (s.cluster j).queue).take (64 - (s.cluster k).queue.length) = g) (hp : s.samePart j k = true)
    (ha : (s.admissible k g).isSome = true) : s.donor k = some (j, g) := by
  simp [State.donor, h, hg, hp, ha]

theorem witness_FrontEndEventsAct_donation :
    labDonor.admissible 1 (labDonor.cluster 1).queue = none ∧ labDonor.frontSupplies 1 = false ∧ labDonor.donor 1 = some (0, [⟨3, 0, 1, false⟩]) ∧
    (labDonor.admissible 0 (labDonor.cluster 0).queue).isSome = true :=
  ⟨by decide +kernel, by decide +kernel,
    donor_first (j := 0) (t := (askOrder 1).drop 1) (by decide +kernel) (by decide +kernel) (by decide +kernel)
      (admissible_isSome (p := labDonorPacket) (by decide +kernel) (by decide +kernel)),
    admissible_isSome (a := ⟨3, 0, 1, false⟩) (l := []) (p := labDonorPacket) (by decide +kernel) (by decide +kernel)⟩

theorem witness_ChurnAndRasterEventsAct :
    let slot : Slot := { labSlot with state := .boarding, loaded := false }
    let tri : Triangle := { pass := 7, xyz := [], vis := 0 }
    let s := labWait (.reply 3) |>.modDie 0 (fun d => { d with slots := [(399, slot)], triangles := [tri], passes := [(6, { labPass false with sealing := some (lab.cur.who, 3) }), (7, labPass false)] })
    (3 < 4 ∧ 99 < 100 ∧ 399 < 400 ∧ 7 < 8 ∧ 4095 < 4096) ∧ tget (s.die 0).slots 399 = some slot ∧ slot.state = .boarding ∧ s.isLost slot.home = false ∧
    (State.reset.die 3).triangles = [] ∧ (s.die 0).triangles = [tri] ∧ tget (s.die 0).passes tri.pass = some (labPass false) ∧
    (tget (s.die 0).passes 6).map (·.sealing) = some (some (lab.cur.who, 3)) ∧ (∀ y ∈ (s.die 0).triangles, y.pass ≠ 6) ∧ (s.waitReady 0 0 0 3).isSome = true ∧
    (∃ x ∈ (s.die 0).triangles, x.pass = 7) ∧ (∀ y ∈ (s.die 0).tiles, y.2.state ≠ .sealed) := by
  decide +kernel

theorem witness_CacheEventsAct :
    let r : AtomReq := { id := 0, who := lab.cur.who, asid := 1, aop := 0, w64 := false, dv := none, lanes := [(0, 0x340000, 1, 0)], addrs := [(0, 0x340000)] }
    let s := lab.modCluster 95 (fun c => { c with atomReqs := [r] })
    let t := s.modPkg (fun p => { p with trans := [{ cluster := 0, line := 1, getm := true, fill := false, owner := some 95, acks := oneSharer 95 }] })
    s.directed 0x1FFFFFFF80 = false ∧ s.directed 128 = true ∧ s.directed 0xC000000000 = false ∧ (t.transOf 1).map (·.owner) = some (some 95) ∧
    (t.transOf 1).map (fun x => decide (x.acks &&& oneSharer 95 ≠ 0)) = some true ∧ s.transOf 1 = none ∧ BitVec.ofNat 16 1 ≠ (s.cluster 95).walkGen ∧
    (BitVec.ofNat 16 0 = (s.cluster 95).walkGen ∧ (s.walk 1 0x340000).toOption.isSome = true ∧ s.tlbHit 95 1 0x340000 = none) ∧
    (s.cluster 95).atomReqs = [r] ∧ (s.wg r.who.core r.who.wg).map (·.uid) = some r.who.uid ∧ (s.cluster 0).atomReqs = [] := by
  decide +kernel

theorem witness_NetworkAndErrorEventsAct :
    (3 < 4 ∧ 7 < 8 ∧ 23 < 24 ∧ 50 < 51 ∧ 383 < 384) ∧ (State.reset.uncorrectable (.l2OneTag 3 63)).isSome = true ∧ State.reset.isLocal 0x340000 = true := by decide +kernel

theorem witness_HostLinkEventsAct :
    let m : Migration := { pte := 0, src := 0x340000, dest := 0x350000, asid := 1, va := 0x340000 }
    let run := State.reset.modPkg (fun p => { p with migration := some m })
    let held := run.modPkg (fun p => { p with boarded := [⟨0x340000 / 8, 0, 0, none⟩] })
    let busy := State.reset.modDie 3 (fun d => { d with bias := ⟨true, false, true, 0⟩ })
    let out := State.reset.modPkg (fun p => { p with outside := [{ sentOut (.load 5 .p32 false 4) with package := 126 }] })
    let half := State.reset.setHalf (0x340000 / 128) 0 .o
    (0 % 2 = 0 ∧ 0 / 2 ^ 62 % 2 = 0) ∧ held.pkg.migration = some m ∧ (∃ b ∈ held.pkg.boarded, 8 * b.word / 65536 = m.src / 65536) ∧
    State.reset.pkg.migration = none ∧ (∀ b ∈ run.pkg.boarded, 8 * b.word / 65536 ≠ m.src / 65536) ∧ (State.reset.die 3).bias.busy = false ∧ (busy.die 3).bias.busy = true ∧
    hdm 0 = some 0 ∧ hdm (2 ^ 60) = none ∧ (half.halves (0x340000 / 128)).1 = .o ∧ hdm 0x340000 = some 0x340000 ∧ State.reset.region 0x200000000000 = .host ∧
    (out.outsideOf 0).map (·.package) = some 126 ∧ State.reset.outsideOf 0 = none := by
  decide +kernel

theorem witness_FabricEventsAct :
    let up := State.reset.modPort 143 (fun p => { p with enable := true, up := true })
    let flit : Flit := { seq := 4096, kind := 0, crcOk := true, space := true, msg := ⟨0, true, []⟩, second := none }
    let r : RemoteReq := { src := 125, kind := .write, pa := 0x340000, size := 8, data := 1, cmp := 0, aop := 14, ret := false }
    let open_ := State.reset.modPkg (fun p => { p with inbound := [(125, 0x340000, 0x340007, true, true)] })
    let sent := State.reset.modPkg (fun p => { p with outside := [sentOut .store] })
    (143 < 144 ∧ (up.port 143).enable = true ∧ (up.port 143).up = true ∧ (up.port 143).failed = false ∧ (up.port 143).crcRefusals < 32 ∧ flit.crcOk = true ∧ flit.space = true ∧
      (up.port 143).rxSeq.toNat = flit.seq % 4096) ∧
    ((up.port 143).rxSeq.toNat ≠ { flit with seq := 1 }.seq % 4096) ∧ (State.reset.port 0).enable = false ∧
    (r.src < 126 ∧ 0 < r.size ∧ r.size ≤ 128 ∧ r.size ≤ 8) ∧ State.reset.inboundOk r = false ∧
    (open_.inboundOk r = true ∧ open_.ownable r.pa r.size = true ∧ open_.inboundLost r = false) ∧
    (open_.inboundOk { r with kind := .read } = true ∧ open_.inboundLost { r with kind := .read } = false) ∧
    (r.pa % r.size = 0 ∧ r.aop < 15 ∧ open_.inboundOk { r with kind := .atomic } = true ∧ open_.inboundLost { r with kind := .atomic } = false) ∧
    State.reset.outsideOf 0 = none ∧ (sent.outsideOf 0).map (fun o => (o.work, o.package)) = some (.store, 0) ∧ 125 < 126 := by
  decide +kernel

theorem witness_PowerEventsAct :
    let s : State := { State.reset with cycle := 19000 }
    let dim := State.reset.modDie 3 (fun d => { d with limiterTill := some 64 })
    7 < 8 ∧ s.cycle % 19000 = 0 ∧ { State.reset with cycle := 1 }.cycle % 19000 ≠ 0 ∧ 3 < 4 ∧ (dim.die 3).limiterTill = some 64 ∧ (State.reset.die 3).limiterTill = none ∧
    (95 < 96 ∧ (124999 : Int) < 125000 ∧ (125000 : Int) ≤ 125000) ∧ (List.replicate 96 (0 : Int)).length ≤ 96 := by
  decide +kernel

theorem witness_BootAndRegisterEventsAct :
    let bad : BootOutcome := { primaryOk := false, alternateOk := true, image := [], cls := 0 }
    let spec : PartSpec := { clusters := 1, scratchKiB := 448, churnLimit := 8 }
    bad.primaryOk = false ∧ { bad with primaryOk := true, cls := 15 }.cls < 16 ∧ State.reset.pkg.boot = .off ∧ State.reset.pkg.journal = [] ∧ (1 ≤ 16 ∧ 16 ≤ 16) ∧
    0x5EC ≤ 0x5EC ∧ State.reset.region 0xC003FFFFF8 = .control 3 ∧ (State.reset.modPkg (fun p => { p with boot := .tripped })).pkg.boot = .tripped ∧
    (State.reset.part 7).live = false ∧ State.reset.clustersFree spec.clusters = true ∧ spec.scratchKiB ≤ 448 ∧ spec.scratchKiB % 64 = 0 := by
  decide +kernel

theorem witness_EveryWordMeetsTheChecksAtIssue :
    let low := labWith id (fun w => { w with priv := false })
    let waits := labWith (fun g => { g with pend := [⟨0, .v 1, 0xFF, false, none, []⟩] }) id
    let early := fun (r : RegName) => labWith (fun g => { g with pend := [⟨0, r, 0xFF, true, some 5, []⟩], ctrl := { g.ctrl with stallchk := true } }) id
    let both := (early (.q 1)).modGroup 0 0 0 (fun g => { g with frees := [⟨5, []⟩] })
    let lost := fun (precise : Bool) => labWith (fun g => { g with failed := [⟨.v 1, [(0, 5), (3, 9)], 5, precise⟩] }) id
    let add := fun (g : Nat) => Instr.iadd ⟨0, 5, 1, 3, 0, 0, g, 0⟩
    MeetsIssue (.tlbinvAll 0) low (fun u c => u.priv = true ∧ c.wg.priv = false) ∧
    MeetsIssue (add 0) waits (fun u c => c.earlyGuard u 0 = [] ∧ c.busy u = true) ∧
    MeetsIssue (.iadd ⟨0, 1, 3, 3, 0, 0, 0, 0⟩) (labWith (fun g => { g with frees := [⟨1, []⟩] }) id) (fun u c => c.earlyGuard u 0 = [] ∧ c.freeHeld u = true) ∧
    MeetsIssue (add 0) (early (.v 1)) (fun u c => c.busy u = false ∧ c.freeHeld u = false ∧ c.earlyGuard u 0 = [] ∧ c.earlyReads u 0 ≠ [] ∧
      c.src.ctrl.stallchk = true) ∧
    MeetsIssue (add 1) (early (.q 1)) (fun u c => c.earlyGuard u 0 ≠ [] ∧ c.src.ctrl.stallchk = true ∧ c.freeHeld u = false ∧ u.cls ≠ .m ∧ u.cls ≠ .x ∧
      (c.poisoned u (c.earlyGuard u 0) (early (.q 1))).1.busy u = false) ∧
    MeetsIssue (add 1) both (fun u c => c.earlyGuard u 0 ≠ [] ∧ c.src.ctrl.stallchk = true ∧ c.freeHeld u = true) ∧
    MeetsIssue (add 0) (lost true) (fun u c => c.earlyGuard u 0 = [] ∧ c.earlyReads u 0 = [] ∧ (c.failedRead u).map (·.precise) = some true) ∧
    MeetsIssue (add 0) (lost false) (fun u c => c.earlyGuard u 0 = [] ∧ c.earlyReads u 0 = [] ∧ (c.failedRead u).map (·.precise) = some false) ∧
    MeetsIssue (add 1) lab (fun u c => c.busy u = false ∧ c.freeHeld u = false ∧ c.earlyGuard u 0 = [] ∧ c.earlyReads u 0 = [] ∧ c.failedRead u = none ∧
      c.act = []) := by
  refine ⟨meetsIssueD ?_, meetsIssueD ?_, meetsIssueD ?_, meetsIssueD ?_, meetsIssueD ?_, meetsIssueD ?_, meetsIssueD ?_, meetsIssueD ?_,
    meetsIssueD ?_⟩ <;> decide +kernel

theorem witness_CompletedWordsChangeOnlyTheirDestinations : Meets (.iadd ⟨0, 5, 1, 3, 0, 0, 0, 0⟩) lab (fun c => 5 ∉ c.freesNow (lab.uses (.iadd ⟨0, 5, 1, 3, 0, 0, 0, 0⟩))) :=
  meetsD (by decide +kernel)

theorem witness_DestinationsTakeTheirValues : Meets (.iadd ⟨0, 5, 1, 3, 1, 0, 0, 0⟩) lab (fun c => c.freesNow (lab.uses (.iadd ⟨0, 5, 1, 3, 1, 0, 0, 0⟩)) = [1]) :=
  meetsD (by decide +kernel)

/-- The laboratory in which lane 5 alone is active. -/
def labOne : State := { labMap with cur := { labMap.cur with mask := 0x20 } }

theorem witness_StoresChangeOnlyTheirBytes :
    let p : Nat → Place := fun l => .global [⟨0x340000 + 128 * l, 0x340000 + 128 * l, 115, 42, 4⟩]
    MeetsAt (.st ⟨0, 1, 15, 0, 4, 1, 0⟩) labMap (Acc.plain .write 4 4 true 0) (·.doers) (addrOf 15 0 4) p (fun _ => True) (fun c t => ∀ l ∈ c.doers, t.outsidePlace (p l) = false) ∧
    (after (.st ⟨0, 1, 15, 0, 4, 1, 0⟩) labMap).cur.live = true ∧
    MeetsAt (.st ⟨0, 1, 15, 0, 4, 1, 0⟩) labOne (Acc.plain .write 4 4 true 0) (·.doers) (addrOf 15 0 4) p (fun c => c.doers = [5])
      (fun _ t => t.outsidePlace (p 5) = false) ∧ Memory.wf labOne.mem = true ∧ (after (.st ⟨0, 1, 15, 0, 4, 1, 0⟩) labOne).cur.live = true ∧
    MeetsAt (.ld ⟨0, 5, 15, 0, 4, 1, 0⟩) labMap (Acc.plain .read 4 4 true 0) (·.act) (addrOf 15 0 4) p (fun _ => True) (fun c t => ∀ l ∈ c.act, Readable t (p l)) ∧
    (after (.ld ⟨0, 5, 15, 0, 4, 1, 0⟩) labMap).cur.live = true := by
  refine ⟨meetsAtD ?_, ?_, meetsAtD ?_, ?_, ?_, meetsAtD ?_, ?_⟩ <;> decide +kernel

theorem witness_ExceptionsAreTakenAndReturned :
    let ready := labWith (fun g => { g with ctrl := { g.ctrl with trapbase := 0x600 } }) id
    (∀ n ∈ [0, 2], ((labHandler n).group 0 0 0).map (fun g => decide (0 < g.lanes.length)) = some true) ∧
    Meets (.trap 0 5) lab (fun c => c.grp.ctrl.trapbase = 0 ∧ lab.cur.snap = none) ∧
    Meets (.trap 0 5) ready (fun c => ¬ (c.grp.ctrl.trapH = true ∨ c.grp.ctrl.trapbase = 0 ∨ c.grp.ctrl.trapbase.toNat % 12 ≠ 0) ∧ ready.cur.snap = none) := by
  refine ⟨?_, meetsD ?_, meetsD ?_⟩ <;> decide +kernel

theorem witness_AStepRunsTheDecodedWord :
    (∀ w ∈ [0x1C20001C, 0xFFFFFFFF], let s := State.reset.withFetchWord 32 w
      s.agenda.head? = some .word ∧ s.cur.live = true ∧ (s.fetchCur s.cur.pc).1.toOption.map (·.toNat) = some w) ∧
    (decode 0x1C20001C).toOption.isSome = true ∧ (decode 0xFFFFFFFF).toOption.isNone = true ∧
    ({ base with mem := [] }.fetchCur base.cur.pc).1.toOption = none ∧ State.reset.agenda = [] ∧ State.reset.inbox = [] := by
  decide +kernel

theorem witness_ResetLeaves : 7 < lpWidth placePacket ∧ lpTrap (placePacket + 2 ^ 112) ≠ 0 := by decide +kernel

theorem witness_EveryWordSurvivesItsEncoding : (Instr.iadd ⟨1, 31, 31, 31, 1, 1, 7, 7⟩).isWord = true ∧ (Instr.iadd ⟨1, 31, 31, 31, 1, 1, 7, 7⟩).wf = true := by decide +kernel

theorem witness_EveryStepKeepsMemoryCanonical :
    Memory.wf (State.reset.withFetchWord 32 0x1C20001C).mem = true ∧
    (match step (State.reset.withFetchWord 32 0x1C20001C) with
      | .next t => t.mem.length
      | _ => 0) = (State.reset.withFetchWord 32 0x1C20001C).mem.length := by decide +kernel

/-! ## Witnesses of the clauses about stopped slices, taps, parties outside and single lanes -/

/-- A place of the laboratory's memory for each lane of v15. -/
def spot (n : Nat) (l : Nat) : Place := .global [⟨0x340000 + 128 * l, 0x340000 + 128 * l, 115, 42, n⟩]
/-- A place of its peer for each lane of v13. -/
def afar (n : Nat) (l : Nat) : Place := .global [⟨0x400000000000 + 8 * l, 2 ^ 42 + 8 * l, 115, 42, n⟩]
/-- A state in which only the lanes of a mask issue. -/
def only (m : W64) (s : State) : State := { s with cur := { s.cur with mask := m } }
/-- Every access of a list of lanes waits. -/
abbrev Stalled (t : State) (ls : List Nat) (p : Nat → Place) : Prop := t.stalls (ls.map (fun l => (l, .ok (p l)))) = true
/-- None does. -/
abbrev Served (t : State) (ls : List Nat) (p : Nat → Place) : Prop := t.stalls (ls.map (fun l => (l, .ok (p l)))) = false
/-- The laboratory whose word at the code's address rides the Churn. -/
def labAboard : State :=
  (lab.modDie 0 (fun d => { d with slots := [(399, labSlot)] })).modPkg (fun p => { p with boarded := [⟨0x300000 / 8, 0, 0, some 399⟩] })

theorem witness_LoadsLoad_elsewhere :
    let k := Acc.plain .read 4 4 true 0
    let code : Nat → Place := fun _ => .global [⟨0x300000, 0x300000, 115, 42, 4⟩]
    MeetsAt (.ld ⟨0, 5, 15, 0, 4, 1, 0⟩) (stopAll labMap) k (·.act) (addrOf 15 0 4) (spot 4) (fun c => c.src.shape 15 = .p64) (fun c t => Stalled t c.act (spot 4)) ∧
    MeetsAt (.ld ⟨0, 5, 15, 0, 4, 1, 0⟩) labMap k (·.act) (addrOf 15 0 4) (spot 4) (fun c => c.src.shape 15 = .p64) (fun c t => Served t c.act (spot 4)) ∧
    MeetsAt (.ld ⟨0, 5, 9, 0, 4, 1, 0⟩) labAboard k (·.act) (addrOf 9 0 4) code (fun c => c.src.shape 9 = .p64)
      (fun c t => Served t c.act code ∧ ∀ l ∈ c.act, ¬ Here t (code l)) ∧
    MeetsAt (.ld ⟨0, 5, 13, 0, 6, 5, 0⟩) labPeer (Acc.plain .read (szAlign 6) 8 false 0) (·.act) (addrOf 13 0 8) (afar 8) (fun c => c.src.shape 13 = .p64)
      (fun c t => Served t c.act (afar 8) ∧ ∀ l ∈ c.act, ¬ Here t (afar 8 l)) ∧
    SliceMeets (.ld ⟨0, 15, 4, 0, 5, 1, 0⟩) (stopAll labX) (fun x => ∃ w ∈ (stopAll labX).curWg, ∃ p ∈ ((stopAll labX).place 0 w true (Acc.plain .read 8 8 true 0) (x.reg 4)).1.toOption,
      (stopAll labX).stalls [(0, .ok p)] = true) ∧
    SliceMeets (.ld ⟨0, 15, 1, 0, 5, 1, 0⟩) (labX.modPkg (fun p => { p with poisoned := [0x300000 / 8] })) (fun x => ∃ w ∈ labX.curWg,
      ∃ p ∈ (labX.place 0 w true (Acc.plain .read 8 8 true 0) (x.reg 1)).1.toOption, Here labX p ∧
        (labX.modPkg (fun p => { p with poisoned := [0x300000 / 8] })).badPlace p = true) := by
  refine ⟨meetsAtD ?_, meetsAtD ?_, meetsAtD ?_, meetsAtD ?_, sliceD ?_, sliceD ?_⟩ <;> decide +kernel

theorem witness_StoresStore_stalled :
    MeetsAt (.st ⟨0, 1, 15, 0, 4, 1, 0⟩) (stopAll labMap) (Acc.plain .write 4 4 true 0) (·.doers) (addrOf 15 0 4) (spot 4)
      (fun c => c.doers ≠ [] ∧ c.src.shape 15 = .p64 ∧ c.src.shape 1 = szShape 4) (fun c t => Stalled t c.doers (spot 4)) ∧
    MeetsAt (.st ⟨0, 1, 15, 0, 4, 1, 0⟩) labMap (Acc.plain .write 4 4 true 0) (·.doers) (addrOf 15 0 4) (spot 4)
      (fun c => c.doers ≠ [] ∧ c.src.shape 15 = .p64 ∧ c.src.shape 1 = szShape 4) (fun c t => Served t c.doers (spot 4)) := by
  refine ⟨meetsAtD ?_, meetsAtD ?_⟩ <;> decide +kernel

theorem witness_GranulesMove_stalled :
    let at_ : (Nat × Nat × Bool) → Nat → Place := fun _ r => .global [⟨0x340000 + 33 * r, 0x340000 + 33 * r, 115, 42, 33⟩]
    let ps := fun (gs : List (Nat × Nat × Bool)) (rows : Nat) => gs.flatMap (fun g => (upto 0 rows).map (fun r => (g.2.1, (Except.ok (at_ g r) : Except Cause Place))))
    MeetsGran (.ldg ⟨0, 1, 15, 0, 1, 0⟩) (stopAll labMap) .read 0 15 1 0 (·.granLanes) at_ (fun c => c.src.shape 15 = .p64)
      (fun c t => t.stalls (ps c.granLanes (c.src.shape 1).rows) = true) ∧
    MeetsGran (.ldg ⟨0, 1, 15, 0, 1, 0⟩) labMap .read 0 15 1 0 (·.granLanes) at_ (fun c => c.src.shape 15 = .p64)
      (fun c t => t.stalls (ps c.granLanes (c.src.shape 1).rows) = false ∧ ∀ g ∈ c.granLanes, ∀ r < (c.src.shape 1).rows, t.badPlace (at_ g r) = false) ∧
    MeetsGran (.stg ⟨0, 1, 15, 0, 1, 0⟩) (stopAll labMap) .write 0 15 1 0 (fun c => c.granLanes.filter (fun g => !g.2.2)) at_
      (fun c => c.src.shape 15 = .p64 ∧ c.granLanes.filter (fun g => !g.2.2) ≠ [])
      (fun c t => t.stalls (ps (c.granLanes.filter (fun g => !g.2.2)) (c.src.shape 1).rows) = true) ∧
    MeetsGran (.stg ⟨0, 1, 15, 0, 1, 0⟩) labMap .write 0 15 1 0 (fun c => c.granLanes.filter (fun g => !g.2.2)) at_
      (fun c => c.src.shape 15 = .p64 ∧ c.granLanes.filter (fun g => !g.2.2) ≠ [])
      (fun c t => t.stalls (ps (c.granLanes.filter (fun g => !g.2.2)) (c.src.shape 1).rows) = false) := by
  refine ⟨meetsGranD ?_, meetsGranD ?_, meetsGranD ?_, meetsGranD ?_⟩ <;> decide +kernel

theorem witness_LinesAreMoved_checked :
    let pref := fun (s : State) (a : Nat) (c : Ctx) => s.places c.core c.wg (Acc.plain .read 1 1 false 2) (c.act.map (fun l => (l, addrOf a 0 128 c l)))
    let line : Ctx → Nat → W64 := fun c l => BitVec.ofNat 64 ((addrOf 9 0 128 c l).toNat / 128 * 128)
    Meets (.pref 0 15 0 1 0) labMap (fun c => c.src.shape 15 = .p64 ∧ (∀ r ∈ (pref labMap 15 c).1, r.2.isOk = true) ∧ (pref labMap 15 c).2.stalls (pref labMap 15 c).1 = false) ∧
    Meets (.pref 0 14 0 1 0) labMap (fun c => c.src.shape 14 = .p64 ∧ ¬ ∀ r ∈ (pref labMap 14 c).1, r.2.isOk = true) ∧
    MeetsRefused (.lineWb 0 14 0 4) labMap (linePlain false) (·.doers) (addrOf 14 0 128) (fun c => c.doers ≠ [] ∧ c.src.shape 14 = .p64) ∧
    MeetsRefused (.lineZero 0 9 0 4) labAboard (linePlain true) (·.doers) line (fun c => c.doers ≠ [] ∧ c.src.shape 9 = .p64) ∧
    MeetsAt (.lineWb 0 15 0 4) (stopAll labMap) (linePlain false) (·.doers) (addrOf 15 0 128) (spot 1) (fun c => c.doers ≠ [] ∧ c.src.shape 15 = .p64)
      (fun c t => Stalled t c.doers (spot 1)) ∧
    MeetsAt (.lineInv 0 15 0 4) labMap (linePlain false) (·.doers) (addrOf 15 0 128) (spot 1) (fun c => c.doers ≠ [] ∧ c.src.shape 15 = .p64)
      (fun c t => Served t c.doers (spot 1)) := by
  refine ⟨meetsD ?_, meetsD ?_, meetsRefusedD ?_, meetsRefusedD ?_, meetsAtD ?_, meetsAtD ?_⟩ <;> decide +kernel

theorem witness_AtomicsPerform_places :
    let addr : Nat → Ctx → Nat → W64 := fun a c l => (c.src.read a l).setWidth 64
    Meets (.atomAdd ⟨0, 5, 8, 1, 1, 0, 0, 1⟩) labHelp (fun c => c.doers = []) ∧
    MeetsAt (.atomAdd ⟨0, 5, 15, 1, 3, 0, 0, 1⟩) (stopAll labMap) (atomAcc 0 32 3) (·.doers) (addr 15) (spot 4)
      (fun c => c.doers ≠ [] ∧ c.src.shape 15 = .p64 ∧ c.src.shape 1 = .p32) (fun c t => Stalled t c.doers (spot 4)) ∧
    MeetsAt (.atomAdd ⟨0, 5, 8, 1, 1, 0, 0, 1⟩) lab (atomAcc 0 32 1) (·.doers) (addr 8) (fun _ => .scratch 0)
      (fun c => c.doers ≠ [] ∧ c.src.shape 8 = .p64 ∧ c.src.shape 1 = .p32) (fun c t => Served t c.doers (fun _ => .scratch 0)) ∧
    MeetsAt (.atomAdd ⟨0, 5, 15, 1, 3, 0, 0, 1⟩) (only 0x20 labMap) (atomAcc 0 32 3) (·.doers) (addr 15) (spot 4)
      (fun c => c.doers = [5] ∧ c.src.shape 15 = .p64 ∧ c.src.shape 1 = .p32) (fun c t => Served t c.doers (spot 4) ∧ Readable t (spot 4 5)) := by
  refine ⟨meetsD ?_, meetsAtD ?_, meetsAtD ?_, meetsAtD ?_⟩ <;> decide +kernel

theorem witness_LaunchWordsReply_one :
    let five : State → State := fun s => s.modGroup 0 0 0 (put32 [(5, 5)])
    let addr : Ctx → Nat → W64 := fun c l => (c.src.read 15 l).setWidth 64
    let full : State := (labEnq 1).modDie 0 (fun d => d.modQueue 5 (fun q => { q with write := 16 }))
    let p := spot 64
    let one : Ctx → State → EnqLane := fun c t => (5, c.src.readN 5 5, BitVec.ofNat 512 (leNat (t.readPlace c.wg c.who.grp 5 64 (p 5))))
    MeetsAt (.enq 0 1 15 5) (stopAll (five (labEnq 1))) (Acc.plain .read 64 64 false 0) (·.act) addr p (fun c => c.src.shape 15 = .p64 ∧ c.src.shape 5 = .p32)
      (fun c t => Stalled t c.act p) ∧
    MeetsAt (.enq 0 1 15 5) (only 0x20 (five (labEnq 1))) (Acc.plain .read 64 64 false 0) (·.act) addr p
      (fun c => c.src.shape 15 = .p64 ∧ c.src.shape 5 = .p32 ∧ c.act = [5] ∧ (c.grp.lane 5).helper = false)
      (fun c t => Served t c.act p ∧ t.badPlace (p 5) = false ∧ t.enqBad c (one c t) (enqBefore c [one c t] 5 (one c t).2.1) = false ∧
        ((t.die 0).queue 5).released = [] ∧ ((t.die 0).queue 5).held < ((t.die 0).queue 5).cap) ∧
    MeetsAt (.enq 0 1 15 5) (only 0x20 (five full)) (Acc.plain .read 64 64 false 0) (·.act) addr p
      (fun c => c.src.shape 15 = .p64 ∧ c.src.shape 5 = .p32 ∧ c.act = [5] ∧ (c.grp.lane 5).helper = false)
      (fun c t => Served t c.act p ∧ t.badPlace (p 5) = false ∧ t.enqBad c (one c t) (enqBefore c [one c t] 5 (one c t).2.1) = false ∧
        ((t.die 0).queue 5).released = [] ∧ ((t.die 0).queue 5).cap ≤ ((t.die 0).queue 5).held) := by
  refine ⟨meetsAtD ?_, meetsAtD ?_, meetsAtD ?_⟩ <;> decide +kernel

/-- A descriptor of a pass of one pixel (R442). -/
def onePixel : BitVec 512 := BitVec.ofNat 512 ((1 + 2 ^ 16) * 2 ^ 64)
/-- The laboratory with that descriptor at 0x300000 and a slice of its partition's scratch. -/
def labOpens : State :=
  let s := (labGfx false).modDie 0 (fun d => { d with passes := [], split := [(0, { busy := false, refused := false, ways := 1, request := 1 })] })
  { s with mem := memPutList s.mem 0x300000 (leBytes 64 onePixel.toNat) }

theorem witness_GraphicsWordsAct_opening :
    let opens := fun (s : State) (c : Ctx) (ok : Bool) => c.doers.head? = some 0 ∧ c.src.shape 9 = .p64 ∧ c.src.shape 12 = .p64 ∧
      (∀ r ∈ regRun 21 9, c.src.shape r = .p32) ∧ s.passAt 0 c.wg.asid 0x300000 = none ∧
      ∃ p ∈ (s.place c.core c.wg true (Acc.plain .read 64 64 false 0) 0x300000).1.toOption,
        let u := (s.place c.core c.wg true (Acc.plain .read 64 64 false 0) 0x300000).2
        let v := u.laneRead c p
        u.stalls [(0, .ok p)] = false ∧ u.badPlace p = false ∧
          (v.passOpens 0 c.wg.part (BitVec.ofNat 512 (leNat (v.readPlace c.wg c.who.grp 0 64 p)))).isSome = ok
    Meets (.rast 0 9 21 12) labOpens (fun c => opens labOpens c true) ∧
    Meets (.rast 0 9 21 12) { labOpens with mem := base.mem } (fun c => opens { labOpens with mem := base.mem } c false) := by
  refine ⟨meetsD ?_, meetsD ?_⟩ <;> decide +kernel

/-- The laboratory with no launch table, a malformed entry 254, and a texture 7 (`labGfx`). -/
def labTex : State := (labGfx false).modWg 0 0 (fun w => { w with view := (254, ⟨BitVec.ofNat 512 (15 * 2 ^ 60), false⟩) :: w.view })

theorem witness_GraphicsWordsAct_samples :
    let nan := labTex.modGroup 0 0 0 (put32 [(22, 0x7FC00000)])
    let geo : State := only 1 { (labGfx false) with mem := memPutList (memPutList base.mem 0x340000 (leBytes 8 (3 + 2 ^ 16 + 2 ^ 32))) (0x340000 + 64 + 36) [0, 1, 2] }
    Meets (.tex 0 5 22 9) labTex (fun c => (∀ r ∈ regRun 22 2, c.src.shape r = .p32) ∧ (labTex.viewEntry c.wg 9).toOption = none) ∧
    Meets (.texl 0 5 22 254) labTex (fun c => (∀ r ∈ regRun 22 3, c.src.shape r = .p32) ∧
      (labTex.viewEntry c.wg 254).toOption = some (BitVec.ofNat 512 (15 * 2 ^ 60)) ∧ texOk (BitVec.ofNat 512 (15 * 2 ^ 60)) = false) ∧
    Meets (.texg 0 5 22 7) nan (fun c => (∀ r ∈ regRun 22 6, c.src.shape r = .p32) ∧ (nan.viewEntry c.wg 7).toOption.map texOk = some true ∧
      ∀ l ∈ c.act, (value c 32 22 l).isNan = true) ∧
    Meets (.attr 0 5 30 22 0) geo (fun c => c.src.shape 30 = .p64 ∧ c.act = [0] ∧ c.pixelRec 0 = none ∧ (∀ r ∈ regRun 22 3, c.src.shape r = .p32) ∧
      ∃ h ∈ (geo.laneReads c 0 1 [(0x340000, 8)]).1.toOption, let w := leNat (h.headD [])
        let t1 := (geo.laneReads c 0 1 [(0x340000, 8)]).2
        let at2 := [(0x340000 + 64 + 12 * geoV w + 3 * c.attrTri 22 0, 3)]
        geoOk w = true ∧ c.attrTri 22 0 < geoT w ∧ 0 < geoA w ∧
        ∃ ix ∈ (t1.laneReads c 0 1 at2).1.toOption, (∀ i ∈ ix.headD [], i.toNat < geoV w) ∧
          ((t1.laneReads c 0 1 at2).2.laneReads c 0 1 ((ix.headD []).map (fun i => (0x340000 + 64 + 12 * i.toNat, 12)) ++
            (ix.headD []).map (fun i => (0x340000 + geoR w + 4 * (geoA w * i.toNat + 0), 4)))).1.toOption.isSome = true) := by
  refine ⟨meetsD ?_, meetsD ?_, meetsD ?_, meetsD ?_⟩ <;> decide +kernel

theorem witness_ChurnAndRasterEventsAct_capture :
    let r : ChurnReq := { id := 3, who := some lab.cur.who, stop := 0, reached := 0, key := 0x300000, asid := 1, part := 0, priv := true, slot := some 399,
                          stage := .waiting, work := .cap 8 [(5, 0, 0)] [] }
    let x : Slot := { labSlot with value := 1, armed := true }
    let s := labWait (.reply 3)
    (r.stage ≠ .lost ∧ x.use = .word ∧ x.key = r.key ∧ x.asid = r.asid ∧ x.state = .aboard ∧ x.poison = false) ∧
    s.wakeTrap 0 0 0 (waitOn (.reply 3)) = none ∧ capLanes 8 x.value [(5, 0, 0)] = some ([(5, 1)], 0) ∧ s.unreadable x.home 8 = false := by
  decide +kernel

theorem witness_CacheEventsAct_puts :
    let r : AtomReq := { id := 0, who := lab.cur.who, asid := 1, aop := 0, w64 := false, dv := none, lanes := [(0, 0x340000, 1, 0)], addrs := [(0, 0x340000)] }
    let s := lab.modCluster 95 (fun c => { c with atomReqs := [r] })
    s.invPending [95] 0 1 0x340000 = true ∧ lab.invPending [95] 2 1 0 = false ∧ s.transOf 1 = none := by
  decide +kernel

theorem witness_HostLinkEventsAct_served :
    (State.reset.modDie 0 (fun d => { d with deadSlices := upto 0 64 })).stopped 0x340000 = true ∧ State.reset.stopped 0x340000 = false ∧
    State.reset.stopped 0x200000000000 = false ∧ (List.replicate 64 (0 : Byte)).length = 64 := by
  decide +kernel

theorem witness_FabricEventsAct_taken :
    let r : RemoteReq := { src := 125, kind := .write, pa := 0x340000, size := 8, data := 1, cmp := 0, aop := 14, ret := false }
    State.reset.stopped r.pa = false ∧ (r.size = 4 ∨ r.size = 8) ∧ (r.kind ≠ .atomic ∨ r.size ≤ 8) := by
  decide +kernel

theorem witness_PowerEventsAct_latched :
    State.reset.cycle % 16 = 0 ∧ ((State.reset.modDie 3 (fun d => { d with limiterTill := some 64 })).die 3).limiterTill = some 64 ∧ State.reset.cycle < 64 := by
  decide +kernel

theorem witness_AStepRunsTheDecodedWord_waits :
    let s := State.reset.withFetchWord 32 0x1C20001C
    let ended : State := { s with cur := { s.cur with live := false } }
    s.fetchStopped s.cur.pc = false ∧ (stopAll s).fetchStopped s.cur.pc = true ∧ (stopAll s).agenda.head? = some .word ∧ (stopAll s).cur.live = true ∧
    ended.agenda.head? = some .word ∧ ended.cur.live = false ∧ ({ State.reset with agenda := [.event (.doorbell 0 0 0)] }).agenda = [.event (.doorbell 0 0 0)] := by
  decide +kernel

end Sys2Proof.Tests
end

section
/-!
SUPPORT. IARITH, ILOGIC and ICMP (R103 to R105, R108): the functions on the numbers of W-bit patterns are those of bit vectors, and the
statements about these words.
-/
namespace Sys2Proof.Laws
open Sys2Proof.Machine Sys2Proof.Safety

/-! ## Words of two sources -/

/-- An integer word of two sources whose function agrees, on numbers, with one on bit vectors. -/
theorem integerWord_of_two_sources {i : Instr} {d a b : Nat} {f : Nat → Nat → Nat → Nat}
    {op : (w : Nat) → BitVec w → BitVec w → BitVec w}
    (hf : ∀ w (x y : BitVec w), 0 < w → f w x.toNat y.toNat % 2 ^ w = (op w x y).toNat)
    (he : ∀ s, exec i s = intWord (s.uses i) d a b false (fun w x y _ => f w x y) s) :
    IntegerWord i [a, b] d a b (fun w x y _ => op w x y) :=
  intWord_law (f := fun w x y _ => f w x y) ⟨a, [b], rfl⟩ (by simp) (by simp) (.inr fun _ _ _ _ _ => rfl) he
    (fun w x y _ hw => hf w x y (by omega))

/-- The same where the function's number is that of the bit vector before it is reduced modulo 2^W. -/
theorem integerWord_of_toNat_eq {i : Instr} {d a b : Nat} {f : Nat → Nat → Nat → Nat} {op : (w : Nat) → BitVec w → BitVec w → BitVec w}
    (hf : ∀ w (x y : BitVec w), f w x.toNat y.toNat = (op w x y).toNat)
    (he : ∀ s, exec i s = intWord (s.uses i) d a b false (fun w x y _ => f w x y) s) :
    IntegerWord i [a, b] d a b (fun w x y _ => op w x y) :=
  integerWord_of_two_sources (fun w x y _ => by rw [hf, BitVec.toNat_mod_cancel]) he

/-- An integer compare whose relation agrees, on numbers, with one on bit vectors. -/
theorem integerCompare_of_agrees {i : Instr} {f : RCmp} {r : Nat → Nat → Nat → Bool}
    {rel : (w : Nat) → BitVec w → BitVec w → Prop} [∀ w x y, Decidable (rel w x y)]
    (hr : ∀ w (x y : BitVec w), 0 < w → (r w x.toNat y.toNat = true ↔ rel w x y))
    (he : ∀ s, exec i s = cmpWord (s.uses i) f r s) : IntegerCompare i f.q f.a f.b rel := by
  refine cmpWord_law (f := r) he (fun w x y hw => ?_)
  rw [Bool.eq_iff_iff, hr w x y (by omega), decide_eq_true_iff]

/-! ## The functions on numbers and on bit vectors -/

/-- A wrapped integer is the bit vector of it, and takes no further wrapping. -/
theorem wrapInt_mod (x : Int) (w : Nat) : wrapInt x w % 2 ^ w = (BitVec.ofInt w x).toNat := by
  rw [wrapInt_eq, BitVec.toNat_mod_cancel]

/-- A number plus the modulus, less another, is their difference modulo 2^w. -/
theorem sub_mod_two_pow {w : Nat} (x y : BitVec w) : (x.toNat + 2 ^ w - y.toNat) % 2 ^ w = (x - y).toNat := by
  have := y.isLt
  rw [BitVec.toNat_sub]
  congr 1
  omega

/-- A bit vector is zero when its number is. -/
theorem toNat_eq_zero_iff {w : Nat} (x : BitVec w) : x.toNat = 0 ↔ x = 0 := by
  rw [← BitVec.toNat_inj, BitVec.ofNat_eq_ofNat, BitVec.toNat_zero]

/-- The number that a division by zero gives (R104) is the bit vector of ones. -/
theorem ones_mod_two_pow (w : Nat) : (2 ^ w - 1) % 2 ^ w = (BitVec.allOnes w).toNat := by
  rw [← BitVec.toNat_allOnes, BitVec.toNat_mod_cancel]

/-- Signed division (R103, R104). -/
theorem divSigned_mod {w : Nat} (x y : BitVec w) (hw : 0 < w) :
    divSigned w x.toNat y.toNat % 2 ^ w = (if y = 0 then BitVec.allOnes w else BitVec.ofInt w (x.toInt.tdiv y.toInt)).toNat := by
  unfold divSigned
  simp only [BitVec.toNat_mod_cancel, toNat_eq_zero_iff]
  split
  · exact ones_mod_two_pow w
  · rw [wrapInt_mod, sextN_toInt x hw, sextN_toInt y hw]

/-- Unsigned division (R103, R104). -/
theorem divUnsigned_mod {w : Nat} (x y : BitVec w) :
    divUnsigned w x.toNat y.toNat % 2 ^ w = (if y = 0 then BitVec.allOnes w else x / y).toNat := by
  unfold divUnsigned
  simp only [BitVec.toNat_mod_cancel, toNat_eq_zero_iff]
  split
  · exact ones_mod_two_pow w
  · rw [← BitVec.toNat_udiv, BitVec.toNat_mod_cancel]

/-- The number 2^w - 1 - y is the complement of y. -/
theorem and_ones_sub {w : Nat} (x y : BitVec w) : x.toNat &&& (2 ^ w - 1 - y.toNat) = (x &&& ~~~y).toNat := by
  rw [BitVec.toNat_and, BitVec.toNat_not]

/-- A product with a power of two, modulo 2^w, is a shift to the left. -/
theorem mul_two_pow_mod {w : Nat} (x : BitVec w) (n : Nat) : x.toNat * 2 ^ n % 2 ^ w = (x <<< n).toNat := by
  rw [BitVec.toNat_shiftLeft, Nat.shiftLeft_eq]

/-- A quotient by a power of two is a shift to the right. -/
theorem div_two_pow {w : Nat} (x : BitVec w) (n : Nat) : x.toNat / 2 ^ n = (x >>> n).toNat := by
  rw [BitVec.toNat_ushiftRight, Nat.shiftRight_eq_div_pow]

/-- The arithmetic shift to the right (R105). -/
theorem shiftArith_mod {w : Nat} (x : BitVec w) (n : Nat) (hw : 0 < w) :
    shiftArith w x.toNat n % 2 ^ w = (x.sshiftRight n).toNat := by
  unfold shiftArith BitVec.sshiftRight
  rw [wrapInt_mod, sextN_toInt x hw, Int.shiftRight_eq_div_pow]
  norm_cast

/-- The rotation to the right (R105): the two shifts, combined. -/
theorem rotateRight_mod {w : Nat} (x : BitVec w) (n : Nat) :
    rotateRight w x.toNat n % 2 ^ w = (x >>> n ||| x <<< (w - n)).toNat := by
  unfold rotateRight
  rw [div_two_pow, mul_two_pow_mod, ← BitVec.toNat_or, BitVec.toNat_mod_cancel]

/-! ## The statements -/

/-- Settles O1: each function on numbers is, modulo 2^W, the function on bit vectors; IMAD reads d beside a and b. -/
theorem integerArithmeticComputes : Obligations.IntegerArithmeticComputes := by
  intro f
  refine ⟨?iadd, ?isub, ?imul, ?imulh, ?imulhn, ?imad, ?idiv, ?idivn⟩
  case iadd => exact integerWord_of_two_sources (fun _ x y _ => (BitVec.toNat_add x y).symm) (fun _ => rfl)
  case isub => exact integerWord_of_two_sources (fun _ x y _ => sub_mod_two_pow x y) (fun _ => rfl)
  case imul => exact integerWord_of_two_sources (fun _ x y _ => (BitVec.toNat_mul x y).symm) (fun _ => rfl)
  case imulh =>
    refine integerWord_of_two_sources (fun w x y hw => ?_) (fun _ => rfl)
    rw [wrapInt_mod, sextN_toInt x hw, sextN_toInt y hw]
  case imulhn => exact integerWord_of_two_sources (fun w x y _ => (BitVec.toNat_ofNat ..).symm) (fun _ => rfl)
  case imad =>
    refine intWord_law ⟨f.a, [f.b, f.d], rfl⟩ (by simp) (by simp) (.inl (by simp)) (fun _ => rfl) (fun w x y z _ => ?_)
    rw [BitVec.toNat_add, BitVec.toNat_mul, Nat.mod_add_mod]
  case idiv => exact integerWord_of_two_sources (fun _ x y hw => divSigned_mod x y hw) (fun _ => rfl)
  case idivn => exact integerWord_of_two_sources (fun _ x y _ => divUnsigned_mod x y) (fun _ => rfl)

/-- Settles O2: the bitwise functions of numbers stay below 2^W, and a shift is a product or a quotient by a power of two. -/
theorem logicAndShiftsCompute : Obligations.LogicAndShiftsCompute := by
  intro f
  refine ⟨?and, ?or, ?xor, ?andn, ?shl, ?shr, ?sar, ?rotr⟩
  case and => exact integerWord_of_toNat_eq (fun _ x y => (BitVec.toNat_and x y).symm) (fun _ => rfl)
  case or => exact integerWord_of_toNat_eq (fun _ x y => (BitVec.toNat_or x y).symm) (fun _ => rfl)
  case xor => exact integerWord_of_toNat_eq (fun _ x y => (BitVec.toNat_xor x y).symm) (fun _ => rfl)
  case andn => exact integerWord_of_toNat_eq (fun _ x y => and_ones_sub x y) (fun _ => rfl)
  case shl => exact integerWord_of_two_sources (fun _ x _ _ => mul_two_pow_mod x _) (fun _ => rfl)
  case shr => exact integerWord_of_toNat_eq (fun _ x _ => div_two_pow x _) (fun _ => rfl)
  case sar => exact integerWord_of_two_sources (fun _ x _ hw => shiftArith_mod x _ hw) (fun _ => rfl)
  case rotr => exact integerWord_of_two_sources (fun _ x _ _ => rotateRight_mod x _) (fun _ => rfl)

/-- Settles O4: equality, order and common bits of the numbers are those of the bit vectors, the signed order by sign extension. -/
theorem integerComparesDecide : Obligations.IntegerComparesDecide := by
  intro f
  refine ⟨?eq, ?ne, ?lt, ?le, ?ltn, ?len, ?tst⟩
  case eq =>
    refine integerCompare_of_agrees (fun _ x y _ => ?_) (fun _ => rfl)
    rw [decide_eq_true_iff, BitVec.toNat_inj]
  case ne =>
    refine integerCompare_of_agrees (fun _ x y _ => ?_) (fun _ => rfl)
    rw [decide_eq_true_iff, ne_eq, BitVec.toNat_inj]
  case lt =>
    refine integerCompare_of_agrees (fun _ x y hw => ?_) (fun _ => rfl)
    rw [decide_eq_true_iff, sextN_toInt x hw, sextN_toInt y hw]
  case le =>
    refine integerCompare_of_agrees (fun _ x y hw => ?_) (fun _ => rfl)
    rw [decide_eq_true_iff, sextN_toInt x hw, sextN_toInt y hw]
  case ltn => exact integerCompare_of_agrees (fun _ _ _ _ => decide_eq_true_iff) (fun _ => rfl)
  case len => exact integerCompare_of_agrees (fun _ _ _ _ => decide_eq_true_iff) (fun _ => rfl)
  case tst =>
    refine integerCompare_of_agrees (fun _ x y _ => ?_) (fun _ => rfl)
    rw [decide_eq_true_iff, ← BitVec.toNat_and]
    exact not_congr (toNat_eq_zero_iff _)

end Sys2Proof.Laws
end

section
/-!
SUPPORT. Predicate logic (R158 to R160): the operators by the conditions of Kleene's tables, one lemma for every QLOGIC word, and the
statement about these words.
-/
namespace Sys2Proof.Laws
open Sys2Proof.Machine Sys2Proof.Safety

/-! ## The tables of R159, entry by entry -/

/-- F decides a conjunction; it takes two T to make T. -/
theorem triAnd_eq_ite (x y : Tri) : triAnd x y = if x = .f ∨ y = .f then .f else if x = .t ∧ y = .t then .t else .u := by
  cases x <;> cases y <;> rfl

/-- T decides a disjunction; it takes two F to make F. -/
theorem triOr_eq_ite (x y : Tri) : triOr x y = if x = .t ∨ y = .t then .t else if x = .f ∧ y = .f then .f else .u := by
  cases x <;> cases y <;> rfl

/-- An exclusive or is U as soon as one side is. -/
theorem triXor_eq_ite (x y : Tri) : triXor x y = if x = .u ∨ y = .u then .u else if x = y then .f else .t := by
  cases x <;> cases y <;> rfl

/-- Consensus keeps what both sides say, U where they differ. -/
theorem triCons_eq_ite (x y : Tri) : triCons x y = if x = y then x else .u := by
  cases x <;> cases y <;> rfl

/-- Negation exchanges T and F. -/
theorem triNot_eq_ite (x : Tri) : triNot x = if x = .t then .f else if x = .f then .t else .u := by
  cases x <;> rfl

/-- A predicate is defined unless it is U. -/
theorem triDef_eq_ite (x : Tri) : triDef x = if x = .u then .f else .t := by
  cases x <;> rfl

/-! ## The words -/

/-- A QLOGIC word that meets no check delivers, in each active lane, its operator of the lane's two predicates (R158). -/
theorem qWord_delivers {i : Instr} {q : Nat} {v : Nat → Tri} {c : Ctx} {s : State} (x y : Nat) (op : Tri → Tri → Tri)
    (he : exec i s = qWord (s.uses i) q x y op s) (hv : ∀ l, op ((c.src.lane l).pred x) ((c.src.lane l).pred y) = v l)
    (h : Ready i c s) : Delivers i c (Out.q q (preds c v)) id s := by
  apply commit_delivers
  rw [he, qWord, groupWord_ready h, preds, ← funext hv]
  rfl

/-- Settles O10: every QLOGIC word delivers its operator lane by lane, and each operator has its table. -/
theorem predicateLogicComputes : Obligations.PredicateLogicComputes := by
  intro s c p and3 or3
  refine ⟨fun f => ⟨?qand, ?qor, ?qxor, ?qcons⟩, fun f => ⟨?qnot, ?qmov, ?qdef⟩, fun f => ?qset⟩
  case qand => exact qWord_delivers f.x f.y triAnd rfl (fun _ => triAnd_eq_ite _ _)
  case qor => exact qWord_delivers f.x f.y triOr rfl (fun _ => triOr_eq_ite _ _)
  case qxor => exact qWord_delivers f.x f.y triXor rfl (fun _ => triXor_eq_ite _ _)
  case qcons => exact qWord_delivers f.x f.y triCons rfl (fun _ => triCons_eq_ite _ _)
  case qnot => exact qWord_delivers f.x f.x (fun x _ => triNot x) rfl (fun _ => triNot_eq_ite _)
  case qmov => exact qWord_delivers f.x f.x (fun x _ => x) rfl (fun _ => rfl)
  case qdef => exact qWord_delivers f.x f.x (fun x _ => triDef x) rfl (fun _ => triDef_eq_ite _)
  case qset => exact qWord_delivers 0 0 (fun _ _ => triConst f.k) rfl (fun _ => rfl)

end Sys2Proof.Laws
end

section
/-!
SUPPORT. The encoding (R34, R38): the statement that every well-formed word survives it, assembled from the lemma of each constructor.
-/
namespace Sys2Proof.Laws

/-- Settles O59: each word constructor has its lemma, and an event is no word. -/
theorem everyWordSurvivesItsEncoding : Obligations.EveryWordSurvivesItsEncoding := by
  intro i
  cases i with
  | iadd f => exact RoundTrip.iadd f
  | isub f => exact RoundTrip.isub f
  | imul f => exact RoundTrip.imul f
  | imulh f => exact RoundTrip.imulh f
  | imulhn f => exact RoundTrip.imulhn f
  | imad f => exact RoundTrip.imad f
  | idiv f => exact RoundTrip.idiv f
  | idivn f => exact RoundTrip.idivn f
  | and f => exact RoundTrip.and f
  | or f => exact RoundTrip.or f
  | xor f => exact RoundTrip.xor f
  | andn f => exact RoundTrip.andn f
  | shl f => exact RoundTrip.shl f
  | shr f => exact RoundTrip.shr f
  | sar f => exact RoundTrip.sar f
  | rotr f => exact RoundTrip.rotr f
  | imin f => exact RoundTrip.imin f
  | imax f => exact RoundTrip.imax f
  | nmin f => exact RoundTrip.nmin f
  | nmax f => exact RoundTrip.nmax f
  | popc f => exact RoundTrip.popc f
  | clz f => exact RoundTrip.clz f
  | brev f => exact RoundTrip.brev f
  | bfx f => exact RoundTrip.bfx f
  | icmpEq f => exact RoundTrip.icmpEq f
  | icmpNe f => exact RoundTrip.icmpNe f
  | icmpLt f => exact RoundTrip.icmpLt f
  | icmpLe f => exact RoundTrip.icmpLe f
  | icmpLtn f => exact RoundTrip.icmpLtn f
  | icmpLen f => exact RoundTrip.icmpLen f
  | icmpTst f => exact RoundTrip.icmpTst f
  | sel f => exact RoundTrip.sel f
  | iaddi f => exact RoundTrip.iaddi f
  | andi f => exact RoundTrip.andi f
  | ori f => exact RoundTrip.ori f
  | xori f => exact RoundTrip.xori f
  | shli f => exact RoundTrip.shli f
  | shri f => exact RoundTrip.shri f
  | sari f => exact RoundTrip.sari f
  | imuli f => exact RoundTrip.imuli f
  | movi f => exact RoundTrip.movi f
  | movhi f => exact RoundTrip.movhi f
  | fadd f => exact RoundTrip.fadd f
  | fsub f => exact RoundTrip.fsub f
  | fmul f => exact RoundTrip.fmul f
  | fma f => exact RoundTrip.fma f
  | fms f => exact RoundTrip.fms f
  | fnma f => exact RoundTrip.fnma f
  | fmin f => exact RoundTrip.fmin f
  | fmax f => exact RoundTrip.fmax f
  | fcmpLt f => exact RoundTrip.fcmpLt f
  | fcmpLe f => exact RoundTrip.fcmpLe f
  | fcmpEq f => exact RoundTrip.fcmpEq f
  | fcmpNe f => exact RoundTrip.fcmpNe f
  | fcmpGt f => exact RoundTrip.fcmpGt f
  | fcmpGe f => exact RoundTrip.fcmpGe f
  | fcmpUno f => exact RoundTrip.fcmpUno f
  | fabs f => exact RoundTrip.fabs f
  | fneg f => exact RoundTrip.fneg f
  | fsqrt f => exact RoundTrip.fsqrt f
  | frcp f => exact RoundTrip.frcp f
  | frsq f => exact RoundTrip.frsq f
  | fexp2 f => exact RoundTrip.fexp2 f
  | flog2 f => exact RoundTrip.flog2 f
  | fsin f => exact RoundTrip.fsin f
  | fcos f => exact RoundTrip.fcos f
  | ffloor f => exact RoundTrip.ffloor f
  | fceil f => exact RoundTrip.fceil f
  | frint f => exact RoundTrip.frint f
  | fclass f => exact RoundTrip.fclass f
  | ivlo f => exact RoundTrip.ivlo f
  | ivhi f => exact RoundTrip.ivhi f
  | mov f => exact RoundTrip.mov f
  | cvtF64F32 f => exact RoundTrip.cvtF64F32 f
  | cvtF32F64 f => exact RoundTrip.cvtF32F64 f
  | cvtF32I32 f => exact RoundTrip.cvtF32I32 f
  | cvtF32N32 f => exact RoundTrip.cvtF32N32 f
  | cvtI32F32 f => exact RoundTrip.cvtI32F32 f
  | cvtN32F32 f => exact RoundTrip.cvtN32F32 f
  | cvtF64I64 f => exact RoundTrip.cvtF64I64 f
  | cvtI64F64 f => exact RoundTrip.cvtI64F64 f
  | cvtF32F16l f => exact RoundTrip.cvtF32F16l f
  | cvtF32F16h f => exact RoundTrip.cvtF32F16h f
  | cvtF32Bf16l f => exact RoundTrip.cvtF32Bf16l f
  | cvtF32Bf16h f => exact RoundTrip.cvtF32Bf16h f
  | cvtPkF16 f => exact RoundTrip.cvtPkF16 f
  | cvtPkBf16 f => exact RoundTrip.cvtPkBf16 f
  | cvtPkE4m3 f => exact RoundTrip.cvtPkE4m3 f
  | cvtPkE5m2 f => exact RoundTrip.cvtPkE5m2 f
  | cvtUpE4m3 f => exact RoundTrip.cvtUpE4m3 f
  | cvtUpE5m2 f => exact RoundTrip.cvtUpE5m2 f
  | cvtPkQ4n f => exact RoundTrip.cvtPkQ4n f
  | cvtUpQ4n f => exact RoundTrip.cvtUpQ4n f
  | cvtPkI8 f => exact RoundTrip.cvtPkI8 f
  | cvtUpI8 f => exact RoundTrip.cvtUpI8 f
  | cvtI64I32 f => exact RoundTrip.cvtI64I32 f
  | cvtN64N32 f => exact RoundTrip.cvtN64N32 f
  | cvtI32I64 f => exact RoundTrip.cvtI32I64 f
  | sideGet f => exact RoundTrip.sideGet f
  | sideSet f => exact RoundTrip.sideSet f
  | ivmk f => exact RoundTrip.ivmk f
  | ivhull f => exact RoundTrip.ivhull f
  | ivmeet f => exact RoundTrip.ivmeet f
  | ivsqr f => exact RoundTrip.ivsqr f
  | ivmid f => exact RoundTrip.ivmid f
  | ivrad f => exact RoundTrip.ivrad f
  | ivsplit f => exact RoundTrip.ivsplit f
  | ivpown f => exact RoundTrip.ivpown f
  | clt f => exact RoundTrip.clt f
  | cle f => exact RoundTrip.cle f
  | ceq f => exact RoundTrip.ceq f
  | subset f => exact RoundTrip.subset f
  | contains f => exact RoundTrip.contains f
  | disjoint f => exact RoundTrip.disjoint f
  | zin f => exact RoundTrip.zin f
  | qand f => exact RoundTrip.qand f
  | qor f => exact RoundTrip.qor f
  | qnot f => exact RoundTrip.qnot f
  | qxor f => exact RoundTrip.qxor f
  | qmov f => exact RoundTrip.qmov f
  | qdef f => exact RoundTrip.qdef f
  | qcons f => exact RoundTrip.qcons f
  | qset f => exact RoundTrip.qset f
  | br c q k o => exact RoundTrip.br c q k o
  | call c d o => exact RoundTrip.call c d o
  | ret c a => exact RoundTrip.ret c a
  | jmpr c d a l => exact RoundTrip.jmpr c d a l
  | splitj c j => exact RoundTrip.splitj c j
  | join c j => exact RoundTrip.join c j
  | exit c => exact RoundTrip.exit c
  | yield c => exact RoundTrip.yield c
  | jmaskGet c j d => exact RoundTrip.jmaskGet c j d
  | jmaskSet c j a => exact RoundTrip.jmaskSet c j a
  | jmaskAdd c j => exact RoundTrip.jmaskAdd c j
  | jmaskDel c j => exact RoundTrip.jmaskDel c j
  | jmaskClr c j => exact RoundTrip.jmaskClr c j
  | shfl f => exact RoundTrip.shfl f
  | shflu f => exact RoundTrip.shflu f
  | shfld f => exact RoundTrip.shfld f
  | shflx f => exact RoundTrip.shflx f
  | vote c d q k g s => exact RoundTrip.vote c d q k g s
  | gredIadd f => exact RoundTrip.gredIadd f
  | gredImin f => exact RoundTrip.gredImin f
  | gredImax f => exact RoundTrip.gredImax f
  | gredNmin f => exact RoundTrip.gredNmin f
  | gredNmax f => exact RoundTrip.gredNmax f
  | gredAnd f => exact RoundTrip.gredAnd f
  | gredOr f => exact RoundTrip.gredOr f
  | gredXor f => exact RoundTrip.gredXor f
  | gredFadd f => exact RoundTrip.gredFadd f
  | gredFmin f => exact RoundTrip.gredFmin f
  | gredFmax f => exact RoundTrip.gredFmax f
  | matchLanes f => exact RoundTrip.matchLanes f
  | gfence c l g s => exact RoundTrip.gfence c l g s
  | qxh f => exact RoundTrip.qxh f
  | qxv f => exact RoundTrip.qxv f
  | qxd f => exact RoundTrip.qxd f
  | ddxc f => exact RoundTrip.ddxc f
  | ddyc f => exact RoundTrip.ddyc f
  | ddxf f => exact RoundTrip.ddxf f
  | ddyf f => exact RoundTrip.ddyf f
  | helpq c d g s => exact RoundTrip.helpq c d g s
  | ld f => exact RoundTrip.ld f
  | st f => exact RoundTrip.st f
  | lda f => exact RoundTrip.lda f
  | stl f => exact RoundTrip.stl f
  | ldg f => exact RoundTrip.ldg f
  | stg f => exact RoundTrip.stg f
  | pref c a o s h => exact RoundTrip.pref c a o s h
  | lineWb c a o s => exact RoundTrip.lineWb c a o s
  | lineInv c a o s => exact RoundTrip.lineInv c a o s
  | lineWbinv c a o s => exact RoundTrip.lineWbinv c a o s
  | lineZero c a o s => exact RoundTrip.lineZero c a o s
  | atomAdd f => exact RoundTrip.atomAdd f
  | atomMin f => exact RoundTrip.atomMin f
  | atomMax f => exact RoundTrip.atomMax f
  | atomNmin f => exact RoundTrip.atomNmin f
  | atomNmax f => exact RoundTrip.atomNmax f
  | atomAnd f => exact RoundTrip.atomAnd f
  | atomOr f => exact RoundTrip.atomOr f
  | atomXor f => exact RoundTrip.atomXor f
  | atomXchg f => exact RoundTrip.atomXchg f
  | atomCas f => exact RoundTrip.atomCas f
  | atomFadd f => exact RoundTrip.atomFadd f
  | atomFmin f => exact RoundTrip.atomFmin f
  | atomFmax f => exact RoundTrip.atomFmax f
  | atomIncw f => exact RoundTrip.atomIncw f
  | atomDecw f => exact RoundTrip.atomDecw f
  | nop c => exact RoundTrip.nop c
  | trap c k => exact RoundTrip.trap c k
  | eret c => exact RoundTrip.eret c
  | crr c d r => exact RoundTrip.crr c d r
  | crw c a r => exact RoundTrip.crw c a r
  | crset c a r => exact RoundTrip.crset c a r
  | crclr c a r => exact RoundTrip.crclr c a r
  | fence c s => exact RoundTrip.fence c s
  | fenceAcq c s => exact RoundTrip.fenceAcq c s
  | fenceRel c s => exact RoundTrip.fenceRel c s
  | fenceLayer c => exact RoundTrip.fenceLayer c
  | quota c q a b => exact RoundTrip.quota c q a b
  | sleep c n => exact RoundTrip.sleep c n
  | tlbinvPage c a => exact RoundTrip.tlbinvPage c a
  | tlbinvAsid c => exact RoundTrip.tlbinvAsid c
  | tlbinvAll c => exact RoundTrip.tlbinvAll c
  | fwcallVersion c d a => exact RoundTrip.fwcallVersion c d a
  | fwcallTemperature c d a => exact RoundTrip.fwcallTemperature c d a
  | fwcallForecast c d a => exact RoundTrip.fwcallForecast c d a
  | fwcallCap c d a => exact RoundTrip.fwcallCap c d a
  | fwcallCounter c d a => exact RoundTrip.fwcallCounter c d a
  | fwcallHalfRow c d a => exact RoundTrip.fwcallHalfRow c d a
  | fwcallUnlisted c d a s => exact RoundTrip.fwcallUnlisted c d a s
  | cacheIfetch c => exact RoundTrip.cacheIfetch c
  | cacheWb c => exact RoundTrip.cacheWb c
  | cacheWbinv c => exact RoundTrip.cacheWbinv c
  | rep n d a b => exact RoundTrip.rep n d a b
  | aslice c q a b => exact RoundTrip.aslice c q a b
  | pusht c f t x n => exact RoundTrip.pusht c f t x n
  | copy c a b m => exact RoundTrip.copy c a b m
  | tidset c a i => exact RoundTrip.tidset c a i
  | tidget c a i => exact RoundTrip.tidget c a i
  | await c q => exact RoundTrip.await c q
  | qpush c a n => exact RoundTrip.qpush c a n
  | qpop c d n => exact RoundTrip.qpop c d n
  | qtry c d q n => exact RoundTrip.qtry c d q n
  | swinit c a b => exact RoundTrip.swinit c a b
  | swadd c a b => exact RoundTrip.swadd c a b
  | swwait c a b => exact RoundTrip.swwait c a b
  | barinit c a b => exact RoundTrip.barinit c a b
  | barrive c d a b => exact RoundTrip.barrive c d a b
  | bardrop c d a b => exact RoundTrip.bardrop c d a b
  | barwait c q a b e => exact RoundTrip.barwait c q a b e
  | nbarrive c d a k => exact RoundTrip.nbarrive c d a k
  | nbarriveDrop c d a k => exact RoundTrip.nbarriveDrop c d a k
  | nbarwait c q a e k => exact RoundTrip.nbarwait c q a e k
  | nbarset c q a b k => exact RoundTrip.nbarset c q a b k
  | acqp c d a z => exact RoundTrip.acqp c d a z
  | mma f => exact RoundTrip.mma f
  | azero c a => exact RoundTrip.azero c a
  | areadF32 c a d k => exact RoundTrip.areadF32 c a d k
  | areadF64 c a d k => exact RoundTrip.areadF64 c a d k
  | areadI32 c a d k => exact RoundTrip.areadI32 c a d k
  | areadRaw c a d k => exact RoundTrip.areadRaw c a d k
  | awriteF32 c a v k => exact RoundTrip.awriteF32 c a v k
  | awriteF64 c a v k => exact RoundTrip.awriteF64 c a v k
  | awriteI32 c a v k => exact RoundTrip.awriteI32 c a v k
  | awriteRaw c a v k => exact RoundTrip.awriteRaw c a v k
  | smxu c a f v p => exact RoundTrip.smxu c a f v p
  | smxrM c a d => exact RoundTrip.smxrM c a d
  | smxrL c a d => exact RoundTrip.smxrL c a d
  | smxrSt c a d => exact RoundTrip.smxrSt c a d
  | mfence c => exact RoundTrip.mfence c
  | mwait c a => exact RoundTrip.mwait c a
  | cboard c q a => exact RoundTrip.cboard c q a
  | cboardr c q a b e => exact RoundTrip.cboardr c q a b e
  | calight c d a => exact RoundTrip.calight c d a
  | ccapAdd c d a b => exact RoundTrip.ccapAdd c d a b
  | ccapSub c d a b => exact RoundTrip.ccapSub c d a b
  | ccapMin c d a b => exact RoundTrip.ccapMin c d a b
  | ccapMax c d a b => exact RoundTrip.ccapMax c d a b
  | ccapAnd c d a b => exact RoundTrip.ccapAnd c d a b
  | ccapOr c d a b => exact RoundTrip.ccapOr c d a b
  | ccapXchg c d a b => exact RoundTrip.ccapXchg c d a b
  | ccapCas c d a b => exact RoundTrip.ccapCas c d a b
  | ccapDec c d a => exact RoundTrip.ccapDec c d a
  | cpeek c d a => exact RoundTrip.cpeek c d a
  | cwait c d a b k => exact RoundTrip.cwait c d a b k
  | rast c a b e => exact RoundTrip.rast c a b e
  | rseal c a => exact RoundTrip.rseal c a
  | bpush c k q a b => exact RoundTrip.bpush c k q a b
  | bpushHit c k q a b => exact RoundTrip.bpushHit c k q a b
  | bisect c q a b e => exact RoundTrip.bisect c q a b e
  | attr c d a b j => exact RoundTrip.attr c d a b j
  | tex c d a t => exact RoundTrip.tex c d a t
  | texl c d a t => exact RoundTrip.texl c d a t
  | texg c d a t => exact RoundTrip.texg c d a t
  | bflush c a => exact RoundTrip.bflush c a
  | bflushAll c => exact RoundTrip.bflushAll c
  | enq c q a b => exact RoundTrip.enq c q a b
  | rgrab c d i => exact RoundTrip.rgrab c d i
  | rgrabSet c a b i => exact RoundTrip.rgrabSet c a b i
  | sread c d k => exact RoundTrip.sread c d k
  | time c d => exact RoundTrip.time c d
  | energy c d => exact RoundTrip.energy c d
  | energyQ c d a => exact RoundTrip.energyQ c d a
  | _ => exact fun h => nomatch h

end Sys2Proof.Laws
end

section
/-!
SUPPORT. IBITS, IIMM, MOVI, MOVHI and SEL (R106, R107, R109 to R112): words of one source and words with an immediate, and the statements about
these words.
-/
namespace Sys2Proof.Laws
open Sys2Proof.Machine Sys2Proof.Safety

/-! ## Words of one source -/

/-- An integer word of one source whose function agrees, on numbers, with one on bit vectors. -/
theorem integerWord_of_one_source {i : Instr} {d a : Nat} {f : Nat → Nat → Nat} {op : (w : Nat) → BitVec w → BitVec w}
    (hf : ∀ w (x : BitVec w), 0 < w → f w x.toNat % 2 ^ w = (op w x).toNat) (he : ∀ s, exec i s = intWord1 (s.uses i) d a f s) :
    IntegerWord i [a] d a a (fun w x _ _ => op w x) :=
  intWord_law (f := fun w x _ _ => f w x) ⟨a, [], rfl⟩ (by simp) (by simp) (.inr fun _ _ _ _ _ => rfl) he
    (fun w x _ _ hw => hf w x (by omega))

/-- The immediate of an IIMM word, widened to w bits (R110). -/
def immOf (i w : Nat) : BitVec w := (BitVec.ofNat 9 i).signExtend w

/-- Sign extension of n bits of a number is the signed value of the n-bit pattern. -/
theorem sextN_eq_toInt (i : Nat) {n : Nat} (hn : 0 < n) : sextN i n = (BitVec.ofNat n i).toInt := by
  rw [← sextN_toInt _ hn, BitVec.toNat_ofNat]
  simp [sextN]

/-- The widened immediate as the model computes it. -/
theorem wrapInt_imm (i w : Nat) : wrapInt (sextN i 9) w = (immOf i w).toNat := by
  rw [wrapInt_eq, sextN_eq_toInt i (by decide)]
  rfl

/-- An IIMM word whose function agrees, on numbers, with one on bit vectors. -/
theorem integerWord_of_immediate {i : Instr} {f : RImm} {g : Nat → Nat → Nat → Nat} {op : (w : Nat) → BitVec w → BitVec w → BitVec w}
    (hg : ∀ w (x y : BitVec w), 0 < w → g w x.toNat y.toNat % 2 ^ w = (op w x y).toNat)
    (he : ∀ s, exec i s = immWord (s.uses i) f g s) : IntegerWord i [f.a] f.d f.a f.a (fun w x _ _ => op w x (immOf f.i w)) := by
  refine integerWord_of_one_source (f := fun w x => g w x (wrapInt (sextN f.i 9) w)) (fun w x hw => ?_) he
  rw [wrapInt_imm, hg w x _ hw]

/-! ## The functions on numbers and on bit vectors -/

/-- The choice between two numbers is the choice between their bit vectors. -/
theorem ite_toNat_mod {w : Nat} (p : Prop) [Decidable p] (x y : BitVec w) :
    (if p then x.toNat else y.toNat) % 2 ^ w = (if p then x else y).toNat := by
  split <;> exact BitVec.toNat_mod_cancel _

/-- The population count reads the bits of the pattern (R106). -/
theorem popCount_eq {w : Nat} (x : BitVec w) : popCount w x.toNat = ((List.range w).filter (fun k => x.getLsbD k)).length := by
  rw [popCount, upto_zero]
  rfl

/-- What is taken from a list depends on the test of its members only. -/
theorem takeWhile_congr_of_mem {α : Type} {p q : α → Bool} {l : List α} (h : ∀ x ∈ l, p x = q x) : l.takeWhile p = l.takeWhile q := by
  induction l with
  | nil => rfl
  | cons a t ih => rw [List.takeWhile_cons, List.takeWhile_cons, h a (by simp), ih (fun x hx => h x (List.mem_cons_of_mem a hx))]

/-- The count of leading zeros reads the bits of the pattern from the top (R106). -/
theorem leadingZeros_eq {w : Nat} (x : BitVec w) :
    leadingZeros w x.toNat = ((List.range w).takeWhile (fun k => !x.getMsbD k)).length := by
  rw [leadingZeros, upto_zero]
  congr 1
  refine takeWhile_congr_of_mem (fun k hk => ?_)
  simp [BitVec.getMsbD, List.mem_range.mp hk, BitVec.getLsbD]

/-- A run of bits of a pattern, as a number. -/
theorem extract_toNat {w : Nat} (x : BitVec w) (pos n : Nat) : (x.extractLsb' pos n).toNat = x.toNat / 2 ^ pos % 2 ^ n := by
  rw [BitVec.extractLsb'_toNat, Nat.shiftRight_eq_div_pow]

/-- Bit 15 of the field descriptor (R107). -/
theorem signedField_iff {w : Nat} (y : BitVec w) : y.toNat / 2 ^ 15 % 2 = 1 ↔ y.getLsbD 15 = true := by
  simp [BitVec.getLsbD, Nat.testBit_eq_decide_div_mod_eq]

/-- Field extraction with its clipped edge (R107). -/
theorem bitField_mod {w : Nat} (x y : BitVec w) :
    bitField w x.toNat y.toNat % 2 ^ w = (
      let pos := y.toNat % 64
      let len := y.toNat / 256 % 64
      let n := min (pos + len) w - pos
      if w ≤ pos ∨ len = 0 then 0
      else if y.getLsbD 15 then BitVec.ofInt w ((x.extractLsb' pos n).toInt) else BitVec.ofNat w ((x.extractLsb' pos n).toNat)).toNat := by
  unfold bitField
  dsimp only
  split
  · simp
  · rename_i h
    have hn : 0 < min (y.toNat % 64 + y.toNat / 256 % 64) w - y.toNat % 64 := by omega
    rw [← extract_toNat, sextN_toInt _ hn, apply_ite (· % 2 ^ w), apply_ite BitVec.toNat, wrapInt_mod, BitVec.toNat_ofNat]
    simp only [signedField_iff]

/-! ## The statements -/

/-- Settles O3: the words of two sources and the words of one, each by its function on bit vectors. -/
theorem bitOperationsCompute : Obligations.BitOperationsCompute := by
  refine ⟨fun f => ⟨?imin, ?imax, ?nmin, ?nmax, ?bfx⟩, fun f => ⟨?popc, ?clz, ?brev⟩⟩
  case imin =>
    refine integerWord_of_two_sources (f := fun w x y => if sextN x w ≤ sextN y w then x else y) (fun w x y hw => ?_) (fun _ => rfl)
    rw [sextN_toInt x hw, sextN_toInt y hw, ite_toNat_mod]
  case imax =>
    refine integerWord_of_two_sources (f := fun w x y => if sextN y w ≤ sextN x w then x else y) (fun w x y hw => ?_) (fun _ => rfl)
    rw [sextN_toInt x hw, sextN_toInt y hw, ite_toNat_mod]
  case nmin =>
    refine integerWord_of_two_sources (f := fun _ x y => min x y) (fun w x y _ => ?_) (fun _ => rfl)
    rw [Nat.min_def, ite_toNat_mod]
  case nmax =>
    refine integerWord_of_two_sources (f := fun _ x y => max x y) (fun w x y _ => ?_) (fun _ => rfl)
    rw [show max x.toNat y.toNat = if x.toNat < y.toNat then y.toNat else x.toNat by split <;> omega, ← ite_toNat_mod]
    split <;> split <;> omega
  case bfx => exact integerWord_of_two_sources (fun _ x y _ => bitField_mod x y) (fun _ => rfl)
  case popc => exact integerWord_of_one_source (fun _ x _ => by rw [popCount_eq, BitVec.toNat_ofNat]) (fun _ => rfl)
  case clz => exact integerWord_of_one_source (fun _ x _ => by rw [leadingZeros_eq, BitVec.toNat_ofNat]) (fun _ => rfl)
  case brev =>
    refine integerWord_of_one_source (fun _ x _ => ?_) (fun _ => rfl)
    rw [bitReverse, BitVec.ofNat_toNat, BitVec.setWidth_eq, BitVec.toNat_mod_cancel]

/-- An immediate that is MOVI's, sign-extended, as an element. -/
theorem movi_elem (i : Nat) : elemN (wrapInt (sextN i 18) 32) = ((BitVec.ofNat 18 i).signExtend 32).setWidth 128 := by
  rw [wrapInt_eq, sextN_eq_toInt i (by decide), elemN_toNat]
  rfl

/-- MOVHI's value: the immediate above the 14 low bits (R112). -/
theorem movhi_bits {i : Nat} (x : BitVec 14) (h : i < 2 ^ 18) : i * 2 ^ 14 + x.toNat = (BitVec.ofNat 18 i ++ x : BitVec 32).toNat := by
  have hx := x.isLt
  rw [BitVec.toNat_append, BitVec.toNat_ofNat, Nat.mod_eq_of_lt h, Nat.shiftLeft_eq, Nat.mul_comm, Nat.two_pow_add_eq_or_of_lt hx]

/-- A slice's MOVHI value. -/
theorem movhi_word {i : Nat} (y : W64) (h : i < 2 ^ 18) :
    BitVec.ofNat 64 (i * 2 ^ 14 + y.toNat % 2 ^ 14) = (BitVec.ofNat 18 i ++ y.setWidth 14 : BitVec 32).setWidth 64 := by
  rw [show y.toNat % 2 ^ 14 = (y.setWidth 14).toNat by simp, movhi_bits _ h]
  apply BitVec.eq_of_toNat_eq
  simp

/-- The shape of SEL's result (R109). -/
theorem selShape_eq {a b : Shape} (h : a.width = b.width) :
    selShape a b = some (if a.isIv ∨ b.isIv then ivShape a.width else a) := by
  simp [selShape, h]
  split <;> rfl

/-- A shape that is no interval is the point of its width. -/
theorem shape_of_point {k : Shape} (h : k.isIv = false) : k = pointShape k.width := by
  cases k
  case p32 | p64 => rfl
  case i32 | i64 => cases h

theorem ivShape_width (k : Shape) : (ivShape k.width).width = k.width := by
  cases k <;> rfl

theorem width_cases (k : Shape) : k.width = 32 ∨ k.width = 64 := by
  cases k <;> simp [Shape.width]

/-- What SEL makes of the source that it takes (R109): a point of the width of an interval result is promoted. -/
theorem promote_eq {k : Shape} {g : Group} {r : Nat} (l : Nat) (h : (g.shape r).width = k.width) :
    (if k.isIv then promote k.width (g.shape r) (g.read r l) else g.read r l) =
      if k.isIv ∧ ¬ (g.shape r).isIv then ivElem k.width (g.readN r l) (g.readN r l) else g.read r l := by
  cases hk : k.isIv <;> cases hr : (g.shape r).isIv <;> simp only [promote, hr, if_true, if_false, true_and, false_and, Bool.false_eq_true, not_true_eq_false, not_false_eq_true]
  rw [← h, ← Group.readN, Nat.mod_eq_of_lt (readN_point (width_cases _) (shape_of_point hr))]

/-- SEL. -/
theorem sel_selects (f : R3) (s : State) :
    (∀ c, Ready (.sel f) c s → (c.src.shape f.a).width = (c.src.shape f.b).width →
      let k := if (c.src.shape f.a).isIv ∨ (c.src.shape f.b).isIv then ivShape (c.src.shape f.a).width else c.src.shape f.a
      Delivers (.sel f) c (Out.v f.d k (lanes c (fun l =>
        let r := if guardPasses f.g (c.src.lane l) then f.a else f.b
        if k.isIv ∧ ¬ (c.src.shape r).isIv then ivElem k.width (c.src.readN r l) (c.src.readN r l) else c.src.read r l))) id s) ∧
    (∀ c, Ready (.sel f) c s → (c.src.shape f.a).width ≠ (c.src.shape f.b).width → Traps (.sel f) c (faultOf c .shape) s) ∧
    (∀ x, SliceReady (.sel f) x s → SliceDoes (.sel f) (fun y => y.setReg f.d (if x.guard f.g then x.reg f.a else x.reg f.b)) s) := by
  refine ⟨fun c h hw => ?_, fun c h hw => ?_, fun x h => exec_slice h _ _ rfl⟩
  · dsimp only
    generalize hk : (if (c.src.shape f.a).isIv ∨ (c.src.shape f.b).isIv then ivShape (c.src.shape f.a).width else c.src.shape f.a) = k
    have hka : (c.src.shape f.a).width = k.width := by
      rw [← hk]; split <;> simp [ivShape_width]
    have hr : ∀ l, (c.src.shape (if guardPasses f.g (c.src.lane l) then f.a else f.b)).width = k.width := by
      intro l; split
      · exact hka
      · exact hw ▸ hka
    apply commit_delivers
    rw [exec_ready2 h _ _ rfl, selGroup, selShape_eq hw, hk]
    simp only [promote_eq _ (hr _)]
    rfl
  · unfold Traps TrapsIn
    rw [exec_ready2 h _ _ rfl, selGroup, selShape, if_pos hw]
    rfl

/-- Settles O5: each IIMM function agrees with its function on bit vectors. -/
theorem immediatesAndSelectCompute : Obligations.ImmediatesAndSelectCompute := by
  refine ⟨⟨fun f => ⟨?iaddi, ?andi, ?ori, ?xori, ?shli, ?shri, ?sari, ?imuli⟩, fun f s hi => ⟨?movi, ?moviSlice, ?movhi, ?movhiShape, ?movhiSlice⟩⟩,
    sel_selects⟩
  case iaddi => exact integerWord_of_immediate (op := fun _ x y => x + y) (fun _ x y _ => (BitVec.toNat_add x y).symm) (fun _ => rfl)
  case andi => exact integerWord_of_immediate (op := fun _ x y => x &&& y) (fun _ x y _ => by rw [← BitVec.toNat_and, BitVec.toNat_mod_cancel]) (fun _ => rfl)
  case ori => exact integerWord_of_immediate (op := fun _ x y => x ||| y) (fun _ x y _ => by rw [← BitVec.toNat_or, BitVec.toNat_mod_cancel]) (fun _ => rfl)
  case xori => exact integerWord_of_immediate (op := fun _ x y => x ^^^ y) (fun _ x y _ => by rw [← BitVec.toNat_xor, BitVec.toNat_mod_cancel]) (fun _ => rfl)
  case shli =>
    exact integerWord_of_immediate (g := fun w x i => x * 2 ^ (i % w)) (op := fun w x y => x <<< (y.toNat % w)) (fun _ x y _ => mul_two_pow_mod x _) (fun _ => rfl)
  case shri =>
    exact integerWord_of_immediate (g := fun w x i => x / 2 ^ (i % w)) (op := fun w x y => x >>> (y.toNat % w)) (fun _ x y _ => by rw [div_two_pow, BitVec.toNat_mod_cancel]) (fun _ => rfl)
  case sari =>
    exact integerWord_of_immediate (g := fun w x i => shiftArith w x (i % w)) (op := fun w x y => x.sshiftRight (y.toNat % w)) (fun _ x y hw => shiftArith_mod x _ hw) (fun _ => rfl)
  case imuli => exact integerWord_of_immediate (op := fun _ x y => x * y) (fun _ x y _ => (BitVec.toNat_mul x y).symm) (fun _ => rfl)
  case movi =>
    intro c h
    apply commit_delivers
    rw [exec_ready2 h _ _ rfl, movi_elem]
    rfl
  case moviSlice =>
    intro x h
    unfold SliceDoes
    rw [exec_slice h _ _ rfl, sextN_eq_toInt _ (by decide)]
    rfl
  case movhi =>
    intro c h hd
    have hv : ∀ l, elemN (f.i * 2 ^ 14 + c.src.readN f.d l % 2 ^ 14) =
        (BitVec.ofNat 18 f.i ++ (point c.src 32 f.d l).setWidth 14 : BitVec 32).setWidth 128 := by
      intro l
      rw [← elemN_toNat, ← movhi_bits _ hi, BitVec.toNat_setWidth, point_toNat (.inl rfl) hd]
    apply commit_delivers
    rw [exec_ready2 h _ _ rfl]
    simp only [hd, hv, ne_eq, not_true_eq_false, if_false]
    rfl
  case movhiShape =>
    intro c h hd
    unfold Traps TrapsIn
    rw [exec_ready2 h _ _ rfl, if_pos hd]
    rfl
  case movhiSlice =>
    intro x h
    unfold SliceDoes
    rw [exec_slice h _ _ rfl, movhi_word _ hi]

end Sys2Proof.Laws
end

section
/-!
SUPPORT. FARITH, FCMP, FUNARY, MOV (R113 to R122, R144, R145, R148, R155): the words by their functions on points and on intervals, and the
statements about these words.
-/
namespace Sys2Proof.Laws
open Sys2Proof.Machine Sys2Proof.Safety

/-! ## FARITH -/

/-- The bounds that a function of two intervals gives, rounded outward (R144). -/
def bounds2 (regs : List Nat) (g : Iv → Iv → XV × XV) (w : Nat) (c : Ctx) (l : Nat) : Except Cause Elem :=
  c.onIv w regs l (fun xs => match xs with
    | a :: b :: _ => .ok (outwardX (fmtOf w) (g a b).1 (g a b).2)
    | _ => .ok 0)

/-- The bounds that a function of the product of two intervals and of a third gives (R144). -/
def bounds3 (regs : List Nat) (g : Iv → Iv → XV × XV) (w : Nat) (c : Ctx) (l : Nat) : Except Cause Elem :=
  c.onIv w regs l (fun xs => match xs with
    | a :: b :: z :: _ => .ok (outwardX (fmtOf w) (g (ivProducts a b) z).1 (g (ivProducts a b) z).2)
    | _ => .ok 0)

/-- An FARITH word of two sources (R113, R144). -/
theorem farith_two {i : Instr} {f : R3} (fn : Nat) {pt : Nat → Ctx → Nat → Elem × W64} {g : Iv → Iv → XV × XV}
    (he : ∀ s, exec i s = groupWord (s.uses i) s (farith fn false f))
    (hp : ∀ (w : Nat) (c : Ctx) (l : Nat), c.farithPt w fn f.a f.b f.d l = .ok (pt w c l)) (hg : ∀ a b, farithIv fn a b a = g a b) :
    FloatWord i [f.a, f.b] f.d pt (bounds2 [f.a, f.b] g) := by
  refine floatWord_law (P := fun w c l => c.farithPt w fn f.a f.b f.d l) (Q := fun w c l => c.farithIvLane w fn [f.a, f.b] l) he hp
    (fun w c l => congrArg (c.keepGen l) (onIv_congr (fun xs hx => ?_)))
  obtain ⟨a, b, rfl⟩ := two_of_length xs hx
  simp only [List.headD, hg]

/-- An FARITH word of three sources (R113, R144). -/
theorem farith_three {i : Instr} {f : R3} (fn : Nat) {pt : Nat → Ctx → Nat → Elem × W64} {g : Iv → Iv → XV × XV}
    (he : ∀ s, exec i s = groupWord (s.uses i) s (farith fn true f))
    (hp : ∀ (w : Nat) (c : Ctx) (l : Nat), c.farithPt w fn f.a f.b f.d l = .ok (pt w c l)) (hg : ∀ a b z, farithIv fn a b z = g (ivProducts a b) z) :
    FloatWord i [f.a, f.b, f.d] f.d pt (bounds3 [f.a, f.b, f.d] g) := by
  refine floatWord_law (P := fun w c l => c.farithPt w fn f.a f.b f.d l) (Q := fun w c l => c.farithIvLane w fn [f.a, f.b, f.d] l) he hp
    (fun w c l => congrArg (c.keepGen l) (onIv_congr (fun xs hx => ?_)))
  obtain ⟨a, b, z, rfl⟩ := three_of_length xs hx
  simp only [List.headD, hg]

/-- Settles O6: each function's value on points and its bounds on intervals are those of its code. -/
theorem floatArithmeticRounds : Obligations.FloatArithmeticRounds := by
  intro f
  refine ⟨?fadd, ?fsub, ?fmul, ?fma, ?fms, ?fnma, ?fmin, ?fmax⟩
  case fadd => exact farith_two 0 (fun _ => rfl) (fun _ _ _ => rfl) (fun _ _ => rfl)
  case fsub => exact farith_two 1 (fun _ => rfl) (fun _ _ _ => rfl) (fun _ _ => rfl)
  case fmul => exact farith_two 2 (fun _ => rfl) (fun _ _ _ => rfl) (fun _ _ => rfl)
  case fma =>
    exact farith_three 3 (g := fun p z => (addFV 1 p.lo z.lo, addFV 1 p.hi z.hi))
      (fun _ => rfl) (fun _ _ _ => rfl) (fun _ _ _ => rfl)
  case fms =>
    exact farith_three 4 (g := fun p z => (addFV 1 p.lo (negFV z.hi), addFV 1 p.hi (negFV z.lo)))
      (fun _ => rfl) (fun _ _ _ => rfl) (fun _ _ _ => rfl)
  case fnma =>
    exact farith_three 5 (g := fun p z => (addFV 1 z.lo (negFV p.hi), addFV 1 z.hi (negFV p.lo)))
      (fun _ => rfl) (fun _ _ _ => rfl) (fun _ _ _ => rfl)
  case fmin => exact farith_two 6 (fun _ => rfl) (fun _ _ _ => rfl) (fun _ _ => rfl)
  case fmax => exact farith_two 7 (fun _ => rfl) (fun _ _ _ => rfl) (fun _ _ => rfl)

/-! ## FCMP -/

/-- Registers of two widths have no common width. -/
theorem no_width_of_ne {c : Ctx} {a b : Nat} (h : (c.src.shape a).width ≠ (c.src.shape b).width) : ¬ ∃ w, Widths c [a, b] w := by
  rintro ⟨w, hw⟩
  exact h ((hw a (by simp)).trans (hw b (by simp)).symm)

/-- An FCMP word (R116, R155). -/
theorem floatCompare_law {i : Instr} {f : RCmp} (fn : Nat) {pt : FV → FV → Tri} {iv : Iv → Iv → Tri}
    (he : ∀ s, exec i s = groupWord (s.uses i) s (fcmp fn f)) (hp : ∀ x y, fcmpPoint fn x y = pt x y) (hi : ∀ a b, fcmpIv fn a b = iv a b) :
    FloatCompare i f.q f.a f.b pt iv := by
  obtain rfl : fcmpIv fn = iv := funext fun a => funext fun b => hi a b
  obtain rfl : fcmpPoint fn = pt := funext fun a => funext fun b => hp a b
  intro s c h
  refine ⟨fun w hw => ?_, fun w hw hr => ?_, fun hn => ?_⟩
  · apply commit_delivers
    rw [he, groupWord_ready h, fcmp, fltWidth_iv (points_widths hw), points_iv hw]
    rfl
  · apply commit_delivers
    have hv : [f.a, f.b].any (fun q => (c.src.shape q).isIv) = true := by simpa using hr
    rw [he, groupWord_ready h, fcmp, fltWidth_iv hw, hv]
    rfl
  · unfold Traps TrapsIn
    rw [he, groupWord_ready h, fcmp, fltWidth_none (no_width_of_ne hn)]
    rfl

/-- Settles O7: the relations of each code on points and on intervals. -/
theorem floatComparesDecide : Obligations.FloatComparesDecide := by
  intro f
  refine ⟨?lt, ?le, ?eq, ?ne, ?gt, ?ge, ?uno⟩
  case lt => exact floatCompare_law 0 (fun _ => rfl) (fun _ _ => rfl) (fun _ _ => by simp [fcmpIv])
  case le => exact floatCompare_law 1 (fun _ => rfl) (fun _ _ => rfl) (fun _ _ => by simp [fcmpIv])
  case eq => exact floatCompare_law 2 (fun _ => rfl) (fun _ _ => rfl) (fun _ _ => by simp [fcmpIv, and_assoc])
  case ne => exact floatCompare_law 3 (fun _ => rfl) (fun _ _ => rfl) (fun _ _ => by simp [fcmpIv, and_assoc])
  case gt => exact floatCompare_law 4 (fun _ => rfl) (fun _ _ => rfl) (fun _ _ => by simp [fcmpIv])
  case ge => exact floatCompare_law 5 (fun _ => rfl) (fun _ _ => rfl) (fun _ _ => by simp [fcmpIv])
  case uno => exact floatCompare_law 6 (fun _ => rfl) (fun _ _ => rfl) (fun _ _ => rfl)

/-! ## FUNARY -/

/-- One source has a width. -/
theorem fltWidth_one (c : Ctx) (a : Nat) : c.fltWidth [a] = some ((c.src.shape a).width, (c.src.shape a).isIv) := by
  simp [Ctx.fltWidth]

theorem shape_of_interval {k : Shape} (h : k.isIv = true) : k = ivShape k.width := by
  cases k
  case p32 | p64 => cases h
  case i32 | i64 => rfl

/-- A FUNARY lane's result on an interval (R145). -/
def funaryOnIv (code : Nat) (f : RRnd) (w : Nat) (c : Ctx) (l : Nat) : Except Cause Elem :=
  c.onIv w [f.a] l (fun xs => match xs with
    | x :: _ => funaryIv (fmtOf w) code (c.mode f.r) x
    | _ => .ok 0)

/-- FUNARY as a word that takes points or intervals by its source. -/
theorem funary_eq (code : Nat) (f : RRnd) : funary code f = fun c u s => match c.fltWidth [f.a] with
    | none => .trap c.shapeTrap false s
    | some (w, false) => c.commit u (laneOut f.d (pointShape w) (c.act.map (fun l => ⟨l, c.funaryPt w code (c.mode f.r) f.a l⟩))) s .done
    | some (w, true) => c.commit u (laneOut f.d (ivShape w) (c.act.map (fun l => ⟨l, c.keepGen l (funaryOnIv code f w c l)⟩))) s .done := by
  funext c u s
  rw [funary, fltWidth_one]
  cases h : (c.src.shape f.a).isIv
  · simp only [← shape_of_point h]
    rfl
  · simp only [← shape_of_interval h]
    rfl

/-- A FUNARY word (R117, R118, R145). -/
theorem funary_law {i : Instr} {f : RRnd} (code : Nat) {pt : Nat → Ctx → Nat → Elem × W64}
    (he : ∀ s, exec i s = groupWord (s.uses i) s (funary code f))
    (hp : ∀ (w : Nat) (c : Ctx) (l : Nat), c.funaryPt w code (c.mode f.r) f.a l = .ok (pt w c l)) :
    FloatWord i [f.a] f.d pt (funaryOnIv code f) :=
  floatWord_law (P := fun w c l => c.funaryPt w code (c.mode f.r) f.a l) (fun s => by rw [he, funary_eq] <;> rfl) hp (fun _ _ _ => rfl)

/-- A value is NaN or is none. -/
theorem eq_nan_or (x : FV) : x = .nan ∨ x.isNan = false := by
  cases x <;> simp [FV.isNan]

/-- The codes that take an exact value and round it (R118). -/
abbrev Rounds (code : Nat) : Prop := 2 ≤ code ∧ code ≤ 8

/-- What the codes of the rounded functions give on a point: of a NaN, the canonical NaN (R118, R119). -/
theorem funaryPt_rounds {code : Nat} (h : Rounds code) (c : Ctx) (w mode a l : Nat) :
    c.funaryPt w code mode a l = .ok (rounded w mode c l (funaryX code (value c w a l))) := by
  have hx : c.pt w a l = value c w a l := rfl
  rw [Ctx.funaryPt, hx]
  rcases eq_nan_or (value c w a l) with e | e
  · rw [e]; rfl
  · simp [e, show code ≠ 0 by omega, show code ≠ 1 by omega, show code ≠ 9 by omega, show code ≠ 10 by omega, show code ≠ 11 by omega,
      show code ≠ 13 by omega, show code ≠ 14 by omega, rounded]

/-- FABS and FNEG set the sign bit, but of a NaN (R118, R119). -/
theorem funaryPt_bits {code : Nat} {g : Nat → Nat → Nat} (c : Ctx) (w mode a l : Nat)
    (h : code = 0 ∧ g = (fun w x => x % 2 ^ (w - 1)) ∨ code = 1 ∧ g = (fun w x => x ^^^ 2 ^ (w - 1))) :
    c.funaryPt w code mode a l =
      .ok (if (value c w a l).isNan then elemN (qnan (fmtOf w)) else elemN (g w (c.src.readN a l)), c.gen l) := by
  have hx : c.pt w a l = value c w a l := rfl
  rw [Ctx.funaryPt, hx]
  rcases h with ⟨rfl, rfl⟩ | ⟨rfl, rfl⟩ <;> cases (value c w a l).isNan <;> rfl

/-- FFLOOR and FCEIL round to an integer (R118, R119). -/
theorem funaryPt_toInt {code mode' : Nat} (c : Ctx) (w mode a l : Nat) (h : code = 9 ∧ mode' = 3 ∨ code = 10 ∧ mode' = 4) :
    c.funaryPt w code mode a l = .ok (elemN (roundN (fmtOf w) 1 (rintFV mode' 0 (value c w a l)).1), c.gen l) := by
  have hx : c.pt w a l = value c w a l := rfl
  rw [Ctx.funaryPt, hx]
  rcases eq_nan_or (value c w a l) with e | e <;> rcases h with ⟨rfl, rfl⟩ | ⟨rfl, rfl⟩ <;> rw [e] <;> rfl

/-- FRINT rounds to an integer under its mode (R118, R119). -/
theorem funaryPt_rint (c : Ctx) (w mode a l : Nat) :
    c.funaryPt w 11 mode a l = .ok (
      let r := rintFV mode (genBits (c.gen l)) (value c w a l)
      (elemN (roundN (fmtOf w) 1 r.1), if r.2 then genStep (c.gen l) else c.gen l)) := by
  have hx : c.pt w a l = value c w a l := rfl
  rw [Ctx.funaryPt, hx]
  rcases eq_nan_or (value c w a l) with e | e <;> rw [e] <;> rfl

/-- FCLASS (R120, R148). -/
theorem fclass_delivers (f : RRnd) (s : State) (c : Ctx) (h : Ready (.fclass f) c s) :
    ((c.src.shape f.a).isIv = true → Traps (.fclass f) c (faultOf c .shape) s) ∧
    ∀ w, Points c [f.a] w →
      Delivers (.fclass f) c (Out.v f.d .p32 (lanes c (fun l => elemN (2 ^ fclassBit (fmtOf w) (c.src.readN f.a l))))) id s := by
  refine ⟨fun hi => ?_, fun w hp => ?_⟩
  · unfold Traps TrapsIn
    rw [exec_ready h _ (by unfold exec execFclass; exact rfl), if_pos hi]
    rfl
  · have hw := points_widths hp f.a (by simp)
    have hi : (c.src.shape f.a).isIv = false := by simpa using points_iv hp
    apply commit_delivers
    rw [exec_ready h _ (by unfold exec execFclass; exact rfl)]
    simp only [hi, hw]
    rfl

/-- The word that gives a bound. -/
abbrev boundWord (hi : Bool) (f : RRnd) : Instr := if hi then .ivhi f else .ivlo f

/-- IVLO and IVHI run one body. -/
theorem exec_boundWord (hi : Bool) (f : RRnd) (s : State) :
    exec (boundWord hi f) s = groupWord (s.uses (boundWord hi f)) s (ivBound hi f) := by
  cases hi <;> rfl

/-- What IVLO and IVHI give of a point (R122). -/
theorem funaryPt_point (hi : Bool) (c : Ctx) (w mode a l : Nat) :
    c.funaryPt w (if hi then 14 else 13) mode a l =
      .ok (if (value c w a l).isNan then elemN (qnan (fmtOf w)) else c.src.read a l, c.gen l) := by
  have hx : c.pt w a l = value c w a l := rfl
  have he : elemN (c.src.readN a l) = c.src.read a l := by rw [elemN, Group.readN, BitVec.ofNat_toNat, BitVec.setWidth_eq]
  rw [Ctx.funaryPt, hx, he]
  cases hi <;> cases (value c w a l).isNan <;> rfl

/-- IVLO and IVHI (R122, R148). -/
theorem ivBound_delivers (hi : Bool) (f : RRnd) (s : State) (c : Ctx) (h : Ready (boundWord hi f) c s) :
    (∀ w, Points c [f.a] w → Delivers (boundWord hi f) c (laneOut f.d (pointShape w) (c.act.map (fun l =>
        ⟨l, .ok (if (value c w f.a l).isNan then elemN (qnan (fmtOf w)) else c.src.read f.a l, c.gen l)⟩))) id s) ∧
    ((c.src.shape f.a).isIv = true →
        let w := (c.src.shape f.a).width
        Delivers (boundWord hi f) c (laneOut f.d (pointShape w) (c.act.map (fun l => ⟨l, c.keepGen l ((c.iv w f.a l).map (fun _ =>
          elemN (plusZero (fmtOf w) (if hi then ivHiBits w (c.src.read f.a l) else ivLoBits w (c.src.read f.a l)))))⟩))) id s) := by
  refine ⟨fun w hp => ?_, fun hi => ?_⟩
  · have hw := points_widths hp f.a (by simp)
    have hs : c.src.shape f.a = pointShape w := hp.2 f.a (by simp)
    have hi' : (pointShape w).isIv = false := by simpa [hs] using points_iv hp
    apply commit_delivers
    rw [exec_boundWord, groupWord_ready h, ivBound]
    simp only [funaryPt_point, hw]
    simp only [hs, hi']
    rfl
  · apply commit_delivers
    rw [exec_boundWord, groupWord_ready h, ivBound]
    simp only [hi]
    rfl

/-- MOV (R121). -/
theorem mov_delivers (f : R1) (s : State) (c : Ctx) (h : Ready (.mov f) c s) :
    let v := c.src.vreg f.a
    Delivers (.mov f) c
      { Out.v f.d v.shape (lanes c (fun l => c.src.read f.a l)) with
        sides := [(f.d, (c.actGranules.flatMap (fun g => (upto 0 v.shape.rows).map (fun k => k * (c.grp.width / 8) + g))).map
          (fun i => (i, v.side.getD i 0)))] } id s :=
  commit_delivers (exec_ready h _ (by unfold exec execMov; exact rfl))

/-- Settles O8: each code by what it gives on a point; FCLASS, the bounds and MOV by their bodies. -/
theorem floatUnaryComputes : Obligations.FloatUnaryComputes := by
  refine ⟨fun f => ⟨?fabs, ?fneg, ?fsqrt, ?frcp, ?frsq, ?fexp2, ?flog2, ?fsin, ?fcos, ?ffloor, ?fceil, ?frint⟩,
    fun f s c => ⟨fun h => (fclass_delivers f s c h).1, fun w h => (fclass_delivers f s c h).2 w,
      fun hi => ⟨fun w h => (ivBound_delivers hi f s c h).1 w, fun h => (ivBound_delivers hi f s c h).2⟩⟩,
    mov_delivers⟩
  case fabs => exact funary_law 0 (fun _ => rfl) (fun w c l => funaryPt_bits c w _ f.a l (.inl ⟨rfl, rfl⟩))
  case fneg => exact funary_law 1 (fun _ => rfl) (fun w c l => funaryPt_bits c w _ f.a l (.inr ⟨rfl, rfl⟩))
  case fsqrt => exact funary_law 2 (fun _ => rfl) (fun w c l => funaryPt_rounds (by decide) c w _ f.a l)
  case frcp => exact funary_law 3 (fun _ => rfl) (fun w c l => funaryPt_rounds (by decide) c w _ f.a l)
  case frsq => exact funary_law 4 (fun _ => rfl) (fun w c l => funaryPt_rounds (by decide) c w _ f.a l)
  case fexp2 => exact funary_law 5 (fun _ => rfl) (fun w c l => funaryPt_rounds (by decide) c w _ f.a l)
  case flog2 => exact funary_law 6 (fun _ => rfl) (fun w c l => funaryPt_rounds (by decide) c w _ f.a l)
  case fsin => exact funary_law 7 (fun _ => rfl) (fun w c l => funaryPt_rounds (by decide) c w _ f.a l)
  case fcos => exact funary_law 8 (fun _ => rfl) (fun w c l => funaryPt_rounds (by decide) c w _ f.a l)
  case ffloor => exact funary_law 9 (fun _ => rfl) (fun w c l => funaryPt_toInt c w _ f.a l (.inl ⟨rfl, rfl⟩))
  case fceil => exact funary_law 10 (fun _ => rfl) (fun w c l => funaryPt_toInt c w _ f.a l (.inr ⟨rfl, rfl⟩))
  case frint => exact funary_law 11 (fun _ => rfl) (fun w c l => funaryPt_rint c w _ f.a l)

end Sys2Proof.Laws
end

section
/-!
SUPPORT. IVAL and IVCMP (R138 to R141, R151 to R157): one lemma for the words that promote and check their sources, one for the certain
comparisons, and the statement about these words.
-/
namespace Sys2Proof.Laws
open Sys2Proof.Machine Sys2Proof.Safety

/-- An IVAL word whose function agrees, on lists of as many intervals as it has sources, with the stated one (R140, R151). -/
theorem intervalWord_law {i : Instr} {r : Nat} {t : List Nat} {d : Nat} {k : Nat → Shape} {op op' : Fmt → List Iv → Except Cause Elem}
    (he : ∀ s, exec i s = groupWord (s.uses i) s (ivWord (r :: t) d k op)) (ho : ∀ F xs, op F xs = op' F xs) :
    IntervalWord i (r :: t) d k op' := by
  obtain rfl : op = op' := funext fun F => funext fun xs => ho F xs
  intro s c h
  refine ⟨fun w hw => ?_, fun hn => ?_⟩
  · apply commit_delivers
    rw [he, groupWord_ready h, ivWord, fltWidth_iv hw]
    rfl
  · unfold Traps TrapsIn
    rw [he, groupWord_ready h, ivWord, fltWidth_none hn]
    rfl

/-- An IVCMP word (R156, R157). -/
theorem certainCompare_law {i : Instr} {f : RCmp} {rel rel' : Iv → Iv → Bool}
    (he : ∀ s, exec i s = groupWord (s.uses i) s (ivcmp rel f)) (hr : ∀ a b, rel a b = rel' a b) :
    CertainCompare i f.q f.a f.b rel' := by
  obtain rfl : rel = rel' := funext fun a => funext fun b => hr a b
  intro s c h
  refine ⟨fun w hw => ?_, fun hn => ?_⟩
  · apply commit_delivers
    rw [he, groupWord_ready h, ivcmp, fltWidth_iv hw]
    rfl
  · unfold Traps TrapsIn
    rw [he, groupWord_ready h, ivcmp, fltWidth_none (no_width_of_ne hn)]
    rfl

/-- Sources of one width of which none is an interval are points of it. -/
theorem points_of_fltWidth {c : Ctx} {regs : List Nat} {w : Nat} (h : c.fltWidth regs = some (w, false)) : Points c regs w := by
  cases regs with
  | nil => cases h
  | cons r t =>
    simp only [Ctx.fltWidth, Option.ite_none_right_eq_some, Option.some.injEq, Prod.mk.injEq] at h
    obtain ⟨hall, hw, hiv⟩ := h
    refine ⟨hw ▸ width_cases _, fun q hq => ?_⟩
    have hqw : (c.src.shape q).width = (c.src.shape r).width := by simpa using List.all_eq_true.mp hall q hq
    have hqi : (c.src.shape q).isIv = false := by simpa using List.any_eq_false.mp hiv q hq
    rw [shape_of_point hqi, hqw, hw]

/-- IVMK (R152): a pair of points, checked; SHAPE on other sources. -/
theorem ivmk_delivers (f : R3) (s : State) (c : Ctx) (h : Ready (.ivmk f) c s) :
    (∀ w, Points c [f.a, f.b] w → Delivers (.ivmk f) c (laneOut f.d (ivShape w) (c.act.map (fun l =>
      let x : Iv := ⟨value c w f.a l, value c w f.b l⟩
      ⟨l, c.keepGen l (x.check.map (fun _ => outwardX (fmtOf w) x.lo.toX x.hi.toX))⟩))) id s) ∧
    ((¬ ∃ w, Points c [f.a, f.b] w) → Traps (.ivmk f) c (faultOf c .shape) s) := by
  have he := exec_ready h _ (by unfold exec execIvmk; exact rfl)
  refine ⟨fun w hp => ?_, fun hn => ?_⟩
  · have hc : ∀ x : Iv, x.check.map (fun y => exactIv (fmtOf w) y.lo y.hi) = x.check.map (fun _ => outwardX (fmtOf w) x.lo.toX x.hi.toX) := by
      intro x
      unfold Iv.check
      split
      · rfl
      · split <;> rfl
    apply commit_delivers
    rw [he, fltWidth_iv (points_widths hp), points_iv hp]
    simp only [hc]
    rfl
  · unfold Traps TrapsIn
    rw [he]
    split
    · rename_i w hw
      exact absurd ⟨w, points_of_fltWidth hw⟩ hn
    · rfl

/-- IVPOWN (R154): the exponent is the signed value of the point in b. -/
theorem ivpown_delivers (f : R3) (s : State) (c : Ctx) (h : Ready (.ivpown f) c s) :
    let w := (c.src.shape f.a).width
    (c.src.shape f.b = pointShape w → Delivers (.ivpown f) c (laneOut f.d (ivShape w) (c.act.map (fun l =>
      ⟨l, c.keepGen l ((c.iv w f.a l).bind (powIv (fmtOf w) (point c.src w f.b l).toInt))⟩))) id s) ∧
    (c.src.shape f.b ≠ pointShape w → Traps (.ivpown f) c (faultOf c .shape) s) := by
  have he := exec_ready h _ (by unfold exec execIvpown; exact rfl)
  have hw := width_cases (c.src.shape f.a)
  dsimp only at he ⊢
  refine ⟨fun hb => ?_, fun hb => ?_⟩
  · have hn : ∀ l, sextN (c.src.readN f.b l) (c.src.shape f.a).width = (point c.src (c.src.shape f.a).width f.b l).toInt := by
      intro l
      rw [← point_toNat hw hb, sextN_toInt _ (by omega)]
    apply commit_delivers
    rw [he, if_neg (not_not_intro hb)]
    simp only [hn]
    rfl
  · unfold Traps TrapsIn
    rw [he, if_pos hb]
    rfl

/-- ZIN's truth value (R156). -/
theorem ofBool_and_decide (p q : Prop) [Decidable p] [Decidable q] :
    Tri.ofBool (decide p && decide q) = if p ∧ q then .t else .f := by
  rw [← Bool.decide_and]
  by_cases h : p ∧ q <;> simp [h, Tri.ofBool]

/-- Settles O9: each word by its function of promoted sources; IVMK, IVPOWN and IVSPLIT by their bodies. -/
theorem intervalWordsCompute : Obligations.IntervalWordsCompute := by
  refine ⟨⟨fun f => ⟨?hull, ?meet, ivmk_delivers f, ivpown_delivers f⟩, fun f => ⟨?sqr, ?mid, ?rad, ?split⟩⟩,
    fun f => ⟨?clt, ?cle, ?ceq, ?subset, ?contains, ?disjoint⟩, ?zin⟩
  case hull => exact intervalWord_law (fun _ => rfl) (fun _ _ => rfl)
  case meet => exact intervalWord_law (fun _ => rfl) (fun _ _ => rfl)
  case sqr => exact intervalWord_law (fun _ => rfl) (fun _ xs => by cases xs <;> rfl)
  case mid => exact intervalWord_law (fun _ => rfl) (fun _ xs => by cases xs <;> rfl)
  case rad => exact intervalWord_law (fun _ => rfl) (fun _ xs => by cases xs <;> rfl)
  case split =>
    intro s c h
    exact commit_delivers (exec_ready h _ (by unfold exec execIvsplit; exact rfl))
  case clt => exact certainCompare_law (fun _ => rfl) (fun _ _ => rfl)
  case cle => exact certainCompare_law (fun _ => rfl) (fun _ _ => rfl)
  case ceq => exact certainCompare_law (fun _ => rfl) (fun _ _ => by simp [leFV, Bool.and_assoc])
  case subset => exact certainCompare_law (fun _ => rfl) (fun _ _ => by simp [leFV])
  case contains => exact certainCompare_law (fun _ => rfl) (fun _ _ => by simp [ltFV])
  case disjoint => exact certainCompare_law (fun _ => rfl) (fun _ _ => rfl)
  case zin =>
    intro f s c h
    apply commit_delivers
    rw [exec_ready h _ (by unfold exec execZin; exact rfl)]
    simp only [leFV, ofBool_and_decide]
    rfl

end Sys2Proof.Laws
end

section
/-!
SUPPORT. CVT (R123 to R135): one lemma for each form of conversion, and the statements about the conversions and the side bytes.
-/
namespace Sys2Proof.Laws
open Sys2Proof.Machine Sys2Proof.Safety

/-! ## Single registers -/

/-- A single-register conversion whose function agrees with the stated one (R123, R124). -/
theorem converts_law {i : Instr} {f : RRnd} {src dst : Shape} {op op' : Nat → W64 → Nat → Nat × W64}
    (he : ∀ s, exec i s = groupWord (s.uses i) s (cvt1 src dst f op)) (ho : ∀ m g b, op m g b = op' m g b) : Converts i f src dst op' := by
  obtain rfl : op = op' := funext fun m => funext fun g => funext fun b => ho m g b
  intro s c h
  refine ⟨fun hs => ?_, fun hs => ?_⟩
  · apply commit_delivers
    rw [he, groupWord_ready h, cvt1, if_neg (not_not_intro hs)]
    simp only [List.map_map]
    rfl
  · unfold Traps TrapsIn
    rw [he, groupWord_ready h, cvt1, if_pos hs]
    rfl

/-- A sign-extended number as the signed value of its pattern, wrapped to n bits. -/
theorem wrapInt_sextN (b n : Nat) {m : Nat} (hm : 0 < m) : wrapInt (sextN b m) n = ((BitVec.ofNat m b).signExtend n).toNat := by
  rw [wrapInt_eq, sextN_eq_toInt b hm]
  rfl

/-- Saturation (R125, R132). -/
theorem satInt_eq (lo hi x : Int) (h : lo ≤ hi) : satInt lo hi x = max lo (min hi x) := by
  unfold satInt
  split
  · omega
  · split <;> omega

/-- Settles O11: each conversion has the form of a single-register conversion with its rounding or saturation. -/
theorem conversionsConvert : Obligations.ConversionsConvert := by
  intro f
  refine ⟨?f64f32, ?f32f64, ?f32i32, ?f32n32, ?i32f32, ?n32f32, ?f64i64, ?i64f64, ?f16l, ?f16h, ?bf16l, ?bf16h, ?i64i32, ?n64n32, ?i32i64⟩
  case f64f32 => exact converts_law (fun _ => rfl) (fun _ _ _ => rfl)
  case f32f64 => exact converts_law (fun _ => rfl) (fun _ _ _ => rfl)
  case f32i32 => exact converts_law (fun _ => rfl) (fun _ _ b => by rw [cvtRound, sextN_eq_toInt b (by decide)])
  case f32n32 => exact converts_law (fun _ => rfl) (fun _ _ _ => rfl)
  case i32f32 => exact converts_law (fun _ => rfl) (fun _ _ _ => by rw [cvtInt, wrapInt_eq]; rfl)
  case n32f32 => exact converts_law (fun _ => rfl) (fun _ _ _ => by rw [cvtInt, wrapInt_eq]; rfl)
  case f64i64 => exact converts_law (fun _ => rfl) (fun _ _ b => by rw [cvtRound, sextN_eq_toInt b (by decide)])
  case i64f64 => exact converts_law (fun _ => rfl) (fun _ _ _ => by rw [cvtInt, wrapInt_eq]; rfl)
  case f16l => exact converts_law (fun _ => rfl) (fun _ _ _ => rfl)
  case f16h => exact converts_law (fun _ => rfl) (fun _ _ _ => rfl)
  case bf16l => exact converts_law (fun _ => rfl) (fun _ _ _ => rfl)
  case bf16h => exact converts_law (fun _ => rfl) (fun _ _ _ => rfl)
  case i64i32 => exact converts_law (fun _ => rfl) (fun _ _ b => by rw [cvtExact, wrapInt_sextN b 64 (by decide)])
  case n64n32 => exact converts_law (fun _ => rfl) (fun _ _ _ => rfl)
  case i32i64 =>
    exact converts_law (fun _ => rfl) (fun _ _ b => by rw [cvtExact, wrapInt_eq, satInt_eq _ _ _ (by decide), sextN_eq_toInt b (by decide)]; rfl)

/-! ## Packing and unpacking -/

/-- The check of a packing word's sources (R123). -/
theorem allP32_iff {c : Ctx} {regs : List Nat} : c.allP32 regs = true ↔ ∀ q ∈ regs, c.src.shape q = .p32 := by
  simp [Ctx.allP32]

/-- A packing word whose functions agree with the stated ones, in the issuing context (R126, R127). -/
theorem packs_law {i : Instr} {f : RRnd} {n bits : Nat} {side : Option (Ctx → List Nat → Nat)} {op : Ctx → Nat → Nat → W64 → Nat → Nat × W64}
    {side' : Ctx → Option (List Nat → Nat)} {op' : Ctx → Nat → Nat → W64 → Nat → Nat × W64}
    (he : ∀ s, exec i s = groupWord (s.uses i) s (fun c u s => cvtPack n bits (side' c) (op' c) f c u s))
    (hs : ∀ c, side' c = side.map (fun h => h c)) (ho : ∀ c m k g b, op' c m k g b = op c m k g b) : Packs i f n bits side op := by
  obtain rfl : op' = op := funext fun c => funext fun m => funext fun k => funext fun g => funext fun b => ho c m k g b
  intro s c h
  refine ⟨fun hp => ?_, fun hp => ?_⟩
  · apply commit_delivers
    rw [he, groupWord_ready h]
    unfold cvtPack
    rw [allP32_iff.mpr hp, hs]
    simp only [List.map_map]
    cases side <;> rfl
  · unfold Traps TrapsIn
    rw [he, groupWord_ready h]
    unfold cvtPack
    rw [if_pos (by rw [← Bool.not_eq_true, allP32_iff]; exact hp)]
    rfl

/-- An unpacking word whose function agrees with the stated one, in the issuing context (R126, R127). -/
theorem unpacks_law {i : Instr} {f : RRnd} {n bits : Nat} {op op' : Ctx → Nat → Nat → W64 → Nat → Nat × W64}
    (he : ∀ s, exec i s = groupWord (s.uses i) s (fun c u s => cvtUnpack n bits (op' c) f c u s))
    (ho : ∀ c m k g b, op' c m k g b = op c m k g b) : Unpacks i f n bits op := by
  obtain rfl : op' = op := funext fun c => funext fun m => funext fun k => funext fun g => funext fun b => ho c m k g b
  intro s c h
  refine ⟨fun hs => ?_, fun hs => ?_⟩
  · apply commit_delivers
    rw [he, groupWord_ready h, cvtUnpack, if_neg (not_not_intro hs)]
    simp only [List.map_map]
    rfl
  · unfold Traps TrapsIn
    rw [he, groupWord_ready h, cvtUnpack, if_pos hs]
    rfl

/-- The low byte of an element. -/
theorem byte_of_elem (e : Elem) : BitVec.ofNat 8 e.toNat = e.setWidth 8 := by
  rw [BitVec.ofNat_toNat]

/-- SIDE.GET (R135). -/
theorem sideGet_delivers (f : RRnd) (s : State) (c : Ctx) (h : Ready (.sideGet f) c s) :
    Delivers (.sideGet f) c (Out.v f.d .p32 (lanes c (fun l => ((c.src.vreg f.a).side.getD (l / 8) 0).setWidth 128))) id s := by
  apply commit_delivers
  rw [exec_ready h _ (by unfold exec execSideGet; exact rfl)]
  simp only [elemN_toNat]
  rfl

/-- SIDE.SET (R135). -/
theorem sideSet_delivers (f : RRnd) (s : State) (c : Ctx) (h : Ready (.sideSet f) c s) :
    (c.src.shape f.a = .p32 → Delivers (.sideSet f) c
      { Out.v f.d (c.grp.shape f.d) [] with sides := [(f.d, c.actGranules.map (fun g =>
          (g, (c.src.read f.a ((c.act.find? (fun l => decide (l / 8 = g))).getD 0)).setWidth 8)))] } id s) ∧
    (c.src.shape f.a ≠ .p32 → Traps (.sideSet f) c (faultOf c .shape) s) := by
  have he := exec_ready h _ (by unfold exec execSideSet; exact rfl)
  refine ⟨fun hs => ?_, fun hs => ?_⟩
  · apply commit_delivers
    rw [he, if_neg (not_not_intro hs)]
    simp only [Group.readN, byte_of_elem]
    rfl
  · unfold Traps TrapsIn
    rw [he, if_pos hs]
    rfl

/-- Settles O12: each conversion has the form of a packing or an unpacking word with its scale, code or saturation. -/
theorem packedConversionsConvert : Obligations.PackedConversionsConvert := by
  refine ⟨fun f => ⟨?pkF16, ?pkBf16, ?pkE4m3, ?pkE5m2, ?pkQ4n, ?pkI8, ?upE4m3, ?upE5m2, ?upQ4n, ?upI8⟩,
    fun f s c => ⟨sideGet_delivers f s c, fun h => (sideSet_delivers f s c h).1, fun h => (sideSet_delivers f s c h).2⟩⟩
  case pkF16 => exact packs_law (fun _ => rfl) (fun _ => rfl) (fun _ _ _ _ _ => rfl)
  case pkBf16 => exact packs_law (fun _ => rfl) (fun _ => rfl) (fun _ _ _ _ _ => rfl)
  case pkE4m3 => exact packs_law (fun _ => rfl) (fun _ => rfl) (fun _ _ _ _ _ => rfl)
  case pkE5m2 => exact packs_law (fun _ => rfl) (fun _ => rfl) (fun _ _ _ _ _ => rfl)
  case pkQ4n => exact packs_law (fun _ => rfl) (fun _ => rfl) (fun _ _ _ _ _ => rfl)
  case pkI8 =>
    refine packs_law (fun _ => rfl) (fun _ => rfl) (fun _ _ _ _ b => ?_)
    rw [wrapInt_eq, satInt_eq _ _ _ (by decide), sextN_eq_toInt b (by decide)]
  case upE4m3 => exact unpacks_law (fun _ => rfl) (fun _ _ _ _ _ => rfl)
  case upE5m2 => exact unpacks_law (fun _ => rfl) (fun _ _ _ _ _ => rfl)
  case upQ4n => exact unpacks_law (fun _ => rfl) (fun _ _ _ _ _ => rfl)
  case upI8 => exact unpacks_law (fun _ => rfl) (fun _ _ _ _ b => by rw [wrapInt_sextN b 32 (by decide)])

end Sys2Proof.Laws
end

section
/-!
SUPPORT. GROUP and QUAD (R185 to R193): shuffles, votes, reductions, quad exchange and derivatives, and the statements about these words.
-/
namespace Sys2Proof.Laws
open Sys2Proof.Machine Sys2Proof.Safety

/-! ## Shuffles and votes -/

/-- The lane that a shuffle takes from (R185). -/
theorem shuffle_source (c : Ctx) (l : Nat) (o : Option Nat) :
    (match o with
      | none => l
      | some k => if c.act.contains k then k else l) = (o.filter (fun k => c.act.contains k)).getD l := by
  cases o with
  | none => rfl
  | some k => by_cases h : k ∈ c.act <;> simp [Option.filter, h]

/-- A shuffle (R185, R186). -/
theorem shuffles_law {i : Instr} {f : R3} {from_ : Nat → Nat → Option Nat} (he : ∀ s, exec i s = groupWord (s.uses i) s (shuffle from_ f)) :
    Shuffles i f from_ := by
  intro s c h
  refine ⟨fun hs => ?_, fun hs => ?_⟩
  · apply commit_delivers
    rw [he, groupWord_ready h, shuffle, if_neg (not_not_intro hs)]
    simp only [← shuffle_source]
    rfl
  · unfold Traps TrapsIn
    rw [he, groupWord_ready h, shuffle, if_pos hs]
    rfl

/-- A word that writes one register with a value for each active lane, with no check of its own. -/
theorem laneWord_law {i : Instr} {d : Nat} {k : Ctx → Shape} {v : Ctx → Nat → Elem}
    (he : ∀ s, exec i s = groupWord (s.uses i) s (fun c u s => c.commit u (Out.v d (k c) (lanes c (v c))) s .done)) : LaneWord i d k v :=
  fun s _ h => commit_delivers (exec_ready h _ (he s))

/-- Settles O13: the shuffles by the lane that each names, VOTE and MATCH by their masks. -/
theorem shufflesAndVotesDeliver : Obligations.ShufflesAndVotesDeliver :=
  ⟨fun _ => ⟨shuffles_law (fun _ => rfl), shuffles_law (fun _ => rfl), shuffles_law (fun _ => rfl), shuffles_law (fun _ => rfl)⟩,
    fun _ _ _ _ _ _ => laneWord_law (fun _ => rfl), fun _ => laneWord_law (fun _ => rfl)⟩

/-! ## Reductions -/

/-- A reduction whose operation and faults agree with the stated ones where it takes its source, and which is SHAPE elsewhere (R188, R189). -/
theorem reduces_law {i : Instr} {f : R1} {takes : Shape → Bool} {op : Ctx → Elem → Elem → W64 → Elem × W64} {bad : Ctx → Option Trap}
    {body : Ctx → Uses → State → Did} (he : ∀ s, exec i s = groupWord (s.uses i) s body)
    (hg : ∀ c u s, takes (c.src.shape f.a) = true → body c u s = gredWith (op c) (bad c) f c u s)
    (hn : ∀ c u s, takes (c.src.shape f.a) = false → body c u s = .trap c.shapeTrap false s) : Reduces i f takes op bad := by
  intro s c h
  refine ⟨fun ht => ?_, fun ht => ?_⟩
  · apply commit_delivers
    rw [he, groupWord_ready h, hg _ _ _ ht]
    rfl
  · unfold Traps TrapsIn
    rw [he, groupWord_ready h, hn _ _ _ ht]
    rfl

/-- An integer or bitwise reduction (R188): its function on numbers is that on bit vectors. -/
theorem gredInt_law {i : Instr} {f : R1} {g : Nat → Nat → Nat → Nat} {op : (w : Nat) → BitVec w → BitVec w → BitVec w}
    (he : ∀ s, exec i s = groupWord (s.uses i) s (gredInt g f))
    (hg : ∀ w (x y : BitVec w), 0 < w → g w x.toNat y.toNat % 2 ^ w = (op w x y).toNat) :
    Reduces i f (fun k => !k.isIv) (fun c x y gen =>
      ((op (c.src.shape f.a).width (x.setWidth _) (y.setWidth _)).setWidth 128, gen)) (fun _ => none) := by
  refine reduces_law he (fun c u s ht => ?_) (fun c u s ht => ?_)
  · have hw : 0 < (c.src.shape f.a).width := by have := width_cases (c.src.shape f.a); omega
    rw [gredInt, if_neg (by simpa using ht)]
    simp only [← BitVec.toNat_setWidth, hg _ _ _ hw, elemN_toNat]
  · rw [gredInt, if_pos (by simpa using ht)]

/-- A floating-point reduction's operation on two elements (R188). -/
def fltOp (f : R1) (pt : Ctx → Nat → Elem → Elem → W64 → Elem × W64) (iv : Iv → Iv → XV × XV) (c : Ctx) (x y : Elem) (gen : W64) : Elem × W64 :=
  if (c.src.shape f.a).isIv then
    (outwardX (fmtOf (c.src.shape f.a).width) (iv (ivOf (fmtOf (c.src.shape f.a).width) x) (ivOf (fmtOf (c.src.shape f.a).width) y)).1
      (iv (ivOf (fmtOf (c.src.shape f.a).width) x) (ivOf (fmtOf (c.src.shape f.a).width) y)).2, gen)
  else pt c (c.src.shape f.a).width x y gen

/-- The fault of a floating-point reduction: lanes whose intervals are not valid (R141). -/
def fltBad (f : R1) (c : Ctx) : Option Trap :=
  if (c.src.shape f.a).isIv then laneTrap (c.act.map (fun l => ⟨l, (c.iv (c.src.shape f.a).width f.a l).map (fun _ => (0, 0))⟩)) else none

/-- A floating-point reduction (R188). -/
theorem gredFlt_law {i : Instr} {f : R1} (fn : Nat) {pt : Ctx → Nat → Elem → Elem → W64 → Elem × W64} {iv : Iv → Iv → XV × XV}
    (he : ∀ s, exec i s = groupWord (s.uses i) s (gredFlt fn f))
    (hp : ∀ (c : Ctx) w x y gen, pt c w x y gen = if fn = 6 ∨ fn = 7 then (elemN (fminBits (fmtOf w) (fn = 7) x.toNat y.toNat), gen)
      else (elemN (rndGen (fmtOf w) (c.mode 0) gen (farithX fn (c.mode 0) (decodeF (fmtOf w) x.toNat) (decodeF (fmtOf w) y.toNat) (decodeF (fmtOf w) 0))).1,
        (rndGen (fmtOf w) (c.mode 0) gen (farithX fn (c.mode 0) (decodeF (fmtOf w) x.toNat) (decodeF (fmtOf w) y.toNat) (decodeF (fmtOf w) 0))).2))
    (hi : ∀ a b, farithIv fn a b a = iv a b) : Reduces i f (fun _ => true) (fltOp f pt iv) (fltBad f) := by
  refine reduces_law he (fun c u s _ => ?_) (fun _ _ _ ht => nomatch ht)
  unfold gredFlt fltBad
  have ho : fltOp f pt iv c = fun x y gen => fltOp f pt iv c x y gen := rfl
  rw [ho]
  cases hk : (c.src.shape f.a).isIv <;> simp only [fltOp, hk, hi, hp, Bool.false_eq_true, if_true, if_false]

/-- Settles O14: each operation by its function on bit vectors, or by the FARITH function of its code. -/
theorem reductionsCombine : Obligations.ReductionsCombine := by
  intro f
  refine ⟨?iadd, ?imin, ?imax, ?nmin, ?nmax, ?and, ?or, ?xor, ?fadd, ?fmin, ?fmax⟩
  case iadd => exact gredInt_law (op := fun _ x y => x + y) (fun _ => rfl) (fun _ x y _ => (BitVec.toNat_add x y).symm)
  case imin =>
    refine gredInt_law (op := fun _ x y => if x.toInt ≤ y.toInt then x else y) (fun _ => rfl) (fun w x y hw => ?_)
    rw [sextN_toInt x hw, sextN_toInt y hw, ite_toNat_mod]
  case imax =>
    refine gredInt_law (op := fun _ x y => if x.toInt ≤ y.toInt then y else x) (fun _ => rfl) (fun w x y hw => ?_)
    rw [sextN_toInt x hw, sextN_toInt y hw, ite_toNat_mod]
  case nmin =>
    refine gredInt_law (op := fun _ x y => if x.toNat ≤ y.toNat then x else y) (fun _ => rfl) (fun w x y _ => ?_)
    rw [Nat.min_def, ite_toNat_mod]
  case nmax =>
    refine gredInt_law (op := fun _ x y => if x.toNat ≤ y.toNat then y else x) (fun _ => rfl) (fun w x y _ => ?_)
    rw [Nat.max_def, ite_toNat_mod]
  case and => exact gredInt_law (op := fun _ x y => x &&& y) (fun _ => rfl) (fun _ x y _ => by rw [← BitVec.toNat_and, BitVec.toNat_mod_cancel])
  case or => exact gredInt_law (op := fun _ x y => x ||| y) (fun _ => rfl) (fun _ x y _ => by rw [← BitVec.toNat_or, BitVec.toNat_mod_cancel])
  case xor => exact gredInt_law (op := fun _ x y => x ^^^ y) (fun _ => rfl) (fun _ x y _ => by rw [← BitVec.toNat_xor, BitVec.toNat_mod_cancel])
  case fadd =>
    exact gredFlt_law 0 (iv := fun a b => (addFV 1 a.lo b.lo, addFV 1 a.hi b.hi))
      (pt := fun c w x y gen =>
        let m := c.src.ctrl.round.toNat
        let r := rndGen (fmtOf w) m gen (addFV m (decodeF (fmtOf w) x.toNat) (decodeF (fmtOf w) y.toNat))
        (elemN r.1, r.2))
      (fun _ => rfl) (fun _ _ _ _ _ => rfl) (fun _ _ => rfl)
  case fmin =>
    exact gredFlt_law 6 (iv := fun a b => ((minFV a.lo b.lo).toX, (minFV a.hi b.hi).toX))
      (pt := fun _ w x y gen => (elemN (fminBits (fmtOf w) false x.toNat y.toNat), gen)) (fun _ => rfl) (fun _ _ _ _ _ => rfl) (fun _ _ => rfl)
  case fmax =>
    exact gredFlt_law 7 (iv := fun a b => ((maxFV a.lo b.lo).toX, (maxFV a.hi b.hi).toX))
      (pt := fun _ w x y gen => (elemN (fminBits (fmtOf w) true x.toNat y.toNat), gen)) (fun _ => rfl) (fun _ _ _ _ _ => rfl) (fun _ _ => rfl)

/-! ## Quads -/

/-- A quad exchange (R191, R192). -/
theorem quadSwap_law {i : Instr} {f : R1} {k : Nat} (he : ∀ s, exec i s = groupWord (s.uses i) s (quadSwap k f)) :
    LaneWord i f.d (fun c => c.src.shape f.a) (fun c l => c.src.read f.a (if l / 4 * 4 + (l % 4 ^^^ k) ∈ c.act then l / 4 * 4 + (l % 4 ^^^ k) else l)) := by
  intro s c h
  apply commit_delivers
  rw [he, groupWord_ready h, quadSwap]
  simp only [List.contains_iff_mem]
  rfl

/-- A derivative of points (R193). -/
theorem deriv_points {c : Ctx} {w a : Nat} (l hi lo : Nat) (h : (c.src.shape a).isIv = false) :
    c.deriv w a l hi lo = .ok (if l / 4 * 4 + hi ∈ c.act ∧ l / 4 * 4 + lo ∈ c.act then
      rounded w c.src.ctrl.round.toNat c l
        (addFV c.src.ctrl.round.toNat (value c w a (l / 4 * 4 + hi)) (negFV (value c w a (l / 4 * 4 + lo))))
      else (elemN (qnan (fmtOf w)), c.gen l)) := by
  simp only [Ctx.deriv, h, Bool.false_eq_true, if_false, Bool.and_eq_true, List.contains_iff_mem]
  split <;> rfl

/-- A derivative of intervals (R193). -/
theorem deriv_intervals {c : Ctx} {w a : Nat} (l hi lo : Nat) (h : (c.src.shape a).isIv = true) :
    c.deriv w a l hi lo = c.keepGen l (if l / 4 * 4 + hi ∈ c.act ∧ l / 4 * 4 + lo ∈ c.act then
        match c.iv w a (l / 4 * 4 + hi), c.iv w a (l / 4 * 4 + lo) with
        | .ok x, .ok y => .ok (outwardX (fmtOf w) (addFV 1 x.lo (negFV y.hi)) (addFV 1 x.hi (negFV y.lo)))
        | x, y => .error (worseCause [x, y])
      else .ok (ivElem w (infOf (fmtOf w) true) (infOf (fmtOf w) false))) := by
  simp only [Ctx.deriv, h, if_true, Bool.and_eq_true, List.contains_iff_mem]
  by_cases hm : l / 4 * 4 + hi ∈ c.act ∧ l / 4 * 4 + lo ∈ c.act
  · simp only [if_pos hm]
    cases c.iv w a (l / 4 * 4 + hi) <;> cases c.iv w a (l / 4 * 4 + lo) <;> rfl
  · simp only [if_neg hm]
    cases c.iv w a (l / 4 * 4 + hi) <;> cases c.iv w a (l / 4 * 4 + lo) <;> rfl

/-- A derivative word (R191, R193). -/
theorem derives_law {i : Instr} {f : R1} {at_ : Nat → Nat × Nat} {hi lo : Nat → Nat}
    (he : ∀ s, exec i s = groupWord (s.uses i) s (derivWord at_ f)) (ha : ∀ p, at_ p = (hi p, lo p)) : Derives i f hi lo := by
  intro s c h
  refine ⟨fun hs => ?_, fun hs => ?_⟩
  · have hi : (c.src.shape f.a).isIv = false := by
      rw [hs]; unfold pointShape; split <;> rfl
    apply commit_delivers
    rw [he, groupWord_ready h, derivWord]
    simp only [deriv_points _ _ _ hi, ha]
    rfl
  · have hi : (c.src.shape f.a).isIv = true := by
      rw [hs]; unfold ivShape; split <;> rfl
    apply commit_delivers
    rw [he, groupWord_ready h, derivWord]
    simp only [deriv_intervals _ _ _ hi, ha]
    rfl

/-- HELPQ (R191). -/
theorem helpq_delivers (c0 d g st : Nat) : LaneWord (.helpq c0 d g st) d (fun _ => .p32) (fun c l =>
    elemN (((upto 0 4).map (fun k => if (c.grp.lane (l / 4 * 4 + k)).helper then 2 ^ k else 0)).sum +
      if (c.grp.lane l).helper then 16 else 0)) := by
  intro s c h
  apply commit_delivers
  rw [exec_ready h _ (by unfold exec execHelpq; exact rfl)]
  simp only [upto, List.map_cons, List.map_nil, List.sum_cons, List.sum_nil, Nat.add_zero, ← Nat.add_assoc, Nat.zero_add, Nat.reduceAdd]
  rfl

/-- Settles O15: exchanges by the partner that each names, derivatives by the positions that each subtracts. -/
theorem quadWordsDeliver : Obligations.QuadWordsDeliver := by
  refine ⟨fun f => ⟨?qxh, ?qxv, ?qxd, ?ddxc, ?ddyc, ?ddxf, ?ddyf⟩, helpq_delivers⟩
  case qxh => exact quadSwap_law (fun _ => rfl)
  case qxv => exact quadSwap_law (fun _ => rfl)
  case qxd => exact quadSwap_law (fun _ => rfl)
  case ddxc => exact derives_law (fun _ => rfl) (fun _ => rfl)
  case ddyc => exact derives_law (fun _ => rfl) (fun _ => rfl)
  case ddxf => exact derives_law (fun _ => rfl) (fun _ => by split <;> rfl)
  case ddyf => exact derives_law (fun _ => rfl) (fun _ => by split <;> rfl)

end Sys2Proof.Laws
end

section
/-!
SUPPORT. BR and CTL (R174 to R184): transfers, exit, yielding and join masks, and the statements about these words.
-/
namespace Sys2Proof.Laws
open Sys2Proof.Machine Sys2Proof.Safety

/-! ## What a word does, from what its body answers -/

theorem does_of {i : Instr} {c : Ctx} {s t : State} {d : Did} (he : exec i s = .next (c.finish (s.uses i) s d)) (hd : d = .done t) :
    Does i c t s := by
  rw [hd] at he; exact he

theorem traps_of {i : Instr} {c : Ctx} {s t : State} {x : Trap} {d : Did} (he : exec i s = .next (c.finish (s.uses i) s d))
    (hd : d = .trap x false t) : TrapsIn i c x t s := by
  rw [hd] at he; exact he

theorem holds_of {i : Instr} {c : Ctx} {s t : State} {d : Did} (he : exec i s = .next (c.finish (s.uses i) s d)) (hd : d = .hold t) :
    HoldsIn i c t s := by
  rw [hd] at he; exact he

theorem sleeps_of {i : Instr} {c : Ctx} {s t : State} {x : Wait} {d : Did} (he : exec i s = .next (c.finish (s.uses i) s d))
    (hd : d = .sleep t x) : Sleeps i c t x s := by
  rw [hd] at he; exact he

theorem deliversFrom_of {i : Instr} {c : Ctx} {s t : State} {o : Out} {f : State → State} {d : Did}
    (he : exec i s = .next (c.finish (s.uses i) s d)) (hd : d = c.commit (s.uses i) o t (fun x => .done (f x))) : DeliversFrom i c o t f s :=
  commit_from (hd ▸ he)

theorem sliceDone_of {i : Instr} {s t : State} {d : SliceDid} (he : exec i s = .next (s.finishSlice d)) (hd : d = .done t) : SliceDone i t s := by
  rw [hd] at he; exact he

/-! ## Operands taken once -/

theorem lowP64_of_shape {c : Ctx} {r : Nat} (h : c.src.shape r = .p64) : c.lowP64 r = some (low64 c r) := if_pos h

theorem lowP64_of_ne {c : Ctx} {r : Nat} (h : c.src.shape r ≠ .p64) : c.lowP64 r = none := if_neg h

theorem lowP32_of_shape {c : Ctx} {r : Nat} (h : c.src.shape r = .p32) : c.lowP32 r = some (low32 c r) := if_pos h

theorem lowP32_of_ne {c : Ctx} {r : Nat} (h : c.src.shape r ≠ .p32) : c.lowP32 r = none := if_neg h

/-! ## Transfers -/

/-- The target of a relative transfer (R37, R175, R177). -/
theorem targetAt_eq (pc off : Nat) {n : Nat} (hn : 0 < n) : targetAt pc off n = packetAt pc n off := by
  rw [targetAt, packetAt, sextN_eq_toInt off hn]

/-- The results of RET and JMPR: the link, and the fault of lanes with a bad address (R177). -/
def jumpOut (c : Ctx) (link : Option Nat) (err : Option Trap) : Out :=
  { (match link with
      | none => Out.none
      | some d => Out.v d .p64 (c.all ((linkAt c.pc).setWidth 128))) with err := err }

/-- The fault of the lanes of a list, at the address of its first. -/
theorem firstTrap_eq (bad : List Nat) (addr : Nat → W64) :
    (match bad with
      | [] => none
      | l :: _ => some (⟨.misaligned, listMask bad, addr l⟩ : Trap)) =
      if bad = [] then none else some ⟨.misaligned, listMask bad, addr (bad.headD 0)⟩ := by
  cases bad <;> rfl

/-- RET and JMPR (R177). -/
theorem jumps_law {i : Instr} {a : Nat} {link : Option Nat}
    (he : ∀ s, exec i s = bothWord (s.uses i) s (jumpGroup a link) (jumpSlice a link)) : Jumps i a link := by
  intro s
  refine ⟨fun c h hs => ?_, fun c h hs => ?_, fun x h ha => ?_, fun x h ha => ?_⟩
  · apply commit_delivers
    have hb := firstTrap_eq (c.act.filter (fun l => decide (c.src.readN a l % 12 ≠ 0))) (fun l => (c.src.read a l).setWidth 64)
    have hx := exec_ready2 h _ _ (he s)
    rw [jumpGroup.eq_def, if_neg (not_not_intro hs)] at hx
    replace hx := hx.trans (congrArg (fun e => Host.Outcome.next (c.finish (s.uses i) s (c.commit (s.uses i) (jumpOut c link e) s
      (fun s => .done (s.goTo (c.act.map (fun l => (l, c.src.readN a l / 4)))))))) hb)
    cases link <;> exact hx
  · unfold Traps TrapsIn
    rw [exec_ready2 h _ _ (he s), jumpGroup.eq_def, if_pos hs]
    rfl
  · unfold SliceDone
    rw [exec_slice h _ _ (he s), jumpSlice.eq_def, if_neg (not_not_intro ha)]
    cases link <;> rfl
  · unfold SliceFaults
    rw [exec_slice h _ _ (he s), jumpSlice.eq_def, if_pos ha]

/-- Settles O16: each word's body, the targets as signed packet offsets. -/
theorem transfersGoToTheirTargets : Obligations.TransfersGoToTheirTargets := by
  refine ⟨fun c0 q k o s _ => ⟨fun c h => ?br, fun x h => ?brSlice⟩, fun c0 d o s => ⟨fun c h => ?call, fun x h => ?callSlice⟩,
    fun c0 a => jumps_law (fun _ => rfl), fun c0 d a l => jumps_law (fun _ => rfl)⟩
  case br =>
    unfold Does
    rw [exec_ready2 h _ _ (by unfold exec execBr; exact rfl)]
    simp only [targetAt_eq _ _ (show 0 < 21 by decide)]
  case brSlice =>
    unfold SliceDone
    rw [exec_slice h _ _ (by unfold exec execBr; exact rfl)]
    simp only [targetAt_eq _ _ (show 0 < 21 by decide)]
    split <;> rfl
  case call =>
    apply commit_delivers
    rw [exec_ready2 h _ _ (by unfold exec execCall; exact rfl)]
    simp only [targetAt_eq _ _ (show 0 < 15 by decide)]
    rfl
  case callSlice =>
    unfold SliceDone
    rw [exec_slice h _ _ (by unfold exec execCall; exact rfl)]
    simp only [targetAt_eq _ _ (show 0 < 15 by decide)]
    rfl

/-! ## Ends of paths, and join masks -/

/-- EXIT in a group (R179, R215, R303). -/
theorem exit_ends {c0 : Nat} {s : State} {c : Ctx} (h : Ready (.exit c0) c s) :
    (∀ x, c.grp.tileFault = some x → exec (.exit c0) s = .next (c.finish (s.uses (.exit c0)) s
      (.trap ⟨x.cause, x.mask, x.addr⟩ true (s.modCur (fun g => { g with tileFault := none }))))) ∧
    (∀ x, c.grp.tileFault = none → c.grp.copyFault = some x → exec (.exit c0) s = .next (c.finish (s.uses (.exit c0)) s
      (.trap ⟨x.cause, x.mask, x.addr⟩ true (s.modCur (fun g => { g with copyFault := none }))))) ∧
    (c.grp.tileFault = none → c.grp.copyFault = none → Does (.exit c0) c (s.modCur (fun g => g.exitLanes c.act)) s) := by
  have he := exec_ready2 h _ _ (by unfold exec execExit; exact rfl)
  refine ⟨fun x ht => ?_, fun x ht hc => ?_, fun ht hc => ?_⟩
  · rw [he, ht]
  · rw [he, ht, hc]
  · unfold Does
    rw [he, ht, hc]

/-- JMASK.SET (R184). -/
theorem jmaskSet_sets {c0 j r : Nat} {s : State} {c : Ctx} (h : Ready (.jmaskSet c0 j r) c s) :
    (c.src.shape r = .p64 → Does (.jmaskSet c0 j r) c
      (s.setJoin j ((c.src.read r c.low).setWidth 64 &&& BitVec.ofNat 64 (2 ^ c.grp.width - 1))) s) ∧
    (c.src.shape r ≠ .p64 → Traps (.jmaskSet c0 j r) c (faultOf c .shape) s) := by
  have he := exec_ready h _ (by unfold exec execJmaskSet; exact rfl)
  refine ⟨fun hs => ?_, fun hs => ?_⟩
  · unfold Does
    rw [he, lowP64_of_shape hs]
    rfl
  · unfold Traps TrapsIn
    rw [he, lowP64_of_ne hs]
    rfl

/-- Settles O17: each word by its body. -/
theorem pathsEndYieldAndJoin : Obligations.PathsEndYieldAndJoin := by
  refine ⟨fun c0 s => ⟨fun c h => exit_ends h, fun x h => ?exitSlice, fun c h => ?yield⟩,
    fun c0 j r s c => ⟨fun h => ?splitj, fun h => ?join, fun h => ?get, fun h => (jmaskSet_sets h).1, fun h => (jmaskSet_sets h).2,
      fun h => ?add, fun h => ?del, fun h => ?clr⟩⟩
  case exitSlice => exact sliceDone_of (exec_slice h _ _ (by unfold exec execExit; exact rfl)) (by exact rfl)
  case yield => exact does_of (exec_ready h _ (by unfold exec execYield; exact rfl)) (by exact rfl)
  case splitj => exact does_of (exec_ready h _ (by unfold exec execSplitj; exact rfl)) (by exact rfl)
  case join => exact does_of (exec_ready h _ (by unfold exec execJoin; exact rfl)) (by exact rfl)
  case get => exact deliversFrom_of (exec_ready h _ (by unfold exec execJmaskGet; exact rfl)) (by exact rfl)
  case add => exact does_of (exec_ready h _ (by unfold exec execJmaskAdd; exact rfl)) (by exact rfl)
  case del => exact does_of (exec_ready h _ (by unfold exec execJmaskDel; exact rfl)) (by exact rfl)
  case clr => exact does_of (exec_ready h _ (by unfold exec execJmaskClr; exact rfl)) (by exact rfl)

end Sys2Proof.Laws
end

section
/-!
SUPPORT. SYS and REP (R43 to R47, R240 to R249, R259, R262): the words, the control register map, and the statements about them.
-/
namespace Sys2Proof.Laws
open Sys2Proof.Machine Sys2Proof.Safety

/-! ## NOP, TRAP, ERET, SLEEP and REP -/

/-- ERET (R262). -/
theorem eret_returns {c0 : Nat} {s : State} {c : Ctx} (h : Ready (.eret c0) c s) :
    (c.grp.ctrl.trapH = false → Traps (.eret c0) c ⟨.illegalOp, listMask c.path, 0⟩ s) ∧
    (c.grp.ctrl.trapH = true → c.grp.ctrl.trappc.toNat % 4 ≠ 0 →
      exec (.eret c0) s = .next (c.finish (s.uses (.eret c0)) s (.abort c.grp.ctrl.trapcause s))) ∧
    (c.grp.ctrl.trapH = true → c.grp.ctrl.trappc.toNat % 4 = 0 → Does (.eret c0) c
      ((s.modCur (fun g => { g with ctrl := { g.ctrl with trapH := false } })).goTo
        (c.act.map (fun l => (l, c.grp.ctrl.trappc.toNat / 4)))) s) := by
  have he := exec_ready h _ (by unfold exec execEret; exact rfl)
  refine ⟨fun hh => traps_of he ?_, fun hh hp => ?_, fun hh hp => does_of he ?_⟩
  · exact if_pos hh
  · rw [he]
    simp only [hh, Bool.true_eq_false, if_false, if_pos hp]
  · simp only [hh, Bool.true_eq_false, if_false, if_neg (not_not_intro hp)]

/-- SLEEP (R247). -/
theorem sleep_sleeps {c0 n : Nat} {s : State} {c : Ctx} (h : Ready (.sleep c0 n) c s) :
    (n = 0 → Does (.sleep c0 n) c s s) ∧
    (n ≠ 0 → exec (.sleep c0 n) s = .next (c.finish (s.uses (.sleep c0 n)) s (.sleep { s with nextId := s.nextId + 1 }
      (c.waitFor s.nextId (.sleep (s.cycle + 1 + n)) none .p32 none)))) := by
  have he := exec_ready h _ (by unfold exec execSleep; exact rfl)
  refine ⟨fun hn => does_of he (if_pos hn), fun hn => ?_⟩
  rw [he, if_neg hn]
  rfl

/-- REP (R43 to R47). -/
theorem rep_repeats {n d a b : Nat} {s : State} {c : Ctx} (h : Ready (.rep n d a b) c s) :
    let r : Rep := { idx := 0, last := n, incd := d, inca := a, incb := b }
    (∀ e t, s.fetchCur (c.pc + 1) = (.error e, t) → exec (.rep n d a b) s = .next (c.finish (s.uses (.rep n d a b)) s (.again r t))) ∧
    (∀ w t, s.fetchCur (c.pc + 1) = (.ok w, t) → chainBit w.toNat = false → repForbids w.toNat = false → repBadInc w.toNat d a b = false →
      exec (.rep n d a b) s = .next (c.finish (s.uses (.rep n d a b)) s (.again r t))) ∧
    (∀ w t, s.fetchCur (c.pc + 1) = (.ok w, t) → chainBit w.toNat = false → (repForbids w.toNat = true ∨ repBadInc w.toNat d a b = true) →
      TrapsIn (.rep n d a b) c ⟨.illegalOp, listMask c.path, 0⟩ t s) ∧
    (∀ w t, s.fetchCur (c.pc + 1) = (.ok w, t) → chainBit w.toNat = true →
      TrapsIn (.rep n d a b) c ⟨.illegalChain, listMask c.path, 0⟩ { t with cur := { t.cur with pc := c.pc + 1 } } s) := by
  have he := exec_ready h _ (by unfold exec execRep; exact rfl)
  refine ⟨fun e t hf => ?_, fun w t hf hc hr hi => ?_, fun w t hf hc hr => traps_of he ?_, fun w t hf hc => traps_of he ?_⟩
  · rw [he, hf]
  · rw [he, hf]
    simp only [hc, hr, hi, Bool.false_eq_true, or_self, if_false]
  · simp only [hf, hc, Bool.false_eq_true, if_false, if_pos hr]
    rfl
  · simp only [hf, hc, if_true]
    rfl

/-- Settles O25: each word by its body. -/
theorem trapReturnSleepAndRepeatAct : Obligations.TrapReturnSleepAndRepeatAct := by
  refine ⟨fun c0 n s => ⟨fun c h => ?nop, fun x h => ?nopSlice, fun c h => ?trap, fun c h => eret_returns h, fun c h => sleep_sleeps h⟩,
    fun n d a b s c h => rep_repeats h⟩
  case nop => exact does_of (exec_ready2 h _ _ (by unfold exec execNop; exact rfl)) (by exact rfl)
  case nopSlice => exact sliceDone_of (exec_slice h _ _ (by unfold exec execNop; exact rfl)) (by exact rfl)
  case trap => exact traps_of (exec_ready h _ (by unfold exec execTrap; exact rfl)) (by exact rfl)

/-! ## Control registers -/

/-- CRW, CRSET and CRCLR (R244). -/
theorem writeControl_acts {i : Instr} {a r : Nat} {f : W32 → W32 → W32} {s : State} {c : Ctx}
    (he : ∀ s, exec i s = groupWord (s.uses i) s (writeControl a r f)) (h : Ready i c s) :
    (s.controlReg c r = none → Traps i c ⟨.illegalOp, listMask c.path, 0⟩ s) ∧
    (∀ old, s.controlReg c r = some old → c.src.shape a ≠ .p32 → Traps i c (faultOf c .shape) s) ∧
    (∀ old, s.controlReg c r = some old → c.src.shape a = .p32 →
      Does i c (s.modCur (fun g => g.writeControl r (f old ((c.src.read a c.low).setWidth 32)))) s) := by
  have hx := exec_ready h _ (he s)
  refine ⟨fun hr => traps_of hx ?_, fun old hr hs => traps_of hx ?_, fun old hr hs => does_of hx ?_⟩
  · rw [writeControl, hr]; rfl
  · rw [writeControl, hr, lowP32_of_ne hs]; rfl
  · rw [writeControl, hr, lowP32_of_shape hs]; rfl

/-- CRR (R244). -/
theorem crr_reads {c0 d r : Nat} {s : State} {c : Ctx} (h : Ready (.crr c0 d r) c s) :
    (s.controlReg c r = none → Traps (.crr c0 d r) c ⟨.illegalOp, listMask c.path, 0⟩ s) ∧
    ∀ v, s.controlReg c r = some v → Delivers (.crr c0 d r) c (Out.v d .p32 (lanes c (fun _ => v.setWidth 128))) id s := by
  have he := exec_ready h _ (by unfold exec execCrr; exact rfl)
  refine ⟨fun hr => traps_of he ?_, fun v hr => deliversFrom_of he ?_⟩
  · rw [hr]; rfl
  · rw [hr]; rfl

/-- Settles O26: the reads, and the writes by their common body. -/
theorem controlRegisterWordsAct : Obligations.ControlRegisterWordsAct :=
  fun _ _ _ _ _ _ => ⟨crr_reads, writeControl_acts (f := fun _ x => x) (fun _ => rfl), writeControl_acts (f := fun old x => old ||| x) (fun _ => rfl),
    writeControl_acts (f := fun old x => old &&& ~~~x) (fun _ => rfl)⟩

/-- The low and the high half of a register's value. -/
theorem half_low (v : BitVec 64) : half v.toNat 0 = v.setWidth 32 := by
  simp [half, BitVec.ofNat_toNat]

theorem half_high (v : BitVec 64) : half v.toNat 1 = (v >>> 32).setWidth 32 := by
  apply BitVec.eq_of_toNat_eq
  simp [half, Nat.shiftRight_eq_div_pow]

theorem half_low_55 (v : BitVec 55) : half v.toNat 0 = (v.setWidth 64).setWidth 32 := by
  rw [← half_low, BitVec.toNat_setWidth_of_le (by decide)]

theorem half_high_55 (v : BitVec 55) : half v.toNat 1 = ((v.setWidth 64) >>> 32).setWidth 32 := by
  rw [← half_high, BitVec.toNat_setWidth_of_le (by decide)]

/-- A field of n bits of a number, as a word. -/
theorem ofNat_mod_two_pow (v n : Nat) : BitVec.ofNat 32 (v % 2 ^ n) = (BitVec.ofNat n v).setWidth 32 := by
  apply BitVec.eq_of_toNat_eq
  simp

/-- The number of a concatenation. -/
theorem append_toNat {m n : Nat} (x : BitVec m) (y : BitVec n) : (x ++ y).toNat = x.toNat * 2 ^ n + y.toNat := by
  rw [BitVec.toNat_append, Nat.shiftLeft_eq, Nat.mul_comm, Nat.two_pow_add_eq_or_of_lt y.isLt]

/-- `trapcause` with its flags (R245). -/
theorem trapcause_word (h a : Bool) (k : Byte) :
    BitVec.ofNat 32 ((if h then 512 else 0) + (if a then 256 else 0) + k.toNat) = (BitVec.ofBool h ++ BitVec.ofBool a ++ k : BitVec 10).setWidth 32 := by
  apply BitVec.eq_of_toNat_eq
  have hk := k.isLt
  rw [BitVec.toNat_setWidth, append_toNat, append_toNat]
  cases h <;> cases a <;> simp

/-- The map names the registers 0x000 to 0x00F and 0x100 to 0x105 (R245, R246). -/
theorem controlReg_unnamed (s : State) (c : Ctx) {r : Nat} (h : (0x010 ≤ r ∧ r ≤ 0x0FF) ∨ 0x106 ≤ r) : s.controlReg c r = none := by
  unfold State.controlReg
  split
  case h_23 => rfl
  all_goals omega

/-- A half of `savebase` (R246). -/
theorem savebase_low (v : Nat) : half v 0 = ((BitVec.ofNat 55 v).setWidth 64).setWidth 32 := by
  rw [← half_low_55]
  apply BitVec.eq_of_toNat_eq
  simp [half]

theorem savebase_high (v : Nat) : half (v % 2 ^ 55) 1 = (((BitVec.ofNat 55 v).setWidth 64) >>> 32).setWidth 32 := by
  rw [← half_high_55, BitVec.toNat_ofNat]

/-- Settles O27: the map's rows, each half and field as bits. -/
theorem controlRegisterMapReads : Obligations.ControlRegisterMapReads := by
  intro s c
  exact ⟨rfl, rfl, congrArg some (half_low_55 _), congrArg some (half_high_55 _), rfl, rfl, rfl, congrArg some (ofNat_mod_two_pow _ 15), rfl,
    congrArg some (trapcause_word _ _ _), congrArg some (half_low_55 _), congrArg some (half_high_55 _), congrArg some (half_low _),
    congrArg some (half_high _), congrArg some (half_low _), congrArg some (half_high _), rfl, congrArg some (ofNat_mod_two_pow _ 16),
    congrArg some (ofNat_mod_two_pow _ 5), congrArg some (ofNat_mod_two_pow _ 16), congrArg some (savebase_low _), congrArg some (savebase_high _),
    fun r hr => controlReg_unnamed s c hr⟩

/-! ## What a write of a control register leaves -/

theorem putHalf55_low (v : BitVec 55) (x : W32) : putHalf55 v 0 x = (v >>> 32).setWidth 23 ++ x := by
  apply BitVec.eq_of_toNat_eq
  have hv := v.isLt
  have hx := x.isLt
  rw [append_toNat, putHalf55, putHalf, BitVec.toNat_ofNat, BitVec.toNat_setWidth, BitVec.toNat_ushiftRight, Nat.shiftRight_eq_div_pow]
  omega

theorem putHalf55_high (v : BitVec 55) (x : W32) : putHalf55 v 1 x = x.setWidth 23 ++ v.setWidth 32 := by
  apply BitVec.eq_of_toNat_eq
  have hv := v.isLt
  have hx := x.isLt
  rw [append_toNat, putHalf55, putHalf, BitVec.toNat_ofNat, BitVec.toNat_setWidth, BitVec.toNat_setWidth]
  omega

theorem putHalf64_low (v : W64) (x : W32) : putHalf64 v 0 x = (v >>> 32).setWidth 32 ++ x := by
  apply BitVec.eq_of_toNat_eq
  have hv := v.isLt
  have hx := x.isLt
  rw [append_toNat, putHalf64, putHalf, BitVec.toNat_ofNat, BitVec.toNat_setWidth, BitVec.toNat_ushiftRight, Nat.shiftRight_eq_div_pow]
  omega

theorem putHalf64_high (v : W64) (x : W32) : putHalf64 v 1 x = x ++ v.setWidth 32 := by
  apply BitVec.eq_of_toNat_eq
  have hv := v.isLt
  have hx := x.isLt
  rw [append_toNat, putHalf64, putHalf, BitVec.toNat_ofNat, BitVec.toNat_setWidth]
  omega

/-- A field of a word by its number. -/
theorem field_eq_iff (x : W32) (n k : Nat) : x.toNat % 2 ^ n = k % 2 ^ n ↔ x.setWidth n = BitVec.ofNat n k := by
  rw [← BitVec.toNat_inj, BitVec.toNat_setWidth, BitVec.toNat_ofNat]

/-- No other number is written (R245). -/
theorem write_unnamed (k : CtrlRegs) (x : W32) {r : Nat} (h : 0x010 ≤ r) : k.write r x = k := by
  unfold CtrlRegs.write
  split
  case h_16 => rfl
  all_goals omega

/-- Settles O28: each row of the map, the halves of a register as concatenations. -/
theorem controlRegisterWritesKeepReservedBits : Obligations.ControlRegisterWritesKeepReservedBits := by
  intro k x
  have hround : (x.toNat % 8 = 0 ∨ x.toNat % 8 = 7) = (x.setWidth 3 = 0#3 ∨ x.setWidth 3 = 7#3) :=
    propext (or_congr (field_eq_iff x 3 0) (field_eq_iff x 3 7))
  have hhint : (x.toNat % 16 = 0) = (x.setWidth 4 = 0#4) := propext (field_eq_iff x 4 0)
  refine ⟨?round, rfl, ?baseLow, ?baseHigh, rfl, rfl, ?hint, rfl, rfl, rfl, ?pcLow, ?pcHigh, ?maskLow, ?maskHigh, ?addrLow, ?addrHigh,
    fun r hr => write_unnamed k x hr⟩
  case round => simp only [CtrlRegs.write, hround]
  case hint => simp only [CtrlRegs.write, hhint]
  case baseLow => simp only [CtrlRegs.write, putHalf55_low]
  case baseHigh => simp only [CtrlRegs.write, putHalf55_high]
  case pcLow => simp only [CtrlRegs.write, putHalf55_low]
  case pcHigh => simp only [CtrlRegs.write, putHalf55_high]
  case maskLow => simp only [CtrlRegs.write, putHalf64_low]
  case maskHigh => simp only [CtrlRegs.write, putHalf64_high]
  case addrLow => simp only [CtrlRegs.write, putHalf64_low]
  case addrHigh => simp only [CtrlRegs.write, putHalf64_high]

end Sys2Proof.Laws
end

section
/-!
SUPPORT. QUOTA, TLBINV and FWCALL (R241, R248, R249, R511), and the statements about them.
-/
namespace Sys2Proof.Laws
open Sys2Proof.Machine Sys2Proof.Safety

/-! ## QUOTA -/

/-- A group number names another resident group of the issuer's workgroup (R241). -/
abbrev OtherResident (c : Ctx) (g : Nat) : Prop := g ≠ c.who.grp ∧ ∃ y, c.wg.group g = some y ∧ y.retired = false

/-- QUOTA's own test of its target (R241). -/
theorem quota_target (c : Ctx) (g : Nat) :
    (g = c.who.grp ∨ (match c.wg.group g with
      | none => true
      | some y => y.retired) = true) ↔ ¬ OtherResident c g := by
  cases hg : c.wg.group g with
  | none => simp [OtherResident, hg]
  | some y => simp [OtherResident, hg, Classical.or_iff_not_imp_left]

/-- QUOTA (R241). -/
theorem quota_moves {c0 q a b : Nat} {s : State} {c : Ctx} (h : Ready (.quota c0 q a b) c s) :
    let i : Instr := .quota c0 q a b
    let g := (low32 c a).toNat
    let n := (low32 c b).toNat
    (c.src.shape a ≠ .p32 ∨ c.src.shape b ≠ .p32 → Traps i c (faultOf c .shape) s) ∧
    (c.src.shape a = .p32 → c.src.shape b = .p32 → ¬ OtherResident c g → Delivers i c (Out.q q (preds c (fun _ => .f))) id s) ∧
    (c.src.shape a = .p32 → c.src.shape b = .p32 → OtherResident c g → n ≤ c.grp.quota - c.grp.used →
      Delivers i c (Out.q q (preds c (fun _ => .t))) (fun t =>
        (t.modCur (fun y => { y with quota := y.quota - n })).modGroup c.core c.who.wg g (fun y => { y with quota := y.quota + n })) s) ∧
    (c.src.shape a = .p32 → c.src.shape b = .p32 → OtherResident c g → c.grp.quota - c.grp.used < n → c.grp.frees ≠ [] → Holds i c s) ∧
    (c.src.shape a = .p32 → c.src.shape b = .p32 → OtherResident c g → c.grp.quota - c.grp.used < n → c.grp.frees = [] →
      Traps i c (faultOf c .quota) s) := by
  have he := exec_ready h _ (by unfold exec execQuota; exact rfl)
  refine ⟨fun hs => traps_of he ?shape, fun ha hb ht => deliversFrom_of he ?none_, fun ha hb ht hn => deliversFrom_of he ?moves,
    fun ha hb ht hn hf => holds_of he ?waits, fun ha hb ht hn hf => traps_of he ?quota⟩
  case shape =>
    rcases hs with hs | hs
    · rw [lowP32_of_ne hs]; rfl
    · rw [lowP32_of_ne hs]; cases c.lowP32 a <;> rfl
  case none_ =>
    rw [lowP32_of_shape ha, lowP32_of_shape hb]
    exact if_pos ((quota_target c _).2 ht)
  case moves =>
    rw [lowP32_of_shape ha, lowP32_of_shape hb]
    exact (if_neg (fun e => (quota_target c _).1 e ht)).trans (if_neg (Nat.not_lt.2 hn))
  case waits =>
    rw [lowP32_of_shape ha, lowP32_of_shape hb]
    exact (if_neg (fun e => (quota_target c _).1 e ht)).trans ((if_pos hn).trans (if_pos hf))
  case quota =>
    rw [lowP32_of_shape ha, lowP32_of_shape hb]
    exact (if_neg (fun e => (quota_target c _).1 e ht)).trans ((if_pos hn).trans (if_neg (not_not_intro hf)))

/-! ## TLBINV -/

/-- A TLBINV word from its body (R248, R328). -/
theorem invalidates_of {i : Instr} {kind : Nat} {va : Ctx → Nat} {s : State} {c : Ctx}
    (he : exec i s = .next (c.finish (s.uses i) s (invalidateGroup kind (va c) c (s.uses i) s))) : Invalidates i kind va s c :=
  ⟨fun hp => holds_of he (if_pos hp), fun hp => deliversFrom_of he (if_neg (by rw [hp]; exact Bool.false_ne_true))⟩

/-- Settles O29: QUOTA by its target, TLBINV by its operand. -/
theorem quotaMovesAndTranslationsGo : Obligations.QuotaMovesAndTranslationsGo := by
  refine ⟨fun c0 q a b s c h => quota_moves h, fun c0 a s c => ⟨fun h hs => ?shape, fun h hs => ?page, fun h => ?asid, fun h => ?all⟩⟩
  case shape =>
    have he := exec_ready h _ (by unfold exec execTlbinvPage; exact rfl)
    exact traps_of he (by rw [lowP64_of_ne hs]; rfl)
  case page =>
    have he := exec_ready h _ (by unfold exec execTlbinvPage; exact rfl)
    exact invalidates_of (he.trans (by rw [lowP64_of_shape hs]; rfl))
  case asid => exact invalidates_of (exec_ready h _ (by unfold exec execTlbinvAsid; exact rfl))
  case all => exact invalidates_of (exec_ready h _ (by unfold exec execTlbinvAll; exact rfl))

/-! ## FWCALL -/

/-- A firmware call from its service's reply (R249). -/
theorem firmwareCall_of {i : Instr} {d a : Nat} {reply : Ctx → State → W64 → W64}
    (he : ∀ s, exec i s = groupWord (s.uses i) s (firmwareGroup d a reply)) : FirmwareCall i d a reply := by
  intro s c h
  have hx := exec_ready h _ (he s)
  unfold firmwareGroup at hx
  refine ⟨fun hs => traps_of hx ?_, fun hs hr => holds_of hx ?_, fun hs hr => deliversFrom_of hx ?_⟩
  · rw [lowP64_of_ne hs]; rfl
  · rw [lowP64_of_shape hs]; exact if_pos hr
  · rw [lowP64_of_shape hs]; exact if_neg (by rw [hr]; exact Bool.false_ne_true)

/-- Settles O30: each service by its reply. -/
theorem firmwareCallsReply : Obligations.FirmwareCallsReply :=
  fun _ _ _ _ => ⟨firmwareCall_of (fun _ => rfl), firmwareCall_of (fun _ => rfl), firmwareCall_of (fun _ => rfl),
    firmwareCall_of (fun _ => rfl), firmwareCall_of (fun _ => rfl), firmwareCall_of (fun _ => rfl), firmwareCall_of (fun _ => rfl)⟩

end Sys2Proof.Laws
end

section
/-!
SUPPORT. The checks of a word's destinations as rules, and synchronisation in scratch (R298 to R315, R333 to R336) with the statements about it.
-/
namespace Sys2Proof.Laws
open Sys2Proof.Machine Sys2Proof.Safety

/-! ## The checks of destinations -/

/-- Admitted results with no fault of their own go on. -/
theorem takeIn_fits {i : Instr} {c : Ctx} {o : Out} {s t : State} (h : Fits i c o s) (he : o.err = none) (next : State → Did) :
    c.takeIn (s.uses i) o t next = next t := by
  simp [Ctx.takeIn, h.shape, h.quota, takes h, he]

/-- Admitted results with a fault of their own raise it. -/
theorem takeIn_err {i : Instr} {c : Ctx} {o : Out} {s t : State} {x : Trap} (h : Fits i c o s) (he : o.err = some x) (next : State → Did) :
    c.takeIn (s.uses i) o t next = .trap x false t := by
  simp [Ctx.takeIn, h.shape, h.quota, takes h, he]

/-- The same of results to be committed. -/
theorem commit_err {i : Instr} {c : Ctx} {o : Out} {s t : State} {x : Trap} (h : Fits i c o s) (he : o.err = some x) (next : State → Did) :
    c.commit (s.uses i) o t next = .trap x false t := takeIn_err h he _

/-- A single destination is allocated anew or not, whatever its values. -/
theorem newRegs_v (c : Ctx) (u : Uses) (d : Nat) (k : Shape) (vs vs' : List (Nat × Elem)) :
    c.newRegs u (Out.v d k vs') = c.newRegs u (Out.v d k vs) := by
  have ha : VWrite.allocates (freeRegs c.grp.regs (c.freesNow u)) ⟨d, k, vs'⟩ = VWrite.allocates (freeRegs c.grp.regs (c.freesNow u)) ⟨d, k, vs⟩ := rfl
  simp only [Ctx.newRegs, Out.v, List.filter_cons, List.filter_nil, ha]
  cases VWrite.allocates (freeRegs c.grp.regs (c.freesNow u)) ⟨d, k, vs⟩ <;> rfl

/-- Admission does not look at the values to be written. -/
theorem fits_of_v {i : Instr} {c : Ctx} {d : Nat} {k : Shape} {vs : List (Nat × Elem)} {s : State} (h : Fits i c (Out.v d k vs) s)
    (vs' : List (Nat × Elem)) : Fits i c (Out.v d k vs') s :=
  ⟨h.shape, h.quota, h.freed.imp id (fun e => (newRegs_v _ _ _ _ _ _).trans e)⟩

/-- Admission does not look at a fault of the word's own. -/
theorem fits_with_err {i : Instr} {c : Ctx} {o : Out} {s : State} (h : Fits i c o s) (e : Option Trap) : Fits i c { o with err := e } s :=
  ⟨h.shape, h.quota, h.freed⟩

/-- What a word does at its destinations before it goes on. -/
theorem admits_of {i : Instr} {c : Ctx} {o : Out} {s t : State} {next : State → Did} {p : Prop}
    (he : exec i s = .next (c.finish (s.uses i) s (c.takeIn (s.uses i) o t next))) (hp : Fits i c o s → p) : Admits i c o t s p := by
  unfold Admits TrapsIn HoldsIn faultOf
  rw [he]
  refine ⟨fun a => ?_, fun a b d => ?_, fun a b d e => ?_, fun a b d e => ?_, hp⟩
  · simp [Ctx.takeIn, a, Ctx.fault]
  · simp only [Ctx.takeIn, a, b, Bool.false_eq_true, if_false, if_true, if_pos d]
  · simp [Ctx.takeIn, a, b, d, e, Ctx.fault]
  · simp [Ctx.takeIn, a, b, d, e]

/-! ## Objects of scratch -/

/-- An address that is no multiple of the object's size (R304, R312). -/
theorem objectAt_misaligned {w : Workgroup} {p size : Nat} (h : p % size ≠ 0) : w.objectAt p size = .error .misaligned := if_pos h

/-- An address outside scratch. -/
theorem objectAt_access {w : Workgroup} {p size : Nat} (h : p % size = 0)
    (hs : ¬ (scratchBase ≤ p ∧ p + size ≤ scratchBase + w.scratchBytes)) : w.objectAt p size = .error .access :=
  (if_neg (not_not_intro h)).trans (if_neg hs)

/-- An object of scratch has its offset. -/
theorem objectAt_ok {w : Workgroup} {p size off : Nat} (hp : p = scratchBase + off) (h : p % size = 0) (hs : off + size ≤ w.scratchBytes) :
    w.objectAt p size = .ok off := by
  unfold Workgroup.objectAt
  rw [if_neg (not_not_intro h), if_pos (by omega), hp, Nat.add_sub_cancel_left]

/-! ## Sync words -/

/-- The fields of a sync word (R298). -/
theorem sync_fields (v : Nat) : (((BitVec.ofNat 64 v).extractLsb 63 40).toNat = syncTarget v) ∧
    (((BitVec.ofNat 64 v).extractLsb 39 16).toNat = syncCount v) ∧ (((BitVec.ofNat 64 v).extractLsb 15 0).toNat = syncGen v) := by
  simp only [BitVec.extractLsb_toNat, BitVec.toNat_ofNat, Nat.shiftRight_eq_div_pow, syncTarget, syncCount, syncGen]
  omega

/-- `add(w, n)` (R299) by its fields. -/
theorem syncAdd_eq (v n : Nat) : syncAdd v n =
    (if syncTarget v = 0 then syncTarget v * 2 ^ 40 + (syncCount v + n) % 2 ^ 24 * 2 ^ 16 + syncGen v
      else syncTarget v * 2 ^ 40 + (syncCount v + n) % syncTarget v * 2 ^ 16 + (syncGen v + (syncCount v + n) / syncTarget v) % 2 ^ 16) := by
  have ht : syncTarget v < 2 ^ 24 := Nat.mod_lt _ (by decide)
  have hg : syncGen v < 2 ^ 16 := Nat.mod_lt _ (by decide)
  unfold syncAdd syncWord
  dsimp only
  split
  · omega
  case isFalse hz =>
    have hc : (syncCount v + n) % syncTarget v < syncTarget v := Nat.mod_lt _ (by omega)
    rw [Nat.mod_eq_of_lt ht, Nat.mod_eq_of_lt (Nat.lt_trans hc ht)]

/-- The checks of a sync word operation (R304), then its body. -/
theorem syncGroup_checks {i : Instr} {a b : Nat} {body : Ctx → Uses → Nat → Nat → W64 → State → Did} {s : State} {c : Ctx} {k : Nat → Prop}
    (he : exec i s = .next (c.finish (s.uses i) s (syncGroup a b body c (s.uses i) s)))
    (hk : ∀ off, exec i s = .next (c.finish (s.uses i) s (body c (s.uses i) off (low32 c b).toNat (low64 c a) s)) → k off) :
    (c.src.shape a ≠ .p64 ∨ c.src.shape b ≠ .p32 → Traps i c (faultOf c .shape) s) ∧
    (c.src.shape a = .p64 → c.src.shape b = .p32 →
      ((low64 c a).toNat % 8 ≠ 0 → Traps i c (faultFor c .misaligned (low64 c a)) s) ∧
      ((low64 c a).toNat % 8 = 0 → ¬ (scratchBase ≤ (low64 c a).toNat ∧ (low64 c a).toNat + 8 ≤ scratchBase + c.wg.scratchBytes) →
        Traps i c (faultFor c .access (low64 c a)) s) ∧
      ∀ off, (low64 c a).toNat = scratchBase + off → (low64 c a).toNat % 8 = 0 → off + 8 ≤ c.wg.scratchBytes → k off) := by
  unfold syncGroup at he
  refine ⟨fun hs => traps_of he ?_, fun ha hb => ⟨fun hm => traps_of he ?_, fun hm hs => traps_of he ?_, fun off hp hm hs => hk off (he.trans ?_)⟩⟩
  · rcases hs with hs | hs
    · rw [lowP64_of_ne hs]; rfl
    · rw [lowP32_of_ne hs]; cases c.lowP64 a <;> rfl
  · simp only [lowP64_of_shape ha, lowP32_of_shape hb, objectAt_misaligned hm]; rfl
  · simp only [lowP64_of_shape ha, lowP32_of_shape hb, objectAt_access hm hs]; rfl
  · simp only [lowP64_of_shape ha, lowP32_of_shape hb, objectAt_ok hp hm hs]

/-- The fault of a copy that a sync word's group has recorded (R303). -/
theorem copyFaultAt_of {g : Machine.Group} {off : Nat} {f : CopyFault} (h : g.copyFault = some f) (hf : f.sync = off) :
    g.copyFaultAt off = some ⟨f.cause, f.mask, f.addr⟩ := by
  unfold Group.copyFaultAt; rw [h]; exact if_pos hf

/-- No fault is recorded for a sync word. -/
theorem copyFaultAt_none {g : Machine.Group} {off : Nat} (h : ∀ f, g.copyFault = some f → f.sync ≠ off) : g.copyFaultAt off = none := by
  unfold Group.copyFaultAt
  cases hf : g.copyFault with
  | none => rfl
  | some f => exact if_neg (h f hf)

/-- Settles O31: the checks once for the three, then each body on the object's offset. -/
theorem syncWordsAct : Obligations.SyncWordsAct := by
  intro c0 a b s c
  refine ⟨fun h => syncGroup_checks (exec_ready h _ (by unfold exec execSwinit; exact rfl)) (fun off he => ?init),
    fun h => syncGroup_checks (exec_ready h _ (by unfold exec execSwadd; exact rfl)) (fun off he => ?add),
    fun h => syncGroup_checks (exec_ready h _ (by unfold exec execSwwait; exact rfl)) (fun off he =>
      ⟨fun f hf hs => ?fault, fun hn => ⟨fun hg => ?goes, fun hg => ?sleeps⟩⟩)⟩
  case init =>
    refine deliversFrom_of he ?_
    simp only [sync_fields, syncWord, syncGen, Nat.zero_mod, Nat.zero_mul, Nat.add_zero, Nat.mod_mod]
    rfl
  case add =>
    refine deliversFrom_of he ?_
    simp only [sync_fields, syncAdd_eq]
    rfl
  case fault => rw [he, copyFaultAt_of hf hs]
  case goes =>
    simp only [sync_fields] at hg
    exact deliversFrom_of he (by rw [copyFaultAt_none hn]; exact if_pos hg)
  case sleeps =>
    simp only [sync_fields] at hg
    exact sleeps_of he (by rw [copyFaultAt_none hn]; exact if_neg (not_not_intro hg))

end Sys2Proof.Laws
end

section
/-!
SUPPORT. Barrier objects and named queues (R305 to R315), and the statements about them.
-/
namespace Sys2Proof.Laws
open Sys2Proof.Machine Sys2Proof.Safety

/-! ## Barrier objects -/

/-- What a barrier word has at its destination before its object is found. -/
def barOut : Option Nat → Out
  | none => Out.none
  | some n => Out.v n .p32 []

/-- The checks of a barrier operation (R312), then its body. -/
theorem barGroup_checks {i : Instr} {a b : Nat} {d : Option Nat} {body : Ctx → Uses → Nat → Nat → W64 → State → Did} {s : State} {c : Ctx}
    (he : exec i s = .next (c.finish (s.uses i) s (barGroup a b d body c (s.uses i) s))) :
    (¬ (c.src.shape a = .p64 ∧ c.src.shape b = .p32) → Traps i c (faultOf c .shape) s) ∧
    (c.src.shape a = .p64 ∧ c.src.shape b = .p32 →
      (Fits i c (barOut d) s → (low64 c a).toNat % 16 ≠ 0 → Traps i c (faultFor c .misaligned (low64 c a)) s) ∧
      (Fits i c (barOut d) s → (low64 c a).toNat % 16 = 0 →
        ¬ (scratchBase ≤ (low64 c a).toNat ∧ (low64 c a).toNat + 16 ≤ scratchBase + c.wg.scratchBytes) →
        Traps i c (faultFor c .access (low64 c a)) s) ∧
      ∀ off, (low64 c a).toNat = scratchBase + off → (low64 c a).toNat % 16 = 0 → off + 16 ≤ c.wg.scratchBytes →
        exec i s = .next (c.finish (s.uses i) s (body c (s.uses i) off (low32 c b).toNat (low64 c a) s))) := by
  unfold barGroup at he
  refine ⟨fun hs => traps_of he ?_, fun ⟨ha, hb⟩ => ⟨fun hf hm => traps_of he ?_, fun hf hm hs => traps_of he ?_,
    fun off hp hm hs => he.trans ?_⟩⟩
  · by_cases ha : c.src.shape a = .p64
    · rw [lowP32_of_ne (fun hb => hs ⟨ha, hb⟩)]; cases c.lowP64 a <;> rfl
    · rw [lowP64_of_ne ha]; rfl
  · simp only [lowP64_of_shape ha, lowP32_of_shape hb, objectAt_misaligned hm]
    cases d <;> exact commit_err (fits_with_err hf _) rfl _
  · simp only [lowP64_of_shape ha, lowP32_of_shape hb, objectAt_access hm hs]
    cases d <;> exact commit_err (fits_with_err hf _) rfl _
  · simp only [lowP64_of_shape ha, lowP32_of_shape hb, objectAt_ok hp hm hs]

/-- An arrival with more than what remains, or a drop of more than the next count (R313). -/
abbrev Overruns (o : BarObj) (n : Nat) (drop : Bool) : Prop := o.remaining < n ∨ (drop = true ∧ o.nextCount < n)

/-- The object after an arrival (R313). -/
def arrived (o : BarObj) (n : Nat) (drop : Bool) : BarObj :=
  let next := if drop then o.nextCount - n else o.nextCount
  if o.remaining = n ∧ 0 < n then { o with phase := (o.phase + 1) % 16, expected := next, remaining := next, nextCount := next }
  else { o with remaining := o.remaining - n, nextCount := next }

/-- An arrival of k (R313): the object after it, and whether its phase advanced. -/
theorem arrive_ok {o : BarObj} {n : Nat} {drop : Bool} (h : ¬ Overruns o n drop) :
    o.arrive n drop = some (arrived o n drop, decide (o.remaining = n ∧ 0 < n)) := by
  have hr : (o.remaining - n = 0 ∧ 0 < n) = (o.remaining = n ∧ 0 < n) := propext ⟨fun x => by omega, fun x => by omega⟩
  unfold BarObj.arrive arrived
  rw [if_neg h]
  simp only [hr]
  split
  next hx => simp only [decide_eq_true hx, BarObj.advance]
  next hx => simp only [decide_eq_false hx]

/-- BARRIVE and BARDROP on their object (R313). -/
theorem arriveGroup_acts {i : Instr} {d off n : Nat} {drop : Bool} {p : W64} {s : State} {c : Ctx}
    (he : exec i s = .next (c.finish (s.uses i) s (arriveGroup d drop c (s.uses i) off n p s))) :
    let o := c.wg.bar off
    let k := n % 2 ^ 16
    (Overruns o k drop → Fits i c (Out.v d .p32 (lanes c (fun _ => elemN o.phase))) s →
      TrapsIn i c (faultFor c .barOverrun p) (onWg (fun w => w.setBar off { w.bar off with overrun := true }) s) s) ∧
    (¬ Overruns o k drop → Gives i c d .p32 (elemN o.phase) (fun t =>
      let u := onWg (fun w => w.setBar off (arrived o k drop)) t
      if o.remaining = k ∧ 0 < k then u.next (c.wg.barWakes c.core c.who.wg off) else u) s) := by
  unfold arriveGroup at he
  refine ⟨fun hb hf => traps_of he ?_, fun hb => deliversFrom_of he ?_⟩
  · have hf' : Fits i c (Out.v d .p32 (c.all (elemN (c.wg.bar off).phase))) s := hf
    simp only [BarObj.arrive, if_pos hb, commit_err (fits_with_err hf' _) rfl _]
    exact if_pos rfl
  · dsimp only
    rw [arrive_ok hb]
    simp only [decide_eq_true_eq]
    rfl

/-- The bound of a wait that issues now is now where it is 0 (R314, R336). -/
theorem boundAt_now (now : Nat) (x : W32) : boundAt now x.toNat = some now ↔ x.toNat = 0 := by
  unfold boundAt
  split
  · simp; omega
  · simp

/-- Settles O32: the checks once, then each body on the object. -/
theorem barrierObjectsAct : Obligations.BarrierObjectsAct := by
  intro c0 d q a b e s c
  refine ⟨fun h => ?init, fun h => ?arrive, fun h => ?drop, fun h => ?wait⟩
  case init =>
    obtain ⟨hs, hk⟩ := barGroup_checks (exec_ready h _ (by unfold exec execBarinit; exact rfl))
    exact ⟨hs, fun ab => (hk ab).1, fun ab => (hk ab).2.1, fun ab off hp hm hl => deliversFrom_of ((hk ab).2.2 off hp hm hl) rfl⟩
  case arrive =>
    obtain ⟨hs, hk⟩ := barGroup_checks (exec_ready h _ (by unfold exec execBarrive; exact rfl))
    exact ⟨hs, fun ab => (hk ab).1, fun ab => (hk ab).2.1, fun ab off hp hm hl => arriveGroup_acts ((hk ab).2.2 off hp hm hl)⟩
  case drop =>
    obtain ⟨hs, hk⟩ := barGroup_checks (exec_ready h _ (by unfold exec execBardrop; exact rfl))
    exact ⟨hs, fun ab => (hk ab).1, fun ab => (hk ab).2.1, fun ab off hp hm hl => arriveGroup_acts ((hk ab).2.2 off hp hm hl)⟩
  case wait =>
    have he := exec_ready h _ (by unfold exec execBarwait; exact rfl)
    by_cases hb : c.src.shape e = .p32
    · rw [lowP32_of_shape hb] at he
      obtain ⟨hs, hk⟩ := barGroup_checks he
      refine ⟨fun hn => hs (fun ab => hn ⟨ab, hb⟩), fun ab => (hk ab.1).1, fun ab => (hk ab.1).2.1, fun ab off hp hm hl => ?_⟩
      have hx := (hk ab.1).2.2 off hp hm hl
      refine ⟨fun hp => deliversFrom_of hx (if_pos hp), fun hp => sleeps_of hx ((if_neg (not_not_intro hp)).trans ?_)⟩
      simp only [onWg, numbered, State.fresh, State.modCurWg_cycle, boundAt_now, ← hp]
      rfl
    · rw [lowP32_of_ne hb] at he
      refine ⟨fun _ => traps_of he rfl, fun ab => absurd ab.2 hb, fun ab => absurd ab.2 hb, fun ab => absurd ab.2 hb⟩

/-! ## Named queues -/

/-- QPUSH by a group (R308). -/
theorem qpush_pushes {c0 a n : Nat} {s : State} {c : Ctx} (h : Ready (.qpush c0 a n) c s) (hi : (c.src.shape a).isIv = false) :
    (queueOk c.wg n = false → Traps (.qpush c0 a n) c (faultFor c .queueFault (BitVec.ofNat 64 (scratchBase + 32 * n))) s) ∧
    (queueOk c.wg n = true → queueLen c.wg n ≠ queueCap c.wg n →
      Delivers (.qpush c0 a n) c Out.none (fun t => t.curBank n (fun w => queuePush w n (low64 c a))) s) ∧
    (queueOk c.wg n = true → queueLen c.wg n = queueCap c.wg n → Sleeps (.qpush c0 a n) c
      (onWg (fun w => queueMark w n c.who.grp true true) (numbered s)) (c.waitFor s.nextId (.push n (low64 c a)) none .p32 none) s) := by
  have he := exec_ready2 h (qpushGroup a n) _ (by unfold exec execQpush; exact rfl)
  unfold qpushGroup at he
  rw [if_neg (by rw [hi]; exact Bool.false_ne_true)] at he
  refine ⟨fun hq => traps_of he (if_pos hq), fun hq hl => deliversFrom_of he ?_, fun hq hl => sleeps_of he ?_⟩
  · exact (if_neg (ne_false_of_eq_true hq)).trans (if_neg hl)
  · exact (if_neg (ne_false_of_eq_true hq)).trans (if_pos hl)

/-- QPOP by a group (R308). -/
theorem qpop_pops {c0 d n : Nat} {s : State} {c : Ctx} (h : Ready (.qpop c0 d n) c s) :
    (queueOk c.wg n = true → queueLen c.wg n ≠ 0 →
      Gives (.qpop c0 d n) c d .p64 ((queueFront c.wg n).setWidth 128) (fun t => t.curBank n (fun w => queuePop w n)) s) ∧
    (queueOk c.wg n = true → queueLen c.wg n = 0 → SleepsOn (.qpop c0 d n) c (Out.v d .p64 [])
      (onWg (fun w => queueMark w n c.who.grp false true) (numbered s)) (c.waitFor s.nextId (.pop n) (some d) .p64 none) s) ∧
    (queueOk c.wg n = false → Fits (.qpop c0 d n) c (Out.v d .p64 []) s →
      Traps (.qpop c0 d n) c (faultFor c .queueFault (BitVec.ofNat 64 (scratchBase + 32 * n))) s) := by
  have he := exec_ready2 h (qpopGroup d n) _ (by unfold exec execQpop; exact rfl)
  unfold qpopGroup at he
  refine ⟨fun hq hl => deliversFrom_of he ?_, fun hq hl hf => sleeps_of he ?_, fun hq hf => traps_of he ?_⟩
  · exact (if_neg (ne_false_of_eq_true hq)).trans (if_neg hl)
  · exact (if_neg (ne_false_of_eq_true hq)).trans ((if_pos hl).trans (takeIn_fits hf rfl _))
  · exact (if_pos hq).trans (commit_err (fits_with_err hf _) rfl _)

/-- QTRY by a group (R308). -/
theorem qtry_tries {c0 d q n : Nat} {s : State} {c : Ctx} (h : Ready (.qtry c0 d q n) c s) :
    (queueOk c.wg n = true → queueLen c.wg n = 0 → Decides (.qtry c0 d q n) c q .f id s) ∧
    (queueOk c.wg n = true → queueLen c.wg n ≠ 0 → Delivers (.qtry c0 d q n) c
      { Out.v d .p64 (lanes c (fun _ => (queueFront c.wg n).setWidth 128)) with qs := [(q, preds c (fun _ => .t))] }
      (fun t => t.curBank n (fun w => queuePop w n)) s) ∧
    (queueOk c.wg n = false → Fits (.qtry c0 d q n) c (Out.v d .p64 []) s →
      Traps (.qtry c0 d q n) c (faultFor c .queueFault (BitVec.ofNat 64 (scratchBase + 32 * n))) s) := by
  have he := exec_ready2 h (qtryGroup d q n) _ (by unfold exec execQtry; exact rfl)
  unfold qtryGroup at he
  refine ⟨fun hq hl => deliversFrom_of he ?_, fun hq hl => deliversFrom_of he ?_, fun hq hf => traps_of he ?_⟩
  · exact (if_neg (ne_false_of_eq_true hq)).trans (if_pos hl)
  · exact (if_neg (ne_false_of_eq_true hq)).trans (if_neg hl)
  · exact (if_pos hq).trans (commit_err (fits_with_err hf _) rfl _)

/-- A slice's queue word on its workgroup: QUEUE_FAULT, else what the queue's length says (R252, R308). -/
theorem sliceQueue_acts {i : Instr} {s t : State} {u : SliceDid} {w : Workgroup} {n : Nat} {p : Prop} [Decidable p]
    (he : exec i s = .next (s.finishSlice (if queueOk w n = false then .fault .queueFault none else if p then u else .done t))) :
    (queueOk w n = false → SliceFaults i .queueFault none s) ∧ (queueOk w n = true → ¬ p → SliceDone i t s) ∧
    (queueOk w n = true → p → exec i s = .next (s.finishSlice u)) := by
  refine ⟨fun hq => ?_, fun hq hp => ?_, fun hq hp => ?_⟩
  · exact he.trans (by rw [if_pos hq])
  · exact he.trans (by rw [if_neg (ne_false_of_eq_true hq), if_neg hp])
  · rw [he, if_neg (ne_false_of_eq_true hq), if_pos hp]

/-- Settles O33: the group's three words, then the slice's. -/
theorem queuesMoveValues : Obligations.QueuesMoveValues := by
  intro c0 d q a n s
  refine ⟨fun c h hi => qpush_pushes h hi, fun c h hi => ?interval, fun c h => qpop_pops h, fun c h => qtry_tries h,
    fun x w hw => ⟨fun h => ?push, fun h => ?pop, fun h => ?try_⟩⟩
  case interval =>
    have he := exec_ready2 h (qpushGroup a n) _ (by unfold exec execQpush; exact rfl)
    exact traps_of he (if_pos hi)
  case push =>
    have he := exec_slice h _ (qpushSlice a n) (by unfold exec execQpush; exact rfl)
    rw [qpushSlice, hw] at he
    exact sliceQueue_acts he
  case pop =>
    have he := exec_slice h _ (qpopSlice d n) (by unfold exec execQpop; exact rfl)
    rw [qpopSlice, hw] at he
    exact sliceQueue_acts he
  case try_ =>
    have he := exec_slice h _ (qtrySlice d q n) (by unfold exec execQtry; exact rfl)
    rw [qtrySlice, hw] at he
    obtain ⟨hf, hd, hs⟩ := sliceQueue_acts he
    exact ⟨hf, hs, hd⟩

end Sys2Proof.Laws
end

section
/-!
SUPPORT. Network barriers (R333 to R336), range descriptors (R340 to R342) and the LAUNCH words (R405 to R412, R509), with the statements about
them.
-/
namespace Sys2Proof.Laws
open Sys2Proof.Machine Sys2Proof.Safety

/-! ## Network barriers -/

/-- An arrival at a network barrier overruns it (R335). -/
abbrev NetOverruns (x : NetBar) (n : Nat) (drop : Bool) : Prop := x.expected - x.arrived < n ∨ (drop = true ∧ x.next < n)

/-- A network barrier after an arrival (R335). -/
def netArrived (x : NetBar) (n : Nat) (drop : Bool) : NetBar :=
  let next := if drop then x.next - n else x.next
  let coming := next + tgetD x.joins (x.gen + 1).toNat 0
  if x.arrived + n = x.expected ∧ 0 < n then
    { gen := x.gen + 1, expected := coming, arrived := 0, next := coming, joins := tdel x.joins (x.gen + 1).toNat }
  else { x with arrived := x.arrived + n, next := next }

/-- An arrival of k (R335): the barrier after it, and whether its generation advanced. -/
theorem netArrive_ok {x : NetBar} {n : Nat} {drop : Bool} (h : ¬ NetOverruns x n drop) :
    x.arrive n drop = some (netArrived x n drop, decide (x.arrived + n = x.expected ∧ 0 < n)) := by
  unfold NetBar.arrive netArrived
  rw [if_neg h]
  dsimp only
  split
  next hx => rw [decide_eq_true hx]; rfl
  next hx => rw [decide_eq_false hx]

/-- NBARRIVE and NBARRIVE.DROP (R334, R335). -/
theorem nbarrive_acts {i : Instr} {d a k : Nat} {drop : Bool} {s : State} {c : Ctx}
    (he : exec i s = .next (c.finish (s.uses i) s (nbarriveGroup d a k drop c (s.uses i) s))) :
    let n := (low32 c a).toNat % 2 ^ 16
    let put := fun (x : NetBar) (t : State) => t.setNetBar (coreDie c.core) c.wg.packet k x
    (c.src.shape a ≠ .p32 → Traps i c (faultOf c .shape) s) ∧ (c.src.shape a = .p32 →
      (s.netBar c.core c.wg k = none → Fits i c (Out.v d .p32 []) s → Traps i c (faultFor c .access (BitVec.ofNat 64 k)) s) ∧
      ∀ x, s.netBar c.core c.wg k = some x →
        (NetOverruns x n drop → Fits i c (Out.v d .p32 []) s → Traps i c (faultFor c .barOverrun (BitVec.ofNat 64 k)) s) ∧
        (¬ NetOverruns x n drop → Gives i c d .p32 (x.gen.setWidth 128) (fun t =>
          if x.arrived + n = x.expected ∧ 0 < n then
            (put (netArrived x n drop) t).next ((put (netArrived x n drop) t).nbarWakes (coreDie c.core) c.wg.packet k)
          else put (netArrived x n drop) t) s)) := by
  unfold nbarriveGroup at he
  refine ⟨fun hs => traps_of he ?_, fun hs => ⟨fun hn hf => traps_of he ?_, fun x hx => ⟨fun hb hf => traps_of he ?_,
    fun hb => deliversFrom_of he ?_⟩⟩⟩
  · rw [lowP32_of_ne hs]; rfl
  · simp only [lowP32_of_shape hs, hn]
    exact commit_err (fits_with_err hf _) rfl _
  · simp only [lowP32_of_shape hs, hx, NetBar.arrive, if_pos hb]
    exact commit_err (fits_with_err hf _) rfl _
  · simp only [lowP32_of_shape hs, hx]
    rw [netArrive_ok hb]
    simp only [decide_eq_true_eq]
    rfl

/-- How far ahead of a barrier's generation a join's lies (R335). -/
abbrev ahead (x : NetBar) (g : Nat) : Nat := (g + 2 ^ 16 - x.gen.toNat) % 2 ^ 16

/-- A join that NBARSET refuses (R335). -/
abbrev JoinRefused (x : NetBar) (n g : Nat) : Prop :=
  32768 ≤ ahead x g ∨ (0 < ahead x g ∧ ((8 ≤ x.joins.length ∧ tget x.joins g = none) ∨ 65535 < x.next + n)) ∨
    (ahead x g = 0 ∧ 65535 < x.expected + n)

/-- NBARSET's result (R335): refused, added to the current generation, or kept for a coming one. -/
theorem join_cases (x : NetBar) (n g : Nat) :
    (JoinRefused x n g → x.join n g = none) ∧
    (¬ JoinRefused x n g → ahead x g = 0 → x.join n g = some { x with expected := x.expected + n, next := x.next + n }) ∧
    (¬ JoinRefused x n g → 0 < ahead x g → x.join n g = some { x with joins := tset x.joins g (tgetD x.joins g 0 + n) }) := by
  have hr : x.join n g = (if 32768 ≤ ahead x g then none
      else if ahead x g = 0 then
        if 65535 < x.expected + n then none else some { x with expected := x.expected + n, next := x.next + n }
      else if (8 ≤ x.joins.length ∧ tget x.joins g = none) ∨ 65535 < x.next + n then none
      else some { x with joins := tset x.joins g (tgetD x.joins g 0 + n) }) := by
    simp only [NetBar.join, Option.isNone_iff_eq_none, ahead, Nat.reducePow]
  rw [hr]
  unfold JoinRefused
  generalize ahead x g = m
  refine ⟨fun h => ?_, fun h hz => ?_, fun h hp => ?_⟩
  · by_cases h1 : 32768 ≤ m
    · exact if_pos h1
    · by_cases h2 : m = 0
      · rw [if_neg h1, if_pos h2, if_pos (by omega)]
      · rcases h with h | h | h
        · exact absurd h h1
        · rw [if_neg h1, if_neg h2, if_pos h.2]
        · exact absurd h.1 h2
  · rw [if_neg (by omega), if_pos hz, if_neg (by omega)]
  · rw [if_neg (fun e => h (.inl e)), if_neg (by omega), if_neg (fun e => h (.inr (.inl ⟨hp, e⟩)))]

/-- NBARWAIT (R336). -/
theorem nbarwait_acts {c0 q a e k : Nat} {s : State} {c : Ctx} (h : Ready (.nbarwait c0 q a e k) c s) :
    let i : Instr := .nbarwait c0 q a e k
    let n := (low32 c a).toNat % 2 ^ 16
    let bound := (low32 c e).toNat
    (¬ (c.src.shape a = .p32 ∧ c.src.shape e = .p32) → Traps i c (faultOf c .shape) s) ∧
    (c.src.shape a = .p32 → c.src.shape e = .p32 →
      (s.netBar c.core c.wg k = none → Traps i c (faultFor c .access (BitVec.ofNat 64 k)) s) ∧
      ∀ x, s.netBar c.core c.wg k = some x →
        (x.gen.toNat ≠ n → Decides i c q .t id s) ∧
        (x.gen.toNat = n → Sleeps i c
          (if bound = 0 then
            { numbered s with agenda := s.agenda ++ [.event (.nbarwaitBoundExpiry c.core c.who.wg c.who.grp s.nextId)] } else numbered s)
          (c.waitFor s.nextId (.nbar k n (if bound = 0xFFFFFFFF then none else some (s.cycle + bound))) none .p32 (some q)) s)) := by
  have he := exec_ready h _ (by unfold exec execNbarwait; exact rfl)
  refine ⟨fun hs => traps_of he ?_, fun ha hb => ⟨fun hn => traps_of he ?_, fun x hx => ⟨fun hg => deliversFrom_of he ?_,
    fun hg => sleeps_of he ?_⟩⟩⟩
  · by_cases ha : c.src.shape a = .p32
    · rw [lowP32_of_ne (fun hb => hs ⟨ha, hb⟩)]; cases c.lowP32 a <;> rfl
    · rw [lowP32_of_ne ha]; rfl
  · simp only [lowP32_of_shape ha, lowP32_of_shape hb, hn]; rfl
  · simp only [lowP32_of_shape ha, lowP32_of_shape hb, hx]
    exact if_pos hg
  · simp only [lowP32_of_shape ha, lowP32_of_shape hb, hx]
    refine (if_neg (not_not_intro hg)).trans ?_
    simp only [State.fresh, boundAt_now]
    rfl

/-- NBARSET (R335). -/
theorem nbarset_acts {c0 q a b k : Nat} {s : State} {c : Ctx} (h : Ready (.nbarset c0 q a b k) c s) :
    let i : Instr := .nbarset c0 q a b k
    let n := (low32 c a).toNat % 2 ^ 16
    let g := (low32 c b).toNat % 2 ^ 16
    let put := fun (x : NetBar) (t : State) => t.setNetBar (coreDie c.core) c.wg.packet k x
    (¬ (c.src.shape a = .p32 ∧ c.src.shape b = .p32) → Traps i c (faultOf c .shape) s) ∧
    (c.src.shape a = .p32 → c.src.shape b = .p32 →
      (s.netBar c.core c.wg k = none → Traps i c (faultFor c .access (BitVec.ofNat 64 k)) s) ∧
      ∀ x, s.netBar c.core c.wg k = some x →
        (JoinRefused x n g → Decides i c q .f id s) ∧
        (¬ JoinRefused x n g → ahead x g = 0 → Decides i c q .t (put { x with expected := x.expected + n, next := x.next + n }) s) ∧
        (¬ JoinRefused x n g → 0 < ahead x g → Decides i c q .t (put { x with joins := tset x.joins g (tgetD x.joins g 0 + n) }) s)) := by
  have he := exec_ready h _ (by unfold exec execNbarset; exact rfl)
  refine ⟨fun hs => traps_of he ?_, fun ha hb => ⟨fun hn => traps_of he ?_, fun x hx => ?_⟩⟩
  · by_cases ha : c.src.shape a = .p32
    · rw [lowP32_of_ne (fun hb => hs ⟨ha, hb⟩)]; cases c.lowP32 a <;> rfl
    · rw [lowP32_of_ne ha]; rfl
  · simp only [lowP32_of_shape ha, lowP32_of_shape hb, hn]; rfl
  · simp only [lowP32_of_shape ha, lowP32_of_shape hb, hx] at he
    obtain ⟨hr, hnow, hlater⟩ := join_cases x ((low32 c a).toNat % 2 ^ 16) ((low32 c b).toNat % 2 ^ 16)
    refine ⟨fun hj => deliversFrom_of he ?_, fun hj hz => deliversFrom_of he ?_, fun hj hp => deliversFrom_of he ?_⟩
    · rw [hr hj]; rfl
    · rw [hnow hj hz]; rfl
    · rw [hlater hj hp]; rfl

/-- Settles O34: the four words, each by the barrier that its index names. -/
theorem networkBarriersAct : Obligations.NetworkBarriersAct := by
  intro c0 d q a b e k s c
  exact ⟨fun h => nbarrive_acts (exec_ready h _ (by unfold exec execNbarrive; exact rfl)),
    fun h => nbarrive_acts (exec_ready h _ (by unfold exec execNbarriveDrop; exact rfl)),
    fun h => (nbarwait_acts h).1, fun h => (nbarwait_acts h).2, fun h => (nbarset_acts h).1, fun h => (nbarset_acts h).2⟩

end Sys2Proof.Laws
end

section
/-!
SUPPORT. The memory words (R276 to R297): the checks at acceptance where they accept, and the statements about loads, stores, granules, lines,
fences and atomics.
-/
namespace Sys2Proof.Laws
open Sys2Proof.Machine Sys2Proof.Safety

/-! ## Addresses and acceptance -/

/-- The address of a memory word (R280). -/
theorem addr_eq (c : Ctx) (a o n : Nat) : c.addr a o n = addrOf a o n c := by
  funext l
  rw [Ctx.addr, addrOf, sextN_eq_toInt o (by decide)]

/-- With no offset, the register alone. -/
theorem addr_zero (c : Ctx) (a n : Nat) : c.addr a 0 n = fun l => (c.src.read a l).setWidth 64 := by
  funext l
  rw [addr_eq, addrOf]
  simp

/-- A fold that no element moves. -/
theorem foldl_fixed {α β : Type} (f : β → α → β) (b : β) (xs : List α) (h : ∀ x ∈ xs, f b x = b) : xs.foldl f b = b := by
  induction xs with
  | nil => rfl
  | cons x xs ih => rw [List.foldl_cons, h x List.mem_cons_self, ih (fun y hy => h y (List.mem_cons_of_mem _ hy))]

/-- Lanes that are all accepted raise no trap. -/
theorem accTrap_none {rs : List (Nat × Except Cause Place)} (addr : Nat → W64) (h : ∀ r ∈ rs, r.2.isOk = true) : accTrap rs addr = none := by
  unfold accTrap
  rw [foldl_fixed]
  intro r hr
  have := h r hr
  revert this
  cases r.2 with
  | error x => exact fun e => by cases e
  | ok p => exact fun _ => rfl

/-- Accepted lanes are each at a place. -/
theorem accepted_ok (ls : List Nat) (at_ : Nat → Place) : ∀ r ∈ ls.map (fun l => (l, (Except.ok (at_ l) : Except Cause Place))), r.2.isOk = true := by
  intro r hr
  obtain ⟨l, _, rfl⟩ := List.mem_map.1 hr
  rfl

/-- The places of accepted lanes. -/
theorem places_of_accepted (ls : List Nat) (at_ : Nat → Place) :
    (ls.map (fun l => (l, (Except.ok (at_ l) : Except Cause Place)))).filterMap (fun x => x.2.toOption) = ls.map at_ := by
  rw [List.filterMap_map]
  induction ls with
  | nil => rfl
  | cons l ls ih => rw [List.filterMap_cons, List.map_cons, ← ih]; rfl

/-! ## Loads -/

/-- A lane's load of data of this package (R281). -/
theorem loadAt_readable {t : State} {c : Ctx} {z l n : Nat} {p : Place} (h : Readable t p) :
    t.loadAt c z l n p = .value (loadElem z (t.readPlace c.wg c.who.grp l n p)) := by
  obtain ⟨⟨ho, ht⟩, hb⟩ := h
  simp only [State.loadAt, ho, ht, hb, Bool.or_self, Bool.false_eq_true, if_false]

/-- A lane's load of data that cannot be returned (R287). -/
theorem loadAt_bad {t : State} {c : Ctx} {z l n : Nat} {p : Place} (h : Here t p) (hb : t.badPlace p = true) : t.loadAt c z l n p = .bad := by
  obtain ⟨ho, ht⟩ := h
  simp only [State.loadAt, ho, ht, hb, Bool.or_self, Bool.false_eq_true, if_false, if_true]

/-- A lane's load that another party serves (R288). -/
theorem loadAt_outside {t : State} {c : Ctx} {z l n : Nat} {q : Piece} {qs : List Piece} (h : ¬ Here t (.global (q :: qs))) :
    t.loadAt c z l n (.global (q :: qs)) = .outside q := by
  have ho : (t.outsidePlace (.global (q :: qs)) || t.tapPlace (.global (q :: qs))) = true := by
    rw [Bool.or_eq_true]
    refine Classical.byContradiction fun hn => ?_
    rw [not_or, Bool.not_eq_true, Bool.not_eq_true] at hn
    exact h hn
  simp only [State.loadAt, ho, if_true]

/-- No values, no image trap. -/
theorem imageTrap_nil (z : Nat) (addr : Nat → W64) : imageTrap z [] addr = none := rfl

/-- What the lanes of a load find, once they are accepted (R281). -/
def found (u : State) (c : Ctx) (z : Nat) (at_ : Nat → Place) : List (Nat × Loaded) :=
  (c.act.map (fun l => (l, (Except.ok (at_ l) : Except Cause Place)))).map (fun x => (x.1, match x.2 with
    | .error _ => .value 0
    | .ok p => u.loadAt c z x.1 (szBytes z) p))

/-- Each lane finds what its own place holds. -/
theorem found_eq (u : State) (c : Ctx) (z : Nat) (at_ : Nat → Place) :
    found u c z at_ = c.act.map (fun l => (l, u.loadAt c z l (szBytes z) (at_ l))) := List.map_map

/-- The values among what lanes find. -/
def valuesOf (got : List (Nat × Loaded)) : List (Nat × Elem) := got.filterMap (fun x => match x.2 with
  | .value e => some (x.1, e)
  | _ => none)

/-- The lanes among them whose data cannot be returned. -/
def lostOf (got : List (Nat × Loaded)) : List Nat := got.filterMap (fun x => match x.2 with
  | .bad => some x.1
  | _ => none)

/-- The lanes among them that another party serves. -/
def outsideOf (got : List (Nat × Loaded)) : List (Nat × Piece) := got.filterMap (fun x => match x.2 with
  | .outside p => some (x.1, p)
  | _ => none)

/-- A filter that takes every element. -/
theorem filterMap_map_some {α β γ : Type} {f : α → β} {g : β → Option γ} {h : α → γ} (xs : List α) (hs : ∀ x, g (f x) = some (h x)) :
    (xs.map f).filterMap g = xs.map h := by
  rw [List.filterMap_map, show g ∘ f = some ∘ h from funext hs, List.filterMap_eq_map]

/-- A filter that takes no element. -/
theorem filterMap_map_none {α β γ : Type} {f : α → β} {g : β → Option γ} (xs : List α) (hs : ∀ x, g (f x) = none) :
    (xs.map f).filterMap g = [] := by
  rw [List.filterMap_map]
  exact List.filterMap_eq_nil_iff.2 fun x _ => hs x

/-- All lanes find values. -/
theorem all_values (ls : List Nat) (v : Nat → Elem) :
    valuesOf (ls.map (fun l => (l, .value (v l)))) = ls.map (fun l => (l, v l)) ∧ lostOf (ls.map (fun l => (l, .value (v l)))) = [] ∧
    outsideOf (ls.map (fun l => (l, .value (v l)))) = [] :=
  ⟨filterMap_map_some _ (fun _ => rfl), filterMap_map_none _ (fun _ => rfl), filterMap_map_none _ (fun _ => rfl)⟩

/-- No lane's data can be returned. -/
theorem all_lost (ls : List Nat) :
    valuesOf (ls.map (fun l => (l, .bad))) = [] ∧ lostOf (ls.map (fun l => (l, .bad))) = ls ∧
    outsideOf (ls.map (fun l => (l, .bad))) = [] :=
  ⟨filterMap_map_none _ (fun _ => rfl), (filterMap_map_some (f := fun l => (l, Loaded.bad)) (h := id) ls (fun _ => rfl)).trans (List.map_id ls), filterMap_map_none _ (fun _ => rfl)⟩

/-- Another party serves every lane. -/
theorem all_outside (ls : List Nat) (q : Nat → Piece) :
    valuesOf (ls.map (fun l => (l, .outside (q l)))) = [] ∧ lostOf (ls.map (fun l => (l, .outside (q l)))) = [] ∧
    outsideOf (ls.map (fun l => (l, .outside (q l)))) = ls.map (fun l => (l, q l)) :=
  ⟨filterMap_map_none _ (fun _ => rfl), filterMap_map_none _ (fun _ => rfl), filterMap_map_some _ (fun _ => rfl)⟩

/-- What a load does with what its lanes found (R142, R281, R287, R288). -/
def loadTakes (i : Instr) (d z : Nat) (acq : Bool) (c : Ctx) (addr : Nat → W64) (at_ : Nat → Place) (s u : State) (vals : List (Nat × Elem))
    (lost : List Nat) (out : List (Nat × Piece)) : Did :=
  let bad := lost.map (fun l => (l, addr l))
  let f := u.fresh
  let all := c.act.map (fun l => (l, (Except.ok (at_ l) : Except Cause Place)))
  if 6 ≤ z ∧ out ≠ [] then
    .sleep ((combineLanes out).foldl (fun s x => s.sendImage c f.1 acq (addr (x.1.headD 0)) x.1 (lanePieces all (x.1.headD 0))) f.2)
      { id := f.1, mask := c.mask, pc := c.pc, kind := .images z vals (bad.map (·.1)) (c.act.map (fun l => (l, addr l))), dv := some d,
        dshape := szShape z, dq := none, rest := none }
  else match imageTrap z vals addr with
    | some t => .trap t false u
    | none =>
      let t := c.apply (s.uses i) (s.uses i).cls (Out.v d (szShape z) vals) (if bad = [] ∧ out = [] then u else f.2)
      let t := (combineLanes out).foldl (fun s x => s.sendLoad c.who f.1 d (loadWork d z) acq (addr (x.1.headD 0)) x.1 x.2) t
      .done (if bad = [] then t else t.modCur (fun g => g.fail (.v d) f.1 bad))

/-- A load whose lanes are accepted: what it does once its destination is admitted (R280). -/
def loadNext (i : Instr) (d z : Nat) (acq : Bool) (c : Ctx) (addr : Nat → W64) (at_ : Nat → Place) (s u : State) : Did :=
  loadTakes i d z acq c addr at_ s u (valuesOf (found u c z at_)) (lostOf (found u c z at_)) (outsideOf (found u c z at_))

section
variable {i : Instr} {d z : Nat} {acq : Bool} {c : Ctx} {addr : Nat → W64} {at_ : Nat → Place} {s u : State}

/-- The data of this package are delivered at once (R281, R142). -/
theorem loadNext_readable (h : ∀ l ∈ c.act, Readable u (at_ l)) :
    let vals := lanes c (fun l => loadElem z (u.readPlace c.wg c.who.grp l (szBytes z) (at_ l)))
    (∀ x, imageTrap z vals addr = some x → loadNext i d z acq c addr at_ s u = .trap x false u) ∧
    (imageTrap z vals addr = none →
      loadNext i d z acq c addr at_ s u = .done (c.apply (s.uses i) (s.uses i).cls (Out.v d (szShape z) vals) u)) := by
  have hg : found u c z at_ = c.act.map (fun l => (l, .value (loadElem z (u.readPlace c.wg c.who.grp l (szBytes z) (at_ l))))) :=
    (found_eq _ _ _ _).trans <| List.map_congr_left (fun l hl => by rw [loadAt_readable (h l hl)])
  obtain ⟨hv, hl, ho⟩ := all_values c.act (fun l => loadElem z (u.readPlace c.wg c.who.grp l (szBytes z) (at_ l)))
  rw [loadNext, hg, hv, hl, ho, loadTakes]
  refine ⟨fun x hx => ?_, fun hx => ?_⟩
  · exact (if_neg (fun e => e.2 rfl)).trans (by unfold lanes at hx; rw [hx])
  · exact (if_neg (fun e => e.2 rfl)).trans (by unfold lanes at hx; rw [hx]; rfl)

/-- Data that cannot be returned: the fault is deferred (R287). -/
theorem loadNext_bad (hn : c.act ≠ []) (h : ∀ l ∈ c.act, Here u (at_ l) ∧ u.badPlace (at_ l) = true) :
    loadNext i d z acq c addr at_ s u = .done ((c.apply (s.uses i) (s.uses i).cls (Out.v d (szShape z) []) (numbered u)).modCur
      (fun g => g.fail (.v d) u.nextId (c.act.map (fun l => (l, addr l))))) := by
  have hg : found u c z at_ = c.act.map (fun l => (l, .bad)) :=
    (found_eq _ _ _ _).trans <| List.map_congr_left (fun l hl => by rw [loadAt_bad (h l hl).1 (h l hl).2])
  obtain ⟨hv, hl, ho⟩ := all_lost c.act
  have hb : c.act.map (fun l => (l, addr l)) ≠ [] := fun e => hn (List.map_eq_nil_iff.1 e)
  rw [loadNext, hg, hv, hl, ho, loadTakes, imageTrap_nil]
  refine (if_neg (fun e => e.2 rfl)).trans ?_
  dsimp only
  rw [if_neg hb, if_neg (fun e => hb e.1)]
  rfl

/-- Lanes that one other party serves each (R288). -/
theorem found_outside {q : Nat → Piece} {ps : Nat → List Piece} (h : ∀ l ∈ c.act, at_ l = .global (q l :: ps l) ∧ ¬ Here u (at_ l)) :
    found u c z at_ = c.act.map (fun l => (l, .outside (q l))) :=
  (found_eq _ _ _ _).trans <| List.map_congr_left (fun l hl => by
    obtain ⟨hp, hh⟩ := h l hl
    rw [hp] at hh ⊢
    rw [loadAt_outside hh])

/-- One request for each address, whose answer completes the write (R288, R498, R523). -/
theorem loadNext_outside {q : Nat → Piece} {ps : Nat → List Piece} (hz : z < 6) (hn : c.act ≠ [])
    (h : ∀ l ∈ c.act, at_ l = .global (q l :: ps l) ∧ ¬ Here u (at_ l)) :
    loadNext i d z acq c addr at_ s u = .done ((combineLanes (c.act.map (fun l => (l, q l)))).foldl
      (fun x y => x.sendLoad c.who u.nextId d (loadWork d z) acq (addr (y.1.headD 0)) y.1 y.2)
      (c.apply (s.uses i) (s.uses i).cls (Out.v d (szShape z) []) (numbered u))) := by
  obtain ⟨hv, hl, ho⟩ := all_outside c.act q
  have hb : c.act.map (fun l => (l, q l)) ≠ [] := fun e => hn (List.map_eq_nil_iff.1 e)
  rw [loadNext, found_outside h, hv, hl, ho, loadTakes, imageTrap_nil]
  refine (if_neg (fun e => absurd e.1 (by omega))).trans ?_
  dsimp only
  rw [List.map_nil, if_pos rfl, if_neg (fun e => hb e.2)]
  rfl

/-- Interval images there: the word sleeps until all have come (R142). -/
theorem loadNext_images {q : Nat → Piece} {ps : Nat → List Piece} (hz : 6 ≤ z) (hn : c.act ≠ [])
    (h : ∀ l ∈ c.act, at_ l = .global (q l :: ps l) ∧ ¬ Here u (at_ l)) :
    let all := c.act.map (fun l => (l, (Except.ok (at_ l) : Except Cause Place)))
    loadNext i d z acq c addr at_ s u = .sleep ((combineLanes (c.act.map (fun l => (l, q l)))).foldl (fun x y =>
        x.sendImage c u.nextId acq (addr (y.1.headD 0)) y.1 (lanePieces all (y.1.headD 0))) (numbered u))
      { id := u.nextId, mask := c.mask, pc := c.pc, kind := .images z [] [] (c.act.map (fun l => (l, addr l))), dv := some d,
        dshape := szShape z, dq := none, rest := none } := by
  obtain ⟨hv, hl, ho⟩ := all_outside c.act q
  have hb : c.act.map (fun l => (l, q l)) ≠ [] := fun e => hn (List.map_eq_nil_iff.1 e)
  rw [loadNext, found_outside h, hv, hl, ho, loadTakes]
  exact if_pos ⟨hz, hb⟩

/-- A load's checks refuse (R317): the word traps once its destination is admitted. -/
theorem loadGroup_refused {k : Acc} {a o h : Nat} {rs : List (Nat × Except Cause Place)} {t : State} {x : Trap}
    (hs : c.src.shape a = .p64) (hr : s.places c.core c.wg k (c.act.map (fun l => (l, c.addr a o (szBytes z) l))) = (rs, t))
    (hx : accTrap (rs.filter (fun r => !c.helperZero r)) (c.addr a o (szBytes z)) = some x) (hf : Fits i c (Out.v d (szShape z) []) s) :
    loadGroup k d a o z h acq c (s.uses i) s = .trap x false t := by
  unfold loadGroup
  rw [if_neg (not_not_intro hs)]
  dsimp only
  rw [hr]
  dsimp only
  rw [hx]
  exact Eq.trans (if_neg Bool.false_ne_true) (takeIn_err (fits_with_err hf _) rfl _)

/-- A load's lanes are accepted (R280): it waits for a slice that has stopped, else goes on. -/
theorem loadGroup_accepted {k : Acc} {a o h : Nat} {t : State} (hs : c.src.shape a = .p64)
    (hr : Accepted s c k c.act (c.addr a o (szBytes z)) at_ t) :
    loadGroup k d a o z h acq c (s.uses i) s = (if t.stalls (c.act.map (fun l => (l, .ok (at_ l)))) = true then .hold s
      else c.takeIn (s.uses i) (Out.v d (szShape z) []) t (fun s' => loadNext i d z acq c (c.addr a o (szBytes z)) at_ s
        (s'.l1Reads c.core c.wg.asid h c.src.ctrl.hint.toNat (s'.herePieces (c.act.map at_))))) := by
  have hx : accTrap ((c.act.map (fun l => (l, (Except.ok (at_ l) : Except Cause Place)))).filter (fun r => !c.helperZero r))
      (c.addr a o (szBytes z)) = none :=
    accTrap_none _ (fun r hm => accepted_ok c.act at_ r (List.mem_filter.1 hm).1)
  unfold loadGroup
  rw [if_neg (not_not_intro hs)]
  dsimp only
  rw [hr]
  dsimp only
  rw [hx, places_of_accepted]
  rfl

end

/-- A load (R277, R280, R281, R286, R287). -/
theorem loads_law {i : Instr} {k : Acc} {d a o z h : Nat} {acq : Bool} {addr : Ctx → Nat → W64}
    (he : ∀ s c, Ready i c s → exec i s = .next (c.finish (s.uses i) s (loadGroup k d a o z h acq c (s.uses i) s)))
    (ha : ∀ c, c.addr a o (szBytes z) = addr c) : Loads i k d a z h acq addr := by
  intro s c hr
  have hx := he s c hr
  refine ⟨fun hs => traps_of hx (if_pos hs), fun hs rs t hp x hx' hf => ?refused, fun hs at_ t hp ht => ?waits, fun hs at_ t hp ht => ?goes⟩
  case refused =>
    rw [← ha] at hp hx'
    exact traps_of hx (loadGroup_refused hs hp hx' hf)
  case waits =>
    rw [← ha] at hp
    exact holds_of hx ((loadGroup_accepted hs hp).trans (if_pos ht))
  case goes =>
    rw [← ha] at hp ⊢
    rw [loadGroup_accepted hs hp, if_neg (ne_true_of_eq_false ht)] at hx
    refine admits_of hx (fun hf => ?_)
    rw [takeIn_fits hf rfl] at hx
    refine ⟨fun hd => ?_, fun hd => ?_, fun q hz hd => ?_, fun q ps hz hd => ?_⟩
    · exact ⟨fun x hi => traps_of hx ((loadNext_readable hd).1 x hi), fun hi => hx.trans (by rw [(loadNext_readable hd).2 hi]; rfl)⟩
    · exact hx.trans (by rw [loadNext_bad hr.active hd]; rfl)
    · exact hx.trans (by rw [loadNext_outside (ps := fun _ => []) hz hr.active hd]; rfl)
    · exact sleeps_of hx (loadNext_images hz hr.active hd)

end Sys2Proof.Laws
end

section
/-!
SUPPORT. A slice's loads, stores, granules, lines and fences (R252, R280 to R297), with the statements about them.
-/
namespace Sys2Proof.Laws
open Sys2Proof.Machine Sys2Proof.Safety

/-! ## What the checks at acceptance change -/

/-- The clusters alone may differ. -/
def OnlyClusters (s t : State) : Prop := t = { s with clusters := t.clusters }

theorem OnlyClusters.refl (s : State) : OnlyClusters s s := rfl

theorem OnlyClusters.trans {s t u : State} (h : OnlyClusters s t) (k : OnlyClusters t u) : OnlyClusters s u := by
  unfold OnlyClusters at *
  rw [k, h]

theorem OnlyClusters.cur {s t : State} (h : OnlyClusters s t) : t.cur = s.cur := by rw [h]

/-- A translation fills a TLB at most (R325). -/
theorem translate_only (s : State) (c asid : Nat) (bypass : Bool) (va n : Nat) : OnlyClusters s (s.translate c asid bypass va n).2 := by
  unfold State.translate
  split
  · exact .refl s
  · split
    · exact .refl s
    · split <;> rfl

/-- The translations of an access's pieces. -/
theorem pieces_only (s : State) (core asid : Nat) (bypass : Bool) (va n : Nat) : OnlyClusters s (s.pieces core asid bypass va n).2 := by
  unfold State.pieces
  dsimp only
  split
  · exact translate_only ..
  · exact (translate_only ..).trans (translate_only ..)

/-- A choice of answers in one state. -/
theorem answers_only {α : Type} (s : State) (p : Prop) [Decidable p] (a b : α) : OnlyClusters s (if p then (a, s) else (b, s)).2 := by
  split <;> exact .refl s

/-- The checks of an address (R280). -/
theorem place_only (s : State) (core : Nat) (w : Workgroup) (laneless : Bool) (k : Acc) (a : W64) :
    OnlyClusters s (s.place core w laneless k a).2 := by
  unfold State.place
  dsimp only
  split
  · exact .refl s
  split
  · split
    · exact answers_only ..
    split
    · exact answers_only ..
    · exact .refl s
  split
  · exact .refl s
  · split <;> exact pieces_only ..

/-! ## A slice's loads -/

/-- LD in a slice (R252, R257). -/
theorem ldSlice_loads {f : MMem} {s : State} {x : Slice} {w : Workgroup} (h : SliceReady (.ld f) x s) (hw : s.curWg = some w) :
    let k := Acc.plain .read (szAlign f.z) (szBytes f.z) (decide (f.z < 6)) f.h
    let a := x.reg f.a + BitVec.ofInt 64 ((BitVec.ofNat 5 f.o).toInt * szBytes f.z)
    (6 ≤ f.z → SliceFaults (.ld f) .illegalOp none s) ∧
    (f.z < 6 → ∀ e t, s.place s.cur.who.core w true k a = (.error e, t) → SliceFaults (.ld f) e (some a) s) ∧
    (f.z < 6 → ∀ p t, s.place s.cur.who.core w true k a = (.ok p, t) →
      (t.stalls [(0, .ok p)] = true → SliceHolds (.ld f) s) ∧
      (t.stalls [(0, .ok p)] = false →
        (Readable t p →
          let u := t.l1Reads t.cur.who.core w.asid f.h 1 (placePieces [p])
          let bs := u.readPlace w 16 0 (szBytes f.z) p
          let v : W64 := if szSigned f.z then BitVec.ofInt 64 (sextN (leNat bs) (8 * bs.length)) else BitVec.ofNat 64 (leNat bs)
          SliceDone (.ld f) (u.modCurSlice (fun y => y.setReg f.d v)) s) ∧
        (Here t p → t.badPlace p = true → SliceFaults (.ld f) .memUe (some a) s) ∧
        (∀ q, p = .global [q] → ¬ Here t p → exec (.ld f) s = .next (s.finishSlice (.sleep
          ((numbered t).post ((numbered t).outsideAt t.nextId t.nextId s.cur.who [(0, 0, 0)] q.pa q.attr a
            (.sliceLoad f.d (szSigned f.z) q.len)))
          { id := t.nextId, mask := 0, pc := x.pc, kind := .reply t.nextId, dv := none, dshape := .p64, dq := none, rest := none }))))) := by
  intro k a
  have he := exec_slice h _ (loadSlice f) (by unfold exec execLd; exact rfl)
  rw [loadSlice] at he
  refine ⟨fun hz => he.trans (by rw [if_pos hz]), fun hz e t hp => ?_, fun hz p t hp => ?_⟩
  all_goals
    rw [if_neg (by omega), hw] at he
    dsimp only at he
    rw [sextN_eq_toInt f.o (by decide), ldAcc] at he
    rw [show s.place _ _ _ _ _ = _ from hp] at he
    dsimp only at he
  · exact he
  · refine ⟨fun ht => he.trans (by rw [if_pos ht]), fun ht => ?_⟩
    rw [if_neg (ne_true_of_eq_false ht)] at he
    refine ⟨fun hr => he.trans ?_, fun hh hb => he.trans ?_, fun q hq hn => he.trans ?_⟩
    · obtain ⟨⟨ho, htp⟩, hb⟩ := hr
      have hc : t.cur = s.cur := by
        have := place_only s s.cur.who.core w true k a
        rw [hp] at this
        exact this.cur
      simp only [ho, htp, hb, hc, Bool.or_self, Bool.false_eq_true, if_false]
    · obtain ⟨ho, htp⟩ := hh
      simp only [ho, htp, hb, Bool.or_self, Bool.false_eq_true, if_false, if_true, a]
    · have ho : (t.outsidePlace p || t.tapPlace p) = true := by
        rw [Bool.or_eq_true]
        refine Classical.byContradiction fun hx => ?_
        rw [not_or, Bool.not_eq_true, Bool.not_eq_true] at hx
        exact hn hx
      rw [if_pos ho, hq]
      rfl

/-- Settles O18: the group's loads by one law, then the slice's. -/
theorem loadsLoad : Obligations.LoadsLoad := by
  refine ⟨⟨fun f => ⟨?ld, ?lda⟩, fun c0 d a z => ?acqp⟩, fun f s x w h hw => ldSlice_loads h hw⟩
  case ld => exact loads_law (fun s c h => exec_ready2 h _ _ (by unfold exec execLd; exact rfl)) (fun c => addr_eq c _ _ _)
  case lda => exact loads_law (fun s c h => exec_ready h _ (by unfold exec execLda; exact rfl)) (fun c => addr_eq c _ _ _)
  case acqp => exact loads_law (fun s c h => exec_ready h _ (by unfold exec execAcqp; exact rfl)) (fun c => addr_zero c _ _)

/-! ## Stores -/

/-- A store (R280, R282, R286, R389). -/
theorem stores_law {i : Instr} {f : MMem} {rel : Bool} (he : ∀ s, exec i s = groupWord (s.uses i) s (storeGroup f rel)) :
    Stores i f rel (addrOf f.a f.o (szBytes f.z)) := by
  intro s c h
  have hx := exec_ready h _ (he s)
  rw [storeGroup] at hx
  dsimp only at hx
  rw [addr_eq] at hx
  refine ⟨fun hd => deliversFrom_of hx (if_pos hd), fun hd hs => ?shape, fun hd hs hh => ?held, fun hd hs hh x t hr => ?refused,
    fun hd hs hh at_ t ha => ?accepted⟩
  all_goals rw [if_neg hd] at hx
  case shape =>
    exact traps_of hx (if_pos (Classical.not_and_iff_not_or_not.1 hs))
  all_goals rw [if_neg (fun e => Classical.not_and_iff_not_or_not.2 e hs)] at hx
  case held => exact holds_of hx (if_pos hh)
  all_goals rw [if_neg hh] at hx
  case refused =>
    obtain ⟨rs, hp, ht⟩ := hr
    rw [hp] at hx
    dsimp only at hx
    rw [ht] at hx
    exact hx
  case accepted =>
    rw [ha] at hx
    dsimp only at hx
    rw [accTrap_none _ (accepted_ok c.doers at_)] at hx
    refine ⟨fun ht => holds_of hx (if_pos ht), fun ht => deliversFrom_of hx ((if_neg (ne_true_of_eq_false ht)).trans ?_)⟩
    simp only [List.foldl_map]
    rfl

/-- Settles O19: ST and STL by one law. -/
theorem storesStore : Obligations.StoresStore := fun _ => ⟨stores_law (fun _ => rfl), stores_law (fun _ => rfl)⟩

/-! ## Lines -/

/-- A LINE word (R285). -/
theorem lineWord_law {i : Instr} {zero : Bool} {a o : Nat} {onGlobal : Ctx → State → Piece → State} {onPriv : Ctx → State → Nat → Nat → State}
    {onScratch : Ctx → State → Nat → State}
    (he : ∀ s, exec i s = groupWord (s.uses i) s (fun x u s => lineGroup zero a o (onGlobal x) onPriv (onScratch x) x u s)) :
    LineWord i zero a o onGlobal onPriv onScratch := by
  intro s c h
  have hx := exec_ready h _ (he s)
  rw [lineGroup] at hx
  dsimp only at hx
  rw [addr_eq] at hx
  refine ⟨fun hd => deliversFrom_of hx (if_pos hd), fun hd hs => ?shape, fun hd hs rs t x hp ht => ?refused, fun hd hs at_ t ha => ?accepted⟩
  all_goals rw [if_neg hd] at hx
  case shape => exact traps_of hx (if_pos hs)
  all_goals rw [if_neg (not_not_intro hs)] at hx
  case refused =>
    rw [hp] at hx
    dsimp only at hx
    rw [ht] at hx
    exact hx
  case accepted =>
    rw [ha] at hx
    dsimp only at hx
    rw [accTrap_none _ (accepted_ok c.doers at_)] at hx
    refine ⟨fun ht => holds_of hx (if_pos ht), fun ht => deliversFrom_of hx ((if_neg (ne_true_of_eq_false ht)).trans ?_)⟩
    simp only [List.foldl_map]
    refine congrArg (fun f => c.commit (s.uses i) Out.none t (fun x => .done (c.doers.foldl f x))) (funext fun x => funext fun l => ?_)
    cases at_ l <;> rfl

/-- PREF (R284). -/
theorem pref_acts {c0 a o n h : Nat} {s : State} {c : Ctx} (hr : Ready (.pref c0 a o n h) c s) :
    (c.src.shape a ≠ .p64 → Delivers (.pref c0 a o n h) c Out.none id s) ∧
    (c.src.shape a = .p64 → ∀ rs t,
      s.places c.core c.wg (Acc.plain .read 1 1 false 2) (c.act.map (fun l => (l, addrOf a o 128 c l))) = (rs, t) →
      let good := (∀ r ∈ rs, r.2.isOk = true) ∧ t.stalls rs = false
      (¬ good → DeliversFrom (.pref c0 a o n h) c Out.none t id s) ∧
      (good → DeliversFrom (.pref c0 a o n h) c Out.none t (fun x =>
        x.prefetch c.core c.wg.asid n h c.src.ctrl.hint.toNat (t.herePieces (rs.filterMap (fun y => y.2.toOption)))) s)) := by
  have hx := exec_ready hr _ (by unfold exec execPref; exact rfl)
  dsimp only at hx
  rw [addr_eq] at hx
  refine ⟨fun hs => deliversFrom_of hx (if_pos hs), fun hs rs t hp => ?_⟩
  rw [if_neg (not_not_intro hs)] at hx
  rw [hp] at hx
  dsimp only at hx
  have hg : (rs.all (fun y => y.2.isOk) && !t.stalls rs) = true ↔ (∀ r ∈ rs, r.2.isOk = true) ∧ t.stalls rs = false := by
    rw [Bool.and_eq_true, List.all_eq_true, Bool.not_eq_true']
  refine ⟨fun hn => deliversFrom_of hx ?_, fun hn => deliversFrom_of hx ?_⟩
  · simp only [if_neg (fun e => hn (hg.1 e))]
    rfl
  · simp only [if_pos (hg.2 hn)]
    rfl

/-- Settles O21: PREF, then the LINE words by one law. -/
theorem linesAreMoved : Obligations.LinesAreMoved := fun _ _ _ _ =>
  ⟨fun _ _ _ hr => pref_acts hr, lineWord_law (fun _ => rfl), lineWord_law (fun _ => rfl), lineWord_law (fun _ => rfl),
    lineWord_law (fun _ => rfl)⟩

/-! ## Fences -/

/-- A fence (R294). -/
theorem fence_acts {i : Instr} {acq rel : Bool} {sc : Nat} {s : State} {c : Ctx} (h : Ready i c s)
    (he : exec i s = groupWord (s.uses i) s (fenceGroup acq rel sc)) :
    let waits := (rel = true ∧ sc = 5 ∧ s.sysHeld c = true) ∨ (acq = true ∧ s.readsOut c = true)
    (waits → Holds i c s) ∧ (¬ waits → Delivers i c Out.none id s) :=
  ⟨fun hw => holds_of (exec_ready h _ he) (if_pos hw), fun hw => deliversFrom_of (exec_ready h _ he) (if_neg hw)⟩

/-- Settles O22: the fences by one law, then CACHE and GFENCE. -/
theorem fencesAndCacheAct : Obligations.FencesAndCacheAct := by
  refine ⟨fun c0 n s c => ⟨fun h => fence_acts h rfl, fun h => fence_acts h rfl, fun h => fence_acts h rfl, fun h => fence_acts h rfl,
    fun h => ?ifetch, fun h => ?wb, fun h => ?wbinv⟩, fun c0 l g st s c h => ?gfence⟩
  case ifetch => exact deliversFrom_of (exec_ready h _ (by unfold exec execCacheIfetch; exact rfl)) rfl
  case wb => exact deliversFrom_of (exec_ready h _ (by unfold exec execCacheWb; exact rfl)) rfl
  case wbinv => exact deliversFrom_of (exec_ready h _ (by unfold exec execCacheWbinv; exact rfl)) rfl
  case gfence =>
    have he := exec_ready h _ (by unfold exec execGfence; exact rfl)
    exact ⟨fun hm => holds_of he (if_pos hm), fun hm => does_of he (if_neg (ne_true_of_eq_false hm))⟩

end Sys2Proof.Laws
end

section
/-!
SUPPORT. Granules (R283) and atomics (R289 to R292), with the statements about them.
-/
namespace Sys2Proof.Laws
open Sys2Proof.Machine Sys2Proof.Safety

/-! ## The values of atomics -/

/-- Settles O24: each row of the table. -/
theorem atomicValuesAreThoseOfTheTable : Obligations.AtomicValuesAreThoseOfTheTable := by
  intro w o x y hw
  have h0 : 0 < w := by omega
  have h1 : (1 : BitVec w).toNat = 1 := (BitVec.toNat_ofNat 1 w).trans (Nat.one_mod_two_pow h0)
  have hz : (0 : BitVec w).toNat = 0 := (BitVec.toNat_ofNat 0 w).trans (Nat.zero_mod _)
  refine ⟨?add, ?min, ?max, ?nmin, ?nmax, rfl, rfl, rfl, rfl, ?cas, rfl, rfl, rfl, ?incw, ?decw⟩
  case add => exact (BitVec.toNat_add o x).symm
  case min => simp only [atomNew, sextN_toInt _ h0, apply_ite BitVec.toNat]; rfl
  case max => simp only [atomNew, sextN_toInt _ h0, apply_ite BitVec.toNat]; rfl
  case nmin =>
    show min o.toNat x.toNat = _
    rw [apply_ite BitVec.toNat, Nat.min_def]
    simp only [BitVec.lt_def]
    split <;> split <;> omega
  case nmax =>
    show max o.toNat x.toNat = _
    rw [apply_ite BitVec.toNat, Nat.max_def]
    simp only [BitVec.lt_def]
    split <;> split <;> omega
  case cas =>
    show (if o.toNat = y.toNat then x.toNat else o.toNat) = _
    rw [apply_ite BitVec.toNat]
    simp only [BitVec.toNat_inj]
  case incw =>
    show (if x.toNat ≤ o.toNat then 0 else o.toNat + 1) = _
    rw [apply_ite BitVec.toNat]
    simp only [BitVec.le_def]
    split
    · simp
    · have := x.isLt
      rw [BitVec.toNat_add, h1, Nat.mod_eq_of_lt (by omega)]
  case decw =>
    show (if o.toNat = 0 ∨ x.toNat < o.toNat then x.toNat else o.toNat - 1) = _
    rw [apply_ite BitVec.toNat]
    simp only [BitVec.lt_def, ← BitVec.toNat_inj, hz]
    split
    · rfl
    · have := o.isLt
      rw [BitVec.toNat_sub, h1, show 2 ^ w - 1 + o.toNat = o.toNat - 1 + 2 ^ w by omega,
        Nat.add_mod_right, Nat.mod_eq_of_lt (by omega)]

/-! ## Atomics -/

/-- The further effect of an atomic whose lanes came to q (R331, R525). -/
def atomRest (f : AAtom) (aop w : Nat) (c : Ctx) (addr : Nat → W64) (q : AtomOut) (x : State) : State :=
  let y := (x.toUnit c f aop w q.st.nextId addr q.unit).postAtoms c f aop w q.st.nextId (combineLanes q.out)
  if f.r = 1 ∧ q.bad ≠ [] then y.modCur (fun g => g.fail (.v f.d) q.st.nextId (q.bad.map (fun l => (l, addr l)))) else y

/-- Nothing more where every lane was performed at once. -/
theorem atomRest_here (f : AAtom) (aop w : Nat) (c : Ctx) (addr : Nat → W64) (vals : List (Nat × Nat)) (t : State) :
    atomRest f aop w c addr ⟨vals, [], [], [], t⟩ = id := by
  funext x
  exact if_neg (fun e => e.2 rfl)

/-- A lane at a place of the scratchpad or of its own window is performed at once, and no cache is concerned (R291). -/
theorem atomLanes_local {t : State} {c : Ctx} {f : AAtom} {aop w l : Nat} {p : Place} {ls : List (Nat × Place)} (h : ∀ ps, p ≠ .global ps) :
    t.atomLanes c f aop w ((l, p) :: ls) =
      (let v := t.atomAt c aop w l (c.src.readN f.b l) (c.src.readN f.d l) p
       let r := v.2.atomLanes c f aop w ls
       { r with vals := (l, v.1) :: r.vals }) := by
  have hc : t.atomCaches c f.s [] = t := by
    unfold State.atomCaches
    split <;> rfl
  cases p with
  | global ps => exact absurd rfl (h ps)
  | scratch o => exact congrArg (fun s : State => (let v := s.atomAt c aop w l (c.src.readN f.b l) (c.src.readN f.d l) (.scratch o)
      let r := v.2.atomLanes c f aop w ls
      ({ r with vals := (l, v.1) :: r.vals } : AtomOut))) hc
  | priv o => exact congrArg (fun s : State => (let v := s.atomAt c aop w l (c.src.readN f.b l) (c.src.readN f.d l) (.priv o)
      let r := v.2.atomLanes c f aop w ls
      ({ r with vals := (l, v.1) :: r.vals } : AtomOut))) hc

/-- All lanes at such places: each sees what those before it left (R290, R291). -/
theorem atomLanes_performed (c : Ctx) (f : AAtom) (aop w : Nat) (at_ : Nat → Place) (ls : List Nat) (t : State)
    (h : ∀ l ∈ ls, ∀ ps, at_ l ≠ .global ps) :
    t.atomLanes c f aop w (ls.map (fun l => (l, at_ l))) =
      ⟨(performed c f aop w at_ ls t).1, [], [], [], (performed c f aop w at_ ls t).2⟩ := by
  induction ls generalizing t with
  | nil => rfl
  | cons l ls ih =>
    rw [List.map_cons, atomLanes_local (h l List.mem_cons_self)]
    dsimp only
    rw [ih _ (fun k hk => h k (List.mem_cons_of_mem _ hk))]
    rfl

/-- One lane at a global address whose line this package performs at once (R291, R292). -/
theorem atomLanes_global {t : State} {c : Ctx} {f : AAtom} {aop w l : Nat} {p : Piece} (h : Readable t (.global [p]))
    (hs : ¬ (f.s = 2 ∧ t.cacheable p.pa p.attr = true)) :
    let q := t.atomCaches c f.s [p]
    let v := q.atomAt c aop w l (c.src.readN f.b l) (c.src.readN f.d l) (.global [p])
    t.atomLanes c f aop w [(l, .global [p])] = ⟨[(l, v.1)], [], [], [], v.2⟩ := by
  obtain ⟨⟨ho, _⟩, hb⟩ := h
  simp only [State.atomLanes, State.atomTo, ho, hb, if_neg hs, Bool.false_eq_true, if_false]
  rfl

/-- The lanes of an accepted atomic with their places. -/
theorem pairs_of_accepted (ls : List Nat) (at_ : Nat → Place) :
    (ls.map (fun l => (l, (Except.ok (at_ l) : Except Cause Place)))).filterMap (fun x => x.2.toOption.map (fun p => (x.1, p))) =
      ls.map (fun l => (l, at_ l)) := filterMap_map_some ls (fun _ => rfl)

/-- An ATOM word (R286, R289 to R292). -/
theorem atomWord_law {i : Instr} {aop : Nat} {f : AAtom} (he : ∀ s, exec i s = groupWord (s.uses i) s (atomGroup aop f)) :
    AtomWord i aop f := by
  intro s c h
  have hx := exec_ready h _ (he s)
  rw [atomGroup] at hx
  dsimp only at hx
  intro w sh good waits addr k zeros out olds
  have hnone : ({ out [] with err := none } : Out) = out [] := by
    show ({ (if f.r = 1 then Out.v f.d sh [] else Out.none) with err := none } : Out) = if f.r = 1 then Out.v f.d sh [] else Out.none
    split <;> rfl
  have hgood : (c.src.shape f.a ≠ .p64 ∨ c.src.shape f.b ≠ sh ∨ (aop = 9 ∧ c.src.shape f.d ≠ sh)) ↔ ¬ good := by
    simp only [good, Classical.not_and_iff_not_or_not, Classical.not_imp]
  refine ⟨fun hd => deliversFrom_of hx (if_pos hd), fun hd hg => ?shape, fun hd hg hw => ?held, fun hd hg hw x t hr => ?refused,
    fun hd hg hw at_ t ha ht => ?stalls, fun hd hg hw at_ t ha ht => ?goes⟩
  all_goals rw [if_neg hd] at hx
  case shape => exact traps_of hx (if_pos (hgood.2 hg))
  all_goals rw [if_neg (fun e => hgood.1 e hg)] at hx
  case held => exact holds_of hx (if_pos hw)
  all_goals rw [if_neg hw] at hx
  case refused =>
    obtain ⟨rs, hp, htrap⟩ := hr
    rw [hp] at hx
    dsimp only at hx
    rw [htrap] at hx
    rw [show ((some x).isNone && t.stalls rs) = false from rfl, if_neg Bool.false_ne_true] at hx
    refine admits_of hx (fun hf => ⟨fun y hy => traps_of hx (takeIn_err hf hy _), fun hy => by cases hy⟩)
  case stalls =>
    rw [ha] at hx
    dsimp only at hx
    rw [accTrap_none _ (accepted_ok c.doers at_)] at hx
    exact holds_of hx (if_pos ht)
  case goes =>
    rw [ha] at hx
    dsimp only at hx
    rw [accTrap_none _ (accepted_ok c.doers at_), pairs_of_accepted] at hx
    let q := fun (x : State) => x.atomLanes c f aop w (c.doers.map (fun l => (l, at_ l)))
    have hq : exec i s = .next (c.finish (s.uses i) s (c.takeIn (s.uses i) (out []) t (fun x =>
        .done (atomRest f aop w c addr (q x) (c.apply (s.uses i) (s.uses i).cls (olds (q x).vals) (numbered (q x).st)))))) := by
      rw [hx, Option.isNone_none, Bool.true_and, if_neg (ne_true_of_eq_false ht), ← hnone]
      rfl
    refine admits_of hq (fun hf => ?_)
    rw [takeIn_fits hf (congrArg Out.err hnone).symm] at hq
    refine ⟨fun hl => ?_, fun l p hl hp hr hs => ?_, hq⟩
    · have hv := atomLanes_performed c f aop w at_ c.doers t hl
      rw [show q t = _ from hv, atomRest_here] at hq
      exact hq
    · have hv := atomLanes_global (c := c) (f := f) (aop := aop) (w := w) (l := l) (hp ▸ hr) hs
      have hqt : q t = t.atomLanes c f aop w [(l, .global [p])] := by
        show t.atomLanes c f aop w (c.doers.map (fun l => (l, at_ l))) = _
        rw [hl, List.map_singleton, hp]
      rw [hqt.trans hv, atomRest_here] at hq
      rw [hp]
      exact hq

/-- Settles O23: the fifteen operations by one law. -/
theorem atomicsPerform : Obligations.AtomicsPerform := fun _ =>
  ⟨atomWord_law (fun _ => rfl), atomWord_law (fun _ => rfl), atomWord_law (fun _ => rfl), atomWord_law (fun _ => rfl),
    atomWord_law (fun _ => rfl), atomWord_law (fun _ => rfl), atomWord_law (fun _ => rfl), atomWord_law (fun _ => rfl),
    atomWord_law (fun _ => rfl), atomWord_law (fun _ => rfl), atomWord_law (fun _ => rfl), atomWord_law (fun _ => rfl),
    atomWord_law (fun _ => rfl), atomWord_law (fun _ => rfl), atomWord_law (fun _ => rfl)⟩

/-! ## Granules -/

/-- Numbered elements of a list of numbers. -/
theorem lmapIdx_upto {α : Type} (f : Nat → α) (m n : Nat) :
    lmapIdx (fun k x => (k, x)) m ((upto m n).map f) = (upto m n).map (fun r => (r, f r)) := by
  induction n generalizing m with
  | zero => rfl
  | succ n ih => rw [upto, List.map_cons, List.map_cons, lmapIdx, ih]

/-- A granule whose rows are all accepted. -/
def granAt (rows : Nat) (at_ : (Nat × Nat × Bool) → Nat → Place) (g : Nat × Nat × Bool) : Gran :=
  (g, (upto 0 rows).map (fun r => (g.2.1, .ok (at_ g r))))

/-- It is the granule that it is. -/
theorem granAt_fst (rows : Nat) (at_ : (Nat × Nat × Bool) → Nat → Place) (g : Nat × Nat × Bool) : (granAt rows at_ g).1 = g := rfl

/-- Its rows raise no trap. -/
theorem granAt_ok (rows : Nat) (at_ : (Nat × Nat × Bool) → Nat → Place) (g : Nat × Nat × Bool) : ∀ x ∈ (granAt rows at_ g).2, x.2.isOk = true := by
  intro x hx
  obtain ⟨r, _, rfl⟩ := List.mem_map.1 hx
  rfl

/-- Its helpers receive no zeros for a fault. -/
theorem granZero_accepted (addr : Nat → W64) (rows : Nat) (at_ : (Nat × Nat × Bool) → Nat → Place) (g : Nat × Nat × Bool) :
    granZero addr (granAt rows at_ g) = false := by
  unfold granZero
  rw [accTrap_none addr (granAt_ok rows at_ g)]
  exact Bool.and_false _

/-- Accepted granules raise no trap. -/
theorem granTrap_none (c : Ctx) (addr : Nat → W64) {xs : List (Nat × Except Cause Place)} (h : ∀ x ∈ xs, x.2.isOk = true) :
    c.granTrap xs addr = none := by
  unfold Ctx.granTrap
  rw [accTrap_none addr h]
  rfl

/-- The rows of accepted granules are all accepted. -/
theorem granRows_ok (rows : Nat) (at_ : (Nat × Nat × Bool) → Nat → Place) (gs : List (Nat × Nat × Bool)) :
    ∀ x ∈ (gs.map (granAt rows at_)).flatMap (·.2), x.2.isOk = true := by
  intro x hx
  obtain ⟨q, hq, hx⟩ := List.mem_flatMap.1 hx
  obtain ⟨g, _, rfl⟩ := List.mem_map.1 hq
  exact granAt_ok rows at_ g x hx

/-- The rows of accepted granules, in one list. -/
theorem granRows_eq (rows : Nat) (at_ : (Nat × Nat × Bool) → Nat → Place) (gs : List (Nat × Nat × Bool)) :
    (gs.map (granAt rows at_)).flatMap (·.2) = gs.flatMap (fun g => (upto 0 rows).map (fun r => (g.2.1, Except.ok (at_ g r)))) := by
  rw [List.flatMap_map]
  rfl

/-- The places of accepted granules. -/
theorem granRows_places (rows : Nat) (at_ : (Nat × Nat × Bool) → Nat → Place) (gs : List (Nat × Nat × Bool)) :
    (gs.flatMap (fun g => (upto 0 rows).map (fun r => (g.2.1, (Except.ok (at_ g r) : Except Cause Place))))).filterMap (fun x => x.2.toOption) =
      gs.flatMap (fun g => (upto 0 rows).map (at_ g)) := by
  rw [List.filterMap_flatMap]
  exact congrArg (fun f => gs.flatMap f) (funext fun g => filterMap_map_some _ (fun _ => rfl))

/-- The data of an accepted granule whose rows can all be returned. -/
theorem granBad_none {u : State} {addr : Nat → W64} {rows : Nat} {at_ : (Nat × Nat × Bool) → Nat → Place} {g : Nat × Nat × Bool}
    (h : ∀ r < rows, u.badPlace (at_ g r) = false) : u.granBad addr (granAt rows at_ g) = none := by
  unfold State.granBad
  rw [granZero_accepted, if_neg Bool.false_ne_true, List.find?_eq_none]
  intro k hk
  have hl : (granAt rows at_ g).2.length = rows := by rw [granAt, List.length_map, upto_zero, List.length_range]
  rw [hl, upto_zero, List.mem_range] at hk
  have hg : (granAt rows at_ g).2[k]? = some (g.2.1, .ok (at_ g k)) := by
    rw [granAt, upto_zero, List.getElem?_map, List.getElem?_range hk]
    rfl
  rw [hg]
  exact ne_true_of_eq_false (h k hk)

/-- Its records as memory holds them (R283). -/
theorem granRecords_accepted (u : State) (c : Ctx) (addr : Nat → W64) (rows : Nat) (at_ : (Nat × Nat × Bool) → Nat → Place)
    (g : Nat × Nat × Bool) :
    u.granRecords c addr (granAt rows at_ g) = (upto 0 rows).map (fun r => u.readPlace c.wg c.who.grp g.2.1 33 (at_ g r)) := by
  unfold State.granRecords
  rw [granZero_accepted]
  exact List.map_map

/-- The granules whose data can be returned. -/
def granGood (u : State) (addr : Nat → W64) (gs : List Gran) : List Gran := gs.filter (fun g => (u.granBad addr g).isNone)

/-- The lanes of the others, each with the address of its granule's first bad record (R287). -/
def granLost (u : State) (addr : Nat → W64) (gs : List Gran) : List (Nat × W64) := gs.flatMap (fun g => match u.granBad addr g with
  | none => []
  | some k => (upto 0 8).map (fun i => (8 * g.1.1 + i, addr g.1.2.1 + BitVec.ofNat 64 (33 * k))))

/-- What LDG does with the granules that it has read (R283, R287). -/
def granTakes (f : MGran) (us : Uses) (c : Ctx) (addr : Nat → W64) (u : State) (good : List Gran) (bad : List (Nat × W64)) : Did :=
  let recs := good.map (fun g => (g.1.1, u.granRecords c addr g))
  let n := c.grp.width / 8
  let vals := recs.flatMap (fun x => (upto 0 8).map (fun i => (8 * x.1 + i, recElem x.2 i)))
  let sides := recs.flatMap (fun x => lmapIdx (fun k (b : List Byte) => (k * n + x.1, b.getD 32 0)) 0 x.2)
  let b := u.fresh
  let t := c.apply us us.cls { Out.v f.d (c.src.shape f.d) vals with sides := [(f.d, sides)] }
    (if bad = [] then u else b.2)
  .done (if bad = [] then t else t.modCur (fun g => g.fail (.v f.d) b.1 bad))

section
variable {u : State} {addr : Nat → W64} {rows : Nat} {at_ : (Nat × Nat × Bool) → Nat → Place} {gs : List (Nat × Nat × Bool)}

/-- All granules can be returned. -/
theorem granGood_all (h : ∀ g ∈ gs, ∀ r < rows, u.badPlace (at_ g r) = false) :
    granGood u addr (gs.map (granAt rows at_)) = gs.map (granAt rows at_) := by
  refine List.filter_eq_self.2 (fun q hq => ?_)
  obtain ⟨g, hg, rfl⟩ := List.mem_map.1 hq
  rw [granBad_none (h g hg)]
  rfl

/-- Then no lane is lost. -/
theorem granLost_nil (h : ∀ g ∈ gs, ∀ r < rows, u.badPlace (at_ g r) = false) : granLost u addr (gs.map (granAt rows at_)) = [] := by
  refine List.flatMap_eq_nil_iff.2 (fun q hq => ?_)
  obtain ⟨g, hg, rfl⟩ := List.mem_map.1 hq
  rw [granBad_none (h g hg)]

/-- The granules' lanes and side bytes, from their records (R283). -/
theorem granTakes_all (f : MGran) (us : Uses) (c : Ctx) :
    let rec_ := fun (g : Nat × Nat × Bool) => (upto 0 rows).map (fun r => u.readPlace c.wg c.who.grp g.2.1 33 (at_ g r))
    granTakes f us c addr u (gs.map (granAt rows at_)) [] = .done (c.apply us us.cls
      { Out.v f.d (c.src.shape f.d) (gs.flatMap (fun g => (upto 0 8).map (fun i => (8 * g.1 + i, recElem (rec_ g) i)))) with
        sides := [(f.d, gs.flatMap (fun g => lmapIdx (fun k (b : List Byte) => (k * (c.grp.width / 8) + g.1, b.getD 32 0)) 0 (rec_ g)))] }
      u) := by
  simp only [granTakes, List.map_map, List.flatMap_map, Function.comp_def, granRecords_accepted, if_true, granAt_fst]

end

/-- LDG where every record is accepted (R283). -/
theorem ldg_accepted {f : MGran} {s t : State} {c : Ctx} {at_ : (Nat × Nat × Bool) → Nat → Place} (h : Ready (.ldg f) c s)
    (hs : c.src.shape f.a = .p64)
    (hp : s.allGranPlaces c (Acc.plain .read 1 33 false f.h) (addrOf f.a f.o 33 c) (c.src.shape f.d).rows c.granLanes =
      (c.granLanes.map (granAt (c.src.shape f.d).rows at_), t)) :
    let rows := (c.src.shape f.d).rows
    let n := c.grp.width / 8
    let stalled := t.stalls (c.granLanes.flatMap (fun g => (upto 0 rows).map (fun r => (g.2.1, .ok (at_ g r)))))
    (stalled = true → Holds (.ldg f) c s) ∧
    (stalled = false →
      let u := t.l1Reads c.core c.wg.asid f.h c.src.ctrl.hint.toNat
        (t.herePieces (c.granLanes.flatMap (fun g => (upto 0 rows).map (at_ g))))
      Admits (.ldg f) c (Out.v f.d (c.src.shape f.d) []) t s (
        (∀ g ∈ c.granLanes, ∀ r < rows, u.badPlace (at_ g r) = false) →
        let rec_ := fun (g : Nat × Nat × Bool) => (upto 0 rows).map (fun r => u.readPlace c.wg c.who.grp g.2.1 33 (at_ g r))
        Completes (.ldg f) c
          { Out.v f.d (c.src.shape f.d) (c.granLanes.flatMap (fun g => (upto 0 8).map (fun i => (8 * g.1 + i, recElem (rec_ g) i)))) with
            sides := [(f.d, c.granLanes.flatMap (fun g => lmapIdx (fun k (b : List Byte) => (k * n + g.1, b.getD 32 0)) 0 (rec_ g)))] }
          u id s)) := by
  have hx := exec_ready h _ (by unfold exec execLdg; exact rfl)
  dsimp only at hx
  rw [if_neg (not_not_intro hs), addr_eq, hp] at hx
  dsimp only at hx
  have hz : ∀ g ∈ c.granLanes.map (granAt (c.src.shape f.d).rows at_), (!granZero (addrOf f.a f.o 33 c) g) = true := by
    intro g hg
    obtain ⟨k, _, rfl⟩ := List.mem_map.1 hg
    rw [granZero_accepted]; rfl
  rw [List.filter_eq_self.2 hz, granTrap_none _ _ (granRows_ok _ _ _), granRows_eq, granRows_places, Option.isNone_none, Bool.true_and] at hx
  refine ⟨fun ht => holds_of hx (if_pos ht), fun ht => ?_⟩
  rw [if_neg (ne_true_of_eq_false ht)] at hx
  refine admits_of hx (fun hf hb => ?_)
  rw [takeIn_fits (fits_with_err hf none) rfl] at hx
  let u := t.l1Reads c.core c.wg.asid f.h c.src.ctrl.hint.toNat
    (t.herePieces (c.granLanes.flatMap (fun g => (upto 0 (c.src.shape f.d).rows).map (at_ g))))
  let gs := c.granLanes.map (granAt (c.src.shape f.d).rows at_)
  have hq : exec (.ldg f) s = .next (c.finish (s.uses (.ldg f)) s (granTakes f (s.uses (.ldg f)) c (addrOf f.a f.o 33 c) u
    (granGood u (addrOf f.a f.o 33 c) gs) (granLost u (addrOf f.a f.o 33 c) gs))) := hx
  rw [granGood_all hb, granLost_nil hb, granTakes_all] at hq
  exact hq

/-- A store of accepted granules takes each one's rows in order. -/
theorem granStores (s : State) (rows : Nat) (at_ : (Nat × Nat × Bool) → Nat → Place) (gs : List (Nat × Nat × Bool))
    (store : (Nat × Nat × Bool) → State → Nat → Place → State) :
    (gs.map (granAt rows at_)).foldl (fun x g => (lmapIdx (fun k y => (k, y)) 0 g.2).foldl (fun x y => match y.2.2 with
      | .error _ => x
      | .ok p => store g.1 x y.1 p) x) s =
    gs.foldl (fun x g => (upto 0 rows).foldl (fun x r => store g x r (at_ g r)) x) s := by
  simp only [List.foldl_map, granAt, lmapIdx_upto]

/-- STG where every record is accepted (R283). -/
theorem stg_accepted {f : MGran} {s t : State} {c : Ctx} {at_ : (Nat × Nat × Bool) → Nat → Place} (h : Ready (.stg f) c s)
    (hs : c.src.shape f.a = .p64) (hn : c.granLanes.filter (fun g => !g.2.2) ≠ [])
    (hp : s.allGranPlaces c (Acc.plain .write 1 33 false f.h) (addrOf f.a f.o 33 c) (c.src.shape f.d).rows
      (c.granLanes.filter (fun g => !g.2.2)) = ((c.granLanes.filter (fun g => !g.2.2)).map (granAt (c.src.shape f.d).rows at_), t)) :
    let rows := (c.src.shape f.d).rows
    let stored := c.granLanes.filter (fun g => !g.2.2)
    let stalled := t.stalls (stored.flatMap (fun g => (upto 0 rows).map (fun r => (g.2.1, .ok (at_ g r)))))
    (stalled = true → Holds (.stg f) c s) ∧
    (stalled = false → DeliversFrom (.stg f) c Out.none t (fun x => stored.foldl (fun x g =>
      (upto 0 rows).foldl (fun x r => x.storePlace c.who c.wg.asid g.2.1 f.h (addrOf f.a f.o 33 c g.2.1)
        ((c.src.vreg f.d).record c.grp.width r g.1) (at_ g r)) x) x) s) := by
  have hx := exec_ready h _ (by unfold exec execStg; exact rfl)
  dsimp only at hx
  rw [if_neg hn, if_neg (not_not_intro hs), addr_eq, show (c.src.vreg f.d).shape = c.src.shape f.d from rfl, hp] at hx
  dsimp only at hx
  rw [granTrap_none _ _ (granRows_ok _ _ _), granRows_eq] at hx
  refine ⟨fun ht => holds_of hx (if_pos ht), fun ht => deliversFrom_of hx ((if_neg (ne_true_of_eq_false ht)).trans ?_)⟩
  refine congrArg (fun f' => c.commit (s.uses (.stg f)) Out.none t (fun x => .done (f' x))) (funext fun x => ?_)
  exact granStores x _ at_ _ (fun g x r p => x.storePlace c.who c.wg.asid g.2.1 f.h (addrOf f.a f.o 33 c g.2.1)
    ((c.src.vreg f.d).record c.grp.width r g.1) p)

/-- Settles O20: LDG and STG, each where its records are accepted. -/
theorem granulesMove : Obligations.GranulesMove := by
  intro f s c t
  refine ⟨fun h hs => ?ldgShape, fun at_ h hs hp => ldg_accepted h hs hp, fun h hn => ?none_, fun h hn hs => ?stgShape,
    fun at_ h hs hn hp => stg_accepted h hs hn hp⟩
  case ldgShape => exact traps_of (exec_ready h _ (by unfold exec execLdg; exact rfl)) (if_pos hs)
  case none_ => exact deliversFrom_of (exec_ready h _ (by unfold exec execStg; exact rfl)) (if_pos hn)
  case stgShape => exact traps_of (exec_ready h _ (by unfold exec execStg; exact rfl)) ((if_neg hn).trans (if_pos hs))

end Sys2Proof.Laws
end

section
/-!
SUPPORT. The LAUNCH words (R342, R405 to R412, R509), and the statement about them.
-/
namespace Sys2Proof.Laws
open Sys2Proof.Machine Sys2Proof.Safety

/-- A grab (R342): how many indices, and the descriptor moved on by as many. -/
theorem grab_eq (r : RangeDesc) (asid : Nat) :
    let rem := r.fin.toNat - r.next.toNat
    let n := if r.asid ≠ asid ∨ r.fin.toNat ≤ r.next.toNat then 0
      else min rem (max (max r.min.toNat 1) ((rem + max r.div.toNat 1 - 1) / max r.div.toNat 1))
    r.grab asid = (n, { r with next := r.next + BitVec.ofNat 32 n }) := by
  intro rem n
  unfold RangeDesc.grab
  by_cases h : r.asid ≠ asid ∨ r.fin.toNat ≤ r.next.toNat
  · have hn : n = 0 := if_pos h
    rw [if_pos h, hn, show BitVec.ofNat 32 0 = 0#32 from rfl, BitVec.add_zero]
  · have hn : n = _ := if_neg h
    rw [if_neg h, hn]

/-- RGRAB.SET (R342). -/
theorem rgrabSet_acts {c0 a b k : Nat} {s : State} {c : Ctx} (h : Ready (.rgrabSet c0 a b k) c s) :
    (c.src.shape a ≠ .p64 ∨ c.src.shape b ≠ .p32 → Traps (.rgrabSet c0 a b k) c (faultOf c .shape) s) ∧
    (c.src.shape a = .p64 → c.src.shape b = .p32 →
      let r : RangeDesc := { fin := (low64 c a).extractLsb' 32 32, next := (low64 c a).extractLsb' 0 32, asid := c.wg.asid,
                             min := (low32 c b).extractLsb' 16 16, div := (low32 c b).extractLsb' 0 16 }
      Delivers (.rgrabSet c0 a b k) c Out.none (fun t => onWg (fun w => { w with grabbed := true })
        (t.modCluster (coreCluster c.core) (fun y => { y with ranges := tset y.ranges k r }))) s) := by
  have he := exec_ready h _ (by unfold exec execRgrabSet; exact rfl)
  refine ⟨fun hs => traps_of he ?_, fun ha hb => deliversFrom_of he ?_⟩
  · rcases hs with hs | hs
    · rw [lowP64_of_ne hs]; rfl
    · rw [lowP32_of_ne hs]; cases c.lowP64 a <;> rfl
  · rw [lowP64_of_shape ha, lowP32_of_shape hb]
    rfl

/-- The launch values by their codes (R411). -/
theorem sread_value (s : State) (c : Ctx) (l : Nat) {k : Nat} (hk : k < 23) :
    let p := c.wg.launch
    let word := fun (j : Nat) => ((c.grp.lane l).record.map BitVec.toNat).getD 0 / 2 ^ (32 * j)
    s.sreadValue c k l % 2 ^ 32 =
      List.getD [l, c.who.grp, c.wg.width, c.wg.wx, c.wg.wy, c.wg.wz, lpGridX p, lpGridY p, lpGridZ p, coreSite c.core, coreSite c.core / 4,
        coreDie c.core, if s.pkg.self = 127 then 0 else s.pkg.self.toNat, c.wg.part,
        if c.wg.source = 256 then 0xFFFFFFFF else coreDie c.core * 256 + c.wg.source, lpArgs p, lpArgs p / 2 ^ 32, c.wg.depth,
        if (c.grp.lane l).helper then 1 else 0, word 0, word 1, word 2, word 3] k 0 % 2 ^ 32 := by
  intro p word
  have h0 : ∀ n : Nat, n / 2 ^ (32 * 0) = n := fun n => Nat.div_one n
  have hm : ∀ n : Nat, n % 2 ^ 32 % 2 ^ 32 = n % 2 ^ 32 := fun n => Nat.mod_mod _ _
  match k, hk with
  | 15, _ | 20, _ | 21, _ | 22, _ => exact hm _
  | 19, _ => exact (hm _).trans (by rw [show word 0 = _ from h0 _]; rfl)
  | 0, _ | 1, _ | 2, _ | 3, _ | 4, _ | 5, _ | 6, _ | 7, _ | 8, _ | 9, _ | 10, _ | 11, _ | 12, _ | 13, _ | 14, _ | 16, _ | 17, _ | 18, _ => rfl
  | k + 23, hk => exact absurd hk (by omega)

/-- SREAD (R411). -/
theorem sread_acts {c0 d k : Nat} {s : State} {c : Ctx} (h : Ready (.sread c0 d k) c s) :
    (23 ≤ k → Traps (.sread c0 d k) c ⟨.illegalOp, listMask c.path, 0⟩ s) ∧
    (k < 23 → Delivers (.sread c0 d k) c (Out.v d .p32 (lanes c (fun l => elemN (s.sreadValue c k l % 2 ^ 32)))) id s) := by
  have he := exec_ready h _ (by unfold exec execSread; exact rfl)
  exact ⟨fun hk => traps_of he (if_pos hk), fun hk => deliversFrom_of he (if_neg (by omega))⟩

/-- ENERGY.Q (R509). -/
theorem energyQ_acts {c0 d a : Nat} {s : State} {c : Ctx} (h : Ready (.energyQ c0 d a) c s) (ha : c.src.shape a = .p32) :
    let n := (low32 c a).toNat
    let mine := n ≤ 0x3FF ∧ ((s.die (n / 256)).queue (n % 256)).part.toNat = c.wg.part
    (mine → Gives (.energyQ c0 d a) c d .p64 ((tgetD (s.die (n / 256)).queueEnergy (n % 256) 0).setWidth 128) id s) ∧
    (¬ mine → Fits (.energyQ c0 d a) c (Out.v d .p64 []) s → Traps (.energyQ c0 d a) c (faultFor c .access (BitVec.ofNat 64 n)) s) := by
  have he := exec_ready h _ (by unfold exec execEnergyQ; exact rfl)
  rw [lowP32_of_shape ha] at he
  dsimp only at he
  refine ⟨fun hm => deliversFrom_of he (if_neg ?_), fun hm hf => traps_of he ((if_pos ?_).trans (commit_err (fits_with_err hf _) rfl _))⟩
  · rintro (h1 | h2)
    · exact absurd hm.1 (by omega)
    · exact h2 hm.2
  · rcases Classical.not_and_iff_not_or_not.1 hm with h1 | h2
    · exact .inl (by omega)
    · exact .inr h2

/-! ## ENQ -/

/-- A lane whose packet's data cannot be returned (R287). -/
def lostLane (u : State) (y : Nat × Except Cause Place) : Bool := match y.2 with
  | .ok p => u.badPlace p
  | .error _ => false

/-- What ENQ reads of the lanes of a list: their queues and packets (R405). -/
def enqRead (u : State) (c : Ctx) (b : Nat) (rs : List (Nat × Except Cause Place)) : List EnqLane :=
  rs.map (fun y => (y.1, c.src.readN b y.1, match y.2 with
    | .ok p => BitVec.ofNat 512 (leNat (u.readPlace c.wg c.who.grp y.1 64 p))
    | .error _ => 0))

/-- What ENQ does with what it has read, `lost` of its lanes being unread (R405 to R407). -/
def enqTakes (us : Uses) (q : Nat) (c : Ctx) (addr : Nat → W64) (u : State) (xs : List EnqLane) (lost : List (Nat × Except Cause Place)) : Did :=
  let wrong := (xs.filter (fun y => u.enqBad c y (enqBefore c xs y.1 y.2.1))).map (·.1)
  if wrong ≠ [] then faultAt .enqFault wrong (addr (wrong.headD 0)) u
  else c.commit us (Out.q q (c.allQ .f)) u (fun s =>
    let e := s.enqAll c xs
    let n := e.2.fresh
    let bad := lost.map (fun y => (y.1, addr y.1))
    .done (if bad = [] then e.2.putPreds q e.1 else (n.2.putPreds q e.1).modCur (fun g => g.fail (.q q) n.1 bad)))

/-- No lane of a readable list is lost. -/
theorem lostLane_none {u : State} {ls : List Nat} {at_ : Nat → Place} (h : ∀ l ∈ ls, u.badPlace (at_ l) = false) :
    ∀ y ∈ ls.map (fun l => (l, (Except.ok (at_ l) : Except Cause Place))), lostLane u y = false := by
  intro y hy
  obtain ⟨l, hl, rfl⟩ := List.mem_map.1 hy
  exact h l hl

/-- An accepted ENQ whose packets can all be read. -/
theorem enq_accepted {c0 q a b : Nat} {s t : State} {c : Ctx} {at_ : Nat → Place} (h : Ready (.enq c0 q a b) c s)
    (ha : c.src.shape a = .p64) (hb : c.src.shape b = .p32)
    (hp : Accepted s c (Acc.plain .read 64 64 false 0) c.act (fun l => (c.src.read a l).setWidth 64) at_ t) :
    let u := t.l1Reads c.core c.wg.asid 0 c.src.ctrl.hint.toNat (t.herePieces (c.act.map at_))
    let xs : List EnqLane := c.act.map (fun l => (l, c.src.readN b l, BitVec.ofNat 512 (leNat (u.readPlace c.wg c.who.grp l 64 (at_ l)))))
    (t.stalls (c.act.map (fun l => (l, .ok (at_ l)))) = true → Holds (.enq c0 q a b) c s) ∧
    (t.stalls (c.act.map (fun l => (l, .ok (at_ l)))) = false → (∀ l ∈ c.act, u.badPlace (at_ l) = false) →
      exec (.enq c0 q a b) s = .next (c.finish (s.uses (.enq c0 q a b)) s
        (enqTakes (s.uses (.enq c0 q a b)) q c (fun l => (c.src.read a l).setWidth 64) u xs []))) := by
  intro u xs
  have hx := exec_ready h _ (by unfold exec execEnq; exact rfl)
  rw [if_neg (not_or.2 ⟨not_not_intro ha, not_not_intro hb⟩)] at hx
  dsimp only at hx
  rw [hp] at hx
  dsimp only at hx
  rw [accTrap_none _ (fun r hm => accepted_ok c.act at_ r (List.mem_filter.1 hm).1), places_of_accepted] at hx
  refine ⟨fun ht => holds_of hx (if_pos ht), fun ht hr => ?_⟩
  let rs := c.act.map (fun l => (l, (Except.ok (at_ l) : Except Cause Place)))
  have hq : exec (.enq c0 q a b) s = .next (c.finish (s.uses (.enq c0 q a b)) s
      (enqTakes (s.uses (.enq c0 q a b)) q c (fun l => (c.src.read a l).setWidth 64) u
        (enqRead u c b (rs.filter (fun y => !lostLane u y))) (rs.filter (lostLane u)))) :=
    hx.trans (congrArg _ (congrArg _ (if_neg (ne_true_of_eq_false ht))))
  have hl := lostLane_none hr
  have hk : rs.filter (fun y => !lostLane u y) = rs := List.filter_eq_self.2 (fun y hy => by rw [hl y hy]; rfl)
  have hn : rs.filter (lostLane u) = [] := List.filter_eq_nil_iff.2 (fun y hy => by rw [hl y hy]; exact Bool.false_ne_true)
  rw [hk, hn, show enqRead u c b rs = xs from List.map_map] at hq
  exact hq

/-- A word's completion looks at its further effect in one state only. -/
theorem deliversFrom_congr {i : Instr} {c : Ctx} {o : Out} {t s : State} {f g : State → State} (h : DeliversFrom i c o t f s)
    (hf : f (c.apply (s.uses i) (s.uses i).cls o t) = g (c.apply (s.uses i) (s.uses i).cls o t)) : DeliversFrom i c o t g s := by
  obtain ⟨h1, h2, h3, h4, h5⟩ := h
  refine ⟨h1, h2, h3, h4, fun hfit => ⟨(h5 hfit).1, fun he => ?_⟩⟩
  have := (h5 hfit).2 he
  unfold Completes completed at this ⊢
  rw [this, hf]

/-- A word's results leave the dies alone. -/
@[simp] theorem apply_dies (c : Ctx) (u : Uses) (k : Cls) (o : Out) (s : State) : (c.apply u k o s).dies = s.dies := by
  unfold Ctx.apply
  exact State.modCur_dies _ _

/-- One lane enqueues where no released packet waits for its queue (R407, R408). -/
theorem enqAll_one (y : State) (c : Ctx) (x : EnqLane) (hh : (c.grp.lane x.1).helper = false)
    (hr : ((y.die (coreDie c.core)).queue x.2.1).released = []) :
    let k := (y.die (coreDie c.core)).queue x.2.1
    y.enqAll c [x] = if k.cap ≤ k.held then ([(x.1, .f)], y)
      else ([(x.1, .t)], (y.ringWrite (coreDie c.core) x.2.1 x.2.2 c.wg.tree (c.wg.depth + 1)).treeEvent (coreDie c.core) c.wg.tree 1) := by
  intro k
  have ho : y.enqOne c x = if k.cap ≤ k.held then (false, y)
      else (true, (y.ringWrite (coreDie c.core) x.2.1 x.2.2 c.wg.tree (c.wg.depth + 1)).treeEvent (coreDie c.core) c.wg.tree 1) := by
    unfold State.enqOne
    rw [if_neg (ne_true_of_eq_false hh), hr]
    dsimp only [List.length_nil, State.placeReleased]
    simp only [hr, ne_eq, not_true_eq_false, false_or, k]
  simp only [State.enqAll, ho]
  split <;> rfl

/-- ENQ (R405 to R407). -/
theorem enq_acts {c0 q a b : Nat} {s t : State} {c : Ctx} {at_ : Nat → Place} (h : Ready (.enq c0 q a b) c s) :
    let i : Instr := .enq c0 q a b
    let addr : Nat → W64 := fun l => (c.src.read a l).setWidth 64
    let u := t.l1Reads c.core c.wg.asid 0 c.src.ctrl.hint.toNat (t.herePieces (c.act.map at_))
    let packet : Nat → BitVec 512 := fun l => BitVec.ofNat 512 (leNat (u.readPlace c.wg c.who.grp l 64 (at_ l)))
    let xs : List EnqLane := c.act.map (fun l => (l, c.src.readN b l, packet l))
    let wrong := (xs.filter (fun y => u.enqBad c y (enqBefore c xs y.1 y.2.1))).map (·.1)
    (c.src.shape a ≠ .p64 ∨ c.src.shape b ≠ .p32 → Traps i c (faultOf c .shape) s) ∧
    (c.src.shape a = .p64 → c.src.shape b = .p32 → Accepted s c (Acc.plain .read 64 64 false 0) c.act addr at_ t →
      (t.stalls (c.act.map (fun l => (l, .ok (at_ l)))) = true → Holds i c s) ∧
      (t.stalls (c.act.map (fun l => (l, .ok (at_ l)))) = false → (∀ l ∈ c.act, u.badPlace (at_ l) = false) →
        (wrong ≠ [] → TrapsIn i c ⟨.enqFault, listMask wrong, addr (wrong.headD 0)⟩ u s) ∧
        (wrong = [] → DeliversFrom i c (Out.q q (preds c (fun _ => .f))) u (fun y => (y.enqAll c xs).2.putPreds q (y.enqAll c xs).1) s) ∧
        (∀ l, wrong = [] → c.act = [l] → (c.grp.lane l).helper = false →
          let d := coreDie c.core
          let k := (u.die d).queue (c.src.readN b l)
          k.released = [] →
          (k.held < k.cap → DeliversFrom i c (Out.q q [(l, .f)]) u (fun y =>
            ((y.ringWrite d (c.src.readN b l) (packet l) c.wg.tree (c.wg.depth + 1)).treeEvent d c.wg.tree 1).putPreds q [(l, .t)]) s) ∧
          (k.cap ≤ k.held → DeliversFrom i c (Out.q q [(l, .f)]) u (fun y => y.putPreds q [(l, .f)]) s)))) := by
  intro i addr u packet xs wrong
  refine ⟨fun hs => traps_of (exec_ready h _ (by unfold exec execEnq; exact rfl)) (if_pos hs), fun ha hb hp => ?_⟩
  obtain ⟨hw, hg⟩ := enq_accepted h ha hb hp
  refine ⟨hw, fun ht hr => ?_⟩
  have hx := hg ht hr
  unfold enqTakes at hx
  have hd : wrong = [] → DeliversFrom i c (Out.q q (preds c (fun _ => .f))) u (fun y => (y.enqAll c xs).2.putPreds q (y.enqAll c xs).1) s :=
    fun he => deliversFrom_of hx (if_neg (not_not_intro he))
  refine ⟨fun hn => traps_of hx (if_pos hn), hd, ?_⟩
  intro l he hl hh d k hk
  have hq : preds c (fun _ => .f) = [(l, .f)] := by rw [preds, hl]; rfl
  have hy : xs = [(l, c.src.readN b l, packet l)] := by show c.act.map _ = _; rw [hl]; rfl
  have hdie : ∀ o, (c.apply (s.uses i) (s.uses i).cls o u).die d = u.die d := fun o => by unfold State.die; rw [apply_dies]
  have hone := fun o => enqAll_one (c.apply (s.uses i) (s.uses i).cls o u) c (l, c.src.readN b l, packet l) hh (by rw [hdie]; exact hk)
  have hf := hd he
  rw [hq, hy] at hf
  refine ⟨fun hc => deliversFrom_congr hf ?_, fun hc => deliversFrom_congr hf ?_⟩
  · rw [hone, hdie, if_neg (by exact Nat.not_le.2 hc)]
  · rw [hone, hdie, if_pos hc]

/-- Settles O35: each word by its reply; ENQ by its lanes' packets. -/
theorem launchWordsReply : Obligations.LaunchWordsReply := by
  refine ⟨fun c0 d a b k s c => ⟨fun h => ?rgrab, fun h => rgrabSet_acts h, fun h => ⟨(sread_acts h).1, fun hk => ?sread⟩, fun h => ?time,
    fun h => ?energy, fun h ha => energyQ_acts h ha⟩, fun c0 q a b s c at_ t h => enq_acts h⟩
  case rgrab =>
    refine deliversFrom_of (exec_ready h _ (by unfold exec execRgrab; exact rfl)) ?_
    dsimp only
    rw [grab_eq]
    rfl
  case sread =>
    have := (sread_acts h).2 hk
    simp only [sread_value s c _ hk] at this
    exact this
  case time => exact deliversFrom_of (exec_ready h _ (by unfold exec execTime; exact rfl)) rfl
  case energy => exact deliversFrom_of (exec_ready h _ (by unfold exec execEnergy; exact rfl)) rfl

end Sys2Proof.Laws
end

section
/-!
SUPPORT. The access slice's words, the tensor identifiers and COPY (R230, R250 to R257, R300, R301), with the statement about them.
-/
namespace Sys2Proof.Laws
open Sys2Proof.Machine Sys2Proof.Safety

/-! ## ASLICE and AWAIT -/

/-- ASLICE (R254). -/
theorem aslice_acts {c0 q a b : Nat} {s : State} {c : Ctx} (h : Ready (.aslice c0 q a b) c s) (ha : c.src.shape a = .p64)
    (hb : c.src.shape b = .p64) :
    let free := c.wg.context = true ∧ c.wg.slice.running = false ∧ c.wg.slice.owes = false
    ((low64 c a).toNat % 12 ≠ 0 → Traps (.aslice c0 q a b) c (faultFor c .misaligned (low64 c a)) s) ∧
    ((low64 c a).toNat % 12 = 0 → ¬ free → Decides (.aslice c0 q a b) c q .f id s) ∧
    ((low64 c a).toNat % 12 = 0 → free → Decides (.aslice c0 q a b) c q .t
      (onWg (fun w => { w with slice := Slice.begin ((low64 c a).toNat / 4) (low64 c b) })) s) := by
  have he := exec_ready h _ (by unfold exec execAslice; exact rfl)
  rw [lowP64_of_shape ha, lowP64_of_shape hb] at he
  dsimp only at he
  have hfree : (c.wg.context = false ∨ c.wg.slice.running = true ∨ c.wg.slice.owes = true) ↔
      ¬ (c.wg.context = true ∧ c.wg.slice.running = false ∧ c.wg.slice.owes = false) := by
    rw [Classical.not_and_iff_not_or_not, Classical.not_and_iff_not_or_not, Bool.not_eq_true, Bool.not_eq_false, Bool.not_eq_false]
  exact ⟨fun hm => traps_of he (if_pos hm),
    fun hm hf => deliversFrom_of he ((if_neg (not_not_intro hm)).trans (if_pos (hfree.2 hf))),
    fun hm hf => deliversFrom_of he ((if_neg (not_not_intro hm)).trans (if_neg (fun e => hfree.1 e hf)))⟩

/-- A slice's end once its fault is delivered (R256). -/
theorem deliver_eq (x : Slice) : x.deliver = { x with ended := match x.ended with
    | .faulted z y _ => .faulted z y true
    | z => z } := by
  obtain ⟨live, xs, qs, pc, target, push, wait, ended, refusals⟩ := x
  cases ended <;> rfl

/-- AWAIT (R256). -/
theorem await_acts {c0 q : Nat} {s : State} {c : Ctx} (h : Ready (.await c0 q) c s) :
    (c.wg.slice.running = true → Sleeps (.await c0 q) c (numbered s) (c.waitFor s.nextId .slice none .p32 (some q)) s) ∧
    (c.wg.slice.running = false →
      (∀ cause addr, c.wg.slice.ended = .faulted cause addr false →
        exec (.await c0 q) s = .next (c.finish (s.uses (.await c0 q)) s (.trap ⟨cause, c.mask, addr⟩ true
          (s.modCurWg (fun w => { w with slice := w.slice.deliver }))))) ∧
      (∀ cause addr, c.wg.slice.ended = .faulted cause addr true → Decides (.await c0 q) c q .f id s) ∧
      (c.wg.slice.ended = .exited ∨ c.wg.slice.ended = .never → Decides (.await c0 q) c q .t id s)) := by
  have he := exec_ready h _ (by unfold exec execAwait; exact rfl)
  refine ⟨fun hr => sleeps_of he (if_pos hr), fun hr => ?_⟩
  rw [if_neg (ne_true_of_eq_false hr)] at he
  unfold Slice.result at he
  refine ⟨fun cause addr hf => ?_, fun cause addr hf => deliversFrom_of he ?_, fun hf => deliversFrom_of he ?_⟩
  · rw [he, hf]
  · rw [hf]; rfl
  · rcases hf with hf | hf <;> rw [hf] <;> rfl

/-! ## PUSHT -/

/-- PUSHT (R255). -/
theorem pusht_pushes {c0 f m x n : Nat} {s : State} {y : Slice} {w : Workgroup} {e : BitVec 512} (h : SliceReady (.pusht c0 f m x n) y s)
    (hw : s.curWg = some w) (hx : x ≤ 12) (hv : s.viewEntry w m = .ok e) :
    let split := fmtBlock (tidFormat e) = true ∧ (y.reg x).toNat % 2 ^ 32 % fmtBlockSize (tidFormat e) ≠ 0
    (tidOk e = true ∧ fmtMatrix (tidFormat e) = true → ¬ split → (w.fifo f).cap ≠ 0 →
      let p : Push := { fifo := f, entry := e, i0 := (y.reg x).toNat % 2 ^ 32, i1 := (y.reg (x + 1)).toNat % 2 ^ 32,
                        i2 := (y.reg (x + 2)).toNat % 2 ^ 32, i3 := (y.reg (x + 3)).toNat % 2 ^ 32, k := 0, n := n + 1, pc := y.pc }
      SliceDone (.pusht c0 f m x n)
        (onWg (fun w => { w.noteEntry m e with slice := { (w.noteEntry m e).slice with push := some p } }) s) s) ∧
    (tidOk e = false ∨ fmtMatrix (tidFormat e) = false ∨ split → SliceFaults (.pusht c0 f m x n) .tid none s) ∧
    (tidOk e = true → fmtMatrix (tidFormat e) = true → ¬ split → (w.fifo f).cap = 0 → SliceFaults (.pusht c0 f m x n) .matFifo none s) := by
  intro split
  have he := exec_slice h _ _ (by unfold exec execPusht sliceOnly; exact rfl)
  rw [hw] at he
  dsimp only at he
  rw [if_neg (by omega), hv] at he
  dsimp only at he
  have hok : tidOk e = true → fmtMatrix (tidFormat e) = true → ¬ (tidOk e = false ∨ fmtMatrix (tidFormat e) = false) := by
    intro h1 h2
    rw [h1, h2]
    decide
  refine ⟨fun ho hs hc => sliceDone_of he ?_, fun ho => ?_, fun h1 h2 hs hc => ?_⟩
  · exact (if_neg (hok ho.1 ho.2)).trans ((if_neg hs).trans (if_neg hc))
  · refine he.trans (congrArg _ (congrArg _ ?_))
    by_cases hk : tidOk e = false ∨ fmtMatrix (tidFormat e) = false
    · exact if_pos hk
    · exact (if_neg hk).trans (if_pos (ho.elim (fun e => absurd (.inl e) hk) (fun e => e.resolve_left (fun e => hk (.inr e)))))
  · exact he.trans (congrArg _ (congrArg _ ((if_neg (hok h1 h2)).trans ((if_neg hs).trans (if_pos hc)))))

/-! ## Tensor identifiers -/

/-- TIDSET (R230). -/
theorem tidset_sets {c0 a m : Nat} {s t : State} {c : Ctx} {p : Place} (h : Ready (.tidset c0 a m) c s) (ha : c.src.shape a = .p64)
    (hp : s.place c.core c.wg false (Acc.plain .read 64 64 false 0) (low64 c a) = (.ok p, t)) (ht : t.stalls [(c.low, .ok p)] = false)
    (hb : t.badPlace p = false) :
    let u := t.l1Reads c.core c.wg.asid 0 c.src.ctrl.hint.toNat (t.herePieces [p])
    let e := BitVec.ofNat 512 (leNat (u.readPlace c.wg c.who.grp c.low 64 p))
    let room := (c.wg.view.filter (fun y => decide (y.1 ≠ m) && y.2.rewritten)).length < 32
    tidOk e = true → room → DeliversFrom (.tidset c0 a m) c Out.none u (onWg (fun w => { w with view := tset w.view m ⟨e, true⟩ })) s := by
  intro u e room hk hr
  have he := exec_ready h _ (by unfold exec execTidset; exact rfl)
  rw [lowP64_of_shape ha] at he
  dsimp only at he
  rw [hp] at he
  dsimp only at he
  rw [if_neg (ne_true_of_eq_false ht), if_neg (ne_true_of_eq_false hb)] at he
  refine deliversFrom_of he (if_neg ?_)
  rintro (h1 | h2)
  · exact Bool.false_ne_true (h1.symm.trans hk)
  · exact absurd hr (Nat.not_lt.2 h2)

/-- TIDGET (R230). -/
theorem tidget_gets {c0 a m : Nat} {s t : State} {c : Ctx} {p : Place} {e : BitVec 512} (h : Ready (.tidget c0 a m) c s)
    (ha : c.src.shape a = .p64) (hp : s.place c.core c.wg false (Acc.plain .write 64 64 false 0) (low64 c a) = (.ok p, t))
    (ht : t.stalls [(c.low, .ok p)] = false) (hv : t.viewEntry c.wg m = .ok e) :
    DeliversFrom (.tidget c0 a m) c Out.none t (fun u => (onWg (fun w => w.noteEntry m e) u).storePlace c.who c.wg.asid c.low 0 (low64 c a)
      (leBytes 64 e.toNat) p) s := by
  have he := exec_ready h _ (by unfold exec execTidget; exact rfl)
  rw [lowP64_of_shape ha] at he
  dsimp only at he
  rw [hp] at he
  dsimp only at he
  rw [if_neg (ne_true_of_eq_false ht), hv] at he
  exact deliversFrom_of he rfl

/-! ## COPY -/

/-- COPY of a row range that fits (R300, R301). -/
theorem copy_starts {c0 a b m : Nat} {s : State} {c : Ctx} {e : BitVec 512} (h : Ready (.copy c0 a b m) c s) (ha : c.src.shape a = .p64)
    (ha1 : c.src.shape ((a + 1) % 32) = .p64) (hb : c.src.shape b = .p64) :
    let v := low64 c b
    let dest := (v.extractLsb' 0 19).toNat
    let sync := (v.extractLsb' 19 19).toNat
    let rows := (v.extractLsb' 38 10).toNat + 1
    let len := 4 * ((v.extractLsb' 48 16).toNat + 1)
    let i0 := ((low64 c a).extractLsb' 0 32).toNat
    dest % 4 = 0 → sync % 8 = 0 → dest + rows * len ≤ c.wg.scratchBytes → sync + 8 ≤ c.wg.scratchBytes → s.viewEntry c.wg m = .ok e →
    tidOk e = true → i0 * fmtHalves (tidFormat e) % 2 = 0 →
    let new : Nat → Copy := fun id =>
      { id := id, grp := c.who.grp, mask := c.mask, entry := e, i0 := i0, i1 := ((low64 c a).extractLsb' 32 32).toNat,
        i2 := ((low64 c ((a + 1) % 32)).extractLsb' 0 32).toNat, i3 := ((low64 c ((a + 1) % 32)).extractLsb' 32 32).toNat,
        dest := dest, sync := sync, rows := rows, len := len, k := 0 }
    Delivers (.copy c0 a b m) c Out.none (fun t => onWg (fun w =>
      { w.noteEntry m e with copies := (w.noteEntry m e).copies ++ [new t.nextId] }) (numbered t)) s := by
  have h0 : ∀ n : Nat, n / 2 ^ 0 = n := Nat.div_one
  simp only [extract_toNat, h0]
  intro hd hy hr hl hv hk hi
  have he := exec_ready h _ (by unfold exec execCopy; exact rfl)
  rw [lowP64_of_shape ha, lowP64_of_shape ha1, lowP64_of_shape hb] at he
  dsimp only at he
  rw [if_neg (not_not_intro hd), if_neg (not_not_intro hy), if_neg (Nat.not_lt.2 hr), if_neg (Nat.not_lt.2 hl), hv] at he
  dsimp only at he
  simp only [Nat.mul_zero, Nat.mul_one, h0] at he
  refine deliversFrom_of he (if_neg ?_)
  rintro (h1 | h2)
  · exact Bool.false_ne_true (h1.symm.trans hk)
  · exact h2 hi

/-- Settles O36. -/
theorem sliceAndCopyStart : Obligations.SliceAndCopyStart := by
  intro c0 q a b m f x n s
  refine ⟨fun c h ha hb => aslice_acts h ha hb, fun c h => ?await, fun y w e h hw hx hv => pusht_pushes h hw hx hv,
    fun c t p h ha hp ht hb => tidset_sets h ha hp ht hb, fun c t p e h ha hp ht hv => tidget_gets h ha hp ht hv,
    fun c e h ha ha1 hb => copy_starts h ha ha1 hb⟩
  case await =>
    have := await_acts h
    simp only [deliver_eq] at this
    exact this

end Sys2Proof.Laws
end

section
/-!
SUPPORT. Tiles: direct accesses (R213, R223, R224, R228) and the issue of tile operations (R201, R212 to R225), with the statements about them.
-/
namespace Sys2Proof.Laws
open Sys2Proof.Machine Sys2Proof.Safety

/-! ## Direct accesses -/

/-- A fault whose rule states no address (R15, R260). -/
theorem trapsOpen_of {i : Instr} {c : Ctx} {s : State} {cause : Cause} {d : Did} (he : exec i s = .next (c.finish (s.uses i) s d))
    (hd : d = c.openFault cause s) : TrapsOpen i c cause s :=
  ⟨_, traps_of he hd⟩

/-- A lane's element as a point, from its number. -/
theorem point_ofNat (g : Machine.Group) (w r l : Nat) : BitVec.ofNat w (g.readN r l) = point g w r l := BitVec.ofNat_toNat w _

/-- AREAD of a bound tile with no operation pending (R213, R223): `ok` says that its mode is one that the conversion reads. -/
theorem aread_acts {i : Instr} {conv a d k : Nat} {s : State} {c : Ctx} {t : Tile} {ok : Prop} {v : Nat → Nat} {sh : Shape}
    (he : exec i s = groupWord (s.uses i) s (areadGroup conv a d k)) (h : Ready i c s) (ht : c.wg.tile a = some t)
    (hi : c.wg.pendingOn a = false) (hsh : areadShape conv = sh) (hf : (areadValue conv k t.mode TileRow.zero).isSome = true ↔ ok)
    (hv : ok → ∀ l, (areadValue conv k t.mode (t.row l)).getD 0 = v l) :
    (ok → Delivers i c (Out.v d sh (lanes c (fun l => elemN (v l)))) id s) ∧ (¬ ok → TrapsOpen i c .matFormat s) := by
  have hx := exec_ready h _ he
  unfold areadGroup at hx
  rw [ht] at hx
  dsimp only at hx
  rw [if_neg (ne_true_of_eq_false hi)] at hx
  refine ⟨fun ho => deliversFrom_of hx ?_, fun ho => trapsOpen_of hx ?_⟩
  · obtain ⟨n, hn⟩ := Option.isSome_iff_exists.1 (hf.2 ho)
    rw [hn]
    simp only [hsh, hv ho]
    rfl
  · rw [Option.not_isSome_iff_eq_none.1 (fun e => ho (hf.1 e))]

/-- SMXR of a bound tile with no operation pending (R213, R228). -/
theorem smxr_acts {i : Instr} {a d : Nat} {sh : Shape} {val : Tile → TileRow → Nat} {s : State} {c : Ctx} {t : Tile}
    (he : exec i s = groupWord (s.uses i) s (smxrGroup a d sh val)) (h : Ready i c s) (ht : c.wg.tile a = some t)
    (hi : c.wg.pendingOn a = false) :
    (True → Delivers i c (Out.v d sh (lanes c (fun l => elemN (val t (t.row l))))) id s) ∧ (¬ True → TrapsOpen i c .matFormat s) := by
  have hx := exec_ready h _ he
  unfold smxrGroup at hx
  rw [ht] at hx
  dsimp only at hx
  rw [if_neg (ne_true_of_eq_false hi)] at hx
  exact ⟨fun _ => deliversFrom_of hx rfl, fun hn => absurd trivial hn⟩

/-- AWRITE of a bound tile with no operation pending (R213, R214, R224): `mode` is the mode that it requires, if it requires one, and `row` what it
makes of a row. -/
theorem awrite_acts {i : Instr} {conv a d k : Nat} {s : State} {c : Ctx} {t : Tile} {sh : Shape} {mode : Option TileMode}
    {row : Nat → TileRow → TileRow} (he : exec i s = groupWord (s.uses i) s (awriteGroup conv a d k)) (h : Ready i c s)
    (ht : c.wg.tile a = some t) (hi : c.wg.pendingOn a = false) (hsh : (if conv = 0 ∨ conv = 2 then Shape.p32 else .p64) = sh)
    (hm : awriteMode conv t.mode = if mode = none ∨ t.mode = .empty ∨ mode = some t.mode then some (mode.getD t.mode) else none)
    (hr : ∀ l, awriteRow conv k (c.src.readN d l) = row l) :
    let ok := mode = none ∨ t.mode = .empty ∨ mode = some t.mode
    (c.src.shape d ≠ sh → Traps i c (faultOf c .shape) s) ∧
    (c.src.shape d = sh → ok → Delivers i c Out.none (fun u => (onWg (fun w => w.modTile a (fun y =>
      { (c.act.foldl (fun y l => y.modRow l (row l)) y) with mode := mode.getD t.mode })) u).modCur (fun g => g.noteTile a)) s) ∧
    (c.src.shape d = sh → ¬ ok → TrapsOpen i c .matFormat s) := by
  have hx := exec_ready h _ he
  unfold awriteGroup at hx
  rw [ht] at hx
  dsimp only at hx
  rw [hsh, hm] at hx
  refine ⟨fun hs => traps_of hx (if_pos hs), fun hs ho => deliversFrom_of hx ?_, fun hs ho => trapsOpen_of hx ?_⟩
  · rw [if_neg (not_not_intro hs), if_neg (ne_true_of_eq_false hi), if_pos ho]
    simp only [hr]
    rfl
  · rw [if_neg (not_not_intro hs), if_neg (ne_true_of_eq_false hi), if_neg ho]

/-- Settles O37: AREAD by the tile's mode, SMXR, AWRITE by the mode that it requires. -/
theorem tilesAreReadAndWritten : Obligations.TilesAreReadAndWritten := by
  intro c0 a d k s c t ht
  have hcell : ∀ l, sextN ((t.row l).cell k) 56 = ((t.row l).cells.getD k 0).toInt := fun l => sextN_toInt _ (by decide)
  have hwrap : ∀ x : Int, wrapInt x 32 = (BitVec.ofInt 32 x).toNat := fun x => wrapInt_eq x 32
  refine ⟨fun h hi => ?readF32, fun h hi => ?readF64, fun h hi => ?readI32, fun h hi => ?readRaw, fun h hi => ?maximum, fun h hi => ?sum,
    fun h hi => ?status, fun h hi => ?writeF32, fun h hi => ?writeF64, fun h hi => ?writeI32, fun h hi => ?writeRaw⟩
  case readF32 =>
    refine aread_acts rfl h ht hi rfl ?_ (fun ho l => ?_)
    · cases t.mode
      case fp64 => exact iff_of_false Bool.false_ne_true (not_not_intro rfl)
      all_goals exact iff_of_true rfl TileMode.noConfusion
    · revert ho
      cases t.mode <;> intro ho
      case fp64 => exact absurd rfl ho
      case int => exact congrArg (fun x => roundN fp32 1 (intX x)) (hcell l)
      all_goals rfl
  case readF64 =>
    refine aread_acts rfl h ht hi rfl ?_ (fun ho l => ?_)
    · cases t.mode
      case fp64 =>
        show (if 1 = 1 ∧ k < 8 then some (TileRow.zero.pair k) else none).isSome = true ↔ (TileMode.fp64 = .fp64 → k < 8)
        by_cases hk : k < 8
        · rw [if_pos ⟨rfl, hk⟩]
          exact iff_of_true rfl (fun _ => hk)
        · rw [if_neg (fun e => hk e.2)]
          exact iff_of_false Bool.false_ne_true (fun e => hk (e rfl))
      all_goals exact iff_of_true rfl TileMode.noConfusion
    · revert ho
      cases t.mode <;> intro ho
      case fp64 =>
        show (if 1 = 1 ∧ k < 8 then some ((t.row l).pair k) else none).getD 0 = _
        rw [if_pos ⟨rfl, ho rfl⟩, Option.getD_some, TileRow.pair]
        simp only [TileRow.cell]
      case int => exact congrArg (fun x => roundN fp64 1 (intX x)) (hcell l)
      all_goals rfl
  case readI32 =>
    refine aread_acts rfl h ht hi rfl ?_ (fun ho l => ?_)
    · cases t.mode
      case fp64 => exact iff_of_false Bool.false_ne_true (not_not_intro rfl)
      all_goals exact iff_of_true rfl TileMode.noConfusion
    · revert ho
      cases t.mode <;> intro ho
      case fp64 => exact absurd rfl ho
      case int =>
        refine Eq.trans (b := wrapInt (satInt (-2 ^ 31) (2 ^ 31 - 1) (sextN ((t.row l).cell k) 56)) 32) rfl ?_
        rw [hcell, hwrap, satInt_eq _ _ _ (by decide)]
      all_goals exact hwrap _
  case readRaw => exact aread_acts rfl h ht hi rfl (iff_of_true rfl trivial) (fun _ _ => rfl)
  case maximum => exact smxr_acts (val := fun _ r => r.m.toNat) rfl h ht hi
  case sum => exact smxr_acts (val := fun _ r => roundN fp64 1 (decodeF a56 r.l.toNat).toX) rfl h ht hi
  case status => exact smxr_acts (val := fun t r => t.mode.code + if r.sat then 4 else 0) rfl h ht hi
  case writeF32 => exact awrite_acts (mode := some .float) rfl h ht hi rfl (by cases t.mode <;> rfl) (fun _ => rfl)
  case writeF64 => exact awrite_acts (mode := some .fp64) rfl h ht hi rfl (by cases t.mode <;> rfl) (fun _ => rfl)
  case writeI32 =>
    refine awrite_acts (mode := some .int) rfl h ht hi rfl (by cases t.mode <;> rfl) (fun l => funext fun r => ?_)
    exact congrArg (r.setCell k) ((wrapInt_sextN _ _ (by decide)).trans (by rw [point_ofNat]))
  case writeRaw => exact awrite_acts (mode := none) rfl h ht hi rfl (by cases t.mode <;> rfl) (fun _ => rfl)

/-! ## Tile operations as they issue -/

/-- A word that names an unbound tile (R197). -/
theorem tile_isNone {c : Ctx} {a : Nat} : (c.wg.tile a).isNone = true ↔ c.wg.tile a = none := Option.isNone_iff_eq_none

/-- A tile operation joins its workgroup's list (R212). -/
theorem issueOp_adds {i : Instr} {tile : Nat} {work : TileWork} {dirty : Bool} {s : State} {c : Ctx} {d : Did}
    (he : exec i s = .next (c.finish (s.uses i) s d)) (hd : d = issueOp tile work dirty c (s.uses i) s) :
    let op : Nat → TileOp := fun id => { id := id, grp := c.who.grp, tile := tile, work := work, mask := c.mask, unfenced := dirty,
                                         addr := BitVec.ofNat 64 (4 * c.pc), done := false }
    Delivers i c Out.none (fun t => onWg (fun w => { (w.modTile tile id) with ops := w.ops ++ [op t.nextId] }) (numbered t)) s :=
  deliversFrom_of he hd

/-- The recorded fault of a group's tile operation (R215). -/
theorem tileFaultOn_of {g : Machine.Group} {a : Nat} {x : TileFault} (h : g.tileFault = some x) (ha : x.tile = a) :
    g.tileFaultOn a = some ⟨x.cause, x.mask, x.addr⟩ := by
  unfold Group.tileFaultOn; rw [h]; exact if_pos ha

/-- No fault is recorded for a tile. -/
theorem tileFaultOn_none {g : Machine.Group} {a : Nat} (h : ∀ x, g.tileFault = some x → x.tile ≠ a) : g.tileFaultOn a = none := by
  unfold Group.tileFaultOn
  cases hf : g.tileFault with
  | none => rfl
  | some x => exact if_neg (h x hf)

/-- Every operation on a tile below a number is done (R215). -/
theorem tileQuiet_iff (w : Workgroup) (a lim : Nat) : w.tileQuiet a lim = true ↔ ∀ o ∈ w.ops, o.tile = a → o.id < lim → o.done = true := by
  have hq (o : TileOp) : (o.done || !decide (o.tile = a ∧ o.id < lim)) = true ↔ (o.tile = a → o.id < lim → o.done = true) := by
    rw [← and_imp]
    by_cases h : o.tile = a ∧ o.id < lim
    · rw [decide_eq_true h, Bool.not_true, Bool.or_false]
      exact ⟨fun e _ => e, fun e => e h⟩
    · rw [decide_eq_false h, Bool.not_false, Bool.or_true]
      exact iff_of_true rfl fun e => absurd e h
  simp only [Workgroup.tileQuiet, List.all_eq_true, hq]

/-- MMA (R201, R212). -/
theorem mma_issues {f : TMma} {s : State} {c : Ctx} (h : Ready (.mma f) c s) :
    let i : Instr := .mma f
    let lanes := c.act.length
    (c.wg.tile f.a = none → TrapsOpen i c .matFormat s) ∧
    (c.wg.tile f.a ≠ none → (c.wg.fifo f.f).cap < lanes ∨ (c.wg.fifo f.g).cap < 8 + (if f.f = f.g then lanes else 0) →
      TrapsOpen i c .matFifo s) ∧
    (c.wg.tile f.a ≠ none → lanes ≤ (c.wg.fifo f.f).cap → 8 + (if f.f = f.g then lanes else 0) ≤ (c.wg.fifo f.g).cap →
      exec i s = .next (c.finish (s.uses i) s (issueOp f.a
        (.mma f.f f.g (if f.r = 0 then 1 else if f.r = 1 then 3 else if f.r = 2 then 4 else 2) (decide (f.s = 1)) (decide (f.z = 1)))
        (decide (f.z ≠ 1) && c.grp.unfencedTiles.contains f.a) c (s.uses i) s))) := by
  have he := exec_ready h _ (by unfold exec execMma; exact rfl)
  dsimp only at he
  refine ⟨fun hn => trapsOpen_of he (if_pos (tile_isNone.2 hn)), fun hn hf => trapsOpen_of he ?_, fun hn h1 h2 => he.trans ?_⟩
  · exact (if_neg (fun e => hn (tile_isNone.1 e))).trans (if_pos hf)
  · rw [if_neg (fun e => hn (tile_isNone.1 e)), if_neg (not_or.2 ⟨Nat.not_lt.2 h1, Nat.not_lt.2 h2⟩)]
    rfl

/-- SMXU (R225). -/
theorem smxu_issues {c0 a n v p : Nat} {s : State} {c : Ctx} (h : Ready (.smxu c0 a n v p) c s) (ht : c.wg.tile a ≠ none)
    (hc : (c.wg.fifo n).cap ≠ 0) (hl : c.act.length ≤ (c.wg.fifo n).cap) :
    let i : Instr := .smxu c0 a n v p
    (c.src.shape v ≠ .p32 → Traps i c (faultOf c .shape) s) ∧
    (c.src.shape v = .p32 → exec i s = .next (c.finish (s.uses i) s (issueOp a (.smxu n v p c.src.ctrl.smxscale)
      (c.grp.unfencedTiles.contains a || c.grp.unfencedRegs.contains v) c (s.uses i) s))) := by
  have he := exec_ready h _ (by unfold exec execSmxu; exact rfl)
  rw [if_neg (fun e => ht (tile_isNone.1 e)), if_neg (not_or.2 ⟨hc, Nat.not_lt.2 hl⟩)] at he
  exact ⟨fun hs => traps_of he (if_pos hs), fun hs => he.trans (by rw [if_neg (not_not_intro hs)])⟩

/-- MWAIT (R212, R215). -/
theorem mwait_acts {c0 a : Nat} {s : State} {c : Ctx} (h : Ready (.mwait c0 a) c s) :
    let i : Instr := .mwait c0 a
    (c.wg.tile a = none → TrapsOpen i c .matFormat s) ∧
    (c.wg.tile a ≠ none →
      (∀ x, c.grp.tileFault = some x → x.tile = a → exec i s = .next (c.finish (s.uses i) s
        (.trap ⟨x.cause, x.mask, x.addr⟩ true (s.modCur (fun g => { g with tileFault := none }))))) ∧
      ((∀ x, c.grp.tileFault = some x → x.tile ≠ a) →
        let quiet := ∀ o ∈ c.wg.ops, o.tile = a → o.id < s.nextId → o.done = true
        (quiet → Delivers i c Out.none (fun t => t.coverOps c.core c.who.wg a t.nextId) s) ∧
        (¬ quiet → Sleeps i c (numbered s) (c.waitFor s.nextId (.tile a s.nextId) none .p32 none) s))) := by
  have he := exec_ready h _ (by unfold exec execMwait; exact rfl)
  refine ⟨fun hn => trapsOpen_of he (if_pos (tile_isNone.2 hn)), fun hn => ?_⟩
  rw [if_neg (fun e => hn (tile_isNone.1 e))] at he
  refine ⟨fun x hx ha => ?_, fun hx => ?_⟩
  · rw [he, tileFaultOn_of hx ha]
  · rw [tileFaultOn_none hx] at he
    refine ⟨fun hq => deliversFrom_of he ?_, fun hq => sleeps_of he ?_⟩
    · exact if_pos ((tileQuiet_iff _ _ _).2 hq)
    · exact if_neg (fun e => hq ((tileQuiet_iff _ _ _).1 e))

/-- Settles O38: each word as it issues. -/
theorem tileOperationsIssue : Obligations.TileOperationsIssue := by
  intro c0 a v p n f s c
  refine ⟨fun h => ?mma, fun h => ?azero, fun h ht hc hl => ?smxu, fun h => ?mfence, fun h => mwait_acts h⟩
  case mma =>
    obtain ⟨h1, h2, h3⟩ := mma_issues h
    exact ⟨h1, h2, fun ht hl hk => issueOp_adds (h3 ht hl hk) rfl⟩
  case azero =>
    have he := exec_ready h _ (by unfold exec execAzero; exact rfl)
    exact ⟨fun hn => trapsOpen_of he (if_pos (tile_isNone.2 hn)), fun hn => issueOp_adds he (if_neg (fun e => hn (tile_isNone.1 e)))⟩
  case smxu => exact ⟨(smxu_issues h ht hc hl).1, fun hs => issueOp_adds ((smxu_issues h ht hc hl).2 hs) rfl⟩
  case mfence => exact deliversFrom_of (exec_ready h _ (by unfold exec execMfence; exact rfl)) rfl

end Sys2Proof.Laws
end

section
/-!
SUPPORT. The Churn words (R419 to R429), with the statement about them.
-/
namespace Sys2Proof.Laws
open Sys2Proof.Machine Sys2Proof.Safety

/-! ## The address of a Churn word -/

/-- A Churn word acts on the address of its first lane that is no helper (R419). -/
theorem churnWord_head {c : Ctx} {a l : Nat} (hl : c.doers.head? = some l) (ha : c.src.shape a = .p64)
    (body : W64 → Nat → Ctx → Uses → State → Did)
    (u : Uses) (s : State) : churnWord a body c u s = body ((c.src.read a l).setWidth 64) l c u s := by
  obtain ⟨t, ht⟩ := List.head?_eq_some_iff.1 hl
  unfold churnWord
  rw [ht]
  exact if_neg (not_not_intro ha)

/-- A Churn word without such a lane has no effect (R419). -/
theorem churnWord_alone {i : Instr} {c : Ctx} {s : State} {a : Nat} {body : W64 → Nat → Ctx → Uses → State → Did}
    (he : exec i s = groupWord (s.uses i) s (churnWord a body)) (h : Ready i c s) (hn : c.doers = []) : Does i c s s := by
  refine does_of (exec_ready h _ he) ?_
  unfold churnWord
  rw [hn]

/-! ## Boarding -/

/-- What CBOARD and CBOARDR do once their operands are accepted (R422). -/
theorem board_acts {i : Instr} {c : Ctx} {s t : State} {q l pa : Nat} {va : W64} {at_ : Option (Nat × Nat)}
    (he : exec i s = .next (c.finish (s.uses i) s (boardAt q (.ok at_) va l c (s.uses i) s)))
    (hp : s.boardPlace c va.toNat = (.ok pa, t)) :
    let die := coreDie c.core
    (t.boardedAt pa ≠ none → DeliversFrom i c (Out.q q (preds c (fun _ => .u))) t id s) ∧
    (t.boardedAt pa = none → (t.die die).slotLeft c.wg.part = false → DeliversFrom i c (Out.q q (preds c (fun _ => .f))) t id s) ∧
    (t.boardedAt pa = none → (t.die die).slotLeft c.wg.part = true →
      Sleeps i c (((numbered t).modDie die (fun x => { x with reqs := x.reqs ++ [c.churnReq t t.nextId va.toNat none (.board pa at_)] })).modPkg
          (fun p => { p with boarded := p.boarded ++ [{ word := pa / 8, die := die, req := t.nextId, slot := none }] }))
        (c.waitFor t.nextId (.reply t.nextId) none .p64 (some q)) s) := by
  unfold boardAt at he
  rw [hp] at he
  dsimp only at he
  have hnone : t.boardedAt pa = none → ¬ (t.boardedAt pa).isSome = true := fun hb => by rw [hb]; exact Bool.false_ne_true
  refine ⟨fun hb => deliversFrom_of he (if_pos (Option.isSome_iff_ne_none.2 hb)),
    fun hb hl => deliversFrom_of he ((if_neg (hnone hb)).trans (if_pos hl)),
    fun hb hl => sleeps_of he ((if_neg (hnone hb)).trans (if_neg (ne_false_of_eq_true hl)))⟩

/-! ## Words on a key -/

/-- What a word on a key does (R425): it sleeps with a request at the slot of its key, or raises CHURN_KEY. -/
theorem keyWord_acts {i : Instr} {c : Ctx} {s : State} {d l : Nat} {va : W64} {work : Ctx → Nat → ChurnWork}
    (he : exec i s = .next (c.finish (s.uses i) s (keyWord d work va l c (s.uses i) s))) :
    let die := coreDie c.core
    (∀ n, (s.die die).keySlot va.toNat c.wg.asid = some n →
      SleepsOn i c (Out.v d .p64 [])
        ((numbered s).modDie die (fun x => { x with reqs := x.reqs ++ [c.churnReq s s.nextId va.toNat (some n) (work c l)] }))
        (c.waitFor s.nextId ((work c l).waitKind s.nextId) (some d) .p64 none) s) ∧
    ((s.die die).keySlot va.toNat c.wg.asid = none → Fits i c (Out.v d .p64 []) s → Traps i c (faultFor c .churnKey va) s) := by
  unfold keyWord at he
  refine ⟨fun n hk hf => sleeps_of he ?_, fun hk hf => traps_of he ?_⟩
  · rw [hk]; exact takeIn_fits hf rfl _
  · rw [hk]; exact takeIn_err (fits_with_err hf _) rfl _

/-- A capture whose operands have the shapes that it reads (R426). -/
theorem capGroup_eq {c : Ctx} {op d a b l : Nat} {u : Uses} {s : State} (hl : c.doers.head? = some l) (ha : c.src.shape a = .p64)
    (hb : c.src.shape b = .p64) (hd : op = 7 → c.src.shape d = .p64) :
    capGroup op d a b c u s = keyWord d (capWork op b d) ((c.src.read a l).setWidth 64) l c u s := by
  unfold capGroup
  rw [churnWord_head hl ha]
  exact if_neg (not_or.2 ⟨not_not_intro hb, fun h => h.2 (hd h.1)⟩)

/-- Settles O39: CBOARD and CBOARDR by the word at their address, the others by the slot of their key. -/
theorem churnWordsAct : Obligations.ChurnWordsAct := by
  intro c0 d q a b e k l s c va die req asks board keyed alone cap
  have hcap : ∀ {i : Instr} {op : Nat}, exec i s = groupWord (s.uses i) s (capGroup op d a b) → cap i op := by
    intro i op hx hb hd h hl ha
    have he := exec_ready h _ hx
    rw [capGroup_eq hl ha hb hd] at he
    exact keyWord_acts he
  have hkey : ∀ {i : Instr} {work : Ctx → Nat → ChurnWork}, exec i s = groupWord (s.uses i) s (churnWord a (keyWord d work)) →
      keyed i (work c l) := by
    intro i work hx h hl ha
    have he := exec_ready h _ hx
    rw [churnWord_head hl ha] at he
    exact keyWord_acts he
  refine ⟨fun h hl ha pa t hp => ?cboard, churnWord_alone rfl, fun hb hs hm hn h hl ha pa t hp => ?cboardr, churnWord_alone rfl,
    hkey (work := fun _ _ => .alight) rfl, hkey (work := fun _ _ => .peek) rfl, churnWord_alone rfl, churnWord_alone rfl,
    fun hb h hl ha => ?cwait, hcap rfl, hcap rfl, hcap rfl, hcap rfl,
    hcap rfl, hcap rfl, hcap rfl, hcap rfl, hkey (work := capWork 8 d d) rfl⟩
  case cboard =>
    have he := exec_ready h _ (by unfold exec execCboard; exact rfl)
    rw [churnWord_head hl ha] at he
    exact board_acts he hp
  case cboardr =>
    have he := exec_ready h _ (by unfold exec execCboardr; exact rfl)
    rw [churnWord_head hl ha, if_neg (not_or.2 ⟨not_not_intro hb, not_not_intro hs⟩)] at he
    have hatt : c.attachment b e l = .ok (some (((c.src.read b l).setWidth 64 : W64).toNat % 2 ^ 55, c.src.readN e l)) := by
      unfold Ctx.attachment
      exact (if_neg (not_not_intro hm)).trans (if_neg (Nat.not_lt.2 hn))
    rw [hatt] at he
    exact board_acts he hp
  case cwait =>
    have he := exec_ready h _ (by unfold exec execCwait; exact rfl)
    rw [churnWord_head hl ha, if_neg (not_not_intro hb)] at he
    exact keyWord_acts he

end Sys2Proof.Laws
end

section
/-!
SUPPORT. The graphics words (R443, R457 to R466), with the statement about them.
-/
namespace Sys2Proof.Laws
open Sys2Proof.Machine Sys2Proof.Safety

/-! ## Operands -/

/-- A graphics word acts once, at its first lane that is no helper (R457). -/
theorem gfxOnce_head {c : Ctx} {l : Nat} (hl : c.doers.head? = some l) (body : Nat → Ctx → Uses → State → Did) (u : Uses) (s : State) :
    gfxOnce body c u s = body l c u s := by
  obtain ⟨t, ht⟩ := List.head?_eq_some_iff.1 hl
  unfold gfxOnce
  rw [ht]

/-- Registers that all have a shape. -/
theorem shapes_iff {c : Ctx} {sh : Shape} {rs : List Nat} : c.shapes sh rs = true ↔ ∀ r ∈ rs, c.src.shape r = sh := by
  unfold Ctx.shapes
  rw [List.all_eq_true]
  exact forall₂_congr fun _ _ => decide_eq_true_iff

theorem shapes_one {c : Ctx} {sh : Shape} {a : Nat} (h : c.src.shape a = sh) : c.shapes sh [a] = true :=
  shapes_iff.2 (by simp [h])

theorem shapes_two {c : Ctx} {sh : Shape} {a b : Nat} (ha : c.src.shape a = sh) (hb : c.src.shape b = sh) : c.shapes sh [a, b] = true :=
  shapes_iff.2 (by simp [ha, hb])

/-! ## RAST and RSEAL -/

/-- RAST once its operands are accepted (R442, R443, R458). -/
theorem rast_acts {i : Instr} {c : Ctx} {s : State} {a b e l : Nat} (he : exec i s = .next (c.finish (s.uses i) s (rastAt a b e l c (s.uses i) s))) :
    let va : W64 := (c.src.read a l).setWidth 64
    let die := coreDie c.core
    (va.toNat % 64 ≠ 0 → Traps i c (faultFor c .misaligned va) s) ∧
    (va.toNat % 64 = 0 → ∀ slot p, s.passAt die c.wg.asid va.toNat = some (slot, p) →
      (p.sealed = true → Traps i c (faultFor c .rastState va) s) ∧
      (p.sealed = false → Delivers i c Out.none (fun u => u.modDie die (fun x =>
        { x with triangles := x.triangles ++ c.triangles slot b e })) s)) ∧
    (va.toNat % 64 = 0 → s.passAt die c.wg.asid va.toNat = none → ∀ p u,
      s.place c.core c.wg true (Acc.plain .read 64 64 false 0) va = (.ok p, u) → u.stalls [(l, .ok p)] = false → u.badPlace p = false →
      let v := u.laneRead c p
      let desc := BitVec.ofNat 512 (leNat (v.readPlace c.wg c.who.grp l 64 p))
      (v.passOpens die c.wg.part desc = none → TrapsIn i c (faultFor c .rastState va) v s) ∧
      ∀ slot, v.passOpens die c.wg.part desc = some slot → DeliversFrom i c Out.none v (fun x => (x.openPass die slot
        { addr := va.toNat, desc := desc, asid := c.wg.asid, priv := c.wg.priv, part := c.wg.part, sealed := false, sealing := none,
          records := 0, dropped := false, cause := none }).modDie die (fun x =>
            { x with triangles := x.triangles ++ c.triangles slot b e })) s) := by
  unfold rastAt at he
  dsimp only at he
  refine ⟨fun hm => traps_of he (if_pos hm), fun hm slot p hp => ?opened, fun hm hp p u hu hs hb => ?opening⟩
  case opened =>
    rw [if_neg (not_not_intro hm), hp] at he
    exact ⟨fun h => traps_of he (if_pos h), fun h => deliversFrom_of he (if_neg (ne_true_of_eq_false h))⟩
  case opening =>
    rw [if_neg (not_not_intro hm), hp, hu] at he
    dsimp only at he
    rw [if_neg (ne_true_of_eq_false hs), if_neg (ne_true_of_eq_false hb)] at he
    refine ⟨fun hn => traps_of he ?_, fun slot hn => deliversFrom_of he ?_⟩
    · rw [hn]; rfl
    · rw [hn]; rfl

/-- RSEAL of a pass (R459). -/
theorem rseal_acts {c0 a l : Nat} {s : State} {c : Ctx} (h : Ready (.rseal c0 a) c s) (hl : c.doers.head? = some l) (ha : c.src.shape a = .p64) :
    let va : W64 := (c.src.read a l).setWidth 64
    let die := coreDie c.core
    va.toNat % 64 = 0 →
    (s.passAt die c.wg.asid va.toNat = none → Traps (.rseal c0 a) c (faultFor c .rastState va) s) ∧
    ∀ slot p, s.passAt die c.wg.asid va.toNat = some (slot, p) → p.sealed = false → p.sealing = none →
      Sleeps (.rseal c0 a) c ((numbered s).modDie die (fun x =>
        { x with passes := tset x.passes slot { p with sealing := some (c.who, s.nextId) } }))
        (c.waitFor s.nextId (.reply s.nextId) none .p32 none) s := by
  intro va die hm
  have he := exec_ready h _ (by unfold exec execRseal; exact rfl)
  rw [gfxOnce_head hl, if_neg (ne_false_of_eq_true (shapes_one ha))] at he
  dsimp only at he
  rw [if_neg (not_not_intro hm)] at he
  refine ⟨fun hn => traps_of he ?_, fun slot p hp hs hg => sleeps_of he ?_⟩
  · rw [hn]; rfl
  · rw [hp]
    dsimp only
    rw [if_neg (ne_true_of_eq_false hs), hg]
    rfl

/-! ## Records for the bins -/

/-- No lane of a word has a bad key (R460). -/
theorem keyTrap_none {s : State} {c : Ctx} {keys : List (Nat × Nat)} (h : ∀ x ∈ keys, s.badKey c x.2 = false) : s.keyTrap c keys = none := by
  unfold State.keyTrap
  rw [List.filter_eq_nil_iff.2 (fun x hx => ne_true_of_eq_false (h x hx))]

/-- Records are pushed (R450, R460). -/
theorem pushAll_acts {i : Instr} {c : Ctx} {s : State} {recs : List (Nat × BitVec 128)}
    (he : exec i s = .next (c.finish (s.uses i) s (pushAll recs c (s.uses i) s))) :
    (recs = [] → Delivers i c Out.none id s) ∧
    (recs ≠ [] →
      let bins := ((recs.map (·.1)).foldl (fun (t : Tab Unit) b => tset t b ()) []).map (·.1)
      let req : Nat → ChurnReq := fun b => c.churnReq s s.nextId b none (.bin b [] ((recs.filter (fun r => decide (r.1 = b))).map (·.2)))
      Sleeps i c ((numbered s).modDie (coreDie c.core) (fun x => { x with reqs := x.reqs ++ bins.map req }))
        (c.waitFor s.nextId (.reply s.nextId) none .p32 none) s) := by
  unfold pushAll at he
  refine ⟨fun h => deliversFrom_of he (if_pos h), fun h => ?_⟩
  dsimp only
  rw [List.foldl_map]
  exact sleeps_of he (if_neg h)

/-- BPUSH of a kind (R460). -/
theorem bpush_acts {i : Instr} {c : Ctx} {s : State} {kind k q a b : Nat} (hx : exec i s = groupWord (s.uses i) s (bpushGroup kind k q a b))
    (h : Ready i c s) (ha : c.src.shape a = .p32) (hb : ∀ r ∈ regRun b 3, c.src.shape r = .p32) :
    let recs := (c.doers.filter (fun l => kMatch k ((c.src.lane l).pred q))).map (fun l =>
      (c.src.readN a l % 2 ^ 16, pushRecord (c.src.readN a l % 2 ^ 16) kind (c.src.readN b l) (c.src.readN ((b + 1) % 32) l)
        (c.src.readN ((b + 2) % 32) l)))
    (∀ x ∈ recs, s.badKey c x.1 = false) → exec i s = .next (c.finish (s.uses i) s (pushAll recs c (s.uses i) s)) := by
  intro recs hk
  have he := exec_ready h _ hx
  have hs : c.shapes .p32 (a :: regRun b 3) = true := shapes_iff.2 (List.forall_mem_cons.2 ⟨ha, hb⟩)
  unfold bpushGroup at he
  rw [if_neg (ne_false_of_eq_true hs)] at he
  dsimp only at he
  rw [keyTrap_none, List.map_map] at he
  · exact he
  · intro x hx
    obtain ⟨l, hl, rfl⟩ := List.mem_map.1 hx
    exact hk _ (List.mem_map_of_mem hl)

/-- Lanes whose intervals are all valid: no lane has a cause. -/
theorem iv_causes {c : Ctx} {b : Nat} {ls : List (Nat × Nat)} {iv : Nat → Iv} (h : ∀ x ∈ ls, c.iv 32 b x.1 = .ok (iv x.1)) :
    ls.map (fun y => (y, c.iv 32 b y.1)) = ls.map (fun y => (y, Except.ok (iv y.1))) :=
  List.map_congr_left fun x hx => by rw [h x hx]

theorem filter_false_eq_nil {α : Type} (xs : List α) : xs.filter (fun _ => false) = [] :=
  List.filter_eq_nil_iff.2 fun _ _ => Bool.false_ne_true

/-- BISECT of valid intervals (R461). -/
theorem bisect_acts {c0 q a b e : Nat} {s : State} {c : Ctx} {iv : Nat → Iv} (h : Ready (.bisect c0 q a b e) c s) (ha : c.src.shape a = .p32)
    (hs : c.src.shape e = .p32) (hb : c.src.shape b = .i32) :
    let ls := c.doers.filter (fun l => decide ((c.src.lane l).pred q = .u))
    let recs := ls.flatMap (fun l =>
      let key := c.src.readN a l % 2 ^ 16
      let m := decodeF fp32 (midBits fp32 (iv l))
      [exactIv fp32 (iv l).lo m, exactIv fp32 m (iv l).hi].map (fun i =>
        (key, pushRecord key 2 (i.toNat % 2 ^ 32) (i.toNat / 2 ^ 32) (c.src.readN e l))))
    (∀ l ∈ ls, c.iv 32 b l = .ok (iv l)) → (∀ x ∈ recs, s.badKey c x.1 = false) →
      exec (.bisect c0 q a b e) s = .next (c.finish (s.uses (.bisect c0 q a b e)) s (pushAll recs c (s.uses (.bisect c0 q a b e)) s)) := by
  intro ls recs hiv hk
  have he := exec_ready h _ (by unfold exec execBisect; exact rfl)
  have hsh : (c.shapes .p32 [a, e] && c.shapes .i32 [b]) = true := by rw [shapes_two ha hs, shapes_one hb]; rfl
  rw [if_neg (ne_false_of_eq_true hsh)] at he
  dsimp only at he
  have hkeys : ∀ x ∈ ls.map (fun l => (l, c.src.readN a l % 2 ^ 16)), s.badKey c x.2 = false := by
    intro x hx
    obtain ⟨l, hl, rfl⟩ := List.mem_map.1 hx
    exact hk _ (List.mem_flatMap_of_mem hl List.mem_cons_self)
  have hok : ∀ x ∈ ls.map (fun l => (l, c.src.readN a l % 2 ^ 16)), c.iv 32 b x.1 = .ok (iv x.1) := by
    intro x hx
    obtain ⟨l, hl, rfl⟩ := List.mem_map.1 hx
    exact hiv l hl
  rw [keyTrap_none hkeys, iv_causes hok] at he
  dsimp only at he
  simp only [List.filter_map, Function.comp_def, filter_false_eq_nil, List.map_nil, List.flatMap_map] at he
  exact he

/-! ## Lanes of ATTR and TEX -/

/-- What lanes that all have values write. -/
theorem gfxWrites_vals (d n : Nat) (v : Nat → List W32) (c : Ctx) : gfxWrites d n (c.act.map (fun l => (l, .vals (v l)))) =
    (upto 0 n).map (fun k => ⟨(d + k) % 32, .p32, lanes c (fun l => ((v l).getD k 0).setWidth 128)⟩) := by
  unfold gfxWrites lanes
  refine List.map_congr_left fun k _ => ?_
  exact congrArg (VWrite.mk _ _) (filterMap_map_some (h := fun l => (l, ((v l).getD k 0).setWidth 128)) _ (fun _ => rfl))

/-- A commit of lanes that all have values (R464, R466). -/
theorem gfxCommit_vals (d n : Nat) (gens : List (Nat × W64)) (v : Nat → List W32) (c : Ctx) (u : Uses) (s0 s : State) :
    gfxCommit d n gens (c.act.map (fun l => (l, .vals (v l)))) c u s0 s = c.commit u { Out.none with
      vs := (upto 0 n).map (fun k => ⟨(d + k) % 32, .p32, lanes c (fun l => ((v l).getD k 0).setWidth 128)⟩), gens := gens } s .done := by
  unfold gfxCommit
  dsimp only
  have hset : (c.act.map (fun l => (l, GfxLane.vals (v l)))).map (fun x => (x.1, x.2.settle (c.grp.lane x.1).helper n)) =
      c.act.map (fun l => (l, .vals (v l))) := List.map_map
  rw [hset, filterMap_map_none _ (fun _ => rfl), filterMap_map_none _ (fun _ => rfl), if_neg]
  · simp only [gfxWrites_vals, if_true]
    rfl
  · rw [List.any_map, List.any_eq_true]
    rintro ⟨x, -, hx⟩
    exact Bool.false_ne_true hx

/-- Lanes that leave the state as it is. -/
theorem eachLane_fixed {s : State} {f : State → Nat → GfxLane × State} {g : Nat → GfxLane} {ls : List Nat} (h : ∀ l ∈ ls, f s l = (g l, s)) :
    s.eachLane f ls = (ls.map (fun l => (l, g l)), s) := by
  induction ls with
  | nil => rfl
  | cons l ls ih =>
    unfold State.eachLane
    rw [h l List.mem_cons_self]
    dsimp only
    rw [ih (fun x hx => h x (List.mem_cons_of_mem _ hx))]
    rfl

/-- ATTR of lanes that all have values (R464). -/
theorem attr_acts {c0 d a b j : Nat} {s u : State} {c : Ctx} {v : Nat → List W32} (h : Ready (.attr c0 d a b j) c s) (ha : c.src.shape a = .p64)
    (hb : ∀ l ∈ c.act, c.pixelRec l = none → ∀ r ∈ regRun b 3, c.src.shape r = .p32)
    (hv : s.eachLane (attrLane c a b j) c.act = (c.act.map (fun l => (l, .vals (v l))), u)) :
    DeliversFrom (.attr c0 d a b j) c { Out.none with
      vs := (upto 0 3).map (fun k => ⟨(d + k) % 32, .p32, lanes c (fun l => ((v l).getD k 0).setWidth 128)⟩), gens := [] } u id s := by
  have he := exec_ready h _ (by unfold exec execAttr; exact rfl)
  dsimp only at he
  rw [if_neg, hv, gfxCommit_vals] at he
  · exact deliversFrom_of he rfl
  · rintro (h1 | ⟨h1, h2⟩)
    · exact h1 ha
    · obtain ⟨l, hl, hn⟩ := List.any_eq_true.1 h1
      exact Bool.false_ne_true (h2.symm.trans (shapes_iff.2 (hb l hl (Option.isNone_iff_eq_none.1 hn))))

/-- ATTR of one lane, step by step (R463, R464). -/
theorem attrLane_vals {c : Ctx} {a b j l : Nat} {s t1 t2 t3 : State} {h ix : List Byte} {vs : List (List Byte)} :
    let block := ((c.src.read a l).setWidth 64 : W64).toNat
    let w := leNat h
    let tri := c.attrTri b l
    block % 64 = 0 → s.laneReads c l 1 [(block, 8)] = (.ok [h], t1) → geoOk w = true → tri < geoT w → j < geoA w →
    t1.laneReads c l 1 [(block + 64 + 12 * geoV w + 3 * tri, 3)] = (.ok [ix], t2) → (∀ i ∈ ix, i.toNat < geoV w) →
    t2.laneReads c l 1 (ix.map (fun i => (block + 64 + 12 * i.toNat, 12)) ++
        ix.map (fun i => (block + geoR w + 4 * (geoA w * i.toNat + j), 4))) = (.ok vs, t3) →
    attrLane c a b j s l = (.vals (attrValue c b l vs), t3) := by
  intro block w tri hm h1 hw ht hj h2 hi h3
  have hgeo : ¬ (geoOk w = false ∨ geoT w ≤ tri ∨ geoA w ≤ j) :=
    not_or.2 ⟨ne_false_of_eq_true hw, not_or.2 ⟨Nat.not_le.2 ht, Nat.not_le.2 hj⟩⟩
  have hall : ¬ (ix.map BitVec.toNat).any (fun i => decide (geoV w ≤ i)) = true := by
    rw [List.any_map, List.any_eq_true]
    rintro ⟨i, hm, hx⟩
    exact absurd (hi i hm) (Nat.not_lt.2 (of_decide_eq_true hx))
  unfold attrLane
  dsimp only
  rw [if_neg (not_not_intro hm), h1]
  refine (if_neg hgeo).trans ?_
  simp only [List.headD_cons]
  rw [h2]
  refine (if_neg hall).trans ?_
  simp only [List.headD_cons, List.map_map, Function.comp_def]
  rw [h3]

/-- A lane whose coordinate u is NaN samples nothing (R466). -/
theorem texLane_nan {kind : LodKind} {e : BitVec 512} {a l : Nat} {c : Ctx} (s : State) (h : (value c 32 a l).isNan = true) :
    texLane kind e a c s l = (.vals (List.replicate (texChannels e) (BitVec.ofNat 32 (qnan fp32))), s) := by
  unfold texLane
  exact if_pos (Bool.or_eq_true_iff.2 (.inl h))

/-- TEX, TEXL and TEXG (R465, R466, R468). -/
theorem tex_acts {i : Instr} {kind : LodKind} {regs d a t : Nat} {s : State} {c : Ctx}
    (hx : exec i s = groupWord (s.uses i) s (texGroup kind regs d a t)) (h : Ready i c s) (ha : ∀ r ∈ regRun a regs, c.src.shape r = .p32) :
    let sampled := fun (n : Nat) (v : Nat → List W32) (gens : List (Nat × W64)) => { Out.none with
      vs := (upto 0 n).map (fun k => ⟨(d + k) % 32, .p32, lanes c (fun l => ((v l).getD k 0).setWidth 128)⟩), gens := gens }
    (∀ x, s.viewEntry c.wg t = .error x → Traps i c ⟨x.1, c.mask, x.2⟩ s) ∧
    ∀ ent, s.viewEntry c.wg t = .ok ent →
      let n := texChannels ent
      let noted := onWg (fun w => w.noteEntry t ent) s
      let gens := if kind = .quad then c.act.map (fun l => (l, (c.texLod kind ent a l).2)) else []
      (texOk ent = false → DeliversFrom i c { Out.none with
        vs := (upto 0 n).map (fun k => ⟨(d + k) % 32, .p32, []⟩), err := some ⟨.tid, c.mask, BitVec.ofNat 64 t⟩ } noted id s) ∧
      (texOk ent = true → ∀ (v : Nat → List W32) u, noted.eachLane (texLane kind ent a c) c.act = (c.act.map (fun l => (l, .vals (v l))), u) →
        DeliversFrom i c (sampled n v gens) u id s) ∧
      (texOk ent = true → (∀ l ∈ c.act, (value c 32 a l).isNan = true) →
        DeliversFrom i c (sampled n (fun _ => List.replicate n (BitVec.ofNat 32 (qnan fp32))) gens) noted id s) := by
  intro sampled
  have he := exec_ready h _ hx
  unfold texGroup at he
  rw [if_neg (ne_false_of_eq_true (shapes_iff.2 ha))] at he
  refine ⟨fun x hv => traps_of he ?_, fun ent hv => ?_⟩
  · rw [hv]
  · rw [hv] at he
    dsimp only at he
    have hvals : texOk ent = true → ∀ (v : Nat → List W32) u,
        (onWg (fun w => w.noteEntry t ent) s).eachLane (texLane kind ent a c) c.act = (c.act.map (fun l => (l, .vals (v l))), u) →
        DeliversFrom i c (sampled (texChannels ent) v
          (if kind = .quad then c.act.map (fun l => (l, (c.texLod kind ent a l).2)) else [])) u id s := by
      intro hk v u hu
      unfold onWg at hu
      rw [if_neg (ne_false_of_eq_true hk), hu, gfxCommit_vals] at he
      exact deliversFrom_of he rfl
    exact ⟨fun hk => deliversFrom_of he (if_pos hk), hvals, fun hk hn => hvals hk _ _ (eachLane_fixed fun l hl => texLane_nan _ (hn l hl))⟩

/-- Settles O40. -/
theorem graphicsWordsAct : Obligations.GraphicsWordsAct := by
  intro c0 d q a b e j k l t s c va die mine push record sampled samples tex block
  refine ⟨fun h hl ha hs hb => ?rast, fun h hl ha hm => rseal_acts h hl ha hm, fun hit => ?bpush,
    fun h ha hs hb iv hiv hk => pushAll_acts (bisect_acts h ha hs hb hiv hk), fun h hl ha => ?bflush, fun h hl => ?bflushAll,
    fun h ha hb => ⟨fun v u hv => attr_acts h ha hb hv, ?attr⟩, fun h ha => tex_acts rfl h ha, fun h ha => tex_acts rfl h ha,
    fun h ha => tex_acts rfl h ha⟩
  case rast =>
    have he := exec_ready h _ (by unfold exec execRast; exact rfl)
    rw [gfxOnce_head hl, if_pos (Bool.and_eq_true_iff.2 ⟨shapes_two ha hs, shapes_iff.2 hb⟩)] at he
    exact rast_acts he
  case bpush =>
    cases hit with
    | true => exact fun h ha hb hk => pushAll_acts (bpush_acts (by unfold exec; rfl) h ha hb hk)
    | false => exact fun h ha hb hk => pushAll_acts (bpush_acts (by unfold exec; rfl) h ha hb hk)
  case bflush =>
    have he := exec_ready h _ (by unfold exec execBflush; exact rfl)
    rw [gfxOnce_head hl, if_neg (ne_false_of_eq_true (shapes_one ha))] at he
    dsimp only at he
    refine ⟨fun ho => deliversFrom_of he (if_neg ?_), fun ho => traps_of he (if_pos ?_)⟩
    · exact not_or.2 ⟨Nat.not_lt.2 ho.1, not_not_intro ho.2⟩
    · exact (Classical.not_and_iff_not_or_not.1 ho).imp_left Nat.not_le.1
  case bflushAll =>
    have he := exec_ready h _ (by unfold exec execBflushAll; exact rfl)
    rw [gfxOnce_head hl] at he
    exact deliversFrom_of he rfl
  case attr =>
    intro hact hm g t1 h1 w tri hw ht hj ix t2 h2 hi vs t3 h3
    refine attr_acts (v := fun _ => attrValue c b l vs) h ha hb ?_
    rw [hact]
    unfold State.eachLane State.eachLane
    rw [attrLane_vals hm h1 hw ht hj h2 hi h3]
    rfl

end Sys2Proof.Laws
end

section
/-!
SUPPORT. Words and steps: the words of the spec's examples (R34, R38), and what a step runs (R40, R42, R45, R178, R368).
-/
namespace Sys2Proof.Laws
open Sys2Proof.Machine Sys2Proof.Safety

/-- Settles O57: each word's fields are read off and checked. -/
theorem workedExamplesDecode : Obligations.WorkedExamplesDecode :=
  ⟨rfl, rfl, rfl, rfl, rfl, rfl, rfl, rfl, rfl, rfl, rfl, rfl, rfl, rfl, rfl, rfl, rfl, rfl, rfl, rfl, rfl, rfl, rfl, rfl, rfl, rfl, rfl, rfl,
    rfl, rfl, rfl, rfl⟩

/-- A step with a word at the head of the agenda. -/
theorem step_word {s : State} {rest : List Item} (h : s.agenda = .word :: rest) : step s = runWord { s with agenda := rest } := by
  unfold step; rw [h]; rfl

/-- A fetched word of a live chain that decodes is executed. -/
theorem runWord_exec {s t : State} {w : W32} {i : Instr} (hl : s.cur.live = true) (hs : s.fetchStopped s.cur.pc = false)
    (hf : s.fetchCur s.cur.pc = (.ok w, t)) (hd : decode (t.issueWord w) = .ok i) : runWord s = exec i t := by
  unfold runWord
  rw [if_neg (fun h => Bool.false_ne_true (hs.symm.trans h.2)), if_pos hl, hf]
  dsimp only
  rw [hd]

/-- One that does not decode is no instruction (R40). -/
theorem runWord_bad {s t : State} {w : W32} {e : DecodeError} (hl : s.cur.live = true) (hs : s.fetchStopped s.cur.pc = false)
    (hf : s.fetchCur s.cur.pc = (.ok w, t)) (hd : decode (t.issueWord w) = .error e) : runWord s = .next (t.badWord w.toNat) := by
  unfold runWord
  rw [if_neg (fun h => Bool.false_ne_true (hs.symm.trans h.2)), if_pos hl, hf]
  dsimp only
  rw [hd]

/-- A word that cannot be fetched traps (R178). -/
theorem runWord_unfetched {s t : State} {x : Cause} (hl : s.cur.live = true) (hs : s.fetchStopped s.cur.pc = false)
    (hf : s.fetchCur s.cur.pc = (.error x, t)) : runWord s = .next (t.stepFault x (BitVec.ofNat 64 (4 * t.cur.pc))) := by
  unfold runWord
  rw [if_neg (fun h => Bool.false_ne_true (hs.symm.trans h.2)), if_pos hl, hf]

/-- Settles O56: the agenda's head, then the fetch, then the decoder. -/
theorem aStepRunsTheDecodedWord : Obligations.AStepRunsTheDecodedWord := by
  intro s rest here served
  refine ⟨fun w t i ha hl hs hf hd => (step_word ha).trans (runWord_exec (s := here) hl hs hf hd),
    fun w t e ha hl hs hf hd => (step_word ha).trans (runWord_bad (s := here) hl hs hf hd),
    fun x t ha hl hs hf => (step_word ha).trans (runWord_unfetched (s := here) hl hs hf),
    fun ha hl hs => (step_word ha).trans (if_pos ⟨hl, Bool.of_not_eq_false hs⟩),
    fun ha hl => (step_word ha).trans ?skipped, fun i ha => ?event,
    fun ha => ?idle⟩
  case skipped =>
    unfold runWord
    rw [if_neg (fun h => Bool.false_ne_true (hl.symm.trans h.1)), if_neg (ne_true_of_eq_false hl)]
  case event =>
    unfold step
    rw [ha]
    rfl
  case idle =>
    unfold step
    rw [ha]

end Sys2Proof.Laws
end

section
/-!
SUPPORT. What reset leaves, and what a group starts with (R56, R87, R91, R245).
-/
namespace Sys2Proof.Laws
open Sys2Proof.Machine Sys2Proof.Safety

/-- A group starts with a lane for each place of its packet's width. -/
theorem start_width (p : BitVec 512) (ix n : Nat) : (Group.start p ix n []).lanes.length = lpWidth p := by
  unfold Group.start
  rw [List.length_map, upto_zero, List.length_range]

/-- A lane that starts has F in every predicate but q0 (R56, R73). -/
theorem start_pred (pc : Nat) (seed : W32) (l q : Nat) (rec : Option (BitVec 128)) (helper exited : Bool) :
    (Lane.start pc seed l rec helper exited).pred q = if q = 0 then .t else .f := by
  unfold Lane.pred Lane.start
  rw [List.getD_eq_getElem?_getD, List.getElem?_replicate]
  split
  · rfl
  · split <;> rfl

/-- So has a lane of a group that starts. -/
theorem start_lane_pred (p : BitVec 512) (ix n l q : Nat) (h : l < lpWidth p) :
    ((Group.start p ix n []).lane l).pred q = if q = 0 then .t else .f := by
  unfold Group.start Group.lane
  rw [upto_zero, List.getD_eq_getElem?_getD, List.getElem?_map, List.getElem?_range h]
  exact start_pred ..

/-- Settles O58: each field by the definition of reset. -/
theorem resetLeaves : Obligations.ResetLeaves := by
  refine ⟨reset_mem_wf, rfl, rfl, rfl, rfl, fun n => ⟨rfl, rfl, rfl, rfl, rfl⟩, fun n => ⟨rfl, rfl, rfl⟩,
    fun n => ⟨fun q => rfl, rfl, rfl, rfl, rfl, rfl, rfl, rfl, rfl, rfl, rfl, rfl⟩, rfl, rfl, rfl, rfl, rfl, fun p => ⟨rfl, rfl, rfl⟩, rfl, rfl,
    rfl, fun n => rfl, fun p ix n => ?_⟩
  exact ⟨rfl, rfl, rfl, start_width p ix n, fun l q h => start_lane_pred p ix n l q h, rfl, rfl, rfl, rfl, rfl, rfl, rfl, rfl, rfl, rfl, rfl,
    rfl, fun h => if_neg h⟩

end Sys2Proof.Laws
end

section
/-!
SUPPORT. The checks that every word of a group meets at issue (R31, R32, R41, R42, R64, R66, R287, R517, R526), with the statement about them.
-/
namespace Sys2Proof.Laws
open Sys2Proof.Machine Sys2Proof.Safety

/-- A word that a group issues is checked before its body runs. -/
theorem exec_checked {i : Instr} {s : State} {c : Ctx} (h : i.isWord = true) (hs : s.isSlice = false) (hc : s.ctx (s.uses i).guard = some c) :
    ∃ body, exec i s = .next (c.finish (s.uses i) s (c.checked (s.uses i) s body)) := by
  rcases exec_form i s h with ⟨body, hb⟩ | ⟨body, sl, hb⟩
  · exact ⟨fun c s' => body c (s.uses i) s', by rw [hb]; simp [groupWord, hs, hc]⟩
  · exact ⟨fun c s' => body c (s.uses i) s', by rw [hb]; simp [bothWord, groupWord, hs, hc]⟩

/-- The waits that a word may meet at issue (R31, R66, R526), as context p reads. -/
abbrev WaitsAtIssue (c p : Ctx) (u : Uses) (s : State) : Prop :=
  p.busy u = true ∨ c.freeHeld u = true ∨ ((u.cls = .m ∨ u.cls = .x) ∧ s.acqHeld p = true)

section
variable {c : Ctx} {u : Uses} {s : State} {body : Ctx → State → Did}

theorem checked_barred (h : u.priv = true ∧ c.wg.priv = false) : c.checked u s body = .trap ⟨.priv, listMask c.path, 0⟩ false s := if_pos h

/-- A word that waits. -/
theorem checked_waits (hb : ¬ (u.priv = true ∧ c.wg.priv = false)) (hw : WaitsAtIssue c (c.poisoned u (c.earlyGuard u s.cycle) s).1 u s) :
    c.checked u s body = .hold s :=
  (if_neg hb).trans (if_pos hw)

/-- A word that reads too early, in a group that checks for it. -/
theorem checked_early (hb : ¬ (u.priv = true ∧ c.wg.priv = false)) (hw : ¬ WaitsAtIssue c (c.poisoned u (c.earlyGuard u s.cycle) s).1 u s)
    (he : c.earlyGuard u s.cycle ≠ [] ∨ (c.poisoned u (c.earlyGuard u s.cycle) s).1.earlyReads u s.cycle ≠ []) (hk : c.src.ctrl.stallchk = true) :
    c.checked u s body = .trap ⟨.stallShort, listMask c.path, 0⟩ false s :=
  (if_neg hb).trans ((if_neg hw).trans (if_pos ⟨he, hk⟩))

/-- A word that reads nothing early meets the faults that loads left to it, then runs in its active lanes. -/
theorem checked_on_time (hq : c.poisoned u [] s = (c, s)) (hb : ¬ (u.priv = true ∧ c.wg.priv = false)) (hg : c.earlyGuard u s.cycle = [])
    (hw : ¬ WaitsAtIssue c c u s) (he : c.earlyReads u s.cycle = []) :
    (∀ f, c.failedRead u = some f → f.precise = true → c.checked u s body = .trap ⟨.memUe, c.mask, f.addr⟩ false s) ∧
    (∀ f, c.failedRead u = some f → f.precise = false → c.checked u s body = .trap ⟨.memUe, f.mask, f.addr⟩ true
      (s.modCur (fun g => { g with failed := g.failed.filter (fun x => x.precise || decide (x.batch ≠ f.batch)) }))) ∧
    (c.failedRead u = none → c.act = [] → c.checked u s body = .done s) := by
  unfold Ctx.checked
  rw [if_neg hb]
  dsimp only
  rw [hg, hq, if_neg hw, he, if_neg (fun h => h.1.elim (fun k => k rfl) (fun k => k rfl)), hq]
  dsimp only
  refine ⟨fun f hf hp => ?_, fun f hf hp => ?_, fun hf ha => ?_⟩
  · rw [hf]; exact if_pos hp
  · rw [hf]; exact if_neg (ne_true_of_eq_false hp)
  · rw [hf]; exact if_pos ha

end

/-- Settles O51: the checks in their order. -/
theorem everyWordMeetsTheChecksAtIssue : Obligations.EveryWordMeetsTheChecksAtIssue := by
  intro i s c hword hs hc u barred guarded waits
  obtain ⟨body, he⟩ := exec_checked hword hs hc
  have hq : ∀ t, c.poisoned u [] t = (c, t) := fun t => poisoned_nothing hc
  have hp : guarded → (c.poisoned u (c.earlyGuard u s.cycle) s).1 = c := fun hg => by rw [show c.earlyGuard u s.cycle = [] from hg, hq]
  refine ⟨fun hb => traps_of he (checked_barred hb), fun hb hg hw => holds_of he (checked_waits hb ?_),
    fun hb hg hw hr hk => traps_of he (checked_early hb ?_ (.inr ?_) hk),
    fun hb hg hk => ⟨fun hw => holds_of he (checked_waits hb hw), fun hw => traps_of he (checked_early hb hw (.inl hg) hk)⟩,
    fun hb hg hw hr => ?onTime⟩
  · rw [hp hg]; exact hw
  · rw [hp hg]; exact hw
  · rw [hp hg]; exact hr
  case onTime =>
    obtain ⟨h1, h2, h3⟩ := checked_on_time (body := body) (hq s) hb hg hw hr
    exact ⟨fun f hf hx => traps_of he (h1 f hf hx), fun f hf hx => he.trans (by rw [h2 f hf hx]), fun hf ha => does_of he (h3 hf ha)⟩

end Sys2Proof.Laws
end

section
/-!
SUPPORT. What a completed word changes, and what it leaves (R58 to R66, R74), with the statements about them.
-/
namespace Sys2Proof.Laws
open Sys2Proof.Machine Sys2Proof.Safety

/-! ## Folds that keep something -/

/-- What no step of a fold changes, the fold does not change. -/
theorem foldl_keeps {α β γ : Type} (p : β → γ) (f : β → α → β) (xs : List α) (b : β) (h : ∀ x ∈ xs, ∀ b, p (f b x) = p b) :
    p (xs.foldl f b) = p b := by
  induction xs generalizing b with
  | nil => rfl
  | cons x xs ih =>
    rw [List.foldl_cons, ih _ (fun y hy => h y (List.mem_cons_of_mem _ hy)), h x List.mem_cons_self]

/-- A part of every lane that a change of one lane leaves. -/
theorem modLane_keeps {γ : Type} (p : Lane → γ) {f : Lane → Lane} (hf : ∀ x, p (f x) = p x) (g : Machine.Group) (k l : Nat) :
    p ((g.modLane k f).lane l) = p (g.lane l) := by
  by_cases h : l = k
  · subst h
    by_cases hl : l < g.lanes.length
    · rw [Group.lane_modLane _ _ _ hl, hf]
    · unfold Group.lane
      rw [List.getD_eq_getElem?_getD, List.getD_eq_getElem?_getD, List.getElem?_eq_none (Nat.not_lt.1 hl),
        List.getElem?_eq_none (by rw [Group.modLane_length]; exact Nat.not_lt.1 hl)]
  · rw [Group.lane_modLane_ne _ _ h]

/-- A part of every lane that the advance of a path leaves. -/
theorem modLanes_keeps {γ : Type} (p : Lane → γ) {f : Lane → Lane} (hf : ∀ x, p (f x) = p x) (g : Machine.Group) (ks : List Nat) (l : Nat) :
    p ((g.modLanes ks f).lane l) = p (g.lane l) :=
  foldl_keeps (fun g => p (g.lane l)) _ ks g fun k _ g => modLane_keeps p hf g k l

/-! ## Lanes -/

theorem setPred_ne (x : Lane) {n q : Nat} (v : Tri) (h : n ≠ q) : (x.setPred n v).pred q = x.pred q := by
  unfold Lane.setPred
  split
  · rfl
  · unfold Lane.pred lset
    dsimp only
    rw [List.getD_eq_getElem?_getD, getElem?_lmod, if_neg (Ne.symm h), ← List.getD_eq_getElem?_getD]

theorem setPred_gen (x : Lane) (n : Nat) (v : Tri) : (x.setPred n v).gen = x.gen := by
  unfold Lane.setPred
  split <;> rfl

/-- A lane that goes on keeps its predicates and its generator. -/
theorem advance_pred (x : Lane) (q : Nat) : x.advance.pred q = x.pred q := by
  unfold Lane.advance
  split
  · split <;> rfl
  · rfl

theorem advance_gen (x : Lane) : x.advance.gen = x.gen := by
  unfold Lane.advance
  split
  · split <;> rfl
  · rfl

/-! ## Registers -/

/-- A register that is not freed stays (R66). -/
theorem tget_freeRegs {regs : Tab VReg} {rs : List Nat} {r : Nat} (h : r ∉ rs) : tget (freeRegs regs rs) r = tget regs r :=
  foldl_keeps (fun t : Tab VReg => tget t r) tdel rs regs fun _ hx _ => tget_tdel_ne _ fun e => h (e ▸ hx)

/-- A register that is no destination is not allocated (R61). -/
theorem tget_allocRegs {w : Nat} {regs : Tab VReg} {vs : List VWrite} {r : Nat} (h : r ∉ vs.map (·.reg)) :
    tget (allocRegs w regs vs) r = tget regs r := by
  refine foldl_keeps (fun t : Tab VReg => tget t r) _ vs regs fun x hx t => ?_
  have hne : r ≠ x.reg := fun e => h (e ▸ List.mem_map_of_mem hx)
  split
  · exact tget_tset_ne _ _ hne
  · rfl

/-- A register without side bytes to write keeps them (R60). -/
theorem tget_putSides {regs : Tab VReg} {x : Nat × List (Nat × Byte)} {r : Nat} (h : r ≠ x.1) : tget (putSides regs x) r = tget regs r := by
  unfold putSides
  split
  · rfl
  · exact tget_tset_ne _ _ h

/-! ## The group after a word's results -/

/-- The register file after a word's results. -/
theorem put_regs (g : Machine.Group) (regs : Tab VReg) (o : Out) : (g.put regs o).regs = o.sides.foldl putSides (o.vs.foldl (fun t x =>
    match tget t x.reg with
    | some v => tset t x.reg (v.put x.vals)
    | none => t) regs) := by
  unfold Group.put
  dsimp only
  refine (foldl_keeps (fun g : Machine.Group => g.regs) _ o.gens _ ?_).trans
    ((foldl_keeps (fun g : Machine.Group => g.regs) _ o.qs _ ?_).trans rfl)
  · exact fun _ _ _ => rfl
  · intro x _ b
    refine foldl_keeps (fun g : Machine.Group => g.regs) _ x.2 b ?_
    exact fun _ _ _ => rfl

/-- A register that the word writes in no way. -/
theorem put_tget {g : Machine.Group} {regs : Tab VReg} {o : Out} {r : Nat} (hv : r ∉ o.vs.map (·.reg)) (hs : r ∉ o.sides.map (·.1)) :
    tget (g.put regs o).regs r = tget regs r := by
  rw [put_regs, foldl_keeps (fun t : Tab VReg => tget t r) putSides, foldl_keeps (fun t : Tab VReg => tget t r)]
  · intro x hx t
    split
    · exact tget_tset_ne _ _ fun e => hv (e ▸ List.mem_map_of_mem hx)
    · rfl
  · exact fun x hx t => tget_putSides fun e => hs (e ▸ List.mem_map_of_mem hx)

/-- What the results of a word keep of a group, where writes of predicates and generators keep it. -/
theorem put_keeps {γ : Type} (p : Machine.Group → γ) {g : Machine.Group} {regs : Tab VReg} {o : Out} (hr : ∀ g r, p { g with regs := r } = p g)
    (hq : ∀ x ∈ o.qs, ∀ g l v, p (g.modLane l (fun y => y.setPred x.1 v)) = p g)
    (hg : ∀ x ∈ o.gens, ∀ g, p (g.modLane x.1 (fun y => { y with gen := x.2 })) = p g) : p (g.put regs o) = p g := by
  unfold Group.put
  dsimp only
  rw [foldl_keeps p _ _ _ hg, foldl_keeps p _ o.qs, hr]
  exact fun x hx b => foldl_keeps p _ _ _ fun y _ b => hq x hx b y.1 y.2

/-- A predicate that is no destination. -/
theorem put_pred {g : Machine.Group} {regs : Tab VReg} {o : Out} {q : Nat} (h : q ∉ o.qs.map (·.1)) (l : Nat) :
    ((g.put regs o).lane l).pred q = (g.lane l).pred q :=
  put_keeps (fun g => (g.lane l).pred q) (fun _ _ => rfl)
    (fun _ hx g k _ => modLane_keeps (·.pred q) (fun y => setPred_ne y _ fun e => h (e ▸ List.mem_map_of_mem hx)) g k l)
    (fun x _ g => modLane_keeps (·.pred q) (f := fun y => { y with gen := x.2 }) (fun _ => rfl) g _ l)

/-- A generator that does not advance. -/
theorem put_gen {g : Machine.Group} {regs : Tab VReg} {o : Out} {l : Nat} (h : l ∉ o.gens.map (·.1)) :
    ((g.put regs o).lane l).gen = (g.lane l).gen :=
  put_keeps (fun g => (g.lane l).gen) (fun _ _ => rfl) (fun _ _ g k _ => modLane_keeps (·.gen) (fun y => setPred_gen y _ _) g k l)
    (fun x hx g => congrArg (·.gen) (Group.lane_modLane_ne g _ fun e : l = x.1 => h (e ▸ List.mem_map_of_mem hx)))

/-! ## The issuing group -/

/-- A context is that of the issuer's group as it stands. -/
theorem ctx_group {s : State} {k : Nat} {c : Ctx} (h : s.ctx k = some c) :
    s.group s.cur.who.core s.cur.who.wg s.cur.who.grp = some c.grp ∧ c.who = s.cur.who ∧ c.src = s.cur.snap.getD c.grp ∧
      c.path = c.grp.lanesIn s.cur.mask := by
  unfold State.ctx State.curWg at h
  unfold State.group
  cases hw : s.wg s.cur.who.core s.cur.who.wg with
  | none => rw [hw] at h; cases h
  | some w =>
    rw [hw] at h
    dsimp only at h
    split at h
    · cases h
    · rename_i x hx
      split at hx
      · cases hx
        split at h
        · cases h
        · rename_i g hg
          cases h
          exact ⟨hg, rfl, rfl, rfl⟩
      · cases hx

/-- The issuing group with a word's results in it, before its lanes go on. -/
def resulting (c : Ctx) (u : Uses) (o : Out) (s : State) (g : Machine.Group) : Machine.Group :=
  let map := c.newMap u o
  let o := o.without (fun l => (c.grp.lane l).exited && !(c.src.lane l).exited)
  { g.put map o with
    pend := (g.put map o).pend.map (fun p => if (c.newRegs u o).any (fun r => decide (p.reg = .v r)) then { p with old := [] } else p) ++
      o.pends u.cls s.cycle s.nextId { c.grp with regs := map },
    frees := (g.put map o).frees ++ c.freesLater u, failed := clearFailed (g.put map o).failed o,
    unfencedRegs := o.vs.map (·.reg) ++ (g.put map o).unfencedRegs.filter (fun r => !(o.vs.map (·.reg)).contains r) }

/-- The results of a word, as they enter its group. -/
theorem apply_eq (c : Ctx) (u : Uses) (o : Out) (s : State) :
    c.apply u u.cls o s = State.modCur { s with
      nextId := s.nextId + ((o.without (fun l => (c.grp.lane l).exited && !(c.src.lane l).exited)).pends u.cls s.cycle s.nextId
        { c.grp with regs := c.newMap u o }).length, cur := { s.cur with freed := s.cur.freed ++ c.frees u } } (resulting c u o s) := rfl

section
variable {i : Instr} {c : Ctx} {o : Out} {s : State}

/-- The issuing group of a completed word. -/
theorem completed_group (h : Ready i c s) : (completed i c o s id s).group s.cur.who.core s.cur.who.wg s.cur.who.grp =
    some ((resulting c (s.uses i) o s c.grp).modLanes c.path Lane.advance) := by
  obtain ⟨hg, -, -, -⟩ := ctx_group h.issuer
  unfold completed Ctx.finish State.advance
  rw [apply_eq]
  dsimp only [id]
  change (State.modCur (State.modCur _ _) _).group _ _ _ = _
  unfold State.modCur
  rw [State.modGroup_cur]
  dsimp only
  rw [State.group_modGroup, State.group_modGroup]
  change Option.map _ (Option.map _ (s.group _ _ _)) = _
  rw [hg]
  rfl

/-- Every other group of the machine. -/
theorem completed_others {core w g : Nat} (hne : ¬ (core = s.cur.who.core ∧ w = s.cur.who.wg ∧ g = s.cur.who.grp)) :
    (completed i c o s id s).group core w g = s.group core w g := by
  unfold completed Ctx.finish State.advance
  rw [apply_eq]
  dsimp only [id]
  change (State.modCur (State.modCur _ _) _).group _ _ _ = _
  unfold State.modCur
  rw [State.modGroup_cur]
  dsimp only
  rw [State.group_modGroup_ne _ _ hne, State.group_modGroup_ne _ _ hne]
  rfl

end

/-- Settles O52: a word's results enter its group's registers, predicates and generators, and nothing else of the machine. -/
theorem completedWordsChangeOnlyTheirDestinations : Obligations.CompletedWordsChangeOnlyTheirDestinations := by
  intro i c o s h u
  obtain ⟨hmem, hdies, hpkg, hclusters, hcycle⟩ := Ctx.finish_done c (s.uses i) s (c.apply (s.uses i) (s.uses i).cls o s)
  rw [apply_eq] at hmem hdies hpkg hclusters hcycle
  rw [State.modCur_mem] at hmem
  rw [State.modCur_dies] at hdies
  rw [State.modCur_pkg] at hpkg
  rw [State.modCur_clusters] at hclusters
  rw [State.modCur_cycle] at hcycle
  refine ⟨hmem, hclusters, hdies, hpkg, hcycle, ?agenda, ?inbox, fun core w g hne => completed_others hne, _, completed_group h,
    fun r hv hs hf => ?reg, fun l q hq => ?pred, fun l hl => ?gen, ?joins, ?ctrl, ?quota, ?length⟩
  case agenda =>
    change (State.advance (c.apply _ _ o s) c.path).agenda = _
    rw [State.advance_agenda, apply_eq, State.modCur_agenda]
  case inbox =>
    change (State.advance (c.apply _ _ o s) c.path).inbox = _
    rw [State.advance_inbox, apply_eq, State.modCur_inbox]
  case reg =>
    rw [Group.modLanes_regs]
    have hv' : r ∉ (o.without (fun l => (c.grp.lane l).exited && !(c.src.lane l).exited)).vs.map (·.reg) := by
      unfold Out.without
      rw [List.map_map]
      exact hv
    exact (put_tget hv' hs).trans ((tget_allocRegs hv).trans (tget_freeRegs hf))
  case pred =>
    rw [modLanes_keeps (·.pred q) (advance_pred · q)]
    refine put_pred (fun hm => hq ?_) l
    unfold Out.without at hm
    rw [List.map_map] at hm
    exact hm
  case gen =>
    rw [modLanes_keeps (·.gen) advance_gen]
    refine put_gen fun hm => hl ?_
    unfold Out.without at hm
    obtain ⟨x, hx, he⟩ := List.mem_map.1 hm
    exact List.mem_map.2 ⟨x, (List.mem_filter.1 hx).1, he⟩
  case joins =>
    rw [Group.modLanes_joins]
    exact put_keeps (·.joins) (fun _ _ => rfl) (fun _ _ _ _ _ => rfl) (fun _ _ _ => rfl)
  case ctrl =>
    rw [Group.modLanes_ctrl]
    exact put_keeps (·.ctrl) (fun _ _ => rfl) (fun _ _ _ _ _ => rfl) (fun _ _ _ => rfl)
  case quota =>
    rw [Group.modLanes_quota]
    exact put_keeps (·.quota) (fun _ _ => rfl) (fun _ _ _ _ _ => rfl) (fun _ _ _ => rfl)
  case length =>
    rw [Group.modLanes_length]
    exact put_keeps (·.lanes.length) (fun _ _ => rfl) (fun _ _ _ _ _ => Group.modLane_length _ _ _) (fun _ _ _ => Group.modLane_length _ _ _)

end Sys2Proof.Laws
end

section
/-!
SUPPORT. A destination in a lane that has exited (R58, R179), and exceptions (R260 to R262), with the statements about them.
-/
namespace Sys2Proof.Laws
open Sys2Proof.Machine Sys2Proof.Safety

/-! ## A path that holds an exited lane -/

/-- A group of one lane, which has exited. -/
def exitedGroup : Machine.Group :=
  { lanes := [Lane.gone], regs := [], joins := [], quota := 64, pend := [], frees := [], waits := [], failed := [],
    ctrl := { round := 1, stallchk := false, trapbase := 0, seed := 0, smxscale := 0, hint := 1, q4scale := 0, trapH := false, trapA := false,
              trapcause := 0, trappc := 0, trapmask := 0, trapaddr := 0 },
    tileFault := none, copyFault := none, unfencedRegs := [], unfencedTiles := [], entryPc := 0, replay := [], retired := false }

/-- A workgroup of that group. -/
def exitedWg : Workgroup :=
  { uid := 0, packet := 0, launch := 0, source := 0, tree := none, depth := 0, asid := 0, priv := false, part := 0, ctxid := 0, savebase := 0,
    wx := 0, wy := 0, wz := 0, width := 8, groups := [exitedGroup], home := [], scratchBytes := 0, scratch := [], tiles := [], ops := [],
    fifos := [], context := false, slice := Slice.start, view := [], copies := [], nbar := 0, grabbed := false, aborted := none,
    preempting := false }

/-- A state in which a path that holds the lane issues a word. -/
def exitedState : State :=
  { State.reset with cur := { Issue.idle with mask := 1, live := true }, cores := [(0, { Core.reset with wgs := [(0, exitedWg)] })] }

/-- The context of that word: the group as it stands. -/
def exitedCtx : Ctx :=
  { who := ⟨0, 0, 0, 0⟩, wg := exitedWg, grp := exitedGroup, src := exitedGroup, path := [0], act := [0], pc := 0, freed := [] }

theorem exited_ready : Ready (.nop 0) exitedCtx exitedState :=
  ⟨rfl, rfl, nofun, rfl, rfl, fun _ => rfl, ⟨rfl, rfl⟩, rfl, nofun⟩

/-- The word's value is in lane 0 of its destination. -/
theorem exited_written : ((completed (.nop 0) exitedCtx (Out.v 1 .p32 (lanes exitedCtx (fun _ => 1))) exitedState id exitedState).group 0 0 0).bind
    (fun g => (tget g.regs 1).bind (fun x => x.lanes[0]?)) = some 1 := rfl

/-- Refutes O53: where the path itself holds a lane that exited before the chain began, the word writes that lane. -/
theorem not_destinationsTakeTheirValues : ¬ Obligations.DestinationsTakeTheirValues := by
  intro h
  obtain ⟨g, x, hg, hx, -, -, -, hl⟩ := h (.nop 0) exitedCtx 1 .p32 (fun _ => 1) exitedState exited_ready
  have hw := exited_written
  have hg0 : (completed (.nop 0) exitedCtx (Out.v 1 .p32 (lanes exitedCtx (fun _ => 1))) exitedState id exitedState).group 0 0 0 = some g := hg
  rw [hg0, Option.bind_some, hx, Option.bind_some, hl 0 0 rfl] at hw
  exact absurd hw (by decide)

/-! ## Exceptions -/

/-- A lane of the group that has left its handler (R262). -/
theorem leaveTrap_lane (g : Machine.Group) {l : Nat} (h : l < g.lanes.length) :
    g.leaveTrap.lane l = Lane.leaveTrap (decide (g.ctrl.trappc = g.entryPc)) (g.ctrl.trappc.toNat / 4) (g.lane l) := by
  unfold Group.leaveTrap Group.lane
  rw [List.getD_eq_getElem?_getD, List.getElem?_map, List.getD_eq_getElem?_getD, List.getElem?_eq_getElem h]
  rfl

/-- A lane of the group that has entered its handler (R260). -/
theorem enterTrap_lane (g : Machine.Group) (path : List Nat) (pc : Nat) (t : Trap) (late : Bool) {l : Nat} (h : l < g.lanes.length) :
    (g.enterTrap path pc t late).lane l =
      let y := g.lane l
      if y.exited then y
      else if l ∈ path then { y with pc := g.ctrl.trapbase.toNat / 4, kept := y.rep, rep := none, keptTarget := y.target, target := none,
                                     keptJoin := y.joining, joining := none, handler := true }
      else { y with held := true } := by
  unfold Group.enterTrap Group.lane
  dsimp only
  rw [List.getD_eq_getElem?_getD, getElem?_lmapIdx, List.getD_eq_getElem?_getD, List.getElem?_eq_getElem h, Nat.zero_add]
  simp only [Option.map_some, Option.getD_some, List.contains_iff_mem]

/-- Where a user cause cannot be taken (R260). -/
theorem trapAborts_iff (g : Machine.Group) :
    g.trapAborts = true ↔ g.ctrl.trapH = true ∨ g.ctrl.trapbase = 0 ∨ g.ctrl.trapbase.toNat % 12 ≠ 0 := by
  unfold Group.trapAborts
  rw [Bool.or_eq_true, Bool.or_eq_true, decide_eq_true_iff, bne_iff_ne, or_assoc]

/-- Settles O55: the entry lane by lane, and the return lane by lane. -/
theorem exceptionsAreTakenAndReturned : Obligations.ExceptionsAreTakenAndReturned := by
  refine ⟨fun g l hl => ?returned, fun i c x s h ht hsnap => ?taken⟩
  case returned =>
    refine ⟨rfl, rfl, rfl, fun hy => ?_, fun hy hp => ?_, fun hy hp => ?_⟩
    · rw [leaveTrap_lane g hl]
      exact if_neg (ne_true_of_eq_false hy)
    · rw [leaveTrap_lane g hl, decide_eq_true hp]
      exact if_pos hy
    · rw [leaveTrap_lane g hl, decide_eq_false hp]
      exact if_pos hy
  case taken =>
    obtain ⟨hg, hwho, -, -⟩ := ctx_group h.issuer
    have he : exec i s = .next (({ s with cur := { s.cur with live := false, waited := false } }).takeTrap s.cur.who.core s.cur.who.wg
        s.cur.who.grp c.path s.cur.pc x false) := by
      rw [← hwho, ← Ctx.finish_trap c (s.uses i) s x false hsnap]
      exact ht
    have hg' : ({ s with cur := { s.cur with live := false, waited := false } } : State).group s.cur.who.core s.cur.who.wg s.cur.who.grp =
        some c.grp := hg
    intro k bad
    have hbad : bad ↔ c.grp.trapAborts = true := (trapAborts_iff c.grp).symm
    refine ⟨fun hb => ?aborts, fun hb => ?enters⟩
    case aborts =>
      rw [he]
      unfold State.takeTrap
      rw [hg']
      dsimp only
      rw [if_pos (hbad.1 hb)]
    case enters =>
      have ha : c.grp.trapAborts = false := Bool.eq_false_iff.2 fun e => hb (hbad.2 e)
      refine ⟨_, c.grp.enterTrap c.path s.cur.pc x false, he, State.takeTrap_group _ _ _ _ hg' ha, Group.enterTrap_ctrl .., fun l hl =>
        enterTrap_lane _ _ _ _ _ hl, rfl, rfl, rfl, ?_, ?_⟩
      all_goals
        unfold State.takeTrap State.tally
        rw [hg']
        dsimp only
        rw [ha]
      · exact State.modGroup_mem ..
      · exact congrArg Issue.live (State.modGroup_cur ..)

end Sys2Proof.Laws
end

section
/-!
SUPPORT. Every operation of the machine keeps physical memory in canonical form (log entry 2): one lemma for each, from the state's own
operations to the instructions.
-/
namespace Sys2Proof.Machine

/-- Physical memory is in canonical form. -/
def Canonical (s : State) : Prop := Memory.wf s.mem = true

/-- So is that of the state in which a group's word leaves the machine. -/
def Did.Canonical : Did → Prop
  | .done s => Machine.Canonical s
  | .again _ s => Machine.Canonical s
  | .trap _ _ s => Machine.Canonical s
  | .hold s => Machine.Canonical s
  | .sleep s _ => Machine.Canonical s
  | .abort _ s => Machine.Canonical s

/-- So is that of the state in which a slice's word leaves the machine. -/
def SliceDid.Canonical : SliceDid → Prop
  | .done s => Machine.Canonical s
  | .fault _ _ => True
  | .hold s => Machine.Canonical s
  | .sleep s _ => Machine.Canonical s

/-- So is that of the state that an event leads to, if it leads to one. -/
def AllCanonical (o : Option State) : Prop := ∀ t, o = some t → Canonical t

/-- So is that of the next state that an instruction answers, if it answers one. -/
def Leads (o : Host.Outcome State Fault Refusal) : Prop := ∀ t, o = .next t → Canonical t

section
variable {s t : State}

theorem all_some (h : Canonical s) : AllCanonical (some s) := fun _ e => Option.some.inj e ▸ h

theorem all_none : AllCanonical none := fun _ e => by cases e

theorem leads_next (h : Canonical s) : Leads (.next s) := fun _ e => Host.Outcome.next.inj e ▸ h

theorem leads_fault {f : Fault} : Leads (.fault f) := fun _ e => by cases e

/-- It is a matter of memory alone. -/
theorem canonical_of_mem (h : Canonical s) (e : t.mem = s.mem) : Canonical t := by
  unfold Canonical
  rw [e]
  exact h

/-- The state of a pair, by the pair's parts. -/
theorem canonical_snd {α : Type} {p : α × State} {a : α} (h : Canonical p.2) (e : p = (a, t)) : Canonical t := by rw [e] at h; exact h

/-! A choice keeps memory canonical where both of its branches do. -/

theorem canonical_ite {p : Prop} [Decidable p] (hs : Canonical s) (ht : Canonical t) : Canonical (if p then s else t) := by
  split
  · exact hs
  · exact ht

theorem canonical_ite_snd {α : Type} {p : Prop} [Decidable p] {x y : α × State} (hx : Canonical x.2) (hy : Canonical y.2) :
    Canonical (if p then x else y).2 := by
  split
  · exact hx
  · exact hy

theorem did_ite {p : Prop} [Decidable p] {x y : Did} (hx : x.Canonical) (hy : y.Canonical) : (if p then x else y).Canonical := by
  split
  · exact hx
  · exact hy

theorem slice_ite {p : Prop} [Decidable p] {x y : SliceDid} (hx : x.Canonical) (hy : y.Canonical) : (if p then x else y).Canonical := by
  split
  · exact hx
  · exact hy

theorem all_ite {p : Prop} [Decidable p] {x y : Option State} (hx : AllCanonical x) (hy : AllCanonical y) :
    AllCanonical (if p then x else y) := by
  split
  · exact hx
  · exact hy

theorem leads_ite {p : Prop} [Decidable p] {x y : Host.Outcome State Fault Refusal} (hx : Leads x) (hy : Leads y) :
    Leads (if p then x else y) := by
  split
  · exact hx
  · exact hy

/-- A fold keeps memory canonical where each of its steps does. -/
theorem canonical_foldl {α : Type} {f : State → α → State} {xs : List α} (hf : ∀ t, Canonical t → ∀ x, Canonical (f t x)) (h : Canonical s) :
    Canonical (xs.foldl f s) := by
  induction xs generalizing s with
  | nil => exact h
  | cons x xs ih => exact ih (hf s h x)

/-- So does one that carries other data beside the state. -/
theorem canonical_foldl_fst {α β : Type} {f : State × β → α → State × β} {xs : List α} {b : β}
    (hf : ∀ r, Canonical r.1 → ∀ x, Canonical (f r x).1) (h : Canonical s) : Canonical (xs.foldl f (s, b)).1 := by
  suffices hr : ∀ r : State × β, Canonical r.1 → Canonical (xs.foldl f r).1 from hr (s, b) h
  induction xs with
  | nil => exact fun _ hr => hr
  | cons x xs ih => exact fun r hr => ih (f r x) (hf r hr x)

theorem all_map {α : Type} {o : Option α} {f : α → State} (hf : ∀ x, Canonical (f x)) : AllCanonical (o.map f) := by
  rintro t ht
  obtain ⟨x, -, rfl⟩ := Option.map_eq_some_iff.1 ht
  exact hf x

theorem all_bind {α : Type} {o : Option α} {f : α → Option State} (hf : ∀ x, AllCanonical (f x)) : AllCanonical (o.bind f) := by
  rintro t ht
  obtain ⟨x, -, hx⟩ := Option.bind_eq_some_iff.1 ht
  exact hf x t hx

/-- The state of a fault that a word has raised. -/
theorem did_canonical {d : Did} {x : Trap} {late : Bool} (h : d.Canonical) (e : d = .trap x late t) : Canonical t := by rw [e] at h; exact h

end


/-! ## The operations of Machine/State -/

theorem reset_canonical : Canonical State.reset := reset_mem_wf

/-! ## The operations of Machine/Access -/

theorem modCore_canonical {s : State} {c : Nat} {f : Core → Core} (hs : Canonical s) : Canonical (s.modCore c f) :=
  hs

theorem modCluster_canonical {s : State} {k : Nat} {f : Cluster → Cluster} (hs : Canonical s) : Canonical (s.modCluster k f) :=
  hs

theorem modDie_canonical {s : State} {d : Nat} {f : Die → Die} (hs : Canonical s) : Canonical (s.modDie d f) :=
  hs

theorem modPkg_canonical {s : State} {f : Package → Package} (hs : Canonical s) : Canonical (s.modPkg f) :=
  hs

theorem modWg_canonical {s : State} {c w : Nat} {f : Workgroup → Workgroup} (hs : Canonical s) : Canonical (s.modWg c w f) := by
  unfold State.modWg
  split
  · exact hs
  · exact modCore_canonical hs

theorem modGroup_canonical {s : State} {c w g : Nat} {f : Group → Group} (hs : Canonical s) : Canonical (s.modGroup c w g f) :=
  modWg_canonical hs

theorem modSlice_canonical {s : State} {c w : Nat} {f : Slice → Slice} (hs : Canonical s) : Canonical (s.modSlice c w f) :=
  modWg_canonical hs

theorem draw_canonical {s : State} (hs : Canonical s) : Canonical s.draw.2 :=
  hs

theorem drawList_canonical {α : Type} {s : State} {xs : List α} (hs : Canonical s) : Canonical (s.drawList xs).2 := by
  induction xs generalizing s with
  | nil => exact hs
  | cons x xs ih => exact ih (draw_canonical hs)

theorem fresh_canonical {s : State} (hs : Canonical s) : Canonical s.fresh.2 :=
  hs

theorem next_canonical {s : State} {l : List Item} (hs : Canonical s) : Canonical (s.next l) :=
  hs

theorem count_canonical {s : State} {kind source : Nat} (hs : Canonical s) : Canonical (s.count kind source) :=
  modPkg_canonical hs

theorem tally_canonical {s : State} {ix : Nat} (hs : Canonical s) : Canonical (s.tally ix) :=
  modPkg_canonical hs

theorem systemCause_canonical {s : State} {code : Nat} (hs : Canonical s) : Canonical (s.systemCause code) :=
  modPkg_canonical hs

theorem firmwareCause_canonical {s : State} {kind : Nat} (hs : Canonical s) : Canonical (s.firmwareCause kind) :=
  systemCause_canonical hs

theorem chargeWg_canonical {s : State} {core : Nat} {w : Workgroup} {n : Nat} (hs : Canonical s) : Canonical (s.chargeWg core w n) := by
  unfold State.chargeWg
  dsimp only
  split
  · exact modDie_canonical hs
  · exact modPkg_canonical (modDie_canonical hs)

theorem chargeUnit_canonical {s : State} {core slot : Nat} (hs : Canonical s) : Canonical (s.chargeUnit core slot) := by
  unfold State.chargeUnit
  dsimp only
  split
  · exact hs
  · exact chargeWg_canonical hs

/-! ## The operations of Machine/Phys -/

theorem storeLost_canonical {s : State} {pa n : Nat} (hs : Canonical s) : Canonical (s.storeLost pa n) :=
  canonical_ite (modDie_canonical hs) hs

theorem loseLine_canonical {s : State} {pline : Nat} (hs : Canonical s) : Canonical (s.loseLine pline) :=
  canonical_ite (modDie_canonical hs) (firmwareCause_canonical (modDie_canonical hs))

theorem rawWrite_canonical {s : State} {pa : Nat} {bs : List Byte} (hs : Canonical s) : Canonical (s.rawWrite pa bs) := by
  unfold Canonical
  rw [State.rawWrite_mem]
  exact memPutList_wf hs

theorem spoil_canonical {s : State} {pa n : Nat} (hs : Canonical s) : Canonical (s.spoil pa n) := by
  unfold State.spoil
  dsimp only
  split
  · exact canonical_ite hs (modDie_canonical hs)
  · exact hs

theorem writePhys_canonical {s : State} {pa : Nat} {bs : List Byte} (hs : Canonical s) : Canonical (s.writePhys pa bs) :=
  spoil_canonical (rawWrite_canonical hs)

theorem writeSpan_canonical {s : State} {pa : Nat} {bs : List Byte} (hs : Canonical s) : Canonical (s.writeSpan pa bs) :=
  canonical_ite (writePhys_canonical hs) (writePhys_canonical (writePhys_canonical hs))

theorem translate_canonical {s : State} {c asid : Nat} {bypass : Bool} {va n : Nat} (hs : Canonical s) : Canonical
    (s.translate c asid bypass va n).2 := by
  unfold State.translate
  split
  · exact hs
  · split
    · exact hs
    · split
      · exact hs
      · exact modCluster_canonical hs

/-! ## The operations of Machine/Directory -/

theorem modDir_canonical {s : State} {line : Nat} {f : DirEntry → DirEntry} (hs : Canonical s) : Canonical (s.modDir line f) := by
  unfold State.modDir
  split
  · exact hs
  · exact modPkg_canonical hs

theorem markDirty_canonical {s : State} {line : Nat} {m : BitVec 128} (hs : Canonical s) : Canonical (s.markDirty line m) :=
  canonical_ite hs (modDir_canonical hs)

theorem dropL1_canonical {s : State} {c line : Nat} (hs : Canonical s) : Canonical (s.dropL1 c line) :=
  modCore_canonical hs

theorem dropBuf_canonical {s : State} {k line : Nat} (hs : Canonical s) : Canonical (s.dropBuf k line) :=
  canonical_ite (modCluster_canonical hs) hs

theorem dropLine_canonical {s : State} {k line : Nat} (hs : Canonical s) : Canonical (s.dropLine k line) :=
  dropBuf_canonical (canonical_foldl (fun _ h1 _ => dropL1_canonical h1) hs)

theorem cleanLine_canonical {s : State} {k line : Nat} (hs : Canonical s) : Canonical (s.cleanLine k line) :=
  canonical_ite (modCluster_canonical (canonical_foldl (fun _ h1 _ => modCore_canonical h1) hs))
      (canonical_foldl (fun _ h1 _ => modCore_canonical h1) hs)

theorem backInvalidate_canonical {s : State} {line : Nat} (hs : Canonical s) : Canonical (s.backInvalidate line) :=
  modDir_canonical (canonical_foldl (fun _ h1 _ => dropLine_canonical h1) hs)

theorem evictLine_canonical {s : State} {line : Nat} (hs : Canonical s) : Canonical (s.evictLine line) :=
  modPkg_canonical (backInvalidate_canonical hs)

theorem l2Fill_canonical {s : State} {line : Nat} (hs : Canonical s) : Canonical (s.l2Fill line) := by
  unfold State.l2Fill
  dsimp only
  refine canonical_ite hs ?_
  split
  · exact modPkg_canonical hs
  · split
    · exact modPkg_canonical hs
    · exact modPkg_canonical (evictLine_canonical hs)

theorem dropHalves_canonical {s : State} {line : Nat} (hs : Canonical s) : Canonical (s.dropHalves line) :=
  modDir_canonical (modDie_canonical hs)

theorem homeBytes_canonical {s : State} {pa : Nat} {bs : List Byte} (hs : Canonical s) : Canonical (s.homeBytes pa bs) :=
  canonical_ite (canonical_foldl (fun _ h1 _ => canonical_ite h1 (writePhys_canonical h1))
      (count_canonical (markDirty_canonical (l2Fill_canonical hs)))) (writePhys_canonical (markDirty_canonical (l2Fill_canonical hs)))

theorem supplyHalf_canonical {s : State} {half : Nat} (hs : Canonical s) : Canonical (s.supplyHalf half) := by
  unfold State.supplyHalf
  split
  · exact hs
  · exact homeBytes_canonical hs

theorem hostShare_canonical {s : State} {line : Nat} (hs : Canonical s) : Canonical (s.hostShare line) :=
  canonical_ite hs (modDie_canonical (supplyHalf_canonical (supplyHalf_canonical hs)))

theorem hostTake_canonical {s : State} {line : Nat} (hs : Canonical s) : Canonical (s.hostTake line) :=
  canonical_ite hs (dropHalves_canonical (supplyHalf_canonical (supplyHalf_canonical hs)))

theorem devRoom_canonical {s : State} {line : Nat} (hs : Canonical s) : Canonical (s.devRoom line) := by
  unfold State.devRoom
  dsimp only
  refine canonical_ite ?_ hs
  split
  · exact hs
  · exact hostTake_canonical hs

theorem setHalf_canonical {s : State} {line half : Nat} {x : LineState} (hs : Canonical s) : Canonical (s.setHalf line half x) :=
  canonical_ite (dropHalves_canonical hs) (modDir_canonical (modDie_canonical (canonical_ite hs (devRoom_canonical hs))))

theorem downgrade_canonical {s : State} {line : Nat} (hs : Canonical s) : Canonical (s.downgrade line) :=
  canonical_ite (modDir_canonical (markDirty_canonical (cleanLine_canonical hs))) hs

theorem dirGetS_canonical {s : State} {k line : Nat} (hs : Canonical s) : Canonical (s.dirGetS k line) := by
  unfold State.dirGetS
  dsimp only
  refine canonical_ite (l2Fill_canonical (hostShare_canonical hs)) ?_
  split
  · exact modDir_canonical (l2Fill_canonical (hostShare_canonical hs))
  · exact modDir_canonical (l2Fill_canonical (hostShare_canonical hs))
  · exact modDir_canonical (l2Fill_canonical (hostShare_canonical hs))
  · exact canonical_ite (l2Fill_canonical (hostShare_canonical hs)) (modDir_canonical (l2Fill_canonical (hostShare_canonical hs)))

theorem dirGetM_canonical {s : State} {k line : Nat} (hs : Canonical s) : Canonical (s.dirGetM k line).2 := by
  have hl : Canonical ((s.hostTake line).l2Fill line) := l2Fill_canonical (hostTake_canonical hs)
  unfold State.dirGetM
  exact canonical_ite_snd hl (modDir_canonical (canonical_foldl (fun _ h1 _ => dropLine_canonical h1) hl))

theorem dirPut_canonical {s : State} {k line : Nat} {m : BitVec 128} (hs : Canonical s) : Canonical (s.dirPut k line m) :=
  canonical_ite (modDir_canonical hs) (markDirty_canonical hs)

theorem gaveUp_canonical {s : State} {k line : Nat} {m : BitVec 128} (hs : Canonical s) : Canonical (s.gaveUp k line m) :=
  canonical_ite (dirPut_canonical hs) (markDirty_canonical hs)

theorem dropOwn_canonical {s : State} {core line : Nat} (hs : Canonical s) : Canonical (s.dropOwn core line) :=
  gaveUp_canonical (dropL1_canonical hs)

theorem applyTrans_canonical {s : State} {t : Transition} (hs : Canonical s) : Canonical (s.applyTrans t) :=
  canonical_ite (markDirty_canonical (dirGetM_canonical hs)) (dirGetS_canonical hs)

theorem drainTrans_canonical {s : State} {line n1 : Nat} (hs : Canonical s) : Canonical (s.drainTrans line n1) := by
  induction n1 generalizing s with
  | zero => exact hs
  | succ n ih =>
    unfold State.drainTrans
    split
    · exact hs
    · exact ih (applyTrans_canonical (modPkg_canonical hs))

theorem evictPage_canonical {s : State} {pa : Nat} (hs : Canonical s) : Canonical (s.evictPage pa) :=
  canonical_foldl (fun _ h1 _ => evictLine_canonical (hostTake_canonical h1)) hs

theorem flipBias_canonical {s : State} {d page : Nat} {toHost : Bool} (hs : Canonical s) : Canonical (s.flipBias d page toHost) :=
  canonical_ite (modDie_canonical (canonical_foldl (fun _ h1 _ => evictLine_canonical h1) hs))
      (modDie_canonical (canonical_foldl (fun _ h1 _ => hostTake_canonical h1) hs))

theorem endFlip_canonical {s : State} {d : Nat} (hs : Canonical s) : Canonical (s.endFlip d) :=
  canonical_ite (modDie_canonical (flipBias_canonical hs)) hs

theorem settleFlip_canonical {s : State} {pa : Nat} (hs : Canonical s) : Canonical (s.settleFlip pa) := by
  unfold State.settleFlip
  split
  · exact canonical_ite (endFlip_canonical hs) hs
  · exact hs

theorem reach_canonical {s : State} {line : Nat} (hs : Canonical s) : Canonical (s.reach line) :=
  canonical_ite (modPkg_canonical (drainTrans_canonical (settleFlip_canonical hs))) (drainTrans_canonical (settleFlip_canonical hs))

theorem setRouter_canonical {s : State} {d r : Nat} {x : Router} (hs : Canonical s) : Canonical (s.setRouter d r x) :=
  modDie_canonical hs

theorem crossRouters_canonical {s : State} {d n1 : Nat} {xs : List Nat} (hs : Canonical s) : Canonical (s.crossRouters d n1 xs) := by
  induction xs generalizing s n1 with
  | nil => exact hs
  | cons x xs ih => exact ih (setRouter_canonical hs)

theorem travel_canonical {s : State} {k pa : Nat} (hs : Canonical s) : Canonical (s.travel k pa) := by
  unfold State.travel
  split
  · exact hs
  · exact canonical_ite (crossRouters_canonical hs) hs

theorem takeHome_canonical {s : State} {line : Nat} {m : BitVec 128} (hs : Canonical s) : Canonical (s.takeHome line m) :=
  markDirty_canonical (l2Fill_canonical (backInvalidate_canonical (hostTake_canonical (reach_canonical hs))))

theorem unitStore_canonical {s : State} {pa : Nat} {bs : List Byte} (hs : Canonical s) : Canonical (s.unitStore pa bs) :=
  writePhys_canonical (canonical_ite (takeHome_canonical hs) hs)

theorem rangeReport_canonical {s : State} {r : RangeCount} {kind queue : Nat} (hs : Canonical s) : Canonical (s.rangeReport r kind queue) :=
  canonical_ite hs (canonical_ite (modPkg_canonical hs) (modPkg_canonical (unitStore_canonical hs)))

theorem countRange_canonical {s : State} {asid va : Nat} {write home fill : Bool} (hs : Canonical s) : Canonical
    (s.countRange asid va write home fill) :=
  canonical_ite hs (modPkg_canonical (canonical_foldl (fun _ h1 _ => canonical_ite h1 (rangeReport_canonical h1)) hs))

theorem sliceRead_canonical {s : State} {k asid va pa : Nat} (hs : Canonical s) : Canonical (s.sliceRead k asid va pa) :=
  canonical_ite hs (canonical_ite (modDir_canonical (countRange_canonical
      (l2Fill_canonical (hostShare_canonical (reach_canonical (travel_canonical hs))))))
      (countRange_canonical (l2Fill_canonical (hostShare_canonical (reach_canonical (travel_canonical hs))))))

theorem unitFetch_canonical {s : State} {asid : Nat} {priv : Bool} {part va n : Nat} (hs : Canonical s) : Canonical
    (s.unitFetch asid priv part va n).2 := by
  unfold State.unitFetch
  split
  · exact hs
  · exact sliceRead_canonical hs

theorem sliceWrite_canonical {s : State} {k asid va pa n : Nat} (hs : Canonical s) : Canonical (s.sliceWrite k asid va pa n) :=
  canonical_ite hs (countRange_canonical (takeHome_canonical (travel_canonical hs)))

theorem l1Insert_canonical {s : State} {c : Nat} {x : L1Line} {strm : Bool} (hs : Canonical s) : Canonical (s.l1Insert c x strm) := by
  unfold State.l1Insert
  dsimp only
  split
  · exact modCore_canonical (canonical_foldl (fun _ h1 _ => dropOwn_canonical h1) hs)
  · split
    · exact modCore_canonical (canonical_foldl (fun _ h1 _ => dropOwn_canonical h1) hs)
    · exact modCore_canonical (dropOwn_canonical (canonical_foldl (fun _ h1 _ => dropOwn_canonical h1) hs))

theorem consumeCount_canonical {s : State} {c : Nat} {x : L1Line} {n : Nat} (hs : Canonical s) : Canonical (s.consumeCount c x n) :=
  canonical_ite (dropOwn_canonical hs) (modCore_canonical hs)

theorem l1Read_canonical {s : State} {c asid : Nat} {p : Piece} {h hint : Nat} {pref : Bool} (hs : Canonical s) : Canonical
    (s.l1Read c asid p h hint pref) := by
  unfold State.l1Read
  dsimp only
  refine canonical_ite hs (canonical_ite (sliceRead_canonical hs) ?_)
  split
  · split
    · exact hs
    · exact canonical_ite hs (consumeCount_canonical hs)
  · exact canonical_ite (sliceRead_canonical hs) (canonical_ite (modCore_canonical hs)
        (canonical_ite (gaveUp_canonical (countRange_canonical (dirGetS_canonical (reach_canonical (travel_canonical hs)))))
        (l1Insert_canonical (countRange_canonical (dirGetS_canonical (reach_canonical (travel_canonical hs)))))))

theorem obtainM_canonical {s : State} {k line : Nat} (hs : Canonical s) : Canonical (s.obtainM k line).2 := by
  have hr : Canonical ((s.reach line).dirGetM k line).2 := dirGetM_canonical (reach_canonical hs)
  unfold State.obtainM
  dsimp only
  exact hr

theorem l1Write_canonical {s : State} {c asid : Nat} {p : Piece} {h : Nat} (hs : Canonical s) : Canonical (s.l1Write c asid p h) := by
  unfold State.l1Write
  dsimp only
  refine canonical_ite hs (canonical_ite (sliceWrite_canonical hs) ?_)
  split
  · exact modCore_canonical (countRange_canonical (canonical_foldl (fun _ h1 _ => dropL1_canonical h1)
        (dropBuf_canonical (obtainM_canonical (canonical_ite hs (travel_canonical hs))))))
  · exact l1Insert_canonical (countRange_canonical (canonical_foldl (fun _ h1 _ => dropL1_canonical h1)
        (dropBuf_canonical (obtainM_canonical (canonical_ite hs (travel_canonical hs))))))

theorem unitLine_canonical {s : State} {k asid va pa n : Nat} (hs : Canonical s) : Canonical (s.unitLine k asid va pa n) := by
  unfold State.unitLine
  dsimp only
  refine modCluster_canonical ?_
  split
  · exact countRange_canonical (dropLine_canonical (obtainM_canonical (canonical_ite hs (travel_canonical hs))))
  · exact gaveUp_canonical (dropBuf_canonical (countRange_canonical (dropLine_canonical
        (obtainM_canonical (canonical_ite hs (travel_canonical hs))))))

/-! ## The operations of Machine/Links -/

theorem modPort_canonical {s : State} {i : Nat} {f : Port → Port} (hs : Canonical s) : Canonical (s.modPort i f) :=
  modDie_canonical hs

theorem sendFlit_canonical {s : State} {n id : Nat} (hs : Canonical s) : Canonical (s.sendFlit n id) := by
  unfold State.sendFlit
  split
  · exact modPkg_canonical hs
  · exact modPort_canonical hs

theorem post_canonical {s : State} {o : Outside} (hs : Canonical s) : Canonical (s.post o) :=
  canonical_ite (sendFlit_canonical (modPkg_canonical hs)) (modPkg_canonical hs)

theorem unitWrite_canonical {s : State} {asid va pa : Nat} {bs : List Byte} (hs : Canonical s) : Canonical (s.unitWrite asid va pa bs) := by
  unfold State.unitWrite
  dsimp only
  split
  · exact post_canonical (modPkg_canonical (fresh_canonical hs))
  · exact writePhys_canonical (sliceWrite_canonical hs)

/-! ## The operations of Machine/Front -/

theorem writeSignal_canonical {s : State} {d asid : Nat} {priv : Bool} {part addr value : Nat} (hs : Canonical s) : Canonical
    (s.writeSignal d asid priv part addr value) := by
  unfold State.writeSignal
  refine canonical_ite hs ?_
  split
  · exact count_canonical hs
  · exact canonical_ite (count_canonical hs) (unitWrite_canonical hs)

theorem signalPacket_canonical {s : State} {d : Nat} {p : Packet} (hs : Canonical s) : Canonical (s.signalPacket d p) :=
  canonical_ite (modPkg_canonical (writeSignal_canonical hs)) (writeSignal_canonical hs)

theorem treeEvent_canonical {s : State} {d : Nat} {slot : Option Nat} {delta : Int} (hs : Canonical s) : Canonical (s.treeEvent d slot delta) := by
  unfold State.treeEvent
  split
  · exact hs
  · exact modDie_canonical hs

theorem dropPacket_canonical {s : State} {d n : Nat} (hs : Canonical s) : Canonical (s.dropPacket d n) :=
  modPkg_canonical (modDie_canonical hs)

theorem packetDone_canonical {s : State} {d n : Nat} (hs : Canonical s) : Canonical (s.packetDone d n) := by
  unfold State.packetDone
  split
  · exact hs
  · exact canonical_ite hs (canonical_ite (modDie_canonical hs) (canonical_ite hs
        (canonical_ite (dropPacket_canonical hs) (dropPacket_canonical (signalPacket_canonical hs)))))

theorem treeDone_canonical {s : State} {d slot n : Nat} (hs : Canonical s) : Canonical (s.treeDone d slot n) := by
  unfold State.treeDone
  dsimp only
  refine canonical_ite hs ?_
  split
  · exact modDie_canonical hs
  · exact dropPacket_canonical (signalPacket_canonical (modDie_canonical hs))

theorem writeAnswered_canonical {s : State} {d n : Nat} (hs : Canonical s) : Canonical (s.writeAnswered d n) := by
  unfold State.writeAnswered
  dsimp only
  split
  · exact packetDone_canonical hs
  · refine canonical_ite (packetDone_canonical hs) ?_
    split
    · exact packetDone_canonical hs
    · split
      · exact canonical_ite (treeDone_canonical (packetDone_canonical hs)) (packetDone_canonical hs)
      · exact packetDone_canonical hs

theorem groupsEnded_canonical {s : State} {d n count : Nat} (hs : Canonical s) : Canonical (s.groupsEnded d n count) := by
  unfold State.groupsEnded
  dsimp only
  split
  · exact hs
  · exact packetDone_canonical (treeEvent_canonical (modDie_canonical hs))

theorem packetCause_canonical {s : State} {d n : Nat} {cause : Byte} (hs : Canonical s) : Canonical (s.packetCause d n cause) := by
  unfold State.packetCause
  split
  · exact hs
  · exact canonical_ite hs (modDie_canonical hs)

theorem passComplete_canonical {s : State} {d slot : Nat} (hs : Canonical s) : Canonical (s.passComplete d slot) := by
  unfold State.passComplete
  dsimp only
  split
  · exact hs
  · exact canonical_ite hs (modDie_canonical (writeSignal_canonical hs))

theorem releaseTile_canonical {s : State} {d entry : Nat} (hs : Canonical s) : Canonical (s.releaseTile d entry) := by
  unfold State.releaseTile
  split
  · exact hs
  · exact canonical_ite hs (canonical_ite (modDie_canonical hs) (passComplete_canonical (modDie_canonical hs)))

theorem releaseRecords_canonical {s : State} {d : Nat} {rs : List (BitVec 128)} (hs : Canonical s) : Canonical (s.releaseRecords d rs) :=
  canonical_foldl (fun _ h1 _ => canonical_ite (releaseTile_canonical h1) h1) hs

theorem retireGroup_canonical {s : State} {c w g : Nat} (hs : Canonical s) : Canonical (s.retireGroup c w g) := by
  unfold State.retireGroup
  dsimp only
  split
  · exact hs
  · split
    · exact hs
    · refine canonical_ite hs (groupsEnded_canonical ?_)
      split
      · exact canonical_ite (packetCause_canonical (releaseRecords_canonical (modGroup_canonical hs)))
            (releaseRecords_canonical (modGroup_canonical hs))
      · exact releaseRecords_canonical (modGroup_canonical hs)

theorem retireFinished_canonical {s : State} {c w : Nat} (hs : Canonical s) : Canonical (s.retireFinished c w) := by
  unfold State.retireFinished
  split
  · exact hs
  · refine canonical_foldl (fun _ h1 _ => ?_) hs
    split
    · exact canonical_ite (retireGroup_canonical h1) h1
    · exact h1

theorem withdrawChurn_canonical {s : State} {d : Nat} {p : Who → Bool} (hs : Canonical s) : Canonical (s.withdrawChurn d p) :=
  canonical_ite hs (modPkg_canonical (modDie_canonical hs))

theorem dropIdleTails_canonical {s : State} {d : Nat} (hs : Canonical s) : Canonical (s.dropIdleTails d) := by
  unfold State.dropIdleTails
  dsimp only
  refine canonical_foldl (fun _ h1 _ => ?_) hs
  split
  · exact h1
  · exact canonical_ite h1 (modDie_canonical h1)

theorem withdrawSeals_canonical {s : State} {core wg : Nat} (hs : Canonical s) : Canonical (s.withdrawSeals core wg) :=
  modDie_canonical hs

theorem abortWg_canonical {s : State} {c w : Nat} {cause : Byte} (hs : Canonical s) : Canonical (s.abortWg c w cause) := by
  unfold State.abortWg
  dsimp only
  split
  · exact hs
  · exact retireFinished_canonical (canonical_ite (withdrawSeals_canonical
        (dropIdleTails_canonical (withdrawChurn_canonical (canonical_ite (modWg_canonical (packetCause_canonical hs))
        (modWg_canonical (packetCause_canonical hs)))))) (modCluster_canonical
        (withdrawSeals_canonical (dropIdleTails_canonical (withdrawChurn_canonical
        (canonical_ite (modWg_canonical (packetCause_canonical hs)) (modWg_canonical (packetCause_canonical hs))))))))

/-! ## The operations of Machine/Ops -/

theorem modCur_canonical {s : State} {f : Group → Group} (hs : Canonical s) : Canonical (s.modCur f) :=
  modGroup_canonical hs

theorem modCurWg_canonical {s : State} {f : Workgroup → Workgroup} (hs : Canonical s) : Canonical (s.modCurWg f) :=
  modWg_canonical hs

theorem ctx_issueTrap_canonical {c : Ctx} {cause : Cause} {s : State} (hs : Canonical s) : (c.issueTrap cause s).Canonical :=
  hs

theorem ctx_fault_canonical {c : Ctx} {cause : Cause} {s : State} (hs : Canonical s) : (c.fault cause s).Canonical :=
  hs

theorem ctx_openFault_canonical {c : Ctx} {cause : Cause} {s : State} (hs : Canonical s) : (c.openFault cause s).Canonical :=
  draw_canonical hs

theorem faultAt_canonical {cause : Cause} {lanes : List Nat} {addr : W64} {s : State} (hs : Canonical s) :
    (faultAt cause lanes addr s).Canonical :=
  hs

theorem takeTrap_canonical {s : State} {c w g : Nat} {path : List Nat} {pc : Nat} {t : Trap} {late : Bool} (hs : Canonical s) : Canonical
    (s.takeTrap c w g path pc t late) := by
  unfold State.takeTrap
  split
  · exact hs
  · exact canonical_ite (abortWg_canonical hs) (tally_canonical (modGroup_canonical hs))

theorem poison_canonical {s : State} {g : Group} {xs : List (RegName × W64)} (hs : Canonical s) : Canonical (poison s g xs).2 := by
  induction xs generalizing s g with
  | nil => exact hs
  | cons x xs ih => exact ih (drawList_canonical hs)

theorem ctx_poisoned_canonical {c : Ctx} {u : Uses} {e : List (RegName × W64)} {s : State} (hs : Canonical s) : Canonical (c.poisoned u e s).2 :=
  poison_canonical hs

theorem ctx_checked_canonical {c : Ctx} {u : Uses} {s : State} {body : Ctx → State → Did} (hs : Canonical s)
    (hbody : ∀ x1, ∀ t2, Canonical t2 → (body x1 t2).Canonical) : (c.checked u s body).Canonical := by
  unfold Ctx.checked
  dsimp only
  refine did_ite (ctx_issueTrap_canonical hs) (did_ite hs (did_ite (ctx_issueTrap_canonical hs) ?_))
  split
  · exact did_ite (ctx_poisoned_canonical (ctx_poisoned_canonical hs)) (modCur_canonical (ctx_poisoned_canonical (ctx_poisoned_canonical hs)))
  · exact did_ite (ctx_poisoned_canonical (ctx_poisoned_canonical hs)) (hbody _ _ (ctx_poisoned_canonical (ctx_poisoned_canonical hs)))

theorem advance_canonical {s : State} {path : List Nat} (hs : Canonical s) : Canonical (s.advance path) :=
  modCur_canonical hs

theorem ctx_finish_canonical {c : Ctx} {u : Uses} {s0 : State} {d : Did} (hs1 : Canonical s0) (hs2 : d.Canonical) : Canonical (c.finish u s0 d) :=
    by
  unfold Ctx.finish
  dsimp only
  split
  · exact advance_canonical hs2
  · exact modCur_canonical (advance_canonical hs2)
  · exact canonical_ite hs1 (takeTrap_canonical hs2)
  · exact hs2
  · exact modCur_canonical hs2
  · exact abortWg_canonical hs2

theorem modCurSlice_canonical {s : State} {f : Slice → Slice} (hs : Canonical s) : Canonical (s.modCurSlice f) :=
  modSlice_canonical hs

theorem sliceFault_canonical {s : State} {cause : Cause} {addr : W64} (hs : Canonical s) : Canonical (s.sliceFault cause addr) :=
  modCurSlice_canonical hs

theorem finishSlice_canonical {s0 : State} {d : SliceDid} (hs1 : Canonical s0) (hs2 : d.Canonical) : Canonical (s0.finishSlice d) := by
  unfold State.finishSlice
  dsimp only
  split
  · exact modCurSlice_canonical hs2
  · exact sliceFault_canonical hs1
  · exact hs2
  · exact modCurSlice_canonical hs2

theorem sliceWord_canonical {s : State} {u : Uses} {body : Slice → State → SliceDid} (hs : Canonical s)
    (hbody : ∀ x1, ∀ t2, Canonical t2 → (body x1 t2).Canonical) : (s.sliceWord u body).Canonical := by
  unfold State.sliceWord
  split
  · exact trivial
  · exact slice_ite trivial (slice_ite (hbody _ _ hs) hs)

theorem groupWord_canonical {u : Uses} {s : State} {body : Ctx → Uses → State → Did} (hs : Canonical s)
    (hbody : ∀ x1, ∀ x2, ∀ t3, Canonical t3 → (body x1 x2 t3).Canonical) : Leads (groupWord u s body) := by
  unfold groupWord
  refine leads_ite ?_ ?_
  · split
    · exact leads_fault
    · exact leads_next (finishSlice_canonical hs trivial)
  · split
    · exact leads_fault
    · exact leads_next (ctx_finish_canonical hs (ctx_checked_canonical hs (fun _ _ h2 => hbody _ _ _ h2)))

theorem bothWord_canonical {u : Uses} {s : State} {body : Ctx → Uses → State → Did} {sl : Slice → State → SliceDid} (hs : Canonical s)
    (hbody : ∀ x1, ∀ x2, ∀ t3, Canonical t3 → (body x1 x2 t3).Canonical) (hsl : ∀ x1, ∀ t2, Canonical t2 → (sl x1 t2).Canonical) : Leads
    (bothWord u s body sl) := by
  unfold bothWord
  refine leads_ite ?_ (groupWord_canonical hs (fun _ _ _ h3 => hbody _ _ _ h3))
  split
  · exact leads_fault
  · exact leads_next (finishSlice_canonical hs (sliceWord_canonical hs (fun _ _ h2 => hsl _ _ h2)))

theorem sliceOnly_canonical {u : Uses} {s : State} {sl : Slice → State → SliceDid} (hs : Canonical s)
    (hsl : ∀ x1, ∀ t2, Canonical t2 → (sl x1 t2).Canonical) : Leads (sliceOnly u s sl) :=
  bothWord_canonical hs (fun _ _ _ h3 => ctx_issueTrap_canonical h3) (fun _ _ h2 => hsl _ _ h2)

theorem ctx_apply_canonical {c : Ctx} {u : Uses} {k : Cls} {o : Out} {s : State} (hs : Canonical s) : Canonical (c.apply u k o s) :=
  modCur_canonical hs

theorem ctx_takeIn_canonical {c : Ctx} {u : Uses} {o : Out} {s : State} {next : State → Did} (hs : Canonical s)
    (hnext : ∀ t1, Canonical t1 → (next t1).Canonical) : (c.takeIn u o s next).Canonical := by
  unfold Ctx.takeIn
  refine did_ite (ctx_fault_canonical hs) (did_ite (did_ite hs (ctx_fault_canonical hs)) (did_ite hs ?_))
  split
  · exact hs
  · exact hnext _ hs

theorem ctx_commit_canonical {c : Ctx} {u : Uses} {o : Out} {s : State} {next : State → Did} (hs : Canonical s)
    (hnext : ∀ t1, Canonical t1 → (next t1).Canonical) : (c.commit u o s next).Canonical :=
  ctx_takeIn_canonical hs (fun _ h1 => hnext _ (ctx_apply_canonical h1))

theorem ctx_plain_canonical {c : Ctx} {u : Uses} {s : State} {next : State → Did} (hs : Canonical s)
    (hnext : ∀ t1, Canonical t1 → (next t1).Canonical) : (c.plain u s next).Canonical :=
  ctx_commit_canonical hs (fun _ h1 => hnext _ h1)

/-! ## The operations of Machine/Control -/

theorem goTo_canonical {s : State} {ts : List (Nat × Nat)} (hs : Canonical s) : Canonical (s.goTo ts) :=
  modCur_canonical hs

theorem sliceGoTo_canonical {s : State} {t : Nat} (hs : Canonical s) : Canonical (s.sliceGoTo t) :=
  modCurSlice_canonical hs

theorem jumpGroup_canonical {a : Nat} {link : Option Nat} {c : Ctx} {u : Uses} {s : State} (hs : Canonical s) :
    (jumpGroup a link c u s).Canonical :=
  did_ite hs (ctx_commit_canonical hs (fun _ h1 => goTo_canonical h1))

theorem jumpSlice_canonical {a : Nat} {link : Option Nat} {x : Slice} {s : State} (hs : Canonical s) : (jumpSlice a link x s).Canonical := by
  unfold jumpSlice
  dsimp only
  refine slice_ite trivial (sliceGoTo_canonical ?_)
  split
  · exact hs
  · exact modCurSlice_canonical hs

theorem setJoin_canonical {s : State} {j : Nat} {m : W64} (hs : Canonical s) : Canonical (s.setJoin j m) :=
  modCur_canonical hs

theorem execBr_canonical {c q k o : Nat} {s : State} (hs : Canonical s) : Leads (execBr c q k o s) :=
  bothWord_canonical hs (fun _ _ _ h3 => goTo_canonical h3) (fun _ _ h2 => slice_ite (sliceGoTo_canonical h2) h2)

theorem execCall_canonical {c d o : Nat} {s : State} (hs : Canonical s) : Leads (execCall c d o s) :=
  bothWord_canonical hs (fun _ _ _ h3 => ctx_commit_canonical h3 (fun _ h1 => goTo_canonical h1))
      (fun _ _ h2 => sliceGoTo_canonical (modCurSlice_canonical h2))

theorem execRet_canonical {c a : Nat} {s : State} (hs : Canonical s) : Leads (execRet c a s) :=
  bothWord_canonical hs (fun _ _ _ h3 => jumpGroup_canonical h3) (fun _ _ h2 => jumpSlice_canonical h2)

theorem execJmpr_canonical {c d a l : Nat} {s : State} (hs : Canonical s) : Leads (execJmpr c d a l s) :=
  bothWord_canonical hs (fun _ _ _ h3 => jumpGroup_canonical h3) (fun _ _ h2 => jumpSlice_canonical h2)

theorem execSplitj_canonical {c j : Nat} {s : State} (hs : Canonical s) : Leads (execSplitj c j s) :=
  groupWord_canonical hs (fun _ _ _ h3 => setJoin_canonical h3)

theorem execJoin_canonical {c j : Nat} {s : State} (hs : Canonical s) : Leads (execJoin c j s) :=
  groupWord_canonical hs (fun _ _ _ h3 => modCur_canonical h3)

theorem execExit_canonical {c : Nat} {s : State} (hs : Canonical s) : Leads (execExit c s) := by
  unfold execExit
  refine bothWord_canonical hs (fun _ _ _ h3 => ?_) (fun _ _ h2 => modCurSlice_canonical h2)
  split
  · exact modCur_canonical h3
  · exact modCur_canonical h3
  · exact modCur_canonical h3

theorem execYield_canonical {c : Nat} {s : State} (hs : Canonical s) : Leads (execYield c s) :=
  groupWord_canonical hs (fun _ _ _ h3 => modCur_canonical h3)

theorem execJmaskGet_canonical {c j d : Nat} {s : State} (hs : Canonical s) : Leads (execJmaskGet c j d s) :=
  groupWord_canonical hs (fun _ _ _ h3 => ctx_commit_canonical h3 (fun _ h1 => h1))

theorem execJmaskSet_canonical {c j a : Nat} {s : State} (hs : Canonical s) : Leads (execJmaskSet c j a s) := by
  unfold execJmaskSet
  refine groupWord_canonical hs (fun _ _ _ h3 => ?_)
  split
  · exact h3
  · exact setJoin_canonical h3

theorem execJmaskAdd_canonical {c j : Nat} {s : State} (hs : Canonical s) : Leads (execJmaskAdd c j s) :=
  groupWord_canonical hs (fun _ _ _ h3 => setJoin_canonical h3)

theorem execJmaskDel_canonical {c j : Nat} {s : State} (hs : Canonical s) : Leads (execJmaskDel c j s) :=
  groupWord_canonical hs (fun _ _ _ h3 => setJoin_canonical h3)

theorem execJmaskClr_canonical {c j : Nat} {s : State} (hs : Canonical s) : Leads (execJmaskClr c j s) :=
  groupWord_canonical hs (fun _ _ _ h3 => setJoin_canonical h3)

/-! ## The operations of Machine/Fetch -/

theorem fetchWord_canonical {s : State} {core asid : Nat} {priv : Bool} {part pc : Nat} (hs : Canonical s) : Canonical
    (s.fetchWord core asid priv part pc).2 := by
  unfold State.fetchWord
  dsimp only
  refine canonical_ite_snd hs ?_
  split
  · exact canonical_snd (translate_canonical hs) ‹_›
  · refine canonical_ite_snd (canonical_snd (translate_canonical hs) ‹_›) ?_
    split
    · exact canonical_snd (translate_canonical hs) ‹_›
    · exact canonical_snd (translate_canonical hs) ‹_›

theorem fetchCur_canonical {s : State} {pc : Nat} (hs : Canonical s) : Canonical (s.fetchCur pc).2 := by
  unfold State.fetchCur
  split
  · exact hs
  · exact fetchWord_canonical hs

theorem stepFault_canonical {s : State} {cause : Cause} {addr : W64} (hs : Canonical s) : Canonical (s.stepFault cause addr) := by
  unfold State.stepFault
  dsimp only
  refine canonical_ite (sliceFault_canonical hs) ?_
  split
  · exact hs
  · exact ctx_finish_canonical hs hs

/-! ## The operations of Machine/Place -/

theorem pieces_canonical {s : State} {core asid : Nat} {bypass : Bool} {va n : Nat} (hs : Canonical s) : Canonical
    (s.pieces core asid bypass va n).2 :=
  canonical_ite_snd (translate_canonical hs) (translate_canonical (translate_canonical hs))

theorem place_canonical {s : State} {core : Nat} {w : Workgroup} {laneless : Bool} {k : Acc} {a : W64} (hs : Canonical s) : Canonical
    (s.place core w laneless k a).2 := by
  unfold State.place
  dsimp only
  refine canonical_ite_snd hs (canonical_ite_snd (canonical_ite_snd (canonical_ite_snd hs hs) (canonical_ite_snd (canonical_ite_snd hs hs) hs))
      (canonical_ite_snd hs ?_))
  split
  · exact pieces_canonical hs
  · exact pieces_canonical hs

theorem places_canonical {s : State} {core : Nat} {w : Workgroup} {k : Acc} {xs : List (Nat × W64)} (hs : Canonical s) : Canonical
    (s.places core w k xs).2 := by
  induction xs generalizing s with
  | nil => exact hs
  | cons x xs ih => exact ih (place_canonical hs)

theorem writePlace_canonical {s : State} {core slot g l : Nat} {bs : List Byte} {p : Place} (hs : Canonical s) :
    Canonical (s.writePlace core slot g l bs p) := by
  unfold State.writePlace
  split
  · exact modWg_canonical hs
  · exact modGroup_canonical hs
  · exact canonical_foldl_fst (fun _ h1 _ => writePhys_canonical h1) hs

theorem l1Reads_canonical {s : State} {core asid h hint : Nat} {ps : List Piece} (hs : Canonical s) : Canonical (s.l1Reads core asid h hint ps) :=
  canonical_foldl (fun _ h1 _ => l1Read_canonical h1) hs

theorem l1Writes_canonical {s : State} {core asid h : Nat} {ps : List Piece} (hs : Canonical s) : Canonical (s.l1Writes core asid h ps) :=
  canonical_foldl (fun _ h1 _ => l1Write_canonical h1) hs

theorem storeOutside_canonical {s : State} {who : Who} {lane pa : Nat} {va : W64} {mmio : Bool} {bs : List Byte} (hs : Canonical s) : Canonical
    (s.storeOutside who lane pa va mmio bs) :=
  canonical_ite (canonical_ite (count_canonical (modPkg_canonical hs)) (modPkg_canonical hs))
      (post_canonical (fresh_canonical (modPkg_canonical hs)))

theorem storePlace_canonical {s : State} {who : Who} {asid l h : Nat} {va : W64} {bs : List Byte} {p : Place} (hs : Canonical s) :
    Canonical (s.storePlace who asid l h va bs p) := by
  unfold State.storePlace
  split
  · refine canonical_ite (canonical_foldl_fst (fun _ h1 _ => ?_) hs) (writePlace_canonical (l1Writes_canonical hs))
    exact canonical_ite (storeOutside_canonical h1) (writePhys_canonical (l1Write_canonical h1))
  · exact writePlace_canonical hs

/-! ## The operations of Machine/Memory -/

theorem sendLoad_canonical {s : State} {who : Who} {b d : Nat} {work : OutsideWork} {acq : Bool} {va : W64} {ls : List Nat} {p : Piece}
    (hs : Canonical s) : Canonical (s.sendLoad who b d work acq va ls p) :=
  modGroup_canonical (post_canonical (fresh_canonical hs))

theorem sendImage_canonical {s : State} {c : Ctx} {w : Nat} {acq : Bool} {va : W64} {ls : List Nat} {ps : List Piece} (hs : Canonical s) :
    Canonical (s.sendImage c w acq va ls ps) :=
  canonical_foldl (fun _ h1 _ => post_canonical (fresh_canonical h1)) hs

theorem loadGroup_canonical {k : Acc} {d a o z h : Nat} {acq : Bool} {c : Ctx} {u : Uses} {s : State} (hs : Canonical s) :
    (loadGroup k d a o z h acq c u s).Canonical := by
  unfold loadGroup
  dsimp only
  refine did_ite hs (did_ite hs (ctx_takeIn_canonical (places_canonical hs)
      (fun _ h1 => did_ite (canonical_foldl (fun _ h1 _ => sendImage_canonical h1) (fresh_canonical (l1Reads_canonical h1))) ?_)))
  split
  · exact l1Reads_canonical h1
  · exact canonical_ite (canonical_foldl (fun _ h1 _ => sendLoad_canonical h1)
        (ctx_apply_canonical (canonical_ite (l1Reads_canonical h1) (fresh_canonical (l1Reads_canonical h1)))))
        (modCur_canonical (canonical_foldl (fun _ h1 _ => sendLoad_canonical h1)
        (ctx_apply_canonical (canonical_ite (l1Reads_canonical h1) (fresh_canonical (l1Reads_canonical h1))))))

theorem loadSlice_canonical {f : MMem} {x : Slice} {s : State} (hs : Canonical s) : (loadSlice f x s).Canonical := by
  unfold loadSlice
  dsimp only
  refine slice_ite trivial ?_
  split
  · exact trivial
  · split
    · exact trivial
    · refine slice_ite hs (slice_ite ?_ (slice_ite trivial (modCurSlice_canonical (l1Reads_canonical (canonical_snd (place_canonical hs) ‹_›)))))
      split
      · exact post_canonical (fresh_canonical (canonical_snd (place_canonical hs) ‹_›))
      · exact trivial

theorem execLd_canonical {f : MMem} {s : State} (hs : Canonical s) : Leads (execLd f s) :=
  bothWord_canonical hs (fun _ _ _ h3 => loadGroup_canonical h3) (fun _ _ h2 => loadSlice_canonical h2)

theorem storeGroup_canonical {f : MMem} {rel : Bool} {c : Ctx} {u : Uses} {s : State} (hs : Canonical s) : (storeGroup f rel c u s).Canonical := by
  unfold storeGroup
  dsimp only
  refine did_ite (ctx_plain_canonical hs (fun _ h1 => h1)) (did_ite hs (did_ite hs ?_))
  split
  · exact places_canonical hs
  · refine did_ite hs (ctx_plain_canonical (places_canonical hs) (fun _ h1 => canonical_foldl (fun _ h1 _ => ?_) h1))
    split
    · exact h1
    · exact storePlace_canonical h1

theorem granPlaces_canonical {s : State} {c : Ctx} {k : Acc} {a : W64} {l rows : Nat} (hs : Canonical s) : Canonical
    (s.granPlaces c k a l rows).2 :=
  places_canonical hs

theorem allGranPlaces_canonical {s : State} {c : Ctx} {k : Acc} {addr : Nat → W64} {rows : Nat} {xs : List (Nat × Nat × Bool)} (hs : Canonical s)
    : Canonical (s.allGranPlaces c k addr rows xs).2 := by
  induction xs generalizing s with
  | nil => exact hs
  | cons x xs ih => exact ih (granPlaces_canonical hs)

theorem execLdg_canonical {f : MGran} {s : State} (hs : Canonical s) : Leads (execLdg f s) :=
  groupWord_canonical hs (fun _ _ _ h3 => did_ite h3 (did_ite h3 (ctx_takeIn_canonical (allGranPlaces_canonical h3)
      (fun _ h1 => canonical_ite (ctx_apply_canonical (canonical_ite (l1Reads_canonical h1) (fresh_canonical (l1Reads_canonical h1))))
      (modCur_canonical (ctx_apply_canonical (canonical_ite (l1Reads_canonical h1) (fresh_canonical (l1Reads_canonical h1)))))))))

theorem execStg_canonical {f : MGran} {s : State} (hs : Canonical s) : Leads (execStg f s) := by
  unfold execStg
  dsimp only
  refine groupWord_canonical hs (fun _ _ _ h3 => did_ite (ctx_plain_canonical h3 (fun _ h1 => h1)) (did_ite h3 ?_))
  split
  · exact allGranPlaces_canonical h3
  · refine did_ite h3 (ctx_plain_canonical (allGranPlaces_canonical h3)
        (fun _ h1 => canonical_foldl (fun _ h1 _ => canonical_foldl (fun _ h1 _ => ?_) h1) h1))
    split
    · exact h1
    · exact storePlace_canonical h1

theorem prefetch_canonical {s : State} {core asid sc h hint : Nat} {ps : List Piece} (hs : Canonical s) : Canonical
    (s.prefetch core asid sc h hint ps) :=
  canonical_foldl (fun _ h1 _ => canonical_ite (l1Read_canonical h1) (canonical_ite (countRange_canonical (l2Fill_canonical (reach_canonical h1)))
      h1)) hs

theorem execPref_canonical {c a o sc h : Nat} {s : State} (hs : Canonical s) : Leads (execPref c a o sc h s) :=
  groupWord_canonical hs (fun _ _ _ h3 => did_ite (ctx_plain_canonical h3 (fun _ h1 => h1))
      (ctx_plain_canonical (places_canonical h3) (fun _ h1 => canonical_ite (prefetch_canonical h1) h1)))

theorem writeBackLine_canonical {s : State} {core line : Nat} {toMemory : Bool} (hs : Canonical s) : Canonical
    (s.writeBackLine core line toMemory) :=
  canonical_ite (modDir_canonical (canonical_ite hs (markDirty_canonical (modCore_canonical hs))))
      (canonical_ite hs (markDirty_canonical (modCore_canonical hs)))

theorem exposeLine_canonical {s : State} {line : Nat} {m : BitVec 128} (hs : Canonical s) : Canonical (s.exposeLine line m) :=
  State.exposeLine_wf line m hs

theorem invalidateLine_canonical {s : State} {core line : Nat} {toMemory : Bool} (hs : Canonical s) : Canonical
    (s.invalidateLine core line toMemory) :=
  canonical_ite (gaveUp_canonical (dropL1_canonical (canonical_ite (modDir_canonical (canonical_ite hs (exposeLine_canonical hs)))
      (canonical_ite hs (exposeLine_canonical hs))))) (canonical_ite (modDir_canonical (canonical_ite hs (exposeLine_canonical hs)))
      (canonical_ite hs (exposeLine_canonical hs)))

theorem cleanPriv_canonical {s : State} {l o : Nat} (hs : Canonical s) : Canonical (s.cleanPriv l o) :=
  modCur_canonical hs

theorem exposePriv_canonical {s : State} {c : Ctx} {l o : Nat} (hs : Canonical s) : Canonical (s.exposePriv c l o) :=
  cleanPriv_canonical (modCur_canonical (drawList_canonical hs))

theorem lineGroup_canonical {zero : Bool} {a o : Nat} {onGlobal : State → Piece → State} {onPriv : Ctx → State → Nat → Nat → State}
    {onScratch : State → Nat → State} {c : Ctx} {u : Uses} {s : State} (honGlobal : ∀ t1, Canonical t1 → ∀ x2, Canonical (onGlobal t1 x2))
    (honPriv : ∀ x1, ∀ t2, Canonical t2 → ∀ x3, ∀ x4, Canonical (onPriv x1 t2 x3 x4))
    (honScratch : ∀ t1, Canonical t1 → ∀ x2, Canonical (onScratch t1 x2)) (hs : Canonical s) :
    (lineGroup zero a o onGlobal onPriv onScratch c u s).Canonical := by
  unfold lineGroup
  dsimp only
  refine did_ite (ctx_plain_canonical hs (fun _ h1 => h1)) (did_ite hs ?_)
  split
  · exact places_canonical hs
  · refine did_ite hs (ctx_plain_canonical (places_canonical hs) (fun _ h1 => canonical_foldl (fun _ h1 _ => ?_) h1))
    split
    · exact h1
    · exact honScratch _ h1 _
    · exact honPriv _ _ h1 _ _
    · exact canonical_foldl (fun _ h1 _ => canonical_ite h1 (honGlobal _ h1 _)) h1

theorem execLineWb_canonical {c a o sc : Nat} {s : State} (hs : Canonical s) : Leads (execLineWb c a o sc s) :=
  groupWord_canonical hs (fun _ _ _ h3 => lineGroup_canonical (fun _ h1 _ => writeBackLine_canonical h1)
      (fun _ _ h2 _ _ => cleanPriv_canonical h2) (fun _ h1 _ => h1) h3)

theorem execLineInv_canonical {c a o sc : Nat} {s : State} (hs : Canonical s) : Leads (execLineInv c a o sc s) :=
  groupWord_canonical hs (fun _ _ _ h3 => lineGroup_canonical (fun _ h1 _ => invalidateLine_canonical h1)
      (fun _ _ h2 _ _ => exposePriv_canonical h2) (fun _ h1 _ => h1) h3)

theorem execLineWbinv_canonical {c a o sc : Nat} {s : State} (hs : Canonical s) : Leads (execLineWbinv c a o sc s) :=
  groupWord_canonical hs (fun _ _ _ h3 => lineGroup_canonical (fun _ h1 _ => invalidateLine_canonical (writeBackLine_canonical h1))
      (fun _ _ h2 _ _ => cleanPriv_canonical h2) (fun _ h1 _ => h1) h3)

theorem execLineZero_canonical {c a o _sc : Nat} {s : State} (hs : Canonical s) : Leads (execLineZero c a o _sc s) :=
  groupWord_canonical hs (fun _ _ _ h3 => lineGroup_canonical (fun _ h1 _ => writePhys_canonical (l1Write_canonical h1))
      (fun _ _ h2 _ _ => writePlace_canonical h2) (fun _ h1 _ => writePlace_canonical h1) h3)

theorem fenceGroup_canonical {acq rel : Bool} {sc : Nat} {c : Ctx} {u : Uses} {s : State} (hs : Canonical s) :
    (fenceGroup acq rel sc c u s).Canonical :=
  did_ite hs (ctx_plain_canonical hs (fun _ h1 => h1))

theorem execCacheIfetch_canonical {c : Nat} {s : State} (hs : Canonical s) : Leads (execCacheIfetch c s) :=
  groupWord_canonical hs (fun _ _ _ h3 => ctx_plain_canonical h3 (fun _ h1 => h1))

theorem execCacheWb_canonical {c : Nat} {s : State} (hs : Canonical s) : Leads (execCacheWb c s) :=
  groupWord_canonical hs (fun _ _ _ h3 => ctx_plain_canonical h3 (fun _ h1 => canonical_foldl (fun _ h1 _ => writeBackLine_canonical h1) h1))

theorem execCacheWbinv_canonical {c : Nat} {s : State} (hs : Canonical s) : Leads (execCacheWbinv c s) :=
  groupWord_canonical hs (fun _ _ _ h3 => ctx_plain_canonical h3 (fun _ h1 => canonical_foldl
      (fun _ h1 _ => dropOwn_canonical (writeBackLine_canonical h1)) h1))

/-! ## The operations of Machine/System -/

theorem execNop_canonical {c : Nat} {s : State} (hs : Canonical s) : Leads (execNop c s) :=
  bothWord_canonical hs (fun _ _ _ h3 => h3) (fun _ _ h2 => h2)

theorem execEret_canonical {c : Nat} {s : State} (hs : Canonical s) : Leads (execEret c s) :=
  groupWord_canonical hs (fun _ _ _ h3 => did_ite (ctx_issueTrap_canonical h3) (did_ite h3 (goTo_canonical (modCur_canonical h3))))

theorem writeControl_canonical {a r : Nat} {f : W32 → W32 → W32} {c : Ctx} {n1 : Uses} {s : State} (hs : Canonical s) :
    (writeControl a r f c n1 s).Canonical := by
  unfold writeControl
  split
  · exact ctx_issueTrap_canonical hs
  · split
    · exact hs
    · exact modCur_canonical hs

theorem execCrr_canonical {c d r : Nat} {s : State} (hs : Canonical s) : Leads (execCrr c d r s) := by
  unfold execCrr
  dsimp only
  refine groupWord_canonical hs (fun _ _ _ h3 => ?_)
  split
  · exact ctx_issueTrap_canonical h3
  · exact ctx_commit_canonical h3 (fun _ h1 => h1)

theorem execQuota_canonical {c q a b : Nat} {s : State} (hs : Canonical s) : Leads (execQuota c q a b s) := by
  unfold execQuota
  dsimp only
  refine groupWord_canonical hs (fun _ _ _ h3 => ?_)
  split
  · exact did_ite (ctx_commit_canonical h3 (fun _ h1 => h1)) (did_ite (did_ite h3 (ctx_fault_canonical h3))
        (ctx_commit_canonical h3 (fun _ h1 => modGroup_canonical (modCur_canonical h1))))
  · exact h3

theorem execSleep_canonical {c n : Nat} {s : State} (hs : Canonical s) : Leads (execSleep c n s) :=
  groupWord_canonical hs (fun _ _ _ h3 => did_ite h3 (fresh_canonical h3))

theorem invalidate_canonical {s : State} {k kind asid va : Nat} (hs : Canonical s) : Canonical (s.invalidate k kind asid va) :=
  canonical_foldl (fun _ h1 _ => canonical_foldl (fun _ h1 _ => dropOwn_canonical (writeBackLine_canonical h1)) h1) (modCluster_canonical hs)

theorem invalidateGroup_canonical {kind va : Nat} {c : Ctx} {u : Uses} {s : State} (hs : Canonical s) :
    (invalidateGroup kind va c u s).Canonical :=
  did_ite hs (ctx_plain_canonical hs (fun _ h1 => canonical_foldl (fun _ h1 _ => invalidate_canonical h1) h1))

theorem execTlbinvPage_canonical {c a : Nat} {s : State} (hs : Canonical s) : Leads (execTlbinvPage c a s) := by
  unfold execTlbinvPage
  dsimp only
  refine groupWord_canonical hs (fun _ _ _ h3 => ?_)
  split
  · exact h3
  · exact invalidateGroup_canonical h3

theorem firmwareGroup_canonical {d a : Nat} {reply : Ctx → State → W64 → W64} {c : Ctx} {u : Uses} {s : State} (hs : Canonical s) :
    (firmwareGroup d a reply c u s).Canonical := by
  unfold firmwareGroup
  split
  · exact hs
  · exact did_ite hs (ctx_commit_canonical hs (fun _ h1 => h1))

theorem execRep_canonical {n d a b : Nat} {s : State} (hs : Canonical s) : Leads (execRep n d a b s) := by
  unfold execRep
  refine groupWord_canonical hs fun x _ t ht => ?_
  have hf : Canonical (t.fetchCur (x.pc + 1)).2 := fetchCur_canonical ht
  dsimp only
  split
  · exact canonical_snd hf ‹_›
  · next w t' hw =>
    have ht' : Canonical t' := canonical_snd hf hw
    exact did_ite (ctx_issueTrap_canonical ht') (did_ite (ctx_issueTrap_canonical ht') ht')

/-! ## The operations of Machine/Sync -/

theorem ctx_sleepOn_canonical {c : Ctx} {u : Uses} {d : Option Nat} {sh : Shape} {s : State} {next : State → Did} (hs : Canonical s)
    (hnext : ∀ t1, Canonical t1 → (next t1).Canonical) : (c.sleepOn u d sh s next).Canonical :=
  ctx_takeIn_canonical hs (fun _ h1 => hnext _ h1)

theorem syncGroup_canonical {a b : Nat} {body : Ctx → Uses → Nat → Nat → W64 → State → Did} {c : Ctx} {u : Uses} {s : State}
    (hbody : ∀ x1, ∀ x2, ∀ x3, ∀ x4, ∀ x5, ∀ t6, Canonical t6 → (body x1 x2 x3 x4 x5 t6).Canonical) (hs : Canonical s) :
    (syncGroup a b body c u s).Canonical := by
  unfold syncGroup
  split
  · split
    · exact hs
    · exact hbody _ _ _ _ _ _ hs
  · exact hs

theorem execSwinit_canonical {c a b : Nat} {s : State} (hs : Canonical s) : Leads (execSwinit c a b s) :=
  groupWord_canonical hs (fun _ _ _ h3 => syncGroup_canonical (fun _ _ _ _ _ _ h6 => ctx_plain_canonical h6 (fun _ h1 => modCurWg_canonical h1))
      h3)

theorem execSwadd_canonical {c a b : Nat} {s : State} (hs : Canonical s) : Leads (execSwadd c a b s) :=
  groupWord_canonical hs (fun _ _ _ h3 => syncGroup_canonical (fun _ _ _ _ _ _ h6 => ctx_plain_canonical h6 (fun _ h1 => modCurWg_canonical h1))
      h3)

theorem execSwwait_canonical {c a b : Nat} {s : State} (hs : Canonical s) : Leads (execSwwait c a b s) := by
  unfold execSwwait
  dsimp only
  refine groupWord_canonical hs (fun _ _ _ h3 => syncGroup_canonical (fun x _ off _ _ _ h6 => ?_) h3)
  split
  · exact modCur_canonical h6
  · generalize syncGen (x.wg.word off) = gen
    exact did_ite (ctx_plain_canonical h6 (fun _ h1 => h1)) (fresh_canonical h6)

theorem bankOp_canonical {s : State} {core slot n : Nat} {f : Workgroup → Workgroup} (hs : Canonical s) : Canonical (s.bankOp core slot n f) := by
  unfold State.bankOp
  dsimp only
  split
  · exact modWg_canonical hs
  · exact next_canonical (modWg_canonical hs)

theorem curBank_canonical {s : State} {n : Nat} {f : Workgroup → Workgroup} (hs : Canonical s) : Canonical (s.curBank n f) :=
  bankOp_canonical hs

theorem qpushGroup_canonical {a n : Nat} {c : Ctx} {u : Uses} {s : State} (hs : Canonical s) : (qpushGroup a n c u s).Canonical := by
  unfold qpushGroup
  generalize queueOk c.wg n = ok
  generalize queueLen c.wg n = len
  exact did_ite hs (did_ite hs (did_ite (modCurWg_canonical (fresh_canonical hs)) (ctx_plain_canonical hs fun _ h1 => curBank_canonical h1)))

theorem qpushSlice_canonical {a n : Nat} {x : Slice} {s : State} (hs : Canonical s) : (qpushSlice a n x s).Canonical := by
  unfold qpushSlice
  split
  · exact trivial
  next w _ =>
    generalize queueOk w n = ok
    generalize queueLen w n = len
    exact slice_ite trivial (slice_ite (modCurWg_canonical (fresh_canonical hs)) (curBank_canonical hs))

theorem execQpush_canonical {c a n : Nat} {s : State} (hs : Canonical s) : Leads (execQpush c a n s) :=
  bothWord_canonical hs (fun _ _ _ h3 => qpushGroup_canonical h3) (fun _ _ h2 => qpushSlice_canonical h2)

theorem qpopGroup_canonical {d n : Nat} {c : Ctx} {u : Uses} {s : State} (hs : Canonical s) : (qpopGroup d n c u s).Canonical := by
  unfold qpopGroup
  generalize queueOk c.wg n = ok
  generalize queueLen c.wg n = len
  exact did_ite (ctx_commit_canonical hs fun _ h1 => h1)
    (did_ite (ctx_sleepOn_canonical hs fun _ h1 => modCurWg_canonical (fresh_canonical h1))
      (ctx_commit_canonical hs fun _ h1 => curBank_canonical h1))

theorem qpopSlice_canonical {d n : Nat} {x : Slice} {s : State} (hs : Canonical s) : (qpopSlice d n x s).Canonical := by
  unfold qpopSlice
  split
  · exact trivial
  next w _ =>
    generalize queueOk w n = ok
    generalize queueLen w n = len
    exact slice_ite trivial (slice_ite (modCurWg_canonical (fresh_canonical hs)) (modCurSlice_canonical (curBank_canonical hs)))

theorem execQpop_canonical {c d n : Nat} {s : State} (hs : Canonical s) : Leads (execQpop c d n s) :=
  bothWord_canonical hs (fun _ _ _ h3 => qpopGroup_canonical h3) (fun _ _ h2 => qpopSlice_canonical h2)

theorem qtryGroup_canonical {d q n : Nat} {c : Ctx} {u : Uses} {s : State} (hs : Canonical s) : (qtryGroup d q n c u s).Canonical := by
  unfold qtryGroup
  generalize queueOk c.wg n = ok
  generalize queueLen c.wg n = len
  exact did_ite (ctx_commit_canonical hs fun _ h1 => h1)
    (did_ite (ctx_commit_canonical hs fun _ h1 => h1) (ctx_commit_canonical hs fun _ h1 => curBank_canonical h1))

theorem qtrySlice_canonical {d q n : Nat} {x : Slice} {s : State} (hs : Canonical s) : (qtrySlice d q n x s).Canonical := by
  unfold qtrySlice
  split
  · exact trivial
  next w _ =>
    generalize queueOk w n = ok
    generalize queueLen w n = len
    exact slice_ite trivial (slice_ite (modCurSlice_canonical hs) (modCurSlice_canonical (curBank_canonical hs)))

theorem execQtry_canonical {c d q n : Nat} {s : State} (hs : Canonical s) : Leads (execQtry c d q n s) :=
  bothWord_canonical hs (fun _ _ _ h3 => qtryGroup_canonical h3) (fun _ _ h2 => qtrySlice_canonical h2)

theorem barGroup_canonical {a b : Nat} {d : Option Nat} {body : Ctx → Uses → Nat → Nat → W64 → State → Did} {c : Ctx} {u : Uses} {s : State}
    (hbody : ∀ x1, ∀ x2, ∀ x3, ∀ x4, ∀ x5, ∀ t6, Canonical t6 → (body x1 x2 x3 x4 x5 t6).Canonical) (hs : Canonical s) :
    (barGroup a b d body c u s).Canonical := by
  unfold barGroup
  dsimp only
  split
  · split
    · exact ctx_commit_canonical hs (fun _ h1 => h1)
    · exact hbody _ _ _ _ _ _ hs
  · exact hs

theorem execBarinit_canonical {c a b : Nat} {s : State} (hs : Canonical s) : Leads (execBarinit c a b s) :=
  groupWord_canonical hs (fun _ _ _ h3 => barGroup_canonical (fun _ _ _ _ _ _ h6 => ctx_plain_canonical h6 (fun _ h1 => modCurWg_canonical h1)) h3)

theorem arriveGroup_canonical {d : Nat} {drop : Bool} {c : Ctx} {u : Uses} {off v : Nat} {p : W64} {s : State} (hs : Canonical s) :
    (arriveGroup d drop c u off v p s).Canonical := by
  unfold arriveGroup
  dsimp only
  split
  · have hd := ctx_commit_canonical (c := c) (u := u) (next := Did.done) (o := { Out.v d .p32 (c.all (elemN (c.wg.bar off).phase)) with
      err := some (c.objectTrap .barOverrun p) }) hs fun _ h1 => h1
    split
    · exact did_ite (modCurWg_canonical (did_canonical hd ‹_›)) (did_canonical hd ‹_›)
    · exact hd
  · exact ctx_commit_canonical hs fun _ h1 => canonical_ite (next_canonical (modCurWg_canonical h1)) (modCurWg_canonical h1)

theorem execBarrive_canonical {c d a b : Nat} {s : State} (hs : Canonical s) : Leads (execBarrive c d a b s) :=
  groupWord_canonical hs (fun _ _ _ h3 => barGroup_canonical (fun _ _ _ _ _ _ h6 => arriveGroup_canonical h6) h3)

theorem execBardrop_canonical {c d a b : Nat} {s : State} (hs : Canonical s) : Leads (execBardrop c d a b s) :=
  groupWord_canonical hs (fun _ _ _ h3 => barGroup_canonical (fun _ _ _ _ _ _ h6 => arriveGroup_canonical h6) h3)

theorem execBarwait_canonical {c q a b e : Nat} {s : State} (hs : Canonical s) : Leads (execBarwait c q a b e s) := by
  unfold execBarwait
  dsimp only
  refine groupWord_canonical hs (fun _ _ _ h3 => ?_)
  split
  · exact h3
  · exact barGroup_canonical (fun _ _ _ _ _ _ h6 => did_ite (ctx_commit_canonical h6 (fun _ h1 => h1))
        (canonical_ite (modCurWg_canonical (fresh_canonical h6)) (modCurWg_canonical (fresh_canonical h6)))) h3

/-! ## The operations of Machine/Async -/

theorem execAslice_canonical {c q a b : Nat} {s : State} (hs : Canonical s) : Leads (execAslice c q a b s) := by
  unfold execAslice
  refine groupWord_canonical hs (fun _ _ _ h3 => ?_)
  split
  · exact did_ite (faultAt_canonical h3) (did_ite (ctx_commit_canonical h3 (fun _ h1 => h1))
        (ctx_commit_canonical h3 (fun _ h1 => modCurWg_canonical h1)))
  · exact h3

theorem execAwait_canonical {c q : Nat} {s : State} (hs : Canonical s) : Leads (execAwait c q s) := by
  unfold execAwait
  dsimp only
  refine groupWord_canonical hs (fun _ _ _ h3 => did_ite (fresh_canonical h3) ?_)
  split
  · exact modCurWg_canonical h3
  · exact ctx_commit_canonical h3 (fun _ h1 => h1)

theorem engineLine_canonical {s : State} {core : Nat} {w : Workgroup} {copy : Bool} {va n : Nat} (hs : Canonical s) : Canonical
    (s.engineLine core w copy va n).2 := by
  unfold State.engineLine
  dsimp only
  split
  · exact canonical_snd (translate_canonical hs) ‹_›
  · split
    · exact canonical_snd (translate_canonical hs) ‹_›
    · exact canonical_ite (sliceRead_canonical (canonical_snd (translate_canonical hs) ‹_›))
          (l1Read_canonical (canonical_snd (translate_canonical hs) ‹_›))

theorem engineLines_canonical {s : State} {core : Nat} {w : Workgroup} {copy : Bool} {n1 n2 n3 : Nat} (hs : Canonical s) : Canonical
    (s.engineLines core w copy n1 n2 n3).2 := by
  induction n1 generalizing s n2 n3 with
  | zero => exact hs
  | succ n ih =>
    unfold State.engineLines
    dsimp only
    refine canonical_ite_snd hs ?_
    split
    · exact canonical_snd (canonical_ite_snd hs (canonical_ite_snd hs (engineLine_canonical hs))) ‹_›
    · split
      · exact canonical_snd (ih (canonical_snd (canonical_ite_snd hs (canonical_ite_snd hs (engineLine_canonical hs))) ‹_›)) ‹_›
      · exact canonical_snd (ih (canonical_snd (canonical_ite_snd hs (canonical_ite_snd hs (engineLine_canonical hs))) ‹_›)) ‹_›

theorem engineBytes_canonical {s : State} {core : Nat} {w : Workgroup} {copy : Bool} {va n : Nat} (hs : Canonical s) : Canonical
    (s.engineBytes core w copy va n).2 :=
  engineLines_canonical hs

theorem sideByte_canonical {s : State} {core : Nat} {w : Workgroup} {e : BitVec 512} {o p k : Nat} (hs : Canonical s) : Canonical
    (s.sideByte core w e o p k).2 := by
  unfold State.sideByte
  refine canonical_ite_snd hs (canonical_ite_snd hs ?_)
  split
  · exact canonical_snd (engineBytes_canonical hs) ‹_›
  · exact canonical_snd (engineBytes_canonical hs) ‹_›

theorem sideBytes_canonical {s : State} {core : Nat} {w : Workgroup} {e : BitVec 512} {o p n1 n2 : Nat} (hs : Canonical s) : Canonical
    (s.sideBytes core w e o p n1 n2).2 := by
  induction n2 generalizing s n1 with
  | zero => exact hs
  | succ n ih =>
    unfold State.sideBytes
    split
    · exact canonical_snd (sideByte_canonical hs) ‹_›
    · split
      · exact canonical_snd (ih (canonical_snd (sideByte_canonical hs) ‹_›)) ‹_›
      · exact canonical_snd (ih (canonical_snd (sideByte_canonical hs) ‹_›)) ‹_›

theorem rowTag_canonical {s : State} {core : Nat} {w : Workgroup} {e : BitVec 512} {o p : Nat} (hs : Canonical s) : Canonical
    (s.rowTag core w e o p).2 := by
  unfold State.rowTag
  refine canonical_ite_snd hs ?_
  split
  · exact canonical_snd (engineBytes_canonical hs) ‹_›
  · exact canonical_ite_snd (canonical_snd (engineBytes_canonical hs) ‹_›) (canonical_snd (engineBytes_canonical hs) ‹_›)

theorem pushRow_canonical {s : State} {core : Nat} {w : Workgroup} {p : Push} (hs : Canonical s) : Canonical (s.pushRow core w p).2 := by
  unfold State.pushRow
  dsimp only
  split
  · exact canonical_snd (engineBytes_canonical hs) ‹_›
  · split
    · exact canonical_snd (sideBytes_canonical (canonical_snd (engineBytes_canonical hs) ‹_›)) ‹_›
    · split
      · exact canonical_snd (rowTag_canonical (canonical_snd (sideBytes_canonical (canonical_snd (engineBytes_canonical hs) ‹_›)) ‹_›)) ‹_›
      · exact canonical_snd (rowTag_canonical (canonical_snd (sideBytes_canonical (canonical_snd (engineBytes_canonical hs) ‹_›)) ‹_›)) ‹_›

theorem execPusht_canonical {c f t x n : Nat} {s : State} (hs : Canonical s) : Leads (execPusht c f t x n s) := by
  unfold execPusht
  dsimp only
  refine sliceOnly_canonical hs (fun _ _ h2 => ?_)
  split
  · exact trivial
  · refine slice_ite trivial ?_
    split
    · exact trivial
    · exact slice_ite trivial (slice_ite trivial (slice_ite trivial (modCurWg_canonical h2)))

theorem execPushtRowPlaced_canonical {core wg : Nat} {s : State} (hs : Canonical s) : Leads (execPushtRowPlaced core wg s) := by
  unfold execPushtRowPlaced
  split
  · exact leads_next hs
  · split
    · exact leads_next hs
    · refine leads_ite (leads_next hs) ?_
      split
      · exact leads_next (modSlice_canonical (canonical_snd (pushRow_canonical hs) ‹_›))
      · exact leads_next (chargeUnit_canonical (modWg_canonical (canonical_snd (pushRow_canonical hs) ‹_›)))

theorem tidTrap_canonical {c : Ctx} {s : State} (hs : Canonical s) : (tidTrap c s).Canonical :=
  ctx_openFault_canonical hs

theorem execTidset_canonical {c a i : Nat} {s : State} (hs : Canonical s) : Leads (execTidset c a i s) := by
  unfold execTidset
  dsimp only
  refine groupWord_canonical hs (fun _ _ _ h3 => ?_)
  split
  · exact h3
  · split
    · exact faultAt_canonical (canonical_snd (place_canonical h3) ‹_›)
    · exact did_ite (canonical_snd (place_canonical h3) ‹_›) (did_ite (faultAt_canonical (canonical_snd (place_canonical h3) ‹_›))
          (did_ite (tidTrap_canonical (l1Reads_canonical (canonical_snd (place_canonical h3) ‹_›)))
          (ctx_plain_canonical (l1Reads_canonical (canonical_snd (place_canonical h3) ‹_›)) (fun _ h1 => modCurWg_canonical h1))))

theorem execTidget_canonical {c a i : Nat} {s : State} (hs : Canonical s) : Leads (execTidget c a i s) := by
  unfold execTidget
  refine groupWord_canonical hs (fun _ _ _ h3 => ?_)
  split
  · exact h3
  · split
    · exact faultAt_canonical (canonical_snd (place_canonical h3) ‹_›)
    · refine did_ite (canonical_snd (place_canonical h3) ‹_›) ?_
      split
      · exact tidTrap_canonical (canonical_snd (place_canonical h3) ‹_›)
      · exact canonical_snd (place_canonical h3) ‹_›
      · exact ctx_plain_canonical (canonical_snd (place_canonical h3) ‹_›) (fun _ h1 => storePlace_canonical (modCurWg_canonical h1))

theorem execCopy_canonical {c a b m : Nat} {s : State} (hs : Canonical s) : Leads (execCopy c a b m s) := by
  unfold execCopy
  dsimp only
  refine groupWord_canonical hs (fun _ _ _ h3 => ?_)
  split
  · refine did_ite (faultAt_canonical h3) (did_ite (faultAt_canonical h3) (did_ite (faultAt_canonical h3) (did_ite (faultAt_canonical h3) ?_)))
    split
    · exact tidTrap_canonical h3
    · exact h3
    · exact did_ite (tidTrap_canonical h3) (ctx_plain_canonical h3 (fun _ h1 => modCurWg_canonical (fresh_canonical h1)))
  · exact h3

theorem copyBytes_canonical {s : State} {core : Nat} {w : Workgroup} {p : Copy} (hs : Canonical s) : Canonical (s.copyBytes core w p).2 := by
  unfold State.copyBytes
  split
  · exact canonical_snd (engineBytes_canonical hs) ‹_›
  · exact canonical_snd (engineBytes_canonical hs) ‹_›

theorem execCopyRow_canonical {core wg id : Nat} {s : State} (hs : Canonical s) : Leads (execCopyRow core wg id s) := by
  unfold execCopyRow
  split
  · exact leads_next hs
  · split
    · exact leads_next hs
    · refine leads_ite (leads_next hs) ?_
      split
      · exact leads_next (modWg_canonical (canonical_snd (copyBytes_canonical hs) ‹_›))
      · exact leads_next (chargeUnit_canonical (modWg_canonical (canonical_snd (copyBytes_canonical hs) ‹_›)))

/-! ## The operations of Machine/Atomic -/

theorem atomAt_canonical {s : State} {c : Ctx} {aop w l x y : Nat} {p : Place} (hs : Canonical s) : Canonical (s.atomAt c aop w l x y p).2 :=
  writePlace_canonical hs

theorem atomCaches_canonical {s : State} {c : Ctx} {sc : Nat} {ps : List Piece} (hs : Canonical s) : Canonical (s.atomCaches c sc ps) :=
  canonical_ite (l1Writes_canonical hs) (canonical_foldl (fun _ h1 _ => sliceWrite_canonical h1) hs)

theorem awaitOld_canonical {s : State} {f : AAtom} {n : Nat} {ls : List Nat} (hs : Canonical s) : Canonical (s.awaitOld f n ls) :=
  canonical_ite (modCur_canonical hs) hs

theorem toUnit_canonical {s : State} {c : Ctx} {f : AAtom} {aop w b : Nat} {addr : Nat → W64} {ls : List (Nat × Nat × W64 × W64)}
    (hs : Canonical s) : Canonical (s.toUnit c f aop w b addr ls) :=
  canonical_ite hs (next_canonical (awaitOld_canonical (modCluster_canonical hs)))

theorem postAtoms_canonical {s : State} {c : Ctx} {f : AAtom} {aop w b : Nat} {xs : List (List Nat × Piece)} (hs : Canonical s) : Canonical
    (s.postAtoms c f aop w b xs) :=
  canonical_foldl (fun _ h1 _ => awaitOld_canonical (post_canonical (fresh_canonical h1))) hs

theorem atomLanes_canonical {s : State} {c : Ctx} {f : AAtom} {aop n : Nat} {xs : List (Nat × Place)} (hs : Canonical s) :
    Canonical (s.atomLanes c f aop n xs).st := by
  induction xs generalizing s with
  | nil => exact hs
  | cons x xs ih =>
    obtain ⟨l, p⟩ := x
    unfold State.atomLanes
    dsimp only
    split
    · exact ih hs
    · exact ih hs
    · split
      · exact ih hs
      · exact ih (atomAt_canonical (atomCaches_canonical hs))

theorem atomGroup_canonical {aop : Nat} {f : AAtom} {c : Ctx} {u : Uses} {s : State} (hs : Canonical s) : (atomGroup aop f c u s).Canonical := by
  unfold atomGroup
  dsimp only
  refine did_ite (ctx_commit_canonical hs fun _ h1 => h1) (did_ite hs (did_ite hs (did_ite hs ?_)))
  refine ctx_takeIn_canonical (places_canonical hs) fun t h1 => ?_
  have hl (n : Nat) (xs : List (Nat × Place)) : Canonical (t.atomLanes c f aop n xs).st.fresh.2 := fresh_canonical (atomLanes_canonical h1)
  exact canonical_ite (modCur_canonical (postAtoms_canonical (toUnit_canonical (ctx_apply_canonical (hl _ _)))))
    (postAtoms_canonical (toUnit_canonical (ctx_apply_canonical (hl _ _))))

theorem execAtomAdd_canonical {f : AAtom} {s : State} (hs : Canonical s) : Leads (execAtomAdd f s) :=
  groupWord_canonical hs (fun _ _ _ h3 => atomGroup_canonical h3)

theorem execAtomMin_canonical {f : AAtom} {s : State} (hs : Canonical s) : Leads (execAtomMin f s) :=
  groupWord_canonical hs (fun _ _ _ h3 => atomGroup_canonical h3)

theorem execAtomMax_canonical {f : AAtom} {s : State} (hs : Canonical s) : Leads (execAtomMax f s) :=
  groupWord_canonical hs (fun _ _ _ h3 => atomGroup_canonical h3)

theorem execAtomNmin_canonical {f : AAtom} {s : State} (hs : Canonical s) : Leads (execAtomNmin f s) :=
  groupWord_canonical hs (fun _ _ _ h3 => atomGroup_canonical h3)

theorem execAtomNmax_canonical {f : AAtom} {s : State} (hs : Canonical s) : Leads (execAtomNmax f s) :=
  groupWord_canonical hs (fun _ _ _ h3 => atomGroup_canonical h3)

theorem execAtomAnd_canonical {f : AAtom} {s : State} (hs : Canonical s) : Leads (execAtomAnd f s) :=
  groupWord_canonical hs (fun _ _ _ h3 => atomGroup_canonical h3)

theorem execAtomOr_canonical {f : AAtom} {s : State} (hs : Canonical s) : Leads (execAtomOr f s) :=
  groupWord_canonical hs (fun _ _ _ h3 => atomGroup_canonical h3)

theorem execAtomXor_canonical {f : AAtom} {s : State} (hs : Canonical s) : Leads (execAtomXor f s) :=
  groupWord_canonical hs (fun _ _ _ h3 => atomGroup_canonical h3)

theorem execAtomXchg_canonical {f : AAtom} {s : State} (hs : Canonical s) : Leads (execAtomXchg f s) :=
  groupWord_canonical hs (fun _ _ _ h3 => atomGroup_canonical h3)

theorem execAtomCas_canonical {f : AAtom} {s : State} (hs : Canonical s) : Leads (execAtomCas f s) :=
  groupWord_canonical hs (fun _ _ _ h3 => atomGroup_canonical h3)

theorem execAtomFadd_canonical {f : AAtom} {s : State} (hs : Canonical s) : Leads (execAtomFadd f s) :=
  groupWord_canonical hs (fun _ _ _ h3 => atomGroup_canonical h3)

theorem execAtomFmin_canonical {f : AAtom} {s : State} (hs : Canonical s) : Leads (execAtomFmin f s) :=
  groupWord_canonical hs (fun _ _ _ h3 => atomGroup_canonical h3)

theorem execAtomFmax_canonical {f : AAtom} {s : State} (hs : Canonical s) : Leads (execAtomFmax f s) :=
  groupWord_canonical hs (fun _ _ _ h3 => atomGroup_canonical h3)

theorem execAtomIncw_canonical {f : AAtom} {s : State} (hs : Canonical s) : Leads (execAtomIncw f s) :=
  groupWord_canonical hs (fun _ _ _ h3 => atomGroup_canonical h3)

theorem execAtomDecw_canonical {f : AAtom} {s : State} (hs : Canonical s) : Leads (execAtomDecw f s) :=
  groupWord_canonical hs (fun _ _ _ h3 => atomGroup_canonical h3)

/-! ## The operations of Machine/Launch -/

theorem execSread_canonical {c d k : Nat} {s : State} (hs : Canonical s) : Leads (execSread c d k s) :=
  groupWord_canonical hs (fun _ _ _ h3 => did_ite (ctx_issueTrap_canonical h3) (ctx_commit_canonical h3 (fun _ h1 => h1)))

theorem execTime_canonical {c d : Nat} {s : State} (hs : Canonical s) : Leads (execTime c d s) :=
  groupWord_canonical hs (fun _ _ _ h3 => ctx_commit_canonical h3 (fun _ h1 => h1))

theorem execEnergy_canonical {c d : Nat} {s : State} (hs : Canonical s) : Leads (execEnergy c d s) :=
  groupWord_canonical hs (fun _ _ _ h3 => ctx_commit_canonical h3 (fun _ h1 => h1))

theorem execEnergyQ_canonical {c d a : Nat} {s : State} (hs : Canonical s) : Leads (execEnergyQ c d a s) := by
  unfold execEnergyQ
  dsimp only
  refine groupWord_canonical hs (fun _ _ _ h3 => ?_)
  split
  · exact h3
  · exact did_ite (ctx_commit_canonical h3 (fun _ h1 => h1)) (ctx_commit_canonical h3 (fun _ h1 => h1))

theorem refusePacket_canonical {s : State} {d q : Nat} {b : BitVec 512} (hs : Canonical s) : Canonical (s.refusePacket d q b) :=
  canonical_ite (modPkg_canonical (writeSignal_canonical (modDie_canonical hs))) (writeSignal_canonical (modDie_canonical hs))

theorem ringWrite_canonical {s : State} {d q : Nat} {b : BitVec 512} {tree : Option Nat} {depth : Nat} (hs : Canonical s) : Canonical
    (s.ringWrite d q b tree depth) := by
  unfold State.ringWrite
  dsimp only
  split
  · exact modDie_canonical (unitWrite_canonical hs)
  · exact refusePacket_canonical hs

theorem placeReleased_canonical {s : State} {d q n1 : Nat} (hs : Canonical s) : Canonical (s.placeReleased d q n1) := by
  induction n1 generalizing s with
  | zero => exact hs
  | succ n ih =>
    unfold State.placeReleased
    dsimp only
    split
    · exact hs
    · exact canonical_ite hs (ih (ringWrite_canonical (modDie_canonical hs)))

theorem enqOne_canonical {s : State} {c : Ctx} {x : EnqLane} (hs : Canonical s) : Canonical (s.enqOne c x).2 :=
  canonical_ite_snd hs (canonical_ite_snd (placeReleased_canonical hs) (treeEvent_canonical (ringWrite_canonical (placeReleased_canonical hs))))

theorem enqAll_canonical {s : State} {c : Ctx} {xs : List EnqLane} (hs : Canonical s) : Canonical (s.enqAll c xs).2 := by
  induction xs generalizing s with
  | nil => exact hs
  | cons x xs ih => exact ih (enqOne_canonical hs)

theorem putPreds_canonical {s : State} {q : Nat} {vs : List (Nat × Tri)} (hs : Canonical s) : Canonical (s.putPreds q vs) :=
  modCur_canonical hs

theorem execEnq_canonical {c q a b : Nat} {s : State} (hs : Canonical s) : Leads (execEnq c q a b s) := by
  unfold execEnq
  dsimp only
  refine groupWord_canonical hs (fun _ _ _ h3 => did_ite h3 ?_)
  split
  · exact places_canonical h3
  · exact did_ite h3 (did_ite (faultAt_canonical (l1Reads_canonical (places_canonical h3)))
        (ctx_commit_canonical (l1Reads_canonical (places_canonical h3))
        (fun _ h1 => canonical_ite (putPreds_canonical (enqAll_canonical h1))
        (modCur_canonical (putPreds_canonical (fresh_canonical (enqAll_canonical h1)))))))

/-! ## The operations of Machine/Bins -/

theorem modBin_canonical {s : State} {d k : Nat} {f : Bin → Bin} (hs : Canonical s) : Canonical (s.modBin d k f) :=
  modDie_canonical hs

theorem dropPixels_canonical {s : State} {d : Nat} {rs : List (BitVec 128)} (hs : Canonical s) : Canonical (s.dropPixels d rs) := by
  unfold State.dropPixels
  refine canonical_foldl (fun _ h1 _ => canonical_ite ?_ h1) hs
  split
  · exact h1
  · exact modDie_canonical h1

theorem dropRecords_canonical {s : State} {d k : Nat} {rs : List (BitVec 128)} (hs : Canonical s) : Canonical (s.dropRecords d k rs) :=
  count_canonical (releaseRecords_canonical (dropPixels_canonical (modBin_canonical hs)))

theorem launchBin_canonical {s : State} {d k : Nat} {quad : Bool} (hs : Canonical s) : Canonical (s.launchBin d k quad) := by
  unfold State.launchBin
  dsimp only
  split
  · exact hs
  · exact modDie_canonical (modBin_canonical hs)

theorem launchBins_canonical {s : State} {d k : Nat} {all : Bool} {n1 : Nat} (hs : Canonical s) : Canonical (s.launchBins d k all n1) := by
  induction n1 generalizing s with
  | zero => exact hs
  | succ n ih => exact canonical_ite (ih (launchBin_canonical hs)) (canonical_ite (ih (launchBin_canonical hs)) hs)

theorem settleBin_canonical {s : State} {d k : Nat} (hs : Canonical s) : Canonical (s.settleBin d k) := by
  unfold State.settleBin
  dsimp only
  refine canonical_ite hs (modBin_canonical ?_)
  split
  · exact hs
  · exact modDie_canonical hs

theorem flushBin_canonical {s : State} {d k : Nat} {all : Bool} (hs : Canonical s) : Canonical (s.flushBin d k all) :=
  settleBin_canonical (launchBins_canonical hs)

theorem enterBin_canonical {s : State} {d k : Nat} {quads : List (List (BitVec 128))} {singles : List (BitVec 128)} (hs : Canonical s) : Canonical
    (s.enterBin d k quads singles) := by
  unfold State.enterBin
  dsimp only
  split
  · exact settleBin_canonical (dropRecords_canonical hs)
  · exact flushBin_canonical (modBin_canonical hs)

theorem releaseInto_canonical {s : State} {d q : Nat} {b : BitVec 512} (hs : Canonical s) : Canonical (s.releaseInto d q b) :=
  canonical_ite (refusePacket_canonical hs) (canonical_ite (modDie_canonical hs) (ringWrite_canonical hs))

/-! ## The operations of Machine/Waits -/

theorem issueRest_canonical {s : State} {c w g : Nat} {x : Wait} {pc : Nat} (hs : Canonical s) : Canonical (s.issueRest c w g x pc) := by
  unfold State.issueRest
  dsimp only
  split
  · exact hs
  · exact hs

theorem completeWait_canonical {s : State} {c w g : Nat} {x : Wait} {vs : List (Nat × Elem)} {q : Option Tri} (hs : Canonical s) : Canonical
    (s.completeWait c w g x vs q) :=
  issueRest_canonical (modGroup_canonical hs)

theorem parkRest_canonical {s : State} {iss : Issue} (hs : Canonical s) : Canonical (s.parkRest iss) := by
  unfold State.parkRest
  dsimp only
  split
  · exact hs
  · exact modGroup_canonical (fresh_canonical hs)

theorem wakeRest_canonical {s : State} {c w g : Nat} {x : Wait} (hs : Canonical s) : Canonical (s.wakeRest c w g x) :=
  issueRest_canonical (modGroup_canonical hs)

theorem faultWait_canonical {s : State} {c w g : Nat} {x : Wait} {t : Trap} {late : Bool} (hs : Canonical s) : Canonical
    (s.faultWait c w g x t late) := by
  unfold State.faultWait
  split
  · exact hs
  · exact takeTrap_canonical (modGroup_canonical hs)

theorem finishReply_canonical {s : State} {who : Who} {id : Nat} {q : Option Tri} (hs : Canonical s) : Canonical (s.finishReply who id q) := by
  unfold State.finishReply
  split
  · exact completeWait_canonical hs
  · exact modGroup_canonical hs

theorem failReply_canonical {s : State} {who : Who} {id : Nat} {cause : Cause} {a : W64} (hs : Canonical s) : Canonical
    (s.failReply who id cause a) := by
  unfold State.failReply
  split
  · exact faultWait_canonical hs
  · exact modGroup_canonical hs

theorem completeSlice_canonical {s : State} {c w : Nat} {x : Wait} {v : W64} (hs : Canonical s) : Canonical (s.completeSlice c w x v) :=
  modSlice_canonical hs

theorem faultSlice_canonical {s : State} {c w : Nat} {cause : Cause} {addr : W64} (hs : Canonical s) : Canonical (s.faultSlice c w cause addr) :=
  modSlice_canonical hs

/-! ## The operations of Machine/Answers -/

theorem dropOutside_canonical {s : State} {id : Nat} (hs : Canonical s) : Canonical (s.dropOutside id) :=
  modPkg_canonical hs

theorem answerSlice_canonical {s : State} {o : Outside} {x : Nat} {signed : Bool} {size : Nat} {v : Option Nat} (hs : Canonical s) : Canonical
    (s.answerSlice o x signed size v) := by
  unfold State.answerSlice
  split
  · exact hs
  · refine canonical_ite hs ?_
    split
    · exact faultSlice_canonical hs
    · exact completeSlice_canonical hs

theorem wakeImages_canonical {s : State} {c w g : Nat} {x : Wait} (hs : Canonical s) : Canonical (s.wakeImages c w g x) := by
  unfold State.wakeImages
  dsimp only
  split
  · refine canonical_ite hs ?_
    split
    · exact faultWait_canonical hs
    · exact modGroup_canonical (completeWait_canonical hs)
  · exact hs

theorem answerImage_canonical {s : State} {o : Outside} {w off size : Nat} {v : Option Nat} (hs : Canonical s) : Canonical
    (s.answerImage o w off size v) := by
  unfold State.answerImage
  dsimp only
  split
  · exact modGroup_canonical hs
  · exact wakeImages_canonical (modGroup_canonical hs)

theorem answer_canonical {s : State} {o : Outside} {v : Option Nat} (hs : Canonical s) : Canonical (s.answer o v) := by
  have hd : Canonical (s.dropOutside o.id) := dropOutside_canonical hs
  have hw (t : State) (ht : Canonical t) : Canonical (if o.work.writes = true then t.writeAnswered (coreDie o.who.core) o.packet else t) :=
    canonical_ite (writeAnswered_canonical ht) ht
  unfold State.answer
  dsimp only
  refine canonical_ite (hw _ (by split <;> exact hd)) ?_
  split
  · exact modGroup_canonical (hw _ (by split <;> exact hd))
  · exact modGroup_canonical (hw _ (by split <;> exact hd))
  · exact answerSlice_canonical (hw _ (by split <;> exact hd))
  · exact answerImage_canonical (hw _ (by split <;> exact hd))
  · exact hw _ (by split <;> exact hd)

theorem answerTap_canonical {s : State} {o : Outside} (hs : Canonical s) : Canonical (s.answerTap o) := by
  unfold State.answerTap
  split
  · exact canonical_ite (answer_canonical hs) (answer_canonical hs)
  · exact answer_canonical hs

theorem answerTaps_canonical {s : State} {d n : Nat} (hs : Canonical s) : Canonical (s.answerTaps d n) :=
  canonical_foldl (fun _ h1 _ => answerTap_canonical h1) hs

/-! ## The operations of Machine/Matrix -/

theorem freeRow_canonical {s : State} (hs : Canonical s) : Canonical (freeRow s).2 :=
  drawList_canonical hs

theorem freeRows_canonical {s : State} {xs : List Nat} (hs : Canonical s) : Canonical (freeRows s xs).2 := by
  induction xs generalizing s with
  | nil => exact hs
  | cons x xs ih =>
    have hr : Canonical (freeRows (freeRow s).2 xs).2 := ih (freeRow_canonical hs)
    unfold freeRows
    dsimp only
    exact hr

theorem freeMode_canonical {a : Nat} {s : State} (hs : Canonical s) : Canonical (freeMode a s) :=
  modCurWg_canonical (draw_canonical hs)

theorem pendingRead_canonical {a d : Nat} {sh : Shape} {c : Ctx} {u : Uses} {s : State} (hs : Canonical s) :
    (pendingRead a d sh c u s).Canonical := by
  unfold pendingRead
  dsimp only
  exact ctx_commit_canonical (next := fun s => .done (freeMode a s)) (drawList_canonical hs) fun _ h1 => freeMode_canonical h1

theorem areadGroup_canonical {conv a d k : Nat} {c : Ctx} {u : Uses} {s : State} (hs : Canonical s) : (areadGroup conv a d k c u s).Canonical := by
  unfold areadGroup
  split
  · exact ctx_openFault_canonical hs
  · refine did_ite (pendingRead_canonical hs) ?_
    split
    · exact ctx_openFault_canonical hs
    · exact ctx_commit_canonical hs (fun _ h1 => h1)

theorem smxrGroup_canonical {a d : Nat} {sh : Shape} {val : Tile → TileRow → Nat} {c : Ctx} {u : Uses} {s : State} (hs : Canonical s) :
    (smxrGroup a d sh val c u s).Canonical := by
  unfold smxrGroup
  split
  · exact ctx_openFault_canonical hs
  · exact did_ite (pendingRead_canonical hs) (ctx_commit_canonical hs (fun _ h1 => h1))

theorem freeTile_canonical {a : Nat} {s : State} (hs : Canonical s) : Canonical (freeTile a s) :=
  freeMode_canonical (modCurWg_canonical (freeRows_canonical hs))

theorem awriteGroup_canonical {conv a v k : Nat} {c : Ctx} {u : Uses} {s : State} (hs : Canonical s) : (awriteGroup conv a v k c u s).Canonical :=
    by
  unfold awriteGroup
  dsimp only
  split
  · exact ctx_openFault_canonical hs
  · refine did_ite hs (did_ite (ctx_plain_canonical hs (fun _ h1 => modCur_canonical (freeTile_canonical h1))) ?_)
    split
    · exact ctx_openFault_canonical hs
    · exact ctx_plain_canonical hs (fun _ h1 => modCur_canonical (modCurWg_canonical h1))

theorem issueOp_canonical {a : Nat} {work : TileWork} {dirty : Bool} {c : Ctx} {u : Uses} {s : State} (hs : Canonical s) :
    (issueOp a work dirty c u s).Canonical :=
  ctx_plain_canonical hs (fun _ h1 => modCurWg_canonical (fresh_canonical h1))

theorem execMma_canonical {f : TMma} {s : State} (hs : Canonical s) : Leads (execMma f s) :=
  groupWord_canonical hs (fun _ _ _ h3 => did_ite (ctx_openFault_canonical h3) (did_ite (ctx_openFault_canonical h3) (issueOp_canonical h3)))

theorem execAzero_canonical {c a : Nat} {s : State} (hs : Canonical s) : Leads (execAzero c a s) :=
  groupWord_canonical hs (fun _ _ _ h3 => did_ite (ctx_openFault_canonical h3) (issueOp_canonical h3))

theorem execSmxu_canonical {c a f v p : Nat} {s : State} (hs : Canonical s) : Leads (execSmxu c a f v p s) :=
  groupWord_canonical hs (fun _ _ _ h3 => did_ite (ctx_openFault_canonical h3)
      (did_ite (ctx_openFault_canonical h3) (did_ite h3 (issueOp_canonical h3))))

theorem execMfence_canonical {c : Nat} {s : State} (hs : Canonical s) : Leads (execMfence c s) :=
  groupWord_canonical hs (fun _ _ _ h3 => ctx_plain_canonical h3 (fun _ h1 => modCur_canonical (modCurWg_canonical h1)))

theorem freeOpRows_canonical {s : State} {c w : Nat} {xs : List TileOp} (hs : Canonical s) : Canonical (freeOpRows s c w xs) := by
  induction xs generalizing s with
  | nil => exact hs
  | cons x xs ih => exact ih (modWg_canonical (freeRows_canonical hs))

theorem coverOps_canonical {s : State} {c w a lim : Nat} (hs : Canonical s) : Canonical (s.coverOps c w a lim) := by
  unfold State.coverOps
  dsimp only
  split
  · exact hs
  · exact modWg_canonical (freeOpRows_canonical hs)

theorem execMwait_canonical {c a : Nat} {s : State} (hs : Canonical s) : Leads (execMwait c a s) := by
  unfold execMwait
  dsimp only
  refine groupWord_canonical hs (fun _ _ _ h3 => did_ite (ctx_openFault_canonical h3) ?_)
  split
  · exact modCur_canonical h3
  · exact did_ite (ctx_plain_canonical h3 (fun _ h1 => coverOps_canonical h1)) (fresh_canonical h3)

theorem mmaApply_canonical {s : State} {core wg : Nat} {o : TileOp} {rm : Nat} {rs z : Bool} {as bs : List FifoEntry} {m : TileMode}
    (hs : Canonical s) : Canonical (s.mmaApply core wg o rm rs z as bs m) :=
  canonical_ite (modWg_canonical (freeRows_canonical hs)) (modWg_canonical hs)

theorem mmaRun_canonical {s : State} {core wg : Nat} {w : Workgroup} {o : TileOp} {fa fb rm : Nat} {rs z : Bool} (hs : Canonical s) : Canonical
    (s.mmaRun core wg w o fa fb rm rs z) := by
  unfold State.mmaRun
  dsimp only
  refine canonical_ite (modWg_canonical (modWg_canonical hs)) ?_
  split
  · exact modWg_canonical (modWg_canonical hs)
  · exact mmaApply_canonical (modWg_canonical hs)

theorem smxFree_canonical {s : State} {p : Nat} {r : TileRow} (hs : Canonical s) : Canonical (smxFree s p r).2 :=
  drawList_canonical hs

theorem smxStep_canonical {s : State} {core wg : Nat} {o : TileOp} {f v p : Nat} {sigma : W32} {dirty : Bool} {l : Nat} (hs : Canonical s) :
    Canonical (s.smxStep core wg o f v p sigma dirty l) := by
  unfold State.smxStep
  dsimp only
  split
  · exact hs
  · split
    · exact hs
    · exact canonical_ite (modWg_canonical (smxFree_canonical hs)) (modWg_canonical hs)

theorem smxRun_canonical {s : State} {core wg : Nat} {w : Workgroup} {o : TileOp} {f v p : Nat} {sigma : W32} (hs : Canonical s) : Canonical
    (s.smxRun core wg w o f v p sigma) :=
  canonical_ite (modWg_canonical hs) (canonical_ite (modWg_canonical hs)
      (modWg_canonical (canonical_foldl (fun _ h1 _ => smxStep_canonical h1) hs)))

theorem tileEvent_canonical {core wg id : Nat} {s : State} {run : Workgroup → TileOp → Option State} (hs : Canonical s)
    (hrun : ∀ w o, AllCanonical (run w o)) : Leads (tileEvent core wg id s run) := by
  unfold tileEvent
  split
  · exact leads_next hs
  · split
    · exact leads_next hs
    · split
      · exact leads_next hs
      · exact leads_next (modWg_canonical hs)
      · split
        · exact leads_next hs
        · exact leads_next (chargeUnit_canonical (hrun _ _ _ ‹_›))

theorem execMmaExecute_canonical {core wg id : Nat} {s : State} (hs : Canonical s) : Leads (execMmaExecute core wg id s) := by
  refine tileEvent_canonical hs fun w o => ?_
  split
  · exact all_some (mmaRun_canonical hs)
  · exact all_none

theorem execAzeroExecute_canonical {core wg id : Nat} {s : State} (hs : Canonical s) : Leads (execAzeroExecute core wg id s) := by
  refine tileEvent_canonical hs fun w o => ?_
  split
  · exact all_some (modWg_canonical hs)
  · exact all_none

theorem execSmxuExecute_canonical {core wg id : Nat} {s : State} (hs : Canonical s) : Leads (execSmxuExecute core wg id s) := by
  refine tileEvent_canonical hs fun w o => ?_
  split
  · exact all_some (smxRun_canonical hs)
  · exact all_none

/-! ## The operations of Machine/Coherence -/

theorem runTrans_canonical {s : State} {line n1 : Nat} (hs : Canonical s) : Canonical (s.runTrans line n1) := by
  induction n1 generalizing s with
  | zero => exact hs
  | succ n ih =>
    unfold State.runTrans
    dsimp only
    split
    · exact hs
    · refine canonical_ite (ih ?_) hs
      split
      · exact applyTrans_canonical (modPkg_canonical hs)
      · exact modPkg_canonical (applyTrans_canonical (modPkg_canonical hs))

theorem request_canonical {s : State} {k line : Nat} {getm : Bool} (hs : Canonical s) : Canonical (s.request k line getm) :=
  runTrans_canonical (modPkg_canonical hs)

theorem advanceTrans_canonical {s : State} {line : Nat} {f : Transition → Transition} (hs : Canonical s) : Canonical (s.advanceTrans line f) := by
  unfold State.advanceTrans
  split
  · exact hs
  · exact runTrans_canonical (modPkg_canonical hs)

theorem dirEvent_canonical {cluster pa : Nat} {s : State} {f : State → State} (hs : Canonical s) (hf : ∀ t1, Canonical t1 → Canonical (f t1)) :
    Leads (dirEvent cluster pa s f) :=
  leads_ite (leads_next hs) (leads_next (hf _ hs))

theorem execGets_canonical {cluster pa : Nat} {s : State} (hs : Canonical s) : Leads (execGets cluster pa s) :=
  dirEvent_canonical hs (fun _ h1 => request_canonical h1)

theorem execGetm_canonical {cluster pa : Nat} {s : State} (hs : Canonical s) : Leads (execGetm cluster pa s) :=
  dirEvent_canonical hs (fun _ h1 => request_canonical h1)

theorem execPut_canonical {cluster pa : Nat} {s : State} (hs : Canonical s) : Leads (execPut cluster pa s) :=
  dirEvent_canonical hs (fun _ h1 => canonical_ite h1 (dirPut_canonical (dropLine_canonical h1)))

theorem execPromotionDemand_canonical {cluster pa : Nat} {s : State} (hs : Canonical s) : Leads (execPromotionDemand cluster pa s) :=
  dirEvent_canonical hs (fun _ h1 => request_canonical h1)

theorem execForward_canonical {cluster pa : Nat} {s : State} (hs : Canonical s) : Leads (execForward cluster pa s) :=
  dirEvent_canonical hs (fun _ h1 => advanceTrans_canonical h1)

theorem execInvalidationAcknowledgement_canonical {cluster pa : Nat} {s : State} (hs : Canonical s) : Leads
    (execInvalidationAcknowledgement cluster pa s) :=
  dirEvent_canonical hs (fun _ h1 => canonical_ite (advanceTrans_canonical (modDir_canonical (dropLine_canonical (markDirty_canonical h1)))) h1)

theorem execTlbWalkFill_canonical {cluster asid va gen : Nat} {s : State} (hs : Canonical s) : Leads (execTlbWalkFill cluster asid va gen s) := by
  unfold execTlbWalkFill
  refine leads_ite (leads_next hs) (leads_ite (leads_next hs) ?_)
  split
  · exact leads_next hs
  · exact leads_ite (leads_next hs) (leads_next (modCluster_canonical hs))

theorem unitLane_canonical {s : State} {k : Nat} {r : AtomReq} {x : Nat × Nat × W64 × W64} (hs : Canonical s) : Canonical (s.unitLane k r x).2 :=
  canonical_ite_snd hs (writePhys_canonical (unitLine_canonical hs))

theorem unitLanes_canonical {s : State} {k : Nat} {r : AtomReq} {xs : List (Nat × Nat × W64 × W64)} (hs : Canonical s) : Canonical
    (s.unitLanes k r xs).2 := by
  induction xs generalizing s with
  | nil => exact hs
  | cons x xs ih => exact ih (unitLane_canonical hs)

theorem execClusterAtomic_canonical {cluster : Nat} {s : State} (hs : Canonical s) : Leads (execClusterAtomic cluster s) := by
  unfold execClusterAtomic
  dsimp only
  refine leads_ite (leads_next hs) ?_
  split
  · exact leads_next hs
  · split
    · exact leads_next (unitLanes_canonical (modCluster_canonical hs))
    · exact leads_ite (leads_next (modGroup_canonical (unitLanes_canonical (modCluster_canonical hs))))
          (leads_next (unitLanes_canonical (modCluster_canonical hs)))

/-! ## The operations of Machine/Network -/

theorem writeSplit_canonical {s : State} {d c value : Nat} (hs : Canonical s) : Canonical (s.writeSplit d c value) :=
  canonical_ite (canonical_ite (modDie_canonical hs) (modDie_canonical hs)) (canonical_ite (modDie_canonical hs) (modDie_canonical hs))

theorem zeroFill_canonical {s : State} {lo hi : Nat} (hs : Canonical s) : Canonical (s.zeroFill lo hi) :=
  State.zeroFill_wf lo hi hs

theorem emptyWays_canonical {s : State} {d left : Nat} (hs : Canonical s) : Canonical (s.emptyWays d left) :=
  canonical_foldl (fun _ h1 _ => canonical_ite (evictLine_canonical (drainTrans_canonical h1)) h1) hs

theorem finishResize_canonical {s : State} {d c : Nat} (hs : Canonical s) : Canonical (s.finishResize d c) :=
  modDie_canonical (canonical_ite (zeroFill_canonical (emptyWays_canonical hs)) hs)

theorem routerEvent_canonical {die router : Nat} {s : State} {f : Router → Router} (hs : Canonical s) : Leads (routerEvent die router s f) :=
  leads_ite (leads_next hs) (leads_next (setRouter_canonical hs))

theorem execRouterWake_canonical {die router : Nat} {s : State} (hs : Canonical s) : Leads (execRouterWake die router s) :=
  routerEvent_canonical hs

theorem writeGating_canonical {s : State} {d value : Nat} (hs : Canonical s) : Canonical (s.writeGating d value) :=
  canonical_foldl (fun _ h1 _ => canonical_ite (setRouter_canonical h1) h1) (modDie_canonical hs)

theorem linkRetry_canonical {s : State} {d link : Nat} {ok : Bool} (hs : Canonical s) : Canonical (s.linkRetry d link ok) :=
  canonical_ite hs (canonical_ite (modDie_canonical (count_canonical hs))
      (canonical_ite (firmwareCause_canonical (modDie_canonical hs)) (modDie_canonical hs)))

/-! ## The operations of Machine/Errors -/

theorem damageRow_canonical {s : State} {core wg tile row : Nat} (hs : Canonical s) : Canonical (s.damageRow core wg tile row) :=
  modWg_canonical (freeRow_canonical hs)

theorem damageLine_canonical {s : State} {line : Nat} (hs : Canonical s) : Canonical (s.damageLine line) :=
  canonical_ite hs (canonical_ite (evictLine_canonical hs) (loseLine_canonical (evictLine_canonical hs)))

theorem loseIn_canonical {s : State} {k line : Nat} (hs : Canonical s) : Canonical (s.loseIn k line) :=
  canonical_ite (loseLine_canonical (gaveUp_canonical (dropLine_canonical hs))) (gaveUp_canonical (dropLine_canonical hs))

theorem coreDamaged_canonical {s : State} {core : Nat} (hs : Canonical s) : Canonical (s.coreDamaged core) :=
  canonical_foldl (fun _ h1 _ => abortWg_canonical h1) (firmwareCause_canonical hs)

theorem uncorrectable_canonical {s : State} {n1 : ErrSite} (hs : Canonical s) : AllCanonical (s.uncorrectable n1) := by
  unfold State.uncorrectable
  split
  · exact all_ite all_none (all_some (canonical_ite (loseLine_canonical hs) (damageLine_canonical hs)))
  · exact all_ite all_none (all_some (firmwareCause_canonical (modDie_canonical hs)))
  · exact all_ite all_none (all_some (count_canonical hs))
  · exact all_ite (all_some (modPkg_canonical hs)) all_none
  · exact all_ite all_none (all_some (modGroup_canonical hs))
  · exact all_ite all_none (all_some (modWg_canonical hs))
  · exact all_ite all_none (all_some (damageRow_canonical hs))
  · exact all_ite all_none (all_some (count_canonical hs))
  · split
    · exact all_none
    · exact all_some (modDie_canonical hs)
  · exact all_ite all_none (all_some (coreDamaged_canonical hs))
  · exact all_ite all_none (all_some (count_canonical (modCluster_canonical hs)))
  · exact all_ite all_none (all_ite (all_some (count_canonical hs)) (all_some (loseIn_canonical hs)))
  · exact all_ite all_none (all_some (loseIn_canonical hs))
  · exact all_ite all_none (all_some (count_canonical hs))
  · exact all_some (modPkg_canonical hs)

theorem execUncorrectableError_canonical {site : ErrSite} {s : State} (hs : Canonical s) : Leads (execUncorrectableError site s) := by
  have hu := uncorrectable_canonical (n1 := site) hs
  unfold execUncorrectableError
  cases h : s.uncorrectable site with
  | none => exact leads_next hs
  | some t => exact leads_next (hu t h)

theorem corrected_canonical {s : State} {pa : Nat} (hs : Canonical s) : Canonical (s.corrected pa) :=
  tally_canonical (count_canonical hs)

theorem execCorrectedSoftError_canonical {site : ErrSite} {s : State} (hs : Canonical s) : Leads (execCorrectedSoftError site s) := by
  unfold execCorrectedSoftError
  dsimp only
  split
  · exact leads_ite (leads_next (count_canonical hs)) (leads_next (modCluster_canonical (count_canonical hs)))
  · exact leads_next (canonical_ite (corrected_canonical hs) (count_canonical hs))
  · exact leads_next (count_canonical hs)

/-! ## The operations of Machine/HostLink -/

theorem migrationCommand_canonical {s : State} {value : Nat} (hs : Canonical s) : Canonical (s.migrationCommand value) := by
  unfold State.migrationCommand
  dsimp only
  refine canonical_ite (canonical_ite (modPkg_canonical hs) hs) ?_
  split
  · exact modPkg_canonical (canonical_ite (modPkg_canonical hs) hs)
  · exact modPkg_canonical (unitStore_canonical (canonical_ite (modPkg_canonical hs) hs))

theorem regainLine_canonical {s : State} {line : Nat} (hs : Canonical s) : Canonical (s.regainLine line) :=
  storeLost_canonical hs

theorem migrateLost_canonical {s : State} {src dest : Nat} (hs : Canonical s) : Canonical (s.migrateLost src dest).2 :=
  canonical_foldl (fun _ h1 _ => loseLine_canonical h1) (canonical_foldl (fun _ h1 _ => regainLine_canonical h1) hs)

theorem execMigrationComplete_canonical {s : State} (hs : Canonical s) : Leads (execMigrationComplete s) := by
  unfold execMigrationComplete
  dsimp only
  split
  · exact leads_next hs
  · next m _ =>
    have he : Canonical ((s.evictPage m.src).evictPage m.dest) := evictPage_canonical (evictPage_canonical hs)
    exact leads_ite (leads_next hs) (leads_next (modPkg_canonical (canonical_foldl (fun _ h1 _ => invalidate_canonical h1)
      (unitStore_canonical (migrateLost_canonical (copyPage_wf m.src m.dest he))))))

theorem writeBias_canonical {s : State} {d value : Nat} (hs : Canonical s) : Canonical (s.writeBias d value) :=
  canonical_ite (modDie_canonical hs) (modDie_canonical hs)

theorem hostTouch_canonical {s : State} {pa : Nat} (hs : Canonical s) : Canonical (s.hostTouch pa) := by
  unfold State.hostTouch
  dsimp only
  split
  · exact canonical_ite (settleFlip_canonical hs) (flipBias_canonical (settleFlip_canonical hs))
  · exact settleFlip_canonical hs

theorem hostHalf_canonical {s : State} {pa : Nat} {own : Bool} (hs : Canonical s) : Canonical (s.hostHalf pa own) :=
  canonical_ite (setHalf_canonical (canonical_ite (backInvalidate_canonical (reach_canonical hs)) (downgrade_canonical (reach_canonical hs))))
      (canonical_ite (canonical_ite (backInvalidate_canonical (reach_canonical hs)) (downgrade_canonical (reach_canonical hs)))
      (setHalf_canonical (canonical_ite (backInvalidate_canonical (reach_canonical hs)) (downgrade_canonical (reach_canonical hs)))))

theorem hostWait_canonical {i : Instr} {pa : Nat} {s : State} {f : State → State} (hs : Canonical s) (hf : ∀ t1, Canonical t1 → Canonical (f t1))
    : Canonical (hostWait i pa s f) :=
  canonical_ite hs (hf _ hs)

theorem hostEvent_canonical {i : Instr} {addr : Nat} {s : State} {f : Nat → State → State} (hs : Canonical s)
    (hf : ∀ x1, ∀ t2, Canonical t2 → Canonical (f x1 t2)) : Leads (hostEvent i addr s f) := by
  unfold hostEvent
  split
  · exact leads_next hs
  · exact leads_next (hostWait_canonical hs (fun _ h1 => hf _ _ h1))

theorem execHostReadShared_canonical {addr : Nat} {s : State} (hs : Canonical s) : Leads (execHostReadShared addr s) :=
  hostEvent_canonical hs (fun _ _ h2 => hostHalf_canonical (hostTouch_canonical h2))

theorem execHostReadOwned_canonical {addr : Nat} {s : State} (hs : Canonical s) : Leads (execHostReadOwned addr s) :=
  hostEvent_canonical hs (fun _ _ h2 => hostHalf_canonical (hostTouch_canonical h2))

theorem linkWrite_canonical {s : State} {pa : Nat} {bs : List Byte} (hs : Canonical s) : Canonical (s.linkWrite pa bs) :=
  canonical_ite (homeBytes_canonical (takeHome_canonical hs)) (writePhys_canonical hs)

theorem linkWrites_canonical {s : State} {n1 n2 : Nat} {xs : List Byte} (hs : Canonical s) : Canonical (s.linkWrites n1 n2 xs) := by
  induction n1 generalizing s n2 xs with
  | zero => exact hs
  | succ n ih => exact canonical_ite hs (ih (linkWrite_canonical hs))

theorem execHostWriteback_canonical {addr : Nat} {data : List Byte} {s : State} (hs : Canonical s) : Leads (execHostWriteback addr data s) :=
  hostEvent_canonical hs (fun _ _ h2 => canonical_ite (homeBytes_canonical (setHalf_canonical (reach_canonical h2))) h2)

theorem execHostSnoop_canonical {pa own : Nat} {s : State} (hs : Canonical s) : Leads (execHostSnoop pa own s) := by
  unfold execHostSnoop
  dsimp only
  split
  · exact leads_ite (leads_next (hostWait_canonical hs (fun _ h1 => hostHalf_canonical h1))) (leads_next hs)
  · exact leads_next (hostWait_canonical hs (fun _ h1 => hostHalf_canonical h1))
  · exact leads_next hs

theorem hostWrite_canonical {s : State} {pa : Nat} {data : List Byte} (hs : Canonical s) : Canonical (s.hostWrite pa data) :=
  linkWrites_canonical (canonical_ite (hostTouch_canonical (hostTouch_canonical hs)) (hostTouch_canonical hs))

theorem execHostMemoryWrite_canonical {addr : Nat} {data : List Byte} {s : State} (hs : Canonical s) : Leads (execHostMemoryWrite addr data s) :=
  hostEvent_canonical hs (fun _ _ h2 => hostWrite_canonical h2)

theorem execPeerPostedWrite_canonical {addr : Nat} {data : List Byte} {s : State} (hs : Canonical s) : Leads (execPeerPostedWrite addr data s) :=
  hostEvent_canonical hs (fun _ _ h2 => hostWrite_canonical h2)

theorem execPeerRead_canonical {addr len : Nat} {s : State} (hs : Canonical s) : Leads (execPeerRead addr len s) :=
  hostEvent_canonical hs (fun _ _ h2 => modPkg_canonical (canonical_foldl (fun _ h1 _ => sliceRead_canonical h1) (hostTouch_canonical h2)))

theorem execMmioReadCompletion_canonical {id status value : Nat} {s : State} (hs : Canonical s) : Leads
    (execMmioReadCompletion id status value s) := by
  unfold execMmioReadCompletion
  split
  · exact leads_next hs
  · exact leads_next (canonical_ite (answer_canonical hs) hs)

theorem execMmioReadTimeout_canonical {id : Nat} {s : State} (hs : Canonical s) : Leads (execMmioReadTimeout id s) := by
  unfold execMmioReadTimeout
  split
  · exact leads_next hs
  · exact leads_next (canonical_ite (answer_canonical hs) hs)

/-! ## The operations of Machine/Churn -/

theorem setSlot_canonical {s : State} {d n : Nat} {x : Slot} (hs : Canonical s) : Canonical (s.setSlot d n x) :=
  modDie_canonical hs

theorem dropReq_canonical {s : State} {d id : Nat} (hs : Canonical s) : Canonical (s.dropReq d id) :=
  modDie_canonical hs

theorem reqDone_canonical {s : State} {w : Who} {x : Wait} {vs : List (Nat × Elem)} {q : Option Tri} (hs : Canonical s) : Canonical
    (s.reqDone w x vs q) :=
  completeWait_canonical hs

theorem reqFault_canonical {s : State} {w : Who} {x : Wait} {cause : Cause} {mask : BitVec 64} {a : Nat} (hs : Canonical s) : Canonical
    (s.reqFault w x cause mask a) :=
  faultWait_canonical hs

theorem boardPlace_canonical {s : State} {c : Ctx} {va : Nat} (hs : Canonical s) : Canonical (s.boardPlace c va).2 := by
  unfold State.boardPlace
  refine canonical_ite_snd hs (canonical_ite_snd hs ?_)
  split
  · exact canonical_snd (translate_canonical hs) ‹_›
  · exact canonical_ite_snd (canonical_snd (translate_canonical hs) ‹_›) (canonical_snd (translate_canonical hs) ‹_›)

theorem churnWord_canonical {a : Nat} {body : W64 → Nat → Ctx → Uses → State → Did} {c : Ctx} {u : Uses} {s : State}
    (hbody : ∀ x1, ∀ x2, ∀ x3, ∀ x4, ∀ t5, Canonical t5 → (body x1 x2 x3 x4 t5).Canonical) (hs : Canonical s) :
    (churnWord a body c u s).Canonical := by
  unfold churnWord
  split
  · exact hs
  · exact did_ite hs (hbody _ _ _ _ _ hs)

theorem ctx_churnSleep_canonical {c : Ctx} {s : State} {key : Nat} {slot dv dq : Option Nat} {work : ChurnWork} (hs : Canonical s) :
    (c.churnSleep s key slot dv dq work).Canonical :=
  modDie_canonical (fresh_canonical hs)

theorem boardAt_canonical {q : Nat} {attach : Except Trap (Option (Nat × Nat))} {va : W64} {l : Nat} {c : Ctx} {u : Uses} {s : State}
    (hs : Canonical s) : (boardAt q attach va l c u s).Canonical := by
  have hp := boardPlace_canonical (c := c) (va := va.toNat) hs
  unfold boardAt
  dsimp only
  split
  · exact canonical_snd hp ‹_›
  · have ht := canonical_snd hp ‹_›
    refine did_ite (ctx_commit_canonical ht (fun _ h1 => h1)) (did_ite (ctx_commit_canonical ht (fun _ h1 => h1)) ?_)
    split
    · exact ht
    · exact modPkg_canonical (modDie_canonical (fresh_canonical ht))

theorem execCboard_canonical {c q a : Nat} {s : State} (hs : Canonical s) : Leads (execCboard c q a s) :=
  groupWord_canonical hs (fun _ _ _ h3 => churnWord_canonical (fun _ _ _ _ _ h5 => boardAt_canonical h5) h3)

theorem execCboardr_canonical {c q a b e : Nat} {s : State} (hs : Canonical s) : Leads (execCboardr c q a b e s) :=
  groupWord_canonical hs (fun _ _ _ h3 => churnWord_canonical (fun _ _ _ _ _ h5 => did_ite h5 (boardAt_canonical h5)) h3)

theorem keyWord_canonical {d : Nat} {work : Ctx → Nat → ChurnWork} {va : W64} {l : Nat} {c : Ctx} {u : Uses} {s : State} (hs : Canonical s) :
    (keyWord d work va l c u s).Canonical := by
  unfold keyWord
  dsimp only
  split
  · exact ctx_takeIn_canonical hs (fun _ h1 => h1)
  · exact ctx_sleepOn_canonical hs (fun _ h1 => ctx_churnSleep_canonical h1)

theorem execCalight_canonical {c d a : Nat} {s : State} (hs : Canonical s) : Leads (execCalight c d a s) :=
  groupWord_canonical hs (fun _ _ _ h3 => churnWord_canonical (fun _ _ _ _ _ h5 => keyWord_canonical h5) h3)

theorem capGroup_canonical {op d a b : Nat} {c : Ctx} {u : Uses} {s : State} (hs : Canonical s) : (capGroup op d a b c u s).Canonical :=
  churnWord_canonical (fun _ _ _ _ _ h5 => did_ite h5 (keyWord_canonical h5)) hs

theorem execCcapDec_canonical {c d a : Nat} {s : State} (hs : Canonical s) : Leads (execCcapDec c d a s) :=
  groupWord_canonical hs (fun _ _ _ h3 => churnWord_canonical (fun _ _ _ _ _ h5 => keyWord_canonical h5) h3)

theorem execCpeek_canonical {c d a : Nat} {s : State} (hs : Canonical s) : Leads (execCpeek c d a s) :=
  groupWord_canonical hs (fun _ _ _ h3 => churnWord_canonical (fun _ _ _ _ _ h5 => keyWord_canonical h5) h3)

theorem execCwait_canonical {c d a b k : Nat} {s : State} (hs : Canonical s) : Leads (execCwait c d a b k s) :=
  groupWord_canonical hs (fun _ _ _ h3 => churnWord_canonical (fun _ _ _ _ _ h5 => did_ite h5 (keyWord_canonical h5)) h3)

theorem takeReq_canonical {s : State} {d n : Nat} {f : State → Who → Nat → State} (hs : Canonical s)
    (hf : ∀ t1, Canonical t1 → ∀ x2, ∀ x3, Canonical (f t1 x2 x3)) : Canonical (s.takeReq d n f) := by
  unfold State.takeReq
  dsimp only
  split
  · exact hs
  · split
    · exact dropReq_canonical hs
    · exact hf _ (dropReq_canonical hs) _ _

theorem freeSlot_canonical {s : State} {d n : Nat} (hs : Canonical s) : Canonical (s.freeSlot d n) := by
  unfold State.freeSlot
  dsimp only
  split
  · exact hs
  · exact answerTaps_canonical (takeReq_canonical (modDir_canonical (modPkg_canonical (modDie_canonical hs)))
        (fun _ h1 _ _ => finishReply_canonical h1))

theorem settleSlot_canonical {s : State} {d n : Nat} (hs : Canonical s) : Canonical (s.settleSlot d n) := by
  unfold State.settleSlot
  split
  · exact hs
  · exact canonical_ite (freeSlot_canonical hs) hs

theorem alightSlot_canonical {s : State} {d n : Nat} {x : Slot} {r : ChurnReq} {w : Who} {k : Wait} (hs : Canonical s) : Canonical
    (s.alightSlot d n x r w k) :=
  canonical_ite (reqFault_canonical (dropReq_canonical (settleSlot_canonical (loseLine_canonical (setSlot_canonical (modDie_canonical hs))))))
      (modGroup_canonical (modDie_canonical (setSlot_canonical (modDie_canonical hs))))

theorem churnEvent_canonical {s : State} {d n : Nat} {x : Slot} {r : ChurnReq} {w : Who} {k : Wait} (hs : Canonical s) : AllCanonical
    (s.churnEvent d n x r w k) := by
  unfold State.churnEvent
  dsimp only
  refine all_ite (all_some (reqFault_canonical (dropReq_canonical hs))) (all_ite all_none ?_)
  split
  · exact all_some (dropReq_canonical (faultWait_canonical hs))
  · split
    · exact all_some (alightSlot_canonical hs)
    · split
      · exact all_some (reqFault_canonical (dropReq_canonical hs))
      · exact all_ite (all_some (reqFault_canonical (dropReq_canonical hs)))
            (all_some (reqDone_canonical (setSlot_canonical (dropReq_canonical hs))))
    · exact all_ite (all_some (reqFault_canonical (dropReq_canonical hs))) (all_some (reqDone_canonical (dropReq_canonical hs)))
    · exact all_ite (all_some (reqFault_canonical (dropReq_canonical hs))) (all_ite (all_some (reqDone_canonical (dropReq_canonical hs))) all_none)
    · exact all_none

theorem binEvent_canonical {s : State} {d : Nat} {r : ChurnReq} {b : Nat} {quads : List (List (BitVec 128))} {singles : List (BitVec 128)}
    (hs : Canonical s) : AllCanonical (s.binEvent d r b quads singles) := by
  unfold State.binEvent
  dsimp only
  refine all_ite all_none (all_ite (all_some (enterBin_canonical (modDie_canonical hs))) ?_)
  split
  · split
    · exact all_some (enterBin_canonical (modDie_canonical hs))
    · exact all_some (reqDone_canonical (enterBin_canonical (modDie_canonical hs)))
  · split
    · exact all_some (enterBin_canonical (modDie_canonical hs))
    · split
      · exact all_some (modDie_canonical (enterBin_canonical (modDie_canonical hs)))
      · exact all_ite (all_some (passComplete_canonical (modDie_canonical (modDie_canonical (enterBin_canonical (modDie_canonical hs))))))
            (all_some (modDie_canonical (modDie_canonical (enterBin_canonical (modDie_canonical hs)))))

theorem slotEvent_canonical {s : State} {d n : Nat} {r : ChurnReq} (hs : Canonical s) : AllCanonical (s.slotEvent d n r) := by
  unfold State.slotEvent
  split
  · split
    · exact all_none
    · exact all_ite (all_map (fun _ => reqFault_canonical (dropReq_canonical hs))) all_none
  · split
    · exact all_ite (binEvent_canonical hs) all_none
    · exact all_ite (all_bind (fun _ => churnEvent_canonical hs)) all_none

theorem slotEvents_canonical {s : State} {d n n1 : Nat} {xs : List ChurnReq} (hs : Canonical s) : Canonical (s.slotEvents d n n1 xs) := by
  induction xs generalizing s n1 with
  | nil => exact hs
  | cons x xs ih =>
    unfold State.slotEvents
    refine canonical_ite hs ?_
    split
    · exact ih hs
    · exact ih ((slotEvent_canonical hs) _ ‹_›)

theorem claimWord_canonical {s : State} {d n : Nat} {r : ChurnReq} {home : Nat} {at_ : Option (Nat × Nat)} (hs : Canonical s) : Canonical
    (s.claimWord d n r home at_) :=
  modDir_canonical (modPkg_canonical (modDie_canonical (setSlot_canonical
      (draw_canonical (backInvalidate_canonical (hostTake_canonical (reach_canonical hs)))))))

theorem claimTail_canonical {s : State} {d n b part : Nat} (hs : Canonical s) : Canonical (s.claimTail d n b part) :=
  modBin_canonical (setSlot_canonical hs)

theorem claim_canonical {s : State} {d stop n : Nat} (hs : Canonical s) : Canonical (s.claim d stop n) := by
  unfold State.claim
  dsimp only
  refine canonical_ite hs ?_
  split
  · split
    · exact claimWord_canonical hs
    · exact hs
  · refine canonical_ite hs ?_
    split
    · exact hs
    · exact claimTail_canonical hs

theorem tapSlot_canonical {s : State} {d n : Nat} (hs : Canonical s) : Canonical (s.tapSlot d n) := by
  unfold State.tapSlot
  dsimp only
  split
  · exact hs
  · exact canonical_ite hs (canonical_ite (takeReq_canonical (setSlot_canonical hs) (fun _ h1 _ _ => finishReply_canonical h1))
        (canonical_ite (settleSlot_canonical (setSlot_canonical (unitWrite_canonical hs))) hs))

theorem portSlot_canonical {s : State} {d n : Nat} (hs : Canonical s) : Canonical (s.portSlot d n) := by
  unfold State.portSlot
  dsimp only
  split
  · exact hs
  · refine canonical_ite hs (settleSlot_canonical ?_)
    split
    · exact count_canonical (modDie_canonical (setSlot_canonical hs))
    · exact releaseInto_canonical (setSlot_canonical hs)

theorem passSlot_canonical {s : State} {d stop n : Nat} (hs : Canonical s) : Canonical (s.passSlot d stop n) :=
  slotEvents_canonical (claim_canonical (canonical_ite (answerTaps_canonical (tapSlot_canonical hs)) (canonical_ite (portSlot_canonical hs) hs)))

theorem execChurnPassage_canonical {die stop : Nat} {s : State} (hs : Canonical s) : Leads (execChurnPassage die stop s) :=
  leads_ite (leads_next hs) (leads_next (canonical_foldl (fun _ h1 _ => passSlot_canonical h1) hs))

theorem execBoardingReadReturn_canonical {die slot : Nat} {s : State} (hs : Canonical s) : Leads (execBoardingReadReturn die slot s) := by
  unfold execBoardingReadReturn
  dsimp only
  split
  · exact leads_next hs
  · exact leads_ite (leads_next hs) (leads_ite (leads_next (freeSlot_canonical (takeReq_canonical hs (fun _ h1 _ _ => failReply_canonical h1))))
        (leads_next (setSlot_canonical (sliceRead_canonical hs))))

theorem writeChurnLimit_canonical {s : State} {die part value : Nat} (hs : Canonical s) : Canonical (s.writeChurnLimit die part value) :=
  modDie_canonical hs

/-! ## The operations of Machine/Dispatcher -/

theorem doorbell_canonical {s : State} {d q value : Nat} (hs : Canonical s) : Canonical (s.doorbell d q value) :=
  modDie_canonical hs

theorem enableQueue_canonical {s : State} {d q : Nat} (hs : Canonical s) : Canonical (s.enableQueue d q) :=
  canonical_ite hs (modDie_canonical (modDie_canonical hs))

theorem dropAssigned_canonical {s : State} {d n : Nat} (hs : Canonical s) : Canonical (s.dropAssigned d n).2 := by
  unfold State.dropAssigned
  dsimp only
  exact canonical_foldl (fun _ h1 _ => canonical_ite (modCluster_canonical h1) h1) hs

theorem cancelPacket_canonical {s : State} {d n : Nat} (hs : Canonical s) : Canonical (s.cancelPacket d n) := by
  unfold State.cancelPacket
  split
  · exact hs
  · exact canonical_ite hs (groupsEnded_canonical (dropAssigned_canonical hs))

theorem abortUnserved_canonical {s : State} {d q i : Nat} (hs : Canonical s) : Canonical (s.abortUnserved d q i) := by
  unfold State.abortUnserved
  dsimp only
  split
  · split
    · exact hs
    · exact canonical_ite (modPkg_canonical (writeSignal_canonical hs)) (writeSignal_canonical hs)
  · refine treeEvent_canonical ?_
    split
    · exact hs
    · exact canonical_ite (modPkg_canonical (writeSignal_canonical hs)) (writeSignal_canonical hs)

theorem destroyQueue_canonical {s : State} {d q : Nat} (hs : Canonical s) : Canonical (s.destroyQueue d q) :=
  canonical_foldl (fun _ h1 _ => refusePacket_canonical h1) (modDie_canonical
      (canonical_foldl (fun _ h1 _ => cancelPacket_canonical h1) (canonical_foldl (fun _ h1 _ => abortUnserved_canonical h1)
      (modDie_canonical hs))))

theorem treeChange_canonical {s : State} {d : Nat} {u : TreeUpdate} (hs : Canonical s) : Canonical (s.treeChange d u) := by
  unfold State.treeChange
  dsimp only
  split
  · exact hs
  · split
    · exact canonical_ite (treeDone_canonical (setSlot_canonical hs)) (setSlot_canonical hs)
    · exact hs

theorem execTreeCounterUpdate_canonical {die : Nat} {s : State} (hs : Canonical s) : Leads (execTreeCounterUpdate die s) :=
  leads_ite (leads_next hs) (leads_next (canonical_foldl (fun _ h1 _ => canonical_foldl (fun _ h1 _ => treeChange_canonical h1)
      (modDie_canonical h1)) hs))

theorem noteRanges_canonical {s : State} {d n : Nat} {p : Packet} (hs : Canonical s) : Canonical (s.noteRanges d n p) := by
  unfold State.noteRanges
  dsimp only
  refine canonical_ite hs ?_
  split
  · exact count_canonical hs
  · exact modPkg_canonical hs

theorem assignNext_canonical {s : State} {d n : Nat} {p : Packet} (hs : Canonical s) : Canonical (s.assignNext d n p) := by
  unfold State.assignNext
  dsimp only
  split
  · exact hs
  · exact modDie_canonical (modCluster_canonical hs)

theorem advanceRead_canonical {s : State} {d q : Nat} (hs : Canonical s) : Canonical (s.advanceRead d q) :=
  modDie_canonical hs

theorem beginPacket_canonical {s : State} {d : Nat} {p : Packet} (hs : Canonical s) : Canonical (s.beginPacket d p).2 := by
  unfold State.beginPacket
  dsimp only
  refine canonical_ite_snd ?_ (canonical_ite_snd (noteRanges_canonical (modDie_canonical hs))
      (treeEvent_canonical (noteRanges_canonical (modDie_canonical hs))))
  split
  · exact noteRanges_canonical (modDie_canonical hs)
  · exact modDie_canonical (noteRanges_canonical (modDie_canonical hs))

theorem serveMore_canonical {s : State} {d q n : Nat} (hs : Canonical s) : Canonical (s.serveMore d q n) := by
  unfold State.serveMore
  dsimp only
  split
  · exact advanceRead_canonical hs
  · split
    · exact assignNext_canonical hs
    · exact canonical_ite (advanceRead_canonical (assignNext_canonical hs)) (assignNext_canonical hs)

theorem serveFirst_canonical {s : State} {d q : Nat} (hs : Canonical s) : Canonical (s.serveFirst d q) := by
  unfold State.serveFirst
  dsimp only
  split
  · refine advanceRead_canonical ?_
    split
    · exact count_canonical (modDie_canonical hs)
    · exact treeEvent_canonical (count_canonical (modDie_canonical hs))
  · refine canonical_ite (advanceRead_canonical ?_) (canonical_ite (advanceRead_canonical (groupsEnded_canonical (beginPacket_canonical hs)))
        (serveMore_canonical (modDie_canonical (beginPacket_canonical hs))))
    split
    · exact refusePacket_canonical hs
    · exact treeEvent_canonical (refusePacket_canonical hs)

theorem serveBin_canonical {s : State} {d : Nat} (hs : Canonical s) : Canonical (s.serveBin d) := by
  unfold State.serveBin
  dsimp only
  split
  · exact hs
  · refine canonical_ite (dropRecords_canonical (modDie_canonical hs)) (canonical_ite hs ?_)
    split
    · exact beginPacket_canonical (modDie_canonical hs)
    · exact assignNext_canonical (beginPacket_canonical (modDie_canonical hs))

theorem countUnserved_canonical {s : State} {d : Nat} {ready : List (Nat × Nat)} {served : Option (Nat × Nat)} (hs : Canonical s) : Canonical
    (s.countUnserved d ready served) :=
  modDie_canonical hs

theorem execDispatchStep_canonical {die : Nat} {s : State} (hs : Canonical s) : Leads (execDispatchStep die s) := by
  unfold execDispatchStep
  dsimp only
  refine leads_ite (leads_next hs) ?_
  split
  · exact leads_next (countUnserved_canonical hs)
  · refine leads_ite (leads_next (serveBin_canonical (countUnserved_canonical hs))) ?_
    split
    · exact leads_next (serveMore_canonical (countUnserved_canonical hs))
    · exact leads_next (serveFirst_canonical (countUnserved_canonical hs))

theorem takeIn_canonical {s : State} {core n : Nat} {p : Packet} {ix : Nat} (hs : Canonical s) : Canonical (s.takeIn core n p ix) :=
  modDie_canonical (modPkg_canonical (modCore_canonical (fresh_canonical hs)))

theorem execWorkgroupAdmission_canonical {cluster : Nat} {s : State} (hs : Canonical s) : Leads (execWorkgroupAdmission cluster s) := by
  unfold execWorkgroupAdmission
  refine leads_ite (leads_next hs) ?_
  split
  · exact leads_next hs
  · exact leads_next (takeIn_canonical (modCluster_canonical hs))

theorem execSlotReturn_canonical {core wg : Nat} {s : State} (hs : Canonical s) : Leads (execSlotReturn core wg s) := by
  unfold execSlotReturn
  split
  · exact leads_next hs
  · exact leads_ite (leads_next (modPkg_canonical (modCore_canonical hs))) (leads_next hs)

theorem execDonationRequest_canonical {cluster : Nat} {s : State} (hs : Canonical s) : Leads (execDonationRequest cluster s) := by
  unfold execDonationRequest
  refine leads_ite (leads_next hs) (leads_ite (leads_next hs) ?_)
  split
  · exact leads_next hs
  · exact leads_next (modCluster_canonical (modCluster_canonical hs))

/-! ## The operations of Machine/ClusterOps -/

theorem setNetBar_canonical {s : State} {d n b : Nat} {x : NetBar} (hs : Canonical s) : Canonical (s.setNetBar d n b x) := by
  unfold State.setNetBar
  split
  · exact hs
  · exact modDie_canonical hs

theorem nbarriveGroup_canonical {d a b : Nat} {drop : Bool} {c : Ctx} {u : Uses} {s : State} (hs : Canonical s) :
    (nbarriveGroup d a b drop c u s).Canonical := by
  unfold nbarriveGroup
  dsimp only
  split
  · exact hs
  · split
    · exact ctx_commit_canonical hs (fun _ h1 => h1)
    · split
      · exact ctx_commit_canonical hs (fun _ h1 => h1)
      · exact ctx_commit_canonical hs (fun _ h1 => canonical_ite (next_canonical (setNetBar_canonical h1)) (setNetBar_canonical h1))

theorem execNbarwait_canonical {c q a e k : Nat} {s : State} (hs : Canonical s) : Leads (execNbarwait c q a e k s) := by
  unfold execNbarwait
  dsimp only
  refine groupWord_canonical hs (fun _ _ _ h3 => ?_)
  split
  · split
    · exact h3
    · exact did_ite (ctx_commit_canonical h3 (fun _ h1 => h1)) (canonical_ite (fresh_canonical h3) (fresh_canonical h3))
  · exact h3

theorem execNbarset_canonical {c q a b k : Nat} {s : State} (hs : Canonical s) : Leads (execNbarset c q a b k s) := by
  unfold execNbarset
  refine groupWord_canonical hs (fun _ _ _ h3 => ?_)
  split
  · split
    · exact h3
    · split
      · exact ctx_commit_canonical h3 (fun _ h1 => h1)
      · exact ctx_commit_canonical h3 (fun _ h1 => setNetBar_canonical h1)
  · exact h3

theorem execRgrab_canonical {c d i : Nat} {s : State} (hs : Canonical s) : Leads (execRgrab c d i s) :=
  groupWord_canonical hs (fun _ _ _ h3 => ctx_commit_canonical h3 (fun _ h1 => modCurWg_canonical (modCluster_canonical h1)))

theorem execRgrabSet_canonical {c a b i : Nat} {s : State} (hs : Canonical s) : Leads (execRgrabSet c a b i s) := by
  unfold execRgrabSet
  dsimp only
  refine groupWord_canonical hs (fun _ _ _ h3 => ?_)
  split
  · exact ctx_plain_canonical h3 (fun _ h1 => modCurWg_canonical (modCluster_canonical h1))
  · exact h3

/-! ## The operations of Machine/Wake -/

theorem wakeQueue_canonical {s : State} {c w g : Nat} {k : Workgroup} {x : Wait} {n : Nat} {push : Option W64} (hs : Canonical s) : Canonical
    (s.wakeQueue c w g k x n push) := by
  unfold State.wakeQueue
  dsimp only
  refine canonical_ite (faultWait_canonical (modWg_canonical hs)) ?_
  split
  · exact canonical_ite hs (bankOp_canonical (completeWait_canonical hs))
  · refine canonical_ite hs ?_
    split
    · exact faultWait_canonical (modWg_canonical hs)
    · exact bankOp_canonical (completeWait_canonical hs)

theorem wakeBar_canonical {s : State} {c w g : Nat} {k : Workgroup} {x : Wait} {off token : Nat} {last : Bool} (hs : Canonical s) : Canonical
    (s.wakeBar c w g k x off token last) :=
  canonical_ite (completeWait_canonical (modWg_canonical hs)) hs

theorem wakeNbar_canonical {s : State} {c w g : Nat} {k : Workgroup} {x : Wait} {i token : Nat} {last : Bool} (hs : Canonical s) : Canonical
    (s.wakeNbar c w g k x i token last) :=
  canonical_ite (completeWait_canonical hs) hs

theorem wakeSync_canonical {s : State} {c w g : Nat} {k : Workgroup} {x : Wait} {off gen : Nat} (hs : Canonical s) : Canonical
    (s.wakeSync c w g k x off gen) := by
  unfold State.wakeSync
  split
  · exact faultWait_canonical (modGroup_canonical hs)
  · exact canonical_ite (completeWait_canonical hs) hs

theorem wakeTile_canonical {s : State} {c w g : Nat} {k : Workgroup} {x : Wait} {t lim : Nat} (hs : Canonical s) : Canonical
    (s.wakeTile c w g k x t lim) := by
  unfold State.wakeTile
  split
  · exact faultWait_canonical (modGroup_canonical hs)
  · exact canonical_ite (completeWait_canonical (coverOps_canonical hs)) hs

theorem wakeAwait_canonical {s : State} {c w g : Nat} {k : Workgroup} {x : Wait} (hs : Canonical s) : Canonical (s.wakeAwait c w g k x) := by
  unfold State.wakeAwait
  refine canonical_ite hs ?_
  split
  · exact faultWait_canonical (modWg_canonical hs)
  · exact completeWait_canonical hs

theorem wakeSlice_canonical {s : State} {c w : Nat} {k : Workgroup} {x : Wait} (hs : Canonical s) : Canonical (s.wakeSlice c w k x) := by
  unfold State.wakeSlice
  dsimp only
  split
  · exact canonical_ite (faultSlice_canonical (modWg_canonical hs)) (canonical_ite hs (bankOp_canonical (completeSlice_canonical hs)))
  · exact canonical_ite (faultSlice_canonical (modWg_canonical hs)) (canonical_ite hs (bankOp_canonical (completeSlice_canonical hs)))
  · exact hs

theorem wake_canonical {s : State} {c w g id : Nat} (hs : Canonical s) : Canonical (s.wake c w g id) := by
  unfold State.wake
  split
  · exact hs
  · refine canonical_ite ?_ ?_
    · split
      · exact hs
      · exact canonical_ite (wakeSlice_canonical hs) hs
    · split
      · exact hs
      · split
        · exact canonical_ite (completeWait_canonical hs) hs
        · exact wakeQueue_canonical hs
        · exact wakeQueue_canonical hs
        · exact wakeSync_canonical hs
        · exact wakeBar_canonical hs
        · exact wakeNbar_canonical hs
        · exact wakeTile_canonical hs
        · exact wakeAwait_canonical hs
        · exact wakeImages_canonical hs
        · exact completeWait_canonical hs
        · exact faultWait_canonical hs
        · exact wakeRest_canonical hs
        · exact hs
        · exact hs

theorem execSleepExpiry_canonical {core wg grp id : Nat} {s : State} (hs : Canonical s) : Leads (execSleepExpiry core wg grp id s) := by
  unfold execSleepExpiry
  split
  · exact leads_next hs
  · split
    · exact leads_ite (leads_next (completeWait_canonical hs)) (leads_next hs)
    · exact leads_next hs

theorem execBarwaitBoundExpiry_canonical {core wg grp id : Nat} {s : State} (hs : Canonical s) : Leads
    (execBarwaitBoundExpiry core wg grp id s) := by
  unfold execBarwaitBoundExpiry
  split
  · exact leads_next hs
  · split
    · exact leads_next hs
    · split
      · exact leads_next (wakeBar_canonical hs)
      · exact leads_next hs

theorem execNbarwaitBoundExpiry_canonical {core wg grp id : Nat} {s : State} (hs : Canonical s) : Leads
    (execNbarwaitBoundExpiry core wg grp id s) := by
  unfold execNbarwaitBoundExpiry
  split
  · exact leads_next hs
  · split
    · exact leads_next hs
    · split
      · exact leads_next (wakeNbar_canonical hs)
      · exact leads_next hs

/-! ## The operations of Machine/Schedule -/

theorem ageLanes_canonical {s : State} {core : Nat} {o : Offer} {issued : List Path} (hs : Canonical s) : Canonical (s.ageLanes core o issued) :=
  modWg_canonical (canonical_foldl (fun _ h1 _ => canonical_foldl (fun _ h1 _ => modGroup_canonical h1) h1) hs)

theorem issueCycle_canonical {s : State} {core : Nat} (hs : Canonical s) : Canonical (s.issueCycle core) :=
  next_canonical (modCore_canonical (canonical_foldl (fun _ h1 _ => chargeUnit_canonical h1)
      (canonical_foldl (fun _ h1 _ => ageLanes_canonical h1) hs)))

theorem execResultWriteback_canonical {core wg grp id : Nat} {s : State} (hs : Canonical s) : Leads (execResultWriteback core wg grp id s) := by
  unfold execResultWriteback
  split
  · exact leads_next hs
  · exact leads_next (modGroup_canonical hs)

/-! ## The operations of Machine/Power -/

theorem modPart_canonical {s : State} {p : Nat} {f : Partition → Partition} (hs : Canonical s) : Canonical (s.modPart p f) :=
  modPkg_canonical hs

theorem writeCap_canonical {s : State} {part value : Nat} (hs : Canonical s) : Canonical (s.writeCap part value) :=
  modPart_canonical hs

theorem latchDuties_canonical {s : State} (hs : Canonical s) : Canonical s.latchDuties :=
  canonical_ite (modPkg_canonical hs) hs

theorem orderHalfRow_canonical {s : State} {core : Nat} {peak : Int} (hs : Canonical s) : Canonical (s.orderHalfRow core peak) :=
  modCore_canonical hs

theorem execThermalForecast_canonical {die : Nat} {peaks : List Int} {s : State} (hs : Canonical s) : Leads (execThermalForecast die peaks s) :=
  leads_ite (leads_next hs) (leads_next (canonical_foldl (fun _ h1 _ => orderHalfRow_canonical (modDie_canonical h1)) hs))

theorem trip_canonical {s : State} (hs : Canonical s) : Canonical s.trip := by
  have hw : Canonical ((upto 0 4).foldl (fun s d => s.withdrawChurn d (fun _ => true)) s) :=
    canonical_foldl (fun _ h1 _ => withdrawChurn_canonical h1) hs
  unfold State.trip
  exact modPkg_canonical (canonical_of_mem hw rfl)

theorem sense_canonical {s : State} {d n : Nat} {temp : Int} (hs : Canonical s) : Canonical (s.sense d n temp) :=
  canonical_ite (trip_canonical (modDie_canonical hs)) (modDie_canonical hs)

/-! ## The operations of Machine/Boot -/

theorem resetQueues_canonical {s : State} (hs : Canonical s) : Canonical s.resetQueues :=
  modPkg_canonical (canonical_foldl (fun _ h1 _ => modDie_canonical h1) hs)

theorem bootAction_canonical {s : State} {step : Nat} {alternate joined : Bool} {o : BootOutcome} (hs : Canonical s) : Canonical
    (s.bootAction step alternate joined o) := by
  unfold State.bootAction
  dsimp only
  split
  · exact modPkg_canonical hs
  · exact modPkg_canonical hs
  · exact canonical_ite (modPkg_canonical hs) (modPkg_canonical hs)
  · exact canonical_ite (modPkg_canonical (draw_canonical hs)) (modPkg_canonical hs)
  · exact resetQueues_canonical hs
  · exact hs

theorem bootPhase_canonical {s : State} {b : BootPhase} (hs : Canonical s) : Canonical (s.bootPhase b) :=
  modPkg_canonical hs

theorem record_canonical {s : State} {step : Nat} {alternate ok : Bool} (hs : Canonical s) : Canonical (s.record step alternate ok) :=
  modPkg_canonical hs

theorem bootSteps_canonical {s : State} {step : Nat} {joined : Bool} {xs : List BootOutcome} (hs : Canonical s) : Canonical
    (s.bootSteps step joined xs) := by
  induction xs generalizing s step joined with
  | nil => exact hs
  | cons x xs ih =>
    unfold State.bootSteps
    dsimp only
    refine canonical_ite hs ?_
    split
    · exact bootPhase_canonical hs
    · exact canonical_ite (ih (bootAction_canonical (record_canonical hs)))
          (canonical_ite (record_canonical hs) (bootPhase_canonical (record_canonical hs)))

theorem powerOn_canonical {s : State} (_ : Canonical s) : Canonical s.powerOn := reset_canonical

theorem bootReady_canonical {s : State} (hs : Canonical s) : Canonical s.bootReady :=
  modPkg_canonical hs

theorem spdmAnswer_canonical {s : State} {a : SpdmAnswer} (hs : Canonical s) : Canonical (s.spdmAnswer a) :=
  modPkg_canonical hs

/-! ## The operations of Machine/Fabric -/

theorem portEvent_canonical {port : Nat} {s : State} {f : Port → State} (hs : Canonical s) (hf : ∀ p, Canonical (f p)) :
    Leads (portEvent port s f) :=
  leads_ite (leads_next hs) (leads_next (hf _))

theorem sendWaiting_canonical {s : State} (hs : Canonical s) : Canonical s.sendWaiting := by
  unfold State.sendWaiting
  refine canonical_foldl (fun _ h1 _ => ?_) (modPkg_canonical hs)
  split
  · exact h1
  · exact sendFlit_canonical h1

theorem acknowledge_canonical {s : State} {id : Nat} (hs : Canonical s) : Canonical (s.acknowledge id) :=
  sendWaiting_canonical (canonical_foldl (fun _ h1 _ => canonical_ite (modPort_canonical h1) h1) hs)

theorem answerRemote_canonical {s : State} {id : Nat} {v : Option Nat} (hs : Canonical s) : Canonical (s.answerRemote id v) := by
  unfold State.answerRemote
  split
  · exact hs
  · exact canonical_ite (answer_canonical (acknowledge_canonical hs)) hs

theorem execFlitReceive_canonical {port : Nat} {flit : Flit} {s : State} (hs : Canonical s) : Leads (execFlitReceive port flit s) :=
  portEvent_canonical hs fun _ => canonical_ite hs (canonical_foldl (fun _ h1 _ => answerRemote_canonical h1) (modPort_canonical hs))

theorem execFlitRefusal_canonical {port seq crc : Nat} {s : State} (hs : Canonical s) : Leads (execFlitRefusal port seq crc s) :=
  portEvent_canonical hs fun _ => modPort_canonical hs

theorem moveFlits_canonical {s : State} {l : List (BitVec 12 × Nat)} (hs : Canonical s) : Canonical (s.moveFlits l) := by
  unfold State.moveFlits
  refine canonical_foldl (fun _ h1 _ => ?_) hs
  split
  · exact h1
  · exact sendFlit_canonical h1

theorem failAccesses_canonical {s : State} {package : Nat} (hs : Canonical s) : Canonical (s.failAccesses package) :=
  canonical_foldl (fun _ h1 _ => answer_canonical (acknowledge_canonical h1)) hs

theorem failUnreachable_canonical {s : State} (hs : Canonical s) : Canonical s.failUnreachable :=
  canonical_foldl (fun _ h1 _ => canonical_ite (failAccesses_canonical h1) h1) hs

theorem retrain_canonical {s : State} {port : Nat} {ok : Bool} (hs : Canonical s) : Canonical (s.retrain port ok) :=
  canonical_ite (sendWaiting_canonical (modPort_canonical (canonical_ite (tally_canonical (count_canonical hs)) hs)))
      (canonical_ite (modPort_canonical (canonical_ite (tally_canonical (count_canonical hs)) hs))
      (failUnreachable_canonical (moveFlits_canonical (firmwareCause_canonical
      (modPort_canonical (canonical_ite (tally_canonical (count_canonical hs)) hs))))))

theorem execPortRetrain_canonical {port ok : Nat} {s : State} (hs : Canonical s) : Leads (execPortRetrain port ok s) :=
  portEvent_canonical hs fun _ => canonical_ite (retrain_canonical hs) hs

theorem reply_canonical {s : State} {r : RemoteReq} {v : Option Nat} (hs : Canonical s) : Canonical (s.reply r v) := by
  unfold State.reply
  dsimp only
  refine modPkg_canonical ?_
  split
  · exact canonical_ite (count_canonical hs) hs
  · exact hs

theorem inboundWrite_canonical {s : State} {pa : Nat} {bs : List Byte} (hs : Canonical s) : Canonical (s.inboundWrite pa bs) :=
  linkWrites_canonical hs

theorem portLine_canonical {s : State} {line : Nat} (hs : Canonical s) : Canonical (s.portLine line) :=
  canonical_ite hs (modPkg_canonical (takeHome_canonical hs))

theorem remoteAtomic_canonical {s : State} {r : RemoteReq} (hs : Canonical s) : Canonical (s.remoteAtomic r) :=
  reply_canonical (writeSpan_canonical (markDirty_canonical (portLine_canonical hs)))

theorem inboundAccess_canonical {s : State} {r : RemoteReq} (hs : Canonical s) : Canonical (s.inboundAccess r) := by
  unfold State.inboundAccess
  refine canonical_ite (reply_canonical hs) ?_
  split
  · exact reply_canonical (sliceRead_canonical hs)
  · exact reply_canonical (inboundWrite_canonical hs)
  · exact remoteAtomic_canonical hs

theorem execInboundAccess_canonical {req : RemoteReq} {s : State} (hs : Canonical s) : Leads (execInboundAccess req s) :=
  leads_ite (leads_next hs) (leads_next (hostWait_canonical hs (fun _ h1 => inboundAccess_canonical h1)))

theorem execRemoteAtomic_canonical {req : RemoteReq} {s : State} (hs : Canonical s) : Leads (execRemoteAtomic req s) :=
  leads_ite (leads_next hs) (leads_next (hostWait_canonical hs (fun _ h1 => inboundAccess_canonical h1)))

theorem execRemoteWriteAck_canonical {id : Nat} {s : State} (hs : Canonical s) : Leads (execRemoteWriteAck id s) := by
  unfold execRemoteWriteAck
  split
  · exact leads_next hs
  · exact leads_ite (leads_next (answerRemote_canonical hs)) (leads_next hs)

/-! ## The operations of Machine/Registers -/

theorem writeQueue0_canonical {s : State} {d q v : Nat} (hs : Canonical s) : Canonical (s.writeQueue0 d q v) :=
  modDie_canonical (canonical_ite (enableQueue_canonical hs) hs)

theorem writeQueue2_canonical {s : State} {d q v : Nat} (hs : Canonical s) : Canonical (s.writeQueue2 d q v) :=
  canonical_ite (destroyQueue_canonical (modDie_canonical hs)) (modDie_canonical hs)

theorem writeQueue_canonical {s : State} {d q word v : Nat} (hs : Canonical s) : Canonical (s.writeQueue d q word v) :=
  canonical_ite (writeQueue0_canonical hs) (canonical_ite (doorbell_canonical hs) (canonical_ite (writeQueue2_canonical hs) hs))

theorem writeBin_canonical {s : State} {d b v : Nat} (hs : Canonical s) : Canonical (s.writeBin d b v) :=
  modBin_canonical hs

theorem writeBinAsid_canonical {s : State} {d p v : Nat} (hs : Canonical s) : Canonical (s.writeBinAsid d p v) :=
  modDie_canonical hs

theorem writePort_canonical {s : State} {i v : Nat} (hs : Canonical s) : Canonical (s.writePort i v) :=
  modPort_canonical hs

theorem writeLost_canonical {s : State} {d m v : Nat} (hs : Canonical s) : Canonical (s.writeLost d m v) :=
  modDie_canonical hs

theorem writePkgReg_canonical {s : State} {off v : Nat} (hs : Canonical s) : Canonical (s.writePkgReg off v) :=
  canonical_ite (modPkg_canonical hs) (canonical_ite (modPkg_canonical hs)
      (canonical_ite (modPkg_canonical hs) (canonical_ite (modPkg_canonical hs)
      (canonical_ite (modPkg_canonical hs) (canonical_ite (modPkg_canonical hs) (canonical_ite (migrationCommand_canonical hs) hs))))))

theorem writeRoute_canonical {s : State} {n v : Nat} (hs : Canonical s) : Canonical (s.writeRoute n v) :=
  modPkg_canonical hs

theorem writeDie0_canonical {s : State} {off v : Nat} (hs : Canonical s) : Canonical (s.writeDie0 off v) :=
  canonical_ite (writePkgReg_canonical hs) (canonical_ite (writeCap_canonical hs)
      (canonical_ite (writeRoute_canonical hs) (canonical_ite (modPkg_canonical hs) hs)))

theorem writeRegister_canonical {s : State} {d off v : Nat} (hs : Canonical s) : Canonical (s.writeRegister d off v) :=
  canonical_ite hs (canonical_ite (writeQueue_canonical hs) (canonical_ite (writeSplit_canonical hs)
      (canonical_ite (writeGating_canonical hs) (canonical_ite (writeChurnLimit_canonical hs)
      (canonical_ite (writeBin_canonical hs) (canonical_ite (writeBinAsid_canonical hs)
      (canonical_ite (writeBias_canonical hs) (canonical_ite (writePort_canonical hs)
      (canonical_ite (writeLost_canonical hs) (canonical_ite (writeDie0_canonical hs) hs))))))))))

theorem execRegisterWrite_canonical {pa value : Nat} {s : State} (hs : Canonical s) : Leads (execRegisterWrite pa value s) := by
  unfold execRegisterWrite
  split
  · exact leads_ite (leads_next hs) (leads_next (writeRegister_canonical hs))
  · exact leads_next hs

theorem createPartition_canonical {s : State} {part : Nat} {spec : PartSpec} (hs : Canonical s) : Canonical (s.createPartition part spec) :=
  canonical_foldl (fun _ h1 _ => writeChurnLimit_canonical (modDie_canonical h1))
      (canonical_foldl (fun _ h1 _ => modCluster_canonical h1) (modPart_canonical hs))

theorem expelSlot_canonical {s : State} {d n : Nat} {x : Slot} (hs : Canonical s) : Canonical (s.expelSlot d n x) := by
  unfold State.expelSlot
  dsimp only
  split
  · exact canonical_ite (setSlot_canonical (modDie_canonical hs)) (canonical_ite
        (settleSlot_canonical (canonical_ite (loseLine_canonical (setSlot_canonical (modDie_canonical hs)))
        (setSlot_canonical (modDie_canonical hs)))) (modDie_canonical hs))
  · exact freeSlot_canonical (modBin_canonical (modDie_canonical hs))
  · exact modDie_canonical hs

theorem execPartitionDestruction_canonical {part : Nat} {s : State} (hs : Canonical s) : Leads (execPartitionDestruction part s) :=
  leads_ite (leads_next hs) (leads_next (canonical_foldl (fun _ h1 _ => canonical_foldl (fun _ h1 _ => expelSlot_canonical h1) h1)
      (modPart_canonical hs)))

/-! ## The operations of Machine/Context -/

theorem withdrawWaiting_canonical {s : State} {core wg : Nat} (hs : Canonical s) : Canonical (s.withdrawWaiting core wg) :=
  canonical_ite hs (modPkg_canonical (modDie_canonical hs))

theorem writeAnswers_canonical {s : State} {core wg g : Nat} (hs : Canonical s) : Canonical (s.writeAnswers core wg g) := by
  unfold State.writeAnswers
  split
  · exact hs
  · refine canonical_foldl (fun _ h1 _ => ?_) hs
    split
    · exact canonical_ite (completeWait_canonical h1) h1
    · exact h1

theorem unwaitGroup_canonical {s : State} {core wg g : Nat} (hs : Canonical s) : Canonical (s.unwaitGroup core wg g) := by
  unfold State.unwaitGroup
  dsimp only
  split
  · exact hs
  · exact canonical_ite hs (modGroup_canonical (canonical_foldl (fun _ h1 _ => modWg_canonical h1) hs))

theorem unwaitSlice_canonical {s : State} {core wg : Nat} (hs : Canonical s) : Canonical (s.unwaitSlice core wg) :=
  modWg_canonical hs

theorem cancelLoad_canonical {s : State} {core wg asid : Nat} {o : Outside} (hs : Canonical s) : Canonical (s.cancelLoad core wg asid o) :=
  canonical_ite (dropOutside_canonical hs) (modGroup_canonical (dropOutside_canonical hs))

theorem stopWg_canonical {s : State} {core wg : Nat} {w : Workgroup} (hs : Canonical s) : Canonical (s.stopWg core wg w) :=
  unwaitSlice_canonical (canonical_foldl (fun _ h1 _ => cancelLoad_canonical h1)
      (canonical_foldl (fun _ h1 _ => writeAnswers_canonical (unwaitGroup_canonical h1))
      (withdrawSeals_canonical (withdrawWaiting_canonical (modWg_canonical hs)))))

theorem saveWg_canonical {s : State} {core wg : Nat} {w : Workgroup} (hs : Canonical s) : Canonical (s.saveWg core wg w) :=
  modPkg_canonical (modCore_canonical (canonical_foldl (fun _ h1 _ => linkWrites_canonical h1) hs))

theorem execPreempt_canonical {core wg : Nat} {s : State} (hs : Canonical s) : Leads (execPreempt core wg s) := by
  unfold execPreempt
  dsimp only
  split
  · exact leads_next hs
  · refine leads_ite (leads_next hs) ?_
    split
    · exact leads_next (stopWg_canonical (canonical_ite hs (systemCause_canonical hs)))
    · exact leads_ite (leads_next (saveWg_canonical (stopWg_canonical (canonical_ite hs (systemCause_canonical hs)))))
          (leads_next (stopWg_canonical (canonical_ite hs (systemCause_canonical hs))))

theorem replayLoad_canonical {s : State} {who : Who} {w : Workgroup} {g : Group} {r : Replay} (hs : Canonical s) : Canonical
    (s.replayLoad who w g r) := by
  unfold State.replayLoad
  dsimp only
  split
  · split
    · exact takeTrap_canonical (places_canonical hs)
    · exact canonical_foldl (fun _ h1 _ => sendLoad_canonical h1) (modGroup_canonical (l1Reads_canonical (fresh_canonical (places_canonical hs))))
  · exact hs

theorem replayWg_canonical {s : State} {core slot : Nat} {w : Workgroup} (hs : Canonical s) : Canonical (s.replayWg core slot w) := by
  unfold State.replayWg
  dsimp only
  refine canonical_foldl (fun _ h1 _ => ?_) hs
  split
  · exact h1
  · exact canonical_foldl (fun _ h1 _ => replayLoad_canonical h1) (modGroup_canonical h1)

theorem restoreWg_canonical {s : State} {n core : Nat} {k : Saved} (hs : Canonical s) : Canonical (s.restoreWg n core k) :=
  replayWg_canonical (modPkg_canonical (modCore_canonical hs))

theorem execContextRestore_canonical {saved core : Nat} {s : State} (hs : Canonical s) : Leads (execContextRestore saved core s) := by
  unfold execContextRestore
  split
  · exact leads_next hs
  · exact leads_ite (leads_next (restoreWg_canonical hs)) (leads_next hs)

/-! ## The operations of Machine/Float -/

theorem farith_canonical {fn : Nat} {rd : Bool} {f : R3} {c : Ctx} {u : Uses} {s : State} (hs : Canonical s) : (farith fn rd f c u s).Canonical :=
    by
  unfold farith
  dsimp only
  split
  · exact hs
  · exact ctx_commit_canonical hs (fun _ h1 => h1)
  · exact ctx_commit_canonical hs (fun _ h1 => h1)

theorem fcmp_canonical {fn : Nat} {f : RCmp} {c : Ctx} {u : Uses} {s : State} (hs : Canonical s) : (fcmp fn f c u s).Canonical := by
  unfold fcmp
  split
  · exact hs
  · exact ctx_commit_canonical hs (fun _ h1 => h1)
  · exact ctx_commit_canonical hs (fun _ h1 => h1)

theorem funary_canonical {code : Nat} {f : RRnd} {c : Ctx} {u : Uses} {s : State} (hs : Canonical s) : (funary code f c u s).Canonical :=
  did_ite (ctx_commit_canonical hs (fun _ h1 => h1)) (ctx_commit_canonical hs (fun _ h1 => h1))

theorem ivBound_canonical {hi : Bool} {f : RRnd} {c : Ctx} {u : Uses} {s : State} (hs : Canonical s) : (ivBound hi f c u s).Canonical :=
  did_ite (ctx_commit_canonical hs (fun _ h1 => h1)) (ctx_commit_canonical hs (fun _ h1 => h1))

theorem execFclass_canonical {f : RRnd} {s : State} (hs : Canonical s) : Leads (execFclass f s) :=
  groupWord_canonical hs (fun _ _ _ h3 => did_ite h3 (ctx_commit_canonical h3 (fun _ h1 => h1)))

theorem execMov_canonical {f : R1} {s : State} (hs : Canonical s) : Leads (execMov f s) :=
  groupWord_canonical hs (fun _ _ _ h3 => ctx_commit_canonical h3 (fun _ h1 => h1))

/-! ## The operations of Machine/Convert -/

theorem cvt1_canonical {from_ dst : Shape} {f : RRnd} {op : Nat → W64 → Nat → Nat × W64} {c : Ctx} {u : Uses} {s : State} (hs : Canonical s) :
    (cvt1 from_ dst f op c u s).Canonical :=
  did_ite hs (ctx_commit_canonical hs (fun _ h1 => h1))

theorem cvtPack_canonical {n bits : Nat} {side : Option (List Nat → Nat)} {op : Nat → Nat → W64 → Nat → Nat × W64} {f : RRnd} {c : Ctx} {u : Uses}
    {s : State} (hs : Canonical s) : (cvtPack n bits side op f c u s).Canonical :=
  did_ite hs (ctx_commit_canonical hs (fun _ h1 => h1))

theorem cvtUnpack_canonical {n bits : Nat} {op : Nat → Nat → W64 → Nat → Nat × W64} {f : RRnd} {c : Ctx} {u : Uses} {s : State} (hs : Canonical s)
    : (cvtUnpack n bits op f c u s).Canonical :=
  did_ite hs (ctx_commit_canonical hs (fun _ h1 => h1))

theorem execSideGet_canonical {f : RRnd} {s : State} (hs : Canonical s) : Leads (execSideGet f s) :=
  groupWord_canonical hs (fun _ _ _ h3 => ctx_commit_canonical h3 (fun _ h1 => h1))

theorem execSideSet_canonical {f : RRnd} {s : State} (hs : Canonical s) : Leads (execSideSet f s) :=
  groupWord_canonical hs (fun _ _ _ h3 => did_ite h3 (ctx_commit_canonical h3 (fun _ h1 => h1)))

/-! ## The operations of Machine/Integer -/

theorem intGroup_canonical {regs : List Nat} {d a b : Nat} {op : Nat → Nat → Nat → Nat → Nat} {c : Ctx} {u : Uses} {s : State} (hs : Canonical s)
    : (intGroup regs d a b op c u s).Canonical := by
  unfold intGroup
  split
  · exact hs
  · exact ctx_commit_canonical hs (fun _ h1 => h1)

theorem intSlice_canonical {d a b : Nat} {op : Nat → Nat → Nat → Nat → Nat} {x : Slice} {s : State} (hs : Canonical s) :
    (intSlice d a b op x s).Canonical :=
  modCurSlice_canonical hs

theorem intWord_canonical {u : Uses} {d a b : Nat} {rd : Bool} {op : Nat → Nat → Nat → Nat → Nat} {s : State} (hs : Canonical s) : Leads
    (intWord u d a b rd op s) :=
  bothWord_canonical hs (fun _ _ _ h3 => intGroup_canonical h3) (fun _ _ h2 => intSlice_canonical h2)

theorem intWord1_canonical {u : Uses} {d a : Nat} {op : Nat → Nat → Nat} {s : State} (hs : Canonical s) : Leads (intWord1 u d a op s) :=
  bothWord_canonical hs (fun _ _ _ h3 => intGroup_canonical h3) (fun _ _ h2 => intSlice_canonical h2)

theorem immWord_canonical {u : Uses} {f : RImm} {op : Nat → Nat → Nat → Nat} {s : State} (hs : Canonical s) : Leads (immWord u f op s) :=
  bothWord_canonical hs (fun _ _ _ h3 => intGroup_canonical h3) (fun _ _ h2 => intSlice_canonical h2)

theorem cmpGroup_canonical {q a b : Nat} {rel : Nat → Nat → Nat → Bool} {c : Ctx} {u : Uses} {s : State} (hs : Canonical s) :
    (cmpGroup q a b rel c u s).Canonical := by
  unfold cmpGroup
  split
  · exact hs
  · exact ctx_commit_canonical hs (fun _ h1 => h1)

theorem cmpSlice_canonical {q a b : Nat} {rel : Nat → Nat → Nat → Bool} {x : Slice} {s : State} (hs : Canonical s) :
    (cmpSlice q a b rel x s).Canonical :=
  modCurSlice_canonical hs

theorem cmpWord_canonical {u : Uses} {f : RCmp} {rel : Nat → Nat → Nat → Bool} {s : State} (hs : Canonical s) : Leads (cmpWord u f rel s) :=
  bothWord_canonical hs (fun _ _ _ h3 => cmpGroup_canonical h3) (fun _ _ h2 => cmpSlice_canonical h2)

theorem selGroup_canonical {f : R3} {c : Ctx} {u : Uses} {s : State} (hs : Canonical s) : (selGroup f c u s).Canonical := by
  unfold selGroup
  dsimp only
  split
  · exact hs
  · exact ctx_commit_canonical hs (fun _ h1 => h1)

theorem selSlice_canonical {f : R3} {x : Slice} {s : State} (hs : Canonical s) : (selSlice f x s).Canonical :=
  modCurSlice_canonical hs

theorem execSel_canonical {f : R3} {s : State} (hs : Canonical s) : Leads (execSel f s) :=
  bothWord_canonical hs (fun _ _ _ h3 => selGroup_canonical h3) (fun _ _ h2 => selSlice_canonical h2)

theorem execShli_canonical {f : RImm} {s : State} (hs : Canonical s) : Leads (execShli f s) :=
  immWord_canonical hs

theorem execShri_canonical {f : RImm} {s : State} (hs : Canonical s) : Leads (execShri f s) :=
  immWord_canonical hs

theorem execSari_canonical {f : RImm} {s : State} (hs : Canonical s) : Leads (execSari f s) :=
  immWord_canonical hs

theorem execMovi_canonical {f : RWide} {s : State} (hs : Canonical s) : Leads (execMovi f s) :=
  bothWord_canonical hs (fun _ _ _ h3 => ctx_commit_canonical h3 (fun _ h1 => h1)) (fun _ _ h2 => modCurSlice_canonical h2)

theorem execMovhi_canonical {f : RWide} {s : State} (hs : Canonical s) : Leads (execMovhi f s) :=
  bothWord_canonical hs (fun _ _ _ h3 => did_ite h3 (ctx_commit_canonical h3 (fun _ h1 => h1))) (fun _ _ h2 => modCurSlice_canonical h2)

/-! ## The operations of Machine/GroupOps -/

theorem shuffle_canonical {src : Nat → Nat → Option Nat} {f : R3} {c : Ctx} {u : Uses} {s : State} (hs : Canonical s) :
    (shuffle src f c u s).Canonical :=
  did_ite hs (ctx_commit_canonical hs (fun _ h1 => h1))

theorem execVote_canonical {c d q k g st : Nat} {s : State} (hs : Canonical s) : Leads (execVote c d q k g st s) :=
  groupWord_canonical hs (fun _ _ _ h3 => ctx_commit_canonical h3 (fun _ h1 => h1))

theorem execMatchLanes_canonical {f : R1} {s : State} (hs : Canonical s) : Leads (execMatchLanes f s) :=
  groupWord_canonical hs (fun _ _ _ h3 => ctx_commit_canonical h3 (fun _ h1 => h1))

theorem gredWith_canonical {op : Elem → Elem → W64 → Elem × W64} {err : Option Trap} {f : R1} {c : Ctx} {u : Uses} {s : State} (hs : Canonical s)
    : (gredWith op err f c u s).Canonical :=
  ctx_commit_canonical hs (fun _ h1 => h1)

theorem gredInt_canonical {op : Nat → Nat → Nat → Nat} {f : R1} {c : Ctx} {u : Uses} {s : State} (hs : Canonical s) :
    (gredInt op f c u s).Canonical :=
  did_ite hs (gredWith_canonical hs)

theorem gredFlt_canonical {fn : Nat} {f : R1} {c : Ctx} {u : Uses} {s : State} (hs : Canonical s) : (gredFlt fn f c u s).Canonical :=
  did_ite (gredWith_canonical hs) (gredWith_canonical hs)

theorem execGfence_canonical {c l g sc : Nat} {s : State} (hs : Canonical s) : Leads (execGfence c l g sc s) :=
  groupWord_canonical hs (fun _ _ _ h3 => did_ite h3 h3)

theorem quadSwap_canonical {k : Nat} {f : R1} {c : Ctx} {u : Uses} {s : State} (hs : Canonical s) : (quadSwap k f c u s).Canonical :=
  ctx_commit_canonical hs (fun _ h1 => h1)

theorem derivWord_canonical {at_ : Nat → Nat × Nat} {f : R1} {c : Ctx} {u : Uses} {s : State} (hs : Canonical s) :
    (derivWord at_ f c u s).Canonical :=
  ctx_commit_canonical hs (fun _ h1 => h1)

theorem execHelpq_canonical {c d g st : Nat} {s : State} (hs : Canonical s) : Leads (execHelpq c d g st s) :=
  groupWord_canonical hs (fun _ _ _ h3 => ctx_commit_canonical h3 (fun _ h1 => h1))

/-! ## The operations of Machine/Interval -/

theorem ivWord_canonical {regs : List Nat} {d : Nat} {k : Nat → Shape} {op : Fmt → List Iv → Except Cause Elem} {c : Ctx} {u : Uses} {s : State}
    (hs : Canonical s) : (ivWord regs d k op c u s).Canonical := by
  unfold ivWord
  split
  · exact hs
  · exact ctx_commit_canonical hs (fun _ h1 => h1)

theorem execIvmk_canonical {f : R3} {s : State} (hs : Canonical s) : Leads (execIvmk f s) := by
  unfold execIvmk
  dsimp only
  refine groupWord_canonical hs (fun _ _ _ h3 => ?_)
  split
  · exact ctx_commit_canonical h3 (fun _ h1 => h1)
  · exact h3

theorem execIvsplit_canonical {f : R1} {s : State} (hs : Canonical s) : Leads (execIvsplit f s) :=
  groupWord_canonical hs (fun _ _ _ h3 => ctx_commit_canonical h3 (fun _ h1 => h1))

theorem execIvpown_canonical {f : R3} {s : State} (hs : Canonical s) : Leads (execIvpown f s) :=
  groupWord_canonical hs (fun _ _ _ h3 => did_ite h3 (ctx_commit_canonical h3 (fun _ h1 => h1)))

theorem ivcmp_canonical {rel : Iv → Iv → Bool} {f : RCmp} {c : Ctx} {u : Uses} {s : State} (hs : Canonical s) : (ivcmp rel f c u s).Canonical := by
  unfold ivcmp
  split
  · exact hs
  · exact ctx_commit_canonical hs (fun _ h1 => h1)

theorem execZin_canonical {f : RCmp1} {s : State} (hs : Canonical s) : Leads (execZin f s) :=
  groupWord_canonical hs (fun _ _ _ h3 => ctx_commit_canonical h3 (fun _ h1 => h1))

/-! ## The operations of Machine/Predicate -/

theorem qWord_canonical {u : Uses} {q x y : Nat} {op : Tri → Tri → Tri} {s : State} (hs : Canonical s) : Leads (qWord u q x y op s) :=
  groupWord_canonical hs (fun _ _ _ h3 => ctx_commit_canonical h3 (fun _ h1 => h1))

theorem execQand_canonical {f : RQ2} {s : State} (hs : Canonical s) : Leads (execQand f s) :=
  qWord_canonical hs

theorem execQor_canonical {f : RQ2} {s : State} (hs : Canonical s) : Leads (execQor f s) :=
  qWord_canonical hs

theorem execQxor_canonical {f : RQ2} {s : State} (hs : Canonical s) : Leads (execQxor f s) :=
  qWord_canonical hs

theorem execQcons_canonical {f : RQ2} {s : State} (hs : Canonical s) : Leads (execQcons f s) :=
  qWord_canonical hs

theorem execQnot_canonical {f : RQ1} {s : State} (hs : Canonical s) : Leads (execQnot f s) :=
  qWord_canonical hs

theorem execQmov_canonical {f : RQ1} {s : State} (hs : Canonical s) : Leads (execQmov f s) :=
  qWord_canonical hs

theorem execQdef_canonical {f : RQ1} {s : State} (hs : Canonical s) : Leads (execQdef f s) :=
  qWord_canonical hs

theorem execQset_canonical {f : RQSet} {s : State} (hs : Canonical s) : Leads (execQset f s) :=
  qWord_canonical hs

/-! ## The operations of Machine/Raster -/

theorem clearTile_canonical {s : State} {a side clear : Nat} (hs : Canonical s) : Canonical (s.clearTile a side clear) :=
  canonical_foldl (fun _ h1 _ => rawWrite_canonical h1) (canonical_foldl (fun _ h1 _ => rawWrite_canonical h1) hs)

theorem openPass_canonical {s : State} {d slot : Nat} {p : Pass} (hs : Canonical s) : Canonical (s.openPass d slot p) :=
  canonical_foldl (fun _ h1 _ => clearTile_canonical h1) (modDie_canonical hs)

theorem gfxOnce_canonical {body : Nat → Ctx → Uses → State → Did} {c : Ctx} {u : Uses} {s : State}
    (hbody : ∀ x1, ∀ x2, ∀ x3, ∀ t4, Canonical t4 → (body x1 x2 x3 t4).Canonical) (hs : Canonical s) : (gfxOnce body c u s).Canonical := by
  unfold gfxOnce
  split
  · exact hs
  · exact hbody _ _ _ _ hs

theorem handOver_canonical {s : State} {d : Nat} {ts : List Triangle} (hs : Canonical s) : Canonical (s.handOver d ts) :=
  modDie_canonical hs

theorem laneRead_canonical {s : State} {c : Ctx} {p : Place} (hs : Canonical s) : Canonical (s.laneRead c p) :=
  canonical_foldl (fun _ h1 _ => sliceRead_canonical h1) hs

theorem rastAt_canonical {a b e l : Nat} {c : Ctx} {u : Uses} {s : State} (hs : Canonical s) : (rastAt a b e l c u s).Canonical := by
  unfold rastAt
  dsimp only
  refine did_ite hs ?_
  split
  · exact did_ite hs (ctx_plain_canonical hs (fun _ h1 => handOver_canonical h1))
  · split
    · exact canonical_snd (place_canonical hs) ‹_›
    · refine did_ite (canonical_snd (place_canonical hs) ‹_›) (did_ite (canonical_snd (place_canonical hs) ‹_›) ?_)
      split
      · exact laneRead_canonical (canonical_snd (place_canonical hs) ‹_›)
      · exact ctx_plain_canonical (laneRead_canonical (canonical_snd (place_canonical hs) ‹_›))
            (fun _ h1 => handOver_canonical (openPass_canonical h1))

theorem execRast_canonical {c a b e : Nat} {s : State} (hs : Canonical s) : Leads (execRast c a b e s) :=
  groupWord_canonical hs (fun _ _ _ h3 => gfxOnce_canonical (fun _ _ _ _ h4 => did_ite (rastAt_canonical h4) h4) h3)

theorem execRseal_canonical {c a : Nat} {s : State} (hs : Canonical s) : Leads (execRseal c a s) := by
  unfold execRseal
  dsimp only
  refine groupWord_canonical hs (fun _ _ _ h3 => gfxOnce_canonical (fun _ _ _ _ h4 => did_ite h4 (did_ite h4 ?_)) h3)
  split
  · exact h4
  · exact did_ite h4 (did_ite h4 (modDie_canonical (fresh_canonical h4)))

theorem fragment_canonical {s : State} {d : Nat} {p : Pass} {x y z v : Nat} (hs : Canonical s) : Canonical (s.fragment d p x y z v) :=
  canonical_ite (rawWrite_canonical (rawWrite_canonical (canonical_ite (draw_canonical hs) hs))) (canonical_ite (draw_canonical hs) hs)

theorem rasterise_canonical {s : State} {d : Nat} {p : Pass} {t : Triangle} (hs : Canonical s) : Canonical (s.rasterise d p t) := by
  unfold State.rasterise
  dsimp only
  split
  · exact hs
  · refine canonical_foldl (fun _ h1 _ => canonical_foldl (fun _ h1 _ => canonical_ite ?_ h1) h1) hs
    split
    · exact h1
    · exact fragment_canonical h1

theorem execRasterTriangle_canonical {die : Nat} {s : State} (hs : Canonical s) : Leads (execRasterTriangle die s) := by
  unfold execRasterTriangle
  dsimp only
  split
  · exact leads_next hs
  · split
    · exact leads_next (modDie_canonical hs)
    · exact leads_next (rasterise_canonical (modDie_canonical hs))

theorem execPassSeal_canonical {die pass : Nat} {s : State} (hs : Canonical s) : Leads (execPassSeal die pass s) := by
  unfold execPassSeal
  dsimp only
  split
  · exact leads_next hs
  · split
    · exact leads_next hs
    · exact leads_ite (leads_next hs) (leads_ite (leads_next hs) (leads_next (finishReply_canonical (modDie_canonical hs))))

theorem dropPixel_canonical {s : State} {d slot : Nat} {cause : Option Cause} (hs : Canonical s) : Canonical (s.dropPixel d slot cause) :=
  count_canonical (modDie_canonical hs)

theorem scanPixel_canonical {s : State} {d slot entry : Nat} {p : Pass} {spoiled : Bool} {k : Nat} (hs : Canonical s) : Canonical
    (s.scanPixel d slot entry p spoiled k).2 := by
  unfold State.scanPixel
  dsimp only
  refine canonical_ite_snd (dropPixel_canonical (canonical_ite (draw_canonical hs) hs))
      (canonical_ite_snd (canonical_ite (draw_canonical hs) hs) ?_)
  split
  · exact dropPixel_canonical (canonical_snd (unitFetch_canonical (canonical_ite (draw_canonical hs) hs)) ‹_›)
  · exact canonical_ite_snd (dropPixel_canonical (canonical_snd (unitFetch_canonical (canonical_ite (draw_canonical hs) hs)) ‹_›))
        (canonical_snd (unitFetch_canonical (canonical_ite (draw_canonical hs) hs)) ‹_›)

theorem scanPixels_canonical {s : State} {d slot entry : Nat} {p : Pass} {spoiled : Bool} {xs : List Nat} (hs : Canonical s) : Canonical
    (s.scanPixels d slot entry p spoiled xs).2 := by
  induction xs generalizing s with
  | nil => exact hs
  | cons x xs ih => exact ih (scanPixel_canonical hs)

theorem execTileScan_canonical {die : Nat} {s : State} (hs : Canonical s) : Leads (execTileScan die s) := by
  unfold execTileScan
  dsimp only
  split
  · split
    · exact leads_next hs
    · exact leads_ite (leads_next (passComplete_canonical (modDie_canonical (modDie_canonical (scanPixels_canonical hs)))))
          (leads_next (modDie_canonical (fresh_canonical (modDie_canonical (scanPixels_canonical hs)))))
  · exact leads_next hs

theorem pushAll_canonical {recs : List (Nat × BitVec 128)} {c : Ctx} {u : Uses} {s : State} (hs : Canonical s) : (pushAll recs c u s).Canonical :=
  did_ite (ctx_plain_canonical hs (fun _ h1 => h1)) (modDie_canonical (fresh_canonical hs))

theorem bpushGroup_canonical {kind k q a b : Nat} {c : Ctx} {u : Uses} {s : State} (hs : Canonical s) :
    (bpushGroup kind k q a b c u s).Canonical := by
  unfold bpushGroup
  dsimp only
  refine did_ite hs ?_
  split
  · exact hs
  · exact pushAll_canonical hs

theorem execBisect_canonical {c q a b e : Nat} {s : State} (hs : Canonical s) : Leads (execBisect c q a b e s) := by
  unfold execBisect
  dsimp only
  refine groupWord_canonical hs (fun _ _ _ h3 => did_ite h3 ?_)
  split
  · exact h3
  · exact did_ite (faultAt_canonical h3) (did_ite (faultAt_canonical h3) (pushAll_canonical h3))

theorem execBflush_canonical {c a : Nat} {s : State} (hs : Canonical s) : Leads (execBflush c a s) :=
  groupWord_canonical hs (fun _ _ _ h3 => gfxOnce_canonical (fun _ _ _ _ h4 => did_ite h4
      (did_ite h4 (ctx_plain_canonical h4 (fun _ h1 => flushBin_canonical h1)))) h3)

theorem execBflushAll_canonical {c : Nat} {s : State} (hs : Canonical s) : Leads (execBflushAll c s) :=
  groupWord_canonical hs (fun _ _ _ h3 => gfxOnce_canonical (fun _ _ _ _ h4 => ctx_plain_canonical h4
      (fun _ h1 => canonical_foldl (fun _ h1 _ => canonical_ite (flushBin_canonical h1) h1) h1)) h3)

/-! ## The operations of Machine/Sampling -/

theorem laneReads_canonical {s : State} {c : Ctx} {l al : Nat} {xs : List (Nat × Nat)} (hs : Canonical s) : Canonical (s.laneReads c l al xs).2 :=
    by
  induction xs generalizing s with
  | nil => exact hs
  | cons x xs ih =>
    unfold State.laneReads
    split
    · exact canonical_snd (place_canonical hs) ‹_›
    · refine canonical_ite_snd (canonical_snd (place_canonical hs) ‹_›) (canonical_ite_snd (canonical_snd (place_canonical hs) ‹_›) ?_)
      split
      · exact canonical_snd (ih (laneRead_canonical (canonical_snd (place_canonical hs) ‹_›))) ‹_›
      · exact canonical_snd (ih (laneRead_canonical (canonical_snd (place_canonical hs) ‹_›))) ‹_›

theorem gfxCommit_canonical {d n : Nat} {gens : List (Nat × W64)} {lanes : List (Nat × GfxLane)} {c : Ctx} {u : Uses} {s0 s : State}
    (hs1 : Canonical s0) (hs2 : Canonical s) : (gfxCommit d n gens lanes c u s0 s).Canonical :=
  did_ite hs1 (ctx_commit_canonical hs2 (fun _ h1 => canonical_ite h1 (modCur_canonical (fresh_canonical h1))))

theorem eachLane_canonical {s : State} {f : State → Nat → GfxLane × State} {xs : List Nat} (hs : Canonical s)
    (hf : ∀ t1, Canonical t1 → ∀ x2, Canonical (f t1 x2).2) : Canonical (s.eachLane f xs).2 := by
  induction xs generalizing s with
  | nil => exact hs
  | cons x xs ih => exact ih (hf _ hs _)

theorem attrLane_canonical {c : Ctx} {a b j : Nat} {s : State} {l : Nat} (hs : Canonical s) : Canonical (attrLane c a b j s l).2 := by
  unfold attrLane
  dsimp only
  refine canonical_ite_snd hs ?_
  split
  · exact canonical_snd (laneReads_canonical hs) ‹_›
  · refine canonical_ite_snd (canonical_snd (laneReads_canonical hs) ‹_›) ?_
    split
    · exact canonical_snd (laneReads_canonical (canonical_snd (laneReads_canonical hs) ‹_›)) ‹_›
    · refine canonical_ite_snd (canonical_snd (laneReads_canonical (canonical_snd (laneReads_canonical hs) ‹_›)) ‹_›) ?_
      split
      · exact canonical_snd (laneReads_canonical (canonical_snd (laneReads_canonical (canonical_snd (laneReads_canonical hs) ‹_›)) ‹_›)) ‹_›
      · exact canonical_snd (laneReads_canonical (canonical_snd (laneReads_canonical (canonical_snd (laneReads_canonical hs) ‹_›)) ‹_›)) ‹_›

theorem execAttr_canonical {c d a b j : Nat} {s : State} (hs : Canonical s) : Leads (execAttr c d a b j s) :=
  groupWord_canonical hs (fun _ _ _ h3 => did_ite h3 (gfxCommit_canonical h3 (eachLane_canonical h3 (fun _ h1 _ => attrLane_canonical h1))))

theorem texLane_canonical {kind : LodKind} {e : BitVec 512} {a : Nat} {c : Ctx} {s : State} {l : Nat} (hs : Canonical s) : Canonical
    (texLane kind e a c s l).2 := by
  unfold texLane
  dsimp only
  refine canonical_ite_snd hs (canonical_ite_snd (drawList_canonical hs) ?_)
  split
  · exact canonical_snd (laneReads_canonical hs) ‹_›
  · exact canonical_snd (laneReads_canonical hs) ‹_›

theorem texGroup_canonical {kind : LodKind} {na d a t : Nat} {c : Ctx} {u : Uses} {s : State} (hs : Canonical s) :
    (texGroup kind na d a t c u s).Canonical := by
  unfold texGroup
  dsimp only
  refine did_ite hs ?_
  split
  · exact hs
  · exact did_ite (ctx_commit_canonical (modCurWg_canonical hs) (fun _ h1 => h1))
        (gfxCommit_canonical hs (eachLane_canonical (modCurWg_canonical hs) (fun _ h1 _ => texLane_canonical h1)))

/-! ## The operations of Machine/Chain -/

theorem badWord_canonical {s : State} {w : Nat} (hs : Canonical s) : Canonical (s.badWord w) :=
  canonical_ite (stepFault_canonical hs) (stepFault_canonical hs)

/-- So does every instruction: a word by the group or slice that issues it, an event by itself. -/
theorem exec_canonical {i : Instr} {s : State} (hs : Canonical s) : Leads (exec i s) := by
  cases i with
  | issueOpportunity => exact leads_ite (leads_next hs) (leads_ite (leads_next (issueCycle_canonical hs)) (leads_next (modCore_canonical hs)))
  | dutyChange => exact leads_ite (leads_next hs) (leads_ite (leads_next (modCore_canonical hs)) (leads_next hs))
  | resultWriteback => exact execResultWriteback_canonical hs
  | sleepExpiry => exact execSleepExpiry_canonical hs
  | workgroupAdmission => exact execWorkgroupAdmission_canonical hs
  | slotReturn => exact execSlotReturn_canonical hs
  | preempt => exact execPreempt_canonical hs
  | contextRestore => exact execContextRestore_canonical hs
  | pushtRowPlaced => exact execPushtRowPlaced_canonical hs
  | mmaExecute => exact execMmaExecute_canonical hs
  | azeroExecute => exact execAzeroExecute_canonical hs
  | smxuExecute => exact execSmxuExecute_canonical hs
  | copyRow => exact execCopyRow_canonical hs
  | barwaitBoundExpiry => exact execBarwaitBoundExpiry_canonical hs
  | nbarwaitBoundExpiry => exact execNbarwaitBoundExpiry_canonical hs
  | gets => exact execGets_canonical hs
  | getm => exact execGetm_canonical hs
  | put => exact execPut_canonical hs
  | promotionDemand => exact execPromotionDemand_canonical hs
  | forward => exact execForward_canonical hs
  | l2Eviction => exact leads_ite (leads_next hs) (leads_ite (leads_next hs) (leads_next (evictLine_canonical hs)))
  | tlbWalkFill => exact execTlbWalkFill_canonical hs
  | tlbInvalidation => exact leads_ite (leads_next hs) (leads_ite (leads_next hs) (leads_next (invalidate_canonical hs)))
  | clusterAtomic => exact execClusterAtomic_canonical hs
  | donationRequest => exact execDonationRequest_canonical hs
  | splitRegisterWrite => exact leads_ite (leads_next hs) (leads_next (writeSplit_canonical hs))
  | resizeComplete => exact leads_ite (leads_next hs) (leads_ite (leads_next (finishResize_canonical hs)) (leads_next hs))
  | routerIdleGate | routerWakeComplete | routerGatingComplete => exact routerEvent_canonical hs
  | routerWake => exact execRouterWake_canonical hs
  | routerGatingWrite => exact leads_ite (leads_next hs) (leads_next (writeGating_canonical hs))
  | linkFlitRetry => exact leads_ite (leads_next hs) (leads_next (linkRetry_canonical hs))
  | uncorrectableError => exact execUncorrectableError_canonical hs
  | doorbell => exact leads_ite (leads_next hs) (leads_next (doorbell_canonical hs))
  | queueDestroy =>
    exact leads_ite (leads_next hs) (leads_ite (leads_next (modDie_canonical hs)) (leads_next (destroyQueue_canonical (modDie_canonical hs))))
  | queueDestroyComplete | limiterRestore => exact leads_ite (leads_next hs) (leads_ite (leads_next (modDie_canonical hs)) (leads_next hs))
  | dispatchStep => exact execDispatchStep_canonical hs
  | treeCounterUpdate => exact execTreeCounterUpdate_canonical hs
  | churnPassage => exact execChurnPassage_canonical hs
  | boardingReadReturn => exact execBoardingReadReturn_canonical hs
  | releasePacketEnqueue => exact leads_ite (leads_next hs) (leads_ite (leads_next hs) (leads_next (placeReleased_canonical hs)))
  | churnLimitWrite => exact leads_ite (leads_next hs) (leads_next (writeChurnLimit_canonical hs))
  | rasterTriangle => exact execRasterTriangle_canonical hs
  | passSeal => exact execPassSeal_canonical hs
  | tileScan => exact execTileScan_canonical hs
  | binTimeout => exact leads_ite (leads_next hs) (leads_ite (leads_next hs) (leads_next (flushBin_canonical hs)))
  | migrationGo => exact leads_next (migrationCommand_canonical hs)
  | migrationComplete => exact execMigrationComplete_canonical hs
  | biasFlip => exact leads_ite (leads_next hs) (leads_next (writeBias_canonical hs))
  | biasFlipComplete => exact leads_ite (leads_next hs) (leads_next (endFlip_canonical hs))
  | hostReadShared => exact execHostReadShared_canonical hs
  | hostReadOwned => exact execHostReadOwned_canonical hs
  | hostWriteback => exact execHostWriteback_canonical hs
  | hostSnoop => exact execHostSnoop_canonical hs
  | peerPostedWrite => exact execPeerPostedWrite_canonical hs
  | peerRead => exact execPeerRead_canonical hs
  | mmioReadCompletion => exact execMmioReadCompletion_canonical hs
  | mmioReadTimeout => exact execMmioReadTimeout_canonical hs
  | partitionPowerInterval => exact leads_ite (leads_next hs) (leads_ite (leads_next (modPart_canonical hs)) (leads_next hs))
  | powerCapWrite => exact leads_ite (leads_next hs) (leads_next (writeCap_canonical hs))
  | currentDroop => exact leads_ite (leads_next hs) (leads_next (tally_canonical (count_canonical (modDie_canonical hs))))
  | thermalForecast => exact execThermalForecast_canonical hs
  | thermalSensor => exact leads_ite (leads_next hs) (leads_next (sense_canonical hs))
  | thermalTrip => exact leads_ite (leads_next hs) (leads_next (trip_canonical hs))
  | boot =>
    exact leads_next (canonical_ite (bootReady_canonical (bootSteps_canonical (bootPhase_canonical (canonical_ite hs (powerOn_canonical hs)))))
        (bootSteps_canonical (bootPhase_canonical (canonical_ite hs (powerOn_canonical hs)))))
  | getVersion | getCapabilities | negotiateAlgorithms | getDigests | getCertificate | challenge | getMeasurements | spdmUnsupported =>
    exact leads_next (spdmAnswer_canonical hs)
  | scrubRead =>
    exact leads_ite (leads_next hs) (leads_ite (leads_next hs) (leads_ite (leads_next (corrected_canonical hs))
        (leads_ite (leads_next (loseLine_canonical hs)) (leads_next hs))))
  | lifetimeCounterUpdate => exact leads_ite (leads_next hs) (leads_next (modPkg_canonical hs))
  | flitReceive => exact execFlitReceive_canonical hs
  | flitRefusal => exact execFlitRefusal_canonical hs
  | portRetrain => exact execPortRetrain_canonical hs
  | inboundAccess => exact execInboundAccess_canonical hs
  | remoteAtomic => exact execRemoteAtomic_canonical hs
  | remoteWriteAck => exact execRemoteWriteAck_canonical hs
  | peerReset => exact leads_ite (leads_next hs) (leads_next (failAccesses_canonical hs))
  | registerWrite => exact execRegisterWrite_canonical hs
  | partitionCreation => exact leads_ite (leads_next hs) (leads_next (createPartition_canonical hs))
  | partitionDestruction => exact execPartitionDestruction_canonical hs
  | queueEnable => exact leads_ite (leads_next hs) (leads_next (enableQueue_canonical hs))
  | memoryFillReturn => exact leads_ite (leads_next hs) (leads_next (advanceTrans_canonical (l2Fill_canonical hs)))
  | invalidationAcknowledgement => exact execInvalidationAcknowledgement_canonical hs
  | hostMemoryWrite => exact execHostMemoryWrite_canonical hs
  | correctedSoftError => exact execCorrectedSoftError_canonical hs
  | iadd | isub | imul | imulh | imulhn | imad | idiv | idivn | and | or | xor | andn | shl | shr | sar | rotr | imin | imax | nmin | nmax | bfx =>
    exact intWord_canonical hs
  | popc | clz | brev => exact intWord1_canonical hs
  | icmpEq | icmpNe | icmpLt | icmpLe | icmpLtn | icmpLen | icmpTst => exact cmpWord_canonical hs
  | sel => exact execSel_canonical hs
  | iaddi | andi | ori | xori | imuli => exact immWord_canonical hs
  | shli => exact execShli_canonical hs
  | shri => exact execShri_canonical hs
  | sari => exact execSari_canonical hs
  | movi => exact execMovi_canonical hs
  | movhi => exact execMovhi_canonical hs
  | fadd | fsub | fmul | fma | fms | fnma | fmin | fmax => exact groupWord_canonical hs (fun _ _ _ h3 => farith_canonical h3)
  | fcmpLt | fcmpLe | fcmpEq | fcmpNe | fcmpGt | fcmpGe | fcmpUno => exact groupWord_canonical hs (fun _ _ _ h3 => fcmp_canonical h3)
  | fabs | fneg | fsqrt | frcp | frsq | fexp2 | flog2 | fsin | fcos | ffloor | fceil | frint =>
    exact groupWord_canonical hs (fun _ _ _ h3 => funary_canonical h3)
  | fclass => exact execFclass_canonical hs
  | ivlo | ivhi => exact groupWord_canonical hs (fun _ _ _ h3 => ivBound_canonical h3)
  | mov => exact execMov_canonical hs
  | cvtF64F32 | cvtF32F64 | cvtF32I32 | cvtF32N32 | cvtI32F32 | cvtN32F32 | cvtF64I64 | cvtI64F64 | cvtF32F16l | cvtF32F16h | cvtF32Bf16l
  | cvtF32Bf16h | cvtI64I32 | cvtN64N32 | cvtI32I64 => exact groupWord_canonical hs (fun _ _ _ h3 => cvt1_canonical h3)
  | cvtPkF16 | cvtPkBf16 | cvtPkE4m3 | cvtPkE5m2 | cvtPkQ4n | cvtPkI8 => exact groupWord_canonical hs (fun _ _ _ h3 => cvtPack_canonical h3)
  | cvtUpE4m3 | cvtUpE5m2 | cvtUpQ4n | cvtUpI8 => exact groupWord_canonical hs (fun _ _ _ h3 => cvtUnpack_canonical h3)
  | sideGet => exact execSideGet_canonical hs
  | sideSet => exact execSideSet_canonical hs
  | ivmk => exact execIvmk_canonical hs
  | ivhull | ivmeet | ivsqr | ivmid | ivrad => exact groupWord_canonical hs (fun _ _ _ h3 => ivWord_canonical h3)
  | ivsplit => exact execIvsplit_canonical hs
  | ivpown => exact execIvpown_canonical hs
  | clt | cle | ceq | subset | contains | disjoint => exact groupWord_canonical hs (fun _ _ _ h3 => ivcmp_canonical h3)
  | zin => exact execZin_canonical hs
  | qand => exact execQand_canonical hs
  | qor => exact execQor_canonical hs
  | qnot => exact execQnot_canonical hs
  | qxor => exact execQxor_canonical hs
  | qmov => exact execQmov_canonical hs
  | qdef => exact execQdef_canonical hs
  | qcons => exact execQcons_canonical hs
  | qset => exact execQset_canonical hs
  | br => exact execBr_canonical hs
  | call => exact execCall_canonical hs
  | ret => exact execRet_canonical hs
  | jmpr => exact execJmpr_canonical hs
  | splitj => exact execSplitj_canonical hs
  | join => exact execJoin_canonical hs
  | exit => exact execExit_canonical hs
  | yield => exact execYield_canonical hs
  | jmaskGet => exact execJmaskGet_canonical hs
  | jmaskSet => exact execJmaskSet_canonical hs
  | jmaskAdd => exact execJmaskAdd_canonical hs
  | jmaskDel => exact execJmaskDel_canonical hs
  | jmaskClr => exact execJmaskClr_canonical hs
  | shfl | shflu | shfld | shflx => exact groupWord_canonical hs (fun _ _ _ h3 => shuffle_canonical h3)
  | vote => exact execVote_canonical hs
  | gredIadd | gredImin | gredImax | gredNmin | gredNmax | gredAnd | gredOr | gredXor =>
    exact groupWord_canonical hs (fun _ _ _ h3 => gredInt_canonical h3)
  | gredFadd | gredFmin | gredFmax => exact groupWord_canonical hs (fun _ _ _ h3 => gredFlt_canonical h3)
  | matchLanes => exact execMatchLanes_canonical hs
  | gfence => exact execGfence_canonical (l := 0) hs
  | qxh | qxv | qxd => exact groupWord_canonical hs (fun _ _ _ h3 => quadSwap_canonical h3)
  | ddxc | ddyc | ddxf | ddyf => exact groupWord_canonical hs (fun _ _ _ h3 => derivWord_canonical h3)
  | helpq => exact execHelpq_canonical hs
  | ld => exact execLd_canonical hs
  | st | stl => exact groupWord_canonical hs (fun _ _ _ h3 => storeGroup_canonical h3)
  | lda | acqp => exact groupWord_canonical hs (fun _ _ _ h3 => loadGroup_canonical h3)
  | ldg => exact execLdg_canonical hs
  | stg => exact execStg_canonical hs
  | pref => exact execPref_canonical hs
  | lineWb => exact execLineWb_canonical hs
  | lineInv => exact execLineInv_canonical hs
  | lineWbinv => exact execLineWbinv_canonical hs
  | lineZero => exact execLineZero_canonical (_sc := 0) hs
  | atomAdd => exact execAtomAdd_canonical hs
  | atomMin => exact execAtomMin_canonical hs
  | atomMax => exact execAtomMax_canonical hs
  | atomNmin => exact execAtomNmin_canonical hs
  | atomNmax => exact execAtomNmax_canonical hs
  | atomAnd => exact execAtomAnd_canonical hs
  | atomOr => exact execAtomOr_canonical hs
  | atomXor => exact execAtomXor_canonical hs
  | atomXchg => exact execAtomXchg_canonical hs
  | atomCas => exact execAtomCas_canonical hs
  | atomFadd => exact execAtomFadd_canonical hs
  | atomFmin => exact execAtomFmin_canonical hs
  | atomFmax => exact execAtomFmax_canonical hs
  | atomIncw => exact execAtomIncw_canonical hs
  | atomDecw => exact execAtomDecw_canonical hs
  | nop => exact execNop_canonical hs
  | trap => exact groupWord_canonical hs (fun _ _ _ h3 => faultAt_canonical h3)
  | eret => exact execEret_canonical hs
  | crr => exact execCrr_canonical hs
  | crw | crset | crclr => exact groupWord_canonical hs (fun _ _ _ h3 => writeControl_canonical h3)
  | fence | fenceAcq | fenceRel | fenceLayer => exact groupWord_canonical hs (fun _ _ _ h3 => fenceGroup_canonical h3)
  | quota => exact execQuota_canonical hs
  | sleep => exact execSleep_canonical hs
  | tlbinvPage => exact execTlbinvPage_canonical hs
  | tlbinvAsid | tlbinvAll => exact groupWord_canonical hs (fun _ _ _ h3 => invalidateGroup_canonical h3)
  | fwcallVersion | fwcallTemperature | fwcallForecast | fwcallCap | fwcallCounter | fwcallHalfRow | fwcallUnlisted =>
    exact groupWord_canonical hs (fun _ _ _ h3 => firmwareGroup_canonical h3)
  | cacheIfetch => exact execCacheIfetch_canonical hs
  | cacheWb => exact execCacheWb_canonical hs
  | cacheWbinv => exact execCacheWbinv_canonical hs
  | rep => exact execRep_canonical hs
  | aslice => exact execAslice_canonical hs
  | pusht => exact execPusht_canonical hs
  | copy => exact execCopy_canonical hs
  | tidset => exact execTidset_canonical hs
  | tidget => exact execTidget_canonical hs
  | await => exact execAwait_canonical hs
  | qpush => exact execQpush_canonical hs
  | qpop => exact execQpop_canonical hs
  | qtry => exact execQtry_canonical hs
  | swinit => exact execSwinit_canonical hs
  | swadd => exact execSwadd_canonical hs
  | swwait => exact execSwwait_canonical hs
  | barinit => exact execBarinit_canonical hs
  | barrive => exact execBarrive_canonical hs
  | bardrop => exact execBardrop_canonical hs
  | barwait => exact execBarwait_canonical hs
  | nbarrive | nbarriveDrop => exact groupWord_canonical hs (fun _ _ _ h3 => nbarriveGroup_canonical h3)
  | nbarwait => exact execNbarwait_canonical hs
  | nbarset => exact execNbarset_canonical hs
  | mma => exact execMma_canonical hs
  | azero => exact execAzero_canonical hs
  | areadF32 | areadF64 | areadI32 | areadRaw => exact groupWord_canonical hs (fun _ _ _ h3 => areadGroup_canonical h3)
  | awriteF32 | awriteF64 | awriteI32 | awriteRaw => exact groupWord_canonical hs (fun _ _ _ h3 => awriteGroup_canonical h3)
  | smxu => exact execSmxu_canonical hs
  | smxrM | smxrL | smxrSt => exact groupWord_canonical hs (fun _ _ _ h3 => smxrGroup_canonical h3)
  | mfence => exact execMfence_canonical hs
  | mwait => exact execMwait_canonical hs
  | cboard => exact execCboard_canonical hs
  | cboardr => exact execCboardr_canonical hs
  | calight => exact execCalight_canonical hs
  | ccapAdd | ccapSub | ccapMin | ccapMax | ccapAnd | ccapOr | ccapXchg | ccapCas =>
    exact groupWord_canonical hs (fun _ _ _ h3 => capGroup_canonical h3)
  | ccapDec => exact execCcapDec_canonical hs
  | cpeek => exact execCpeek_canonical hs
  | cwait => exact execCwait_canonical hs
  | rast => exact execRast_canonical hs
  | rseal => exact execRseal_canonical hs
  | bpush | bpushHit => exact groupWord_canonical hs (fun _ _ _ h3 => bpushGroup_canonical h3)
  | bisect => exact execBisect_canonical hs
  | attr => exact execAttr_canonical hs
  | tex | texl | texg => exact groupWord_canonical hs (fun _ _ _ h3 => texGroup_canonical h3)
  | bflush => exact execBflush_canonical hs
  | bflushAll => exact execBflushAll_canonical hs
  | enq => exact execEnq_canonical hs
  | rgrab => exact execRgrab_canonical hs
  | rgrabSet => exact execRgrabSet_canonical hs
  | sread => exact execSread_canonical hs
  | time => exact execTime_canonical hs
  | energy => exact execEnergy_canonical hs
  | energyQ => exact execEnergyQ_canonical hs

theorem runWord_canonical {s : State} (hs : Canonical s) : Leads (runWord s) := by
  unfold runWord
  dsimp only
  refine leads_ite (leads_next hs) (leads_ite ?_ (leads_next hs))
  split
  · exact leads_next (stepFault_canonical (canonical_snd (fetchCur_canonical hs) ‹_›))
  · split
    · exact leads_next (badWord_canonical (canonical_snd (fetchCur_canonical hs) ‹_›))
    · exact exec_canonical (canonical_snd (fetchCur_canonical hs) ‹_›)

theorem issuing_canonical {s : State} {iss : Issue} (hs : Canonical s) : Canonical (s.issuing iss) :=
  hs

theorem probe_canonical {s : State} {core : Nat} (hs : Canonical s) : Canonical (s.probe core) :=
  modCore_canonical hs

theorem beginChain_canonical {iss : Issue} {s0 : State} (hs : Canonical s0) : Canonical (beginChain iss s0) :=
  canonical_ite hs (canonical_ite (canonical_ite (parkRest_canonical hs) hs)
      (canonical_ite (next_canonical (issuing_canonical hs)) (canonical_ite (next_canonical (stepFault_canonical (issuing_canonical hs)))
      (canonical_ite (canonical_ite (parkRest_canonical hs) hs) (next_canonical (issuing_canonical hs))))))

theorem endChain_canonical {s : State} (hs : Canonical s) : Canonical (endChain s) := by
  unfold endChain
  dsimp only
  split
  · exact hs
  · split
    · exact hs
    · exact retireFinished_canonical (canonical_ite (next_canonical (modCur_canonical hs)) (modCur_canonical hs))

/-! ## The operations of Machine/Tick -/

theorem tick_canonical {s : State} (hs : Canonical s) : Canonical s.tick := by
  have hl : Canonical (State.latchDuties { s with cycle := s.cycle + 1 }) := latchDuties_canonical hs
  unfold State.tick
  exact canonical_of_mem hl rfl

/-! ## The operations of Machine/Step -/

theorem stepItem_canonical {it : Item} {s : State} (hs : Canonical s) : Leads (stepItem it s) := by
  unfold stepItem
  split
  · exact runWord_canonical hs
  · exact leads_next (beginChain_canonical hs)
  · exact leads_next (endChain_canonical hs)
  · exact leads_next (wake_canonical hs)
  · exact leads_next (probe_canonical hs)
  · exact exec_canonical hs

theorem step_canonical {s : State} (hs : Canonical s) : Leads (step s) := by
  unfold step
  split
  · exact stepItem_canonical hs
  · exact leads_next (tick_canonical hs)

end Sys2Proof.Machine

namespace Sys2Proof.Laws

/-- Settles O60: what a step runs is an instruction or an item of the agenda, and each of them keeps memory canonical. -/
theorem everyStepKeepsMemoryCanonical : Obligations.EveryStepKeepsMemoryCanonical := fun _ t hs h => Machine.step_canonical hs t h

end Sys2Proof.Laws
end

section
/-!
SUPPORT. What a reader finds at an address while lines move between the caches, the host and memory (R268, R282, R350, R496), and the frame of
ST and LD.
-/
namespace Sys2Proof.Laws
open Sys2Proof.Machine Sys2Proof.Safety

/-! ## What a read of a byte depends on, beside memory -/

/-- The package's part: boarded words, the peers that are routed, the place of the report ring, and no word that is poisoned anew (R354, R368,
R490, R523); and no answer to a peer's read is added, and the
partitions stay (R503, R508). -/
def Package.Serves (p q : Package) : Prop :=
  q.boarded = p.boarded ∧ q.routes = p.routes ∧ q.self = p.self ∧ q.regs.ringbase = p.regs.ringbase ∧ q.regs.lgrec = p.regs.lgrec ∧
  q.peerReads = p.peerReads ∧ q.parts = p.parts ∧ ∀ w ∈ q.poisoned, w ∈ p.poisoned

/-- A die's part, beside what the host holds: its Churn slots and its slice scratch (R288, R357). -/
def Die.Serves (d e : Die) : Prop := e.slots = d.slots ∧ e.split = d.split ∧ e.resizes = d.resizes

/-- Two states serve alike, whatever their memories hold: the same boarded words, slots, regions and halves of the host. -/
structure Alike (s t : State) : Prop where
  cycle : t.cycle = s.cycle
  cur : t.cur = s.cur
  pkg : Package.Serves s.pkg t.pkg
  dies : ∀ d, Die.Serves (s.die d) (t.die d)
  halves : ∀ d, (t.die d).devDir = (s.die d).devDir

/-- The report ring of R490. -/
def Ring (s : State) (a : Nat) : Prop := s.pkg.regs.ringbase ≤ a ∧ a < s.pkg.regs.ringbase + 32 * 2 ^ s.pkg.regs.lgrec

/-- A byte that does not stand in a half of the host's while its word boards (log entry 47). -/
def Settled (s : State) (a : Nat) : Prop := s.hostHeld (a / 64) ≠ none → s.isBoarded a = false

/-- t reads as s at the bytes of P outside the report ring that are settled, and the host holds no half anew. -/
structure Quiet (P : Nat → Prop) (s t : State) : Prop where
  cycle : t.cycle = s.cycle
  cur : t.cur = s.cur
  pkg : Package.Serves s.pkg t.pkg
  dies : ∀ d, Die.Serves (s.die d) (t.die d)
  held : ∀ h, t.hostHeld h = s.hostHeld h ∨ t.hostHeld h = none
  reads : ∀ a, P a → ¬ Ring s a → Settled s a → t.readByte a = s.readByte a

section
variable {s t u : State} {P : Nat → Prop}

theorem Package.Serves.refl (p : Package) : Package.Serves p p := ⟨rfl, rfl, rfl, rfl, rfl, rfl, rfl, fun _ h => h⟩

theorem Package.Serves.trans {p q r : Package} (h : Package.Serves p q) (k : Package.Serves q r) : Package.Serves p r := by
  obtain ⟨h1, h2, h3, h4, h5, h6, h7, h8⟩ := h
  obtain ⟨k1, k2, k3, k4, k5, k6, k7, k8⟩ := k
  exact ⟨k1.trans h1, k2.trans h2, k3.trans h3, k4.trans h4, k5.trans h5, k6.trans h6, k7.trans h7, fun w hw => h8 w (k8 w hw)⟩

theorem Die.Serves.refl (d : Die) : Die.Serves d d := ⟨rfl, rfl, rfl⟩

theorem Die.Serves.trans {d e f : Die} (h : Die.Serves d e) (k : Die.Serves e f) : Die.Serves d f := by
  obtain ⟨h1, h2, h3⟩ := h
  obtain ⟨k1, k2, k3⟩ := k
  exact ⟨k1.trans h1, k2.trans h2, k3.trans h3⟩

/-- The regions are those of the splits and the routes (R474, R357, R523). -/
theorem region_of_serves (hp : Package.Serves s.pkg t.pkg) (hd : ∀ d, Die.Serves (s.die d) (t.die d)) (pa : Nat) : t.region pa = s.region pa := by
  obtain ⟨-, hr, hself, -⟩ := hp
  have hw : t.ways = s.ways := funext fun d => funext fun c => by
    obtain ⟨-, hs, hz⟩ := hd d
    unfold State.ways State.splitOf
    rw [hs, hz]
  have hpeer : t.peerRouted = s.peerRouted := funext fun n => by
    unfold State.peerRouted
    rw [hr, hself]
  unfold State.region
  rw [hw, hpeer]

theorem homeDie_of_serves (hp : Package.Serves s.pkg t.pkg) (hd : ∀ d, Die.Serves (s.die d) (t.die d)) (pa : Nat) : t.homeDie pa = s.homeDie pa := by
  unfold State.homeDie
  rw [region_of_serves hp hd]

theorem boardedAt_of_serves (hp : Package.Serves s.pkg t.pkg) (pa : Nat) : t.boardedAt pa = s.boardedAt pa := by
  unfold State.boardedAt
  rw [hp.1]

theorem isBoarded_of_serves (hp : Package.Serves s.pkg t.pkg) (hd : ∀ d, Die.Serves (s.die d) (t.die d)) (pa : Nat) :
    t.isBoarded pa = s.isBoarded pa := by
  simp only [State.isBoarded, boardedAt_of_serves hp, (hd _).1]

theorem shadow_of_serves (hp : Package.Serves s.pkg t.pkg) (hd : ∀ d, Die.Serves (s.die d) (t.die d)) (pa : Nat) : t.shadow pa = s.shadow pa := by
  simp only [State.shadow, boardedAt_of_serves hp, (hd _).1]

theorem halves_of_dir (hp : Package.Serves s.pkg t.pkg) (hd : ∀ d, Die.Serves (s.die d) (t.die d)) {line : Nat}
    (hl : (t.die (s.homeDie (128 * line))).devDir = (s.die (s.homeDie (128 * line))).devDir) : t.halves line = s.halves line := by
  unfold State.halves
  rw [homeDie_of_serves hp hd, hl]

theorem hostHeld_of_halves (hc : t.cycle = s.cycle) {half : Nat} (hh : t.halves (half / 2) = s.halves (half / 2)) :
    t.hostHeld half = s.hostHeld half := by
  unfold State.hostHeld
  rw [hh, hc]

/-- A read finds the same where the parties that may serve it are the same and memory holds the same. -/
theorem readByte_of (hc : t.cycle = s.cycle) (hp : Package.Serves s.pkg t.pkg) (hd : ∀ d, Die.Serves (s.die d) (t.die d)) {a : Nat}
    (hh : t.hostHeld (a / 64) = s.hostHeld (a / 64)) (hm : s.hostHeld (a / 64) = none → memGet t.mem a = memGet s.mem a) :
    t.readByte a = s.readByte a := by
  unfold State.readByte
  rw [hc, shadow_of_serves hp hd, hh]
  cases hk : s.hostHeld (a / 64) with
  | some v => rfl
  | none => rw [hm hk]

theorem Alike.refl (s : State) : Alike s s := ⟨rfl, rfl, .refl _, fun _ => .refl _, fun _ => rfl⟩

theorem Alike.trans (h : Alike s t) (k : Alike t u) : Alike s u :=
  ⟨k.cycle.trans h.cycle, k.cur.trans h.cur, h.pkg.trans k.pkg, fun d => (h.dies d).trans (k.dies d), fun d => (k.halves d).trans (h.halves d)⟩

theorem Alike.held (h : Alike s t) (half : Nat) : t.hostHeld half = s.hostHeld half :=
  hostHeld_of_halves h.cycle (halves_of_dir h.pkg h.dies (h.halves _))

theorem Quiet.refl (s : State) : Quiet P s s := ⟨rfl, rfl, .refl _, fun _ => .refl _, fun _ => .inl rfl, fun _ _ _ _ => rfl⟩

theorem ring_of_serves (h : Package.Serves s.pkg t.pkg) {a : Nat} : Ring t a ↔ Ring s a := by
  unfold Ring
  rw [h.2.2.2.1, h.2.2.2.2.1]

theorem Quiet.settled (h : Quiet P s t) {a : Nat} (ha : Settled s a) : Settled t a := by
  intro hn
  rw [isBoarded_of_serves h.pkg h.dies]
  exact ha ((h.held _).resolve_right hn ▸ hn)

theorem Quiet.trans (h : Quiet P s t) (k : Quiet P t u) : Quiet P s u where
  cycle := k.cycle.trans h.cycle
  cur := k.cur.trans h.cur
  pkg := h.pkg.trans k.pkg
  dies d := (h.dies d).trans (k.dies d)
  held x := (k.held x).elim (fun e => (h.held x).imp e.trans e.trans) .inr
  reads a ha hr hs := (k.reads a ha (fun e => hr ((ring_of_serves h.pkg).1 e)) (h.settled hs)).trans (h.reads a ha hr hs)

/-- States that serve alike read alike where memory holds the same, or the host holds the byte. -/
theorem Alike.quiet (h : Alike s t) (hm : ∀ a, P a → ¬ Ring s a → s.hostHeld (a / 64) = none → memGet t.mem a = memGet s.mem a) : Quiet P s t where
  cycle := h.cycle
  cur := h.cur
  pkg := h.pkg
  dies := h.dies
  held x := .inl (h.held x)
  reads a ha hr _ := readByte_of h.cycle h.pkg h.dies (h.held _) (hm a ha hr)

end

/-! ## Operations that move no byte -/

/-- Nothing that a read depends on differs. -/
structure Calm (s t : State) : Prop extends Alike s t where
  mem : t.mem = s.mem

section
variable {s s0 t : State} {P : Nat → Prop}

theorem Calm.refl (s : State) : Calm s s := ⟨.refl s, rfl⟩

theorem Quiet.calm (h : Quiet P s0 s) (k : Calm s t) : Quiet P s0 t := h.trans (k.toAlike.quiet fun _ _ _ _ => by rw [k.mem])

theorem Alike.calm (h : Alike s0 s) (k : Calm s t) : Alike s0 t := h.trans k.toAlike

theorem calm_ite {p : Prop} [Decidable p] (hs : Calm s0 s) (ht : Calm s0 t) : Calm s0 (if p then s else t) := by
  split
  · exact hs
  · exact ht

theorem calm_foldl {α : Type} {f : State → α → State} {xs : List α} (hf : ∀ t, Calm s0 t → ∀ x, Calm s0 (f t x)) (h : Calm s0 s) :
    Calm s0 (xs.foldl f s) := by
  induction xs generalizing s with
  | nil => exact h
  | cons x xs ih => exact ih (hf s h x)

theorem modCore_calm {c : Nat} {f : Core → Core} (hs : Calm s0 s) : Calm s0 (s.modCore c f) :=
  ⟨⟨hs.cycle, hs.cur, hs.pkg, hs.dies, hs.halves⟩, hs.mem⟩

theorem modCluster_calm {k : Nat} {f : Cluster → Cluster} (hs : Calm s0 s) : Calm s0 (s.modCluster k f) :=
  ⟨⟨hs.cycle, hs.cur, hs.pkg, hs.dies, hs.halves⟩, hs.mem⟩

theorem modPkg_calm {f : Package → Package} (hf : Package.Serves s.pkg (f s.pkg)) (hs : Calm s0 s) : Calm s0 (s.modPkg f) :=
  ⟨⟨hs.cycle, hs.cur, hs.pkg.trans hf, hs.dies, hs.halves⟩, hs.mem⟩

theorem die_of_modDie {α : Type} (g : Die → α) {d : Nat} {f : Die → Die} (h : g (f (s.die d)) = g (s.die d)) (e : Nat) :
    g ((s.modDie d f).die e) = g (s.die e) := by
  by_cases he : e = d
  · rw [he, State.die_modDie]
    exact h
  · rw [State.die_modDie_ne _ _ he]

theorem serves_of_modDie {d : Nat} {f : Die → Die} (h : Die.Serves (s.die d) (f (s.die d))) (e : Nat) :
    Die.Serves (s.die e) ((s.modDie d f).die e) :=
  ⟨die_of_modDie (·.slots) h.1 e, die_of_modDie (·.split) h.2.1 e, die_of_modDie (·.resizes) h.2.2 e⟩

theorem modDie_calm {d : Nat} {f : Die → Die} (hf : Die.Serves (s.die d) (f (s.die d))) (hd : (f (s.die d)).devDir = (s.die d).devDir)
    (hs : Calm s0 s) : Calm s0 (s.modDie d f) :=
  ⟨⟨hs.cycle, hs.cur, hs.pkg, fun e => (hs.dies e).trans (serves_of_modDie hf e), fun e => (die_of_modDie (·.devDir) hd e).trans (hs.halves e)⟩,
      hs.mem⟩

theorem count_calm {kind source : Nat} (hs : Calm s0 s) : Calm s0 (s.count kind source) := modPkg_calm
    ⟨rfl, rfl, rfl, rfl, rfl, rfl, rfl, fun _ h => h⟩ hs

theorem modDir_calm {line : Nat} {f : DirEntry → DirEntry} (hs : Calm s0 s) : Calm s0 (s.modDir line f) := by
  unfold State.modDir
  split
  · exact hs
  · exact modPkg_calm ⟨rfl, rfl, rfl, rfl, rfl, rfl, rfl, fun _ h => h⟩ hs

theorem markDirty_calm {line : Nat} {m : BitVec 128} (hs : Calm s0 s) : Calm s0 (s.markDirty line m) := calm_ite hs (modDir_calm hs)

theorem dropBuf_calm {k line : Nat} (hs : Calm s0 s) : Calm s0 (s.dropBuf k line) := calm_ite (modCluster_calm hs) hs

theorem dropL1_calm {c line : Nat} (hs : Calm s0 s) : Calm s0 (s.dropL1 c line) := modCore_calm hs

theorem dropLine_calm {k line : Nat} (hs : Calm s0 s) : Calm s0 (s.dropLine k line) :=
  dropBuf_calm (calm_foldl (fun _ h _ => dropL1_calm h) hs)

theorem backInvalidate_calm {line : Nat} (hs : Calm s0 s) : Calm s0 (s.backInvalidate line) :=
  modDir_calm (calm_foldl (fun _ h _ => dropLine_calm h) hs)

theorem evictLine_calm {line : Nat} (hs : Calm s0 s) : Calm s0 (s.evictLine line) :=
  modPkg_calm ⟨rfl, rfl, rfl, rfl, rfl, rfl, rfl, fun _ h => h⟩ (backInvalidate_calm hs)

theorem l2Fill_calm {line : Nat} (hs : Calm s0 s) : Calm s0 (s.l2Fill line) := by
  unfold State.l2Fill
  dsimp only
  refine calm_ite hs ?_
  split
  · exact modPkg_calm ⟨rfl, rfl, rfl, rfl, rfl, rfl, rfl, fun _ h => h⟩ hs
  · split
    · exact modPkg_calm ⟨rfl, rfl, rfl, rfl, rfl, rfl, rfl, fun _ h => h⟩ hs
    · exact modPkg_calm ⟨rfl, rfl, rfl, rfl, rfl, rfl, rfl, fun _ h => h⟩ (evictLine_calm hs)

theorem dirPut_calm {k line : Nat} {m : BitVec 128} (hs : Calm s0 s) : Calm s0 (s.dirPut k line m) :=
  calm_ite (modDir_calm hs) (markDirty_calm hs)

theorem gaveUp_calm {k line : Nat} {m : BitVec 128} (hs : Calm s0 s) : Calm s0 (s.gaveUp k line m) :=
  calm_ite (dirPut_calm hs) (markDirty_calm hs)

theorem dropOwn_calm {core line : Nat} (hs : Calm s0 s) : Calm s0 (s.dropOwn core line) := gaveUp_calm (dropL1_calm hs)

theorem setRouter_calm {d r : Nat} {x : Router} (hs : Calm s0 s) : Calm s0 (s.setRouter d r x) := modDie_calm ⟨rfl, rfl, rfl⟩ rfl hs

theorem crossRouters_calm {d late : Nat} {rs : List Nat} (hs : Calm s0 s) : Calm s0 (s.crossRouters d late rs) := by
  induction rs generalizing s late with
  | nil => exact hs
  | cons r rs ih => exact ih (setRouter_calm hs)

theorem travel_calm {k pa : Nat} (hs : Calm s0 s) : Calm s0 (s.travel k pa) := by
  unfold State.travel
  split
  · exact hs
  · exact calm_ite (crossRouters_calm hs) hs

theorem l1Insert_calm {c : Nat} {x : L1Line} {strm : Bool} (hs : Calm s0 s) : Calm s0 (s.l1Insert c x strm) := by
  have hd : Calm s0 (((s.core c).l1.filter (fun y => decide (y.asid = x.asid ∧ y.vline = x.vline))).foldl (fun s y => s.dropOwn c y.pline) s) :=
    calm_foldl (fun _ h _ => dropOwn_calm h) hs
  unfold State.l1Insert
  dsimp only
  split
  · exact modCore_calm hd
  · split
    · exact modCore_calm hd
    · exact modCore_calm (dropOwn_calm hd)

theorem consumeCount_calm {c : Nat} {x : L1Line} {n : Nat} (hs : Calm s0 s) : Calm s0 (s.consumeCount c x n) :=
  calm_ite (dropOwn_calm hs) (modCore_calm hs)

end

/-! ## Stores to memory -/

section
variable {s t s0 : State} {P : Nat → Prop}

theorem storeLost_calm (pa n : Nat) : Calm s (s.storeLost pa n) := by
  unfold State.storeLost
  exact calm_ite (modDie_calm ⟨rfl, rfl, rfl⟩ rfl (.refl s)) (.refl s)

theorem spoil_calm (pa n : Nat) : Calm s (s.spoil pa n) := by
  unfold State.spoil
  split
  · exact calm_ite (.refl s) (modDie_calm ⟨rfl, rfl, rfl⟩ rfl (.refl s))
  · exact .refl s

/-- A store within one line leaves the parties that serve reads as they are. -/
theorem writePhys_alike (s : State) (pa : Nat) (bs : List Byte) : Alike s (s.writePhys pa bs) := by
  have hm : Alike s { s with mem := memPutList s.mem pa bs } := ⟨rfl, rfl, .refl _, fun _ => .refl _, fun _ => rfl⟩
  have hl := hm.calm (storeLost_calm pa bs.length)
  unfold State.writePhys
  refine Alike.calm ?_ (spoil_calm pa bs.length)
  unfold State.rawWrite
  dsimp only
  split
  · exact hl
  · exact hl.calm (modPkg_calm ⟨rfl, rfl, rfl, rfl, rfl, rfl, rfl, fun _ h => (List.mem_filter.1 h).1⟩ (.refl _))

theorem writePhys_out (s : State) {pa a : Nat} {bs : List Byte} (h : a < pa ∨ pa + bs.length ≤ a) :
    memGet (s.writePhys pa bs).mem a = memGet s.mem a := by
  rw [State.writePhys_mem, memGet_memPutList_out _ _ h]

theorem writePhys_in (s : State) {pa j : Nat} {bs : List Byte} (h : j < bs.length) :
    memGet (s.writePhys pa bs).mem (pa + j) = bs.getD j 0 := by
  rw [State.writePhys_mem, memGet_memPutList_in _ _ h]

/-- A store within one line changes no read of a byte that is none of those it stores to, or that the host holds. -/
theorem writePhys_quiet {pa : Nat} {bs : List Byte} (hw : ∀ a, P a → ¬ Ring s a → s.hostHeld (a / 64) = none → a < pa ∨ pa + bs.length ≤ a)
    (hs : Quiet P s0 s) : Quiet P s0 (s.writePhys pa bs) :=
  hs.trans ((writePhys_alike s pa bs).quiet fun a ha hr hn => writePhys_out s (hw a ha hr hn))

/-! ## What the host supplies -/

/-- Single bytes in a row, but for those of boarded words. -/
def putRow (s : State) (xs : List (Nat × Byte)) : State := xs.foldl (fun s c => if s.isBoarded c.1 then s else s.writePhys c.1 [c.2]) s

theorem putRow_cons (s : State) (x : Nat × Byte) (xs : List (Nat × Byte)) :
    putRow s (x :: xs) = putRow (if s.isBoarded x.1 then s else s.writePhys x.1 [x.2]) xs := rfl

theorem putRow_alike (s : State) (xs : List (Nat × Byte)) : Alike s (putRow s xs) := by
  induction xs generalizing s with
  | nil => exact .refl s
  | cons x xs ih =>
    rw [putRow_cons]
    refine Alike.trans ?_ (ih _)
    split
    · exact .refl s
    · exact writePhys_alike _ _ _

theorem putRow_out (s : State) {xs : List (Nat × Byte)} {a : Nat} (h : ∀ x ∈ xs, x.1 ≠ a) : memGet (putRow s xs).mem a = memGet s.mem a := by
  induction xs generalizing s with
  | nil => rfl
  | cons x xs ih =>
    have hx : x.1 ≠ a := h x (List.mem_cons_self ..)
    rw [putRow_cons]
    refine (ih _ fun y hy => h y (List.mem_cons_of_mem _ hy)).trans ?_
    split
    · rfl
    · exact writePhys_out _ (by simp only [List.length_singleton]; omega)

theorem rowOf_mem {pa n : Nat} {bs : List Byte} {x : Nat × Byte} (h : x ∈ lmapIdx (fun k b => (pa + k, b)) n bs) : pa + n ≤ x.1 ∧ x.1 < pa + n +
    bs.length := by
  induction bs generalizing n with
  | nil => cases h
  | cons b bs ih =>
    rcases List.mem_cons.1 h with rfl | h
    · simp only [List.length_cons]
      omega
    · have := ih h
      simp only [List.length_cons]
      omega

theorem putRow_in (s : State) {pa n j : Nat} {bs : List Byte} (hj : j < bs.length) (hb : s.isBoarded (pa + n + j) = false) :
    memGet (putRow s (lmapIdx (fun k b => (pa + k, b)) n bs)).mem (pa + n + j) = bs.getD j 0 := by
  induction bs generalizing s n j with
  | nil => cases hj
  | cons b bs ih =>
    rw [lmapIdx, putRow_cons]
    cases j with
    | zero =>
      refine (putRow_out _ fun x hx => ?_).trans ?_
      · have := rowOf_mem hx
        omega
      · rw [Nat.add_zero] at hb
        rw [if_neg (by rw [hb]; decide)]
        exact writePhys_in s (j := 0) (by simp)
    | succ j =>
      have he : pa + n + (j + 1) = pa + (n + 1) + j := by omega
      rw [he] at hb ⊢
      refine ih _ (by simpa using hj) ?_
      split
      · exact hb
      · rwa [isBoarded_of_serves (writePhys_alike _ _ _).pkg (writePhys_alike _ _ _).dies]

end

section
variable {s t u s0 : State} {P : Nat → Prop}

theorem leBytes_length (n v : Nat) : (leBytes n v).length = n := by
  induction n generalizing v with
  | zero => rfl
  | succ n ih => rw [leBytes, List.length_cons, ih]

theorem leBytes_getD {n j : Nat} (v : Nat) (h : j < n) : (leBytes n v).getD j 0 = BitVec.ofNat 8 (v / 256 ^ j) := by
  induction n generalizing v j with
  | zero => omega
  | succ n ih =>
    cases j with
    | zero => simp [leBytes]
    | succ j =>
      rw [leBytes, List.getD_cons_succ, ih _ (by omega), Nat.div_div_eq_div_mul, ← Nat.pow_succ']

/-- The state in which the L2 has taken a line of which bytes come from outside. -/
def filled (s : State) (pa n : Nat) : State := (s.l2Fill (pa / 128)).markDirty (pa / 128) (byteMask (pa % 128) n)

theorem filled_calm (s : State) (pa n : Nat) : Calm s (filled s pa n) := markDirty_calm (l2Fill_calm (.refl s))

theorem homeBytes_eq (s : State) (pa : Nat) (bs : List Byte) : s.homeBytes pa bs =
    (if (upto pa bs.length).any (filled s pa bs.length).isBoarded then
      putRow ((filled s pa bs.length).count 7 (sliceSource ((filled s pa bs.length).homeDie pa) (homeSlice pa)))
          (lmapIdx (fun k b => (pa + k, b)) 0 bs)
    else (filled s pa bs.length).writePhys pa bs) := rfl

theorem homeBytes_alike (s : State) (pa : Nat) (bs : List Byte) : Alike s (s.homeBytes pa bs) := by
  have hf := filled_calm s pa bs.length
  rw [homeBytes_eq]
  split
  · exact (count_calm hf).toAlike.trans (putRow_alike _ _)
  · exact hf.toAlike.trans (writePhys_alike _ _ _)

theorem homeBytes_out (s : State) {pa a : Nat} {bs : List Byte} (h : a < pa ∨ pa + bs.length ≤ a) :
    memGet (s.homeBytes pa bs).mem a = memGet s.mem a := by
  have hf := filled_calm s pa bs.length
  rw [homeBytes_eq]
  split
  · rw [putRow_out _ fun x hx => ?_, (count_calm hf).mem]
    have := rowOf_mem hx
    omega
  · rw [writePhys_out _ h, hf.mem]

theorem homeBytes_in (s : State) {pa j : Nat} {bs : List Byte} (hj : j < bs.length) (hb : s.isBoarded (pa + j) = false) :
    memGet (s.homeBytes pa bs).mem (pa + j) = bs.getD j 0 := by
  have hf := filled_calm s pa bs.length
  rw [homeBytes_eq]
  split
  · have hc := count_calm (kind := 7) (source := sliceSource ((filled s pa bs.length).homeDie pa) (homeSlice pa)) hf
    exact putRow_in (n := 0) _ hj ((isBoarded_of_serves hc.pkg hc.dies _).trans hb)
  · exact writePhys_in _ hj

theorem supplyHalf_alike (s : State) (half : Nat) : Alike s (s.supplyHalf half) := by
  unfold State.supplyHalf
  split
  · exact .refl s
  · exact homeBytes_alike _ _ _

theorem supplyHalf_out (s : State) {half a : Nat} (h : a / 64 ≠ half ∨ s.hostHeld half = none) :
    memGet (s.supplyHalf half).mem a = memGet s.mem a := by
  unfold State.supplyHalf
  split
  · rfl
  · next v hv =>
    refine homeBytes_out _ ?_
    have hne : a / 64 ≠ half := h.resolve_right (by rw [hv]; exact Option.some_ne_none v)
    rw [leBytes_length]
    omega

theorem supplyHalf_in {half a : Nat} {v : BitVec 512} (hv : s.hostHeld half = some v) (ha : a / 64 = half) (hb : s.isBoarded a = false) :
    memGet (s.supplyHalf half).mem a = BitVec.ofNat 8 (v.toNat / 256 ^ (a % 64)) := by
  have he : a = 64 * half + a % 64 := by omega
  have hj : a % 64 < 64 := Nat.mod_lt _ (by omega)
  have hin := homeBytes_in (bs := leBytes 64 v.toNat) s (by rw [leBytes_length]; exact hj) (he ▸ hb)
  rw [← he] at hin
  unfold State.supplyHalf
  rw [hv]
  exact hin.trans (leBytes_getD _ hj)

/-- Both halves of a line have supplied what the host held of them. -/
def supplied (s : State) (line : Nat) : State := (s.supplyHalf (2 * line)).supplyHalf (2 * line + 1)

theorem supplied_alike (s : State) (line : Nat) : Alike s (supplied s line) := (supplyHalf_alike _ _).trans (supplyHalf_alike _ _)

theorem supplied_out (s : State) {line a : Nat} (h : a / 128 ≠ line ∨ s.hostHeld (a / 64) = none) :
    memGet (supplied s line).mem a = memGet s.mem a := by
  have hh := (supplyHalf_alike s (2 * line)).held (2 * line + 1)
  refine (supplyHalf_out _ ?_).trans (supplyHalf_out _ ?_)
  · by_cases e : a / 64 = 2 * line + 1
    · exact .inr (hh.trans (e ▸ h.resolve_left (by omega)))
    · exact .inl e
  · by_cases e : a / 64 = 2 * line
    · exact .inr (e ▸ h.resolve_left (by omega))
    · exact .inl e

theorem supplied_in {line a : Nat} {v : BitVec 512} (hv : s.hostHeld (a / 64) = some v) (ha : a / 128 = line) (hb : s.isBoarded a = false) :
    memGet (supplied s line).mem a = BitVec.ofNat 8 (v.toNat / 256 ^ (a % 64)) := by
  have hf := supplyHalf_alike s (2 * line)
  rcases (by omega : a / 64 = 2 * line ∨ a / 64 = 2 * line + 1) with e | e
  · exact (supplyHalf_out _ (.inl (by omega))).trans (supplyHalf_in (e ▸ hv) e hb)
  · exact supplyHalf_in ((hf.held _).trans (e ▸ hv)) e ((isBoarded_of_serves hf.pkg hf.dies a).trans hb)

theorem shadow_of_unboarded {a : Nat} (h : s.isBoarded a = false) : s.shadow a = none := by
  unfold State.isBoarded at h
  unfold State.shadow
  cases hb : s.boardedAt a with
  | none => rfl
  | some b =>
    rw [hb] at h
    dsimp only at h ⊢
    cases hn : b.slot with
    | none => rfl
    | some n =>
      rw [hn] at h
      dsimp only at h ⊢
      cases hk : tget (s.die b.die).slots n with
      | none => rfl
      | some x =>
        rw [hk] at h
        cases h

/-- The host has handed over what it held of a line: a settled byte reads as before. -/
theorem handed_quiet {line : Nat} (hc : t.cycle = s.cycle) (hcur : t.cur = s.cur) (hp : Package.Serves s.pkg t.pkg)
    (hd : ∀ d, Die.Serves (s.die d) (t.die d))
    (hm : t.mem = (supplied s line).mem) (ho : ∀ l, l ≠ line → t.halves l = s.halves l) (hl : ∀ h, h / 2 = line → t.hostHeld h = none) :
    Quiet P s t where
  cycle := hc
  cur := hcur
  pkg := hp
  dies := hd
  held h := by
    by_cases e : h / 2 = line
    · exact .inr (hl h e)
    · exact .inl (hostHeld_of_halves hc (ho _ e))
  reads a _ _ hs := by
    by_cases e : a / 128 = line
    · have hn : t.hostHeld (a / 64) = none := hl _ (by omega)
      cases hv : s.hostHeld (a / 64) with
      | none => exact readByte_of hc hp hd (hn.trans hv.symm) fun h => by rw [hm, supplied_out s (.inr h)]
      | some v =>
        have hb := hs (by rw [hv]; exact Option.some_ne_none v)
        unfold State.readByte
        rw [hc, shadow_of_serves hp hd, shadow_of_unboarded hb, hn, hv, hm, supplied_in hv e hb]
    · refine readByte_of hc hp hd (hostHeld_of_halves hc (ho _ (by omega))) fun _ => ?_
      rw [hm, supplied_out s (.inl e)]

end

section
variable {s t s0 : State} {P : Nat → Prop}

/-- The device directory of R495: lines with the states of their halves. -/
abbrev DevDir := List (Nat × LineState × LineState)

/-- A die with its device directory changed. -/
def Die.redir (f : DevDir → DevDir) (d : Die) : Die := { d with devDir := f d.devDir }

/-- The states of a line's halves that a device directory records. -/
def halvesIn (l : DevDir) (line : Nat) : LineState × LineState :=
  match l.find? (fun x => decide (x.1 = line)) with
  | none => (.i, .i)
  | some x => x.2

theorem halves_eq (s : State) (line : Nat) : s.halves line = halvesIn (s.die (s.homeDie (128 * line))).devDir line := rfl

theorem redir_serves (f : DevDir → DevDir) (d : Die) : Die.Serves d (Die.redir f d) := ⟨rfl, rfl, rfl⟩

/-- The device directory of a die is changed: the halves of the lines at home there follow. -/
theorem halves_redir (s : State) (d : Nat) (f : DevDir → DevDir) (line : Nat) : (s.modDie d (Die.redir f)).halves line =
    if s.homeDie (128 * line) = d then halvesIn (f (s.die d).devDir) line else s.halves line := by
  have hh : (s.modDie d (Die.redir f)).homeDie (128 * line) = s.homeDie (128 * line) :=
    homeDie_of_serves (s := s) (t := s.modDie d (Die.redir f)) (.refl s.pkg) (serves_of_modDie (redir_serves f (s.die d))) (128 * line)
  rw [halves_eq, hh, halves_eq]
  by_cases h : s.homeDie (128 * line) = d
  · rw [if_pos h, h, State.die_modDie]
    rfl
  · rw [if_neg h, State.die_modDie_ne _ _ h]

theorem halvesIn_filter (l : DevDir) (line k : Nat) :
    halvesIn (l.filter (fun x => decide (x.1 ≠ line))) k = if k = line then (.i, .i) else halvesIn l k := by
  have hf : (l.filter (fun x => decide (x.1 ≠ line))).find? (fun x => decide (x.1 = k)) =
      if k = line then none else l.find? (fun x => decide (x.1 = k)) := by
    induction l with
    | nil => split <;> rfl
    | cons x l ih => by_cases hx : x.1 = line <;> by_cases hk : x.1 = k <;> simp_all
  unfold halvesIn
  rw [hf]
  by_cases hk : k = line
  · rw [if_pos hk, if_pos hk]
  · rw [if_neg hk, if_neg hk]

theorem find_map_line (l : DevDir) (line k : Nat) (h : LineState × LineState) :
    (l.map (fun x => if x.1 = line then (line, h) else x)).find? (fun x => decide (x.1 = k)) =
      (l.find? (fun x => decide (x.1 = k))).map (fun x => if k = line then (line, h) else x) := by
  induction l with
  | nil => rfl
  | cons x l ih => by_cases hx : x.1 = line <;> by_cases hk : x.1 = k <;> simp_all

theorem halvesIn_map (l : DevDir) (line k : Nat) (h : LineState × LineState) :
    halvesIn (l.map (fun x => if x.1 = line then (line, h) else x)) k =
      if k = line ∧ l.find? (fun x => decide (x.1 = k)) ≠ none then h else halvesIn l k := by
  unfold halvesIn
  rw [find_map_line]
  cases hf : l.find? (fun x => decide (x.1 = k)) with
  | none => exact (if_neg (fun e => e.2 rfl)).symm
  | some x =>
    by_cases hk : k = line
    · rw [if_pos ⟨hk, Option.some_ne_none x⟩, Option.map_some]
      dsimp only
      rw [if_pos hk]
    · rw [if_neg (fun e => hk e.1), Option.map_some]
      dsimp only
      rw [if_neg hk]

theorem hostHeld_none {half : Nat} {h : LineState × LineState} (e : s.halves (half / 2) = h) (h1 : h.1 ≠ .o) (h2 : h.2 ≠ .o) :
    s.hostHeld half = none := by
  unfold State.hostHeld
  rw [e]
  refine if_neg ?_
  split
  · exact h1
  · exact h2

/-- A directory in which a line is gone or has yielded, once the host has supplied it. -/
theorem redir_quiet {line : Nat} {f : DevDir → DevDir} (ho : ∀ l k, k ≠ line → halvesIn (f l) k = halvesIn l k)
    (hl : ∀ l, halvesIn l line = s.halves line → (halvesIn (f l) line).1 ≠ .o ∧ (halvesIn (f l) line).2 ≠ .o) :
    Quiet P s ((supplied s line).modDie (s.homeDie (128 * line)) (Die.redir f)) := by
  have ha := supplied_alike s line
  have hhome (k : Nat) : (supplied s line).homeDie (128 * k) = s.homeDie (128 * k) := homeDie_of_serves ha.pkg ha.dies _
  have hhalf (k : Nat) : (supplied s line).halves k = s.halves k := halves_of_dir ha.pkg ha.dies (ha.halves _)
  refine handed_quiet (line := line) ha.cycle ha.cur ha.pkg (fun e => (ha.dies e).trans (serves_of_modDie (redir_serves f _) e)) rfl
    (fun k hk => ?_) fun h hh => ?_
  · rw [halves_redir, ho _ _ hk]
    split
    · next e => rw [← e, ← halves_eq, hhalf]
    · exact hhalf k
  · have hk : ((supplied s line).modDie (s.homeDie (128 * line)) (Die.redir f)).halves (h / 2) =
        halvesIn (f ((supplied s line).die (s.homeDie (128 * line))).devDir) line := by
      rw [halves_redir, hh, if_pos (hhome line)]
    obtain ⟨h1, h2⟩ := hl ((supplied s line).die (s.homeDie (128 * line))).devDir (by rw [← hhalf line, halves_eq, hhome])
    exact hostHeld_none hk h1 h2

theorem hostTake_quiet {line : Nat} (hs : Quiet P s0 s) : Quiet P s0 (s.hostTake line) := by
  unfold State.hostTake
  split
  · exact hs
  · have ha := supplied_alike s line
    have hq : Quiet P s ((supplied s line).modDie (s.homeDie (128 * line)) (Die.redir (fun l => l.filter (fun x => decide (x.1 ≠ line))))) :=
      redir_quiet (fun l k hk => (halvesIn_filter l line k).trans (if_neg hk)) fun l _ => by
        rw [halvesIn_filter, if_pos rfl]
        exact ⟨by decide, by decide⟩
    rw [← homeDie_of_serves ha.pkg ha.dies] at hq
    exact (hs.trans hq).calm (modDir_calm (.refl _))

/-- A half that the host owned becomes shared (R496). -/
def yielded (h : LineState) : LineState := if h = .o then .s else h

theorem yielded_ne (h : LineState) : yielded h ≠ .o := by cases h <;> decide

theorem hostShare_quiet {line : Nat} (hs : Quiet P s0 s) : Quiet P s0 (s.hostShare line) := by
  unfold State.hostShare
  dsimp only
  split
  · exact hs
  · next ho =>
    refine hs.trans (redir_quiet (f := fun l => l.map (fun x => if x.1 = line then
      (line, yielded (s.halves line).1, yielded (s.halves line).2) else x)) (fun l k hk => ?_) fun l hl => ?_)
    · rw [halvesIn_map, if_neg (fun e => hk e.1)]
    · rw [halvesIn_map]
      split
      · exact ⟨yielded_ne _, yielded_ne _⟩
      · next hn =>
        have hf : l.find? (fun x => decide (x.1 = line)) = none := by
          refine Classical.byContradiction fun hf => ?_
          exact hn ⟨rfl, hf⟩
        unfold halvesIn
        rw [hf]
        exact ⟨by decide, by decide⟩

end

/-! ## Lines on their way -/

section
variable {s t s0 : State} {P : Nat → Prop}

theorem quiet_ite {p : Prop} [Decidable p] (hs : Quiet P s0 s) (ht : Quiet P s0 t) : Quiet P s0 (if p then s else t) := by
  split
  · exact hs
  · exact ht

theorem quiet_foldl {α : Type} {f : State → α → State} {xs : List α} (hf : ∀ t, Quiet P s0 t → ∀ x ∈ xs, Quiet P s0 (f t x))
    (h : Quiet P s0 s) : Quiet P s0 (xs.foldl f s) := by
  induction xs generalizing s with
  | nil => exact h
  | cons x xs ih => exact ih (fun t ht y hy => hf t ht y (List.mem_cons_of_mem _ hy)) (hf s h x (List.mem_cons_self ..))

theorem l2Fill_quiet {line : Nat} (hs : Quiet P s0 s) : Quiet P s0 (s.l2Fill line) := hs.calm (l2Fill_calm (.refl s))

theorem dirGetS_quiet {k line : Nat} (hs : Quiet P s0 s) : Quiet P s0 (s.dirGetS k line) := by
  have hl : Quiet P s0 ((s.hostShare line).l2Fill line) := l2Fill_quiet (hostShare_quiet hs)
  have hm (f : DirEntry → DirEntry) : Quiet P s0 (((s.hostShare line).l2Fill line).modDir line f) := hl.calm (modDir_calm (.refl _))
  unfold State.dirGetS
  dsimp only
  refine quiet_ite hl ?_
  split
  · exact hm _
  · exact hm _
  · exact hm _
  · exact quiet_ite hl (hm _)

theorem dirGetM_quiet {k line : Nat} (hs : Quiet P s0 s) : Quiet P s0 (s.dirGetM k line).2 := by
  have hl : Quiet P s0 ((s.hostTake line).l2Fill line) := l2Fill_quiet (hostTake_quiet hs)
  unfold State.dirGetM
  dsimp only
  split
  · exact hl
  · exact hl.calm (modDir_calm (calm_foldl (fun _ h _ => dropLine_calm h) (.refl _)))

theorem applyTrans_quiet {x : Transition} (hs : Quiet P s0 s) : Quiet P s0 (s.applyTrans x) :=
  quiet_ite ((dirGetM_quiet hs).calm (markDirty_calm (.refl _))) (dirGetS_quiet hs)

theorem drainTrans_quiet {line n : Nat} (hs : Quiet P s0 s) : Quiet P s0 (s.drainTrans line n) := by
  induction n generalizing s with
  | zero => exact hs
  | succ n ih =>
    unfold State.drainTrans
    split
    · exact hs
    · exact ih (applyTrans_quiet (hs.calm (modPkg_calm ⟨rfl, rfl, rfl, rfl, rfl, rfl, rfl, fun _ h => h⟩ (.refl s))))

theorem flipBias_quiet {d page : Nat} {toHost : Bool} (hs : Quiet P s0 s) : Quiet P s0 (s.flipBias d page toHost) := by
  have he (xs : List Nat) : Quiet P s0 (xs.foldl (fun s l => s.evictLine l) s) := quiet_foldl (fun _ h _ _ => h.calm (evictLine_calm (.refl _))) hs
  have ht (xs : List Nat) : Quiet P s0 (xs.foldl (fun s l => s.hostTake l) s) := quiet_foldl (fun _ h _ _ => hostTake_quiet h) hs
  unfold State.flipBias
  dsimp only
  exact quiet_ite ((he _).calm (modDie_calm ⟨rfl, rfl, rfl⟩ rfl (.refl _))) ((ht _).calm (modDie_calm ⟨rfl, rfl, rfl⟩ rfl (.refl _)))

theorem endFlip_quiet {d : Nat} (hs : Quiet P s0 s) : Quiet P s0 (s.endFlip d) :=
  quiet_ite ((flipBias_quiet hs).calm (modDie_calm ⟨rfl, rfl, rfl⟩ rfl (.refl _))) hs

theorem settleFlip_quiet {pa : Nat} (hs : Quiet P s0 s) : Quiet P s0 (s.settleFlip pa) := by
  unfold State.settleFlip
  split
  · exact quiet_ite (endFlip_quiet hs) hs
  · exact hs

theorem reach_quiet {line : Nat} (hs : Quiet P s0 s) : Quiet P s0 (s.reach line) := by
  have hd : Quiet P s0 ((s.settleFlip (128 * line)).drainTrans line (s.settleFlip (128 * line)).pkg.trans.length) :=
    drainTrans_quiet (settleFlip_quiet hs)
  unfold State.reach
  exact quiet_ite (hd.calm (modPkg_calm ⟨rfl, rfl, rfl, rfl, rfl, rfl, rfl, fun _ h => h⟩ (.refl _))) hd

theorem travel_quiet {k pa : Nat} (hs : Quiet P s0 s) : Quiet P s0 (s.travel k pa) := hs.calm (travel_calm (.refl s))

theorem takeHome_quiet {line : Nat} {m : BitVec 128} (hs : Quiet P s0 s) : Quiet P s0 (s.takeHome line m) :=
  (hostTake_quiet (reach_quiet hs)).calm (markDirty_calm (l2Fill_calm (backInvalidate_calm (.refl _))))

theorem obtainM_quiet {k line : Nat} (hs : Quiet P s0 s) : Quiet P s0 (s.obtainM k line).2 := by
  have hr : Quiet P s0 ((s.reach line).dirGetM k line).2 := dirGetM_quiet (reach_quiet hs)
  unfold State.obtainM
  dsimp only
  exact hr

/-! ## The report ring -/

/-- The words of a report are four of 8 bytes. -/
theorem report_length (a b c d : Nat) : (leBytes 8 a ++ leBytes 8 b ++ leBytes 8 c ++ leBytes 8 d).length = 32 := by
  simp only [List.length_append, leBytes_length]

theorem ringStore_quiet {n : Nat} {bs : List Byte} (hn : n < 2 ^ s.pkg.regs.lgrec) (hb : bs.length = 32) :
    Quiet P s (s.unitStore (s.pkg.regs.ringbase + 32 * n) bs) := by
  unfold State.unitStore
  generalize hb' : (if s.directed (s.pkg.regs.ringbase + 32 * n) = true then _ else s) = t
  have ht : Quiet P s t := hb' ▸ quiet_ite (takeHome_quiet (.refl s)) (.refl s)
  refine writePhys_quiet (fun a _ hr _ => ?_) ht
  rw [ring_of_serves ht.pkg, Ring] at hr
  omega

theorem ringWritten_quiet (hq : Quiet P s t) : Quiet P s (t.modPkg fun p => { p with regs := { s.pkg.regs with rwrite := s.pkg.regs.rwrite + 1 } }) :=
  hq.calm (modPkg_calm ⟨rfl, rfl, rfl, hq.pkg.2.2.2.1.symm, hq.pkg.2.2.2.2.1.symm, rfl, rfl, fun _ h => h⟩ (.refl t))

/-- A report goes to the ring (R490). -/
theorem rangeReport_quiet {r : RangeCount} {kind queue : Nat} (hs : Quiet P s0 s) : Quiet P s0 (s.rangeReport r kind queue) := by
  unfold State.rangeReport
  dsimp only
  refine quiet_ite hs (quiet_ite (hs.calm (modPkg_calm ⟨rfl, rfl, rfl, rfl, rfl, rfl, rfl, fun _ h => h⟩ (.refl s))) ?_)
  exact hs.trans (ringWritten_quiet (ringStore_quiet (Nat.mod_lt _ (Nat.two_pow_pos _)) (report_length _ _ _ _)))

theorem countRange_quiet {asid va : Nat} {write home fill : Bool} (hs : Quiet P s0 s) : Quiet P s0 (s.countRange asid va write home fill) := by
  unfold State.countRange
  refine quiet_ite hs ?_
  dsimp only
  exact Quiet.calm (quiet_foldl (fun _ h _ _ => quiet_ite h (rangeReport_quiet h)) hs)
      (modPkg_calm ⟨rfl, rfl, rfl, rfl, rfl, rfl, rfl, fun _ h => h⟩ (.refl _))

/-! ## Accesses at the home slice and in the L1 -/

theorem sliceRead_quiet {k asid va pa : Nat} (hs : Quiet P s0 s) : Quiet P s0 (s.sliceRead k asid va pa) := by
  have hl (line : Nat) (f : Bool) : Quiet P s0 ((((((s.travel k pa).reach line).hostShare line).l2Fill line)).countRange asid va false true f) :=
    countRange_quiet (l2Fill_quiet (hostShare_quiet (reach_quiet (travel_quiet hs))))
  unfold State.sliceRead
  dsimp only
  exact quiet_ite hs (quiet_ite ((hl _ _).calm (modDir_calm (.refl _))) (hl _ _))

theorem sliceWrite_quiet {k asid va pa n : Nat} (hs : Quiet P s0 s) : Quiet P s0 (s.sliceWrite k asid va pa n) :=
  quiet_ite hs (countRange_quiet (takeHome_quiet (travel_quiet hs)))

theorem l1Read_quiet {c asid : Nat} {p : Piece} {h hint : Nat} {pref : Bool} (hs : Quiet P s0 s) : Quiet P s0 (s.l1Read c asid p h hint pref) := by
  have hg (f : Bool) : Quiet P s0 ((((s.travel (coreCluster c) p.pa).reach (p.pa / 128)).dirGetS (coreCluster c) (p.pa / 128)).countRange asid p.va
      false true f) := countRange_quiet (dirGetS_quiet (reach_quiet (travel_quiet hs)))
  unfold State.l1Read
  dsimp only
  refine quiet_ite hs (quiet_ite (sliceRead_quiet hs) ?_)
  split
  · split
    · exact hs
    · exact quiet_ite hs (hs.calm (consumeCount_calm (.refl s)))
  · exact quiet_ite (sliceRead_quiet hs) (quiet_ite (hs.calm (modCore_calm (.refl s)))
      (quiet_ite ((hg _).calm (gaveUp_calm (.refl _))) ((hg _).calm (l1Insert_calm (.refl _)))))

theorem l1Reads_quiet {c asid h hint : Nat} {ps : List Piece} (hs : Quiet P s0 s) : Quiet P s0 (s.l1Reads c asid h hint ps) :=
  quiet_foldl (fun _ h _ _ => l1Read_quiet h) hs

theorem l1Write_quiet {c asid : Nat} {p : Piece} {h : Nat} (hs : Quiet P s0 s) : Quiet P s0 (s.l1Write c asid p h) := by
  unfold State.l1Write
  dsimp only
  refine quiet_ite hs (quiet_ite (sliceWrite_quiet hs) ?_)
  have ho (b : Bool) : Quiet P s0 ((if b then s else s.travel (coreCluster c) p.pa).obtainM (coreCluster c) (p.pa / 128)).2 :=
    obtainM_quiet (quiet_ite hs (travel_quiet hs))
  have hc (b w f : Bool) (xs : List Nat) : Quiet P s0 ((xs.foldl (fun s j => s.dropL1 j (p.pa / 128))
      (((if b then s else s.travel (coreCluster c) p.pa).obtainM (coreCluster c) (p.pa / 128)).2.dropBuf (coreCluster c) (p.pa / 128))).countRange
        asid p.va true w f) :=
    countRange_quiet ((ho b).calm (calm_foldl (fun _ h _ => dropL1_calm h) (dropBuf_calm (.refl _))))
  split
  · exact (hc _ _ _ _).calm (modCore_calm (.refl _))
  · exact (hc _ _ _ _).calm (l1Insert_calm (.refl _))

theorem l1Writes_quiet {c asid h : Nat} {ps : List Piece} (hs : Quiet P s0 s) : Quiet P s0 (s.l1Writes c asid h ps) :=
  quiet_foldl (fun _ h _ _ => l1Write_quiet h) hs

end

/-! ## What is over -/

/-- What an operation does not bring back: a chain that has ended is not live again, nor is partition n where it has been destroyed. -/
def Ended (k : Option Nat) (s : State) : Prop := k.elim s.cur.live (fun n => (s.part n).live) = false

section
variable {s t : State} {k : Option Nat}

theorem Quiet.ended {P : Nat → Prop} (h : Quiet P s t) (hs : Ended k s) : Ended k t := by
  obtain ⟨-, -, -, -, -, -, hp, -⟩ := h.pkg
  cases k with
  | none => exact (congrArg Issue.live h.cur).trans hs
  | some n => exact (congrArg (fun t => (tgetD t n Partition.reset).live) hp).trans hs

theorem ended_ite {p : Prop} [Decidable p] (hs : Ended k s) (ht : Ended k t) : Ended k (if p then s else t) := by
  split
  · exact hs
  · exact ht

theorem ended_foldl {α : Type} {f : State → α → State} {xs : List α} (hf : ∀ t, Ended k t → ∀ x, Ended k (f t x)) (h : Ended k s) :
    Ended k (xs.foldl f s) := by
  induction xs generalizing s with
  | nil => exact h
  | cons x xs ih => exact ih (hf s h x)

theorem modWg_ended {s : State} {c w : Nat} {f : Workgroup → Workgroup} (hs : Ended k s) : Ended k (s.modWg c w f) := by
  unfold State.modWg
  split
  · exact hs
  · exact hs

theorem modGroup_ended {s : State} {c w g : Nat} {f : Group → Group} (hs : Ended k s) : Ended k (s.modGroup c w g f) :=
  modWg_ended hs

theorem count_ended {s : State} {kind source : Nat} (hs : Ended k s) : Ended k (s.count kind source) :=
  hs

theorem modPort_ended {s : State} {i : Nat} {f : Port → Port} (hs : Ended k s) : Ended k (s.modPort i f) :=
  hs

theorem sendFlit_ended {s : State} {n id : Nat} (hs : Ended k s) : Ended k (s.sendFlit n id) := by
  unfold State.sendFlit
  split
  · exact hs
  · exact modPort_ended hs

theorem post_ended {s : State} {o : Outside} (hs : Ended k s) : Ended k (s.post o) :=
  ended_ite (sendFlit_ended (hs)) (hs)

theorem unitWrite_ended {s : State} {asid va pa : Nat} {bs : List Byte} (hs : Ended k s) : Ended k (s.unitWrite asid va pa bs) := by
  unfold State.unitWrite
  dsimp only
  split
  · exact post_ended ((hs))
  · exact (writePhys_quiet (fun _ ha => ha.elim) (sliceWrite_quiet (P := fun _ => False) (.refl s))).ended hs

theorem writeSignal_ended {s : State} {d asid : Nat} {priv : Bool} {part addr value : Nat} (hs : Ended k s) : Ended k
    (s.writeSignal d asid priv part addr value) := by
  unfold State.writeSignal
  refine ended_ite hs ?_
  split
  · exact count_ended hs
  · exact ended_ite (count_ended hs) (unitWrite_ended hs)

theorem passComplete_ended {s : State} {d slot : Nat} (hs : Ended k s) : Ended k (s.passComplete d slot) := by
  unfold State.passComplete
  dsimp only
  split
  · exact hs
  · exact ended_ite hs ((writeSignal_ended hs))

theorem releaseTile_ended {s : State} {d entry : Nat} (hs : Ended k s) : Ended k (s.releaseTile d entry) := by
  unfold State.releaseTile
  split
  · exact hs
  · exact ended_ite hs (ended_ite (hs) (passComplete_ended (hs)))

theorem releaseRecords_ended {s : State} {d : Nat} {rs : List (BitVec 128)} (hs : Ended k s) : Ended k (s.releaseRecords d rs) :=
  ended_foldl (fun _ h1 _ => ended_ite (releaseTile_ended h1) h1) hs

theorem treeEvent_ended {s : State} {d : Nat} {slot : Option Nat} {delta : Int} (hs : Ended k s) : Ended k (s.treeEvent d slot delta) := by
  unfold State.treeEvent
  split
  · exact hs
  · exact hs

theorem signalPacket_ended {s : State} {d : Nat} {p : Packet} (hs : Ended k s) : Ended k (s.signalPacket d p) :=
  ended_ite ((writeSignal_ended hs)) (writeSignal_ended hs)

theorem dropPacket_ended {s : State} {d n : Nat} (hs : Ended k s) : Ended k (s.dropPacket d n) :=
  (hs)

theorem packetDone_ended {s : State} {d n : Nat} (hs : Ended k s) : Ended k (s.packetDone d n) := by
  unfold State.packetDone
  split
  · exact hs
  · exact ended_ite hs (ended_ite (hs) (ended_ite hs
        (ended_ite (dropPacket_ended hs) (dropPacket_ended (signalPacket_ended hs)))))

theorem groupsEnded_ended {s : State} {d n count : Nat} (hs : Ended k s) : Ended k (s.groupsEnded d n count) := by
  unfold State.groupsEnded
  dsimp only
  split
  · exact hs
  · exact packetDone_ended (treeEvent_ended (hs))

theorem packetCause_ended {s : State} {d n : Nat} {cause : Byte} (hs : Ended k s) : Ended k (s.packetCause d n cause) := by
  unfold State.packetCause
  split
  · exact hs
  · exact ended_ite hs (hs)

theorem retireGroup_ended {s : State} {c w g : Nat} (hs : Ended k s) : Ended k (s.retireGroup c w g) := by
  unfold State.retireGroup
  dsimp only
  split
  · exact hs
  · split
    · exact hs
    · refine ended_ite hs (groupsEnded_ended ?_)
      split
      · exact ended_ite (packetCause_ended (releaseRecords_ended (modGroup_ended hs)))
            (releaseRecords_ended (modGroup_ended hs))
      · exact releaseRecords_ended (modGroup_ended hs)

theorem retireFinished_ended {s : State} {c w : Nat} (hs : Ended k s) : Ended k (s.retireFinished c w) := by
  unfold State.retireFinished
  split
  · exact hs
  · refine ended_foldl (fun _ h1 _ => ?_) hs
    split
    · exact ended_ite (retireGroup_ended h1) h1
    · exact h1

theorem withdrawChurn_ended {s : State} {d : Nat} {p : Who → Bool} (hs : Ended k s) : Ended k (s.withdrawChurn d p) :=
  ended_ite hs ((hs))

theorem dropIdleTails_ended {s : State} {d : Nat} (hs : Ended k s) : Ended k (s.dropIdleTails d) := by
  unfold State.dropIdleTails
  dsimp only
  refine ended_foldl (fun _ h1 _ => ?_) hs
  split
  · exact h1
  · exact ended_ite h1 (h1)

theorem withdrawSeals_ended {s : State} {core wg : Nat} (hs : Ended k s) : Ended k (s.withdrawSeals core wg) :=
  hs

theorem modCluster_ended {c : Nat} {f : Cluster → Cluster} (hs : Ended k s) : Ended k (s.modCluster c f) := hs

theorem dead_ended (hs : Ended k s) : Ended k { s with cur := { s.cur with live := false } } := by
  cases k with
  | none => rfl
  | some n => exact hs

theorem abortWg_ended {c w : Nat} {cause : Byte} (hs : Ended k s) : Ended k (s.abortWg c w cause) := by
  unfold State.abortWg
  dsimp only
  split
  · exact hs
  · next wg _ =>
    have hw (f : Workgroup → Workgroup) : Ended k ((s.packetCause (coreDie c) wg.packet cause).modWg c w f) := modWg_ended (packetCause_ended hs)
    exact retireFinished_ended (ended_ite
      (withdrawSeals_ended (dropIdleTails_ended (withdrawChurn_ended (ended_ite (dead_ended (hw _)) (hw _)))))
      (modCluster_ended (withdrawSeals_ended (dropIdleTails_ended (withdrawChurn_ended (ended_ite (dead_ended (hw _)) (hw _)))))))

theorem takeTrap_ended {c w g : Nat} {path : List Nat} {pc : Nat} {x : Trap} {late : Bool} (hs : Ended k s) :
    Ended k (s.takeTrap c w g path pc x late) := by
  unfold State.takeTrap
  split
  · exact hs
  · exact ended_ite (abortWg_ended hs) (modGroup_ended hs)

end

/-! ## A word's end -/

/-- What reads depend on is equal in two states. -/
def Static (s t : State) : Prop := t.mem = s.mem ∧ t.pkg = s.pkg ∧ t.dies = s.dies ∧ t.cycle = s.cycle

section
variable {s t s0 : State}

theorem Static.trans {u : State} (h : Static s t) (k : Static t u) : Static s u := by
  obtain ⟨h1, h2, h3, h4⟩ := h
  obtain ⟨k1, k2, k3, k4⟩ := k
  exact ⟨k1.trans h1, k2.trans h2, k3.trans h3, k4.trans h4⟩

theorem Static.die (h : Static s t) (d : Nat) : t.die d = s.die d := by
  unfold State.die
  rw [h.2.2.1]

theorem Static.serves (h : Static s t) : Package.Serves s.pkg t.pkg := h.2.1 ▸ .refl _

theorem Static.dieServes (h : Static s t) (d : Nat) : Die.Serves (s.die d) (t.die d) := h.die d ▸ .refl _

theorem Static.held (h : Static s t) (half : Nat) : t.hostHeld half = s.hostHeld half :=
  hostHeld_of_halves h.2.2.2 (halves_of_dir h.serves h.dieServes (by rw [h.die]))

theorem Static.reads (h : Static s t) (a : Nat) : t.readByte a = s.readByte a :=
  readByte_of h.2.2.2 h.serves h.dieServes (h.held _) fun _ => by rw [h.1]

theorem Static.boarded (h : Static s t) (a : Nat) : t.isBoarded a = s.isBoarded a := isBoarded_of_serves h.serves h.dieServes a

theorem Static.ring (h : Static s t) {a : Nat} : Ring t a ↔ Ring s a := ring_of_serves h.serves

theorem Static.settled (h : Static s t) {a : Nat} (hs : Settled s a) : Settled t a := by
  unfold Settled
  rw [h.held, h.boarded]
  exact hs

theorem OnlyClusters.static (h : OnlyClusters s t) : Static s t := by
  rw [h]
  exact ⟨rfl, rfl, rfl, rfl⟩

theorem modCur_static (s : State) (f : Group → Group) : Static s (s.modCur f) :=
  ⟨State.modCur_mem _ _, State.modCur_pkg _ _, State.modCur_dies _ _, State.modCur_cycle _ _⟩

theorem apply_static (c : Ctx) (u : Uses) (k : Cls) (o : Out) (s : State) : Static s (c.apply u k o s) :=
  Static.trans ⟨rfl, rfl, rfl, rfl⟩ (modCur_static _ _)

theorem advance_static (s : State) (path : List Nat) : Static s (s.advance path) :=
  (modCur_static s _).trans ⟨rfl, rfl, rfl, rfl⟩

/-- A property of the states in which a word may end with its chain alive. -/
def Yields (Q : State → Prop) : Did → Prop
  | .done t => Q t
  | .again _ t => Q t
  | _ => True

/-- A word whose chain lives on ends as its body did. -/
theorem finish_yields {Q : State → Prop} (hQ : ∀ t t', Static t t' → Q t → Q t') {c : Ctx} {u : Uses} {d : Did} (hd : Yields Q d)
    (hl : (c.finish u s d).cur.live = true) : Q (c.finish u s d) := by
  cases d with
  | done t => exact hQ t _ ((advance_static t _).trans ⟨rfl, rfl, rfl, rfl⟩) hd
  | again r t => exact hQ t _ (((advance_static t _).trans (modCur_static _ _)).trans ⟨rfl, rfl, rfl, rfl⟩) hd
  | trap x late t =>
    have he : Ended none (c.finish u s (.trap x late t)) := by
      unfold Ctx.finish
      exact ended_ite rfl (takeTrap_ended rfl)
    exact absurd (he.symm.trans hl) (by decide)
  | hold t => exact absurd hl Bool.false_ne_true
  | sleep t x => exact absurd hl Bool.false_ne_true
  | abort cause t =>
    have he : Ended none (c.finish u s (.abort cause t)) := abortWg_ended rfl
    exact absurd (he.symm.trans hl) (by decide)

theorem takeIn_yields {Q : State → Prop} {c : Ctx} {u : Uses} {o : Out} {next : State → Did} (h : Yields Q (next s)) :
    Yields Q (c.takeIn u o s next) := by
  unfold Ctx.takeIn
  split
  · exact trivial
  split
  · split <;> exact trivial
  split
  · exact trivial
  · split
    · exact trivial
    · exact h

theorem commit_yields {Q : State → Prop} {c : Ctx} {u : Uses} {o : Out} {next : State → Did} (h : Yields Q (next (c.apply u u.cls o s))) :
    Yields Q (c.commit u o s next) := by
  unfold Ctx.commit
  exact takeIn_yields h

theorem plain_yields {Q : State → Prop} {c : Ctx} {u : Uses} {next : State → Did} (h : Yields Q (next (c.apply u u.cls Out.none s))) :
    Yields Q (c.plain u s next) := commit_yields h

theorem places_only (s : State) (core : Nat) (w : Workgroup) (k : Acc) (ls : List (Nat × W64)) : OnlyClusters s (s.places core w k ls).2 := by
  induction ls generalizing s with
  | nil => exact .refl s
  | cons x ls ih => exact (place_only s core w false k x.2).trans (ih _)

theorem accepted_static {c : Ctx} {k : Acc} {ls : List Nat} {addr : Nat → W64} {at_ : Nat → Place} (h : Accepted s c k ls addr at_ t) : Static s
    t := by
  have ho := places_only s c.core c.wg k (ls.map fun l => (l, addr l))
  rw [show s.places c.core c.wg k (ls.map fun l => (l, addr l)) = _ from h] at ho
  exact ho.static

/-! ## Stores at a place -/

variable {P : Nat → Prop}

theorem outsidePlace_of_serves (hp : Package.Serves s.pkg t.pkg) (hd : ∀ d, Die.Serves (s.die d) (t.die d)) (p : Place) :
    t.outsidePlace p = s.outsidePlace p := by
  cases p with
  | global ps =>
    have hq : t.outsidePiece = s.outsidePiece := funext fun q => by
      unfold State.outsidePiece
      rw [region_of_serves hp hd]
    unfold State.outsidePlace
    rw [hq]
  | scratch o => rfl
  | priv o => rfl

theorem modWg_calm {c w : Nat} {f : Workgroup → Workgroup} : Calm s (s.modWg c w f) := by
  unfold State.modWg
  split
  · exact .refl s
  · exact modCore_calm (.refl s)

/-- The pieces of an access are stored one after the other. -/
theorem pieces_quiet {ps : List Piece} {bs : List Byte} (hw : ∀ a, P a → ∀ p ∈ ps, ¬ (p.pa ≤ a ∧ a < p.pa + p.len)) (hs : Quiet P s0 s) :
    Quiet P s0 (ps.foldl (fun (r : State × List Byte) p => (r.1.writePhys p.pa (r.2.take p.len), r.2.drop p.len)) (s, bs)).1 := by
  induction ps generalizing s bs with
  | nil => exact hs
  | cons p ps ih =>
    refine ih (fun a ha q hq => hw a ha q (List.mem_cons_of_mem _ hq)) (writePhys_quiet (fun a ha _ _ => ?_) hs)
    have := hw a ha p (List.mem_cons_self ..)
    have hl := List.length_take_le p.len bs
    change a < p.pa ∨ p.pa + (bs.take p.len).length ≤ a
    omega

/-- A store at a place of this package changes no other byte. -/
theorem storePlace_quiet {who : Who} {asid l h : Nat} {va : W64} {bs : List Byte} {p : Place} (ho : s.outsidePlace p = false)
    (hw : ∀ a, P a → ∀ ps, p = .global ps → ∀ q ∈ ps, ¬ (q.pa ≤ a ∧ a < q.pa + q.len)) (hs : Quiet P s0 s) :
    Quiet P s0 (s.storePlace who asid l h va bs p) := by
  cases p with
  | global ps =>
    unfold State.storePlace
    dsimp only
    rw [ho, if_neg Bool.false_ne_true]
    exact pieces_quiet (fun a ha => hw a ha ps rfl) (l1Writes_quiet hs)
  | scratch o => exact hs.calm modWg_calm
  | priv o => exact hs.calm modWg_calm

/-- The lanes store in turn. -/
theorem storeLanes_quiet {ls : List Nat} {at_ : Nat → Place} {who : Who} {asid h : Nat} {addr : Nat → W64} {bs : Nat → List Byte}
    (ho : ∀ l ∈ ls, s.outsidePlace (at_ l) = false)
    (hw : ∀ a, P a → ∀ l ∈ ls, ∀ ps, at_ l = .global ps → ∀ q ∈ ps, ¬ (q.pa ≤ a ∧ a < q.pa + q.len)) :
    Quiet P s (ls.foldl (fun s l => s.storePlace who asid l h (addr l) (bs l) (at_ l)) s) :=
  quiet_foldl (fun _ ht l hl => storePlace_quiet ((outsidePlace_of_serves ht.pkg ht.dies _).trans (ho l hl)) (fun a ha => hw a ha l hl) ht) (.refl s)

end

/-! ## What a store stores -/

section
variable {s t : State}

theorem translate_len {c asid : Nat} {bypass : Bool} {va n : Nat} {p : Piece} (h : (s.translate c asid bypass va n).1 = .ok p) : p.len = n := by
  unfold State.translate at h
  split at h
  · exact (Except.ok.inj h) ▸ rfl
  · split at h
    · exact (Except.ok.inj h) ▸ rfl
    · split at h
      · cases h
      · exact (Except.ok.inj h) ▸ rfl

theorem pieces_len {core asid : Nat} {bypass : Bool} {va n : Nat} {p : Piece} (h : .ok p ∈ (s.pieces core asid bypass va n).1) : p.len ≤ n := by
  unfold State.pieces at h
  dsimp only at h
  split at h
  · have hl := translate_len (List.mem_singleton.1 h).symm
    omega
  · rcases List.mem_cons.1 h with h | h
    · have hl := translate_len h.symm
      omega
    · have hl := translate_len (List.mem_singleton.1 h).symm
      omega

theorem firstCause_none {a b : Option Cause} (h : firstCause a b = none) : a = none ∧ b = none := by
  cases a with
  | none => exact ⟨rfl, h⟩
  | some x =>
    cases b with
    | none => exact absurd h (Option.some_ne_none x)
    | some y =>
      dsimp only [firstCause] at h
      split at h
      · cases h
      · cases h

theorem firstCauses_none {α : Type} {f : α → Option Cause} {xs : List α} {o : Option Cause} (h : xs.foldl (fun c x => firstCause c (f x)) o = none) :
    o = none ∧ ∀ x ∈ xs, f x = none := by
  induction xs generalizing o with
  | nil => exact ⟨h, fun _ hx => absurd hx List.not_mem_nil⟩
  | cons x xs ih =>
    obtain ⟨hf, hx⟩ := ih h
    obtain ⟨ho, hh⟩ := firstCause_none hf
    refine ⟨ho, fun y hy => ?_⟩
    rcases List.mem_cons.1 hy with rfl | hy
    · exact hh
    · exact hx y hy

/-- A piece of a plain write that is accepted in this package holds no boarded word (R288). -/
theorem pieceCheck_unboarded {w : Workgroup} {align n h : Nat} {mmio : Bool} {p : Piece}
    (hc : s.pieceCheck w (Acc.plain .write align n mmio h) p = none)
    (ho : s.outsidePiece p = false) : s.anyBoarded p.pa p.len = false := by
  refine Bool.eq_false_iff.2 fun hb => ?_
  unfold State.outsidePiece at ho
  rw [Bool.or_eq_false_iff, decide_eq_false_iff_not] at ho
  obtain ⟨ht, hr⟩ := ho
  unfold State.pieceCheck Acc.plain at hc
  dsimp only at hc
  rw [hb, if_neg ht] at hc
  split at hc
  · cases hc
  · cases hg : s.region p.pa with
    | slice d k =>
      rw [hg] at hc
      dsimp only at hc
      split at hc
      · cases hc
      · cases hc
    | _ =>
      rw [hg] at hc hr
      simp at hc hr

/-- A window answers no global place. -/
theorem window_ne {q : Prop} [Decidable q] {x : Cause} {p p' : Place} (h : p ≠ p') :
    (if q then (Except.error x, s) else (.ok p, s)) ≠ (.ok p', t) := by
  split
  · intro e
    cases (Prod.mk.inj e).1
  · exact fun e => h (Except.ok.inj (Prod.mk.inj e).1)

/-- The one piece of a lane's store: as long as the store at most, and with no boarded word. -/
theorem accepted_piece {c : Ctx} {align n h l : Nat} {mmio : Bool} {addr : Nat → W64} {at_ : Nat → Place} {p : Piece}
    (ha : Accepted s c (Acc.plain .write align n mmio h) [l] addr at_ t) (hp : at_ l = .global [p]) (ho : t.outsidePlace (at_ l) = false) :
    p.len ≤ n ∧ t.anyBoarded p.pa p.len = false := by
  have hpl : s.place c.core c.wg false (Acc.plain .write align n mmio h) (addr l) = (.ok (.global [p]), t) := by
    unfold Accepted at ha
    simp only [List.map_cons, List.map_nil, State.places, Prod.mk.injEq, List.cons.injEq, and_true, hp] at ha
    exact Prod.ext ha.1.2 ha.2
  have hout : t.outsidePiece p = false := by
    rw [hp] at ho
    simpa [State.outsidePlace] using ho
  unfold State.place at hpl
  dsimp only at hpl
  split at hpl
  · cases hpl
  split at hpl
  · split at hpl
    · exact absurd hpl (window_ne Place.noConfusion)
    split at hpl
    · exact absurd hpl (window_ne Place.noConfusion)
    · cases hpl
  split at hpl
  · cases hpl
  split at hpl
  · cases hpl
  · next hn =>
    obtain ⟨hq, rfl⟩ := Prod.mk.inj hpl
    have hk := Place.global.inj (Except.ok.inj hq)
    have hm : Except.ok p ∈ (s.pieces c.core c.wg.asid (Acc.plain .write align n mmio h).bypass (addr l).toNat n).1 := by
      have : p ∈ okPieces (s.pieces c.core c.wg.asid (Acc.plain .write align n mmio h).bypass (addr l).toNat n).1 := by
        exact hk ▸ List.mem_singleton_self p
      obtain ⟨x, hx, he⟩ := List.mem_filterMap.1 this
      cases x with
      | error e => cases he
      | ok q => exact Option.some.inj he ▸ hx
    exact ⟨pieces_len hm, pieceCheck_unboarded ((firstCauses_none hn).2 _ hm) hout⟩

theorem isBoarded_of_any {pa n a : Nat} (h : s.anyBoarded pa n = false) (h1 : pa ≤ a) (h2 : a < pa + n) : s.isBoarded a = false := by
  have hw : a / 8 ∈ upto (pa / 8) ((pa + n - 1) / 8 + 1 - pa / 8) := by
    rw [upto_eq, List.mem_map]
    refine ⟨a / 8 - pa / 8, List.mem_range.2 ?_, ?_⟩
    · have : a / 8 ≤ (pa + n - 1) / 8 := Nat.div_le_div_right (by omega)
      have : pa / 8 ≤ a / 8 := Nat.div_le_div_right h1
      omega
    · have : pa / 8 ≤ a / 8 := Nat.div_le_div_right h1
      omega
  have hb : s.isBoarded (8 * (a / 8)) = false := by
    unfold State.anyBoarded at h
    rw [List.any_eq_false] at h
    exact Bool.eq_false_iff.2 (h _ hw)
  have he : s.boardedAt (8 * (a / 8)) = s.boardedAt a := by
    unfold State.boardedAt
    rw [Nat.mul_div_cancel_left _ (by omega)]
  unfold State.isBoarded at hb ⊢
  rw [he] at hb
  exact hb

/-- A byte stored in this package reads as stored, where its word is not aboard and the host does not own its half. -/
theorem writePhys_reads {pa j : Nat} {bs : List Byte} (hj : j < bs.length) (ha : pa + j < 0x400000000000) (hb : s.isBoarded (pa + j) = false)
    (hh : s.hostHeld ((pa + j) / 64) = none) : (s.writePhys pa bs).readByte (pa + j) = bs.getD j 0 := by
  have hw := writePhys_alike s pa bs
  unfold State.readByte
  rw [if_neg (by omega), shadow_of_serves hw.pkg hw.dies, shadow_of_unboarded hb, hw.held, hh]
  exact writePhys_in s hj

end

/-! ## ST and LD -/

section
variable {f : MMem} {s t : State} {c : Ctx} {at_ : Nat → Place}

/-- The store of a word whose lanes are accepted. -/
theorem store_yields {Q : State → Prop} (h0 : c.doers = [] → Q (c.apply (s.uses (.st f)) (s.uses (.st f)).cls Out.none s))
    (ha : Accepted s c (Acc.plain .write (szAlign f.z) (szBytes f.z) (decide (f.z < 6)) f.h) c.doers (addrOf f.a f.o (szBytes f.z) c) at_ t)
    (h1 : Q (c.doers.foldl (fun x l => x.storePlace c.who c.wg.asid l f.h (addrOf f.a f.o (szBytes f.z) c l)
      (leBytes (szBytes f.z) (c.src.readN f.d l)) (at_ l)) (c.apply (s.uses (.st f)) (s.uses (.st f)).cls Out.none t))) :
    Yields Q (storeGroup f false c (s.uses (.st f)) s) := by
  unfold storeGroup
  dsimp only
  rw [addr_eq]
  split
  · next hd => exact plain_yields (h0 hd)
  split
  · exact trivial
  split
  · exact trivial
  rw [show s.places _ _ _ _ = _ from ha]
  dsimp only
  rw [accTrap_none _ (accepted_ok c.doers at_)]
  dsimp only
  split
  · exact trivial
  · refine plain_yields ?_
    rw [List.foldl_map]
    exact h1

/-- A place stays readable. -/
theorem readable_of_serves {u : State} (hp : Package.Serves t.pkg u.pkg) (hd : ∀ d, Die.Serves (t.die d) (u.die d)) {p : Place} (h : Readable t p) :
    Readable u p := by
  obtain ⟨⟨ho, ht⟩, hb⟩ := h
  refine ⟨⟨(outsidePlace_of_serves hp hd p).trans ho, ?_⟩, ?_⟩
  · cases p with
    | global ps =>
      unfold State.tapPlace at ht ⊢
      simp only [shadow_of_serves hp hd]
      exact ht
    | scratch o => rfl
    | priv o => rfl
  · cases p with
    | global ps =>
      unfold State.badPlace State.badBytes at hb ⊢
      simp only [List.any_eq_false, Bool.not_eq_true, Bool.or_eq_false_iff, shadow_of_serves hp hd] at hb ⊢
      intro q hq w hw
      obtain ⟨hn, hk⟩ := hb q hq w hw
      refine ⟨?_, hk⟩
      unfold State.isPoisoned at hn ⊢
      rw [Bool.eq_false_iff, ne_eq, List.contains_iff_mem] at hn ⊢
      exact fun hm => hn (hp.2.2.2.2.2.2.2 _ hm)
    | scratch o => rfl
    | priv o => rfl

/-- The load of a word whose lanes are accepted and readable. -/
theorem load_yields {Q : State → Prop}
    (ha : Accepted s c (Acc.plain .read (szAlign f.z) (szBytes f.z) (decide (f.z < 6)) f.h) c.act (addrOf f.a f.o (szBytes f.z) c) at_ t)
    (hr : ∀ l ∈ c.act, Readable t (at_ l))
    (h1 : ∀ o, Q (c.apply (s.uses (.ld f)) (s.uses (.ld f)).cls o
      (t.l1Reads c.core c.wg.asid f.h c.src.ctrl.hint.toNat (t.herePieces (c.act.map at_))))) :
    Yields Q (loadGroup (ldAcc f.z f.h) f.d f.a f.o f.z f.h false c (s.uses (.ld f)) s) := by
  by_cases hs : c.src.shape f.a = .p64
  · rw [← addr_eq] at ha
    rw [ldAcc, loadGroup_accepted hs ha]
    split
    · exact trivial
    · refine takeIn_yields ?_
      have hl : ∀ l ∈ c.act, Readable (t.l1Reads c.core c.wg.asid f.h c.src.ctrl.hint.toNat (t.herePieces (c.act.map at_))) (at_ l) := by
        have hq : Quiet (fun _ => False) t (t.l1Reads c.core c.wg.asid f.h c.src.ctrl.hint.toNat (t.herePieces (c.act.map at_))) :=
          l1Reads_quiet (.refl t)
        exact fun l hl => readable_of_serves hq.pkg hq.dies (hr l hl)
      obtain ⟨ht, hv⟩ := loadNext_readable (i := .ld f) (d := f.d) (z := f.z) (acq := false) (addr := c.addr f.a f.o (szBytes f.z)) (s := s) hl
      cases hi : imageTrap f.z (lanes c (fun l => loadElem f.z ((t.l1Reads c.core c.wg.asid f.h c.src.ctrl.hint.toNat
          (t.herePieces (c.act.map at_))).readPlace c.wg c.who.grp l (szBytes f.z) (at_ l)))) (c.addr f.a f.o (szBytes f.z)) with
      | some x =>
        rw [ht x hi]
        exact trivial
      | none =>
        rw [hv hi]
        exact h1 _
  · unfold loadGroup
    rw [if_pos hs]
    exact trivial

end

/-- Settles O54: outside what they address, the words move lines only, and moving a line changes no settled byte. -/
theorem storesChangeOnlyTheirBytes : Obligations.StoresChangeOnlyTheirBytes := by
  intro f s c n settled ring
  refine ⟨fun at_ t h ha ho u hu => ?_, fun at_ t h ha hr u hu hl a hring hset => ?_⟩
  · have he := exec_ready h _ (by unfold exec execSt; exact rfl)
    cases Host.Outcome.next.inj (he.symm.trans hu)
    have hst := accepted_static ha
    have hap := hst.trans (apply_static c (s.uses (.st f)) (s.uses (.st f)).cls Out.none t)
    have ho1 (l : Nat) (hl : l ∈ c.doers) : (c.apply (s.uses (.st f)) (s.uses (.st f)).cls Out.none t).outsidePlace (at_ l) = false :=
      (outsidePlace_of_serves (apply_static c _ _ Out.none t).serves (apply_static c _ _ Out.none t).dieServes _).trans (ho l hl)
    refine ⟨fun a hring hset hout hl => ?_, fun l p hd hp hwf hlt hl j hj hring hh => ?_⟩
    · refine finish_yields (Q := fun v => v.readByte a = s.readByte a) (fun v v' hv e => (hv.reads a).trans e)
        (store_yields (fun _ => (apply_static ..).reads a) ha ?_) hl
      have hq := storeLanes_quiet (P := fun b => b = a) (who := c.who) (asid := c.wg.asid) (h := f.h) (addr := addrOf f.a f.o (szBytes f.z) c)
        (bs := fun l => leBytes (szBytes f.z) (c.src.readN f.d l)) ho1 (fun b hb l hl ps hps q hq => hb ▸ hout l hl ps hps q hq)
      exact (hq.reads a rfl (fun e => hring (hap.ring.1 e)) (hap.settled hset)).trans (hap.reads a)
    · refine finish_yields (Q := fun v => v.readByte (p.pa + j) = (leBytes n (c.src.readN f.d l)).getD j 0) (fun v v' hv e => (hv.reads _).trans e)
        (store_yields (fun h0 => absurd (h0.symm.trans hd) (List.cons_ne_nil l []).symm) ha ?_) hl
      have hol := ho1 l (hd ▸ List.mem_singleton_self l)
      rw [hd] at ha ⊢
      obtain ⟨hlen, hany⟩ := accepted_piece ha hp (ho l (hd ▸ List.mem_singleton_self l))
      have hb : s.isBoarded (p.pa + j) = false := (hst.boarded _).symm.trans (isBoarded_of_any hany (by omega) (by omega))
      have hq : Quiet (fun _ => True) _ ((c.apply (s.uses (.st f)) (s.uses (.st f)).cls Out.none t).l1Writes c.who.core c.wg.asid f.h [p]) :=
        l1Writes_quiet (.refl _)
      rw [List.foldl_cons, List.foldl_nil, hp] at *
      unfold State.storePlace
      dsimp only
      rw [hol, if_neg Bool.false_ne_true]
      have hj' : j < ((leBytes (szBytes f.z) (c.src.readN f.d l)).take p.len).length := by
        rw [List.length_take, leBytes_length]
        omega
      refine (writePhys_reads hj' (by omega) ?_ ?_).trans ?_
      · rw [isBoarded_of_serves hq.pkg hq.dies, hap.boarded, hb]
      · exact (hq.held _).elim (fun e => e.trans ((hap.held _).trans hh)) id
      · rw [List.getD_eq_getElem?_getD, List.getElem?_take_of_lt hj, ← List.getD_eq_getElem?_getD]
  · have he := exec_ready2 h _ _ (by unfold exec execLd; exact rfl)
    cases Host.Outcome.next.inj (he.symm.trans hu)
    have hst := accepted_static ha
    refine finish_yields (Q := fun v => v.readByte a = s.readByte a) (fun v v' hv e => (hv.reads a).trans e) (load_yields ha hr fun o => ?_) hl
    have hq : Quiet (fun _ => True) t (t.l1Reads c.core c.wg.asid f.h c.src.ctrl.hint.toNat (t.herePieces (c.act.map at_))) := l1Reads_quiet (.refl t)
    exact ((apply_static ..).reads a).trans ((hq.reads a trivial (fun e => hring (hst.ring.1 e)) (hst.settled hset)).trans (hst.reads a))

end Sys2Proof.Laws
end

section
/-!
SUPPORT. Events of a core: issue, duty, results and bounded waits (R29, R236, R247, R505).
-/
namespace Sys2Proof.Laws
open Sys2Proof.Machine Sys2Proof.Safety

section
variable {core wg grp id : Nat} {s : State}

theorem issueOpportunity_acts (h : core < 384) : exec (.issueOpportunity core) s =
    if dutyAllows (s.core core).duty s.cycle then .next (s.issueCycle core) else .next (s.modCore core (fun c => { c with probe := [] })) := by
  change execIssueOpportunity core s = _
  unfold execIssueOpportunity
  exact if_neg (by omega)

theorem dutyChange_acts (h : core < 384) : exec (.dutyChange core) s =
    .next (if s.cycle % 16 = 0 then s.modCore core (fun c => { c with duty := s.dutyOf core }) else s) := by
  change execDutyChange core s = _
  unfold execDutyChange
  refine (if_neg (by omega)).trans ?_
  split <;> rfl

theorem resultWriteback_acts {g : Group} (h : s.group core wg grp = some g) : exec (.resultWriteback core wg grp id) s =
    .next (s.modGroup core wg grp (fun x =>
      { x with pend := x.pend.filter (fun p => !(decide (p.id = id) && p.due.any (fun t => decide (t ≤ s.cycle)))) }.settle)) := by
  change execResultWriteback core wg grp id s = _
  unfold execResultWriteback
  rw [h]

theorem sleepExpiry_acts {x : Wait} {till : Nat} (h : s.waitReady core wg grp id = some x) (hk : x.kind = .sleep till) :
    exec (.sleepExpiry core wg grp id) s = .next (if till ≤ s.cycle then s.completeWait core wg grp x [] none else s) := by
  change execSleepExpiry core wg grp id s = _
  unfold execSleepExpiry
  rw [h]
  dsimp only
  rw [hk]
  dsimp only
  split <;> rfl

theorem barwaitBound_acts {x : Wait} {w : Workgroup} {off token d : Nat} (hw : s.wg core wg = some w) (h : s.waitReady core wg grp id = some x)
    (hk : x.kind = .bar off token (some d)) : exec (.barwaitBoundExpiry core wg grp id) s = .next (
      if (w.bar off).phase = token ∧ s.cycle < d then s
      else (s.modWg core wg (fun y => y.setBar off { y.bar off with waiters := (y.bar off).waiters - 1 })).completeWait core wg grp x []
        (some (if (w.bar off).phase = token then .f else .t))) := by
  change execBarwaitBoundExpiry core wg grp id s = _
  unfold execBarwaitBoundExpiry
  rw [hw]
  dsimp only
  rw [h]
  dsimp only
  rw [hk]
  dsimp only
  unfold State.wakeBar
  by_cases hp : (w.bar off).phase = token <;> by_cases hd : s.cycle < d <;> simp [hp, hd, Nat.not_le.2, Nat.not_lt.1, Tri.ofBool]

theorem nbarwaitBound_acts {x : Wait} {w : Workgroup} {i token d : Nat} {b : NetBar} (hw : s.wg core wg = some w)
    (h : s.waitReady core wg grp id = some x) (hk : x.kind = .nbar i token (some d)) (hb : s.netBar core w i = some b) :
    exec (.nbarwaitBoundExpiry core wg grp id) s = .next (
      if b.gen.toNat = token ∧ s.cycle < d then s
      else s.completeWait core wg grp x [] (some (if b.gen.toNat = token then .f else .t))) := by
  change execNbarwaitBoundExpiry core wg grp id s = _
  unfold execNbarwaitBoundExpiry
  rw [hw]
  dsimp only
  rw [h]
  dsimp only
  rw [hk]
  dsimp only
  unfold State.wakeNbar
  rw [hb]
  by_cases hp : b.gen.toNat = token <;> by_cases hd : s.cycle < d <;> simp [hp, hd, Nat.not_le.2, Nat.not_lt.1, Tri.ofBool]

theorem group_of_no_wg (h : s.wg core wg = none) : s.group core wg grp = none := by
  unfold State.group
  rw [h]
  rfl

theorem waitReady_of_no_wg (h : s.wg core wg = none) : s.waitReady core wg grp id = none := by
  unfold State.waitReady
  rw [group_of_no_wg h]

end

/-- Settles O41: an equation for each event. -/
theorem issueEventsAct : Obligations.IssueEventsAct := by
  intro core wg grp id s hc k n
  refine ⟨fun h => ?_, fun h => ?_, dutyChange_acts hc, fun g hg => resultWriteback_acts hg, fun x hx => ⟨fun till hk => sleepExpiry_acts hx hk,
    fun w hw => ⟨fun off token d hk => barwaitBound_acts hw hx hk, fun i token d b hk hb => nbarwaitBound_acts hw hx hk hb⟩⟩, fun hw => ?_⟩
  · exact (issueOpportunity_acts hc).trans (if_pos (decide_eq_true h))
  · exact (issueOpportunity_acts hc).trans (if_neg fun e => h (of_decide_eq_true e))
  · simp only [List.forall_mem_cons, List.not_mem_nil, false_implies, implies_true, and_true]
    have hg := group_of_no_wg (grp := grp) hw
    have hx := waitReady_of_no_wg (grp := grp) (id := id) hw
    have ht (run : Workgroup → TileOp → Option State) : tileEvent core wg id s run = .next s := by
      unfold tileEvent
      rw [hw]
    refine ⟨?_, ?_, ?_, ?_, ?_, ?_, ?_, ?_, ?_, ?_, ?_⟩
    · change execResultWriteback core wg grp id s = _
      unfold execResultWriteback
      rw [hg]
    · change execSleepExpiry core wg grp id s = _
      unfold execSleepExpiry
      rw [hx]
    · change execBarwaitBoundExpiry core wg grp id s = _
      unfold execBarwaitBoundExpiry
      rw [hw]
    · change execNbarwaitBoundExpiry core wg grp id s = _
      unfold execNbarwaitBoundExpiry
      rw [hw]
    · change execSlotReturn core wg s = _
      unfold execSlotReturn
      rw [hw]
    · change execPreempt core wg s = _
      unfold execPreempt
      rw [hw]
    · change execPushtRowPlaced core wg s = _
      unfold execPushtRowPlaced
      rw [hw]
    · change execCopyRow core wg id s = _
      unfold execCopyRow
      rw [hw]
    · change execMmaExecute core wg id s = _
      exact ht _
    · change execAzeroExecute core wg id s = _
      exact ht _
    · change execSmxuExecute core wg id s = _
      exact ht _

end Sys2Proof.Laws
end

section
/-!
SUPPORT. Events of a resident workgroup: pushed rows, copies, tile operations, the return of a slot, pre-emption and restoration (R203, R255,
R263, R264, R301).
-/
namespace Sys2Proof.Laws
open Sys2Proof.Machine Sys2Proof.Safety

/-! ## The mark of a pre-emption -/

/-- The workgroup at a slot, where there is one, is marked. -/
def Marked (core slot : Nat) (s : State) : Prop := ∀ v, s.wg core slot = some v → v.preempting = true

section
variable {core slot : Nat} {s : State}

theorem marked_modWg {c w : Nat} {f : Workgroup → Workgroup} (hf : ∀ x, x.preempting = true → (f x).preempting = true) (h : Marked core slot s) :
    Marked core slot (s.modWg c w f) := by
  intro v hv
  by_cases he : core = c ∧ slot = w
  · obtain ⟨rfl, rfl⟩ := he
    rw [State.wg_modWg] at hv
    obtain ⟨x, hx, rfl⟩ := Option.map_eq_some_iff.1 hv
    exact hf x (h x hx)
  · rw [State.wg_modWg_ne _ _ he] at hv
    exact h v hv

theorem marked_modGroup {c w g : Nat} {f : Group → Group} (h : Marked core slot s) : Marked core slot (s.modGroup c w g f) :=
  marked_modWg (fun _ hx => hx) h

theorem marked_foldl {α : Type} {f : State → α → State} {xs : List α} (hf : ∀ t, Marked core slot t → ∀ x, Marked core slot (f t x))
    (h : Marked core slot s) : Marked core slot (xs.foldl f s) := by
  induction xs generalizing s with
  | nil => exact h
  | cons x xs ih => exact ih (hf s h x)

theorem marked_ite {p : Prop} [Decidable p] {t : State} (hs : Marked core slot s) (ht : Marked core slot t) : Marked core slot
    (if p then s else t) := by
  split
  · exact hs
  · exact ht

theorem marked_completeWait {c w g : Nat} {x : Wait} {vs : List (Nat × Elem)} {q : Option Tri} (h : Marked core slot s) :
    Marked core slot (s.completeWait c w g x vs q) := by
  have hg : Marked core slot (s.modGroup c w g (fun y => y.wakeUp x vs q)) := marked_modGroup h
  unfold State.completeWait State.issueRest
  split
  · exact hg
  · exact hg

theorem setWord_preempting (w : Workgroup) (off v : Nat) : (w.setWord off v).preempting = w.preempting := rfl

theorem queueMark_preempting (w : Workgroup) (n g : Nat) (push on : Bool) : (queueMark w n g push on).preempting = w.preempting :=
  setWord_preempting w _ _

theorem setBar_preempting (w : Workgroup) (off : Nat) (b : BarObj) : (w.setBar off b).preempting = w.preempting :=
  (setWord_preempting _ _ _).trans (setWord_preempting w _ _)

theorem unwait_preempting (w : Workgroup) (g : Nat) (x : Wait) : (w.unwait g x).preempting = w.preempting := by
  unfold Workgroup.unwait
  split
  · exact queueMark_preempting ..
  · exact queueMark_preempting ..
  · exact setBar_preempting ..
  · rfl

theorem marked_unwaitGroup {c w g : Nat} (h : Marked core slot s) : Marked core slot (s.unwaitGroup c w g) := by
  unfold State.unwaitGroup
  split
  · exact h
  · exact marked_ite h (marked_modGroup (marked_foldl (fun _ ht _ => marked_modWg (fun x hx => (unwait_preempting x _ _).trans hx) ht) h))

theorem marked_writeAnswers {c w g : Nat} (h : Marked core slot s) : Marked core slot (s.writeAnswers c w g) := by
  unfold State.writeAnswers
  split
  · exact h
  · refine marked_foldl (fun _ ht _ => ?_) h
    split
    · exact marked_ite (marked_completeWait ht) ht
    · exact ht

theorem marked_cancelLoad {c w asid : Nat} {o : Outside} (h : Marked core slot s) : Marked core slot (s.cancelLoad c w asid o) := by
  have hd : Marked core slot (s.dropOutside o.id) := h
  unfold State.cancelLoad
  exact marked_ite hd (marked_modGroup hd)

theorem marked_unwaitSlice {c w : Nat} (h : Marked core slot s) : Marked core slot (s.unwaitSlice c w) := by
  refine marked_modWg (fun x hx => ?_) h
  split
  · exact hx
  · exact (unwait_preempting x _ _).trans hx

/-- A workgroup that stops is marked first (R263). -/
theorem stopWg_marked (w : Workgroup) : Marked core slot (s.stopWg core slot w) := by
  have hm : Marked core slot (s.modWg core slot (fun k => { k with preempting := true })) := by
    intro v hv
    rw [State.wg_modWg] at hv
    obtain ⟨x, -, rfl⟩ := Option.map_eq_some_iff.1 hv
    rfl
  have hw : Marked core slot (((s.modWg core slot (fun k => { k with preempting := true })).withdrawWaiting core slot).withdrawSeals core slot) := by
    have hd : Marked core slot ((s.modWg core slot (fun k => { k with preempting := true })).withdrawWaiting core slot) := marked_ite hm hm
    exact hd
  exact marked_unwaitSlice (marked_foldl (fun _ ht _ => marked_cancelLoad ht)
    (marked_foldl (fun _ ht _ => marked_writeAnswers (marked_unwaitGroup ht)) hw))

/-- A workgroup whose context is saved has left its slot (R264). -/
theorem saveWg_gone (w : Workgroup) : (s.saveWg core slot w).wg core slot = none := by
  unfold State.saveWg
  rw [State.wg_modPkg]
  unfold State.wg
  rw [State.core_modCore]
  exact tget_tdel_same _ _

/-- Pre-emption of a workgroup that goes on (R263). -/
theorem preempt_marks {w : Workgroup} (hw : s.wg core slot = some w) (ha : w.aborted = none) (he : w.ended = false) :
    ∃ t, exec (.preempt core slot) s = .next t ∧ Marked core slot t := by
  change ∃ t, execPreempt core slot s = .next t ∧ _
  unfold execPreempt
  rw [hw]
  dsimp only
  rw [ha, he, if_neg (by decide)]
  generalize (if w.preempting = true then s else s.systemCause causePreempt) = s0
  have hm := stopWg_marked (s := s0) (core := core) (slot := slot) w
  split
  · exact ⟨_, rfl, hm⟩
  · split
    · exact ⟨_, rfl, fun v hv => absurd ((saveWg_gone _).symm.trans hv) (Option.some_ne_none v).symm⟩
    · exact ⟨_, rfl, hm⟩

end

/-! ## Engines -/

section
variable {core slot id : Nat} {s : State} {w : Workgroup}

theorem pushtRow_acts {p : Push} (hw : s.wg core slot = some w) (hp : w.slice.push = some p)
    (hr : (w.fifo p.fifo).entries.length < (w.fifo p.fifo).cap) : exec (.pushtRowPlaced core slot) s =
      if s.pushWaits w p = true then .next s else match s.pushRow core w p with
        | (.error x, s) => .next (s.modSlice core slot (fun sl =>
            { sl with live := false, push := none, ended := .faulted x.1 (sliceFaultAddr p.pc x) false }))
        | (.ok e, s) => .next ((s.modWg core slot (fun w => w.placeRow p e)).chargeUnit core slot) := by
  have hc : w.canPlace = true := by
    unfold Workgroup.canPlace
    rw [hp]
    exact decide_eq_true hr
  change execPushtRowPlaced core slot s = _
  unfold execPushtRowPlaced
  rw [hw]
  dsimp only
  rw [hp]
  dsimp only
  rw [hc]
  by_cases h : s.pushWaits w p = true
  · rw [if_pos (.inr h), if_pos h]
  · rw [if_neg (fun e => e.elim (by decide) h), if_neg h] <;> rfl

theorem copyRow_acts {p : Copy} (hw : s.wg core slot = some w) (hp : w.copies.find? (fun y => y.id = id) = some p) :
    exec (.copyRow core slot id) s = if s.engineWaits w p.span.1 p.span.2 then .next s else match s.copyBytes core w p with
        | (.error x, s) => .next (s.modWg core slot (fun w => w.copyStop p x))
        | (.ok bs, s) => .next ((s.modWg core slot (fun w => w.copyRow p bs)).chargeUnit core slot) := by
  change execCopyRow core slot id s = _
  unfold execCopyRow
  rw [hw]
  dsimp only
  rw [hp] <;> rfl

theorem tileEvent_acts {o : TileOp} {run : Workgroup → TileOp → Option State} (hw : s.wg core slot = some w)
    (ho : w.ops.find? (fun o => o.id = id) = some o) : tileEvent core slot id s run = match w.opReady o with
      | .wait => .next s
      | .stuck => .next (s.modWg core slot (fun w => w.opFault o .matFifo))
      | .go => match run w { o with unfenced := w.opDirty o } with
        | none => .next s
        | some t => .next (t.chargeUnit core slot) := by
  unfold tileEvent
  rw [hw]
  dsimp only
  rw [ho] <;> rfl

/-- A tile operation's event: it waits, faults or executes (R203, R212). -/
theorem tileEvent_cases {o : TileOp} {run : Workgroup → TileOp → Option State} {t : State} (hw : s.wg core slot = some w)
    (ho : w.ops.find? (fun o => o.id = id) = some o) (hr : run w { o with unfenced := w.opDirty o } = some t) :
    (w.opReady o = .wait → tileEvent core slot id s run = .next s) ∧
    (w.opReady o = .stuck → tileEvent core slot id s run = .next (s.modWg core slot (fun w => w.opFault o .matFifo))) ∧
    (w.opReady o = .go → tileEvent core slot id s run = .next (t.chargeUnit core slot)) := by
  rw [tileEvent_acts hw ho]
  refine ⟨fun h => ?_, fun h => ?_, fun h => ?_⟩
  · rw [h]
  · rw [h]
  · rw [h]
    dsimp only
    rw [hr]

theorem slotReturn_acts (hw : s.wg core slot = some w) : exec (.slotReturn core slot) s =
    if w.ended then .next ((s.modCore core (fun c => { c with wgs := tdel c.wgs slot })).modPkg
      (fun p => { p with ctxids := p.ctxids.filter (fun x => decide (x ≠ w.ctxid)) })) else .next s := by
  change execSlotReturn core slot s = _
  unfold execSlotReturn
  rw [hw]

theorem preempt_passes (hw : s.wg core slot = some w) (h : w.aborted ≠ none ∨ w.ended = true) : exec (.preempt core slot) s = .next s := by
  change execPreempt core slot s = _
  unfold execPreempt
  rw [hw]
  exact if_pos (h.imp_left Option.isSome_iff_ne_none.2)

theorem contextRestore_acts {n : Nat} {k : Saved} (hk : s.pkg.saved[n]? = some k) (hf : s.fitsSaved core k = true) :
    exec (.contextRestore n core) s = .next (s.restoreWg n core k) := by
  change execContextRestore n core s = _
  unfold execContextRestore
  rw [hk]
  exact if_pos hf

end

/-- Settles O42: an equation for each event, and the mark that pre-emption keeps. -/
theorem workgroupEventsAct : Obligations.WorkgroupEventsAct := by
  intro core slot id s w hw
  refine ⟨fun p hp hr => ⟨fun hk => ?_, fun hk => ⟨fun e t ht => ?_, fun x t ht => ?_⟩⟩,
    fun p hp => ⟨fun hk => ?_, fun hk => ⟨fun bs t ht => ?_, fun x t ht => ?_⟩⟩, fun o ho => ?_,
    fun he => (slotReturn_acts hw).trans (if_pos he), fun he => (slotReturn_acts hw).trans (if_neg (ne_true_of_eq_false he)),
    preempt_passes hw, preempt_marks hw, fun n k hk hf => contextRestore_acts hk hf⟩
  · exact (pushtRow_acts hw hp hr).trans (if_pos hk)
  · exact (pushtRow_acts hw hp hr).trans ((if_neg (ne_true_of_eq_false hk)).trans (by rw [ht]))
  · exact (pushtRow_acts hw hp hr).trans ((if_neg (ne_true_of_eq_false hk)).trans (by rw [ht]))
  · exact (copyRow_acts hw hp).trans (if_pos hk)
  · exact (copyRow_acts hw hp).trans ((if_neg (ne_true_of_eq_false hk)).trans (by rw [ht]))
  · exact (copyRow_acts hw hp).trans ((if_neg (ne_true_of_eq_false hk)).trans (by rw [ht]))
  · intro event o'
    obtain ⟨n, g, a, work, m, p, u, d⟩ := o
    cases work with
    | mma fa fb rm rs z =>
      change (_ → execMmaExecute core slot id s = _) ∧ (_ → execMmaExecute core slot id s = _) ∧ (_ → execMmaExecute core slot id s = _)
      exact tileEvent_cases hw ho (by rfl)
    | azero =>
      change (_ → execAzeroExecute core slot id s = _) ∧ (_ → execAzeroExecute core slot id s = _) ∧ (_ → execAzeroExecute core slot id s = _)
      exact tileEvent_cases hw ho (by rfl)
    | smxu f v p sigma =>
      change (_ → execSmxuExecute core slot id s = _) ∧ (_ → execSmxuExecute core slot id s = _) ∧ (_ → execSmxuExecute core slot id s = _)
      exact tileEvent_cases hw ho (by rfl)

end Sys2Proof.Laws
end

section
/-!
SUPPORT. Events of the front end, the queues and the clusters (R233, R344, R394 to R409).
-/
namespace Sys2Proof.Laws
open Sys2Proof.Machine Sys2Proof.Safety

/-! ## Queues -/

/-- A queue of a die after a change of it. -/
theorem queue_modQueue (d : Die) (q : Nat) (f : Queue → Queue) : (d.modQueue q f).queue q = f (d.queue q) := by
  unfold Die.modQueue Die.queue tmod tgetD
  rw [tget_tset_same]
  rfl

section
variable {die q v cluster : Nat} {s : State}

theorem doorbell_acts (hd : die < 4) (hq : q < 256) : exec (.doorbell die q v) s = .next (s.doorbell die q v) := by
  change execDoorbell die q v s = _
  exact if_neg (by omega)

/-- What a doorbell makes of the queue (R394, R395). -/
theorem doorbell_eq (die q v : Nat) (s : State) :
    let k := (s.die die).queue q
    let n := BitVec.ofNat 32 v
    s.doorbell die q v =
      if k.enable = true ∧ k.destroying = false ∧ (n - k.read).toNat ≤ 2 ^ k.lgsize.toNat ∧ (n - k.write).toNat ≤ 2 ^ k.lgsize.toNat then
        s.modDie die (fun x => x.modQueue q (fun _ => { k with write := n }))
      else s.modDie die (fun x => x.modQueue q (fun _ => { k with error := true })) := by
  intro k n
  change s.modDie die (fun x => x.modQueue q (fun _ => if k.enable = true ∧ k.destroying = false ∧ (n - k.read).toNat ≤ k.cap ∧
    (n - k.write).toNat ≤ k.cap then { k with write := n } else { k with error := true })) = _
  unfold Queue.cap
  split <;> rfl

theorem queueEnable_acts (hd : die < 4) (hq : q < 256) : exec (.queueEnable die q) s = .next (s.enableQueue die q) := by
  change execQueueEnable die q s = _
  exact if_neg (by omega)

theorem queueDestroy_acts (hd : die < 4) (hq : q < 256) :
    let k := (s.die die).queue q
    let t := s.modDie die (fun x => x.modQueue q (fun _ => { k with destroy := true }))
    exec (.queueDestroy die q) s = .next (if k.destroying then t else t.destroyQueue die q) := by
  intro k t
  have hk : ((t.die die).queue q).destroying = k.destroying := by
    rw [show t.die die = _ from State.die_modDie _ _ _, queue_modQueue]
  change execQueueDestroy die q s = _
  refine (if_neg (by omega)).trans ?_
  change (if ((t.die die).queue q).destroying then Host.Outcome.next t else .next (t.destroyQueue die q)) = _
  rw [hk]
  split <;> rfl

theorem queueDestroyComplete_acts (hd : die < 4) (hq : q < 256) :
    let k := (s.die die).queue q
    exec (.queueDestroyComplete die q) s = .next (
      if k.destroying = true ∧ (s.die die).packets.all (fun p => decide (p.2.source ≠ q)) = true then
        s.modDie die (fun x => x.modQueue q (fun _ => { k with destroying := false })) else s) := by
  intro k
  change execQueueDestroyComplete die q s = _
  refine (if_neg (by omega)).trans ?_
  unfold State.queueIdle
  split <;> rfl

theorem releasePacket_acts (hd : die < 4) (hq : q < 256) : exec (.releasePacketEnqueue die q) s =
    if ((s.die die).queue q).released = [] ∨ ((s.die die).queue q).cap ≤ ((s.die die).queue q).held then .next s
    else .next (s.placeReleased die q 1) := by
  change execReleasePacketEnqueue die q s = _
  exact if_neg (by omega)

/-- One packet that a command released enters the ring (R408, R409). -/
theorem placeReleased_one {b : BitVec 512} {t : List (BitVec 512)} (hr : ((s.die die).queue q).released = b :: t)
    (hc : ¬ ((s.die die).queue q).cap ≤ ((s.die die).queue q).held) : s.placeReleased die q 1 =
      (s.modDie die (fun x => x.modQueue q (fun _ => { (s.die die).queue q with released := t }))).ringWrite die q b none 0 := by
  unfold State.placeReleased
  dsimp only
  rw [hr]
  dsimp only
  rw [if_neg hc]
  rfl

theorem treeCounterUpdate_acts (hd : die < 4) : exec (.treeCounterUpdate die) s =
    .next ((upto (4 * ((96 + 100 - s.cycle % 100) % 100)) 4).foldl (fun s n =>
      let mine := takeSome (fun u => decide (u.slot = n)) 4 (s.die die).treeUpdates
      mine.1.foldl (fun s u => s.treeChange die u) (s.modDie die (fun x => { x with treeUpdates := mine.2 }))) s) := by
  change execTreeCounterUpdate die s = _
  exact if_neg (by omega)

/-- A dispatch step serves the source that is chosen (R397). -/
theorem dispatchStep_acts (hd : die < 4) :
    let served := s.countUnserved die (s.readySources die) (s.chooseSource die)
    exec (.dispatchStep die) s = match s.chooseSource die with
      | none => .next served
      | some (q, _) => if q = 256 then .next (served.serveBin die)
        else match ((served.die die).queue q).serving with
          | some n => .next (served.serveMore die q n)
          | none => .next (served.serveFirst die q) := by
  change execDispatchStep die s = _
  exact if_neg (by omega)

/-! ## Admission and donation -/

theorem mem_prefer {α : Type} {p : α → Bool} {l : List α} {x : α} (h : x ∈ prefer p l) : x ∈ l := by
  unfold prefer at h
  grind

/-- The core that an admission chooses is one of the cluster's, and the workgroup fits it (R233). -/
theorem coreFor_fits {b : BitVec 512} {c : Nat} (h : s.coreFor cluster b = some c) : s.fits c b = true ∧ c ∈ clusterCores cluster := by
  obtain ⟨hm, hf⟩ := List.mem_filter.1 (mem_prefer (List.mem_of_mem_head? h))
  exact ⟨hf, hm⟩

theorem admissible_fits {l : List Assigned} {a : Assigned} {p : Packet} {c : Nat} (h : s.admissible cluster l = some (a, p, c)) :
    s.fits c p.bits = true ∧ c ∈ clusterCores cluster ∧ a ∈ l ∧ tget (s.die (cluster / 24)).packets a.packet = some p := by
  induction l with
  | nil => cases h
  | cons x l ih =>
    unfold State.admissible at h
    have hl : s.admissible cluster l = some (a, p, c) → _ := fun e => (ih e).imp_right fun e => e.imp_right fun e =>
      e.imp_left fun e => List.mem_cons_of_mem x e
    split at h
    · exact hl h
    · next hp =>
      split at h
      · exact hl h
      · next hc =>
        obtain ⟨rfl, rfl, rfl⟩ := by simpa using h
        obtain ⟨hf, hm⟩ := coreFor_fits hc
        exact ⟨hf, hm, List.mem_cons_self .., hp⟩

end

/-- Settles O43: an equation for each event. -/
theorem frontEndEventsAct : Obligations.FrontEndEventsAct := by
  intro die q v cluster s hd hq hc k set
  have hcap : k.cap ≤ k.held ↔ 2 ^ k.lgsize.toNat ≤ (k.write - k.read).toNat := Iff.rfl
  refine ⟨(doorbell_acts hd hq).trans (congrArg _ (doorbell_eq ..)), queueEnable_acts hd hq, queueDestroy_acts hd hq, queueDestroyComplete_acts hd hq,
    fun h => (releasePacket_acts hd hq).trans (if_pos h), fun b t hr hn => ?release, treeCounterUpdate_acts hd, ⟨fun h => ?none, fun prio h => ?bin,
    fun prio h => ?queue⟩, fun h => ?unfit, fun a p c h => ?admitted, fun h => ?refuse, fun j g hn hf hj => ?donate⟩
  case release =>
    have hh : ¬ k.cap ≤ k.held := fun e => absurd (hcap.1 e) (by omega)
    refine (releasePacket_acts hd hq).trans ((if_neg (fun e => e.elim (fun e => ?_) hh)).trans (congrArg _ (placeReleased_one hr hh)))
    exact absurd (hr.symm.trans e) (List.cons_ne_nil b t)
  case none => rw [dispatchStep_acts hd, h]
  case bin =>
    rw [dispatchStep_acts hd, h]
    rfl
  case queue =>
    rw [dispatchStep_acts hd, h]
    dsimp only
    rw [if_neg (by omega)]
    cases (((s.countUnserved die (s.readySources die) (some (q, prio))).die die).queue q).serving with
    | none => rfl
    | some n => rfl
  case unfit =>
    change execWorkgroupAdmission cluster s = _
    refine (if_neg (by omega)).trans ?_
    cases ha : s.admissible cluster (s.cluster cluster).queue with
    | none => rfl
    | some x =>
      obtain ⟨a, p, c⟩ := x
      obtain ⟨hf, hm, hq, hp⟩ := admissible_fits ha
      exact absurd (hf.symm.trans (h a hq p hp c hm)) (by decide)
  case admitted =>
    obtain ⟨hf, hm, hq, -⟩ := admissible_fits h
    refine ⟨hf, hm, hq, ?_⟩
    change execWorkgroupAdmission cluster s = _
    refine (if_neg (by omega)).trans ?_
    rw [h]
  case refuse =>
    have ha : s.asks cluster = false := by
      unfold State.asks
      rw [Bool.and_eq_false_iff, Bool.and_eq_false_iff]
      rcases h with h | h | h
      · exact .inl (.inl (by rw [h]; rfl))
      · exact .inl (.inr (by simpa [Option.isNone_eq_false_iff, Option.isSome_iff_ne_none] using h))
      · exact .inr (by rw [h]; rfl)
    change execDonationRequest cluster s = _
    exact (if_neg (by omega)).trans (if_pos ha)
  case donate =>
    have ha : s.asks cluster = true := by
      unfold State.asks
      rw [hn, hf, hj]
      rfl
    change execDonationRequest cluster s = _
    refine (if_neg (by omega)).trans ((if_neg (by rw [ha]; decide)).trans ?_)
    rw [hj]

end Sys2Proof.Laws
end

section
/-!
SUPPORT. Events of the Churn, the raster units and the bins (R401, R418, R421, R431, R445, R451, R459).
-/
namespace Sys2Proof.Laws
open Sys2Proof.Machine Sys2Proof.Safety

section
variable {die n : Nat} {s : State}

theorem churnPassage_acts (hd : die < 4) (hn : n < 100) : exec (.churnPassage die n) s =
    .next ((upto (4 * ((n + 100 - s.cycle % 100) % 100)) 4).foldl (fun s k => s.passSlot die n k) s) := by
  change execChurnPassage die n s = _
  exact if_neg (by omega)

theorem boardingRead_ends (die n : Nat) (s : State) : ∃ t, exec (.boardingReadReturn die n) s = .next t := by
  change ∃ t, execBoardingReadReturn die n s = .next t
  unfold execBoardingReadReturn
  split
  · exact ⟨_, rfl⟩
  · split
    · exact ⟨_, rfl⟩
    · split <;> exact ⟨_, rfl⟩

theorem boardingRead_loads {x : Slot} (hx : tget (s.die die).slots n = some x) (hs : x.state = .boarding) (hl : x.loaded = false)
    (hu : s.unreadable x.home 8 = false) : exec (.boardingReadReturn die n) s =
      .next ((s.sliceRead 96 x.asid x.key x.home).setSlot die n
        { x with value := BitVec.ofNat 64 ((s.sliceRead 96 x.asid x.key x.home).readPhys x.home 8), loaded := true }) := by
  change execBoardingReadReturn die n s = _
  unfold execBoardingReadReturn
  rw [hx]
  dsimp only
  rw [if_neg (fun e => e.elim (fun e => e hs) (fun e => absurd (hl.symm.trans e) (by decide))), if_neg (ne_true_of_eq_false hu)]

/-! ## Captures -/

/-- A capture's lanes, in order (R427). -/
theorem capLanes_cons (op l : Nat) (o x y : W64) (t : List (Nat × W64 × W64)) :
    (capNew op o x y = none → capLanes op o ((l, x, y) :: t) = none) ∧
    ∀ v, capNew op o x y = some v → capLanes op o ((l, x, y) :: t) = (capLanes op v t).map (fun r => ((l, o) :: r.1, r.2)) := by
  refine ⟨fun h => ?_, fun v h => ?_⟩
  · rw [capLanes, h]
  · rw [capLanes, h]

/-- One capture's passage (R426). -/
theorem capture_passes {r : ChurnReq} {x : Slot} {w : Who} {k : Wait} {op : Nat} {lanes : List (Nat × W64 × W64)} {helpers : List Nat}
    {old : List (Nat × W64)} {v : W64} (hl : r.stage ≠ .lost) (hu : x.use = .word) (hk : x.key = r.key) (ha : x.asid = r.asid)
    (hs : x.state = .aboard) (ht : s.wakeTrap w.core w.wg w.grp k = none) (hw : r.work = .cap op lanes helpers)
    (hc : capLanes op x.value lanes = some (old, v)) (hp : x.poison = false) :
    let fires := decide (op = 8 ∧ v = 0) && x.armed
    s.churnEvent die n x r w k = some (((s.dropReq die r.id).setSlot die n
      { x with value := v, armed := x.armed && !fires, fire := x.fire || fires }).completeWait w.core w.wg w.grp k
        (old.map (fun y => (y.1, y.2.setWidth 128)) ++ helpers.map (fun l => (l, 0))) none) := by
  intro fires
  unfold State.churnEvent
  dsimp only
  rw [if_neg (by simp [hl, hu, hk, ha, hs]), if_neg (by simp [hs]), ht]
  dsimp only
  rw [hw]
  dsimp only
  rw [hc]
  dsimp only
  rw [if_neg (ne_true_of_eq_false hp)]
  rfl

/-! ## Raster units and bins -/

theorem churnLimit_acts {v : Nat} (hd : die < 4) (hn : n < 8) : exec (.churnLimitWrite die n v) s = .next (s.modDie die (fun d =>
    { d with churnLimit := tset d.churnLimit n (BitVec.ofNat 9 (min (v % 512) 336)) })) := by
  change execChurnLimitWrite die n v s = _
  exact if_neg (by omega)

theorem rasterTriangle_rests (h : (s.die die).triangles = []) : exec (.rasterTriangle die) s = .next s := by
  change execRasterTriangle die s = _
  unfold execRasterTriangle
  rw [h]

theorem rasterTriangle_acts {t : Triangle} {r : List Triangle} {p : Pass} (h : (s.die die).triangles = t :: r)
    (hp : tget (s.die die).passes t.pass = some p) :
    exec (.rasterTriangle die) s = .next ((s.modDie die (fun k => { k with triangles := r })).rasterise die p t) := by
  change execRasterTriangle die s = _
  unfold execRasterTriangle
  rw [h]
  dsimp only
  rw [State.die_modDie]
  dsimp only
  rw [hp]

theorem passSeal_ends (die n : Nat) (s : State) : ∃ t, exec (.passSeal die n) s = .next t := by
  change ∃ t, execPassSeal die n s = .next t
  unfold execPassSeal
  split
  · exact ⟨_, rfl⟩
  · split
    · exact ⟨_, rfl⟩
    · split
      · exact ⟨_, rfl⟩
      · split <;> exact ⟨_, rfl⟩

theorem passSeal_waits {p : Pass} {w : Who} {id : Nat} (hp : tget (s.die die).passes n = some p) (hs : p.sealing = some (w, id))
    (h : (∃ x ∈ (s.die die).triangles, x.pass = n) ∨ s.waitReady w.core w.wg w.grp id = none) : exec (.passSeal die n) s = .next s := by
  change execPassSeal die n s = _
  unfold execPassSeal
  rw [hp]
  dsimp only
  rw [hs]
  dsimp only
  by_cases ht : (s.die die).triangles.any (fun t => decide (t.pass = n)) = true
  · rw [if_pos ht]
  · have hw : s.waitReady w.core w.wg w.grp id = none := h.resolve_left fun ⟨x, hx, hn⟩ => ht (List.any_eq_true.2 ⟨x, hx, decide_eq_true hn⟩)
    rw [if_neg ht, hw]
    exact if_pos rfl

/-- The state of a die in which a pass is sealed (R459). -/
theorem passSeal_seals {p : Pass} {w : Who} {id : Nat} {x : Wait} (hp : tget (s.die die).passes n = some p) (hs : p.sealing = some (w, id))
    (ht : ∀ y ∈ (s.die die).triangles, y.pass ≠ n) (hx : s.waitReady w.core w.wg w.grp id = some x) :
    exec (.passSeal die n) s = .next ((s.modDie die (fun k => { k with
        passes := tset k.passes n { p with sealed := true, sealing := none },
        tiles := k.tiles.map (fun y => if y.2.pass = n ∧ y.2.state = .opened then (y.1, { y.2 with state := .sealed }) else y) })).completeWait
          w.core w.wg w.grp x [] none) := by
  have ha : ¬ (s.die die).triangles.any (fun t => decide (t.pass = n)) = true := by
    rw [List.any_eq_true]
    exact fun ⟨y, hy, e⟩ => ht y hy (of_decide_eq_true e)
  have hf (f : Die → Die) : (s.modDie die f).finishReply w id none = (s.modDie die f).completeWait w.core w.wg w.grp x [] none := by
    unfold State.finishReply
    rw [show (s.modDie die f).waitReady w.core w.wg w.grp id = some x from hx]
  change execPassSeal die n s = _
  unfold execPassSeal
  rw [hp]
  dsimp only
  rw [hs]
  dsimp only
  rw [if_neg ha, hx]
  exact (if_neg Bool.false_ne_true).trans (congrArg _ (hf _))

theorem tileScan_ends (die : Nat) (s : State) : ∃ t, exec (.tileScan die) s = .next t := by
  change ∃ t, execTileScan die s = .next t
  unfold execTileScan
  dsimp only
  split
  · split
    · exact ⟨_, rfl⟩
    · split <;> exact ⟨_, rfl⟩
  · exact ⟨_, rfl⟩

theorem tileScan_rests (h : (s.die die).scan ≠ none ∨ ∀ y ∈ (s.die die).tiles, y.2.state ≠ .sealed) : exec (.tileScan die) s = .next s := by
  change execTileScan die s = _
  unfold execTileScan
  dsimp only
  split
  · next e t hs hf =>
    have ht := List.find?_some hf
    exact absurd (of_decide_eq_true ht) (h.resolve_left (fun e => e hs) _ (List.mem_of_find?_eq_some hf))
  · rfl

theorem binTimeout_acts (hn : n < 4096) : exec (.binTimeout die n) s = .next (
    if (s.bin die n).empty = true ∨ s.cycle < (s.bin die n).last + 4096 then s else s.flushBin die n true) := by
  change execBinTimeout die n s = _
  refine (if_neg (by omega)).trans ?_
  split <;> rfl

end

/-- Settles O44: an equation, or an end, for each event. -/
theorem churnAndRasterEventsAct : Obligations.ChurnAndRasterEventsAct := by
  intro die n s hd
  refine ⟨churnPassage_acts hd, fun _ => ⟨boardingRead_ends die n s, fun x hx hs hl hu => boardingRead_loads hx hs hl hu⟩,
    fun o x y => ⟨rfl, rfl, rfl, rfl, rfl, rfl, rfl, rfl, rfl, fun op l t => ⟨rfl, capLanes_cons op l o x y t⟩⟩,
    fun r x w k op lanes helpers old v hl hu hk ha hs ht hw hc hp => capture_passes hl hu hk ha hs ht hw hc hp,
    fun v hn => churnLimit_acts hd hn, rasterTriangle_rests, fun t r p h hp => rasterTriangle_acts h hp, fun _ => ?sealed, ?scanned, binTimeout_acts⟩
  case sealed =>
    obtain ⟨t, ht⟩ := passSeal_ends die n s
    refine ⟨t, ht, fun p w id hp hs => ⟨fun h => ?_, fun x hy hx => ?_⟩⟩
    · exact Host.Outcome.next.inj (ht.symm.trans (passSeal_waits hp hs h))
    · exact Host.Outcome.next.inj (ht.symm.trans (passSeal_seals hp hs hy hx))
  case scanned =>
    obtain ⟨t, ht⟩ := tileScan_ends die s
    exact ⟨t, ht, fun h => Host.Outcome.next.inj (ht.symm.trans (tileScan_rests h))⟩

end Sys2Proof.Laws
end

section
/-!
SUPPORT. Events of the directory, the TLB and the cluster atomic unit (R325, R328, R329, R331, R350 to R353).
-/
namespace Sys2Proof.Laws
open Sys2Proof.Machine Sys2Proof.Safety

section
variable {k pa asid va n : Nat} {s : State}

/-! ## The directory -/

theorem dirEvent_covered (f : State → State) (hk : k < 96) (hd : s.directed pa = true) : dirEvent k pa s f = .next (f s) :=
  if_neg (fun e => e.elim (fun e => absurd hk (by omega)) (fun e => absurd (hd.symm.trans e) (by decide)))

theorem dirEvent_elsewhere (k : Nat) (f : State → State) (hd : s.directed pa = false) : dirEvent k pa s f = .next s := if_pos (.inr hd)

/-- Each request of a cluster, and the forward, is one event at the directory (R352). -/
theorem requests_covered (hk : k < 96) (hd : s.directed pa = true) :
    exec (.gets k pa) s = .next (s.request k (pa / 128) false) ∧ exec (.promotionDemand k pa) s = .next (s.request k (pa / 128) false) ∧
    exec (.getm k pa) s = .next (s.request k (pa / 128) true) ∧ exec (.forward k pa) s =
      .next (s.advanceTrans (pa / 128) (fun t => if t.owner = some k then { t with owner := none } else t)) := by
  change execGets k pa s = _ ∧ execPromotionDemand k pa s = _ ∧ execGetm k pa s = _ ∧ execForward k pa s = _
  exact ⟨dirEvent_covered _ hk hd, dirEvent_covered _ hk hd, dirEvent_covered _ hk hd, dirEvent_covered _ hk hd⟩

theorem requests_elsewhere (hd : s.directed pa = false) : exec (.gets k pa) s = .next s ∧ exec (.getm k pa) s = .next s := by
  change execGets k pa s = _ ∧ execGetm k pa s = _
  exact ⟨dirEvent_elsewhere k _ hd, dirEvent_elsewhere k _ hd⟩

theorem put_crosses {t : Transition} (hk : k < 96) (hd : s.directed pa = true) (ht : s.transOf (pa / 128) = some t) (ho : t.owner = some k) :
    exec (.put k pa) s = .next s := by
  change execPut k pa s = _
  refine (dirEvent_covered _ hk hd).trans (congrArg _ ?_)
  dsimp only
  rw [show s.transOf (lineOf pa) = some t from ht]
  exact if_pos (decide_eq_true ho)

theorem put_gives (hk : k < 96) (hd : s.directed pa = true) (h : ∀ t, s.transOf (pa / 128) = some t → t.owner ≠ some k) :
    exec (.put k pa) s = .next ((s.dropLine k (pa / 128)).dirPut k (pa / 128) (s.dirtyIn k (pa / 128))) := by
  change execPut k pa s = _
  refine (dirEvent_covered _ hk hd).trans (congrArg _ ?_)
  dsimp only
  cases ht : s.transOf (lineOf pa) with
  | none => exact if_neg Bool.false_ne_true
  | some t => exact if_neg (fun e => h t ht (of_decide_eq_true e))

theorem memoryFillReturn_acts (hd : s.directed pa = true) : exec (.memoryFillReturn pa) s =
    .next ((s.l2Fill (pa / 128)).advanceTrans (pa / 128) (fun t => { t with fill := false })) := by
  change execMemoryFillReturn pa s = _
  exact if_neg (fun e => absurd (hd.symm.trans e) (by decide))

theorem invalidationAcknowledgement_acts {t : Transition} (hk : k < 96) (hd : s.directed pa = true) (ht : s.transOf (pa / 128) = some t)
    (ha : t.acks &&& oneSharer k ≠ 0) : exec (.invalidationAcknowledgement k pa) s =
      .next ((((s.markDirty (pa / 128) (s.dirtyIn k (pa / 128))).dropLine k (pa / 128)).modDir (pa / 128) (fun e =>
        { e with sharers := e.sharers &&& ~~~(oneSharer k) })).advanceTrans (pa / 128)
          (fun t => { t with acks := t.acks &&& ~~~(oneSharer k) })) := by
  change execInvalidationAcknowledgement k pa s = _
  refine (dirEvent_covered _ hk hd).trans (congrArg _ ?_)
  dsimp only
  rw [show s.transOf (lineOf pa) = some t from ht]
  exact if_pos (decide_eq_true ha)

theorem l2Eviction_acts (hd : s.directed pa = true) :
    exec (.l2Eviction pa) s = .next (if s.transOf (pa / 128) = none then s.evictLine (pa / 128) else s) := by
  change execL2Eviction pa s = _
  refine (if_neg (fun e => absurd (hd.symm.trans e) (by decide))).trans ?_
  change (if (s.transOf (lineOf pa)).isSome then _ else _) = Host.Outcome.next (if s.transOf (lineOf pa) = none then _ else _)
  cases s.transOf (lineOf pa) <;> rfl

/-! ## The TLB and the atomic unit -/

theorem tlbWalkFill_walks (hk : k < 96) (hg : BitVec.ofNat 16 n ≠ (s.cluster k).walkGen) : exec (.tlbWalkFill k asid va n) s =
    .next { s with inbox := s.inbox ++ [.tlbWalkFill k asid va (s.cluster k).walkGen.toNat] } := by
  change execTlbWalkFill k asid va n s = _
  exact (if_neg (by omega)).trans (if_pos hg)

theorem tlbWalkFill_fills {e : TlbEntry} (hk : k < 96) (hg : BitVec.ofNat 16 n = (s.cluster k).walkGen) (hw : s.walk asid va = .ok e)
    (ht : s.tlbHit k asid va = none) : exec (.tlbWalkFill k asid va n) s = .next (s.modCluster k (fun c => c.fillTlb e)) := by
  change execTlbWalkFill k asid va n s = _
  refine (if_neg (by omega)).trans ((if_neg (not_not_intro hg)).trans ?_)
  rw [hw, ht]
  exact if_neg Bool.false_ne_true

theorem tlbInvalidation_acts (hk : k < 96) (hn : n < 3) : exec (.tlbInvalidation k n asid va) s =
    if s.invPending [k] n asid va = true then .next { s with inbox := s.inbox ++ [.tlbInvalidation k n asid va] }
    else .next (s.invalidate k n asid va) := by
  change execTlbInvalidation k n asid va s = _
  exact if_neg (by omega)

theorem clusterAtomic_rests (hk : k < 96) (h : (s.cluster k).atomReqs = []) : exec (.clusterAtomic k) s = .next s := by
  change execClusterAtomic k s = _
  refine (if_neg (by omega)).trans ?_
  rw [h]

theorem clusterAtomic_applies {r : AtomReq} {t : List AtomReq} {w : Workgroup} (hk : k < 96) (h : (s.cluster k).atomReqs = r :: t)
    (hw : s.wg r.who.core r.who.wg = some w) (hu : w.uid = r.who.uid) :
    let q := (s.modCluster k (fun c => { c with atomReqs := t })).unitLanes k r r.lanes
    exec (.clusterAtomic k) s = .next (q.2.modGroup r.who.core r.who.wg r.who.grp (fun g => g.unitAnswer r q.1)) := by
  intro q
  change execClusterAtomic k s = _
  refine (if_neg (by omega)).trans ?_
  rw [h]
  dsimp only
  rw [show (s.modCluster k (fun c => { c with atomReqs := t })).wg r.who.core r.who.wg = some w from hw]
  exact if_pos hu

end

/-- Settles O45: an equation for each event. -/
theorem cacheEventsAct : Obligations.CacheEventsAct := by
  intro k pa asid va n s hk
  refine ⟨fun hd => ?_, requests_elsewhere, tlbWalkFill_walks hk, fun _ => tlbWalkFill_fills hk, fun hn => ⟨fun h => ?_, fun h => ?_⟩,
    clusterAtomic_rests hk, fun _ _ _ => clusterAtomic_applies hk⟩
  · obtain ⟨hgets, hpromote, hgetm, hforward⟩ := requests_covered hk hd
    exact ⟨hgets, hpromote, hgetm, fun _ => put_crosses hk hd, put_gives hk hd, hforward, memoryFillReturn_acts hd,
      fun _ => invalidationAcknowledgement_acts hk hd, l2Eviction_acts hd⟩
  · exact (tlbInvalidation_acts hk hn).trans (if_pos h)
  · exact (tlbInvalidation_acts hk hn).trans (if_neg (ne_true_of_eq_false h))

end Sys2Proof.Laws
end

section
/-!
SUPPORT. Events of the on-die network, and errors (R356, R359, R366 to R369, R515, R517).
-/
namespace Sys2Proof.Laws
open Sys2Proof.Machine Sys2Proof.Safety

section
variable {die n v : Nat} {s : State}

/-! ## The divisible array -/

theorem splitRegisterWrite_acts (hd : die < 4) (hn : n < 8) : exec (.splitRegisterWrite die n v) s = .next (s.writeSplit die n v) := by
  change execSplitRegisterWrite die n v s = _
  exact if_neg (by omega)

theorem resizeComplete_acts (hd : die < 4) (hn : n < 8) :
    exec (.resizeComplete die n) s = .next (if (s.die die).resizes.head? = some n then s.finishResize die n else s) := by
  change execResizeComplete die n s = _
  refine (if_neg (by omega)).trans ?_
  split <;> rfl

/-! ## Routers -/

/-- An event at a router of this package's network changes that router alone (R366). -/
theorem routerEvent_acts (f : Router → Router) (hd : die < 4) (hn : n < 24) :
    routerEvent die n s f = .next (s.modDie die (fun k => { k with routers := tset k.routers n (f ((s.die die).router n)) })) :=
  if_neg (by omega)

/-- Routers with no unit but clusters (R362). -/
theorem routerAttached_eq_false_iff (n : Nat) :
    routerAttached n = false ↔ n % 4 ≠ 3 ∧ n ≠ 1 ∧ n ≠ 9 ∧ n ≠ 13 ∧ n ≠ 6 ∧ n ≠ 18 := by
  unfold routerAttached
  rw [decide_eq_false_iff_not]
  simp only [not_or]

theorem routerIdleGate_acts (hd : die < 4) (hn : n < 24) : exec (.routerIdleGate die n) s =
    .next (s.modDie die (fun k => { k with routers := tset k.routers n (
      if (n % 4 ≠ 3 ∧ n ≠ 1 ∧ n ≠ 9 ∧ n ≠ 13 ∧ n ≠ 6 ∧ n ≠ 18) ∧ ((s.die die).router n).state = .on ∧
          ((s.die die).router n).last + 2048 ≤ s.cycle ∧ (s.die die).forbid.getLsbD n = false
      then { (s.die die).router n with state := .gating, till := s.cycle + 8 } else (s.die die).router n) })) := by
  change execRouterIdleGate die n s = _
  refine (routerEvent_acts _ hd hn).trans ?_
  simp only [routerAttached_eq_false_iff]

theorem wake_eq (x : Router) (now : Nat) : x.wake now = if x.state = .gated then { x with state := .waking, till := now + 40 }
    else if x.state = .gating then { x with state := .on, last := now } else x := by
  unfold Router.wake
  cases h : x.state <;> rfl

theorem routerWake_acts (hd : die < 4) (hn : n < 24) : exec (.routerWake die n) s =
    .next (s.modDie die (fun k => { k with routers := tset k.routers n (
      if ((s.die die).router n).state = .gated then { (s.die die).router n with state := .waking, till := s.cycle + 40 }
      else if ((s.die die).router n).state = .gating then { (s.die die).router n with state := .on, last := s.cycle }
      else (s.die die).router n) })) := by
  change execRouterWake die n s = _
  refine (routerEvent_acts _ hd hn).trans ?_
  rw [wake_eq]

theorem routerGatingWrite_acts (hd : die < 4) : exec (.routerGatingWrite die v) s = .next (s.writeGating die v) := by
  change execRouterGatingWrite die v s = _
  exact if_neg (by omega)

/-! ## Links -/

theorem linkFlitRetry_acts (hd : die < 4) (hn : n < 51) :
    let old := tgetD (s.die die).linkRetries n 0
    let put := fun (t : State) (x : Nat) => t.modDie die (fun k => { k with linkRetries := tset k.linkRetries n x })
    exec (.linkFlitRetry die n v) s = .next (if old = linkOut then s
      else if v = 1 then put (s.count 6 (sourceOf die 0xFFF)) 0 else if old < 15 then put s (old + 1) else (put s linkOut).firmwareCause 3) := by
  intro old put
  change execLinkFlitRetry die n v s = _
  refine (if_neg (not_or.2 ⟨by omega, Nat.not_le.2 hn⟩)).trans (congrArg _ ?_)
  change (if old = linkOut then s else if decide (v = 1) = true then put (s.count 6 (sourceOf die 0xFFF)) 0
    else if 15 ≤ old then (put s linkOut).firmwareCause 3 else put s (old + 1)) = _
  by_cases h : old < 15
  · rw [if_neg (show ¬ 15 ≤ old by omega), if_pos h]
    simp only [decide_eq_true_eq]
  · rw [if_pos (show 15 ≤ old by omega), if_neg h]
    simp only [decide_eq_true_eq]

/-! ## Errors -/

theorem uncorrectableError_strikes {site : ErrSite} {t : State} (h : s.uncorrectable site = some t) :
    exec (.uncorrectableError site) s = .next t := by
  change Host.Outcome.next ((s.uncorrectable site).getD s) = _
  rw [h]
  rfl

theorem uncorrectableError_nowhere {site : ErrSite} (h : s.uncorrectable site = none) : exec (.uncorrectableError site) s = .next s := by
  change Host.Outcome.next ((s.uncorrectable site).getD s) = _
  rw [h]
  rfl

/-- A damaged core's workgroups abort (R517). -/
theorem coreControl_aborts (hn : n < 384) : exec (.uncorrectableError (.coreControl n)) s =
    .next (((s.firmwareCause 4).core n).wgs.foldl (fun s w => s.abortWg n w.1 0x0B) (s.firmwareCause 4)) :=
  uncorrectableError_strikes ((if_neg (by omega)).trans (congrArg some List.foldl_map))

theorem scrubRead_acts (h : s.isLocal n = true) : exec (.scrubRead n 0) s = .next s ∧
    exec (.scrubRead n 1) s = .next ((s.count 6 (sourceOf (s.homeDie n) (0x400 + s.controller n))).tally (s.bankCounter n)) ∧
    exec (.scrubRead n 2) s = .next (s.loseLine (n / 128)) := by
  have hl : ¬ s.isLocal n = false := fun e => absurd (h.symm.trans e) (by decide)
  change execScrubRead n 0 s = _ ∧ execScrubRead n 1 s = _ ∧ execScrubRead n 2 s = _
  exact ⟨if_neg hl, if_neg hl, if_neg hl⟩

end

/-- Settles O46: an equation for each event. -/
theorem networkAndErrorEventsAct : Obligations.NetworkAndErrorEventsAct := by
  intro die n v s hd
  exact ⟨fun hn => ⟨splitRegisterWrite_acts hd hn, resizeComplete_acts hd hn⟩,
    fun hn => ⟨routerIdleGate_acts hd hn, routerEvent_acts _ hd hn, routerWake_acts hd hn, routerEvent_acts _ hd hn⟩,
    routerGatingWrite_acts hd, linkFlitRetry_acts hd, fun _ _ => uncorrectableError_strikes, fun _ => uncorrectableError_nowhere,
    coreControl_aborts, fun _ => rfl, scrubRead_acts⟩

end Sys2Proof.Laws
end

section
/-!
SUPPORT. Events of power and thermal control (R505 to R507, R510).
-/
namespace Sys2Proof.Laws
open Sys2Proof.Machine Sys2Proof.Safety

/-- What a table holds after a function of its values. -/
theorem tgetD_map {α : Type} (t : Tab α) (k : Nat) (d : α) (f : α → α) (hd : f d = d) :
    tgetD (t.map (fun x => (x.1, f x.2))) k d = f (tgetD t k d) := by
  induction t with
  | nil => exact hd.symm
  | cons x t ih =>
    change ((if x.1 = k then some (f x.2) else tget (t.map (fun x => (x.1, f x.2))) k)).getD d =
      f ((if x.1 = k then some x.2 else tget t k).getD d)
    by_cases h : x.1 = k
    · rw [if_pos h, if_pos h]
      rfl
    · rw [if_neg h, if_neg h]
      exact ih

section
variable {die n v : Nat} {s : State}

/-! ## Duties change at multiples of 16 -/

theorem latchDuties_part (h : s.cycle % 16 = 0) (n : Nat) : s.latchDuties.part n = (s.part n).latch := by
  unfold State.latchDuties
  rw [if_pos h]
  exact tgetD_map s.pkg.parts n Partition.reset Partition.latch rfl

theorem latchDuties_die (h : s.cycle % 16 = 0) (d : Nat) : s.latchDuties.die d = (s.die d).latch s.cycle := by
  unfold State.latchDuties
  rw [if_pos h]
  exact tgetD_map s.dies d Die.reset (·.latch s.cycle) rfl

/-- The limiter's duty while a droop lasts (R507). -/
theorem latchDuties_limiter {t : Nat} (hc : s.cycle % 16 = 0) (ht : (s.die die).limiterTill = some t) (hl : s.cycle < t) :
    (s.latchDuties.die die).limiterDuty = 8 := by
  rw [latchDuties_die hc]
  unfold Die.latch
  dsimp only
  rw [ht]
  exact if_pos (decide_eq_true hl)

/-! ## Partitions and the limiter -/

theorem powerCapWrite_acts (hn : n < 8) : exec (.powerCapWrite n v) s =
    .next (s.modPart n (fun p => { p with cap := BitVec.ofNat 12 (min (v / 2 ^ 32 % 2 ^ 12) 2400) })) := by
  change execPowerCapWrite n v s = _
  exact if_neg (by omega)

theorem partitionPowerInterval_rests (hn : n < 8) (hc : s.cycle % 19000 ≠ 0) : exec (.partitionPowerInterval n) s = .next s := by
  change execPartitionPowerInterval n s = _
  exact (if_neg (by omega)).trans (if_neg hc)

/-- A partition at the end of an interval, where the duty changes at once in a cycle that is a multiple of 16 (R505, R506). -/
theorem interval_latch (p : Partition) (idle now : Nat) :
    (if now % 16 = 0 then (p.interval idle).latch else p.interval idle) =
      { p with nextK := nextDuty p.cap.toNat p.k (p.charged + idle)
               k := if now % 16 = 0 then nextDuty p.cap.toNat p.k (p.charged + idle) else p.k
               energy := p.energy + (p.charged + idle), power := powerOf (p.charged + idle), charged := 0 } := by
  split <;> rfl

/-- A cap of 0 sets no limit (R506). -/
theorem nextDuty_of_cap (cap : BitVec 12) (k e : Nat) : nextDuty cap.toNat k e =
    if cap = 0 then 16 else if cap.toNat * 10 < e then max 1 (k - 1) else if e * 16 < cap.toNat * 150 then min 16 (k + 1) else k := by
  unfold nextDuty
  have hc : cap.toNat = 0 ↔ cap = 0 := ⟨fun h => BitVec.eq_of_toNat_eq h, fun h => congrArg BitVec.toNat h⟩
  simp only [hc]

theorem partitionPowerInterval_acts (hn : n < 8) (hc : s.cycle % 19000 = 0) :
    exec (.partitionPowerInterval n) s = .next (s.modPart n (fun p =>
      let e := p.charged + Config.idleEnergy n s.cycle
      let next := if p.cap = 0 then 16 else if p.cap.toNat * 10 < e then max 1 (p.k - 1)
        else if e * 16 < p.cap.toNat * 150 then min 16 (p.k + 1) else p.k
      { p with nextK := next, k := if s.cycle % 16 = 0 then next else p.k,
               energy := p.energy + e, power := BitVec.ofNat 32 (min (e * 100) (2 ^ 32 - 1)), charged := 0 })) := by
  change execPartitionPowerInterval n s = _
  refine (if_neg (by omega)).trans ((if_pos hc).trans (congrArg (fun f => Host.Outcome.next (s.modPart n f)) (funext fun p => ?_)))
  dsimp only
  rw [interval_latch, nextDuty_of_cap]
  rfl

theorem currentDroop_acts (hd : die < 4) : exec (.currentDroop die) s = .next (((s.modDie die (fun d =>
    { d with limiterTill := some ((s.cycle / 16 + 1) * 16 + 64) })).count 9 (sourceOf die 0xFFF)).tally (0x5E8 + die)) := by
  change execCurrentDroop die s = _
  exact if_neg (by omega)

theorem limiterRestore_acts {t : Nat} (hd : die < 4) (ht : (s.die die).limiterTill = some t) : exec (.limiterRestore die) s = .next (
    if t ≤ s.cycle then s.modDie die (fun d => { d with limiterDuty := 16, limiterTill := none }) else s) := by
  change execLimiterRestore die s = _
  refine (if_neg (by omega)).trans ?_
  rw [ht]
  by_cases h : t ≤ s.cycle
  · rw [if_pos h]
    exact if_pos (decide_eq_true h)
  · rw [if_neg h]
    exact if_neg (fun e => h (of_decide_eq_true e))

theorem limiterRestore_rests (hd : die < 4) (ht : (s.die die).limiterTill = none) : exec (.limiterRestore die) s = .next s := by
  change execLimiterRestore die s = _
  refine (if_neg (by omega)).trans ?_
  rw [ht]
  exact if_neg Bool.false_ne_true

/-! ## Thermal control -/

/-- After a trip no workgroup is resident on any core (R510). -/
theorem trip_ends (s : State) : s.trip.pkg.boot = .tripped ∧ ∀ c, (s.trip.core c).wgs = [] := by
  unfold State.trip
  dsimp only
  generalize (upto 0 4).foldl (fun s d => s.withdrawChurn d (fun _ => true)) s = t
  exact ⟨rfl, fun c => congrArg Core.wgs (tgetD_map t.cores c Core.reset Core.off rfl)⟩

theorem thermalSensor_acts {temp : Int} (hd : die < 4) (hn : n < 96) : exec (.thermalSensor die n temp) s = .next (s.sense die n temp) := by
  change execThermalSensor die n temp s = _
  exact if_neg (by omega)

theorem thermalTrip_acts (hd : die < 4) : exec (.thermalTrip die) s = .next s.trip := by
  change execThermalTrip die s = _
  exact if_neg (by omega)

theorem thermalForecast_acts (peaks : List Int) (hd : die < 4) : ∃ t, exec (.thermalForecast die peaks) s = .next t ∧ t.mem = s.mem := by
  change ∃ t, execThermalForecast die peaks s = .next t ∧ t.mem = s.mem
  refine ⟨_, if_neg (by omega), ?_⟩
  exact foldl_keeps State.mem _ _ s (fun _ _ _ => rfl)

end

/-- Settles O49: an equation for each event, and what a trip leaves. -/
theorem powerEventsAct : Obligations.PowerEventsAct := by
  intro die n v s
  refine ⟨fun hn => ⟨fun hc => ?part, powerCapWrite_acts hn, partitionPowerInterval_rests hn, partitionPowerInterval_acts hn⟩,
    fun hd => ⟨currentDroop_acts hd, fun _ => limiterRestore_acts hd, limiterRestore_rests hd, fun temp hn ht => ?cool, fun temp hn ht => ?hot,
      ⟨s.trip, thermalTrip_acts hd, trip_ends s⟩, fun _ => latchDuties_limiter, fun hc => ?thermal, fun peaks => thermalForecast_acts peaks hd⟩⟩
  case part => rw [latchDuties_part hc]; rfl
  case cool => exact (thermalSensor_acts hd hn).trans (congrArg _ (if_neg (by omega)))
  case hot =>
    refine ⟨_, (thermalSensor_acts hd hn).trans (congrArg _ (if_pos ht)), trip_ends _⟩
  case thermal => rw [latchDuties_die hc]; rfl

end Sys2Proof.Laws
end

section
/-!
SUPPORT. Events of the fabric (R519 to R528).
-/
namespace Sys2Proof.Laws
open Sys2Proof.Machine Sys2Proof.Safety

section
variable {port id : Nat} {r : RemoteReq} {s : State}

/-! ## Ports and flits -/

theorem portEvent_acts (f : Port → State) (hp : port < 144) : portEvent port s f = .next (f (s.port port)) := if_neg (by omega)

/-- A port takes flits: it is in service and need not retrain (R520, R521). -/
theorem port_serves_iff (p : Port) : (p.inService = true ∧ p.mustRetrain = false) ↔
    p.enable = true ∧ p.up = true ∧ p.failed = false ∧ p.crcRefusals < 32 := by
  unfold Port.inService Port.mustRetrain
  simp [and_assoc]

/-- A flit is refused or discarded (R520). -/
theorem flit_dropped_iff (p : Port) (flit : Flit) :
    (p.inService = false ∨ p.mustRetrain = true ∨ flit.crcOk = false ∨ flit.space = false ∨ p.rxSeq.toNat ≠ flit.seq % 4096) ↔
    (¬ (p.enable = true ∧ p.up = true ∧ p.failed = false ∧ p.crcRefusals < 32) ∨ flit.crcOk = false ∨ flit.space = false ∨
      p.rxSeq.toNat ≠ flit.seq % 4096) := by
  rw [← port_serves_iff, Classical.not_and_iff_not_or_not, Bool.not_eq_true, Bool.not_eq_false, or_assoc]

theorem flitReceive_takes {flit : Flit} (hp : port < 144) (hs : (s.port port).enable = true ∧ (s.port port).up = true ∧
      (s.port port).failed = false ∧ (s.port port).crcRefusals < 32) (hc : flit.crcOk = true) (hf : flit.space = true)
    (hq : (s.port port).rxSeq.toNat = flit.seq % 4096) : exec (.flitReceive port flit) s =
      .next ((flit.msg :: flit.second.toList).foldl (fun t m => t.answerRemote m.access (if m.ok then some (leNat m.data) else none))
        (s.modPort port (fun x => { x with rxSeq := x.rxSeq + 1 }))) := by
  change execFlitReceive port flit s = _
  refine (portEvent_acts _ hp).trans (congrArg _ (if_neg (mt (flit_dropped_iff _ _).1 ?_)))
  rw [hc, hf]
  exact fun e => e.elim (fun e => e hs) (fun e => e.elim nofun (fun e => e.elim nofun (fun e => e hq)))

theorem flitReceive_drops {flit : Flit} (hp : port < 144) (h : ¬ ((s.port port).enable = true ∧ (s.port port).up = true ∧
      (s.port port).failed = false ∧ (s.port port).crcRefusals < 32) ∨ flit.crcOk = false ∨ flit.space = false ∨
      (s.port port).rxSeq.toNat ≠ flit.seq % 4096) : exec (.flitReceive port flit) s = .next s := by
  change execFlitReceive port flit s = _
  exact (portEvent_acts _ hp).trans (congrArg _ (if_pos ((flit_dropped_iff _ _).2 h)))

theorem flitRefusal_acts (seq crc : Nat) (hp : port < 144) :
    exec (.flitRefusal port seq crc) s = .next (s.modPort port (fun p => p.refuse seq (decide (crc = 1)))) := by
  change execFlitRefusal port seq crc s = _
  exact portEvent_acts _ hp

theorem portRetrain_acts (ok : Nat) (hp : port < 144) : exec (.portRetrain port ok) s =
    .next (if (s.port port).enable = true ∧ (s.port port).failed = false then s.retrain port (decide (ok = 1)) else s) := by
  change execPortRetrain port ok s = _
  exact portEvent_acts _ hp

/-! ## Accesses of other packages -/

/-- An event at an address that no migration or bias flip stops is performed at once. -/
theorem hostWait_goes {i : Instr} {pa : Nat} (f : State → State) (h : s.stopped pa = false) : hostWait i pa s f = f s :=
  if_neg (ne_true_of_eq_false h)

/-- An access that a package can send (R519). -/
theorem inboundAccess_performs (hs : r.src < 126) (h0 : 0 < r.size) (h1 : r.size ≤ 128) (ha : r.kind ≠ .atomic ∨ r.size ≤ 8)
    (ht : s.stopped r.pa = false) : exec (.inboundAccess r) s = .next (s.inboundAccess r) := by
  change execInboundAccess r s = _
  have hk : ¬ (r.kind = .atomic ∧ 8 < r.size) := fun ⟨hk, hn⟩ => ha.elim (fun e => e hk) (fun e => absurd hn (by omega))
  have hl : ¬ (126 ≤ r.src ∨ r.size = 0 ∨ 128 < r.size ∨ (r.kind = .atomic ∧ 8 < r.size)) := by simp only [hk, or_false]; omega
  exact (if_neg hl).trans (congrArg _ (hostWait_goes _ ht))

theorem remoteAtomic_performs (hs : r.src < 126) (hk : r.kind = .atomic) (hn : r.size = 4 ∨ r.size = 8) (hp : r.pa % r.size = 0)
    (ho : r.aop < 15) (ht : s.stopped r.pa = false) : exec (.remoteAtomic r) s = .next (s.inboundAccess r) := by
  change execRemoteAtomic r s = _
  refine (if_neg ?_).trans (congrArg _ (hostWait_goes _ ht))
  simp only [hk, ne_eq, not_true_eq_false, false_or]
  omega

theorem inboundAccess_refuses (h : s.inboundOk r = false ∨ s.ownable r.pa r.size = false ∨ s.inboundLost r = true) :
    s.inboundAccess r = s.reply r none := if_pos h

section
variable (h : ¬ (s.inboundOk r = false ∨ s.ownable r.pa r.size = false ∨ s.inboundLost r = true))
include h

theorem inboundAccess_reads (hk : r.kind = .read) :
    s.inboundAccess r = (s.sliceRead 96 noAsid 0 r.pa).reply r (some (s.readPhys r.pa r.size)) := by
  refine (if_neg h).trans ?_
  rw [hk]

theorem inboundAccess_writes (hk : r.kind = .write) :
    s.inboundAccess r = (s.inboundWrite r.pa (leBytes r.size r.data.toNat)).reply r (some 0) := by
  refine (if_neg h).trans ?_
  rw [hk]

theorem inboundAccess_applies (hk : r.kind = .atomic) : s.inboundAccess r = s.remoteAtomic r := by
  refine (if_neg h).trans ?_
  rw [hk]

end

/-! ## Completion -/

theorem remoteWriteAck_rests (h : s.outsideOf id = none) : exec (.remoteWriteAck id) s = .next s := by
  change execRemoteWriteAck id s = _
  unfold execRemoteWriteAck
  rw [h]

theorem answerRemote_acts {o : Outside} (v : Option Nat) (h : s.outsideOf id = some o) (hp : o.package < 126) :
    s.answerRemote id v = (s.acknowledge id).answer o v := by
  unfold State.answerRemote
  rw [h]
  exact if_pos hp

theorem remoteWriteAck_completes {o : Outside} (h : s.outsideOf id = some o) (hw : o.work = .store) (hp : o.package < 126) :
    exec (.remoteWriteAck id) s = .next ((s.acknowledge id).answer o (some 0)) := by
  change execRemoteWriteAck id s = _
  unfold execRemoteWriteAck
  rw [h]
  exact (if_pos (.inl hw)).trans (congrArg _ (answerRemote_acts _ h hp))

theorem peerReset_acts (hp : id < 126) : exec (.peerReset id) s = .next ((s.pkg.outside.filter (fun o => decide (o.package = id))).foldl
    (fun s o => (s.acknowledge o.id).answer o none) s) := by
  change execPeerReset id s = _
  exact if_neg (by omega)

end

/-- Settles O48: an equation for each event. -/
theorem fabricEventsAct : Obligations.FabricEventsAct := by
  intro port id r s
  refine ⟨fun hp => ⟨fun _ => flitReceive_takes hp, fun _ => flitReceive_drops hp, fun seq crc => flitRefusal_acts seq crc hp,
      fun ok he hf => (portRetrain_acts ok hp).trans (congrArg _ (if_pos ⟨he, hf⟩)), fun ok h => ?idle⟩,
    ⟨fun ⟨hs, h0, h1, ha, ht⟩ h => ?refused, fun ⟨hs, h0, h1, ha, ht⟩ h hk => ?reads, fun ⟨hs, h0, h1, ha, ht⟩ h hk => ?writes,
      fun hs hk hn hp ho ht h => ?atomic⟩,
    remoteWriteAck_rests, fun _ => remoteWriteAck_completes, peerReset_acts⟩
  case idle =>
    refine (portRetrain_acts ok hp).trans (congrArg _ (if_neg fun ⟨he, hf⟩ => h.elim (fun e => ?_) (fun e => ?_)))
    · exact absurd (he.symm.trans e) (by decide)
    · exact absurd (hf.symm.trans e) (by decide)
  case refused => exact (inboundAccess_performs hs h0 h1 ha ht).trans (congrArg _ (inboundAccess_refuses h))
  case reads => exact (inboundAccess_performs hs h0 h1 ha ht).trans (congrArg _ (inboundAccess_reads h hk))
  case writes => exact (inboundAccess_performs hs h0 h1 ha ht).trans (congrArg _ (inboundAccess_writes h hk))
  case atomic => exact (remoteAtomic_performs hs hk hn hp ho ht).trans (congrArg _ (inboundAccess_applies h hk))

end Sys2Proof.Laws
end

section
/-!
SUPPORT. Events of migration, bias, the host link and MMIO (R486, R487, R492 to R499, R503).
-/
namespace Sys2Proof.Laws
open Sys2Proof.Machine Sys2Proof.Safety

section
variable {die n v : Nat} {s : State}

/-! ## Migration -/

/-- A command without its go bit, which does not clear the error, does nothing (R485). -/
theorem migrationCommand_rests (h0 : v % 2 = 0) (h62 : v / 2 ^ 62 % 2 = 0) : s.migrationCommand v = s := by
  unfold State.migrationCommand
  dsimp only
  rw [if_neg (show ¬ v / 2 ^ 62 % 2 = 1 by omega), if_pos h0]

section
variable {m : Migration} (hm : s.pkg.migration = some m)
include hm

theorem migrationComplete_waits (h : ∃ b ∈ s.pkg.boarded, 8 * b.word / 65536 = m.src / 65536) : exec .migrationComplete s = .next s := by
  obtain ⟨b, hb, he⟩ := h
  change execMigrationComplete s = _
  unfold execMigrationComplete
  rw [hm]
  exact if_pos (List.any_eq_true.2 ⟨b, hb, decide_eq_true he⟩)

/-- A migration that completes leaves none, and the command register is not busy (R487). -/
theorem migrationComplete_ends (h : ∀ b ∈ s.pkg.boarded, 8 * b.word / 65536 ≠ m.src / 65536) :
    ∃ t, exec .migrationComplete s = .next t ∧ t.pkg.migration = none ∧ t.pkg.regs.busy = false := by
  have hb : ¬ s.pageBoarded m.src = true := fun e =>
    have ⟨b, hb, he⟩ := List.any_eq_true.1 e
    h b hb (of_decide_eq_true he)
  change ∃ t, execMigrationComplete s = .next t ∧ _
  unfold execMigrationComplete
  rw [hm]
  dsimp only
  rw [if_neg hb]
  exact ⟨_, rfl, rfl, rfl⟩

end

theorem migrationComplete_rests (hm : s.pkg.migration = none) : exec .migrationComplete s = .next s := by
  change execMigrationComplete s = _
  unfold execMigrationComplete
  rw [hm]

/-! ## Bias -/

theorem biasFlip_acts (hd : die < 4) : exec (.biasFlip die v) s = .next (s.writeBias die v) := by
  change execBiasFlip die v s = _
  exact if_neg (by omega)

theorem biasFlipComplete_acts (hd : die < 4) : exec (.biasFlipComplete die) s = .next (s.endFlip die) := by
  change execBiasFlipComplete die s = _
  exact if_neg (by omega)

/-- A flip that ends is no longer busy (R494). -/
theorem endFlip_idle (h : (s.die die).bias.busy = true) : ((s.endFlip die).die die).bias.busy = false := by
  unfold State.endFlip
  dsimp only
  rw [if_pos h, State.die_modDie]

/-! ## Requests of the host -/

section
variable {pa : Nat}

theorem hostEvent_acts (i : Instr) (f : Nat → State → State) (ha : hostAddr n = some pa) (hs : s.stopped pa = false) :
    hostEvent i n s f = .next (f pa s) := by
  unfold hostEvent
  rw [ha]
  exact congrArg _ (hostWait_goes _ hs)

theorem hostReadShared_waits (ha : hostAddr n = some pa) (hs : s.stopped pa = true) :
    exec (.hostReadShared n) s = .next { s with inbox := s.inbox ++ [.hostReadShared n] } := by
  change hostEvent _ n s _ = _
  unfold hostEvent
  rw [ha]
  exact congrArg _ (if_pos hs)

theorem hostReadShared_nowhere (ha : hostAddr n = none) : exec (.hostReadShared n) s = .next s := by
  change hostEvent _ n s _ = _
  unfold hostEvent
  rw [ha]

/-- The answers to the peers' reads stay while the host's access reaches its page (R493). -/
theorem hostTouch_peerReads (s : State) (pa : Nat) : (s.hostTouch pa).pkg.peerReads = s.pkg.peerReads := by
  have hf : Quiet (fun _ => False) s (s.settleFlip pa) := settleFlip_quiet (.refl s)
  have hq : Quiet (fun _ => False) s (s.hostTouch pa) := by
    unfold State.hostTouch
    dsimp only
    split
    · exact quiet_ite hf (flipBias_quiet hf)
    · exact hf
  obtain ⟨-, -, -, -, -, h, -⟩ := hq.pkg
  exact h

theorem sliceRead_peerReads (s : State) (k asid va pa : Nat) : (s.sliceRead k asid va pa).pkg.peerReads = s.pkg.peerReads := by
  have hq : Quiet (fun _ => False) s (s.sliceRead k asid va pa) := sliceRead_quiet (.refl s)
  obtain ⟨-, -, -, -, -, h, -⟩ := hq.pkg
  exact h

section
variable (ha : hostAddr n = some pa) (hs : s.stopped pa = false)
include ha hs

/-- A peer's read is answered (R503). -/
theorem peerRead_answers : ∃ t bs, exec (.peerRead n v) s = .next t ∧ t.pkg.peerReads = s.pkg.peerReads ++ [bs] := by
  change ∃ t bs, execPeerRead n v s = .next t ∧ _
  refine ⟨_, _, hostEvent_acts _ _ ha hs, congrArg (· ++ _) ?_⟩
  rw [foldl_keeps (fun t : State => t.pkg.peerReads) _ _ _ fun l _ t => sliceRead_peerReads t 96 noAsid 0 (128 * l)]
  exact hostTouch_peerReads s pa

theorem hostWriteback_acts (data : List Byte) : exec (.hostWriteback n data) s =
    .next (if (if pa / 64 % 2 = 0 then (s.halves (pa / 128)).1 else (s.halves (pa / 128)).2) = .o ∧ data.length = 64
      then ((s.reach (pa / 128)).setHalf (pa / 128) (pa / 64 % 2) .i).homeBytes (pa / 64 * 64) data else s) := by
  change execHostWriteback n data s = _
  exact hostEvent_acts _ _ ha hs

end

theorem hostSnoop_acts (hr : s.region n = .host) (hs : s.stopped n = false) :
    exec (.hostSnoop n v) s = .next (s.hostHalf n (decide (v = 1))) := by
  change execHostSnoop n v s = _
  unfold execHostSnoop
  rw [hr]
  exact congrArg _ (hostWait_goes _ hs)

end

/-! ## Answers from outside -/

section
variable {o : Outside} (ho : s.outsideOf n = some o) (hp : o.package = 126)
include ho hp

theorem mmioReadCompletion_answers (status : Nat) :
    exec (.mmioReadCompletion n status v) s = .next (s.answer o (if status = 0 then some v else none)) := by
  change execMmioReadCompletion n status v s = _
  unfold execMmioReadCompletion
  rw [ho]
  exact congrArg _ (if_pos hp)

theorem mmioReadTimeout_answers :
    exec (.mmioReadTimeout n) s = .next (if o.sent + 19000000 ≤ s.cycle then s.answer o none else s) := by
  change execMmioReadTimeout n s = _
  unfold execMmioReadTimeout mmioTimeout
  rw [ho]
  dsimp only
  simp only [hp, true_and]

end

theorem mmioRead_rests (ho : s.outsideOf n = none) :
    exec (.mmioReadCompletion n 0 v) s = .next s ∧ exec (.mmioReadTimeout n) s = .next s := by
  change execMmioReadCompletion n 0 v s = _ ∧ execMmioReadTimeout n s = _
  unfold execMmioReadCompletion execMmioReadTimeout
  rw [ho]
  exact ⟨rfl, rfl⟩

end

/-- Settles O47: an equation or an end for each event. -/
theorem hostLinkEventsAct : Obligations.HostLinkEventsAct := by
  intro die n v data s
  refine ⟨rfl, fun h0 h62 => congrArg Host.Outcome.next (migrationCommand_rests h0 h62), fun _ => migrationComplete_waits, migrationComplete_rests,
    fun _ => migrationComplete_ends, fun hd => ⟨biasFlip_acts hd, fun hb => ?idle, fun hb => ⟨_, biasFlipComplete_acts hd, endFlip_idle hb⟩⟩,
    fun _ => hostReadShared_waits, fun pa ha hs => ?served, hostReadShared_nowhere, hostSnoop_acts, fun o ho hp => ?answered, mmioRead_rests⟩
  case idle => exact (biasFlipComplete_acts hd).trans (congrArg _ (if_neg (ne_true_of_eq_false hb)))
  case served =>
    refine ⟨hostEvent_acts _ _ ha hs, hostEvent_acts _ _ ha hs, hostEvent_acts _ _ ha hs, hostEvent_acts _ _ ha hs, peerRead_answers ha hs,
      fun h => (hostWriteback_acts ha hs data).trans (congrArg _ (if_neg ?_)),
      fun hw hl => (hostWriteback_acts ha hs data).trans (congrArg _ (if_pos ⟨hw, hl⟩))⟩
    exact fun ⟨hw, hl⟩ => h.elim (fun e => e hw) (fun e => e hl)
  case answered =>
    exact ⟨mmioReadCompletion_answers ho hp 0, fun status h => (mmioReadCompletion_answers ho hp status).trans (by rw [if_neg h]),
      mmioReadTimeout_answers ho hp⟩

end Sys2Proof.Laws
end

section
/-!
SUPPORT. Boot, SPDM, lifetime counters, register writes and partitions (R12, R340, R436, R476, R513 to R515).
-/
namespace Sys2Proof.Laws
open Sys2Proof.Machine Sys2Proof.Safety

/-! ## Boot -/

section
variable {s : State} {o : BootOutcome} {step : Nat} {joined : Bool}

theorem bootChoice_of_none {l : List JournalRec} (h : ∀ r ∈ l, r.step ≠ step) : bootChoice l step = some false := by
  have hn : lastRecord l step = none :=
    List.find?_eq_none.2 fun r hr e => h r (List.mem_reverse.1 hr) (of_decide_eq_true e)
  unfold bootChoice
  rw [hn]

theorem bootOk_primary (step : Nat) (o : BootOutcome) :
    bootOk step false o = (o.primaryOk && (!readsImage step || (decide (o.cls < 16) && Config.imageVerifies o.image))) :=
  if_neg (fun ⟨_, h⟩ => Bool.false_ne_true h)

theorem resetQueues_keeps (s : State) : s.resetQueues.pkg.boot = s.pkg.boot ∧ s.resetQueues.pkg.journal = s.pkg.journal := by
  unfold State.resetQueues
  dsimp only
  generalize hx : (upto 0 4).foldl _ s = x
  have hp : x.pkg = s.pkg := hx ▸ foldl_keeps State.pkg _ _ s fun _ _ _ => rfl
  exact ⟨(congrArg Package.boot hp :), (congrArg Package.journal hp :)⟩

/-- What a step does leaves the boot phase and the journal. -/
theorem bootAction_keeps (s : State) (step : Nat) (alternate joined : Bool) (o : BootOutcome) :
    (s.bootAction step alternate joined o).pkg.boot = s.pkg.boot ∧ (s.bootAction step alternate joined o).pkg.journal = s.pkg.journal := by
  unfold State.bootAction
  split
  · exact ⟨rfl, rfl⟩
  · exact ⟨rfl, rfl⟩
  · cases alternate <;> exact ⟨rfl, rfl⟩
  · cases joined <;> exact ⟨rfl, rfl⟩
  · exact resetQueues_keeps s
  · exact ⟨rfl, rfl⟩

theorem bootSteps_succeeds (t : List BootOutcome) (hl : step < 11) (hc : bootChoice s.pkg.journal step = some false)
    (ho : bootOk step false o = true) : s.bootSteps step joined (o :: t) =
      ((s.record step false true).bootAction step false joined o).bootSteps (step + 1) (joined || decide (step = 8)) t := by
  rw [State.bootSteps, if_neg (by omega), hc]
  dsimp only
  rw [ho, if_pos rfl, Bool.not_false, Bool.and_true]

theorem bootSteps_fails (t : List BootOutcome) (hl : step < 11) (hc : bootChoice s.pkg.journal step = some false)
    (ho : bootOk step false o = false) : s.bootSteps step joined (o :: t) =
      if hasAlternate step = true then s.record step false false else (s.record step false false).bootPhase .recovery := by
  rw [State.bootSteps, if_neg (by omega), hc]
  dsimp only
  rw [ho, if_neg Bool.false_ne_true]
  simp only [true_and]

/-- Where each step succeeds, the journal takes one record of success for each, and nothing is over yet (R514). -/
theorem bootSteps_all (ho : ∀ k, bootOk k false o = true) (n : Nat) : ∀ (s : State) (step : Nat) (joined : Bool), step + n ≤ 11 →
    (∀ r ∈ s.pkg.journal, r.step < step) → (s.bootSteps step joined (List.replicate n o)).pkg.boot = s.pkg.boot ∧
      (s.bootSteps step joined (List.replicate n o)).pkg.journal = s.pkg.journal ++ (List.range' step n).map (⟨·, false, true⟩) := by
  induction n with
  | zero => exact fun s _ _ _ _ => ⟨rfl, (List.append_nil _).symm⟩
  | succ n ih =>
    intro s step joined hl hj
    have hc : bootChoice s.pkg.journal step = some false := bootChoice_of_none fun r hr => Nat.ne_of_lt (hj r hr)
    obtain ⟨hab, haj⟩ := bootAction_keeps (s.record step false true) step false joined o
    have hr : (s.record step false true).pkg.journal = s.pkg.journal ++ [⟨step, false, true⟩] := rfl
    obtain ⟨hb, hjn⟩ := ih ((s.record step false true).bootAction step false joined o) (step + 1) (joined || decide (step = 8)) (by omega)
      fun r h => by
        rw [haj, hr, List.mem_append, List.mem_singleton] at h
        rcases h with h | h
        · exact Nat.lt_succ_of_lt (hj r h)
        · rw [h]
          exact Nat.lt_succ_self step
    rw [List.replicate_succ, bootSteps_succeeds _ (by omega) hc (ho step)]
    refine ⟨hb.trans hab, hjn.trans ?_⟩
    rw [haj, hr, List.append_assoc]
    rfl

section
variable (hb : s.pkg.boot = .off) (hj : s.pkg.journal = [])
include hb hj

/-- The first start runs the steps from the first on (R514). -/
theorem boot_starts (script : List BootOutcome) : exec (.boot script) s =
    .next (if ((s.bootPhase .off).bootSteps 1 false script).pkg.boot = .off ∧ bootedAll ((s.bootPhase .off).bootSteps 1 false script) = true
      then ((s.bootPhase .off).bootSteps 1 false script).bootReady else (s.bootPhase .off).bootSteps 1 false script) := by
  change execBoot script s = _
  have h : (if s.pkg.boot = .off ∧ s.pkg.journal = [] then s else s.powerOn) = s := if_pos ⟨hb, hj⟩
  unfold execBoot
  rw [h]

/-- A first step that fails has no alternate: the package goes into recovery (R514). -/
theorem boot_recovers (ho : o.primaryOk = false) :
    ∃ t, exec (.boot [o]) s = .next t ∧ t.pkg.boot = .recovery ∧ t.pkg.journal = [⟨1, false, false⟩] := by
  have h0 : (s.bootPhase .off).pkg.journal = [] := hj
  have hc : bootChoice (s.bootPhase .off).pkg.journal 1 = some false := bootChoice_of_none (by rw [h0]; nofun)
  have hf : (s.bootPhase .off).bootSteps 1 false [o] = ((s.bootPhase .off).record 1 false false).bootPhase .recovery :=
    bootSteps_fails [] (by omega) hc (by rw [bootOk_primary, ho, Bool.false_and])
  refine ⟨_, boot_starts hb hj [o], ?_⟩
  rw [hf, if_neg (fun ⟨e, _⟩ => nomatch e)]
  exact ⟨rfl, congrArg (· ++ [_]) hj⟩

/-- Ten steps that succeed end in readiness, with the journal cleared (R514). -/
theorem boot_readies (hp : o.primaryOk = true) (hl : o.cls < 16) (hv : Config.imageVerifies o.image = true) :
    ∃ t, exec (.boot (List.replicate 10 o)) s = .next t ∧ t.pkg.boot = .ready ∧ t.pkg.journal = [] := by
  have ho (k : Nat) : bootOk k false o = true := by rw [bootOk_primary, hp, hv, decide_eq_true hl]; simp
  have h0 : (s.bootPhase .off).pkg.journal = [] := hj
  obtain ⟨hoff, hrec⟩ := bootSteps_all ho 10 (s.bootPhase .off) 1 false (by omega) (by rw [h0]; nofun)
  have hall : bootedAll ((s.bootPhase .off).bootSteps 1 false (List.replicate 10 o)) = true := by
    unfold bootedAll
    rw [hrec, h0]
    rfl
  refine ⟨_, boot_starts hb hj _, ?_⟩
  rw [if_pos ⟨hoff, hall⟩]
  exact ⟨rfl, rfl⟩

/-- An image that does not verify ends the start at the second step, whose alternate is still to run (R514). -/
theorem boot_stops (hp : o.primaryOk = true) (hv : Config.imageVerifies o.image = false) :
    ∃ t, exec (.boot (List.replicate 10 o)) s = .next t ∧ t.pkg.boot = .off ∧ t.pkg.journal = [⟨1, false, true⟩, ⟨2, false, false⟩] := by
  have h0 : (s.bootPhase .off).pkg.journal = [] := hj
  have h1 : ((s.bootPhase .off).record 1 false true).pkg.journal = [⟨1, false, true⟩] := congrArg (· ++ [_]) hj
  have hf : (s.bootPhase .off).bootSteps 1 false (List.replicate 10 o) = ((s.bootPhase .off).record 1 false true).record 2 false false := by
    rw [List.replicate_succ, bootSteps_succeeds _ (by omega) (bootChoice_of_none (by rw [h0]; nofun)) (by rw [bootOk_primary, hp]; rfl)]
    refine (bootSteps_fails _ (by omega) (bootChoice_of_none ?_) ?_).trans (if_pos rfl)
    · rw [(bootAction_keeps _ _ _ _ _).2, h1]
      decide
    · rw [bootOk_primary, hv]
      simp [readsImage]
  refine ⟨_, boot_starts hb hj _, ?_⟩
  have hr : (((s.bootPhase .off).record 1 false true).record 2 false false).pkg.journal = [⟨1, false, true⟩, ⟨2, false, false⟩] :=
    congrArg (· ++ [_]) h1
  rw [hf, if_neg]
  · exact ⟨rfl, hr⟩
  · unfold bootedAll
    rw [hr]
    exact fun ⟨_, e⟩ => Bool.false_ne_true e

end
end

/-! ## SPDM, lifetime counters and registers -/

section
variable {n v w : Nat} {nonce : List Byte} {s : State}

theorem getMeasurements_answers (h1 : 1 ≤ n) (h16 : n ≤ 16) : exec (.getMeasurements n v nonce) s =
    .next (s.spdmAnswer (.measurement n (s.pkg.measured (n - 1))
      (if v = 1 then some (Config.sign (nonce ++ s.pkg.measured (n - 1))) else none))) := by
  change execGetMeasurements n v nonce s = _
  unfold execGetMeasurements
  dsimp only
  rw [if_pos ⟨h1, h16⟩]

/-- There is one certificate slot (R513). -/
theorem otherSlot_unsupported (hn : n ≠ 0) : exec (.getCertificate n v w) s = .next (s.spdmAnswer .unsupported) ∧
    exec (.challenge n nonce) s = .next (s.spdmAnswer .unsupported) := by
  change execGetCertificate n v w s = _ ∧ execChallenge n nonce s = _
  unfold execGetCertificate execChallenge
  rw [if_neg hn, if_neg hn]
  exact ⟨rfl, rfl⟩

theorem lifetimeCounterUpdate_acts (hn : n ≤ 0x5EC) : exec (.lifetimeCounterUpdate n v) s = .next (s.modPkg (fun p => { p with
    lifetime := tmod (p.counted.foldl (fun t x => tmod t x.1 0 (· + x.2)) p.lifetime) n 0 (· + BitVec.ofNat 64 v), counted := [] })) := by
  change execLifetimeCounterUpdate n v s = _
  exact if_neg (by omega)

theorem registerWrite_acts {d : Nat} (hr : s.region n = .control d) : exec (.registerWrite n v) s =
    if s.pkg.boot = .recovery ∨ s.pkg.boot = .tripped then .next s else .next (s.writeRegister d (n % 2 ^ 24) (v % 2 ^ 64)) := by
  change execRegisterWrite n v s = _
  unfold execRegisterWrite
  rw [hr] <;> rfl

theorem partitionCreation_acts {spec : PartSpec} (hn : n < 8) (hl : (s.part n).live = false) (hc : s.clustersFree spec.clusters = true)
    (hk : spec.scratchKiB ≤ 448) (hm : spec.scratchKiB % 64 = 0) : exec (.partitionCreation n spec) s = .next (s.createPartition n spec) := by
  change execPartitionCreation n spec s = _
  refine if_neg ?_
  rw [hl, hc]
  simp only [Bool.false_eq_true, Bool.true_eq_false, false_or]
  omega

end

/-! ## A partition that is destroyed -/

section
variable {s : State} {k : Option Nat}

theorem issueRest_ended {c w g : Nat} {x : Wait} {pc : Nat} (hs : Ended k s) : Ended k (s.issueRest c w g x pc) := by
  unfold State.issueRest
  dsimp only
  split
  · exact hs
  · exact hs

theorem completeWait_ended {c w g : Nat} {x : Wait} {vs : List (Nat × Elem)} {q : Option Tri} (hs : Ended k s) :
    Ended k (s.completeWait c w g x vs q) := issueRest_ended (modGroup_ended hs)

theorem faultWait_ended {c w g : Nat} {x : Wait} {t : Trap} {late : Bool} (hs : Ended k s) : Ended k (s.faultWait c w g x t late) := by
  unfold State.faultWait
  split
  · exact hs
  · exact takeTrap_ended (modGroup_ended hs)

theorem finishReply_ended {who : Who} {id : Nat} {q : Option Tri} (hs : Ended k s) : Ended k (s.finishReply who id q) := by
  unfold State.finishReply
  split
  · exact completeWait_ended hs
  · exact modGroup_ended hs

theorem answerSlice_ended {o : Outside} {x : Nat} {signed : Bool} {size : Nat} {v : Option Nat} (hs : Ended k s) :
    Ended k (s.answerSlice o x signed size v) := by
  unfold State.answerSlice
  split
  · exact hs
  · refine ended_ite hs ?_
    split
    · exact modWg_ended hs
    · exact modWg_ended hs

theorem wakeImages_ended {c w g : Nat} {x : Wait} (hs : Ended k s) : Ended k (s.wakeImages c w g x) := by
  unfold State.wakeImages
  dsimp only
  split
  · refine ended_ite hs ?_
    split
    · exact faultWait_ended hs
    · exact modGroup_ended (completeWait_ended hs)
  · exact hs

theorem answerImage_ended {o : Outside} {w off size : Nat} {v : Option Nat} (hs : Ended k s) : Ended k (s.answerImage o w off size v) := by
  unfold State.answerImage
  dsimp only
  split
  · exact modGroup_ended hs
  · exact wakeImages_ended (modGroup_ended hs)

theorem treeDone_ended {d slot child : Nat} (hs : Ended k s) : Ended k (s.treeDone d slot child) := by
  unfold State.treeDone
  dsimp only
  refine ended_ite hs ?_
  split
  · exact hs
  · exact dropPacket_ended (signalPacket_ended hs)

theorem writeAnswered_ended {d packet : Nat} (hs : Ended k s) : Ended k (s.writeAnswered d packet) := by
  have hp : Ended k (s.packetDone d packet) := packetDone_ended hs
  unfold State.writeAnswered
  dsimp only
  split
  · exact hp
  · refine ended_ite hp ?_
    split
    · exact hp
    · split
      · exact ended_ite (treeDone_ended hp) hp
      · exact hp

theorem answer_ended {o : Outside} {v : Option Nat} (hs : Ended k s) : Ended k (s.answer o v) := by
  unfold State.answer
  dsimp only
  have hw (t : State) (ht : Ended k t) : Ended k (if o.work.writes = true then t.writeAnswered (coreDie o.who.core) o.packet else t) :=
    ended_ite (writeAnswered_ended ht) ht
  refine ended_ite (hw _ (by split <;> exact hs)) ?_
  split
  · exact modGroup_ended (hw _ (by split <;> exact hs))
  · exact modGroup_ended (hw _ (by split <;> exact hs))
  · exact answerSlice_ended (hw _ (by split <;> exact hs))
  · exact answerImage_ended (hw _ (by split <;> exact hs))
  · exact hw _ (by split <;> exact hs)

theorem answerTap_ended {o : Outside} (hs : Ended k s) : Ended k (s.answerTap o) := by
  unfold State.answerTap
  split
  · exact ended_ite (answer_ended hs) (answer_ended hs)
  · exact answer_ended hs

theorem takeReq_ended {d n : Nat} {f : State → Who → Nat → State} (hf : ∀ t, Ended k t → ∀ w id, Ended k (f t w id)) (hs : Ended k s) :
    Ended k (s.takeReq d n f) := by
  unfold State.takeReq
  dsimp only
  split
  · exact hs
  · split
    · exact hs
    · exact hf (s.dropReq d _) hs _ _

theorem modDir_ended {line : Nat} {f : DirEntry → DirEntry} (hs : Ended k s) : Ended k (s.modDir line f) := by
  unfold State.modDir
  split <;> exact hs

theorem freeSlot_ended {d n : Nat} (hs : Ended k s) : Ended k (s.freeSlot d n) := by
  unfold State.freeSlot
  split
  · exact hs
  · exact ended_foldl (fun _ h _ => answerTap_ended h) (takeReq_ended (fun _ h _ _ => finishReply_ended h) (modDir_ended hs))

theorem settleSlot_ended {d n : Nat} (hs : Ended k s) : Ended k (s.settleSlot d n) := by
  unfold State.settleSlot
  split
  · exact hs
  · exact ended_ite (freeSlot_ended hs) hs

theorem loseLine_ended {line : Nat} (hs : Ended k s) : Ended k (s.loseLine line) := ended_ite hs hs

theorem expelSlot_ended {d n : Nat} {x : Slot} (hs : Ended k s) : Ended k (s.expelSlot d n x) := by
  unfold State.expelSlot
  dsimp only
  split
  · exact ended_ite hs (ended_ite (settleSlot_ended (ended_ite (loseLine_ended hs) hs)) hs)
  · exact freeSlot_ended hs
  · exact hs

/-- The Churn slots of a partition on one die, expelled (R436). -/
def expelled (n : Nat) (s : State) (d : Nat) : State :=
  ((s.die d).slots.filter (fun x => decide (x.2.part = n ∧ x.2.state ≠ .free))).foldl (fun s x => s.expelSlot d x.1 x.2) s

theorem expelled_ended {n d : Nat} (hs : Ended k s) : Ended k (expelled n s d) := ended_foldl (fun _ h _ => expelSlot_ended h) hs

theorem partitionDestruction_acts {n : Nat} (hn : n < 8) : exec (.partitionDestruction n) s =
    .next ((upto 0 4).foldl (expelled n) (s.modPart n (fun p => { p with live := false, clusters := 0 }))) := by
  change execPartitionDestruction n s = _
  exact if_neg (by omega)

theorem part_modPart (s : State) (n : Nat) (f : Partition → Partition) : (s.modPart n f).part n = f (s.part n) :=
  tgetD_tmod_same s.pkg.parts n Partition.reset f

theorem partitionDestruction_ends {n : Nat} (hn : n < 8) : ∃ t, exec (.partitionDestruction n) s = .next t ∧ (t.part n).live = false := by
  have h0 : Ended (some n) (s.modPart n (fun p => { p with live := false, clusters := 0 })) := congrArg Partition.live (part_modPart s n _)
  have hd : Ended (some n) ((upto 0 4).foldl (expelled n) (s.modPart n (fun p => { p with live := false, clusters := 0 }))) :=
    ended_foldl (fun _ h _ => expelled_ended h) h0
  exact ⟨_, partitionDestruction_acts hn, hd⟩

end

/-- Settles O50: boot by the steps that its script lets succeed, an equation for each request and write, and an end of a destruction. -/
theorem bootAndRegisterEventsAct : Obligations.BootAndRegisterEventsAct := by
  intro n v w nonce s answers
  refine ⟨fun script => ⟨_, rfl⟩, fun o ho hb hj => boot_recovers hb hj ho, fun o ho hl hb hj => ?boots, rfl, rfl, rfl, rfl, rfl, rfl,
    getMeasurements_answers, otherSlot_unsupported, rfl, rfl, lifetimeCounterUpdate_acts, fun d hr => ⟨fun h => ?locked, fun h => ?opened⟩,
    partitionDestruction_ends, fun spec => partitionCreation_acts⟩
  case boots =>
    by_cases hv : Config.imageVerifies o.image = true
    · simp only [if_pos hv]
      exact boot_readies hb hj ho hl hv
    · simp only [if_neg hv]
      exact boot_stops hb hj ho (Bool.eq_false_iff.2 hv)
  case locked => exact (registerWrite_acts hr).trans (if_pos h)
  case opened => exact (registerWrite_acts hr).trans (if_neg (fun e => by rcases h with h | h <;> rw [h] at e <;> exact e.elim nofun nofun))

end Sys2Proof.Laws
end
